-- ==== Sys2Proof/Word.lean ====
section
/-! DEFINITION. The word types of the CR512 and its index types (R4, R5). -/

namespace Sys2Proof

/-- A 32-bit register or data word. -/
abbrev Word := BitVec 32

/-- A byte. -/
abbrev Byte := BitVec 8

/-- Bell time (R23). -/
abbrev Bell := BitVec 48

/-- Heads H000 to H511 (R4). -/
abbrev HeadIx := Fin 512

/-- Sections S000 to S511 (R4). -/
abbrev SecIx := Fin 512

/-- Engines E000 to E511 (R4). -/
abbrev EngIx := Fin 512

/-- Stop groups G00 to G15 (R4). -/
abbrev GrpIx := Fin 16

/-- Link ports P00 to P31 (R4). -/
abbrev PortIx := Fin 32

/-- Rings 00 to 31 (R4). -/
abbrev RingIx := Fin 32

/-- GN8 position 4k + s of ring k, slot s (R78). -/
abbrev Gn8Ix := Fin 128

/-- Power domains D00 to D29 (R4). -/
abbrev DomIx := Fin 30

/-- A general register of a Dyhar context (R169). -/
abbrev GReg := Fin 32

/-- A vector register of a Dyhar context (R169). -/
abbrev VReg := Fin 16

/-- A coprocessor tag number (R173). -/
abbrev TagIx := Fin 24

end Sys2Proof
end

