-- ==== Sys2Proof/Syntax.lean ====
section
/-! DEFINITION. The commands of the block: one constructor per row of the opcode table, with its operands. -/

namespace Sys2Proof

/-- The two host ports (R274). -/
inductive HostId where
  | ha
  | hb
  deriving DecidableEq, Repr

/-- The two bell trees, and channel A or B of any pair (R37). -/
inductive Side where
  | a
  | b
  deriving DecidableEq, Repr

/-- The two contexts of an engine (R164). -/
inductive Ctx where
  | head
  | ext
  deriving DecidableEq, Repr

/-- The four comparator lanes (R212). -/
inductive Lane where
  | rf
  | mem
  | disp
  | post
  deriving DecidableEq, Repr

/-- How the lanes of an engine fall out of step: the shadow gives a lane an entry ahead of the primary, or it gives the lane nothing
more (R213). -/
inductive Lag where
  | ahead (l : Lane)
  | behind (l : Lane)
  deriving DecidableEq, Repr

/-- The two sides of a window (R336). -/
inductive Excursion where
  | under
  | over
  deriving DecidableEq, Repr

/-- What took a link DOWN (R59). -/
inductive LinkLoss where
  | violations
  | noComma
  | noSignal
  deriving DecidableEq, Repr

/-- Which output of a stop group a read-back concerns (R247). -/
inductive SgOut where
  | tra
  | trb
  | srq
  deriving DecidableEq, Repr

/-- What the host's enumeration has written into the configuration space of a port when its link comes up (R274, R275): the
command register, the BARs, the maximum payload size, and how MSI and MSI-X are enabled. -/
structure PciCfg where
  /-- The command register. -/
  cmd : BitVec 16
  /-- Base addresses of BAR0 and BAR2. -/
  bar0 : BitVec 64
  bar2 : BitVec 64
  /-- The maximum payload size is 256 bytes, else 128. -/
  mps256 : Bool
  /-- MSI is enabled, with 2 to the power msiVecs messages. -/
  msiEn : Bool
  msiVecs : Fin 4
  /-- Message address and data of MSI. -/
  msiAddr : BitVec 64
  msiData : BitVec 16
  /-- MSI-X is enabled, and all its vectors are masked. -/
  msixEn : Bool
  msixMask : Bool
  deriving DecidableEq, Repr

def PciCfg.reset : PciCfg :=
  { cmd := 0, bar0 := 0, bar2 := 0, mps256 := false, msiEn := false, msiVecs := 0, msiAddr := 0, msiData := 0
    msixEn := false, msixMask := false }

/-- A port's link becomes active: at its higher speed or not, and with what configuration space (R274, R278). -/
structure LinkUp where
  gen2 : Bool
  cfg : PciCfg
  deriving DecidableEq, Repr

/-- A private memory of an engine (R163). -/
inductive MemId where
  | imem
  | dmem
  | vmem
  | stream
  deriving DecidableEq, Repr

/-- An error in a stored word (R163): the memory, its 32-bit word, and whether it is uncorrectable. Word 512 x slot + 4 x place
+ word is a word of the stream buffer, by the entry's place in its slot's queue. -/
structure EccErr where
  mem : MemId
  word : Nat
  double : Bool
  deriving DecidableEq, Repr

/-- What the physical world shows the device at a landing tick (R254, R333, R339, R344, R350, R352, R40).
A missing list entry means "as at the tick before". -/
structure TickIn where
  /-- The twelve sensor readings T0 to T11, in 0.1 degree C (R344). -/
  temps : List Int
  /-- Phases whose oscillator is found outside 70 to 130 MHz, as (domain, phase) (R333). -/
  oscBad : List (Nat × Nat)
  /-- The threshold DAC read back at this landing differs by more than 15 mV (R339). -/
  dacBad : Bool
  /-- In holdover, the two trees' tick rates differ by more than 1.2 percent (R40). -/
  rateBad : Bool
  /-- Nanoseconds between the two trees' copies of the tick at the unit where they lie furthest apart; none where a unit
  misses a copy (R37). -/
  skew : Option Nat
  /-- Measured rails, as (domain, mV) (R350). -/
  vmeas : List (Nat × Nat)
  /-- Measured output currents, as (domain, mA) (R350). -/
  iout : List (Nat × Nat)
  /-- Trunk voltage in mV and current in units of 10 mA (R352). -/
  trunk : Option (Nat × Nat)
  /-- Errors that have come into stored words since the tick before, by engine (R163). -/
  upsets : List (Nat × EccErr)
  /-- Corrected single-bit errors in the memories of supervisors A and B since the tick before (R377). -/
  supCe : Nat × Nat
  /-- A report whose path has failed its parity check since the tick before, as (class, index, bit) (R375). -/
  badReport : Option (Fin 18 × Fin 512 × Fin 32)
  deriving DecidableEq, Repr

/-- A landing tick at which the world shows nothing new. -/
def TickIn.quiet : TickIn :=
  { temps := [], oscBad := [], dacBad := false, rateBad := false, skew := some 0, vmeas := [], iout := [], trunk := none,
    upsets := [], supCe := (0, 0), badReport := none }

/-- What the manifests' hardware shows at a commit (R140, R141). -/
structure CommitIn where
  /-- Sections on which the two pending records differ, or hold a double-bit error (R140). -/
  mismatch : List Nat
  /-- Sections whose storage showed a corrected single-bit error (R140). -/
  corrected : List Nat
  /-- The copies disagree on a word that is no part of a section record (R141). -/
  otherWord : Bool
  deriving DecidableEq, Repr

/-- A commit at which the copies agree. -/
def CommitIn.clean : CommitIn := { mismatch := [], corrected := [], otherWord := false }

/-- What the supervisors' hardware shows at a checkpoint (R234 to R238). -/
structure CheckIn where
  /-- Pass times of supervisors A and B in ticks (R235, R377). -/
  passA : Nat
  passB : Nat
  /-- Mailbox entries on whose outcome the supervisors disagree, as (port is HB, index) (R234). -/
  disagree : List (Bool × Nat)
  /-- Bits in which a fault changes supervisor A's and B's digest; 0 where none does (R234). -/
  errA : Word
  errB : Word
  /-- The comparators in D06 and D07 report a match (R237). -/
  reportA : Bool
  reportB : Bool
  /-- At a test landing, each comparator reported the test word and no other (R238). -/
  testA : Bool
  testB : Bool
  deriving DecidableEq, Repr

/-- A checkpoint at which everything agrees. -/
def CheckIn.clean : CheckIn :=
  { passA := 0, passB := 0, disagree := [], errA := 0, errB := 0, reportA := true, reportB := true,
    testA := true, testB := true }

/-- What the rest of a proof program shows, from the instructions commanded one by one to its end (R217, R218). -/
structure WindowIn where
  /-- Instructions it retires. -/
  n : Nat
  /-- Bits that the primary's compare words shift into the signatures of RF, MEM, DISP and POST. -/
  bitsP : List (List Bool)
  /-- The same of the shadow. -/
  bitsS : List (List Bool)
  /-- Forced differences that were not reported, or on another lane. -/
  missed : Nat
  /-- An unforced mismatch or an uncorrectable memory error occurred. -/
  unforced : Bool
  deriving DecidableEq, Repr

/-- The fields of a mailbox entry other than OP (R290). -/
structure MbFields where
  /-- Byte 1, zero. -/
  z1 : Byte
  obj : BitVec 16
  tag : Word
  issue : Word
  gen : BitVec 16
  acode : BitVec 16
  count : BitVec 16
  key : BitVec 16
  /-- Bytes 20 to 31, byte 20 in bits 7:0. -/
  arg : BitVec 96
  deriving DecidableEq, Repr

/-- The commands of the block. -/
inductive Instr where
  /-- POWER_UP (R328): VAON rises above 1.62 V and AON starts the internal domain bring-up sequence with SAFE_N asserted. -/
  | powerUp
  /-- DOMAIN_IN_SERVICE (R328): Both monitors report a ramping domain inside its window for 64 consecutive bell ticks, and the next step of the bring-up sequence starts. -/
  | domainInService (d : DomIx)
  /-- DOMAIN_START_TIMEOUT (R328): A domain of steps 2 and 3 is not in service within 5 ms of its start; the sequence stops and the device enters its safe state. -/
  | domainStartTimeout (d : DomIx)
  /-- ENG_DOMAIN_START (R328): After the Boot→Prove transition, or on ungating, the next ENG domain starts at 0.95 V, one every 100 µs. -/
  | engDomainStart
  /-- RESET_N_ASSERT (R401): RESET_N is held low for at least 10 µs; every domain except D00 is held off, the device returns to BOOT and the fault registers clear. -/
  | resetNAssert
  /-- RESET_N_RELEASE (R401): RESET_N rises; bell time and the landing number restart from zero and bring-up resumes at step 2. -/
  | resetNRelease
  /-- TRUNK_FAULT (R330): VTRK lies out of range at 5 of 7 consecutive ticks; TRUNK_UV or TRUNK_OV sets and the device enters its safe state. -/
  | trunkFault (x : Excursion)
  /-- VAON_LOSS (R402): VAON falls below 1.55 V; D00 is lost and every ball goes to its unpowered state. -/
  | vaonLoss
  /-- VIO33_LOSS (R402): VIO33 is lost; S33 outputs fall low, read-back locks the groups that were driving, and the seal reads then fail. -/
  | vio33Loss
  /-- VLNK_LOSS (R402): VLNK is lost and every Tsumal link goes DOWN. -/
  | vlnkLoss
  /-- VPCI_LOSS (R402): VPCI or VPH18 is lost; both host links go down while service continues. -/
  | vpciLoss (vph18 : Bool)
  /-- LANDING_TICK (R31): At a landing tick the landing number increments, the merge units close every engine stream with an end-of-frame mark, and the closing frame begins to drain. -/
  | landingTick (w : TickIn)
  /-- BELL_TIME_WRAP (R46): Bell time passes 0xFFFF_FFFF_FFFF to zero and BELL_WRAP.BELL increments. -/
  | bellTimeWrap
  /-- LANDING_NUMBER_WRAP (R46): The landing number wraps to zero and BELL_WRAP.LAND increments. -/
  | landingNumberWrap (w : TickIn)
  /-- REFERENCE_EXPIRY (R45): A stored bell-time or landing-number reference ages past its limit and is expired, so that it compares as stale. -/
  | referenceExpiry
  /-- REF_MEASURE (R25): After each 65 536 ticks a bell tree measures BELLREF against its oscillator, trims the oscillator and judges plausibility. -/
  | refMeasure (t : Side) (dev : Int) (missing : Bool)
  /-- HOLDOVER_ENTRY (R40): Both trees find BELLREF implausible; the bell enters holdover on tree A's oscillator, adds the three missing ticks, and the safe-stop timer starts. -/
  | holdoverEntry (missing : Bool)
  /-- HOLDOVER_EXIT (R43): 65 536 consecutive plausible BELLREF edges have been counted; the bell returns to BELLREF at the next landing tick and the safe-stop timer clears. -/
  | holdoverExit
  /-- SAFE_STOP_TIMER_EXPIRY (R42): The holdover or single-tree timer reaches 10 000 000 ticks; SS_EXPIRED sets and the supervisors order a safe stop on every group. -/
  | safeStopTimerExpiry
  /-- TREE_DISAGREEMENT (R38): A unit reports a missing, late or disagreeing tree copy, and the commit sequencer takes one tree out or enters the safe state. -/
  | treeDisagreement (aFault bFault : Bool)
  /-- BELLPPS_EDGE (R26): A BELLPPS rising edge is stamped with bell time and its interval is judged; a pending LOAD_PPS preset takes effect. -/
  | bellppsEdge
  /-- PPS_SEEN_EXPIRY (R49): Two seconds of bell time pass without a BELLPPS edge and BELL_STAT.PPS_SEEN clears. -/
  | ppsSeenExpiry
  /-- BELL_LOAD (R27): A write of 1 to BELL_CTL.LOAD in BOOT requests the preset of bell time and landing number at the next bell tick. -/
  | bellLoad (p : HostId)
  /-- BELL_LOAD_PPS (R27): A write of 1 to BELL_CTL.LOAD_PPS in BOOT requests the preset at the next qualifying BELLPPS edge. -/
  | bellLoadPps (p : HostId)
  /-- PRESET_LOAD (R27): At the next bell tick after BELL_CTL.LOAD, bell time and the landing number take the preset values and the landing phase returns to zero. -/
  | presetLoad
  /-- BELL_PERIOD_WRITE (R50): A write to BELL_PERIOD in BOOT is range-checked; an accepted value governs from the next landing tick and a refused one sets BELL_FLT.CFG. -/
  | bellPeriodWrite (p : HostId) (v : Word)
  /-- BELL_TIME_LO_READ (R51): A read of BELL_TIME_LO returns bell time [31:0] and latches [47:32] into the port's BELL_TIME_HI. -/
  | bellTimeLoRead (p : HostId)
  /-- BELL_PPS_LO_READ (R51): A read of BELL_PPS_LO latches the matching upper half into the port's BELL_PPS_HI. -/
  | bellPpsLoRead (p : HostId)
  /-- WLAND_DRAINED (R181): WLAND has seen every end-of-frame mark pulled and every head-context tag returned, and it reports the engine drained to the commit sequencer. -/
  | wlandDrained (e : EngIx)
  /-- DRAIN_DEADLINE (R34): The drain deadline passes; every late engine's events are discarded, its heads report FAULT LATE, its sections become DISTURBED, and the engine is halted. -/
  | drainDeadline
  /-- COMMIT (R137): After drain complete, both manifests apply the event set, derive every section, apply the supervisors' actions, compare and switch banks, and the next frame is released. -/
  | commit (w : CommitIn)
  /-- SWEEP_TIMEOUT (R154): SWEEP_TMO elapses since the sweep start and the section becomes DISTURBED with cause SWEEP. -/
  | sweepTimeout (n : SecIx)
  /-- COMMIT_TIMEOUT (R36): A manifest has not completed within 80 ticks of drain complete; it is declared failed, or the device enters its safe state if both miss. -/
  | commitTimeout (aMissed bMissed : Bool)
  /-- PROVE_TIMEOUT (R316): 10 s after the Boot→Prove transition, PDONE sets regardless and DEV_PROVE.TMO sets. -/
  | proveTimeout
  /-- SELFTEST_COMPLETE (R315): The PROVE self-tests end and DEV_PROVE.ST, and STFAIL when a test failed, set at the next commit. -/
  | selftestComplete (failed : List (DomIx × Option Side))
  /-- HARBOUR_DISPERSAL_START (R322): During HARBOUR exit, dispersal of a GN8's heads begins once READY engines are available. -/
  | harbourDispersalStart (g : Gn8Ix)
  /-- DECIMATION_GRID_CHANGE (R77): A GN8 and its merge unit change between the 100-tick and 800-tick grids at the first multiple of 800 ticks after the landing tick. -/
  | decimationGridChange (g : Gn8Ix)
  /-- CHECKPOINT (R234): Both supervisors' digests have arrived and are compared; command outcomes are settled and matching orders are released. -/
  | checkpoint (w : CheckIn)
  /-- CHECKPOINT_DEADLINE (R235): The checkpoint deadline passes without both digests and the checkpoint fails. -/
  | checkpointDeadline
  /-- TOKEN_PAIR (R262): SAFIO receives a token pair with the orders, checks it, and applies the orders when it accepts the pair; the operands are the bits the paths change, and whether the two copies of the orders arrive equal. -/
  | tokenPair (errA errB errLandA errLandB : Word) (sameOrders : Bool)
  /-- DEADMAN_EXPIRY (R263): At a second consecutive miss, every group output goes low, every group is LOCKED and AON asserts SAFE_N. -/
  | deadmanExpiry
  /-- NOTICK_TIMEOUT (R264): SAFIO's own oscillator finds no landing tick for 2.5 periods and SAFIO acts as at a second miss. -/
  | notickTimeout
  /-- SS1_STANDSTILL (R254): Standstill has held for T_STILL, the group enters DROP and TRA and TRB go low. -/
  | ss1Standstill (g : GrpIx)
  /-- SS1_TIMEOUT (R254): T_SS1 elapses in SS1, the group enters DROP, and SS1_TMO sets when standstill was not confirmed with an encoder fitted. -/
  | ss1Timeout (g : GrpIx)
  /-- FB_WINDOW_EXPIRY (R256): T_FB elapses without the required feedback levels, or with a discrepancy, and the group enters LOCKED with the matching fault. -/
  | fbWindowExpiry (g : GrpIx)
  /-- FEEDBACK_CHANGE (R256): A contactor feedback input takes a new level, which can complete ENERGISE or DROP or signal a loss. -/
  | feedbackChange (g : GrpIx) (ch : Side) (level : Bool)
  /-- GUARD_CHANGE (R257): A guard input takes a new level, which counts toward GTEST or becomes a stop cause. -/
  | guardChange (g : GrpIx) (ch : Side) (level : Bool)
  /-- GUARD_DISCREPANCY_TIMEOUT (R257): The two guard inputs have disagreed for 500 ms and the group is LOCKED with GDISC set. -/
  | guardDiscrepancyTimeout (g : GrpIx)
  /-- LRST_CHANGE (R259): A reset input takes a new level; a valid pulse inside an open reset window marks the reset for the next commit. -/
  | lrstChange (g : GrpIx) (level : Bool)
  /-- RESET_WINDOW_EXPIRY (R259): The 10 s reset window ends without a valid pulse and RST_BAD sets. -/
  | resetWindowExpiry (g : GrpIx)
  /-- LRST_STUCK (R259): The reset input has been high for more than 2 s and RST_BAD sets. -/
  | lrstStuck (g : GrpIx)
  /-- ENCODER_EDGE (R248): An encoder edge is decoded into the position, or counted as illegal and locks the group when it is in motion. -/
  | encoderEdge (g : GrpIx) (la lb : Bool)
  /-- READBACK_FAULT (R247): An output's pad read-back differs from its driven level at two consecutive samples and the group is LOCKED. -/
  | readbackFault (g : GrpIx) (o : SgOut)
  /-- SEAL_READ (R265): At the Boot→Prove transition, at every 256th landing tick, or after a mismatch, SAFIO starts a read of the seal chain. -/
  | sealRead
  /-- SEAL_READ_DONE (R266): A seal read ends and is judged, which sets SEAL_OK, counts a glitch, or fails the seal after two mismatches. -/
  | sealReadDone (bits : BitVec 40)
  /-- FRAME_RECEIVE (R60): A frame is received whole at a port and checked; a failing frame is discarded and counted. -/
  | frameReceive (p : PortIx) (groups : List (BitVec 10)) (gap : Nat)
  /-- SAMPLE_FRAME (R70): A valid SAMPLE frame is merged: the first copy of an instant writes stream entries in order, and later copies are compared and discarded. -/
  | sampleFrame (p : PortIx)
  /-- MARKER_FRAME (R66): A partner's MARKER is received and the bell-time offset to the partner is measured. -/
  | markerFrame (p : PortIx)
  /-- STATUS_FRAME (R63): A GN8 STATUS reply to a command is received. -/
  | statusFrame (p : PortIx)
  /-- MARKER_SEND (R65): Each port in use sends a MARKER at every bell time that is a multiple of 1 000 ticks. -/
  | markerSend
  /-- COMMAND_RETRY (R63): No STATUS arrives within 100 µs and the command is resent once, through the other port. -/
  | commandRetry (k : RingIx)
  /-- INSTANT_MISSING (R70): An expected instant has no valid copy by its time plus 660 ticks and is declared missing. -/
  | instantMissing (g : Gn8Ix)
  /-- DIRECTION_LOSS (R73): Sixteen consecutive instants of a GN8 arrive from only one direction; DIR_LOSS sets and the ring becomes OPEN. -/
  | directionLoss (g : Gn8Ix)
  /-- DIRECTION_REGAIN (R73): Sixteen consecutive instants arrive from both directions and the GN8 regains the direction. -/
  | directionRegain (g : Gn8Ix)
  /-- GN8_OUT_TIMEOUT (R74): No valid instant has arrived from a GN8 for 64 landings and the GN8 is out. -/
  | gn8OutTimeout (g : Gn8Ix)
  /-- DIGEST_CHECK (R69): Every 256 landings the supervisors read each GN8's set-up digest and take a differing GN8 out. -/
  | digestCheck (g : Gn8Ix) (digest : Word)
  /-- LINK_UP (R59): After comma alignment, 64 further characters without a code violation bring a link UP. -/
  | linkUp (p : PortIx)
  /-- LINK_DOWN (R59): Code violations, the absence of K28.5 for 4 µs, or loss of signal take a link DOWN. -/
  | linkDown (p : PortIx) (why : LinkLoss)
  /-- DISCOVERY_TIMEOUT (R68): A discovery step's 10 ms or 20 ms limit expires, and the ring is FAILED with its DERR code. -/
  | discoveryTimeout (k : RingIx)
  /-- SAMPLE_EVALUATE (R87): The head program evaluates a sample's damping, updates the confirmation runs, and applies any confirmed pattern change. -/
  | sampleEvaluate (h : HeadIx)
  /-- BUBBLE_READ (R97): The head reads a bubble token; it enters FAULT or SUSPECT, or judges the bubble once systems confirm. -/
  | bubbleRead (h : HeadIx)
  /-- SYSOK_FAULT (R99): Sixteen consecutive instants with SYSOK clear put the head into FAULT with cause SYSOK. -/
  | sysokFault (h : HeadIx)
  /-- STANDING_ENTRY (R96): A passage pattern unchanged for T_STAND moves the head into STANDING. -/
  | standingEntry (h : HeadIx)
  /-- SUSPECT_EXIT (R410): T_QUIET elapses with both systems undamped, and the head leaves SUSPECT for IDLE or BASELINE. -/
  | suspectExit (h : HeadIx)
  /-- SYSOK_FAULT_EXIT (R99): After T_QUIET of instants with SYSOK set, a FAULT SYSOK head enters BASELINE. -/
  | sysokFaultExit (h : HeadIx)
  /-- LEARNING_WINDOW_JUDGE (R84): At the landing tick that ends a learning window or records its first failure, the window is judged and the head enters IDLE, retries, OCCUPIED_AT_START or FAULT. -/
  | learningWindowJudge (h : HeadIx)
  /-- BASELINE_TRACK (R86): After a frame spent wholly in IDLE, the baseline is updated and excessive drift sends the head to SUSPECT DRIFT. -/
  | baselineTrack (h : HeadIx)
  /-- ADD (R176): Integer add. -/
  | add (e : EngIx) (c : Ctx) (rd rs1 rs2 : GReg)
  /-- SUB (R176): Integer subtract. -/
  | sub (e : EngIx) (c : Ctx) (rd rs1 rs2 : GReg)
  /-- AND (R176): Bitwise and. -/
  | and (e : EngIx) (c : Ctx) (rd rs1 rs2 : GReg)
  /-- OR (R176): Bitwise or. -/
  | or (e : EngIx) (c : Ctx) (rd rs1 rs2 : GReg)
  /-- XOR (R176): Bitwise exclusive or. -/
  | xor (e : EngIx) (c : Ctx) (rd rs1 rs2 : GReg)
  /-- SLL (R176): Shift left logical by register. -/
  | sll (e : EngIx) (c : Ctx) (rd rs1 rs2 : GReg)
  /-- SRL (R176): Shift right logical by register. -/
  | srl (e : EngIx) (c : Ctx) (rd rs1 rs2 : GReg)
  /-- SRA (R176): Shift right arithmetic by register. -/
  | sra (e : EngIx) (c : Ctx) (rd rs1 rs2 : GReg)
  /-- SLT (R176): Set if less than, signed. -/
  | slt (e : EngIx) (c : Ctx) (rd rs1 rs2 : GReg)
  /-- SLTU (R176): Set if less than, unsigned. -/
  | sltu (e : EngIx) (c : Ctx) (rd rs1 rs2 : GReg)
  /-- MUL (R176): Low 32 bits of a product. -/
  | mul (e : EngIx) (c : Ctx) (rd rs1 rs2 : GReg)
  /-- MULH (R176): High 32 bits of a signed product. -/
  | mulh (e : EngIx) (c : Ctx) (rd rs1 rs2 : GReg)
  /-- MULHU (R176): High 32 bits of an unsigned product. -/
  | mulhu (e : EngIx) (c : Ctx) (rd rs1 rs2 : GReg)
  /-- MIN (R176): Signed minimum. -/
  | min (e : EngIx) (c : Ctx) (rd rs1 rs2 : GReg)
  /-- MAX (R176): Signed maximum. -/
  | max (e : EngIx) (c : Ctx) (rd rs1 rs2 : GReg)
  /-- MINU (R176): Unsigned minimum. -/
  | minu (e : EngIx) (c : Ctx) (rd rs1 rs2 : GReg)
  /-- MAXU (R176): Unsigned maximum. -/
  | maxu (e : EngIx) (c : Ctx) (rd rs1 rs2 : GReg)
  /-- ABS (R176): Absolute value. -/
  | abs (e : EngIx) (c : Ctx) (rd rs1 : GReg)
  /-- CLZ (R176): Count of leading zero bits. -/
  | clz (e : EngIx) (c : Ctx) (rd rs1 : GReg)
  /-- ADDI (R176): Add a sign-extended immediate. -/
  | addi (e : EngIx) (c : Ctx) (rd rs1 : GReg) (imm : BitVec 16)
  /-- ANDI (R176): And with a zero-extended immediate. -/
  | andi (e : EngIx) (c : Ctx) (rd rs1 : GReg) (imm : BitVec 16)
  /-- ORI (R176): Or with a zero-extended immediate. -/
  | ori (e : EngIx) (c : Ctx) (rd rs1 : GReg) (imm : BitVec 16)
  /-- XORI (R176): Exclusive or with a zero-extended immediate. -/
  | xori (e : EngIx) (c : Ctx) (rd rs1 : GReg) (imm : BitVec 16)
  /-- SLTI (R176): Set if less than an immediate, signed. -/
  | slti (e : EngIx) (c : Ctx) (rd rs1 : GReg) (imm : BitVec 16)
  /-- SLTIU (R176): Set if less than an immediate, unsigned. -/
  | sltiu (e : EngIx) (c : Ctx) (rd rs1 : GReg) (imm : BitVec 16)
  /-- SHI (R176): Shift by an immediate amount of the selected kind. -/
  | shi (e : EngIx) (c : Ctx) (rd rs1 : GReg) (kind : Fin 4) (sh : BitVec 5)
  /-- LUI (R176): Load an immediate into the upper half. -/
  | lui (e : EngIx) (c : Ctx) (rd : GReg) (imm : BitVec 16)
  /-- LW (R176): Load a word; a load from shared space takes a tag. -/
  | lw (e : EngIx) (c : Ctx) (rd rs1 : GReg) (off : BitVec 16)
  /-- LH (R176): Load a sign-extended halfword. -/
  | lh (e : EngIx) (c : Ctx) (rd rs1 : GReg) (off : BitVec 16)
  /-- LHU (R176): Load a zero-extended halfword. -/
  | lhu (e : EngIx) (c : Ctx) (rd rs1 : GReg) (off : BitVec 16)
  /-- LB (R176): Load a sign-extended byte. -/
  | lb (e : EngIx) (c : Ctx) (rd rs1 : GReg) (off : BitVec 16)
  /-- LBU (R176): Load a zero-extended byte. -/
  | lbu (e : EngIx) (c : Ctx) (rd rs1 : GReg) (off : BitVec 16)
  /-- SW (R176): Store a word. -/
  | sw (e : EngIx) (c : Ctx) (rs2 rs1 : GReg) (off : BitVec 16)
  /-- SH (R176): Store a halfword. -/
  | sh (e : EngIx) (c : Ctx) (rs2 rs1 : GReg) (off : BitVec 16)
  /-- SB (R176): Store a byte. -/
  | sb (e : EngIx) (c : Ctx) (rs2 rs1 : GReg) (off : BitVec 16)
  /-- SHARED_LOAD_COMPLETE (R172): A tagged shared-space load writes its destination register and returns its tag. -/
  | sharedLoadComplete (e : EngIx) (c : Ctx) (t : Fin 8)
  /-- BEQ (R176): Branch if equal. -/
  | beq (e : EngIx) (c : Ctx) (rs1 rs2 : GReg) (off : BitVec 16)
  /-- BNE (R176): Branch if not equal. -/
  | bne (e : EngIx) (c : Ctx) (rs1 rs2 : GReg) (off : BitVec 16)
  /-- BLT (R176): Branch if less than, signed. -/
  | blt (e : EngIx) (c : Ctx) (rs1 rs2 : GReg) (off : BitVec 16)
  /-- BGE (R176): Branch if greater or equal, signed. -/
  | bge (e : EngIx) (c : Ctx) (rs1 rs2 : GReg) (off : BitVec 16)
  /-- BLTU (R176): Branch if less than, unsigned. -/
  | bltu (e : EngIx) (c : Ctx) (rs1 rs2 : GReg) (off : BitVec 16)
  /-- BGEU (R176): Branch if greater or equal, unsigned. -/
  | bgeu (e : EngIx) (c : Ctx) (rs1 rs2 : GReg) (off : BitVec 16)
  /-- JAL (R176): Jump and link through g31. -/
  | jal (e : EngIx) (c : Ctx) (off : BitVec 26)
  /-- JALR (R176): Jump to a register target and link. -/
  | jalr (e : EngIx) (c : Ctx) (rd rs1 : GReg) (imm : BitVec 16)
  /-- BRANCH_RESOLVE (R186): An unresolved conditional branch resolves; held results are written or squashed, and commit or kill tokens go to the speculative dispatches. -/
  | branchResolve (e : EngIx) (c : Ctx)
  /-- VLD (R176): Dispatch a vector load. -/
  | vld (e : EngIx) (c : Ctx) (t : BitVec 5) (vd : VReg) (gs : GReg) (m : BitVec 4)
  /-- VST (R176): Dispatch a vector store that takes effect on its commit token. -/
  | vst (e : EngIx) (c : Ctx) (t : BitVec 5) (va : VReg) (gs : GReg) (m : BitVec 4)
  /-- VFIR (R195): Dispatch a FIR filter operation. -/
  | vfir (e : EngIx) (c : Ctx) (t : BitVec 5) (vd va vb : VReg) (gs : GReg) (m : BitVec 4)
  /-- VMAC (R194): Dispatch a lane multiply-accumulate. -/
  | vmac (e : EngIx) (c : Ctx) (t : BitVec 5) (vd va vb : VReg) (m : BitVec 4)
  /-- VCORR (R194): Dispatch a correlation. -/
  | vcorr (e : EngIx) (c : Ctx) (t : BitVec 5) (vd va vb : VReg) (m : BitVec 4)
  /-- VMAG (R196): Dispatch a magnitude or phase operation. -/
  | vmag (e : EngIx) (c : Ctx) (t : BitVec 5) (vd va vb : VReg) (m : BitVec 4)
  /-- VNORM (R194): Dispatch a normalisation. -/
  | vnorm (e : EngIx) (c : Ctx) (t : BitVec 5) (vd va : VReg) (m : BitVec 4)
  /-- VADD (R194): Dispatch a vector add or subtract. -/
  | vadd (e : EngIx) (c : Ctx) (t : BitVec 5) (vd va vb : VReg) (m : BitVec 4)
  /-- VSCALE (R194): Dispatch an exponent shift or fractional scaling. -/
  | vscale (e : EngIx) (c : Ctx) (t : BitVec 5) (vd va : VReg) (gs : GReg) (m : BitVec 4)
  /-- VMAX (R194): Dispatch a lane maximum or maximum magnitude. -/
  | vmax (e : EngIx) (c : Ctx) (t : BitVec 5) (vd va vb : VReg) (m : BitVec 4)
  /-- VRED (R194): Dispatch a lane reduction. -/
  | vred (e : EngIx) (c : Ctx) (t : BitVec 5) (vd va : VReg) (m : BitVec 4)
  /-- VWAIT (R176): Wait until the coprocessor tags in the mask have returned. -/
  | vwait (e : EngIx) (c : Ctx) (mask : BitVec 24)
  /-- VWAIT_RESUME (R176): The awaited tags have returned and a blocked VWAIT proceeds. -/
  | vwaitResume (e : EngIx) (c : Ctx)
  /-- COP_OP_START (R201): A queued coprocessor operation starts once its unit, hold register, dependencies and memory ordering allow. -/
  | copOpStart (e : EngIx) (t : TagIx)
  /-- COP_OP_END (R203): An operation ends its latency; it moves to the hold register, or a killed operation clears its shadow bank and returns its tag. -/
  | copOpEnd (e : EngIx) (t : TagIx) (checkFail : Bool)
  /-- COP_COMPLETE (R206): A committed operation writes vd or memory, posts its exceptions and returns its tag. -/
  | copComplete (e : EngIx) (t : TagIx)
  /-- PULL (R179): Issue a pull of the next stream entry of a slot. -/
  | pull (e : EngIx) (c : Ctx) (rd rs1 : GReg) (slot : Fin 8)
  /-- PULL_COMPLETE (R179): A stream entry is available and a pull writes it to its destination. -/
  | pullComplete (e : EngIx)
  /-- PEEK (R179): Read a word of the next unclaimed entry, or the count of such entries. -/
  | peek (e : EngIx) (c : Ctx) (rd : GReg) (slot : Fin 8) (w : Fin 4) (n : Bool)
  /-- PEEK_RESUME (R179): A waiting PEEK gets an unclaimed entry and returns. -/
  | peekResume (e : EngIx)
  /-- BUBQ (R179): Query the slot's bubble record or missing-instant sum. -/
  | bubq (e : EngIx) (c : Ctx) (rd : GReg) (slot : Fin 8) (sel : Fin 4) (clr : Bool)
  /-- BUBQ_RESUME (R179): A waiting BUBQ returns after earlier pulls on its slot have completed. -/
  | bubqResume (e : EngIx)
  /-- POST (R182): Post a STATE or PASS event operand to the manifest event port. -/
  | post (e : EngIx) (c : Ctx) (rs1 : GReg) (kind : Fin 4)
  /-- POST_EVENT_PORT (R182): The event port checks a posted event, accepts or refuses it, and returns the tag. -/
  | postEventPort (e : EngIx)
  /-- BELL (R176): Read bell time or the latest landing-tick time. -/
  | bell (e : EngIx) (c : Ctx) (rd : GReg) (sel : Fin 4)
  /-- LAND (R176): Read the landing number. -/
  | land (e : EngIx) (c : Ctx) (rd : GReg)
  /-- WLAND (R181): Enter the drain point of the head context. -/
  | wland (e : EngIx) (c : Ctx) (rd : GReg)
  /-- MFS (R169): Read a special register. -/
  | mfs (e : EngIx) (c : Ctx) (rd : GReg) (sel : Fin 8)
  /-- MTS (R176): Clear FLAGS.VEXC bits. -/
  | mts (e : EngIx) (c : Ctx) (rs1 : GReg) (sel : Fin 8)
  /-- TRAP (R185): Raise fault TRAP with a code. -/
  | trap (e : EngIx) (c : Ctx) (code : BitVec 16)
  /-- HALT (R185): Halt the context. -/
  | halt (e : EngIx) (c : Ctx)
  /-- ECALL_YIELD (R184): Yield until a new stream entry arrives, or give up the engine from the extension context. -/
  | ecallYield (e : EngIx) (c : Ctx)
  /-- ECALL_DIAG (R184): Publish g4 and g5 as the engine's diagnostic words. -/
  | ecallDiag (e : EngIx) (c : Ctx)
  /-- ECALL_HREC (R184): Offer the 64-byte hand-over record while HREQ is set. -/
  | ecallHrec (e : EngIx) (c : Ctx)
  /-- SHADOW_MISMATCH (R214): A shadow word differs from the primary's on a lane; both cores halt and the engine leaves service. -/
  | shadowMismatch (e : EngIx) (l : Lane)
  /-- LANE_LAG (R213): A lane entry stays unmatched for 16 retired instructions, or an unmatched shadow entry appears, and the case is handled as a mismatch. -/
  | laneLag (e : EngIx) (l : Lag)
  /-- FULLING_WINDOW_END (R218): The proof program ends; the signatures are judged, and the engine reloads and becomes READY or RETIRED. -/
  | fullingWindowEnd (e : EngIx) (w : WindowIn)
  /-- FULLING_WINDOW_TIMEOUT (R218): A window has not ended within 80 000 ticks of its start and fails. -/
  | fullingWindowTimeout (e : EngIx)
  /-- ROTATION_DUE (R231): A READY engine's window ages past ROT_INT, or a rotation ends, and the next rotation starts or ROT_SKIP sets. -/
  | rotationDue
  /-- ENG_DOMAIN_LOSS (R222): An ENG domain is declared lost; its engines are withdrawn or made late, and their heads migrate. -/
  | engDomainLoss (k : Fin 16)
  /-- MONITOR_EXCURSION (R338): A window monitor reports 5 of 7 samples outside the window and the domain is lost. -/
  | monitorExcursion (d : DomIx) (m : Side) (x : Option Excursion)
  /-- MONITOR_DISAGREEMENT (R337): An incompatible monitor disagreement lasts 16 samples; MON_DIS sets and the monitor is marked failed. -/
  | monitorDisagreement (d : DomIx) (m : Side)
  /-- TIE_TEST (R340): Every 256th landing tick, one monitor comparator is tested against the D13 stimulus. -/
  | tieTest
  /-- TIE_TEST_END (R340): A 2 µs tie test ends and a failure marks the monitor failed. -/
  | tieTestEnd (pass : Bool)
  /-- INTERLOCK_EVENT (R334): Both switches of a phase are requested on; the cell holds both off, and a third event in 1 s disables the phase. -/
  | interlockEvent (d : DomIx) (ph : Fin 4)
  /-- PHASE_ILIM (R333): A phase trips on its peak limit in 16 consecutive cycles and ILIM sets. -/
  | phaseIlim (d : DomIx) (ph : Fin 4)
  /-- THERMAL_STATE_CHANGE (R345): The indicators have called for a new thermal state for 16 ticks, and the state changes, latching at a 9th transition within 1 s. -/
  | thermalStateChange
  /-- THERM_HOVER_CLEAR (R347): A write of 1 to THERM_FLT.HOVER clears LATCH, and the state follows the indicators at the next tick. -/
  | thermHoverClear (p : HostId)
  /-- FAULT_REPORT (R359): A sticky bit's 0→1 change reaches AON, which captures the first report or counts it in FLT_LATER. -/
  | faultReport
  /-- W1C_CLEAR (R357): A write of 1 clears a sticky bit, with the stated side clears such as BELL_LATE.VALID. -/
  | w1cClear (p : HostId) (cls : Fin 18) (ix : Fin 512) (mask : Word)
  /-- CLRFIRST (R360): A write to FLT_CTL.CLRFIRST clears the first-fault capture, FLT_LATER and FLT_SAFE. -/
  | clrfirst (p : HostId)
  /-- START (R314): A write of 1 to DEV_CTL.START in BOOT requests the transition to PROVE at the next landing tick. -/
  | start (p : HostId)
  /-- START_TRANSITION (R314): At the landing tick after START, the seal and conditions are checked, and the Boot→Prove transition happens or START is refused. -/
  | startTransition (bits : BitVec 40)
  /-- IMG_LOAD (R309): A write of 1 to IMG_CTL.LOAD starts the image checks, or is refused with 0x30 or 0x31. -/
  | imgLoad (p : HostId)
  /-- IMAGE_CHECK_COMPLETE (R312): The image checks end and the load fails with its code or proceeds to distribution. -/
  | imageCheckComplete
  /-- IMAGE_DISTRIBUTION_COMPLETE (R313): Distribution ends; a read-back mismatch fails the load, otherwise the image is LOADED. -/
  | imageDistributionComplete (mismatch : Bool)
  /-- IMAGE_WINDOW_WRITE (R276): A BAR2 write to the image load window is stored in BOOT, or discarded with IMG_WIN set outside BOOT. -/
  | imageWindowWrite (p : HostId) (off : BitVec 23) (data : List (Option Byte)) (poisoned : Bool)
  /-- MAILBOX_WRITE (R288): A host write to the port's mailbox is stored, or held while the port copies the mailbox. -/
  | mailboxWrite (p : HostId) (off : BitVec 12) (data : List (Option Byte)) (poisoned : Bool)
  /-- HOST_HBEAT (R280): A write to HOST_HBEAT signs life and is counted at the next landing tick. -/
  | hostHbeat (p : HostId)
  /-- HOST_SILENT_TIMEOUT (R280): A port's HOST_SILENT count reaches 64 and its host is silent. -/
  | hostSilentTimeout (p : HostId)
  /-- HOST_PUB_WRITE (R283): A write to HOST_PUB sets the publication period from the next commit, or is refused with CFG set. -/
  | hostPubWrite (p : HostId) (v : Word)
  /-- HOST_WRRIDX_WRITE (R118): A write to HOST_WRRIDX releases ring space for the next batch. -/
  | hostWrridxWrite (p : HostId) (v : Word)
  /-- MSIX_TABLE_WRITE (R390): A write to the MSI-X table, where unmasking sends a pending vector within 1 µs. -/
  | msixTableWrite (p : HostId) (w : Fin 32) (v : Word)
  /-- REGISTER_WRITE (R378): A BAR0 write to a register without a row of its own is taken, discarded or refused according to its access type and gating. -/
  | registerWrite (p : HostId) (off : BitVec 18) (dw : Word × BitVec 4) (more : List (Word × BitVec 4)) (poisoned : Bool)
  /-- HOST_LINK_DOWN (R278): A port's link leaves DL_Active; the publication in progress is abandoned and the port's registers reset. -/
  | hostLinkDown (p : HostId)
  /-- HOST_LINK_UP (R278): A port's link becomes active again and HOST_FLT.LINK_DOWN sets. -/
  | hostLinkUp (p : HostId) (up : LinkUp)
  /-- PERST_ASSERT (R278): PERST_N is asserted at a port, which is treated as for a link loss. -/
  | perstAssert (p : HostId)
  /-- D3HOT_ENTRY (R278): Software puts a port in D3hot, which is treated as for a link loss. -/
  | d3hotEntry (p : HostId)
  /-- NOP (R293): Mailbox no-operation, returning code 0x00. -/
  | nop (p : HostId) (n : Fin 127) (f : MbFields)
  /-- RST_SWEEP (R153): Restoration command that puts a DISTURBED section into SWEEP_PENDING at count 0. -/
  | rstSweep (p : HostId) (n : Fin 127) (f : MbFields)
  /-- RST_DREQ (R157): Restoration command that creates a pending direct request and issues a key. -/
  | rstDreq (p : HostId) (n : Fin 127) (f : MbFields)
  /-- RST_DCONF (R159): Restoration command that confirms a direct request and sets the section CLEAR or OCCUPIED at the stated count. -/
  | rstDconf (p : HostId) (n : Fin 127) (f : MbFields)
  /-- DREQ_EXPIRY (R158): A pending direct request expires 30 s after its time. -/
  | dreqExpiry (n : SecIx)
  /-- SG_ENABLE (R252): Command that enables a stop group into ENERGISE when every condition holds. -/
  | sgEnable (p : HostId) (n : Fin 127) (f : MbFields)
  /-- SG_STOP (R253): Command that orders a stop: SS1 from RUN, LOCKED from ENERGISE. -/
  | sgStop (p : HostId) (n : Fin 127) (f : MbFields)
  /-- SG_PROFILE (R252): Command that changes a group's active profile while the group is in STO. -/
  | sgProfile (p : HostId) (n : Fin 127) (f : MbFields)
  /-- SG_RESET (R259): Command that opens or restarts the reset window of a LOCKED group. -/
  | sgReset (p : HostId) (n : Fin 127) (f : MbFields)
  /-- DEV_RESET (R260): Command that opens the device-level deliberate reset for leaving LOCKOUT. -/
  | devReset (p : HostId) (n : Fin 127) (f : MbFields)
  /-- MODE_REQ_COMMISSION (R319): Mode request to COMMISSION from PROVE or RUN. -/
  | modeReqCommission (p : HostId) (n : Fin 127) (f : MbFields)
  /-- MODE_REQ_RUN (R319): Mode request to RUN from PROVE or COMMISSION, or the start of HARBOUR exit. -/
  | modeReqRun (p : HostId) (n : Fin 127) (f : MbFields)
  /-- MODE_REQ_HARBOUR (R321): Mode request that starts HARBOUR entry from RUN. -/
  | modeReqHarbour (p : HostId) (n : Fin 127) (f : MbFields)
  /-- MODE_REQ_LOCKOUT (R319): Mode request that enters LOCKOUT. -/
  | modeReqLockout (p : HostId) (n : Fin 127) (f : MbFields)
  /-- MODE_REQ_BOOT (R320): Mode request that returns the device to BOOT. -/
  | modeReqBoot (p : HostId) (n : Fin 127) (f : MbFields)
  /-- PARAM_SET (R295): Command that sets one parameter of the parameter block. -/
  | paramSet (p : HostId) (n : Fin 127) (f : MbFields)
  /-- FORCE_SET (R296): Command that forces a section's state and count in the host images in COMMISSION. -/
  | forceSet (p : HostId) (n : Fin 127) (f : MbFields)
  /-- FORCE_CLR (R293): Command that removes the force on one section. -/
  | forceClr (p : HostId) (n : Fin 127) (f : MbFields)
  /-- FORCE_CLR_ALL (R293): Command that removes every force. -/
  | forceClrAll (p : HostId) (n : Fin 127) (f : MbFields)
  /-- HEAD_WD (R293): Command that withdraws a head from its engine by hand-over. -/
  | headWd (p : HostId) (n : Fin 127) (f : MbFields)
  /-- LEAD_TAKE (R281): Command by which the follower takes the lead from a silent lead. -/
  | leadTake (p : HostId) (n : Fin 127) (f : MbFields)
  /-- LEAD_YIELD (R281): Command by which the lead yields to a live follower. -/
  | leadYield (p : HostId) (n : Fin 127) (f : MbFields)
  /-- TEST_EN_CHANGE (R407): TEST_EN goes high; outside BOOT this sets DEV_FLT.TESTEN and changes nothing in service. -/
  | testEnChange (level : Bool)
  /-- BYPASS (R407): JTAG BYPASS instruction. -/
  | bypass
  /-- IDCODE (R407): JTAG IDCODE instruction, reading 0xB051_2C7D. -/
  | idcode
  /-- SAMPLE_PRELOAD (R407): JTAG SAMPLE/PRELOAD instruction. -/
  | samplePreload
  /-- EXTEST (R407): JTAG EXTEST, in effect only with TEST_EN high in BOOT, and otherwise acting as BYPASS. -/
  | extest
  /-- INTEST (R407): JTAG INTEST, in effect only with TEST_EN high in BOOT, and otherwise acting as BYPASS. -/
  | intest
  /-- CLAMP (R407): JTAG CLAMP, in effect only with TEST_EN high in BOOT, and otherwise acting as BYPASS. -/
  | clamp
  /-- COMMA_ALIGNMENT (R59): A receiver takes comma alignment after three K28.5 characters in consistent positions, and RING_PORT.LINK moves from DOWN to ALIGN. -/
  | commaAlignment (p : PortIx)
  /-- CODE_VIOLATION (R59): A character outside a frame is a code violation; it counts in RING_ERRCNT.CV, sets RING_FLT.CV and feeds the 4-in-256 count that takes the link DOWN. -/
  | codeViolation (p : PortIx) (chars : Nat)
  /-- VTRK_IN_RANGE (R328): VTRK rises above 1.62 V while D00 is already in service, and D01 starts from its bootstrap oscillator. -/
  | vtrkInRange
  /-- ILLEGAL_INSTRUCTION (R175): The engine fetches a word with an unlisted opcode or funct, or an ECALL with an unlisted service, and raises fault ILLEGAL. -/
  | illegalInstruction (e : EngIx) (c : Ctx) (w : Word)
  /-- COMMAND_FRAME (R68): In a paired ring, the device receives the partner's DISCOVER COMMAND frame and replies with the HOP it saw. -/
  | commandFrame (p : PortIx)
  /-- UNLISTED_OP (R292): A mailbox entry carries an OP value that R293 does not list, and it is refused with code 0x10. -/
  | unlistedOp (p : HostId) (n : Fin 127) (op : Byte) (f : MbFields)
  /-- MODE_REQ_OTHER_TARGET (R318): A MODE_REQ names a target that is PROVE or not a mode code, and it is refused with 0x70 TRANS or 0x12 ARG. -/
  | modeReqOtherTarget (p : HostId) (n : Fin 127) (f : MbFields)
  deriving DecidableEq, Repr

end Sys2Proof
end

