-- ==== Sys2Proof/WellFormed.lean ====
section
/-! DEFINITION. Which commands are well formed: the bounds that the operands' types do not hold. -/

namespace Sys2Proof

/-- Sensor readings of a landing tick: none, or one for each of T0 to T11 (R344). -/
def TickIn.wf (w : TickIn) : Bool :=
  (w.temps.length == 0 || w.temps.length == 12) &&
  w.oscBad.all (fun p => p.1 < 30 && p.2 < 4) &&
  w.vmeas.all (fun p => p.1 < 30 && p.2 < 4096) &&
  w.iout.all (fun p => p.1 < 30 && p.2 < 65536) &&
  w.upsets.all (fun p => p.1 < 512 && p.2.word < 8192) &&
  (match w.trunk with
   | none => true
   | some t => t.1 < 4096 && t.2 < 65536)

/-- Sections named at a commit (R140). -/
def CommitIn.wf (w : CommitIn) : Bool := w.mismatch.all (· < 512) && w.corrected.all (· < 512)

/-- Entries named at a checkpoint, and 16-bit pass times (R290, R377). -/
def CheckIn.wf (w : CheckIn) : Bool :=
  w.disagree.all (fun p => p.2 < 127) && w.passA < 65536 && w.passB < 65536

/-- Bits for the signature of each lane, and at most 128 forced differences missed (R217). -/
def WindowIn.wf (w : WindowIn) : Bool := w.bitsP.length == 4 && w.bitsS.length == 4 && w.missed ≤ 128

/-- Whether a command is well formed. -/
def Instr.wf (i : Instr) : Bool :=
  match i with
  | .landingTick w => w.wf
  | .landingNumberWrap w => w.wf
  | .commit w => w.wf
  | .checkpoint w => w.wf
  | .fullingWindowEnd _ w => w.wf
  | .interlockEvent d ph => decide (14 ≤ d.val) || decide (ph.val < 2)
  | .phaseIlim d ph => decide (14 ≤ d.val) || decide (ph.val < 2)
  | .imageWindowWrite _ off data _ => off.toNat + data.length ≤ 8388608 && data.length ≤ 256
  | .mailboxWrite _ off data _ => off.toNat + data.length ≤ 4096 && data.length ≤ 256
  | .registerWrite _ _ _ more _ => decide (more.length < 64)
  | .shi _ _ _ _ kind _ => kind.val != 3
  | .bubq _ _ _ _ sel _ => sel.val < 2
  | .mfs _ _ _ sel => sel.val < 6
  | .mts _ _ _ sel => sel.val == 1
  | .vwait _ c mask => (match c with
      | .head => mask.toNat < 2 ^ 16
      | .ext => mask.toNat % 2 ^ 16 == 0)
  | _ => true

end Sys2Proof
end

