-- ==== Sys2Proof/Decode.lean ====
section
/-! DEFINITION. Decoding: the opcode table gives no row any bits; and the words of the Dyhar instruction set (R175). -/

namespace Sys2Proof

/-- The command a word of the opcode table spells: the table gives no row any bits. -/
def decodeTableWord (_nbits _w : Nat) : Option Instr := none

namespace Dyhar

/-- n bits of a word from bit lo up. -/
def field (w : Word) (lo n : Nat) : Nat := w.toNat / 2 ^ lo % 2 ^ n

def opcode (w : Word) : Nat := field w 26 6

def gr (n : Nat) : GReg := Fin.ofNat 32 n
def vr (n : Nat) : VReg := Fin.ofNat 16 n

/-- Fields of the R, I, M, B and S formats (R175). -/
def f1 (w : Word) : GReg := gr (field w 21 5)
def f2 (w : Word) : GReg := gr (field w 16 5)
def f3 (w : Word) : GReg := gr (field w 11 5)
def funct (w : Word) : Nat := field w 0 11
def imm16 (w : Word) : BitVec 16 := BitVec.ofNat 16 (field w 0 16)

/-- Fields of the V format (R175). -/
def vTag (w : Word) : BitVec 5 := BitVec.ofNat 5 (field w 21 5)
def vVd (w : Word) : VReg := vr (field w 17 4)
def vVa (w : Word) : VReg := vr (field w 13 4)
def vVb (w : Word) : VReg := vr (field w 9 4)
def vGs (w : Word) : GReg := gr (field w 4 5)
def vMode (w : Word) : BitVec 4 := BitVec.ofNat 4 (field w 0 4)

def when (c : Bool) (i : Instr) : Option Instr := if c then some i else none

/-- Opcode 0x00, by funct (R176). -/
def decodeR (e : EngIx) (c : Ctx) (w : Word) : Option Instr :=
  match funct w with
  | 0x000 => some (.add e c (f1 w) (f2 w) (f3 w))
  | 0x001 => some (.sub e c (f1 w) (f2 w) (f3 w))
  | 0x002 => some (.and e c (f1 w) (f2 w) (f3 w))
  | 0x003 => some (.or e c (f1 w) (f2 w) (f3 w))
  | 0x004 => some (.xor e c (f1 w) (f2 w) (f3 w))
  | 0x008 => some (.sll e c (f1 w) (f2 w) (f3 w))
  | 0x009 => some (.srl e c (f1 w) (f2 w) (f3 w))
  | 0x00A => some (.sra e c (f1 w) (f2 w) (f3 w))
  | 0x00C => some (.slt e c (f1 w) (f2 w) (f3 w))
  | 0x00D => some (.sltu e c (f1 w) (f2 w) (f3 w))
  | 0x010 => some (.mul e c (f1 w) (f2 w) (f3 w))
  | 0x011 => some (.mulh e c (f1 w) (f2 w) (f3 w))
  | 0x012 => some (.mulhu e c (f1 w) (f2 w) (f3 w))
  | 0x014 => some (.min e c (f1 w) (f2 w) (f3 w))
  | 0x015 => some (.max e c (f1 w) (f2 w) (f3 w))
  | 0x016 => some (.minu e c (f1 w) (f2 w) (f3 w))
  | 0x017 => some (.maxu e c (f1 w) (f2 w) (f3 w))
  | 0x018 => when (field w 11 5 == 0) (.abs e c (f1 w) (f2 w))
  | 0x019 => when (field w 11 5 == 0) (.clz e c (f1 w) (f2 w))
  | _ => none

/-- Vector dispatches: every field an operation does not name is zero (R176). -/
def decodeV (e : EngIx) (c : Ctx) (w : Word) : Option Instr :=
  let noVd := field w 17 4 == 0
  let noVa := field w 13 4 == 0
  let noVb := field w 9 4 == 0
  let noGs := field w 4 5 == 0
  match opcode w with
  | 0x20 => when (noVa && noVb) (.vld e c (vTag w) (vVd w) (vGs w) (vMode w))
  | 0x21 => when (noVd && noVb) (.vst e c (vTag w) (vVa w) (vGs w) (vMode w))
  | 0x22 => some (.vfir e c (vTag w) (vVd w) (vVa w) (vVb w) (vGs w) (vMode w))
  | 0x23 => when noGs (.vmac e c (vTag w) (vVd w) (vVa w) (vVb w) (vMode w))
  | 0x24 => when noGs (.vcorr e c (vTag w) (vVd w) (vVa w) (vVb w) (vMode w))
  | 0x25 => when noGs (.vmag e c (vTag w) (vVd w) (vVa w) (vVb w) (vMode w))
  | 0x26 => when (noVb && noGs) (.vnorm e c (vTag w) (vVd w) (vVa w) (vMode w))
  | 0x27 => when noGs (.vadd e c (vTag w) (vVd w) (vVa w) (vVb w) (vMode w))
  | 0x28 => when noVb (.vscale e c (vTag w) (vVd w) (vVa w) (vGs w) (vMode w))
  | 0x29 => when noGs (.vmax e c (vTag w) (vVd w) (vVa w) (vVb w) (vMode w))
  | 0x2A => when (noVb && noGs) (.vred e c (vTag w) (vVd w) (vVa w) (vMode w))
  | 0x2B => when (field w 24 2 == 0) (.vwait e c (BitVec.ofNat 24 (field w 0 24)))
  | _ => none

/-- Stream, event, time and system instructions (R176). DESIGN CHOICE, log 134: the w field of a PEEK with n = 1 is not used, and any
value of it is taken. -/
def decodeS (e : EngIx) (c : Ctx) (w : Word) : Option Instr :=
  let noRd := field w 21 5 == 0
  let noRs := field w 16 5 == 0
  let imm := field w 0 16
  match opcode w with
  | 0x30 => when (imm / 8 == 0) (.pull e c (f1 w) (f2 w) (Fin.ofNat 8 imm))
  | 0x31 => when (noRs && imm / 64 == 0)
      (.peek e c (f1 w) (Fin.ofNat 8 imm) (Fin.ofNat 4 (imm / 8)) (imm / 32 % 2 == 1))
  | 0x32 => when (noRs && imm / 64 == 0)
      (.bubq e c (f1 w) (Fin.ofNat 8 imm) (Fin.ofNat 4 (imm / 8)) (imm / 32 % 2 == 1))
  | 0x33 => when (noRd && imm / 4 == 0) (.post e c (f2 w) (Fin.ofNat 4 imm))
  | 0x34 => when (noRs && imm / 4 == 0) (.bell e c (f1 w) (Fin.ofNat 4 imm))
  | 0x35 => when (noRs && imm == 0) (.land e c (f1 w))
  | 0x36 => when (noRs && imm == 0) (.wland e c (f1 w))
  | 0x38 => when (noRs && imm / 8 == 0) (.mfs e c (f1 w) (Fin.ofNat 8 imm))
  | 0x39 => when (noRd && imm / 8 == 0) (.mts e c (f2 w) (Fin.ofNat 8 imm))
  | 0x3C => when (noRd && noRs) (.trap e c (imm16 w))
  | 0x3D => if noRd && noRs then (match imm with
      | 0 => some (.ecallYield e c)
      | 1 => some (.ecallDiag e c)
      | 2 => some (.ecallHrec e c)
      | _ => none) else none
  | 0x3F => when (noRd && noRs && imm == 0) (.halt e c)
  | _ => none

/-- The instruction a word spells in a context; none raises ILLEGAL (R175, R176). -/
def decode (e : EngIx) (c : Ctx) (w : Word) : Option Instr :=
  match opcode w with
  | 0x00 => decodeR e c w
  | 0x01 => some (.addi e c (f1 w) (f2 w) (imm16 w))
  | 0x02 => some (.andi e c (f1 w) (f2 w) (imm16 w))
  | 0x03 => some (.ori e c (f1 w) (f2 w) (imm16 w))
  | 0x04 => some (.xori e c (f1 w) (f2 w) (imm16 w))
  | 0x05 => some (.slti e c (f1 w) (f2 w) (imm16 w))
  | 0x06 => some (.sltiu e c (f1 w) (f2 w) (imm16 w))
  | 0x07 => when (field w 7 9 == 0 && field w 5 2 != 3)
      (.shi e c (f1 w) (f2 w) (Fin.ofNat 4 (field w 5 2)) (BitVec.ofNat 5 (field w 0 5)))
  | 0x08 => when (field w 16 5 == 0) (.lui e c (f1 w) (imm16 w))
  | 0x10 => some (.lw e c (f1 w) (f2 w) (imm16 w))
  | 0x11 => some (.lh e c (f1 w) (f2 w) (imm16 w))
  | 0x12 => some (.lhu e c (f1 w) (f2 w) (imm16 w))
  | 0x13 => some (.lb e c (f1 w) (f2 w) (imm16 w))
  | 0x14 => some (.lbu e c (f1 w) (f2 w) (imm16 w))
  | 0x15 => some (.sw e c (f1 w) (f2 w) (imm16 w))
  | 0x16 => some (.sh e c (f1 w) (f2 w) (imm16 w))
  | 0x17 => some (.sb e c (f1 w) (f2 w) (imm16 w))
  | 0x18 => some (.beq e c (f1 w) (f2 w) (imm16 w))
  | 0x19 => some (.bne e c (f1 w) (f2 w) (imm16 w))
  | 0x1A => some (.blt e c (f1 w) (f2 w) (imm16 w))
  | 0x1B => some (.bge e c (f1 w) (f2 w) (imm16 w))
  | 0x1C => some (.bltu e c (f1 w) (f2 w) (imm16 w))
  | 0x1D => some (.bgeu e c (f1 w) (f2 w) (imm16 w))
  | 0x1E => some (.jal e c (BitVec.ofNat 26 (field w 0 26)))
  | 0x1F => some (.jalr e c (f1 w) (f2 w) (imm16 w))
  | n => if 0x20 ≤ n ∧ n ≤ 0x2B then decodeV e c w else decodeS e c w

/-! ### The encoder -/

def wordR (funct : Nat) (rd rs1 rs2 : GReg) : Word :=
  BitVec.ofNat 32 (rd.val * 2 ^ 21 + rs1.val * 2 ^ 16 + rs2.val * 2 ^ 11 + funct)

def wordI (op : Nat) (a b : GReg) (imm : Nat) : Word :=
  BitVec.ofNat 32 (op * 2 ^ 26 + a.val * 2 ^ 21 + b.val * 2 ^ 16 + imm)

def wordV (op : Nat) (t : BitVec 5) (vd va vb gs : Nat) (m : BitVec 4) : Word :=
  BitVec.ofNat 32 (op * 2 ^ 26 + t.toNat * 2 ^ 21 + vd * 2 ^ 17 + va * 2 ^ 13 + vb * 2 ^ 9 + gs * 2 ^ 4 + m.toNat)

/-- The word of a Dyhar instruction (R175, R176); none for every other command. -/
def encode (i : Instr) : Option Word :=
  match i with
  | .add _ _ rd rs1 rs2 => some (wordR 0x000 rd rs1 rs2)
  | .sub _ _ rd rs1 rs2 => some (wordR 0x001 rd rs1 rs2)
  | .and _ _ rd rs1 rs2 => some (wordR 0x002 rd rs1 rs2)
  | .or _ _ rd rs1 rs2 => some (wordR 0x003 rd rs1 rs2)
  | .xor _ _ rd rs1 rs2 => some (wordR 0x004 rd rs1 rs2)
  | .sll _ _ rd rs1 rs2 => some (wordR 0x008 rd rs1 rs2)
  | .srl _ _ rd rs1 rs2 => some (wordR 0x009 rd rs1 rs2)
  | .sra _ _ rd rs1 rs2 => some (wordR 0x00A rd rs1 rs2)
  | .slt _ _ rd rs1 rs2 => some (wordR 0x00C rd rs1 rs2)
  | .sltu _ _ rd rs1 rs2 => some (wordR 0x00D rd rs1 rs2)
  | .mul _ _ rd rs1 rs2 => some (wordR 0x010 rd rs1 rs2)
  | .mulh _ _ rd rs1 rs2 => some (wordR 0x011 rd rs1 rs2)
  | .mulhu _ _ rd rs1 rs2 => some (wordR 0x012 rd rs1 rs2)
  | .min _ _ rd rs1 rs2 => some (wordR 0x014 rd rs1 rs2)
  | .max _ _ rd rs1 rs2 => some (wordR 0x015 rd rs1 rs2)
  | .minu _ _ rd rs1 rs2 => some (wordR 0x016 rd rs1 rs2)
  | .maxu _ _ rd rs1 rs2 => some (wordR 0x017 rd rs1 rs2)
  | .abs _ _ rd rs1 => some (wordR 0x018 rd rs1 0)
  | .clz _ _ rd rs1 => some (wordR 0x019 rd rs1 0)
  | .addi _ _ rd rs1 imm => some (wordI 0x01 rd rs1 imm.toNat)
  | .andi _ _ rd rs1 imm => some (wordI 0x02 rd rs1 imm.toNat)
  | .ori _ _ rd rs1 imm => some (wordI 0x03 rd rs1 imm.toNat)
  | .xori _ _ rd rs1 imm => some (wordI 0x04 rd rs1 imm.toNat)
  | .slti _ _ rd rs1 imm => some (wordI 0x05 rd rs1 imm.toNat)
  | .sltiu _ _ rd rs1 imm => some (wordI 0x06 rd rs1 imm.toNat)
  | .shi _ _ rd rs1 kind sh => some (wordI 0x07 rd rs1 (kind.val * 32 + sh.toNat))
  | .lui _ _ rd imm => some (wordI 0x08 rd 0 imm.toNat)
  | .lw _ _ rd rs1 off => some (wordI 0x10 rd rs1 off.toNat)
  | .lh _ _ rd rs1 off => some (wordI 0x11 rd rs1 off.toNat)
  | .lhu _ _ rd rs1 off => some (wordI 0x12 rd rs1 off.toNat)
  | .lb _ _ rd rs1 off => some (wordI 0x13 rd rs1 off.toNat)
  | .lbu _ _ rd rs1 off => some (wordI 0x14 rd rs1 off.toNat)
  | .sw _ _ rs2 rs1 off => some (wordI 0x15 rs2 rs1 off.toNat)
  | .sh _ _ rs2 rs1 off => some (wordI 0x16 rs2 rs1 off.toNat)
  | .sb _ _ rs2 rs1 off => some (wordI 0x17 rs2 rs1 off.toNat)
  | .beq _ _ rs1 rs2 off => some (wordI 0x18 rs1 rs2 off.toNat)
  | .bne _ _ rs1 rs2 off => some (wordI 0x19 rs1 rs2 off.toNat)
  | .blt _ _ rs1 rs2 off => some (wordI 0x1A rs1 rs2 off.toNat)
  | .bge _ _ rs1 rs2 off => some (wordI 0x1B rs1 rs2 off.toNat)
  | .bltu _ _ rs1 rs2 off => some (wordI 0x1C rs1 rs2 off.toNat)
  | .bgeu _ _ rs1 rs2 off => some (wordI 0x1D rs1 rs2 off.toNat)
  | .jal _ _ off => some (BitVec.ofNat 32 (0x1E * 2 ^ 26 + off.toNat))
  | .jalr _ _ rd rs1 imm => some (wordI 0x1F rd rs1 imm.toNat)
  | .vld _ _ t vd gs m => some (wordV 0x20 t vd 0 0 gs m)
  | .vst _ _ t va gs m => some (wordV 0x21 t 0 va 0 gs m)
  | .vfir _ _ t vd va vb gs m => some (wordV 0x22 t vd va vb gs m)
  | .vmac _ _ t vd va vb m => some (wordV 0x23 t vd va vb 0 m)
  | .vcorr _ _ t vd va vb m => some (wordV 0x24 t vd va vb 0 m)
  | .vmag _ _ t vd va vb m => some (wordV 0x25 t vd va vb 0 m)
  | .vnorm _ _ t vd va m => some (wordV 0x26 t vd va 0 0 m)
  | .vadd _ _ t vd va vb m => some (wordV 0x27 t vd va vb 0 m)
  | .vscale _ _ t vd va gs m => some (wordV 0x28 t vd va 0 gs m)
  | .vmax _ _ t vd va vb m => some (wordV 0x29 t vd va vb 0 m)
  | .vred _ _ t vd va m => some (wordV 0x2A t vd va 0 0 m)
  | .vwait _ _ mask => some (BitVec.ofNat 32 (0x2B * 2 ^ 26 + mask.toNat))
  | .pull _ _ rd rs1 slot => some (wordI 0x30 rd rs1 slot.val)
  | .peek _ _ rd slot w n => some (wordI 0x31 rd 0 (slot.val + 8 * w.val + 32 * n.toNat))
  | .bubq _ _ rd slot sel clr => some (wordI 0x32 rd 0 (slot.val + 8 * sel.val + 32 * clr.toNat))
  | .post _ _ rs1 kind => some (wordI 0x33 0 rs1 kind.val)
  | .bell _ _ rd sel => some (wordI 0x34 rd 0 sel.val)
  | .land _ _ rd => some (wordI 0x35 rd 0 0)
  | .wland _ _ rd => some (wordI 0x36 rd 0 0)
  | .mfs _ _ rd sel => some (wordI 0x38 rd 0 sel.val)
  | .mts _ _ rs1 sel => some (wordI 0x39 0 rs1 sel.val)
  | .trap _ _ code => some (wordI 0x3C 0 0 code.toNat)
  | .ecallYield _ _ => some (wordI 0x3D 0 0 0)
  | .ecallDiag _ _ => some (wordI 0x3D 0 0 1)
  | .ecallHrec _ _ => some (wordI 0x3D 0 0 2)
  | .halt _ _ => some (wordI 0x3F 0 0 0)
  | .powerUp => none
  | .domainInService _ => none
  | .domainStartTimeout _ => none
  | .engDomainStart => none
  | .resetNAssert => none
  | .resetNRelease => none
  | .trunkFault _ => none
  | .vaonLoss => none
  | .vio33Loss => none
  | .vlnkLoss => none
  | .vpciLoss _ => none
  | .landingTick _ => none
  | .bellTimeWrap => none
  | .landingNumberWrap _ => none
  | .referenceExpiry => none
  | .refMeasure _ _ _ => none
  | .holdoverEntry _ => none
  | .holdoverExit => none
  | .safeStopTimerExpiry => none
  | .treeDisagreement _ _ => none
  | .bellppsEdge => none
  | .ppsSeenExpiry => none
  | .bellLoad _ => none
  | .bellLoadPps _ => none
  | .presetLoad => none
  | .bellPeriodWrite _ _ => none
  | .bellTimeLoRead _ => none
  | .bellPpsLoRead _ => none
  | .wlandDrained _ => none
  | .drainDeadline => none
  | .commit _ => none
  | .sweepTimeout _ => none
  | .commitTimeout _ _ => none
  | .proveTimeout => none
  | .selftestComplete _ => none
  | .harbourDispersalStart _ => none
  | .decimationGridChange _ => none
  | .checkpoint _ => none
  | .checkpointDeadline => none
  | .tokenPair _ _ _ _ _ => none
  | .deadmanExpiry => none
  | .notickTimeout => none
  | .ss1Standstill _ => none
  | .ss1Timeout _ => none
  | .fbWindowExpiry _ => none
  | .feedbackChange _ _ _ => none
  | .guardChange _ _ _ => none
  | .guardDiscrepancyTimeout _ => none
  | .lrstChange _ _ => none
  | .resetWindowExpiry _ => none
  | .lrstStuck _ => none
  | .encoderEdge _ _ _ => none
  | .readbackFault _ _ => none
  | .sealRead => none
  | .sealReadDone _ => none
  | .frameReceive _ _ _ => none
  | .sampleFrame _ => none
  | .markerFrame _ => none
  | .statusFrame _ => none
  | .markerSend => none
  | .commandRetry _ => none
  | .instantMissing _ => none
  | .directionLoss _ => none
  | .directionRegain _ => none
  | .gn8OutTimeout _ => none
  | .digestCheck _ _ => none
  | .linkUp _ => none
  | .linkDown _ _ => none
  | .discoveryTimeout _ => none
  | .sampleEvaluate _ => none
  | .bubbleRead _ => none
  | .sysokFault _ => none
  | .standingEntry _ => none
  | .suspectExit _ => none
  | .sysokFaultExit _ => none
  | .learningWindowJudge _ => none
  | .baselineTrack _ => none
  | .sharedLoadComplete _ _ _ => none
  | .branchResolve _ _ => none
  | .vwaitResume _ _ => none
  | .copOpStart _ _ => none
  | .copOpEnd _ _ _ => none
  | .copComplete _ _ => none
  | .pullComplete _ => none
  | .peekResume _ => none
  | .bubqResume _ => none
  | .postEventPort _ => none
  | .shadowMismatch _ _ => none
  | .laneLag _ _ => none
  | .fullingWindowEnd _ _ => none
  | .fullingWindowTimeout _ => none
  | .rotationDue => none
  | .engDomainLoss _ => none
  | .monitorExcursion _ _ _ => none
  | .monitorDisagreement _ _ => none
  | .tieTest => none
  | .tieTestEnd _ => none
  | .interlockEvent _ _ => none
  | .phaseIlim _ _ => none
  | .thermalStateChange => none
  | .thermHoverClear _ => none
  | .faultReport => none
  | .w1cClear _ _ _ _ => none
  | .clrfirst _ => none
  | .start _ => none
  | .startTransition _ => none
  | .imgLoad _ => none
  | .imageCheckComplete => none
  | .imageDistributionComplete _ => none
  | .imageWindowWrite _ _ _ _ => none
  | .mailboxWrite _ _ _ _ => none
  | .hostHbeat _ => none
  | .hostSilentTimeout _ => none
  | .hostPubWrite _ _ => none
  | .hostWrridxWrite _ _ => none
  | .msixTableWrite _ _ _ => none
  | .registerWrite _ _ _ _ _ => none
  | .hostLinkDown _ => none
  | .hostLinkUp _ _ => none
  | .perstAssert _ => none
  | .d3hotEntry _ => none
  | .nop _ _ _ => none
  | .rstSweep _ _ _ => none
  | .rstDreq _ _ _ => none
  | .rstDconf _ _ _ => none
  | .dreqExpiry _ => none
  | .sgEnable _ _ _ => none
  | .sgStop _ _ _ => none
  | .sgProfile _ _ _ => none
  | .sgReset _ _ _ => none
  | .devReset _ _ _ => none
  | .modeReqCommission _ _ _ => none
  | .modeReqRun _ _ _ => none
  | .modeReqHarbour _ _ _ => none
  | .modeReqLockout _ _ _ => none
  | .modeReqBoot _ _ _ => none
  | .paramSet _ _ _ => none
  | .forceSet _ _ _ => none
  | .forceClr _ _ _ => none
  | .forceClrAll _ _ _ => none
  | .headWd _ _ _ => none
  | .leadTake _ _ _ => none
  | .leadYield _ _ _ => none
  | .testEnChange _ => none
  | .bypass => none
  | .idcode => none
  | .samplePreload => none
  | .extest => none
  | .intest => none
  | .clamp => none
  | .commaAlignment _ => none
  | .codeViolation _ _ => none
  | .vtrkInRange => none
  | .illegalInstruction _ _ _ => none
  | .commandFrame _ => none
  | .unlistedOp _ _ _ _ => none
  | .modeReqOtherTarget _ _ _ => none

end Dyhar

end Sys2Proof
end

