-- ==== Sys2Proof/Config.lean ====
section
/-! DEFINITION. What an implementation fixes and the manual leaves open: free values, with no body. -/

namespace Sys2Proof.Config

/-- The 256-bit key hash in this device's fuses (R2, R311). -/
opaque fuseHash : BitVec 256

/-- The fuses pass their read-back at power-up (R312 code 0x05, R375). -/
opaque fuseReadOk : Bool

/-- Error of the n-th damping value, 0 to 4 standing for -2 to +2 LSB (R83). -/
opaque dampErr : Nat → Fin 5

/-- Error of the n-th damping phase, 0 to 2 standing for -1 to +1 LSB (R83). -/
opaque phaseErr : Nat → Fin 3

/-- Addresses of GN8 registers, whose meanings belong to the GN8 (R63): 0 takes the ECHO result (R68), 1 the grid (R77), 2
holds the set-up digest (R69). -/
opaque gn8Addr : Nat → BitVec 16

/-- What a GN8's grid register takes for the 800-tick grid, and for the 100-tick grid (R63, R77). -/
opaque gn8Grid : Bool → Word

/-- The n-th restoration key, less 1 (R157). -/
opaque drawKey : Nat → Fin 65535

/-- The word that supervisor A puts into its block at a test landing (R238). -/
opaque testWord : Word

/-- Retired instructions of a window at its n-th forced difference (R217). -/
opaque forcePoint : Nat → Nat

/-- The n-th low pulse of RESET_N of less than 10 us is taken as a reset: none is that lasts less than 1 us (R401). -/
opaque shortReset : Nat → Bool

/-- Whether a tree takes a trim step at its n-th measurement (R25). -/
opaque trimStep : Nat → Bool

/-- Records of a wheel-record ring whose HOST_WRSIZE.LOG2 lies outside 6 to 16 (R302). -/
opaque wrRing : Nat → Nat

/-- The n-th value that the manual leaves open where a word of 32 bits is wanted. -/
opaque freeWord : Nat → Word

end Sys2Proof.Config
end

