-- ==== Sys2Proof/Machine/State.lean ====
section
/-! DEFINITION. The state of the CR512 as plain data, and the state after reset. -/

namespace Sys2Proof.Machine

/-- A sparse table: keys strictly rising, an unlisted key holds the table's reset value. -/
abbrev Tab (α : Type) := List (Nat × α)

/-- Bytes by address, the same canonical form; an unlisted byte reads 0x00. -/
abbrev Mem := List Host.Cell

/-- Why a machine would stop with a fault. -/
inductive Fault where
  /-- Raised by no meaning of this model: the manual gives every command an effect. Safe. -/
  | outsideManual
  deriving DecidableEq, Repr

/-- Why a command would be refused by the model. -/
inductive Refusal where
  /-- The command has no meaning yet. Safe. -/
  | notModelled (mnemonic : String)
  deriving DecidableEq, Repr

/-! ### Codes -/

/-- The six modes (R317). -/
inductive Mode where
  | boot
  | prove
  | commission
  | run
  | harbour
  | lockout
  deriving DecidableEq, Repr

/-- Head states (R102). -/
inductive HeadState where
  | unassigned
  | baseline
  | occupiedAtStart
  | idle
  | passage
  | standing
  | suspect
  | fault
  deriving DecidableEq, Repr

/-- Section states (R130). -/
inductive SecState where
  | unconfigured
  | clear
  | occupied
  | disturbed
  | sweepPending
  deriving DecidableEq, Repr

/-- Engine states (R219). -/
inductive EngState where
  | off
  | proving
  | ready
  | service
  | out
  | retired
  | gated
  deriving DecidableEq, Repr

/-- Group states (R251). -/
inductive GrpState where
  | unused
  | sto
  | energise
  | run
  | ss1
  | drop
  | locked
  deriving DecidableEq, Repr

/-- PMC_DOM_STAT.STATE (R350). -/
inductive DomState where
  | off
  | ramp
  | on
  | gated
  | lost
  deriving DecidableEq, Repr

/-- RING_STAT.STATE (R79). -/
inductive RingState where
  | unused
  | down
  | discovering
  | closed
  | open
  | failed
  deriving DecidableEq, Repr

/-- RING_PORT.LINK (R79). -/
inductive Link where
  | down
  | align
  | up
  deriving DecidableEq, Repr

/-- IMG_STAT.STATE (R325). -/
inductive ImgState where
  | empty
  | checking
  | distributing
  | loaded
  | failed
  deriving DecidableEq, Repr

/-- Thermal states (R346). -/
inductive ThermState where
  | normal
  | warning
  | throttle
  | safe
  deriving DecidableEq, Repr

/-- The JTAG instruction in effect (R407). -/
inductive Jtag where
  | bypass
  | idcode
  | samplePreload
  | extest
  | intest
  | clamp
  deriving DecidableEq, Repr

/-! ### Configuration carried by the image (R307, R308) -/

/-- Ring table record (R307). -/
structure RingCfg where
  /-- 0 unused, 1 single-device, 2 paired (R54). -/
  mode : Nat
  pdev : Bool
  ngn8 : Nat
  ids : List Word
  /-- Set-up writes: slot, GN8 address, data (R68). -/
  setup : List (Nat × Nat × Word)
  deriving DecidableEq, Repr

/-- Head table record (R81, R105). -/
structure HeadCfg where
  ring : Nat
  slot : Nat
  chan : Nat
  lab : Nat
  wmin : Nat
  dOn : Nat
  dOff : Nat
  dPeak : Nat
  phLo : Int
  phHi : Int
  zcA : Int × Int
  zcB : Int × Int
  /-- HEAD_CFG, HEAD_THR and HEAD_CHK words. -/
  wCfg : Word
  wThr : Word
  wChk : Word
  deriving DecidableEq, Repr

/-- Section table record (R125); an end is (head, A to B counts in). -/
structure SecCfg where
  pvc : Bool
  auth : Nat
  ends : List (Nat × Bool)
  defCrc : Word
  deriving DecidableEq, Repr

/-- Stop-group record (R250). -/
structure GrpCfg where
  enc : Bool
  guard : Bool
  trust : List Nat
  profiles : List (List Nat)
  encScale : Nat
  win : Nat
  aEnv : Nat
  vTol : Nat
  tDly : Nat
  vStill : Nat
  tStill : Nat
  tSs1 : Nat
  tFb : Nat
  deriving DecidableEq, Repr

/-- Parameter record (R308). -/
structure ParamCfg where
  signed : Bool
  min : Word
  max : Word
  dflt : Word
  deriving DecidableEq, Repr

/-- What the image configures. -/
structure Cfg where
  /-- BELL_PERIOD (R28). -/
  period : Nat
  /-- SWEEP_TMO in s (R155). -/
  sweepTmo : Nat
  /-- ROT_INT in h (R230). -/
  rotInt : Nat
  /-- RSTG (R250). -/
  rstg : Nat
  commok : Bool
  /-- CB1 to CB6 in mm (R114). -/
  cb : List Nat
  spcAbs : Nat
  spcRel : Nat
  rings : Tab RingCfg
  heads : Tab HeadCfg
  /-- 64 authority codes (R126). -/
  auth : List Nat
  secs : Tab SecCfg
  groups : Tab GrpCfg
  params : Tab ParamCfg
  /-- Member sections of each deck line (R297). -/
  lines : List (List Nat)
  /-- Extension entries: first engine, last engine, program (R308). -/
  exts : List (Nat × Nat × Nat)
  extProgs : Tab (List Byte)
  headProg : List Byte
  proofProg : List Byte
  psig : List Word
  /-- CRC-32C of the supervisor program (R377). -/
  supCrc : Word
  /-- SHA-256 of the safety configuration block (R266). -/
  scHash : List Word
  build : Word
  deriving DecidableEq, Repr

/-- No image. -/
def Cfg.none : Cfg :=
  { period := 2500, sweepTmo := 900, rotInt := 0, rstg := 0, commok := false, cb := [], spcAbs := 0,
    spcRel := 0, rings := [], heads := [], auth := [], secs := [], groups := [], params := [], lines := [],
    exts := [], extProgs := [], headProg := [], proofProg := [], psig := [], supCrc := 0, scHash := [],
    build := 0 }

/-! ### The bell (02) -/

/-- The bell block. -/
structure BellSt where
  /-- Bell time as tree A counts it, as the remaining tree counts it when tree A is out; 48 bits; R23; reset 0 (R24). -/
  time : Bell
  /-- Bell time as tree B sends it, bit-inverted; 48 bits; R37; reset all ones (0 inverted, R24). -/
  timeB : Bell
  /-- Landing number; 32 bits; R29; reset 0 (R24). -/
  landNo : Word
  /-- Landing phase counter; ticks; R29; reset 0. -/
  phase : Nat
  /-- Length of the frame in progress; ticks; R28; reset 2500. -/
  frameLen : Nat
  /-- Bell time of the most recent landing tick; 48 bits; R176 (BELL), R285; reset 0. -/
  tickTime : Bell
  /-- BELL_PERIOD; 15 bits; R50; reset 0x09C4. -/
  period : Nat
  /-- LOCK; 1 bit; R49; reset 0. -/
  locked : Bool
  /-- BELL_CTL.LOAD; 1 bit; R50; reset 0. -/
  load : Bool
  /-- BELL_CTL.LOAD_PPS; 1 bit; R50; reset 0. -/
  loadPps : Bool
  /-- Bell time of the LOAD_PPS write; 48 bits; R27; reset DESIGN CHOICE 0. -/
  loadPpsAt : Bell
  /-- BELL_PRESET_LO; 32 bits; R50; reset 0. -/
  presetLo : Word
  /-- BELL_PRESET_HI; 16 bits; R50; reset 0. -/
  presetHi : BitVec 16
  /-- BELL_LAND_PRESET; 32 bits; R50; reset 0. -/
  landPreset : Word
  /-- Bell time of the last BELLPPS edge; 48 bits; R51; reset 0. -/
  ppsTime : Bell
  /-- BELL_PPS_INT; 28 bits; R51; reset 0. -/
  ppsInt : Nat
  /-- BELL_PPS_CNT; 32 bits; R51; reset 0. -/
  ppsCnt : Word
  /-- Bell time of the last BELLPPS edge, moved with every preset so that it still counts ticks; R26, R27; reset DESIGN CHOICE 0. -/
  ppsMark : Bell
  /-- A BELLPPS edge has been stamped that still serves as a reference; 1 bit; R26, R45; reset 0. -/
  ppsRef : Bool
  /-- PPS_SEEN; 1 bit; R49; reset 0. -/
  ppsSeen : Bool
  /-- BELL_DRAIN.DRAIN and COMMIT; 15 and 8 bits; R52; reset 0. -/
  drainT : Nat
  commitT : Nat
  /-- BELL_LATE: VALID and ENGINE; 10 bits; R52; reset 0. -/
  lateEng : Option Nat
  /-- BELL_MISS_CNT; 16 bits; R52; reset 0. -/
  missCnt : Nat
  /-- BELL_HOLD_LAND; 32 bits; R52; reset 0. -/
  holdLand : Nat
  /-- BELL_WRAP.LAND and BELL; 8 bits each; R52; reset 0. -/
  wrapLand : Nat
  wrapBell : Nat
  /-- BELL_CAL.TRIMA and TRIMB; 16 bits each; R52; reset 0x8000. -/
  trimA : Nat
  trimB : Nat
  /-- Bell time of each tree's last trim step; 48 bits; R25; reset DESIGN CHOICE 0. -/
  trimAtA : Bell
  trimAtB : Bell
  /-- Each receiver finds BELLREF plausible; 1 bit; R25, R43; reset 0. -/
  refA : Bool
  refB : Bool
  /-- BELLREF has once been plausible for 65 536 edges; 1 bit; R42; reset 0. -/
  everOk : Bool
  /-- Bell counts from an on-die oscillator; 1 bit; R40, R43; reset 1. -/
  hold : Bool
  /-- That is holdover: the reference has been lost since it was first plausible; 1 bit; R40, R42; reset 0. -/
  lost : Bool
  /-- The return to BELLREF waits for the next landing tick; 1 bit; R43; reset 0. -/
  exitPending : Bool
  /-- Trees out of service; 1 bit each; R38; reset 0. -/
  outA : Bool
  outB : Bool
  /-- Start of the safe-stop timer; 48 bits; R42; reset none. -/
  ssStart : Option Bell
  /-- SS_EXPIRED; 1 bit; R42; reset 0. -/
  ssExpired : Bool
  /-- BELL_STAT as committed; 32 bits; R49; reset 0x0000_0007. -/
  stat : Word
  /-- Writes to the lockable registers that came in at a tick whose START has still to be judged, as offset and value; R380;
  reset empty. -/
  waits : List (Nat × Word)
  deriving DecidableEq, Repr

/-- The bell after reset (R24, R49 to R53). -/
def BellSt.reset : BellSt :=
  { time := 0, timeB := 0xFFFFFFFFFFFF, landNo := 0, phase := 0, frameLen := 2500, tickTime := 0, period := 2500, locked := false,
    load := false, loadPps := false, loadPpsAt := 0, presetLo := 0, presetHi := 0, landPreset := 0,
    ppsTime := 0, ppsInt := 0, ppsCnt := 0, ppsMark := 0, ppsRef := false, ppsSeen := false, drainT := 0, commitT := 0,
    lateEng := none, missCnt := 0, holdLand := 0, wrapLand := 0, wrapBell := 0, trimA := 0x8000,
    trimB := 0x8000, trimAtA := 0, trimAtB := 0, refA := false, refB := false, everOk := false, hold := true, lost := false,
    exitPending := false, outA := false, outB := false, ssStart := none, ssExpired := false, stat := 7, waits := [] }

/-! ### The landing (01, 02) -/

/-- A STATE event's operand (R182). -/
structure StateEv where
  head : Nat
  state : HeadState
  back : Bool
  side : Bool
  a : Bool
  b : Bool
  cause : Nat
  baseA : Word
  baseB : Word
  chg : Bool
  deriving DecidableEq, Repr

/-- A wheel record, the operand of a PASS event (R107). -/
structure WheelRec where
  centre : Bell
  cls : Nat
  dir : Bool
  head : Nat
  speed : Nat
  spacing : Nat
  conf : Nat
  flags : Nat
  /-- HDC bits 15:14, zero as a head program writes them (R108). -/
  rsv : Nat
  deriving DecidableEq, Repr

/-- A wheel event (R90). -/
inductive Event where
  | state (e : StateEv)
  | pass (r : WheelRec)
  deriving DecidableEq, Repr

/-- The frame in progress (R31). -/
structure FrameSt where
  /-- A frame has been closed by a tick and its commit has not completed; 1 bit; R31; reset 0. -/
  closing : Bool
  /-- Drain complete; phase at which it came; R31; reset none. -/
  drained : Option Nat
  /-- Events posted in the closing or open frame, by engine, in posting order; R14; reset empty. -/
  events : List (Nat × Event)
  /-- Engines late at the deadline of the closing frame; R34; reset empty. -/
  late : List Nat
  /-- Engines removed for cause in the frame, with ENG_ERR.CAUSE; R214; reset empty. -/
  removed : List (Nat × Nat)
  /-- Engines of the closing frame withdrawn by a domain loss; R222; reset empty. -/
  withdrawn : List Nat
  /-- HEAD_FLT bits of learning windows that failed in the frame, as (engine, head, bit); R106; reset empty. -/
  headFlt : List (Nat × Nat × Nat)
  /-- Phase at which the latest commit completed, none while one is due; R31; reset none. -/
  committedAt : Option Nat
  /-- Holdover at the opening of the open frame; 1 bit; R41; reset 0. -/
  holdOpen : Bool
  /-- Rings CLOSED or OPEN at the latest landing tick; R315; reset empty. -/
  ringsUp : List Nat
  deriving DecidableEq, Repr

def FrameSt.reset : FrameSt :=
  { closing := false, drained := none, events := [], late := [], removed := [], withdrawn := [], headFlt := [],
    committedAt := none, holdOpen := false, ringsUp := [] }

/-! ### Front-end rings (03) -/

/-- A port of the ring interface. -/
structure RPort where
  /-- RING_PORT.LINK; 2 bits; R79; reset DOWN. -/
  link : Link
  /-- RING_PORT.LOS; 1 bit; R79; reset 0. -/
  los : Bool
  /-- RING_PORT.TXEN; 1 bit; R79; reset 0. -/
  txen : Bool
  /-- RING_PORT.DELAY; 12 bits; R79; reset 0. -/
  delay : Nat
  /-- RING_ERRCNT.CV and CRC; 16 bits each; R79; reset 0. -/
  cv : Nat
  crc : Nat
  /-- Characters between the most recent code violations, newest first, the first one since alignment as 256; R59; reset empty. -/
  gaps : List Nat
  /-- Receive FIFO of frames, 32 entries; R19; reset empty. -/
  rx : List (List Byte)
  /-- Transmit FIFO of frames that wait for the line, 16 entries in order of precedence, each with its class; R19, R64; reset empty. -/
  txq : List (Nat × List Byte)
  /-- What is left of the frame on the line, in quarters of a character; R58, R64; reset 0. -/
  txLeft : Nat
  /-- The code groups of the latest 16 frames put on the line, newest last; 10 bits each; R58, R64; reset empty. -/
  tx : List (List (BitVec 10))
  /-- Running disparity of the transmitter, true = positive; 1 bit; R58; reset negative. -/
  txRd : Bool
  /-- Running disparity of the receiver, none until the first frame since alignment shows it; 1 bit; R58; reset none. -/
  rxRd : Option Bool
  /-- SEQ of the next frame this port sends; 16 bits; R61; reset DESIGN CHOICE 0. -/
  seq : BitVec 16
  deriving DecidableEq, Repr

def RPort.reset : RPort :=
  { link := .down, los := false, txen := false, delay := 0, cv := 0, crc := 0, gaps := [], rx := [], txq := [], txLeft := 0,
    tx := [], txRd := false, rxRd := none, seq := 0 }

/-- A command sent to a GN8 and not yet answered (R63). -/
structure RCmd where
  target : Nat
  op : Nat
  tag : Nat
  addr : Nat
  data : Word
  port : Nat
  sentAt : Bell
  retried : Bool
  /-- A STATUS has arrived for it, and more are expected. -/
  answered : Bool
  /-- A read of a GN8's set-up digest register (R69). -/
  digest : Bool
  deriving DecidableEq, Repr

/-- A ring. -/
structure Ring where
  /-- RING_STAT.STATE; 3 bits; R79; reset UNUSED. -/
  state : RingState
  /-- RING_STAT.DERR; 4 bits; R79; reset 0. -/
  derr : Nat
  /-- Discovery step in progress, 1 to 8, 0 none; R68; reset 0. -/
  step : Nat
  /-- Start of that step; 48 bits; R68; reset DESIGN CHOICE 0. -/
  stepAt : Bell
  /-- Replies to the DISCOVER from P(k) and from the other side, as (hop, slot, identity); R68; reset empty. -/
  fromL : List (Nat × Nat × Word)
  fromH : List (Nat × Nat × Word)
  /-- HOP with which the DISCOVER closed the ring, each side; R68; reset none. -/
  closedL : Option Nat
  closedH : Option Nat
  /-- ECHO measurements still awaited, and set-up writes still to verify; R68; reset 0. -/
  left : Nat
  /-- GN8s that report HEALTH bit 0; R68; reset empty. -/
  aligned : List Nat
  /-- RING_BUBCNT.LATE and BUB; 16 bits each; R79; reset 0. -/
  lateCnt : Nat
  bubCnt : Nat
  /-- Offset to the partner's bell time, its run of agreeing markers, and whether it is trusted; R66; reset none, 0, DESIGN
  CHOICE true (log 92). -/
  offset : Option Int
  agree : Nat
  trusted : Bool
  /-- Commands in flight; R63; reset empty. -/
  cmds : List RCmd
  /-- Next command TAG; 16 bits; R63; reset DESIGN CHOICE 0. -/
  tag : Nat
  deriving DecidableEq, Repr

/-- A ring after reset. DESIGN CHOICE, log 92: an offset to the partner's bell time is trusted from its first MARKER on, which
disagrees with none; one that changes is trusted no more until 16 agree. -/
def Ring.reset : Ring :=
  { state := .unused, derr := 0, step := 0, stepAt := 0, fromL := [], fromH := [], closedL := none,
    closedH := none, left := 0, aligned := [], lateCnt := 0, bubCnt := 0, offset := none, agree := 0, trusted := true, cmds := [], tag := 0 }

/-- A copy of a sample instant (R62). -/
structure Inst where
  at_ : Bell
  sysok : BitVec 16
  /-- 16 pairs (I, Q). -/
  iq : List (Int × Int)
  dir : Bool
  relay : Bool
  deriving DecidableEq, Repr

/-- An instant written, the directions a copy came from, and whether its deadline has passed (R70, R73). -/
structure Recent where
  inst : Inst
  l : Bool
  h : Bool
  judged : Bool
  deriving DecidableEq, Repr

/-- A GN8 as the merge unit sees it. -/
structure Gn8 where
  /-- RING_GN8_ID; 32 bits; R79; reset 0. -/
  id : Word
  /-- RING_GN8.SYSOK; 16 bits; R79; reset 0. -/
  sysok : BitVec 16
  /-- RING_GN8.OUT, UNSYNC, MARKDIS, DIRH, DIRL; 1 bit each; R79; reset 0. -/
  out : Bool
  unsync : Bool
  markdis : Bool
  dirh : Bool
  dirl : Bool
  /-- First expected instant; next expected instant not yet written or declared missing; 48 bits each; R70; reset none. -/
  start : Option Bell
  next : Option Bell
  /-- Valid copies held behind a missing predecessor, in stamp order; R71; reset empty. -/
  held : List Recent
  /-- Instants written lately, for the comparison of later copies; R70; reset empty. -/
  recent : List Recent
  /-- Runs of instants valid only from L, only from H, and from both; R73; reset 0. -/
  onlyL : Nat
  onlyH : Nat
  both : Nat
  /-- Bell time of the last valid instant, of the last frame without alignment, and of the last discarded copy; 48 bits;
  R74, R76; reset none. -/
  lastValid : Option Bell
  lastValidLand : Word
  lastUnsync : Option Bell
  lastDiscard : Option Bell
  /-- Set-up digest read at step 6; 32 bits; R69; reset none. -/
  digest : Option Word
  /-- Grid: 800-tick grid in effect; a change commanded and not yet made, with the instant it comes at; the instant at which
  the grid in effect came, none where no entry of another grid can be left; 48 bits; R77, R109; reset 0, none, none. -/
  decim : Bool
  change : Option (Bool × Bell)
  gridAt : Option Bell
  deriving DecidableEq, Repr

def Gn8.reset : Gn8 :=
  { id := 0, sysok := 0, out := false, unsync := false, markdis := false, dirh := false, dirl := false,
    start := none, next := none, held := [], recent := [], onlyL := 0, onlyH := 0, both := 0, lastValid := none,
    lastValidLand := 0, lastUnsync := none, lastDiscard := none, digest := none, decim := false, change := none, gridAt := none }

/-- A stream entry (R75). -/
structure Entry where
  w0 : Word
  w1 : Word
  w2 : Word
  w3 : Word
  deriving DecidableEq, Repr

/-- A bubble the merge unit holds open for a head (R77). -/
structure Bubble where
  first : Bell
  count : Nat
  cause : Nat
  contIn : Bool
  deriving DecidableEq, Repr

/-! ### Heads (04, 05) -/

/-- One sensor system of a head as the head program follows it. -/
structure SysEval where
  /-- Confirmed damped; R87. -/
  conf : Bool
  /-- Samples in the current confirmation run; R87. -/
  run : Nat
  /-- First sample of the run; R88. -/
  runAt : Bell
  /-- D at the first sample of the run, and the sample before the run when the head holds one; R88. -/
  runD : Nat
  before : Option (Bell × Nat)
  /-- Latest sample not missing, with D; R88. -/
  last : Option (Bell × Nat)
  /-- Latest rising and falling edge; R91. -/
  rise : Bell
  fall : Bell
  /-- Largest D of the burst and the phase at that sample; R92. -/
  peak : Nat
  phase : Int
  /-- Peak and phase of the last completed burst of the passage; R113. -/
  peakDone : Nat
  phaseDone : Int
  /-- Baseline, I and Q; R84. -/
  base : Rat × Rat
  /-- Consecutive instants with SYSOK clear; R99. -/
  bad : Nat
  deriving DecidableEq, Repr

def SysEval.reset : SysEval :=
  { conf := false, run := 0, runAt := 0, runD := 0, before := none, last := none, rise := 0, fall := 0,
    peak := 0, phase := 0, peakDone := 0, phaseDone := 0, base := (0, 0), bad := 0 }

/-- A learning window (R84). -/
structure Learn where
  /-- A window is open; R84. -/
  open_ : Bool
  /-- Landing ticks that have closed a frame of it; R84. -/
  frames : Nat
  /-- Samples of it, newest first: A then B; R84. -/
  samples : List ((Int × Int) × (Int × Int))
  /-- An occupied sample, and a missing instant, have been met; R84. -/
  occupied : Bool
  gap : Bool
  /-- Consecutive drift and noise failures; R85. -/
  drift : Nat
  noise : Nat
  deriving DecidableEq, Repr

def Learn.reset : Learn :=
  { open_ := false, frames := 0, samples := [], occupied := false, gap := false, drift := 0, noise := 0 }

/-- A bubble as the head counts it (R97). -/
structure HeadBub where
  /-- Missing instants so far; R97. -/
  total : Nat
  /-- First missing instant, and the instant after the last missing one; R98. -/
  first : Bell
  after : Bell
  /-- Samples read since; judged at the third; R97. -/
  since : Nat
  deriving DecidableEq, Repr

/-- The private state of a head's evaluation (R12). -/
structure Eval where
  /-- State, cause and SIDE (true = B), BACK; R105. -/
  state : HeadState
  cause : Nat
  side : Bool
  back : Bool
  /-- Passage step 1 to 3, 0 none; R89. -/
  step : Nat
  stood : Bool
  interp : Bool
  a : SysEval
  b : SysEval
  /-- Sample of the last pattern change; R96. -/
  changedAt : Bell
  /-- First edge of the passage, none once it is expired; R91, R45. -/
  firstEdge : Option Bell
  bub : Option HeadBub
  /-- Reference of T_QUIET; R410, R99. -/
  quietAt : Bell
  learn : Learn
  /-- Sums and number of the frame's samples, whether each system stayed below D_TRACK, and whether the
  frame was spent wholly in IDLE; R86. -/
  sumA : Int × Int
  sumB : Int × Int
  n : Nat
  lowA : Bool
  lowB : Bool
  wholeIdle : Bool
  /-- Previous-wheel reference: centre, speed, direction; R111. -/
  prev : Option (Bell × Nat × Bool)
  /-- The next PASS carries TAKEOVER; R109. -/
  takeover : Bool
  /-- Holdover at the opening of the frame; R94. -/
  hold : Bool
  /-- The last STATE event posted; R183. -/
  posted : Option StateEv
  deriving DecidableEq, Repr

def Eval.reset : Eval :=
  { state := .unassigned, cause := 0, side := false, back := false, step := 0, stood := false,
    interp := false, a := .reset, b := .reset, changedAt := 0, firstEdge := none, bub := none, quietAt := 0,
    learn := .reset, sumA := (0, 0), sumB := (0, 0), n := 0, lowA := true, lowB := true, wholeIdle := true,
    prev := none, takeover := false, hold := false, posted := none }

/-- A head: its committed record and its evaluation. -/
structure Head where
  /-- HEAD_STAT.STATE, CAUSE, BACK, SIDE, B, A as committed; R105; reset 0. -/
  state : HeadState
  cause : Nat
  back : Bool
  side : Bool
  a : Bool
  b : Bool
  /-- HEAD_BASEA and HEAD_BASEB; 32 bits each; R105; reset 0. -/
  baseA : Word
  baseB : Word
  /-- HEAD_STAT.ENGINE; 9 bits; R105; reset 0. -/
  engine : Nat
  /-- HEAD_PASS.AB and BA; 16 bits each; R105; reset 0. -/
  passAB : Nat
  passBA : Nat
  /-- Head generation; 16 bits; R224; reset 0. -/
  gen : Nat
  /-- Treated as being in PASSAGE after a domain withdrawal; 1 bit; R222; reset 0. -/
  held : Bool
  /-- The engine and slot the merge unit writes to; R221; reset none. -/
  route : Option (Nat × Nat)
  /-- Entries kept since the opening of the closing and of the open frame; R222; reset empty. -/
  keptClosing : List Entry
  keptOpen : List Entry
  /-- Open bubble of the merge unit; R77; reset none. -/
  bubble : Option Bubble
  /-- The last token of the previous frame carried CONT_OUT and no sample has followed; 1 bit; R77; reset 0. -/
  cont : Bool
  /-- Evaluation on the serving engine; R165; reset as cleared. -/
  ev : Eval
  deriving DecidableEq, Repr

def Head.reset : Head :=
  { state := .unassigned, cause := 0, back := false, side := false, a := false, b := false, baseA := 0,
    baseB := 0, engine := 0, passAB := 0, passBA := 0, gen := 0, held := false, route := none,
    keptClosing := [], keptOpen := [], bubble := none, cont := false, ev := .reset }

/-! ### Sections (06, 07) -/

/-- A list entry of an episode: class, spacing, end (R119). -/
structure Axle where
  cls : Nat
  spc : Nat
  endIx : Nat
  deriving DecidableEq, Repr

/-- An episode (R119). -/
structure Episode where
  e : List Axle
  x : List Axle
  overflow : Bool
  unverified : Bool
  deriving DecidableEq, Repr

def Episode.empty : Episode := { e := [], x := [], overflow := false, unverified := false }

/-- A section record of a manifest. -/
structure Sec where
  /-- STATE; R130; reset UNCONFIGURED. -/
  state : SecState
  /-- COUNT; 16 bits, two's complement; R128; reset 0. -/
  count : Int
  /-- GEN; 16 bits; R147; reset 0. -/
  gen : Nat
  /-- CAUSE; 8 bits; R132; reset 0. -/
  cause : Nat
  /-- PROV; 1 bit; R142; reset 0. -/
  prov : Bool
  /-- SEC_CHG; 32 bits; R144; reset 0. -/
  chg : Word
  /-- SEC_DLAND; 32 bits; R144; reset 0. -/
  dland : Word
  /-- Open episode; R119; reset none. -/
  ep : Option Episode
  /-- Hint episode, and whether the section was CLEAR before the disturbance; R123; reset none, 0. -/
  hint : Option Episode
  wasClear : Bool
  /-- HINT; 2 bits; R123; reset 0. -/
  hintCode : Nat
  /-- Sweep start, SW_IN, SW_OUT; R153; reset 0. -/
  sweepAt : Bell
  sweepLive : Bool
  swIn : Bool
  swOut : Bool
  deriving DecidableEq, Repr

def Sec.reset : Sec :=
  { state := .unconfigured, count := 0, gen := 0, cause := 0, prov := false, chg := 0, dland := 0, ep := none,
    hint := none, wasClear := false, hintCode := 0, sweepAt := 0, sweepLive := false, swIn := false,
    swOut := false }

/-- The same record in the coding of Manifest B: every bit inverted (R139). -/
structure SecB where
  state : Byte
  count : BitVec 16
  gen : BitVec 16
  cause : Byte
  prov : Bool
  chg : Word
  dland : Word
  hintCode : BitVec 2
  /-- Lists in reverse slot order, every field inverted: (absent, entries, exits, no overflow, verified). -/
  ep : Bool × List (BitVec 4 × BitVec 16 × BitVec 4) × List (BitVec 4 × BitVec 16 × BitVec 4) × Bool × Bool
  hint : Bool × List (BitVec 4 × BitVec 16 × BitVec 4) × List (BitVec 4 × BitVec 16 × BitVec 4) × Bool × Bool
  wasClear : Bool
  sweepAt : Bell
  sweepLive : Bool
  swIn : Bool
  swOut : Bool
  deriving DecidableEq, Repr

/-- The manifests. -/
structure ManSt where
  /-- Manifest A's pending bank, section n at slot n; R138, R139; reset empty. -/
  a : Tab Sec
  /-- Manifest B's pending bank, section n at slot 511 - n; R138, R139; reset empty. -/
  b : Tab SecB
  /-- The committed banks of Manifests A and B; R138; reset empty. -/
  comA : Tab Sec
  comB : Tab SecB
  /-- CHK_STAT.MAN_FAIL; 1 bit; R141; reset 0. -/
  failed : Bool
  /-- A pair failure found and not yet applied by a commit; R141; reset 0. -/
  failNext : Bool
  /-- Landings of the latest mismatch commits; R141; reset empty. -/
  mismatchLands : List Word
  deriving DecidableEq, Repr

def ManSt.reset : ManSt := { a := [], b := [], comA := [], comB := [], failed := false, failNext := false, mismatchLands := [] }

/-! ### Engines (08, 09, 10) -/

/-- A block-floating vector (R190). -/
structure Vec where
  m : List (BitVec 16)
  e : BitVec 8
  deriving DecidableEq, Repr

def Vec.zero : Vec := { m := List.replicate 16 0, e := 0 }

/-- Branch conditions (R176). -/
inductive Cond where
  | eq
  | ne
  | lt
  | ge
  | ltu
  | geu
  deriving DecidableEq, Repr

/-- An unresolved conditional branch and what was issued past it (R186). -/
structure Spec where
  pc : Word
  cond : Cond
  rs1 : Nat
  rs2 : Nat
  predicted : Bool
  target : Word
  /-- Instructions issued past it, and vector dispatches among them. -/
  n : Nat
  nv : Nat
  /-- Held register results, newest first. -/
  held : List (Nat × Word)
  /-- BELLHI as latched past the branch. -/
  heldBell : Option (BitVec 16)
  /-- Tags of the speculative dispatches, in dispatch order. -/
  tags : List Nat
  /-- A fault held for an instruction past the branch: code and its address. -/
  fault : Option (Nat × Word)
  /-- Corrected memory errors met past the branch, counted only when it resolves toward them. -/
  ce : Nat
  deriving DecidableEq, Repr

/-- Why a context does not issue (R164). -/
inductive Block where
  | none
  /-- Stalled on a tag pool or a named tag in flight (R174). -/
  | tag
  /-- Stalled on a register whose value a PULL has still to write (R164, R189). -/
  | pull
  | peek (rd slot w : Nat)
  | bubq (rd slot sel : Nat) (clr : Bool)
  | vwait (mask : BitVec 24)
  | wland (rd : Nat)
  | yield_
  deriving DecidableEq, Repr

/-- A context of an engine (R164). -/
structure CtxSt where
  /-- PC; 32 bits; R169; reset 0. -/
  pc : Word
  /-- FLAGS.VEXC; 8 bits; R170; reset 0. -/
  vexc : Byte
  /-- FLAGS bits 7:1 as latched at the release; R170; reset 0. -/
  flags : BitVec 7
  /-- g1 to g31; 32 bits each; R169; reset 0 (R166). -/
  g : Tab Word
  /-- v0 to v15; R169; reset 0 (R166). -/
  v : Tab Vec
  /-- BELLHI; 16 bits; R169; reset DESIGN CHOICE 0. -/
  bellHi : BitVec 16
  block : Block
  spec : Option Spec
  /-- Fault code that ended the context's issue; R187; reset none. -/
  halted : Option Nat
  /-- Fatal exceptions not yet faulted: tag, destination register where there is one, code; R198; reset empty. -/
  fatal : List (Nat × Option Nat × Nat)
  /-- Register writes that the comparator has still to take, oldest first; R212; reset empty. -/
  wrote : List (Nat × Word)
  /-- Instructions retired and not yet counted by a window; R217; reset 0. -/
  done : Nat
  deriving DecidableEq, Repr

def CtxSt.reset : CtxSt :=
  { pc := 0, vexc := 0, flags := 0, g := [], v := [], bellHi := 0, block := .none, spec := none,
    halted := none, fatal := [], wrote := [], done := 0 }

/-- Coprocessor operations (R199). -/
inductive CopKind where
  | vld
  | vst
  | vfir
  | vmac
  | vcorr
  | vmag
  | vnorm
  | vadd
  | vscale
  | vmax
  | vred
  deriving DecidableEq, Repr

/-- Where an operation stands (R201 to R206). -/
inductive CopStage where
  | queued
  | running
  /-- Computed: in the hold register, or in the store buffer. -/
  | computed
  deriving DecidableEq, Repr

/-- A coprocessor operation in flight, oldest first in its engine's list (R200). -/
structure CopOp where
  tag : Nat
  ctx : Ctx
  kind : CopKind
  vd : Nat
  va : Nat
  vb : Nat
  gs : Word
  mode : Nat
  committed : Bool
  killed : Bool
  stage : CopStage
  /-- Operands, or the data of a VST, as read at the start. -/
  res : Vec
  /-- Exceptions of the result, in the bit positions of VEXC. -/
  exc : Byte
  /-- It completes, and its result is discarded; R187. -/
  discard : Bool
  /-- An uncorrectable error, and the corrected ones, of its reads; R163, R198. -/
  ded : Bool
  ce : Nat
  deriving DecidableEq, Repr

/-- A PULL in flight (R179). -/
structure PullOp where
  slot : Nat
  rd : Nat
  addr : Nat
  deriving DecidableEq, Repr

/-- A tagged load from shared space in flight (R172). -/
structure SharedOp where
  tag : Nat
  ctx : Ctx
  rd : Nat
  addr : Nat
  /-- 1, 2 or 4 bytes, sign-extended or not. -/
  size : Nat
  sx : Bool
  deriving DecidableEq, Repr

/-- What BUBQ reports of a slot (R179). -/
structure BubRec where
  w0 : BitVec 24
  contIn : Bool
  contOut : Bool
  valid : Bool
  sum : Nat
  deriving DecidableEq, Repr

def BubRec.reset : BubRec := { w0 := 0, contIn := false, contOut := false, valid := false, sum := 0 }

/-- A word that a lane of the comparator takes (R212). -/
inductive LaneWord where
  /-- RF: a general register, or a vector register. -/
  | rf (c : Ctx) (r : Nat) (v : Word)
  | vec (c : Ctx) (r : Nat) (v : Vec)
  /-- MEM: address and data. -/
  | mem (c : Ctx) (a : Nat) (data : List Byte)
  /-- DISP: the fields of the instruction word, the value of gs and the speculation mark; or a token. -/
  | disp (c : Ctx) (kind : CopKind) (tag vd va vb rs mode : Nat) (gs : Word) (marked : Bool)
  | token (tag : Nat) (commit : Bool)
  /-- POST: a post; an HREC record, and whether its head's mark had been pulled; the DIAG words. -/
  | post (kind : Nat) (data : List Byte)
  | hrec (data : List Byte) (pulled : Bool)
  | diag (a b : Word)
  deriving DecidableEq, Repr

/-- A handshake cycle that the primary has made and the shadow has not (R211). -/
structure Cycle where
  /-- What the primary gives the lanes in it. -/
  words : List LaneWord
  /-- What the values that the primary reads in it make the shadow give the lanes. -/
  own : List LaneWord
  /-- The shadow's contexts behind it. -/
  head : CtxSt
  ext : CtxSt
  /-- Instructions the primary retires in it. -/
  n : Nat
  deriving DecidableEq, Repr

/-- The shadow core of an engine (R211). -/
structure Shadow where
  /-- Its contexts, with PC, FLAGS and register files of their own; R211; reset as cleared. -/
  head : CtxSt
  ext : CtxSt
  /-- The two-entry delay FIFO, oldest first; R211; reset empty. -/
  fifo : List Cycle
  /-- It gives this lane no further entry; R213; reset none. -/
  stuck : Option Lane
  /-- The comparator has found the two words of this lane to differ; R213; reset none. -/
  differ : Option Lane
  deriving DecidableEq, Repr

def Shadow.reset : Shadow := { head := .reset, ext := .reset, fifo := [], stuck := none, differ := none }

/-- The window logic of an engine (R217, R218). -/
structure WinSt where
  /-- Retired instructions; R217; reset 0. -/
  count : Nat
  /-- Signatures of the primary and of the shadow for RF, MEM, DISP and POST; 32 bits each; R217; reset 0xFFFFFFFF. -/
  sigP : List Word
  sigS : List Word
  /-- Fixed points passed, and forced differences reported on the right lanes; R217; reset 0. -/
  points : Nat
  forced : Nat
  /-- An unforced mismatch, and an ECC_DED, have occurred; R218; reset 0. -/
  unforced : Bool
  ded : Bool
  deriving DecidableEq, Repr

def WinSt.reset : WinSt :=
  { count := 0, sigP := List.replicate 4 0xFFFFFFFF, sigS := List.replicate 4 0xFFFFFFFF, points := 0, forced := 0, unforced := false,
    ded := false }

/-- The bits of the compare words of a lane's entry, in the order they shift into the lane's signature: the manual gives no
layout (R212, R217; a free value, log 108). -/
opaque laneBits : LaneWord → List Bool

/-- An engine's core, memories and coprocessor. -/
structure Core where
  head : CtxSt
  ext : CtxSt
  /-- Instruction memory, 16 KiB; data memory, 32 KiB; vector memory, 16 KiB; R163; reset DESIGN CHOICE 0. -/
  imem : Mem
  dmem : Mem
  vmem : Mem
  /-- Stream buffer: one queue per slot; R179; reset empty. -/
  queues : Tab (List Entry)
  pulls : List PullOp
  shared : List SharedOp
  cops : List CopOp
  /-- Posts in flight: kind and operand; R182; reset empty. -/
  posts : List (Nat × List Byte)
  bub : Tab BubRec
  /-- Slots whose end-of-frame mark has been pulled in the frame; R181; reset empty. -/
  marks : List Nat
  /-- WLAND of this frame can no longer be accepted: fault code; R180, R182; reset none. -/
  dead : Option Nat
  /-- Drained, and the phase of the WLAND; R181, R341; reset none. -/
  drained : Option Nat
  /-- DIAG words; 32 bits each; R184; reset 0. -/
  diag0 : Word
  diag1 : Word
  /-- Hand-over record taken by HREC, and whether its head's mark had been pulled; R226; reset none. -/
  hrec : Option (List Byte × Bool)
  /-- Shared space as written by the supervisors, 4 KiB; R168; reset 0. -/
  shr : Mem
  /-- Extension program: ended for this frame; consecutive frames with a fault; not started again; R187; reset 0. -/
  xEnded : Bool
  xFaulted : Bool
  xFrames : Nat
  xOff : Bool
  /-- Entries still to be replayed ahead of live ones, by slot; while a slot has some the overflow rule does not apply to it;
  R222; reset empty. -/
  replay : Tab (List Entry)
  /-- The shadow core; R211; reset as cleared. -/
  shadow : Shadow
  /-- What the instruction at work gives the lanes beside register writes, oldest first; R212; reset empty. -/
  step : List LaneWord
  /-- Errors in stored words; R163; reset empty. -/
  ecc : List EccErr
  /-- Corrected errors that ENG_ERR.CE has still to count; R163; reset 0. -/
  ceNew : Nat
  deriving DecidableEq, Repr

def Core.reset : Core :=
  { head := .reset, ext := .reset, imem := [], dmem := [], vmem := [], queues := [], pulls := [], shared := [],
    cops := [], posts := [], bub := [], marks := [], dead := none, drained := none, diag0 := 0, diag1 := 0,
    hrec := none, shr := [], xEnded := true, xFaulted := false, xFrames := 0, xOff := false, replay := [], shadow := .reset,
    step := [], ecc := [], ceNew := 0 }

/-- An engine. -/
structure Eng where
  /-- ENG_STAT.STATE; 4 bits; R240; reset OFF. -/
  state : EngState
  /-- ENG_STAT.STRIKE; 2 bits; R240; reset 0. -/
  strike : Nat
  /-- Heads served, by slot, each as its number plus 1; R240; reset empty. -/
  slots : Tab Nat
  /-- ENG_STAT.EXT; 4 bits; R240; reset 0. -/
  ext : Nat
  /-- ENG_LAST; 32 bits; R240; reset 0. -/
  last : Word
  /-- ENG_ERR.CODE, CAUSE, CE; 8, 8 and 16 bits; R240; reset 0. -/
  errCode : Nat
  errCause : Nat
  ce : Nat
  /-- imm of the latest TRAP, the code its fault carries; 16 bits; R176; reset 0. -/
  trap : BitVec 16
  /-- Start of the running window, and end of the latest one; 48 bits; R218, R231; reset none. -/
  winStart : Option Bell
  winEnd : Option Bell
  /-- Verdict of an ended window, not yet taken at a checkpoint; R218; reset none. -/
  verdict : Option Bool
  /-- The window logic; R217; reset as cleared. -/
  win : WinSt
  /-- DIAG words as of the latest commit; 32 bits each; R243; reset 0. -/
  diag0 : Word
  diag1 : Word
  core : Core
  deriving DecidableEq, Repr

def Eng.reset : Eng :=
  { state := .off, strike := 0, slots := [], ext := 0, last := 0, errCode := 0, errCause := 0, ce := 0,
    trap := 0, winStart := none, winEnd := none, verdict := none, win := .reset, diag0 := 0, diag1 := 0, core := .reset }

/-! ### Supervisors (07, 10, 12) -/

/-- A pending direct request (R157). -/
structure Dreq where
  snum : Nat
  gen : Nat
  count : Nat
  at_ : Bell
  key : Nat
  /-- False once its time reference has been expired (R45). -/
  live : Bool
  deriving DecidableEq, Repr

/-- A command taken from a mailbox (R288). -/
structure Taken where
  port : HostId
  ix : Nat
  op : Byte
  f : MbFields
  /-- To be refused with 0x0F. -/
  cpFail : Bool
  /-- HOST_CTL.KEYEN as the entry was taken; R291. -/
  keyen : Bool
  deriving DecidableEq, Repr

/-- A result entry (R291). -/
structure Result where
  port : HostId
  ix : Nat
  code : Nat
  value : Nat
  tag : Word
  deriving DecidableEq, Repr

/-- Where a move of a head stands (R221, R226). -/
inductive MoveStage where
  /-- Waits for a READY engine (R223). -/
  | waiting
  /-- Destination chosen; the order waits for a passed checkpoint. -/
  | chosen
  /-- Order agreed at a checkpoint. -/
  | agreed
  /-- Hand-over: HREQ set at the source. -/
  | requested
  /-- Streams switched at the landing tick. -/
  | switched
  deriving DecidableEq, Repr

/-- A migration or hand-over (R221, R226). -/
structure Move where
  head : Nat
  src : Nat
  dst : Nat
  slot : Nat
  /-- CHK_MIG.KIND (R243), 5 for the first placement in PROVE (R315). -/
  kind : Nat
  record : Bool
  stage : MoveStage
  deriving DecidableEq, Repr

/-- What the supervisors order of a group (R252, R253, R259). -/
structure GrpOrder where
  enable : Bool
  stop : Bool
  profile : Option Nat
  openReset : Bool
  applyReset : Bool
  deriving DecidableEq, Repr

/-- The orders of one landing (R236). -/
structure Orders where
  land : Word
  openDevReset : Bool
  applyDevReset : Bool
  groups : Tab GrpOrder
  deriving DecidableEq, Repr

/-- What a supervisor keeps in its own memories from one commit to the next (R11, R233). -/
structure SupMem where
  /-- Pending direct requests; R157; reset empty. -/
  pend : List Dreq
  /-- Results of commands, and keys issued, not yet released in an image; R233, R291; reset empty. -/
  results : List Result
  keys : List (Nat × Word × Nat × Nat)
  /-- Migration and hand-over orders, and the engine in rotation; R221, R226, R231, R233; reset empty, none. -/
  moves : List Move
  rot : Option Nat
  /-- RES_EMPTY and RES_LOW are judged; R223; reset 0. -/
  resJudged : Bool
  /-- Parameter values by PID, PGEN, PARAM_LAST; R304; reset empty, 0, 0. -/
  params : Tab Word
  pgen : Nat
  paramLast : Word
  /-- Forces: section to (state byte, count); R296; reset empty. -/
  forces : Tab (Byte × BitVec 16)
  /-- Deck vector: current and last-valid mantissas and exponents, LVLAND, LVOK, HOLDMASK; R297; reset 0. -/
  cur : List (BitVec 16)
  curExp : Int
  lv : List (BitVec 16)
  lvExp : Int
  lvLand : Word
  lvOk : Bool
  holdMask : Word
  deriving DecidableEq, Repr

def SupMem.reset : SupMem :=
  { pend := [], results := [], keys := [], moves := [], rot := none, resJudged := false, params := [], pgen := 0
    paramLast := 0, forces := [], cur := [], curExp := 0, lv := [], lvExp := 0, lvLand := 0, lvOk := false, holdMask := 0 }

/-- A supervisor's output block (R233). -/
structure OutBlock where
  /-- Stop-group orders. -/
  orders : Option Orders
  /-- Mode changes: the mode, PRIOR, and the HARBOUR sequence. -/
  mode : Mode
  prior : Option Mode
  htrans : Nat
  /-- Restoration actions, as (section, state code, count, generation). -/
  restored : List (Nat × Nat × Int × Nat)
  /-- Fulling-window verdicts: the state each engine stands in after them. -/
  verdicts : List (Nat × EngState)
  /-- Keys issued, migration and hand-over orders, the deck-load frame, the host command results, and what else the
  supervisor keeps. -/
  mem : SupMem
  /-- The test word, which is made to differ at a test landing; R238. -/
  test : Word
  deriving DecidableEq, Repr

def OutBlock.reset : OutBlock :=
  { orders := none, mode := .boot, prior := none, htrans := 0, restored := [], verdicts := [], mem := .reset, test := 0 }

/-- The supervisors; what only supervisor A's memories hold stands here, B's own in b. -/
structure SupSt where
  pend : List Dreq
  taken : List Taken
  /-- Results of the latest commit, not yet released in an image, per port; R291; reset empty. -/
  results : List Result
  /-- Bookkeeping of the commit in progress: sections with a restoration taken, groups with an SG_STOP in
  the mailbox, a mode command taken, a PARAM_SET taken; R151, R261, R318, R292; reset empty. -/
  dupSecs : List Nat
  stopGrps : List Nat
  modeTaken : Bool
  paramTaken : Bool
  /-- Keys issued since the latest image: entry, tag, section, key; R291; reset empty. -/
  keys : List (Nat × Word × Nat × Nat)
  /-- SUP_STAT.NCMD; 7 bits; R377; reset 0. -/
  ncmd : Nat
  /-- SUP_PASS; 16 bits each; R377; reset 0. -/
  passA : Nat
  passB : Nat
  /-- SUP_CE; 16 bits each; R377; reset 0. -/
  ceA : Nat
  ceB : Nat
  /-- Checkpoint awaited for the latest commit; R234; reset 0. -/
  cpDue : Bool
  /-- CHK_STAT.CPOK_RUN and CP_OK as the latest commit shows them, and as counted; R243; reset 0. -/
  cpokRun : Nat
  cpOk : Bool
  cpokRunC : Nat
  cpOkC : Bool
  /-- CHK_CPDIGA and CHK_CPDIGB; 32 bits each; R243; reset 0. -/
  digA : Word
  digB : Word
  moves : List Move
  /-- Rotation in progress: the engine in rotation; R231; reset none. -/
  rot : Option Nat
  /-- CHK_ROT.NEXT; 9 bits; R243; reset 0. -/
  rotNext : Nat
  /-- CHK_MIG and CHK_MIGLAND; 32 bits each; R243; reset 0. -/
  mig : Word
  migLand : Word
  /-- Orders formed by the latest commit; orders released by the checkpoint and not yet at SAFIO; R236; reset none. -/
  orders : Option Orders
  sent : Option Orders
  /-- LOCKOUT at the next commit; R237, R266, R18; reset 0. -/
  lockNext : Bool
  /-- A LOCKOUT cause took effect at the commit in progress; R323; reset 0. -/
  lockNow : Bool
  /-- The port whose commands the commit in progress takes as the lead's; R281, R292; reset none. -/
  leadNow : Option HostId
  /-- Parameter values by PID, PGEN, PARAM_LAST; R304; reset empty, 0, 0. -/
  params : Tab Word
  pgen : Nat
  paramLast : Word
  /-- Forces: section to (state byte, count); R296; reset empty. -/
  forces : Tab (Byte × BitVec 16)
  /-- Deck vector: current and last-valid mantissas and exponents, LVLAND, LVOK, HOLDMASK; R297; reset 0. -/
  cur : List (BitVec 16)
  curExp : Int
  lv : List (BitVec 16)
  lvExp : Int
  lvLand : Word
  lvOk : Bool
  holdMask : Word
  /-- RES_EMPTY and RES_LOW are judged; R223; reset 0. -/
  resJudged : Bool
  /-- The supervisor program in each supervisor's memory; R313; reset empty. -/
  progA : List Byte
  progB : List Byte
  /-- Supervisor B's own memories; R233; reset empty. -/
  b : SupMem
  /-- The output blocks of supervisors A and B for the latest commit; R233; reset empty. -/
  outA : OutBlock
  outB : OutBlock
  deriving DecidableEq, Repr

def SupSt.reset : SupSt :=
  { pend := [], taken := [], results := [], dupSecs := [], stopGrps := [], modeTaken := false,
    paramTaken := false, keys := [], ncmd := 0, passA := 0, passB := 0, ceA := 0, ceB := 0, cpDue := false,
    cpokRun := 0, cpOk := false, cpokRunC := 0, cpOkC := false, digA := 0, digB := 0, moves := [], rot := none,
    rotNext := 0, mig := 0, migLand := 0, orders := none, sent := none, lockNext := false, lockNow := false,
    leadNow := none, params := [],
    pgen := 0, paramLast := 0, forces := [], cur := [], curExp := 0, lv := [], lvExp := 0, lvLand := 0,
    lvOk := false, holdMask := 0, resJudged := false, progA := [], progB := [], b := .reset, outA := .reset, outB := .reset }

/-- The layout of an output block's safety part, which the manual does not give (R234; a free value, log 15). -/
opaque blockBytes : OutBlock → List Byte

/-! ### SAFIO (11) -/

/-- A stop group. -/
structure Grp where
  /-- SG_STAT.STATE; 4 bits; R270; reset UNUSED. -/
  state : GrpState
  /-- SG_STAT.TRA, TRB, SRQ: driven levels; 1 bit each; R270; reset 0. -/
  tra : Bool
  trb : Bool
  srq : Bool
  /-- Taken input levels FBA, FBB, GDA, GDB, LRST; 1 bit each; R247; reset 0. -/
  fba : Bool
  fbb : Bool
  gda : Bool
  gdb : Bool
  lrst : Bool
  /-- The same five inputs as latched at the landing tick, FBA lowest; 5 bits; R233; reset 0. -/
  lat : BitVec 5
  /-- SG_STAT as it read at the latest landing tick; 32 bits; R286; reset 0. -/
  tickStat : Word
  /-- SG_STAT.PROF; 2 bits; R270; reset 0. -/
  prof : Nat
  /-- SG_STAT.GTEST; 1 bit; R270; reset 0. -/
  gtest : Bool
  /-- SG_STAT.ENBLK; 12 bits; R270; reset 0. -/
  enblk : BitVec 12
  /-- Live encoder position and the latched one; 32 bits each; R248, R249; reset 0. -/
  live : Word
  pos : Word
  /-- Encoder input levels; 1 bit each; R248; reset 0. -/
  ea : Bool
  eb : Bool
  /-- Positions latched at the ticks, newest first; R249; reset empty. -/
  hist : List Word
  /-- SG_SPEED; 32 bits; R270; reset 0. -/
  speed : Int
  /-- SG_V0, SG_ENV, SG_SS1LAND, SG_STOPT; R270; reset 0. -/
  v0 : Int
  env : Int
  ss1Land : Word
  stopSs1 : Nat
  stopFb : Nat
  /-- SG_ENCERR; 16 bits; R270; reset 0. -/
  encErr : Nat
  /-- Entry to the present state; 48 bits; R256; reset 0. -/
  since : Bell
  /-- First tick of SS1, and ticks since; R254; reset 0. -/
  ss1At : Bell
  ss1K : Nat
  /-- Since when standstill holds at every tick; R254; reset none. -/
  stillAt : Option Bell
  /-- Since when the feedback inputs disagree; since when one is wrong at rest; R256; reset none. -/
  fbDisc : Option Bell
  fbBad : Option Bell
  /-- Entry to DROP whose feedback time still runs; R256; reset none. -/
  dropAt : Option Bell
  /-- Since when the guard inputs disagree; R257; reset none. -/
  gdDisc : Option Bell
  /-- Start-up test: when each input last opened and closed, and the part of the sequence seen; R258; reset none, 0. -/
  gAt : Option Bell
  gbAt : Option Bell
  gSeen : Nat
  /-- A guard opening seen since the latest commit; R261; reset 0. -/
  gOpened : Bool
  /-- Reset window: when it opened; landing at which LRST rose inside it; a valid pulse was seen; R259; reset none, 0. -/
  winAt : Option Bell
  riseLand : Option Word
  rstOk : Bool
  /-- Landing of the latest fault that locks the group; 32 bits; R261; reset none. -/
  faultLand : Option Word
  /-- Bell times of the latest edges of ENCA and ENCB; 48 bits; R403; reset none. -/
  edgeA : Option Bell
  edgeB : Option Bell
  /-- When LRST rose, and whether it has been found stuck; R259; reset none, 0. -/
  lrstAt : Option Bell
  stuck : Bool
  deriving DecidableEq, Repr

def Grp.reset : Grp :=
  { state := .unused, tra := false, trb := false, srq := false, fba := false, fbb := false, gda := false,
    gdb := false, lrst := false, lat := 0, tickStat := 0, prof := 0, gtest := false, enblk := 0, live := 0, pos := 0, ea := false,
    eb := false, hist := [], speed := 0, v0 := 0, env := 0, ss1Land := 0, stopSs1 := 0, stopFb := 0,
    encErr := 0, since := 0, ss1At := 0, ss1K := 0, stillAt := none, fbDisc := none, fbBad := none,
    dropAt := none, gdDisc := none, gAt := none, gbAt := none, gSeen := 0, gOpened := false, winAt := none,
    faultLand := none, edgeA := none, edgeB := none, riseLand := none, rstOk := false, lrstAt := none, stuck := false }

/-- SAFIO. -/
structure SafSt where
  groups : Tab Grp
  /-- SG_SAFIO_STAT.SEAL_OK, DM, MISS; R272; reset 0. -/
  sealOk : Bool
  dm : Bool
  miss : Nat
  /-- SG_TOKLAND; 32 bits; R272; reset 0. -/
  tokLand : Word
  /-- The pair of the previous landing was accepted; R263; reset 0. -/
  accepted : Bool
  /-- SAFIO watches token pairs: a pair is expected; R263; reset 0. -/
  watching : Bool
  expecting : Bool
  /-- SG_SEAL_RD.PAT; 8 bits; SG_SEAL_CNT.GLITCH, READS; 16 bits; R272; reset 0. -/
  sealPat : Byte
  glitch : Nat
  reads : Nat
  /-- A seal read runs; start of the latest one, which SEAL_LD and SEAL_CK follow; the previous read mismatched; a repeat is
  due; R265, R266; reset 0, none. -/
  reading : Bool
  sealAt : Option Bell
  sealBad : Bool
  repeatDue : Bool
  /-- Device-level reset window on group RSTG: open since, rise, valid pulse; R260; reset none. -/
  devAt : Option Bell
  devRise : Option Word
  devOk : Bool
  deriving DecidableEq, Repr

def SafSt.reset : SafSt :=
  { groups := [], sealOk := false, dm := false, miss := 0, tokLand := 0, accepted := false, watching := false,
    expecting := false, sealPat := 0, glitch := 0, reads := 0, reading := false, sealAt := none, sealBad := false,
    repeatDue := false, devAt := none, devRise := none, devOk := false }

/-! ### Host ports (12) -/

/-- A host port. -/
structure PortSt where
  /-- Link in DL_Active, at 5.0 GT/s, has been lost since it was last active; R278, R302; reset 0. -/
  link : Bool
  gen2 : Bool
  wasLost : Bool
  /-- HOST_CTL: KEYEN, DLEN, WREN, IMGEN; 4 bits; R302; reset 0. -/
  ctl : BitVec 4
  /-- HOST_PUB.PERIOD; 9 bits; R302; reset 1. -/
  pub : Nat
  /-- Commits until the next published one, 1 = the next; R283; reset 1. -/
  pubLeft : Nat
  /-- Base addresses; 64 bits each; R302; reset 0. -/
  imgBase : BitVec 64
  wrBase : BitVec 64
  dlBase : BitVec 64
  keyBase : BitVec 64
  /-- HOST_WRSIZE.LOG2; 5 bits; R302; reset 6. -/
  wrSize : Nat
  /-- HOST_WRRIDX, HOST_WRDROP; 32 bits each; R302; reset 0. -/
  wrRidx : Word
  wrDrop : Nat
  /-- Records dropped since the previous image; R285; reset 0. -/
  recDrop : Bool
  /-- HOST_PUBSEQ, HOST_MBSEQ; 32 bits each; R302; reset 0. -/
  pubSeq : Word
  mbSeq : Word
  /-- SEQ of the latest completed image, and of the mailbox whose results wait; 32 bits each; R285, R294; reset 0. -/
  imgSeq : Word
  resSeq : Word
  /-- HOST_SILENT; 16 bits; R302; reset 0. -/
  silent : Nat
  /-- A HOST_HBEAT write waits for its tick; the count is held at 0xFFFF by a link loss until a write; R280, R278; reset 0. -/
  beat : Bool
  lostBeat : Bool
  /-- HOST_LEADLAND; 32 bits; R302; reset 0. -/
  leadLand : Word
  /-- HOST_IRQEN, HOST_IRQST; 8 bits each; R302; reset 0. -/
  irqEn : Byte
  irqSt : Byte
  /-- What the host's enumeration wrote into this port's configuration space; R274, R275, R383; reset 0. -/
  pci : PciCfg
  /-- The PERST input is asserted; 1 bit; R278, R398; reset 0. -/
  perst : Bool
  /-- MSI-X table, 32 words; pending bits; R390; reset masked (PRESUMED, PCI Express), 0. -/
  msix : Tab Word
  msixPend : Byte
  /-- Vectors sent, newest last; R300; reset empty. -/
  sent : List Nat
  /-- Receive and transmit FIFO between the PHY and the handshake side, 64 entries each: requests, as offset and data, and
  memory writes, as address and data; R19; reset empty. -/
  rxFifo : List (Nat × List (Option Byte))
  txFifo : List (Nat × List Byte)
  /-- In D3hot (else D0); 1 bit; R274, R278; reset 0 (D0). -/
  d3hot : Bool
  /-- Advanced Error Reporting: a poisoned request, an unsupported request; 1 bit each; R274, R381; reset 0. -/
  aerPoison : Bool
  aerUr : Bool
  /-- Image load window, 8 MiB, and command mailbox, 4 KiB; R276; reset 0 (window R320; mailbox DESIGN CHOICE). -/
  window : Mem
  mailbox : Mem
  /-- Host memory as this port has written it; R277; reset empty. -/
  host : Mem
  /-- MBSTAT of the mailbox copied, results not yet released, this commit's image is published; R288; reset 3, 0, 0. -/
  mbStat : Nat
  mbHeld : Bool
  publish : Bool
  /-- The first part of the publication in progress has been written; R284; reset 0. -/
  body : Bool
  /-- HOST_CTL and the base addresses that govern the publication in progress; R284, R302, R390; reset 0. -/
  pubCtl : BitVec 4
  pubImg : BitVec 64
  pubDl : BitVec 64
  pubKey : BitVec 64
  /-- HOST_MBSEQ and HOST_LEADLAND as the latest commit switch shows them; 32 bits each; R386; reset 0. -/
  mbShown : Word
  leadShown : Word
  /-- Latches behind BELL_TIME_HI and BELL_PPS_HI; 16 bits each; R51, R383; reset 0. -/
  timeHi : BitVec 16
  ppsHi : BitVec 16
  /-- Value the latest side-effect read returned; 32 bits; R378; reset DESIGN CHOICE 0. -/
  readData : Word
  /-- CHK_SEL.ENGINE and HEAD; 9 bits each; R243; reset 0. -/
  selEng : Nat
  selHead : Nat
  /-- PARAM_SEL.PID; 16 bits; R304; reset 0. -/
  selPid : Nat
  deriving DecidableEq, Repr

def PortSt.reset : PortSt :=
  { link := false, gen2 := false, wasLost := false, ctl := 0, pub := 1, pubLeft := 1, imgBase := 0, wrBase := 0,
    dlBase := 0, keyBase := 0, wrSize := 6, wrRidx := 0, wrDrop := 0, recDrop := false, pubSeq := 0, mbSeq := 0, imgSeq := 0, resSeq := 0,
    silent := 0, beat := false, lostBeat := false, leadLand := 0, irqEn := 0, irqSt := 0,
    msix := [(3, 1), (7, 1), (11, 1), (15, 1), (19, 1), (23, 1), (27, 1), (31, 1)], msixPend := 0, sent := [], pci := .reset, perst := false,
    rxFifo := [], txFifo := [], d3hot := false, aerPoison := false, aerUr := false, window := [], mailbox := [], host := [],
    mbStat := 3, mbHeld := false, publish := false, body := false, pubCtl := 0, pubImg := 0, pubDl := 0, pubKey := 0, mbShown := 0, leadShown := 0, timeHi := 0,
    ppsHi := 0, readData := 0, selEng := 0, selHead := 0, selPid := 0 }

/-! ### Power and temperature (14) -/

/-- A change of setpoint on its way (R327). -/
structure Slew where
  /-- Where the rail stood at its start, in mV, and that start. -/
  from_ : Nat
  at_ : Bell
  /-- Lowest and highest setpoint the window thresholds still cover, in mV. -/
  lo : Nat
  hi : Nat
  deriving DecidableEq, Repr

/-- A power domain. -/
structure Dom where
  /-- PMC_DOM_STAT.STATE; 4 bits; R350; reset OFF. -/
  state : DomState
  /-- Phases disabled; 4 bits; R335, R350 (PHEN); reset 0. -/
  disabled : BitVec 4
  /-- PMC_DOM_VSET, VMEAS, IOUT.I; R350; reset 0. -/
  vset : Nat
  /-- The slew toward it; R327; reset none. -/
  slew : Option Slew
  vmeas : Nat
  iout : Nat
  /-- PMC_DOM_SLACK.S and MIN; 16 bits each; R350; reset 0 and 0x7FFF. -/
  slack : Int
  slackMin : Int
  /-- PMC_DOM_XON, one count per phase; 8 bits each; R350; reset 0. -/
  xon : List Nat
  /-- Bell times of each phase's latest interlock events, as (phase, time), newest first; R335; reset empty. -/
  xonAt : List (Nat × Bell)
  /-- PMC_DOM_MON flags M1FAIL, M2FAIL, M1UV, M1OV, M2UV, M2OV; 1 bit each; R350; reset 0. -/
  fail1 : Bool
  fail2 : Bool
  uv1 : Bool
  ov1 : Bool
  uv2 : Bool
  ov2 : Bool
  /-- Governor: slack of the last 4 landings newest first, high run; R342; reset empty, 0. -/
  hist : List Int
  hiRun : Nat
  /-- Start of the domain's ramp; 48 bits; R328; reset DESIGN CHOICE 0. -/
  startAt : Bell
  deriving DecidableEq, Repr

def Dom.reset : Dom :=
  { state := .off, disabled := 0, vset := 0, slew := none, vmeas := 0, iout := 0, slack := 0, slackMin := 0x7FFF,
    xon := [0, 0, 0, 0], xonAt := [], fail1 := false, fail2 := false, uv1 := false, ov1 := false, uv2 := false,
    ov2 := false, hist := [], hiRun := 0, startAt := 0 }

/-- The PMC and the thermal monitor. -/
structure PmcSt where
  doms : Tab Dom
  /-- The domains as of the most recent landing tick, which their registers show; R349, R386; reset empty. -/
  seen : Tab Dom
  /-- Step of R328 in progress, 1 to 4 (4 = BOOT reached); within step 3 the pair; R328; reset 2, 0. -/
  step : Nat
  sub : Nat
  /-- The sequence has stopped; R328; reset 0. -/
  stopped : Bool
  /-- ENG domains still to start, in order, and when the last one started; R328; reset empty. -/
  engQueue : List Nat
  engAt : Option Bell
  /-- PMC_TRUNK.V and I; R352; reset 0. -/
  trunkV : Nat
  trunkI : Nat
  /-- Tie tests: next (domain, monitor) in rotation, test running; R340; reset 0, none. -/
  tieNext : Nat
  tieNow : Option (Nat × Side)
  /-- PMC_STAT.TIE_ON as of the most recent landing tick; 1 bit; R352, R386; reset 0. -/
  tieSeen : Bool
  /-- Next DAC of the 120; R339; reset DESIGN CHOICE 0. -/
  dacNext : Nat
  /-- THERM_SENS: VALID and T, 12 entries; R354; reset 0. -/
  sens : List (Bool × Int)
  /-- THERM_STAT TMAX, HOT, NINV, LATCH, STATE; R354; reset 0. -/
  tj : Int
  hot : Nat
  ninv : Nat
  latch : Bool
  therm : ThermState
  /-- Last 7 values of T_J, newest first; filtered indicators; R345; reset empty, 0. -/
  tjHist : List Int
  f135 : Bool
  f145 : Bool
  f155 : Bool
  /-- State called for and consecutive ticks it has been called for; R345; reset NORMAL, 0. -/
  call : ThermState
  callN : Nat
  /-- Bell times of the transitions within the last second, newest first; THERM_CNT.TOTAL; R347, R354; reset empty, 0. -/
  trans : List Bell
  transTotal : Nat
  /-- HOVER has been cleared: the state follows the indicators at the next tick; R347; reset 0. -/
  hoverTick : Bool
  /-- The measures of THROTTLE hold, as of the latest release; R346; reset 0. -/
  shed : Bool
  /-- THERM_STAT and THERM_CNT as of the most recent landing tick; 32 bits each; R353, R386; reset 0. -/
  statSeen : Word
  cntSeen : Word
  deriving DecidableEq, Repr

def PmcSt.reset : PmcSt :=
  { doms := [(0, { Dom.reset with state := .on, vset := 800 }), (1, { Dom.reset with state := .ramp, vset := 800 })]
    seen := [], step := 2, sub := 0, stopped := false,
    engQueue := [], engAt := none, trunkV := 0, trunkI := 0, tieNext := 0, tieNow := none, tieSeen := false, dacNext := 0,
    sens := List.replicate 12 (false, 0), tj := 0, hot := 0, ninv := 0, latch := false, therm := .normal,
    tjHist := [], f135 := false, f145 := false, f155 := false, call := .normal, callN := 0, trans := [],
    transTotal := 0, hoverTick := false, shed := false, statSeen := 0, cntSeen := 0 }

/-! ### Device, image, faults (13, 15, 17) -/

/-- The DEV block. -/
structure DevSt where
  /-- DEV_STAT: MODE, PRIOR, SAFE, PDONE, HTRANS; R324; reset BOOT, 0. -/
  mode : Mode
  prior : Option Mode
  safe : Bool
  pdone : Bool
  htrans : Nat
  /-- DEV_PROVE: ST, STFAIL, WIN, RINGS, LEARN, TMO; R324; reset 0. -/
  st : Bool
  stfail : Bool
  win : Bool
  rings : Bool
  learn : Bool
  tmo : Bool
  /-- A self-test end waits for the next commit; R315; reset 0. -/
  stEnd : Bool
  stBad : Bool
  /-- DEV_MODELAND; 32 bits; R324; reset 0. -/
  modeLand : Word
  /-- DEV_REFUSE: REQ, COND; R324; reset 0. -/
  refReq : Nat
  refCond : Nat
  /-- START waits for the next landing tick; R314; reset 0. -/
  startReq : Bool
  /-- That tick has come and the transition is being judged; R314; reset 0. -/
  startTick : Bool
  /-- Bell time of the Boot to Prove transition; R316; reset DESIGN CHOICE 0. -/
  proveAt : Bell
  /-- The next commit is the first after the transition; R132; reset 0. -/
  first : Bool
  /-- Lead port; R279; reset DESIGN CHOICE HA. -/
  lead : HostId
  /-- Cause of the safe state the device is in; 8 bits; R361, R374; reset 0. -/
  safeCause : Nat
  /-- A lead has been assigned; R279; reset 0. -/
  hasLead : Bool
  /-- Device write index of the wheel-record ring; 32 bits; R118; reset 0. -/
  wrWidx : Word
  /-- HARBOUR sequence: landing at which its next step may begin; R321, R322; reset 0. -/
  seqLand : Word
  deriving DecidableEq, Repr

def DevSt.reset : DevSt :=
  { mode := .boot, prior := none, safe := false, pdone := false, htrans := 0, st := false, stfail := false,
    win := false, rings := false, learn := false, tmo := false, stEnd := false, stBad := false, modeLand := 0,
    refReq := 0, refCond := 0, startReq := false, startTick := false, proveAt := 0, first := false,
    lead := .ha, safeCause := 0, hasLead := false, wrWidx := 0, seqLand := 0 }

/-- The IMG block. -/
structure ImgSt where
  /-- IMG_STAT: STATE, PORT, ERR; R325; reset 0. -/
  state : ImgState
  port : HostId
  err : Nat
  /-- The port that owns the load; R309; reset none. -/
  owner : Option HostId
  /-- IMG_LEN; 24 bits; R325; reset 0. -/
  len : Nat
  /-- Start of the phase in progress; 48 bits; R310; reset DESIGN CHOICE 0. -/
  at_ : Bell
  /-- IMG_TIME: CHECK, DIST; 16 bits each; R325; reset 0. -/
  tCheck : Nat
  tDist : Nat
  cfg : Cfg
  deriving DecidableEq, Repr

def ImgSt.reset : ImgSt :=
  { state := .empty, port := .ha, err := 0, owner := none, len := 0, at_ := 0, tCheck := 0, tDist := 0,
    cfg := .none }

/-- A report on its way to AON: class, index, bit (R359). -/
structure Report where
  cls : Nat
  ix : Nat
  bit : Nat
  deriving DecidableEq, Repr

/-- The fault record. -/
structure FltSt where
  /-- Every sticky fault register, keyed by class x 512 + index; 32 bits each; R356; reset 0. -/
  bits : Tab Word
  /-- Reports under way to AON, each with the bell time and landing of its arrival; R359; reset empty. -/
  reports : List (Report × Bell × Word)
  /-- Bits with an event since the bell last moved, keyed as the registers; HOST_IRQST stands at index 1; R390; reset 0. -/
  fresh : Tab Word
  /-- FLT_FIRST, with its bell time and landing; R373; reset (power-up) none. -/
  first : Option (Report × Bell × Word)
  /-- FLT_LATER; 16 bits; R373; reset 0. -/
  later : Nat
  /-- FLT_SAFE: ACTIVE and CAUSE; R372; reset 0. -/
  safeActive : Bool
  safeCause : Nat
  /-- FAULT_N held asserted until the landing tick after the last sticky bit is cleared; 1 bit; R364; reset 0. -/
  faultN : Bool
  /-- SAFE_N held by a dead-man expiry; FLT_PINS.DM; R364; reset 0. -/
  dmHold : Bool
  deriving DecidableEq, Repr

def FltSt.reset : FltSt :=
  { bits := [], reports := [], fresh := [], first := none, later := 0, safeActive := false, safeCause := 0, faultN := false,
    dmHold := false }

/-- Supplies and pins (17). -/
structure PinSt where
  /-- Supplies in range: VAON, VTRK, VIO33, VLNK, VPCI, VPH18; 1 bit each; R399; reset DESIGN CHOICE 1. -/
  vaon : Bool
  vtrk : Bool
  vio33 : Bool
  vlnk : Bool
  vpci : Bool
  vph18 : Bool
  /-- RESET_N high; R401; reset 1 (the state after its rise). -/
  resetN : Bool
  /-- TEST_EN; R407; reset DESIGN CHOICE 0 (tied to GND, R397). -/
  testEn : Bool
  /-- JTAG instruction in effect; R407; reset PRESUMED IDCODE (IEEE 1149.1). -/
  jtag : Jtag
  deriving DecidableEq, Repr

def PinSt.reset : PinSt :=
  { vaon := true, vtrk := true, vio33 := true, vlnk := true, vpci := true, vph18 := true, resetN := true,
    testEn := false, jtag := .idcode }

/-- The CR512. -/
structure State where
  bell : BellSt
  frame : FrameSt
  ports : Tab RPort
  rings : Tab Ring
  gn8s : Tab Gn8
  heads : Tab Head
  man : ManSt
  engs : Tab Eng
  sup : SupSt
  saf : SafSt
  ha : PortSt
  hb : PortSt
  pmc : PmcSt
  dev : DevSt
  img : ImgSt
  flt : FltSt
  pins : PinSt
  /-- What the registers that switch only at a commit showed at the latest one, by BAR0 offset; R386; reset empty. -/
  shown : Tab Word
  /-- The model's own: how many free values have been drawn; reset DESIGN CHOICE 0. -/
  free : Nat
  /-- Commands waiting, first in first out. -/
  pending : List Instr
  deriving DecidableEq, Repr

/-- The machine right after reset: RESET_N has risen, D00 is in service and D01 starts, step 2 of R328. -/
def State.reset : State :=
  { bell := .reset, frame := .reset, ports := [], rings := [], gn8s := [], heads := [], man := .reset,
    engs := [], sup := .reset, saf := .reset, ha := .reset, hb := .reset, pmc := .reset, dev := .reset,
    img := .reset, flt := .reset, pins := .reset, shown := [], free := 0, pending := [] }

end Sys2Proof.Machine
end

