-- ==== Sys2Proof/Machine/Bits.lean ====
section
/-! DEFINITION. Bit fields, modular comparison, byte order, rounding and the two CRCs. -/

namespace Sys2Proof.Machine

/-- A word assembled from (lowest bit, value) pairs. -/
def packWord : List (Nat × Nat) → Word
  | [] => 0
  | (lo, v) :: t => (BitVec.ofNat 32 v <<< lo) ||| packWord t

/-- Bits lo to lo + n - 1 of a number. -/
def bitsNat (x lo n : Nat) : Nat := x / 2 ^ lo % 2 ^ n

def b2n (b : Bool) : Nat := if b then 1 else 0

/-- A saturating count (R9 and the counters of each chapter). -/
def satInc (max n : Nat) : Nat := if n < max then n + 1 else max

/-- Later in the sense of R44, for a counter of w bits. -/
def laterMod (w : Nat) (a b : BitVec w) : Bool :=
  1 ≤ (a - b).toNat ∧ (a - b).toNat ≤ 2 ^ (w - 1) - 1

/-- Elapsed ticks from b to a (R44). -/
def elapsed (a b : Bell) : Nat := (a - b).toNat

/-- Landing numbers from b to a (R44). -/
def elapsedLand (a b : Word) : Nat := (a - b).toNat

/-- A signed reading of 16 bits. -/
def sgn16 (x : BitVec 16) : Int := x.toInt

/-- Round n / d to the nearest integer, an exact half to the even neighbour (R8); d > 0. -/
def roundEven (n : Int) (d : Nat) : Int :=
  let q := (2 * n + d) / (2 * d)
  if (2 * n + d) % (2 * d) = 0 ∧ q % 2 = 1 then q - 1 else q

/-- Ticks in steps of 10 us, the nearest (R8). -/
def tenMicros (ticks : Nat) : Nat := (roundEven (ticks : Int) 100).toNat

/-- Ceiling of a quotient of natural numbers. -/
def ceilDiv (a b : Nat) : Nat := (a + b - 1) / b

def clampInt (lo hi x : Int) : Int := max lo (min hi x)

/-- Little-endian bytes of a number (R6). -/
def leBytes : Nat → Nat → List Byte
  | 0, _ => []
  | n + 1, x => BitVec.ofNat 8 x :: leBytes n (x / 256)

/-- The number little-endian bytes spell (R6). -/
def leNat : List Byte → Nat
  | [] => 0
  | b :: t => b.toNat + 256 * leNat t

/-- The number big-endian bytes spell. -/
def beNat (l : List Byte) : Nat := l.foldl (fun a b => a * 256 + b.toNat) 0

/-- Bytes off to off + n - 1 of a list, zero beyond its end. -/
def slice (l : List Byte) (off n : Nat) : List Byte :=
  let r := (l.drop off).take n
  r ++ List.replicate (n - r.length) 0

/-- A little-endian field of a byte list. -/
def fieldLE (l : List Byte) (off n : Nat) : Nat := leNat (slice l off n)

/-- Eight shifts of the reflected CRC-32C register (R60). -/
def crc32Shift : Nat → Word → Word
  | 0, c => c
  | n + 1, c => crc32Shift n (if c.getLsbD 0 then (c >>> 1) ^^^ 0x82F63B78 else c >>> 1)

/-- CRC-32C: polynomial 0x1EDC6F41 reflected, initial value and final XOR 0xFFFFFFFF (R60). -/
def crc32c (l : List Byte) : Word :=
  (l.foldl (fun c b => crc32Shift 8 (c ^^^ b.zeroExtend 32)) 0xFFFFFFFF) ^^^ 0xFFFFFFFF

/-- Eight shifts of the CRC-16 register. -/
def crc16Shift : Nat → BitVec 16 → BitVec 16
  | 0, c => c
  | n + 1, c => crc16Shift n (if c.getLsbD 15 then (c <<< 1) ^^^ 0x1021 else c <<< 1)

/-- CRC-16/CCITT-FALSE (R110). -/
def crc16 (l : List Byte) : BitVec 16 :=
  l.foldl (fun c b => crc16Shift 8 (c ^^^ ((b.zeroExtend 16 : BitVec 16) <<< (8 : Nat)))) 0xFFFF

/-- Insert a key in a rising list of distinct keys. -/
def insertKey (k : Nat) : List Nat → List Nat
  | [] => [k]
  | h :: t => if k < h then k :: h :: t else if k = h then h :: t else h :: insertKey k t

/-- The rising list of the distinct members of a list. -/
def sortKeys (l : List Nat) : List Nat := l.foldr insertKey []

/-- Insertion by a numeric key, stable. -/
def insertBy {α : Type} (key : α → Nat) (x : α) : List α → List α
  | [] => [x]
  | h :: t => if key x ≤ key h then x :: h :: t else h :: insertBy key x t

/-- Stable sort by a numeric key. -/
def sortBy {α : Type} (key : α → Nat) (l : List α) : List α := l.foldr (insertBy key) []

/-- Integer square root, by bits from bit k downward. -/
def isqrtBits : Nat → Nat → Nat → Nat
  | 0, _, r => r
  | k + 1, n, r => if (r + 2 ^ k) * (r + 2 ^ k) ≤ n then isqrtBits k n (r + 2 ^ k) else isqrtBits k n r

/-- floor (sqrt n). -/
def isqrt (n : Nat) : Nat := isqrtBits (n.log2 / 2 + 1) n 0

end Sys2Proof.Machine
end

