-- ==== Sys2Proof/Machine/Line.lean ====
section
/-! DEFINITION. The 8b/10b line code of the Tsumal lanes: code groups, running disparity, SOF, EOF and IDLE (R58). The tables are
those of IEEE 802.3 clause 36, which R58 names (PRESUMED, log 89). A code group is written as that clause writes it, abcdeifghj,
a first on the line and here bit 9. -/

namespace Sys2Proof.Machine

/-- A character as a receiver decodes it: a data octet, a control character by its octet, or a code group outside the tables or
against the running disparity (R58). -/
inductive LineChar where
  | data (b : Byte)
  | ctl (b : Byte)
  | invalid
  deriving DecidableEq, Repr

/-- The groups abcdei of D0 to D31 where the running disparity is negative. -/
def sixTable : List Nat :=
  [0x27, 0x1D, 0x2D, 0x31, 0x35, 0x29, 0x19, 0x38, 0x39, 0x25, 0x15, 0x34, 0x0D, 0x2C, 0x1C, 0x17] ++
  [0x1B, 0x23, 0x13, 0x32, 0x0B, 0x2A, 0x1A, 0x3A, 0x33, 0x26, 0x16, 0x36, 0x0E, 0x2E, 0x1E, 0x2B]

/-- The groups fghj of .0 to .7 of a data character where the running disparity ahead of them is negative. -/
def fourTable : List Nat := [0xB, 0x9, 0x5, 0xC, 0xD, 0xA, 0x6, 0xE]

/-- The groups fghj of K28.0 to K28.7 behind 001111. -/
def k28Table : List Nat := [0x4, 0x9, 0x5, 0x3, 0x2, 0xA, 0x6, 0x8]

def onesOf (n x : Nat) : Nat := (List.range n).foldl (fun a i => a + bitsNat x i 1) 0

/-- The running disparity behind abcdei: it follows the ones, and 000111 and 111000 set it. -/
def rdSix (rd : Bool) (x : Nat) : Bool :=
  if 3 < onesOf 6 x || x == 0x07 then true else if onesOf 6 x < 3 || x == 0x38 then false else rd

/-- The running disparity behind fghj. -/
def rdFour (rd : Bool) (x : Nat) : Bool :=
  if 2 < onesOf 4 x || x == 0x3 then true else if onesOf 4 x < 2 || x == 0xC then false else rd

/-- abcdei of D.x; a group that is not balanced, and that of D7, is complemented where the disparity is positive. -/
def sixOf (rd : Bool) (x : Nat) : Nat :=
  let c := sixTable.getD x 0
  if rd && (onesOf 6 c != 3 || x == 7) then 0x3F - c else c

/-- fghj of a data character: .7 has its other form behind the groups that it would run on from. -/
def fourOf (rd : Bool) (x y : Nat) : Nat :=
  let c := if y == 7 && (if rd then x == 11 || x == 13 || x == 14 else x == 17 || x == 18 || x == 20) then 0x7
    else fourTable.getD y 0
  if rd && (onesOf 4 c != 2 || y == 3) then 0xF - c else c

/-- The code group of a data octet. -/
def dataGroup (rd : Bool) (b : Byte) : BitVec 10 :=
  let six := sixOf rd (bitsNat b.toNat 0 5)
  BitVec.ofNat 10 (16 * six + fourOf (rdSix rd six) (bitsNat b.toNat 0 5) (bitsNat b.toNat 5 3))

/-- The control characters of the code: K28.0 to K28.7, K23.7, K27.7, K29.7 and K30.7. -/
def ctlOctets : List Byte := [0x1C, 0x3C, 0x5C, 0x7C, 0x9C, 0xBC, 0xDC, 0xFC, 0xF7, 0xFB, 0xFD, 0xFE]

/-- The code group of a control character. -/
def ctlGroup (rd : Bool) (b : Byte) : BitVec 10 :=
  let x := bitsNat b.toNat 0 5
  let c := if x == 28 then 16 * 0x0F + k28Table.getD (bitsNat b.toNat 5 3) 0 else 16 * sixTable.getD x 0 + 8
  BitVec.ofNat 10 (if rd then 0x3FF - c else c)

/-- The running disparity behind a code group. -/
def rdAfter (rd : Bool) (g : BitVec 10) : Bool := rdFour (rdSix rd (g.toNat / 16)) (g.toNat % 16)

/-- A code group is decoded with the running disparity ahead of it. -/
def decodeGroup (rd : Bool) (g : BitVec 10) : LineChar :=
  match ctlOctets.find? fun b => ctlGroup rd b == g with
  | some b => .ctl b
  | none =>
    match (List.range 32).find? fun x => sixOf rd x == g.toNat / 16 with
    | none => .invalid
    | some x =>
      match (List.range 8).find? fun y => fourOf (rdSix rd (g.toNat / 16)) x y == g.toNat % 16 with
      | some y => .data (BitVec.ofNat 8 (32 * y + x))
      | none => .invalid

/-- Code groups decoded one after the other: the characters, and the running disparity behind them. -/
def decodeGroups : Bool → List (BitVec 10) → List LineChar × Bool
  | rd, [] => ([], rd)
  | rd, g :: t =>
    let r := decodeGroups (rdAfter rd g) t
    (decodeGroup rd g :: r.1, r.2)

/-- Data octets encoded one after the other. -/
def dataGroups : Bool → List Byte → List (BitVec 10) × Bool
  | rd, [] => ([], rd)
  | rd, b :: t =>
    let r := dataGroups (rdAfter rd (dataGroup rd b)) t
    (dataGroup rd b :: r.1, r.2)

/-- SOF is K27.7, EOF is K29.7 (R58). -/
abbrev sofOctet : Byte := 0xFB
abbrev eofOctet : Byte := 0xFD

/-- A frame on the line: SOF, its bytes, EOF (R58, R60); and the running disparity behind it. -/
def frameGroups (rd : Bool) (f : List Byte) : List (BitVec 10) × Bool :=
  let sof := ctlGroup rd sofOctet
  let body := dataGroups (rdAfter rd sof) f
  (sof :: body.1 ++ [ctlGroup body.2 eofOctet], rdAfter body.2 (ctlGroup body.2 eofOctet))

/-- IDLE is K28.5 and D16.2 (R58). -/
def idleGroups (rd : Bool) : List (BitVec 10) :=
  [ctlGroup rd 0xBC, dataGroup (rdAfter rd (ctlGroup rd 0xBC)) 0x50]

/-- The running disparity a SOF shows it was sent with; none where the group is no SOF. -/
def sofRd (g : BitVec 10) : Option Bool :=
  if g == ctlGroup false sofOctet then some false else if g == ctlGroup true sofOctet then some true else none

end Sys2Proof.Machine
end

