-- ==== Sys2Proof/Machine/Ops.lean ====
section
/-! DEFINITION. Named operations over the state: tables, records, sticky bits, vectors, domains, modes,
groups and the device safe state. -/

namespace Sys2Proof.Machine

abbrev Out := Host.Outcome State Fault Refusal

/-! ### Tables and memories -/

/-- The entry at a key; d where none is listed. -/
def tabGet {α : Type} (d : α) : Tab α → Nat → α
  | [], _ => d
  | (k', v) :: t, k => if k = k' then v else tabGet d t k

/-- Put an entry in its place among rising keys. -/
def tabPut {α : Type} : Tab α → Nat → α → Tab α
  | [], k, v => [(k, v)]
  | (k', v') :: t, k, v =>
    if k < k' then (k, v) :: (k', v') :: t
    else if k = k' then (k, v) :: t
    else (k', v') :: tabPut t k v

/-- Write an entry and keep the canonical form: keys rise and no entry equals d. -/
def tabSet {α : Type} [DecidableEq α] (d : α) (t : Tab α) (k : Nat) (v : α) : Tab α :=
  if v = d then t.filter fun p => p.1 != k else tabPut t k v

def tabMod {α : Type} [DecidableEq α] (d : α) (t : Tab α) (k : Nat) (f : α → α) : Tab α :=
  tabSet d t k (f (tabGet d t k))

/-- Change every listed entry and keep the canonical form. -/
def tabMap {α : Type} [DecidableEq α] (d : α) (f : Nat → α → α) (t : Tab α) : Tab α :=
  (t.map fun p => (p.1, f p.1 p.2)).filter fun p => p.2 ≠ d

/-- Keys rise strictly above a bound and no entry equals d. -/
def tabWfFrom {α : Type} [DecidableEq α] (d : α) : Option Nat → Tab α → Bool
  | _, [] => true
  | lo, (k, v) :: t =>
    (match lo with
      | none => true
      | some l => decide (l < k)) && decide (v ≠ d) && tabWfFrom d (some k) t

/-- The canonical form of a table. -/
def tabWf {α : Type} [DecidableEq α] (d : α) (t : Tab α) : Bool := tabWfFrom d none t

/-- The canonical form of a memory. -/
def Memory.wf (m : Mem) : Bool := tabWf 0 m

/-- One byte of a memory; an unlisted byte reads 0x00. -/
def memGet (m : Mem) (a : Nat) : Byte := tabGet 0 m a

/-- Store one byte. -/
def memSet (m : Mem) (a : Nat) (b : Byte) : Mem := tabSet 0 m a b

/-- Store bytes at rising addresses. -/
def memStore : Mem → Nat → List Byte → Mem
  | m, _, [] => m
  | m, a, b :: t => memStore (memSet m a b) (a + 1) t

/-- n bytes from an address. -/
def memLoad (m : Mem) (a : Nat) : Nat → List Byte
  | 0 => []
  | n + 1 => memGet m a :: memLoad m (a + 1) n

/-- A little-endian number of n bytes (R6). -/
def memLE (m : Mem) (a n : Nat) : Nat := leNat (memLoad m a n)

/-! ### Records of the instances -/

/-- The fixed setpoint in mV, or an ENG domain's start setpoint (R326, R328). -/
def domSetpoint (d : Nat) : Nat :=
  if 14 ≤ d then 950 else if d = 4 || d = 5 then 750 else if d = 10 || d = 11 then 600 else 800

def portOf (p : Nat) (s : State) : RPort := tabGet .reset s.ports p
def setPort (p : Nat) (v : RPort) (s : State) : State := { s with ports := tabSet .reset s.ports p v }
def ringOf (k : Nat) (s : State) : Ring := tabGet .reset s.rings k
def setRing (k : Nat) (v : Ring) (s : State) : State := { s with rings := tabSet .reset s.rings k v }
def gn8Of (i : Nat) (s : State) : Gn8 := tabGet .reset s.gn8s i
def setGn8 (i : Nat) (v : Gn8) (s : State) : State := { s with gn8s := tabSet .reset s.gn8s i v }
def headOf (h : Nat) (s : State) : Head := tabGet .reset s.heads h
def setHead (h : Nat) (v : Head) (s : State) : State := { s with heads := tabSet .reset s.heads h v }
def engOf (e : Nat) (s : State) : Eng := tabGet .reset s.engs e
def setEng (e : Nat) (v : Eng) (s : State) : State := { s with engs := tabSet .reset s.engs e v }
def modEng (e : Nat) (f : Eng → Eng) (s : State) : State := setEng e (f (engOf e s)) s
def grpOf (g : Nat) (s : State) : Grp := tabGet .reset s.saf.groups g
def setGrp (g : Nat) (v : Grp) (s : State) : State :=
  { s with saf := { s.saf with groups := tabSet .reset s.saf.groups g v } }
def modGrp (g : Nat) (f : Grp → Grp) (s : State) : State := setGrp g (f (grpOf g s)) s
def domOf (d : Nat) (s : State) : Dom := tabGet .reset s.pmc.doms d
def setDom (d : Nat) (v : Dom) (s : State) : State :=
  { s with pmc := { s.pmc with doms := tabSet .reset s.pmc.doms d v } }
def modDom (d : Nat) (f : Dom → Dom) (s : State) : State := setDom d (f (domOf d s)) s
def hostOf (p : HostId) (s : State) : PortSt :=
  match p with
  | .ha => s.ha
  | .hb => s.hb
def setHost (p : HostId) (v : PortSt) (s : State) : State :=
  match p with
  | .ha => { s with ha := v }
  | .hb => { s with hb := v }
def modHost (p : HostId) (f : PortSt → PortSt) (s : State) : State := setHost p (f (hostOf p s)) s
def otherHost : HostId → HostId
  | .ha => .hb
  | .hb => .ha

/-- Apply a change at each of a list of indices, in order. -/
def forEach {β : Type} (l : List β) (f : β → State → State) (s : State) : State :=
  l.foldl (fun s b => f b s) s

/-! ### The configuration (R307, R308) -/

/-- Sections with a record in the section table (R125). -/
def secConfigured (n : Nat) (s : State) : Bool := s.img.cfg.secs.any (fun p => p.1 == n)
def secCfg (n : Nat) (s : State) : SecCfg :=
  tabGet { pvc := false, auth := 0, ends := [], defCrc := 0 } s.img.cfg.secs n
def headConfigured (h : Nat) (s : State) : Bool := s.img.cfg.heads.any (fun p => p.1 == h)
def headCfg (h : Nat) (s : State) : HeadCfg :=
  tabGet { ring := 0, slot := 0, chan := 0, lab := 0, wmin := 0, dOn := 0, dOff := 0, dPeak := 0, phLo := 0,
           phHi := 0, zcA := (0, 0), zcB := (0, 0), wCfg := 0, wThr := 0, wChk := 0 } s.img.cfg.heads h
def ringCfg (k : Nat) (s : State) : RingCfg :=
  tabGet { mode := 0, pdev := false, ngn8 := 0, ids := [], setup := [] } s.img.cfg.rings k
def grpConfigured (g : Nat) (s : State) : Bool := s.img.cfg.groups.any (fun p => p.1 == g)
def grpCfg (g : Nat) (s : State) : GrpCfg :=
  tabGet { enc := false, guard := false, trust := [], profiles := [], encScale := 0, win := 0, aEnv := 0,
           vTol := 0, tDly := 0, vStill := 0, tStill := 0, tSs1 := 0, tFb := 0 } s.img.cfg.groups g
def cfgSecs (s : State) : List Nat := s.img.cfg.secs.map (·.1)
def cfgHeads (s : State) : List Nat := s.img.cfg.heads.map (·.1)
def cfgGroups (s : State) : List Nat := s.img.cfg.groups.map (·.1)
/-- The rings in use (R54). -/
def cfgRings (s : State) : List Nat := (s.img.cfg.rings.filter (fun p => p.2.mode != 0)).map (·.1)

/-! ### Section records in both codings (R139) -/

def codeAxles (l : List Axle) : List (BitVec 4 × BitVec 16 × BitVec 4) :=
  (l.map fun x => (~~~ BitVec.ofNat 4 x.cls, ~~~ BitVec.ofNat 16 x.spc, ~~~ BitVec.ofNat 4 x.endIx)).reverse

def codeEp : Option Episode →
    Bool × List (BitVec 4 × BitVec 16 × BitVec 4) × List (BitVec 4 × BitVec 16 × BitVec 4) × Bool × Bool
  | none => (true, [], [], true, true)
  | some e => (false, codeAxles e.e, codeAxles e.x, !e.overflow, !e.unverified)

/-- The code of a section state (R130). -/
def secCode : SecState → Nat
  | .unconfigured => 0x00
  | .clear => 0x5A
  | .occupied => 0xA5
  | .disturbed => 0x3C
  | .sweepPending => 0xC3

/-- Manifest B's coding of a section record (R139). -/
def codeB (r : Sec) : SecB :=
  { state := ~~~ BitVec.ofNat 8 (secCode r.state), count := ~~~ BitVec.ofInt 16 r.count,
    gen := ~~~ BitVec.ofNat 16 r.gen, cause := ~~~ BitVec.ofNat 8 r.cause, prov := !r.prov, chg := ~~~ r.chg,
    dland := ~~~ r.dland, hintCode := ~~~ BitVec.ofNat 2 r.hintCode, ep := codeEp r.ep, hint := codeEp r.hint,
    wasClear := !r.wasClear, sweepAt := ~~~ r.sweepAt, sweepLive := !r.sweepLive, swIn := !r.swIn,
    swOut := !r.swOut }

def decodeAxles (l : List (BitVec 4 × BitVec 16 × BitVec 4)) : List Axle :=
  (l.map fun x => { cls := (~~~x.1).toNat, spc := (~~~x.2.1).toNat, endIx := (~~~x.2.2).toNat : Axle }).reverse

def decodeEp
    (x : Bool × List (BitVec 4 × BitVec 16 × BitVec 4) × List (BitVec 4 × BitVec 16 × BitVec 4) × Bool × Bool) :
    Option Episode :=
  if x.1 then none
  else some { e := decodeAxles x.2.1, x := decodeAxles x.2.2.1, overflow := !x.2.2.2.1, unverified := !x.2.2.2.2 }

/-- The state of a code; any other code reads as DISTURBED (R130). -/
def stateOfCode (c : Byte) : SecState :=
  if c = 0x00 then .unconfigured
  else if c = 0x5A then .clear
  else if c = 0xA5 then .occupied
  else if c = 0xC3 then .sweepPending
  else .disturbed

/-- A record of Manifest B decoded (R139, R140). -/
def decodeB (b : SecB) : Sec :=
  { state := stateOfCode (~~~b.state), count := -1 - b.count.toInt, gen := (~~~b.gen).toNat,
    cause := (~~~b.cause).toNat, prov := !b.prov, chg := ~~~b.chg, dland := ~~~b.dland,
    hintCode := (~~~b.hintCode).toNat, ep := decodeEp b.ep, hint := decodeEp b.hint, wasClear := !b.wasClear,
    sweepAt := ~~~b.sweepAt, sweepLive := !b.sweepLive, swIn := !b.swIn, swOut := !b.swOut }

/-- A section's pending records in A and in B (R138). -/
def secOf (n : Nat) (s : State) : Sec := tabGet .reset s.man.a n
def secBOf (n : Nat) (s : State) : SecB := tabGet (codeB .reset) s.man.b (511 - n)

/-- A section's committed records in A and in B (R138). -/
def comSec (n : Nat) (s : State) : Sec := tabGet .reset s.man.comA n
def comSecB (n : Nat) (s : State) : SecB := tabGet (codeB .reset) s.man.comB (511 - n)

/-- The committed record that is read: A's, or B's decoded once D04 is lost (R385). -/
def shownSec (n : Nat) (s : State) : Sec := if (domOf 4 s).state == .on then comSec n s else decodeB (comSecB n s)

/-- Write each manifest's record of a section, B at slot 511 - n (R139). -/
def setPair (n : Nat) (ra rb : Sec) (s : State) : State :=
  { s with man := { s.man with a := tabSet .reset s.man.a n ra,
                               b := tabSet (codeB .reset) s.man.b (511 - n) (codeB rb) } }

/-- Each manifest changes its own record of a section (R139). -/
def modSec (n : Nat) (f : Sec → Sec) (s : State) : State := setPair n (f (secOf n s)) (f (decodeB (secBOf n s))) s

/-- Manifest B decoded, section by section (R233). -/
def decodeTab (t : Tab SecB) : Tab Sec :=
  ((t.map fun p => (511 - p.1, decodeB p.2)).reverse).filter fun p => p.2 ≠ .reset

/-- A supervisor's own memories within a record of the supervisors (R233). -/
def memOf (u : SupSt) : SupMem :=
  { pend := u.pend, results := u.results, keys := u.keys, moves := u.moves, rot := u.rot, resJudged := u.resJudged
    params := u.params, pgen := u.pgen, paramLast := u.paramLast, forces := u.forces, cur := u.cur,
    curExp := u.curExp, lv := u.lv, lvExp := u.lvExp, lvLand := u.lvLand, lvOk := u.lvOk, holdMask := u.holdMask }

def withMem (m : SupMem) (u : SupSt) : SupSt :=
  { u with pend := m.pend, results := m.results, keys := m.keys, moves := m.moves, rot := m.rot, resJudged := m.resJudged
           params := m.params, pgen := m.pgen, paramLast := m.paramLast, forces := m.forces, cur := m.cur,
           curExp := m.curExp, lv := m.lv, lvExp := m.lvExp, lvLand := m.lvLand, lvOk := m.lvOk, holdMask := m.holdMask }

/-- The device as supervisor B sees it: its own memories, and Manifest B decoded in place of A (R233). -/
def viewB (s : State) : State :=
  { s with man := { s.man with a := decodeTab s.man.b, comA := decodeTab s.man.comB }, sup := withMem s.sup.b s.sup }

/-- Both supervisors act, each on its own memories and manifest: the state as A leaves it, with B's memories as B leaves
them (R233). -/
def bothSups (f : State → State) (s : State) : State :=
  { f s with sup := { (f s).sup with b := memOf (f (viewB s)).sup } }

/-- One change to the memories of both supervisors (R233). -/
def modSups (f : SupMem → SupMem) (s : State) : State :=
  { s with sup := { withMem (f (memOf s.sup)) s.sup with b := f s.sup.b } }

/-- Both manifests make their pending banks committed in one action (R137, R138). -/
def switchBanks (s : State) : State := { s with man := { s.man with comA := s.man.a, comB := s.man.b } }

/-! ### Sticky bits and reports (R356 to R359) -/

/-- Class codes of the fault registers (R356). -/
abbrev clsBell : Nat := 0x01
abbrev clsRing : Nat := 0x02
abbrev clsHead : Nat := 0x03
abbrev clsSec : Nat := 0x04
abbrev clsEng : Nat := 0x05
abbrev clsChk : Nat := 0x06
abbrev clsSg : Nat := 0x07
abbrev clsSafio : Nat := 0x08
abbrev clsHa : Nat := 0x09
abbrev clsHb : Nat := 0x0A
abbrev clsParam : Nat := 0x0B
abbrev clsDev : Nat := 0x0C
abbrev clsImg : Nat := 0x0D
abbrev clsDom : Nat := 0x0E
abbrev clsPmc : Nat := 0x0F
abbrev clsTherm : Nat := 0x10
abbrev clsFlt : Nat := 0x11

def clsHost : HostId → Nat
  | .ha => clsHa
  | .hb => clsHb

/-- A fault register: class and index. -/
def fltReg (cls ix : Nat) (s : State) : Word := tabGet 0 s.flt.bits (cls * 512 + ix)

def setFltReg (cls ix : Nat) (v : Word) (s : State) : State :=
  { s with flt := { s.flt with bits := tabSet 0 s.flt.bits (cls * 512 + ix) v } }

/-- Any bit of a class's registers is set. -/
def clsBits (cls : Nat) (s : State) : Bool := s.flt.bits.any (fun p => p.1 / 512 == cls && p.2 != 0)

/-- Any bit of a class is set (FLT_SUM, R372); the HOST_IRQST bits of a port, which belong to the record, count in its class
(R356; DEDUCED, log 122). -/
def clsSet (cls : Nat) (s : State) : Bool :=
  clsBits cls s || (cls == clsHa && s.ha.irqSt != 0) || (cls == clsHb && s.hb.irqSt != 0)

/-- FLT_SUM (R372). -/
def fltSum (s : State) : Word :=
  packWord ((List.range 17).map fun i => (i, b2n (clsSet (i + 1) s)))

/-- Clear bits of a fault register; FAULT_N stays asserted until the next landing tick (R357, R364). -/
def clearFlt (cls ix : Nat) (mask : Word) (s : State) : State :=
  { setFltReg cls ix (fltReg cls ix s &&& ~~~mask) s with
    flt := { (setFltReg cls ix (fltReg cls ix s &&& ~~~mask) s).flt with faultN := s.flt.faultN || fltSum s != 0 } }

/-- The bits of a register that have had an event since the bell last moved (R357, R390). -/
def freshReg (cls ix : Nat) (s : State) : Word := tabGet 0 s.flt.fresh (cls * 512 + ix)

/-- An event of a bit, on record until the bell moves on (R390). -/
def noteEvent (cls ix bit : Nat) (s : State) : State :=
  { s with flt := { s.flt with fresh := tabSet 0 s.flt.fresh (cls * 512 + ix) (freshReg cls ix s ||| (1#32 <<< bit)) } }

/-- A report sets out for AON, which stamps it with bell time and landing on its arrival within the tick (R359). -/
def sendReport (cls ix bit : Nat) (s : State) : State :=
  { s with flt := { s.flt with
      reports := s.flt.reports ++ [({ cls := cls, ix := ix, bit := bit }, s.bell.time, s.bell.landNo)] } }

/-- The report that wins among several with one stamp: lowest class, index, then bit. -/
def reportKey (r : Report) : Nat := (r.cls * 512 + r.ix) * 32 + r.bit

/-- A report arrives: the first is captured, one of the same stamp takes its place where it ranks ahead, and the others count
(R359, R360). -/
def takeReport (f : FltSt) (r : Report × Bell × Word) : FltSt :=
  match f.first with
  | none => { f with first := some r }
  | some q =>
    { f with first := some (if q.2 == r.2 && decide (reportKey r.1 < reportKey q.1) then r else q)
             later := satInc 0xFFFF f.later }

/-- Every report under way arrives. -/
def deliver (s : State) : State := { s with flt := { s.flt.reports.foldl takeReport s.flt with reports := [] } }

/-- The bell moves on: what was reported has arrived within the tick (R360), and no event belongs to the new one. -/
def settle (s : State) : State := { deliver s with flt := { (deliver s).flt with fresh := [] } }

/-! ### Domains in service -/

/-- The domain is in service. -/
def domOn (d : Nat) (s : State) : Bool := (domOf d s).state == .on

/-- The ENG domain of an engine (R11). -/
def engDom (e : Nat) : Nat := 14 + e / 32

/-- The domain of a host port (R18). -/
def hostDom : HostId → Nat
  | .ha => 8
  | .hb => 9

/-- The domain of a ring port (R11). -/
def portDom (p : Nat) : Nat := if p < 16 then 10 else 11

/-- The port answers its host: its link is up and its domain in service (R278, R385). -/
def hostUp (p : HostId) (s : State) : Bool := (hostOf p s).link && domOn (hostDom p) s

/-! ### Interrupt vectors (R300, R390) -/

/-- Send a vector: by MSI-X, where a masked one stays pending, or by MSI, whose messages are as many as the host has enabled
(R274, R300, R390; DESIGN CHOICE, log 123: the low bits of the vector pick among fewer than 8); none where neither is enabled. -/
def sendVector (v : Nat) (h : PortSt) : PortSt :=
  if h.pci.msixEn then
    if h.pci.msixMask || (tabGet 0 h.msix (4 * v + 3)).getLsbD 0 then { h with msixPend := h.msixPend ||| (1#8 <<< v) }
    else { h with sent := h.sent ++ [v] }
  else if h.pci.msiEn then { h with sent := h.sent ++ [v % 2 ^ h.pci.msiVecs.val] }
  else h

/-- A cause at one port: it sets its HOST_IRQST bit, which is reported where it was clear (R356), and raises its vector where
the link is active and HOST_IRQEN enables it. -/
def raiseAt (p : HostId) (v : Nat) (s : State) : State :=
  if domOn (hostDom p) s then
    let h := { hostOf p s with irqSt := (hostOf p s).irqSt ||| (1#8 <<< v) }
    let s1 := setHost p (if h.link && h.irqEn.getLsbD v then sendVector v h else h) (noteEvent (clsHost p) 1 v s)
    if (hostOf p s).irqSt.getLsbD v then s1 else sendReport (clsHost p) 0 v s1
  else s

def raiseBoth (v : Nat) (s : State) : State := raiseAt .hb v (raiseAt .ha v s)

/-- Set a sticky bit. Its 0 to 1 change is reported to AON (R359) and raises vector 3 (R300). -/
def sticky (cls ix bit : Nat) (s : State) : State :=
  if (fltReg cls ix s).getLsbD bit then noteEvent cls ix bit s
  else raiseBoth 3 (sendReport cls ix bit (setFltReg cls ix (fltReg cls ix s ||| (1#32 <<< bit)) (noteEvent cls ix bit s)))

def stickyIf (c : Bool) (cls ix bit : Nat) (s : State) : State := if c then sticky cls ix bit s else s

/-! ### Modes and engines -/

/-- Modes in which service runs (R315, R317). -/
def inService (s : State) : Bool := s.dev.mode != .boot

/-- Commits follow landing ticks outside BOOT and outside the safe state (R314, R362). -/
def commits (s : State) : Bool := inService s && !s.dev.safe

/-- The lead port (R279). -/
def isLead (p : HostId) (s : State) : Bool := s.dev.hasLead && s.dev.lead == p

/-- An in-service engine: it serves a head and is not out of service (R32). -/
def engServing (e : Nat) (s : State) : Bool :=
  (engOf e s).state == .service && !(engOf e s).slots.isEmpty

/-- The in-service engines, in rising order. -/
def servingEngs (s : State) : List Nat :=
  (s.engs.filter fun p => p.2.state == .service && !p.2.slots.isEmpty).map (·.1)

/-- The mode code (R317). -/
def modeCode : Mode → Nat
  | .boot => 1
  | .prove => 2
  | .commission => 3
  | .run => 4
  | .harbour => 5
  | .lockout => 6

/-- Take the next free value of the model. -/
def drawFree (s : State) : State := { s with free := s.free + 1 }

/-! ### The bell as committed (R49) -/

/-- Every tree in service finds BELLREF plausible (BELL_STAT.REF_OK, R43, R49). -/
def refOk (s : State) : Bool :=
  (s.bell.outA || s.bell.refA) && (s.bell.outB || s.bell.refB) && !(s.bell.outA && s.bell.outB)

/-- BELL_STAT as it stands now; REF_OK needs the 65 536 plausible edges of R43, so not while HOLD reads 1. -/
def bellStatNow (s : State) : Word :=
  packWord [(0, b2n s.bell.hold), (1, b2n !s.bell.outA), (2, b2n !s.bell.outB),
    (3, b2n (refOk s && (!s.bell.hold || s.bell.exitPending))), (4, b2n s.bell.ppsSeen),
    (5, b2n (s.bell.ssStart.isSome && !s.bell.ssExpired)), (6, b2n s.bell.ssExpired), (8, b2n s.bell.locked)]

/-! ### Stop groups: entering LOCKED (R251) -/

/-- Duration of SS1 in ms (SG_STOPT, R270), kept when SS1 ends. -/
def endSs1 (now : Bell) (g : Grp) : Grp :=
  if g.state == .ss1 then { g with stopSs1 := min 0xFFFF (elapsed now g.ss1At / 10000) } else g

/-- Every entry to LOCKED drives TRA, TRB and SRQ low in the same step (R251); contactors that stay pulled in are timed from
there (R256). The landing is kept for a reset that falls into it (R261). -/
def lockedGrp (now : Bell) (land : Word) (g : Grp) : Grp :=
  if g.state == .locked then { g with tra := false, trb := false, srq := false, rstOk := false, faultLand := some land }
  else { endSs1 now g with state := .locked, tra := false, trb := false, srq := false, since := now, faultLand := some land
                           winAt := none, riseLand := none, rstOk := false, stillAt := none
                           fbBad := if g.fba && g.fbb then none else some (g.fbBad.getD now) }

/-- Put a configured group in LOCKED, with the sticky bits of the cause (R251, R271). -/
def lockGroup (g : Nat) (bits : List Nat) (s : State) : State :=
  if (grpOf g s).state == .unused then s
  else
    let s := modGrp g (lockedGrp s.bell.time s.bell.landNo) s
    sticky clsSg g 13 (forEach bits (fun b => sticky clsSg g b) s)

/-- Every configured group in LOCKED. -/
def lockAll (bits : List Nat) (s : State) : State :=
  forEach (s.saf.groups.map (·.1)) (fun g => lockGroup g bits) s

/-! ### The device safe state (R361, R362) -/

/-- Reports that arrive a tick after now. -/
def lateReports (now : Bell) (s : State) : State :=
  { s with flt := { s.flt with reports := s.flt.reports.map fun r => if r.2.1 = now then (r.1, now + 1, r.2.2) else r } }

/-- Enter the safe state; the first cause stands. The capture is written first (R360, R362); SAFIO, which the safe line
reaches later, locks the groups, and its reports come in at least a tick behind (DESIGN CHOICE, log 121). -/
def enterSafe (cause : Nat) (s : State) : State :=
  if s.dev.safe then s
  else
    let s := { s with dev := { s.dev with safe := true, safeCause := cause },
                      flt := { s.flt with safeActive := true,
                                          safeCause := if s.flt.safeActive then s.flt.safeCause else cause,
                                          faultN := true } }
    let s := deliver (sticky clsFlt 0 0 s)
    let s := lateReports s.bell.time (lockAll [] s)
    forEach (s.ports.map (·.1)) (fun p s => setPort p { portOf p s with txen := false } s) s

/-- The S33 balls are powered: with VAON or VIO33 out they are high-impedance and take no level (R397, R402). -/
def s33On (s : State) : Bool := s.pins.vaon && s.pins.vio33

/-- SAFE_N asserted (R364). -/
def safeAsserted (s : State) : Bool :=
  !s.pins.vaon || !s.pins.resetN || s.pmc.step < 4 || s.dev.safe || s.flt.dmHold

/-- FAULT_N asserted, also until step 4 of R328 completes (R364, R398). -/
def faultAsserted (s : State) : Bool :=
  !s.pins.vaon || !s.pins.resetN || s.pmc.step < 4 || s.flt.faultN || s.dev.safe || fltSum s != 0

/-! ### Entering LOCKOUT (R319, R320) -/

/-- A mode change at a commit: DEV_MODELAND and vector 5 (R300, R324). -/
def setMode (m : Mode) (s : State) : State :=
  raiseBoth 5 { s with dev := { s.dev with mode := m, modeLand := s.bell.landNo } }

/-- LOCKOUT: PRIOR keeps the mode left and every group goes to LOCKED at once (R253, R320). -/
def enterLockout (s : State) : State :=
  match s.dev.mode with
  | .boot => s
  | .lockout => s
  | m =>
    let s := { s with dev := { s.dev with prior := some m } }
    lockAll [] (sticky clsDev 0 3 (setMode .lockout s))

end Sys2Proof.Machine
end

