-- ==== Sys2Proof/Machine/Bell.lean ====
section
/-! DEFINITION. The bell: reference, holdover, trees, BELLPPS, presets and its registers' side effects (02). -/

namespace Sys2Proof.Machine

/-- BELL is held in D02, in D03 once tree A is out (R385). -/
def bellDom (s : State) : Nat := if s.bell.outA then 3 else 2

/-- A port reaches a block held in a domain (R378, R385). -/
def canAccess (p : HostId) (d : Nat) (s : State) : Bool := hostUp p s && domOn d s

/-- Start the safe-stop timer where it does not run (R42). -/
def startSsTimer (s : State) : State :=
  match s.bell.ssStart with
  | some _ => s
  | none => { s with bell := { s.bell with ssStart := some s.bell.time } }

/-- Holdover in the sense of R42: the reference lost after it had once been plausible. -/
def inHoldover (s : State) : Bool := s.bell.hold && s.bell.lost

/-- The timer clears when neither holdover nor single-tree operation remains (R43). -/
def clearSsTimer (s : State) : State :=
  if inHoldover s || s.bell.outA || s.bell.outB then s
  else { s with bell := { s.bell with ssStart := none, ssExpired := false } }

/-- The input times that run in BOOT: disagreements of the feedback and guard inputs, a reset input that is high, and the latest
encoder edges. -/
def shiftGrp (δ : Bell) (g : Grp) : Grp :=
  { g with edgeA := g.edgeA.map (· + δ), edgeB := g.edgeB.map (· + δ), fbDisc := g.fbDisc.map (· + δ), gdDisc := g.gdDisc.map (· + δ), lrstAt := g.lrstAt.map (· + δ) }

/-- Move bell-time references with a preset, so that they keep counting ticks (R23, R27). -/
def shiftRefs (δ : Bell) (s : State) : State :=
  { s with
    saf := { s.saf with groups := tabMap .reset (fun _ g => shiftGrp δ g) s.saf.groups }
    bell := { s.bell with ppsMark := s.bell.ppsMark + δ, ssStart := s.bell.ssStart.map (· + δ),
                          trimAtA := s.bell.trimAtA + δ, trimAtB := s.bell.trimAtB + δ,
                          loadPpsAt := s.bell.loadPpsAt + δ },
    img := { s.img with at_ := s.img.at_ + δ },
    pmc := { s.pmc with trans := s.pmc.trans.map (· + δ),
                        doms := tabMap .reset (fun _ d => { d with
                          xonAt := d.xonAt.map (fun x => (x.1, x.2 + δ)), startAt := d.startAt + δ }) s.pmc.doms } }

/-- The preset takes effect: bell time takes its value in both trees, and the load that brought it is done (R27, R50). -/
def takePreset (pps : Bool) (s : State) : State :=
  let t : Bell := s.bell.presetHi ++ s.bell.presetLo
  let s := shiftRefs (t - s.bell.time) s
  { s with bell := { s.bell with time := t, timeB := ~~~t, load := s.bell.load && pps, loadPps := s.bell.loadPps && !pps } }

/-! ### Reference and trees -/

/-- One step of a tree's trim toward the reference, at most 0.01 percent a second (R25, R52).
DESIGN CHOICE: whether a measurement takes a step is a free value; log 12. -/
def trimOf (dev : Int) (trim : Nat) (at_ : Bell) (s : State) : Nat × Bell :=
  if Config.trimStep s.free && dev != 0 && 1000000 ≤ elapsed s.bell.time at_ then
    (if dev > 0 then min 0xFFFF (trim + 1) else trim - 1, s.bell.time)
  else (trim, at_)

def plausibleRef (dev : Int) (missing : Bool) : Bool := !missing && decide (dev.natAbs ≤ 1000)

def execRefMeasure (t : Side) (dev : Int) (missing : Bool) (s : State) : Out :=
  let ok := plausibleRef dev missing
  match t with
  | .a =>
    if s.bell.outA || !domOn 2 s then .next s
    else
      let tr := trimOf dev s.bell.trimA s.bell.trimAtA s
      let s1 := if ok then { s with bell := { s.bell with trimA := tr.1, trimAtA := tr.2, refA := true } }
        else stickyIf s.bell.everOk clsBell 0 0 { s with bell := { s.bell with refA := false } }
      .next (drawFree s1)
  | .b =>
    if s.bell.outB || !domOn 3 s then .next s
    else
      let tr := trimOf dev s.bell.trimB s.bell.trimAtB s
      let s1 := if ok then { s with bell := { s.bell with trimB := tr.1, trimAtB := tr.2, refB := true } }
        else stickyIf s.bell.everOk clsBell 0 0 { s with bell := { s.bell with refB := false } }
      .next (drawFree s1)

/-! ### The lines of the ring ports (R19, R58, R60, R64) -/

/-- A frame on the line, in quarters of a character: its bytes, SOF, EOF and the IDLE behind it. -/
def lineTime (f : List Byte) : Nat := 4 * (f.length + 4)

/-- A frame is put on the line, in code groups from the transmitter's running disparity on; an IDLE leaves that as it is
(R58). -/
def putOnLine (f : List Byte) (r : RPort) : RPort :=
  { r with
    txLeft := lineTime f, txRd := (frameGroups r.txRd f).2
    tx := (r.tx ++ [(frameGroups r.txRd f).1]).drop (r.tx.length + 1 - 16) }

/-- The line runs on by a number of quarters of a character, taking the next frame of the queue as soon as it is free. -/
def runLine : List (Nat × List Byte) → Nat → RPort → RPort
  | [], n, r => { r with txq := [], txLeft := r.txLeft - n }
  | f :: rest, n, r =>
    if n < r.txLeft then { r with txq := f :: rest, txLeft := r.txLeft - n }
    else runLine rest (n - r.txLeft) (putOnLine f.2 r)

/-- The lines run on by bell ticks, of 6.25 characters each at 625 Mbaud (R19, R58). -/
def runLines (n : Nat) (ports : Tab RPort) : Tab RPort := tabMap .reset (fun _ r => runLine r.txq (25 * n) r) ports

/-- Bell ticks that pass with no landing tick among them; BELL_WRAP counts a wrap (R23, R46). -/
def addTicks (n : Nat) (s0 : State) : State :=
  let s := if n = 0 then s0 else settle s0
  let t := s.bell.time.toNat + n
  { s with ports := runLines n s.ports
           bell := { s.bell with time := BitVec.ofNat 48 t, timeB := s.bell.timeB - BitVec.ofNat 48 n,
                                 phase := s.bell.phase + n,
                                 wrapBell := if t < 2 ^ 48 then s.bell.wrapBell else satInc 255 s.bell.wrapBell } }

/-- Entry into holdover after the reference had once been plausible (R40 to R42). The three ticks whose edges
were missing are added by Landing.lean, which knows whether a landing tick lies among them. -/
def enterHoldover (s : State) : State :=
  let s := { s with bell := { s.bell with refA := false, refB := false, exitPending := false } }
  if !s.bell.everOk then s
  else
    let s := if inHoldover s then s else { s with bell := { s.bell with hold := true, lost := true, holdLand := 0 } }
    startSsTimer (sticky clsBell 0 0 s)

/-- 65 536 consecutive plausible edges have been counted; the source changes at the next landing tick (R43). From the
first such edge on a loss is holdover, and a tree that is out runs the timer (R42). -/
def execHoldoverExit (s : State) : Out :=
  if s.bell.hold && !(s.bell.outA && s.bell.outB) then
    let s1 := { s with bell := { s.bell with refA := !s.bell.outA, refB := !s.bell.outB, exitPending := true, everOk := true } }
    .next (if s.bell.outA || s.bell.outB then startSsTimer s1 else s1)
  else .next s

/-- The change of source at the landing tick (R43). -/
def holdoverExitTick (s : State) : State :=
  if s.bell.exitPending then
    clearSsTimer { s with bell := { s.bell with hold := false, lost := false, exitPending := false } }
  else s

def execSafeStopTimerExpiry (s : State) : Out :=
  match s.bell.ssStart with
  | some t =>
    if !s.bell.ssExpired && decide (10000000 ≤ elapsed s.bell.time t) then
      .next (sticky clsBell 0 8 { s with bell := { s.bell with ssExpired := true } })
    else .next s
  | none => .next s

/-- The single-tree timer; it does not run before BELLREF has first been plausible (R38, R42). -/
def singleTree (s : State) : State := if s.bell.everOk then startSsTimer s else s

/-- A tree is taken out and the single-tree timer starts (R38, R42). -/
def treeOut (t : Side) (s : State) : State :=
  match t with
  | .a => if s.bell.outA then s
    else singleTree (sticky clsBell 0 2 { s with bell := { s.bell with outA := true } })
  | .b => if s.bell.outB then s
    else singleTree (sticky clsBell 0 3 { s with bell := { s.bell with outB := true } })

/-- The commit sequencer's decision (R38); a tree that is out already counts as at fault (DEDUCED, log 13). -/
def treeDecision (aFault bFault : Bool) (s : State) : State :=
  match aFault || s.bell.outA, bFault || s.bell.outB with
  | true, false => treeOut .a s
  | false, true => treeOut .b s
  | _, _ => enterSafe 0x04 s

def execTreeDisagreement (aFault bFault : Bool) (s : State) : Out :=
  .next (treeDecision aFault bFault (sticky clsBell 0 1 s))

/-- A unit accepts a landing tick: both copies within 60 ns, and bell times that agree, tree B's inverted; from one tree
alone once the other is out (R37, R39). -/
def tickAccepted (skew : Option Nat) (s : State) : Bool :=
  s.bell.outA || s.bell.outB || ((skew.any fun n => decide (n ≤ 60)) && s.bell.timeB == ~~~s.bell.time)

/-- A tree's own fault at a disagreement: its domain is out of service, or its receiver alone sees the reference lost (R38). -/
def ownFault (t : Side) (s : State) : Bool :=
  match t with
  | .a => !domOn 2 s || (s.bell.everOk && !s.bell.refA && s.bell.refB)
  | .b => !domOn 3 s || (s.bell.everOk && !s.bell.refB && s.bell.refA)

/-- A unit that does not accept the landing tick reports it, and the commit sequencer decides (R37, R38). -/
def treeCheck (skew : Option Nat) (s : State) : State :=
  if tickAccepted skew s then s
  else treeDecision (ownFault .a s) (ownFault .b s) (sticky clsBell 0 1 s)

/-! ### BELLPPS -/

/-- The capture of a BELLPPS edge (R26). DESIGN CHOICE, log 87: an edge with no reference, the first one and one whose
reference REFERENCE_EXPIRY has dropped, leaves INT as it was and sets no PPS_IMPL. -/
def stampPps (s : State) : State :=
  let d := elapsed s.bell.time s.bell.ppsMark
  let s1 := { s with bell := { s.bell with ppsTime := s.bell.time, ppsMark := s.bell.time,
                                           ppsCnt := s.bell.ppsCnt + 1, ppsRef := true, ppsSeen := true,
                                           ppsInt := if s.bell.ppsRef then min 0x0FFFFFFF d else s.bell.ppsInt } }
  stickyIf (s.bell.ppsRef && !(decide (9999000 ≤ d) && decide (d ≤ 10001000))) clsBell 0 6 s1

/-- A pending LOAD_PPS is due at this edge: in BOOT, and not within 2 ticks of the write (R27). -/
def ppsLoads (s : State) : Bool :=
  s.bell.loadPps && !s.bell.locked && decide (2 < elapsed s.bell.time s.bell.loadPpsAt)

def execPpsSeenExpiry (s : State) : Out :=
  if s.bell.ppsSeen && decide (20000000 ≤ elapsed s.bell.time s.bell.ppsMark) then
    .next { s with bell := { s.bell with ppsSeen := false } }
  else .next s

/-! ### Host accesses with an effect (R50, R51, R380) -/

def setLoad (s : State) : State := { s with bell := { s.bell with load := true } }

def setLoadPps (s : State) : State :=
  { s with bell := { s.bell with loadPps := true, loadPpsAt := s.bell.time } }

/-- BELL_CTL (R50). -/
def writeBellCtl (v : Word) (s : State) : State :=
  let s1 := if v.getLsbD 0 then setLoad s else s
  if v.getLsbD 1 then setLoadPps s1 else s1

/-- BELL_PERIOD takes 1 250 to 20 000; any other value is refused with CFG (R28, R50). -/
def writePeriod (v : Word) (s : State) : State :=
  let n := bitsNat v.toNat 0 15
  if 1250 ≤ n ∧ n ≤ 20000 then { s with bell := { s.bell with period := n } } else sticky clsBell 0 7 s

/-- A write to one of the lockable registers (R50). -/
def bellRwl (off : Nat) (v : Word) (s : State) : State :=
  match off with
  | 0x04 => writeBellCtl v s
  | 0x08 => writePeriod v s
  | 0x20 => { s with bell := { s.bell with presetLo := v } }
  | 0x24 => { s with bell := { s.bell with presetHi := v.setWidth 16 } }
  | 0x28 => { s with bell := { s.bell with landPreset := v } }
  | _ => s

/-- The lockable registers take writes until the Boot to Prove transition (R28, R378, R380). One that comes in at a tick whose
START has still to be judged waits for that: the lock wins over it. -/
def bellTake (off : Nat) (v : Word) (s : State) : State :=
  if s.bell.locked then s
  else if s.dev.startTick then { s with bell := { s.bell with waits := s.bell.waits ++ [(off, v)] } }
  else bellRwl off v s

/-- START is refused, nothing locks, and the writes that waited for it are taken (R380). -/
def takeWaits (s : State) : State :=
  forEach s.bell.waits (fun w => bellRwl w.1 w.2) { s with bell := { s.bell with waits := [] } }

def execBellLoad (p : HostId) (s : State) : Out := .next (if canAccess p (bellDom s) s then bellTake 0x04 1 s else s)

def execBellLoadPps (p : HostId) (s : State) : Out := .next (if canAccess p (bellDom s) s then bellTake 0x04 2 s else s)

def execBellPeriodWrite (p : HostId) (v : Word) (s : State) : Out :=
  .next (if canAccess p (bellDom s) s then bellTake 0x08 v s else s)

/-- A read of BELL_TIME_LO returns [31:0] and latches [47:32] for the port (R51, R383). -/
def readTimeLo (p : HostId) (s : State) : State :=
  modHost p (fun h => { h with readData := s.bell.time.setWidth 32,
                               timeHi := (s.bell.time >>> 32).setWidth 16 }) s

def execBellTimeLoRead (p : HostId) (s : State) : Out :=
  .next (if canAccess p (bellDom s) s then readTimeLo p s else
    if hostUp p s then modHost p (fun h => { h with readData := 0 }) s else s)

def readPpsLo (p : HostId) (s : State) : State :=
  modHost p (fun h => { h with readData := s.bell.ppsTime.setWidth 32,
                               ppsHi := (s.bell.ppsTime >>> 32).setWidth 16 }) s

def execBellPpsLoRead (p : HostId) (s : State) : Out :=
  .next (if canAccess p (bellDom s) s then readPpsLo p s else
    if hostUp p s then modHost p (fun h => { h with readData := 0 }) s else s)

end Sys2Proof.Machine
end

