-- ==== Sys2Proof/Machine/Shadow.lean ====
section
/-! DEFINITION. Around an engine's primary core: errors in its memories, the lanes of the comparator, the shadow core behind
its delay FIFO, and the signatures of a window (R163, R211 to R213, R217). -/

namespace Sys2Proof.Machine

def ctxOf (c : Ctx) (k : Core) : CtxSt :=
  match c with
  | .head => k.head
  | .ext => k.ext

def setCtx (c : Ctx) (x : CtxSt) (k : Core) : Core :=
  match c with
  | .head => { k with head := x }
  | .ext => { k with ext := x }

/-! ### Errors in stored words (R163) -/

/-- Words a to b of a memory. -/
def wordHit (m : MemId) (a b : Nat) (x : EccErr) : Bool := x.mem == m && decide (a ≤ x.word) && decide (x.word ≤ b)

/-- An uncorrectable error among the words read. -/
def doubles (hit : EccErr → Bool) (k : Core) : Bool := k.ecc.any fun x => hit x && x.double

/-- Corrected errors among the words read. -/
def singles (hit : EccErr → Bool) (k : Core) : Nat := (k.ecc.filter fun x => hit x && !x.double).length

/-- A read writes corrected words back. -/
def mend (hit : EccErr → Bool) (k : Core) : Core := { k with ecc := k.ecc.filter fun x => !hit x || x.double }

/-- A write of whole words leaves no error in them. -/
def overwrite (hit : EccErr → Bool) (k : Core) : Core := { k with ecc := k.ecc.filter fun x => !hit x }

/-- Corrected errors are counted once their access is resolved (R186). -/
def countCe (c : Ctx) (n : Nat) (k : Core) : Core :=
  match (ctxOf c k).spec with
  | some sp => setCtx c { ctxOf c k with spec := some { sp with ce := sp.ce + n } } k
  | none => { k with ceNew := k.ceNew + n }

/-- A read by a context of words without an uncorrectable error. -/
def readWords (c : Ctx) (hit : EccErr → Bool) (k : Core) : Core :=
  if k.ecc.any hit then countCe c (singles hit k) (mend hit k) else k

/-- A new error: a second one in a word makes it uncorrectable. -/
def addError (x : EccErr) (k : Core) : Core :=
  let at_ := fun y : EccErr => y.mem == x.mem && y.word == x.word
  if k.ecc.any at_ then { k with ecc := k.ecc.map fun y => if at_ y then { y with double := true } else y }
  else { k with ecc := k.ecc ++ [x] }

/-! ### Lanes and signatures (R212, R217) -/

/-- The lane that takes a word. -/
def wordLane (w : LaneWord) : Lane :=
  match w with
  | .rf _ _ _ => .rf
  | .vec _ _ _ => .rf
  | .mem _ _ _ => .mem
  | .disp _ _ _ _ _ _ _ _ _ _ => .disp
  | .token _ _ => .disp
  | .post _ _ => .post
  | .hrec _ _ => .post
  | .diag _ _ => .post

/-- Lanes RF, MEM, DISP, POST as 0 to 3. -/
def laneIx (l : Lane) : Nat :=
  match l with
  | .rf => 0
  | .mem => 1
  | .disp => 2
  | .post => 3

/-- One bit into a signature register with the polynomial x^32 + x^22 + x^2 + x + 1 (R217; its form is a DESIGN CHOICE, log
108). -/
def shiftSig (r : Word) (b : Bool) : Word := (r <<< 1) ^^^ (if r.msb != b then 0x00400007 else 0)

/-- The compare words of one step, each into the signature of its lane. -/
def feedSigs (l : List LaneWord) (sigs : List Word) : List Word :=
  l.foldl (fun t w => t.set (laneIx (wordLane w)) ((laneBits w).foldl shiftSig (t.getD (laneIx (wordLane w)) 0))) sigs

/-- What the instruction at work gives the lanes, register writes apart. -/
def emit (l : List LaneWord) (k : Core) : Core := { k with step := k.step ++ l }

/-- Everything the lanes take of a core since they last took something. -/
def laneStep (k : Core) : List LaneWord :=
  k.head.wrote.map (fun p => .rf .head p.1 p.2) ++ k.ext.wrote.map (fun p => .rf .ext p.1 p.2) ++ k.step

/-- A context whose writes the lanes have taken. -/
def taken (x : CtxSt) : CtxSt := { x with wrote := [], done := 0 }

/-- The lanes have taken it. -/
def clearStep (k : Core) : Core := { k with head := taken k.head, ext := taken k.ext, step := [], ceNew := 0 }

/-! ### The shadow core (R211, R213) -/

/-- The core as the shadow meets it: what both cores share as the primary reads it, and the shadow's own contexts as the cycles
under way leave them (R211). -/
def shadowView (k : Core) : Core :=
  match k.shadow.fifo.getLast? with
  | some c => { k with head := c.head, ext := c.ext }
  | none => { k with head := k.shadow.head, ext := k.shadow.ext }

/-- The handshake cycle of a move f of the core: the shadow makes it on its own contexts, with the values the primary reads
(R211; DEDUCED, log 109). -/
def cycleOf (f : Core → Core) (k : Core) : Cycle :=
  let p := f k
  let x := f (shadowView k)
  { words := laneStep p, own := laneStep x, head := taken x.head, ext := taken x.ext, n := p.head.done + p.ext.done }

/-- The words of one lane, in order. -/
def laneWords (l : Lane) (ws : List LaneWord) : List LaneWord := ws.filter fun w => wordLane w == l

/-- The first lane whose words differ (R213). -/
def mismatched (c : Cycle) : Option Lane :=
  [Lane.rf, .mem, .disp, .post].find? fun l => laneWords l c.words != laneWords l c.own

/-- A word that the shadow's has matched: what leaves the core by the POST lane now leaves (R213). -/
def leave (k : Core) (w : LaneWord) : Core :=
  match w with
  | .rf _ _ _ => k
  | .vec _ _ _ => k
  | .mem _ _ _ => k
  | .disp _ _ _ _ _ _ _ _ _ _ => k
  | .token _ _ => k
  | .post kind l => { k with posts := k.posts ++ [(kind, l)] }
  | .hrec l p => { k with hrec := some (l, p) }
  | .diag a b => { k with diag0 := a, diag1 := b }

/-- The lane in which the window logic forces its n-th difference, each lane 32 times (R217; their order DESIGN CHOICE, log
110). -/
def forcedLane (n : Nat) : Lane :=
  match n / 32 with
  | 0 => .rf
  | 1 => .mem
  | 2 => .disp
  | _ => .post

/-- At a fixed point the window logic inverts one bit of the first compare word of a lane on the shadow's side, and the
comparator reports it on that lane; the signatures take the words as the cores formed them (R217). -/
def forceOne (own : List LaneWord) (w : WinSt) : WinSt :=
  if w.points < 128 && decide (Config.forcePoint w.points ≤ w.count) && !(laneWords (forcedLane w.points) own).isEmpty then
    { w with points := w.points + 1, forced := w.forced + 1 }
  else w

/-- The shadow makes the oldest cycle of the FIFO, and the comparator takes both words of each lane. -/
def shadowStep (g : Eng) : Eng :=
  match g.core.shadow.fifo with
  | [] => g
  | c :: rest =>
    let x := g.core.shadow
    let d := x.differ.orElse fun _ => mismatched c
    let k := { g.core with shadow := { x with head := c.head, ext := c.ext, fifo := rest, differ := d } }
    { g with
      core := if d.isNone then c.words.foldl leave k else k
      win := if g.winStart.isSome then forceOne c.own { g.win with sigS := feedSigs c.own g.win.sigS } else g.win }

def shadowSteps : Nat → Eng → Eng
  | 0, g => g
  | n + 1, g => shadowSteps n (shadowStep g)

/-- The shadow reaches the primary, and every lane is empty, unless the shadow is stuck. -/
def catchUp (g : Eng) : Eng := if g.core.shadow.stuck.isNone then shadowSteps g.core.shadow.fifo.length g else g

/-- The primary makes a move: the lanes take its words, a window counts and signs them, and the shadow follows two handshake
cycles behind (R211). -/
def sealEng (f : Core → Core) (g : Eng) : Eng :=
  let k := f g.core
  let c := cycleOf f g.core
  let x := { g.core.shadow with fifo := g.core.shadow.fifo ++ [c] }
  let g1 := { g with
    core := { clearStep k with shadow := x }
    ce := min 0xFFFF (g.ce + k.ceNew)
    win := if g.winStart.isSome then { g.win with count := g.win.count + c.n, sigP := feedSigs c.words g.win.sigP } else g.win }
  if 2 < x.fifo.length && x.stuck.isNone then shadowStep g1 else g1

/-- The lane entry that a stuck shadow leaves unmatched is still so when the primary has retired 16 further instructions
(R213). -/
def lagging (x : Shadow) : Option Lane :=
  x.stuck.filter fun l =>
    let l1 := x.fifo.dropWhile fun c => (laneWords l c.words).isEmpty
    decide (16 ≤ (l1.drop 1).foldl (fun n c => n + c.n) 0)

/-- Posts in flight: at the event port, and still waiting for the shadow (R172, R213). -/
def postsInUse (k : Core) : Nat :=
  k.posts.length + (((k.shadow.fifo.flatMap (·.words)) ++ k.step).filter fun w => match w with
    | .post _ _ => true
    | _ => false).length

end Sys2Proof.Machine
end

