-- ==== Sys2Proof/Machine/Stream.lean ====
section
/-! DEFINITION. Stream entries and the engines' stream buffers as the merge units write them (R75, R77, R179, R180). -/

namespace Sys2Proof.Machine

/-- Fault codes of a context (R187). -/
abbrev fIllegal : Nat := 0x01
abbrev fIfetch : Nat := 0x02
abbrev fAlign : Nat := 0x03
abbrev fAccess : Nat := 0x04
abbrev fEccDed : Nat := 0x05
abbrev fPriv : Nat := 0x06
abbrev fTrap : Nat := 0x07
abbrev fHalt : Nat := 0x08
abbrev fStream : Nat := 0x09
abbrev fOverflow : Nat := 0x0A
abbrev fEvent : Nat := 0x0B
abbrev fVexc : Nat := 0x0C
abbrev fPreempt : Nat := 0x0D

/-- Word 1 of an entry: bell time [47:32], head, SYSOK, KIND, DIR, RELAY (R75). -/
def entryW1 (t : Bell) (head : Nat) (sysok kind : Nat) (dir relay : Bool) : Word :=
  packWord [(0, t.toNat / 2 ^ 32), (16, head), (25, sysok), (27, kind), (30, b2n dir), (31, b2n relay)]

def iqWord (x : Int × Int) : Word := BitVec.ofInt 16 x.2 ++ BitVec.ofInt 16 x.1

/-- A sample entry for a head (R75). -/
def sampleEntry (head chan : Nat) (x : Inst) : Entry :=
  { w0 := x.at_.setWidth 32
    w1 := entryW1 x.at_ head (bitsNat x.sysok.toNat (2 * chan) 2) 0 x.dir x.relay
    w2 := iqWord (x.iq.getD (2 * chan) (0, 0))
    w3 := iqWord (x.iq.getD (2 * chan + 1) (0, 0)) }

/-- A bubble token (R75, R76). -/
def bubbleEntry (head : Nat) (b : Bubble) (contOut : Bool) : Entry :=
  { w0 := b.first.setWidth 32
    w1 := entryW1 b.first head 0 1 false false
    w2 := packWord [(0, b.count), (16, b.cause)]
    w3 := packWord [(0, b2n b.contIn), (1, b2n contOut)] }

/-- The end-of-frame mark of a head (R31, R75). -/
def markEntry (head : Nat) (t : Bell) : Entry :=
  { w0 := t.setWidth 32, w1 := entryW1 t head 0 2 false false, w2 := 0, w3 := 0 }

/-- KIND of an entry (R75). -/
def entryKind (x : Entry) : Nat := bitsNat x.w1.toNat 27 3

/-- Bell time of an entry. -/
def entryTime (x : Entry) : Bell := BitVec.ofNat 48 (x.w0.toNat + 2 ^ 32 * bitsNat x.w1.toNat 0 16)

/-- Entries a slot's queue holds: floor(128 / heads served) (R179). -/
def queueCap (e : Eng) : Nat := 128 / max 1 e.slots.length

def queueOf (slot : Nat) (c : Core) : List Entry := tabGet [] c.queues slot

def replayOf (slot : Nat) (c : Core) : List Entry := tabGet [] c.replay slot

/-- Stream words of a slot, from one place in its queue to another (R163). -/
def streamHit (slot first last : Nat) : EccErr → Bool := wordHit .stream (512 * slot + first) (512 * slot + last)

/-- Append an entry to a slot's queue. -/
def enqueue (slot : Nat) (x : Entry) (c : Core) : Core :=
  let n := 4 * (queueOf slot c).length
  overwrite (streamHit slot n (n + 3)) { c with queues := tabSet [] c.queues slot (queueOf slot c ++ [x]) }

/-- The front entry of a slot's queue is taken: what is left, and the errors in it, move up. -/
def dequeue (slot : Nat) (rest : List Entry) (c : Core) : Core :=
  let k := overwrite (streamHit slot 0 3) c
  { k with
    queues := tabSet [] k.queues slot rest
    ecc := k.ecc.map fun x => if streamHit slot 4 511 x then { x with word := x.word - 4 } else x }

/-- Entries still to be replayed enter the queue as its space allows (R222). -/
def refill (cap slot : Nat) (c : Core) : Core :=
  let n := cap - (queueOf slot c).length
  ((replayOf slot c).take n).foldl (fun c x => enqueue slot x c)
    { c with replay := tabSet [] c.replay slot ((replayOf slot c).drop n) }

/-- Kill tokens to the operations that satisfy p: a queued or computed one is removed and its tag returns, a running
one runs on into the shadow bank (R204). -/
def killOps (p : CopOp → Bool) (ops : List CopOp) : List CopOp :=
  ops.filterMap fun o =>
    if p o then (match o.stage with
      | .running => some { o with killed := true }
      | .queued => none
      | .computed => none)
    else some o

/-- A computed operation among those killed has failed its check (R205). -/
def killsFailed (p : CopOp → Bool) (ops : List CopOp) : Bool :=
  ops.any fun o => p o && o.stage == .computed && o.exc.getLsbD 6

/-- The kill tokens go out to the operations that satisfy p, as words of the DISP lane (R202, R212). -/
def killTokens (p : CopOp → Bool) (k : Core) : Core :=
  emit ((k.cops.filter fun o => p o && !o.killed).map fun o => .token o.tag false) { k with cops := killOps p k.cops }

/-- The core of an engine halted by a fault of its head context: every operation of both contexts is killed, with what the
extension context holds past a branch, nothing further is written, and no WLAND of the frame is accepted (R180, R187,
R207). -/
def haltHead (code : Nat) (k0 : Core) : Core :=
  let k := killTokens (fun _ => true) k0
  { k with dead := some (k.dead.getD code)
           pulls := []
           shared := []
           head := { k.head with halted := some (k.head.halted.getD code), spec := none, block := .none }
           ext := { k.ext with spec := none, block := .none } }

/-- Both cores halt at once: the shadow stands where the primary does, and no lane holds anything (R214). -/
def haltBoth (k0 : Core) : Core :=
  let k := clearStep (haltHead 0 k0)
  { k with xEnded := true, posts := []
           shadow := { head := k.head, ext := k.ext, fifo := [], stuck := none, differ := none } }

/-- The merge unit writes an entry to a slot of an engine, behind what waits there to be replayed (R222). -/
def pushCore (cap slot : Nat) (x : Entry) (c : Core) : Core :=
  if !(replayOf slot c).isEmpty then
    refill cap slot { c with replay := tabSet [] c.replay slot (replayOf slot c ++ [x]) }
  else enqueue slot x c

/-- A head context that yields proceeds when an entry arrives (R184). -/
def awake (x : CtxSt) : CtxSt := if x.block == .yield_ then { x with block := .none } else x

/-- It proceeds in both cores: in the shadow once it has got there. -/
def wakeYield (k : Core) : Core :=
  let x := k.shadow
  { k with
    head := awake k.head
    shadow := match x.fifo.getLast? with
      | some c => { x with fifo := x.fifo.dropLast ++ [{ c with head := awake c.head }] }
      | none => { x with head := awake x.head } }

/-- Record a fault code of a context in ENG_ERR and ENG_FLT; a window remembers an ECC_DED (R187, R218, R240, R241). -/
def recordCode (e : Nat) (headCtx : Bool) (code : Nat) (s : State) : State :=
  let ded := code == fEccDed
  stickyIf ded clsEng e 10 (sticky clsEng e (if headCtx then 11 else 12) (modEng e (fun g => { g with
    errCode := code, win := if ded && g.winStart.isSome then { g.win with ded := true } else g.win }) s))

/-- ENG_FLT bits of a coprocessor check failure on a killed operation (R205, R241). -/
def noteFailed (failed : Bool) (e : Nat) (s : State) : State :=
  stickyIf failed clsEng e 6 (stickyIf failed clsEng e 0 s)

/-! ### Removal for cause (R205, R213 to R215) -/

/-- ENG_FLT bit of a lane (R241). -/
def laneBit (l : Lane) : Nat := laneIx l + 1

/-- An engine in service is removed for cause: both cores halt, no write follows, it leaves service and STRIKE counts (R214);
an operation that has failed its check is killed with the others (R205). One that is late, or that a fault of its head context
has halted, stays so (R215). -/
def removeEngine (e : Nat) (cause : Nat) (bits : List Nat) (s : State) : State :=
  let g := engOf e s
  if g.state != .service || s.frame.late.contains e || g.core.dead.isSome then s
  else
    let s := setEng e { g with state := .out, strike := satInc 3 g.strike, errCause := cause, core := haltBoth g.core } s
    let s := { s with frame := { s.frame with removed := s.frame.removed ++ [(e, cause)] } }
    forEach bits (fun b => sticky clsEng e b) (noteFailed (killsFailed (fun _ => true) g.core.cops) e s)

/-- A window meets a mismatch that it did not force (R218). -/
def noteUnforced (e : Nat) (s : State) : State :=
  modEng e (fun g => if g.state == .proving && g.winStart.isSome then { g with win := { g.win with unforced := true } } else g) s

/-- A check failure on a killed operation is recorded, and the engine leaves service as for a mismatch (R205, R215). -/
def failCheck (failed : Bool) (e : Nat) (s : State) : State :=
  if failed then removeEngine e 0x03 [] (noteUnforced e (noteFailed true e s)) else s

/-- What the comparator finds: two words of a lane that differ, or a lane that lags (R213, R214). -/
def laneCheck (e : Nat) (s : State) : State :=
  let x := (engOf e s).core.shadow
  match x.differ with
  | some l => removeEngine e 0x01 [0, laneBit l] (noteUnforced e s)
  | none => match lagging x with
    | some l => removeEngine e 0x02 [0, 5, laneBit l] (noteUnforced e s)
    | none => s

/-- An engine's cores make a move (R211, R240, R241). -/
def setCore (e : Nat) (f : Core → Core) (s : State) : State :=
  let s1 := stickyIf (decide (0 < (f (engOf e s).core).ceNew)) clsEng e 9 (modEng e (sealEng f) s)
  laneCheck e s1

/-- The shadow reaches the primary. -/
def catchUpAt (e : Nat) (s : State) : State := laneCheck e (modEng e catchUp s)

/-- The merge unit writes an entry to the stream buffer of the engine that serves a head, or of the READY engine
that takes it over at the coming release; a full queue ends the engine's work on the frame (R70, R180, R221, R226). -/
def writeEntry (e slot : Nat) (x : Entry) (s : State) : State :=
  let g := engOf e s
  if g.state == .service || g.state == .ready then
    if (replayOf slot g.core).isEmpty && decide (queueCap g ≤ (queueOf slot g.core).length) then
      (if g.core.head.halted.isSome then s
        else noteFailed (killsFailed (fun _ => true) g.core.cops) e (recordCode e true fOverflow (setCore e (haltHead fOverflow) s)))
    else modEng e (fun g => { g with core := wakeYield (pushCore (queueCap g) slot x g.core) }) s
  else s

/-- Write an entry of a head along its route, and keep it for a replay (R222). -/
def headEntry (h : Nat) (x : Entry) (s : State) : State :=
  let s := setHead h { headOf h s with keptOpen := (headOf h s).keptOpen ++ [x] } s
  match (headOf h s).route with
  | some (e, slot) => writeEntry e slot x s
  | none => s

end Sys2Proof.Machine
end

