-- ==== Sys2Proof/Machine/Ring.lean ====
section
/-! DEFINITION. Rings: frames, the two-direction merge, bubbles, links, discovery (03). -/

namespace Sys2Proof.Machine

/-! ### Ports and rings -/

/-- Ring of a port: a paired ring uses P(k), a single-device ring P(k) and P(k+16) (R54). -/
def portRing (p : Nat) (s : State) : Option Nat :=
  if (ringCfg p s).mode != 0 then some p
  else if 16 ≤ p ∧ (ringCfg (p - 16) s).mode == 1 then some (p - 16)
  else none

/-- Ports of a ring (R54). -/
def ringPorts (k : Nat) (s : State) : List Nat :=
  match (ringCfg k s).mode with
  | 1 => [k, k + 16]
  | 2 => [k]
  | _ => []

/-- A port drives and receives once its ring is in use outside BOOT (R55, R398). -/
def portInUse (p : Nat) (s : State) : Bool :=
  inService s && (portRing p s).isSome && domOn (portDom p) s && s.pins.vlnk && !s.dev.safe

def modPort (p : Nat) (f : RPort → RPort) (s : State) : State := setPort p (f (portOf p s)) s
def modRing (k : Nat) (f : Ring → Ring) (s : State) : State := setRing k (f (ringOf k s)) s
def modGn8 (i : Nat) (f : Gn8 → Gn8) (s : State) : State := setGn8 i (f (gn8Of i s)) s

/-! ### Frames (R60 to R63) -/

abbrev tSample : Nat := 1
abbrev tMarker : Nat := 2
abbrev tCommand : Nat := 3
abbrev tStatus : Nat := 4

/-- Frame bytes of a type, header and CRC included (R61). -/
def frameLen (ty : Nat) : Nat :=
  match ty with
  | 1 => 78
  | 2 => 16
  | 3 => 18
  | 4 => 24
  | _ => 0

def frameType (f : List Byte) : Nat := fieldLE f 0 1 / 16

def frameByte (f : List Byte) (i : Nat) : Nat := fieldLE f i 1

/-- Whether the frame's CRC is right (R60). -/
def frameCrcOk (f : List Byte) : Bool :=
  (crc32c (f.take (f.length - 4))).toNat == fieldLE f (f.length - 4) 4

/-- DIR of a frame this device sends from a port (R61). -/
def txDir (p : Nat) (s : State) : Nat :=
  match portRing p s with
  | some k => if (ringCfg k s).mode == 1 ∧ p != k then 0 else 1
  | none => 0

/-- Precedence of a frame type of this device: MARKER, then forwarded frames, then its own others (R64). DESIGN CHOICE, log 118:
its COMMAND frames, which R64 does not list, stand with its STATUS. -/
def txClass (ty : Nat) : Nat := if ty = tMarker then 0 else 2

/-- A frame joins the queue of a port behind those of its precedence and above, and takes the line at once when that is
free. DESIGN CHOICE, log 90: an entry of the FIFO is a frame, and one beyond the 16th is not sent. -/
def queueFrame (cls : Nat) (f : List Byte) (r : RPort) : RPort :=
  let q := ((r.txq.filter fun x => decide (x.1 ≤ cls)) ++ [(cls, f)] ++ r.txq.filter fun x => decide (cls < x.1)).take 16
  runLine q 0 r

/-- Send a frame of this device: header with HOP 0 and SRC 7, payload, CRC (R60, R61). -/
def sendFrame (p ty : Nat) (payload : List Byte) (s : State) : State :=
  let r := portOf p s
  if r.link == .up && r.txen then
    let dev := match portRing p s with
      | some k => if (ringCfg k s).mode == 2 then b2n (ringCfg k s).pdev else 0
      | none => 0
    let body := leBytes 1 (ty * 16 + txDir p s * 4) ++ leBytes 1 (dev * 8 + 7) ++ leBytes 2 r.seq.toNat ++ payload
    let f := body ++ leBytes 4 (crc32c body).toNat
    setPort p { queueFrame (txClass ty) f r with seq := r.seq + 1 } s
  else s

/-- Relay a received frame unchanged but for RELAY and its CRC (R56), ahead of the device's own frames (R64). DESIGN CHOICE,
log 91: DIR stays as received. -/
def relayFrame (p : Nat) (f : List Byte) (s : State) : State :=
  let r := portOf p s
  if r.link == .up && r.txen then
    let body := leBytes 1 (frameByte f 0 ||| 8) ++ (f.take (f.length - 4)).drop 1
    setPort p (queueFrame 1 (body ++ leBytes 4 (crc32c body).toNat) r) s
  else s

/-- Send a command and keep it until its reply (R63); digest marks a read of a set-up digest (R69). -/
def sendCommandAs (digest : Bool) (k p target op addr : Nat) (data : Word) (s : State) : State :=
  let r := ringOf k s
  let s := setRing k { r with tag := (r.tag + 1) % 65536,
                              cmds := r.cmds ++ [{ target := target, op := op, tag := r.tag, addr := addr,
                                                   data := data, port := p, sentAt := s.bell.time,
                                                   retried := false, answered := false, digest := digest }] } s
  sendFrame p tCommand (leBytes 1 target ++ leBytes 1 op ++ leBytes 2 r.tag ++ leBytes 2 addr ++
    leBytes 4 data.toNat) s

/-- Send a command that is no read of a digest. -/
def sendCommand (k p target op addr : Nat) (data : Word) (s : State) : State :=
  sendCommandAs false k p target op addr data s

/-- 4 code violations within any 256 characters (R59): the characters between the last four sum to less than 256. -/
def violationsLimit (gaps : List Nat) : Bool :=
  3 ≤ gaps.length && ((gaps.take 3).foldl (· + ·) 0) < 256

/-- A port of a ring in use whose leaving UP sets LINK_DOWN, in PROVE, COMMISSION, RUN or HARBOUR, whatever took the link
down (R59, R80, R402). -/
def linkShows (p : Nat) (s : State) : Bool := inService s && s.dev.mode != .lockout && (portRing p s).isSome

/-- A link leaves UP or ALIGN: a partly received frame is dropped, and LINK_DOWN sets where a port in use left
UP in service (R59, R80). -/
def linkDownAt (p : Nat) (los : Bool) (s : State) : State :=
  let r := portOf p s
  let s1 := setPort p { r with link := .down, los := los, gaps := [], rxRd := none } s
  stickyIf (r.link == .up && linkShows p s) clsRing 0 2 s1

/-- Count a code violation, n characters after the one before; the first since alignment has none before it (R59, R79). -/
def codeViolationAt (p n : Nat) (s : State) : State :=
  let s := modPort p (fun r => { r with cv := satInc 0xFFFF r.cv
                                        gaps := ((if r.gaps.isEmpty then 256 else n) :: r.gaps).take 3 }) s
  let s := sticky clsRing 0 1 s
  if violationsLimit (portOf p s).gaps then linkDownAt p (portOf p s).los s else s

def execCodeViolation (p : PortIx) (chars : Nat) (s : State) : Out :=
  .next (if portInUse p s && (portOf p s).link != .down then codeViolationAt p chars s else s)

/-! ### The merge (R70 to R77) -/

/-- Grid of a GN8's instants (R65, R77). -/
def gridOf (g : Gn8) : Nat := if g.decim then 800 else 100

/-- The grid an instant of a GN8 lies on: the other one ahead of the latest change (R77, R109). -/
def gridFor (g : Gn8) (t : Bell) : Nat :=
  if g.gridAt.any fun c => laterMod 48 c t then 900 - gridOf g else gridOf g

/-- The first multiple of a grid after a bell time; past the wrap the multiples start at 0 again (R23, R70). -/
def nextMultiple (grid : Nat) (t : Bell) : Bell :=
  let n := (t.toNat / grid + 1) * grid
  if n < 2 ^ 48 then BitVec.ofNat 48 n else 0

/-- The grid a copy must lie on: past a change that has still to come, the new one (R77). -/
def gridAhead (g : Gn8) (t : Bell) : Nat :=
  match g.change with
  | some (d, c) => if laterMod 48 t c then (if d then 800 else 100) else gridFor g t
  | none => gridFor g t

/-- The multiple of a grid nearest to a bell time, the earlier of two as near. -/
def nearestOn (grid : Nat) (t : Bell) : Bell :=
  let r := t.toNat % grid
  if 2 * r ≤ grid then t - BitVec.ofNat 48 r else nextMultiple grid t

/-- The n-th instant behind one of a GN8, across a change of grid (R77). -/
def instantAfter (g : Gn8) (t : Bell) (n : Nat) : Bell :=
  let k := match g.gridAt with
    | some c => if laterMod 48 c t then ceilDiv (elapsed c t) (gridFor g t) else 0
    | none => 0
  if n < k then t + BitVec.ofNat 48 (n * gridFor g t)
  else if k = 0 then t + BitVec.ofNat 48 (n * gridOf g)
  else g.gridAt.getD t + BitVec.ofNat 48 ((n - k) * gridOf g)

/-- The configured heads of a GN8, with their channels. -/
def gn8Heads (i : Nat) (s : State) : List (Nat × Nat) :=
  (s.img.cfg.heads.filter fun h => h.2.ring == i / 4 && h.2.slot == i % 4).map fun h => (h.1, h.2.chan)

/-- Write the open bubble of a head as a token (R77). -/
def flushBubble (contOut : Bool) (h : Nat) (s : State) : State :=
  match (headOf h s).bubble with
  | none => s
  | some b =>
    let s := headEntry h (bubbleEntry h b contOut) s
    let s := setHead h { headOf h s with bubble := none, cont := contOut } s
    let k := (headCfg h s).ring
    sticky clsRing 0 4 (modRing k (fun r => { r with bubCnt := satInc 0xFFFF r.bubCnt }) s)

/-- A sample of an instant for one head, behind any open bubble (R77). -/
def writeSample (x : Inst) (hc : Nat × Nat) (s : State) : State :=
  let s := flushBubble false hc.1 s
  headEntry hc.1 (sampleEntry hc.1 hc.2 x) (setHead hc.1 { headOf hc.1 s with cont := false } s)

/-- One more missing instant of a head; a COUNT of 65 535 writes the token (R77).
A new bubble carries CONT_IN where its first instant lies before the frame or it continues one (R76). -/
def missOne (t : Bell) (cause : Nat) (h : Nat) (s : State) : State :=
  let hd := headOf h s
  let b : Bubble := match hd.bubble with
    | some b => { b with count := b.count + 1, cause := max b.cause cause }
    | none => { first := t, count := 1, cause := cause, contIn := laterMod 48 s.bell.tickTime t || hd.cont }
  let s := setHead h { hd with bubble := some b } s
  if 65535 ≤ b.count then flushBubble false h s else s

/-- A frame that came at u could be a copy of the instant t: none comes ahead of it or past its deadline (R70). DESIGN CHOICE,
log 119: a frame that shows no usable stamp counts for every instant it could be a copy of. -/
def covers (t u : Bell) : Bool := !laterMod 48 t u && decide (elapsed u t ≤ 660)

/-- Why an instant is missing: UNSYNC only where no copy was discarded (R76). -/
def missCause (i : Nat) (t : Bell) (s : State) : Nat :=
  let k := i / 4
  let g := gn8Of i s
  let ringDown := (ringOf k s).state == .failed ||
    ((ringPorts k s).all fun p => !domOn (portDom p) s)
  if ringDown then 5
  else if g.out then 4
  else if g.lastDiscard.any (covers t) then 2
  else if g.lastUnsync.any (covers t) then 3
  else 1

/-- Runs of instants by direction, after an instant's deadline (R73). -/
def judgeRun (l h : Bool) (g : Gn8) : Gn8 :=
  match l, h with
  | true, true => { g with both := satInc 0xFFFF g.both, onlyL := 0, onlyH := 0 }
  | true, false => { g with onlyL := satInc 0xFFFF g.onlyL, onlyH := 0, both := 0 }
  | false, true => { g with onlyH := satInc 0xFFFF g.onlyH, onlyL := 0, both := 0 }
  | false, false => { g with both := 0, onlyL := 0, onlyH := 0 }

/-- The deadline of an instant has passed: its time plus 660 ticks (R70). -/
def pastDeadline (t now : Bell) : Bool := !laterMod 48 t now && decide (660 ≤ elapsed now t)

/-- The grid of a GN8 changes at the first multiple of 800 ticks after the landing tick (R77). -/
def changeGrid (t : Bell) (g : Gn8) : Gn8 :=
  match g.change with
  | some (d, at_) => if t = at_ then { g with decim := d, change := none, gridAt := some t } else g
  | none => g

/-- Move past an expected instant. -/
def stepNext (t : Bell) (g : Gn8) : Gn8 :=
  let g := changeGrid t g
  { g with next := some (nextMultiple (gridOf g) t) }

/-- Instants are expected of a GN8 from the first one after now (R70). -/
def expectFrom (now : Bell) (g : Gn8) : Gn8 :=
  match g.next with
  | some _ => g
  | none => { g with start := some (nextMultiple (gridOf g) now), next := some (nextMultiple (gridOf g) now) }

/-- Write the expected instant from a held copy (R70, R71). -/
def writeInstant (i : Nat) (x : Recent) (s : State) : State :=
  let s := modGn8 i (fun g => { stepNext x.inst.at_ g with
    sysok := x.inst.sysok
    recent := (x :: g.recent).take 32 }) s
  forEach (gn8Heads i s) (writeSample x.inst) s

/-- Judge the direction runs of instants whose deadline has passed, oldest first (R73). -/
def judgeRecent (i : Nat) (s : State) : State :=
  let now := s.bell.time
  modGn8 i (fun g =>
    let due := (g.recent.filter fun x => !x.judged && pastDeadline x.inst.at_ now).reverse
    let g1 := due.foldl (fun g x => judgeRun x.l x.h g) g
    { g1 with recent := g.recent.map fun x =>
        if pastDeadline x.inst.at_ now then { x with judged := true } else x }) s

/-- Declare the expected instant missing (R70). -/
def missInstant (i : Nat) (t : Bell) (s : State) : State :=
  let c := missCause i t s
  let s := judgeRecent i s
  let s := modGn8 i (fun g => judgeRun false false (stepNext t g)) s
  forEach (gn8Heads i s) (fun h => missOne t c h.1) s

/-- Write held copies in stamp order and declare missing what its deadline has passed (R70, R71). -/
def advanceMerge (i : Nat) : Nat → State → State
  | 0, s => s
  | n + 1, s =>
    match (gn8Of i s).next with
    | none => s
    | some t =>
      match (gn8Of i s).held with
      | x :: rest =>
        if x.inst.at_ = t then
          advanceMerge i n (writeInstant i x (modGn8 i (fun g => { g with held := rest }) s))
        else if pastDeadline t s.bell.time then advanceMerge i n (missInstant i t s)
        else s
      | [] => if pastDeadline t s.bell.time then advanceMerge i n (missInstant i t s) else s

/-- How many instants may be due: those up to now, and the copies held. -/
def mergeFuel (i : Nat) (s : State) : Nat :=
  match (gn8Of i s).next with
  | none => 0
  | some t => (if laterMod 48 s.bell.time t then elapsed s.bell.time t / 100 else 0) +
      (gn8Of i s).held.length + 2

/-- Bring a GN8's merge up to now. -/
def mergeGn8 (i : Nat) (s : State) : State := judgeRecent i (advanceMerge i (mergeFuel i s) s)

/-- An expected instant without a valid copy is declared missing (R70). -/
def execInstantMissing (g : Gn8Ix) (s : State) : Out :=
  .next (if commits s then mergeGn8 g s else s)

/-- Every GN8 of a configured ring, by position. -/
def cfgGn8s (s : State) : List Nat :=
  (cfgRings s).flatMap fun k => (List.range (ringCfg k s).ngn8).map fun i => 4 * k + i

/-- Take a GN8 out (R69, R70, R74). -/
def takeOut (i : Nat) (s : State) : State := modGn8 i (fun g => { g with out := true, held := [] }) s

/-- Extend a 32-bit stamp to the bell time nearest to a time (R67). -/
def extendStamp (stamp : Word) (near : Bell) : Bell :=
  let d := stamp - near.setWidth 32
  near + d.signExtend 48

/-- The I/Q pairs of a SAMPLE payload (R62). -/
def parseIq (f : List Byte) : List (Int × Int) :=
  (List.range 16).map fun j =>
    ((BitVec.ofNat 16 (fieldLE f (10 + 4 * j) 2)).toInt, (BitVec.ofNat 16 (fieldLE f (12 + 4 * j) 2)).toInt)

/-- Insert a copy among the held ones, in stamp order. -/
def insertHeld (x : Recent) : List Recent → List Recent
  | [] => [x]
  | y :: t => if laterMod 48 y.inst.at_ x.inst.at_ then x :: y :: t else y :: insertHeld x t

/-- Two copies carry the same bytes outside the header (R70). -/
def sameCopy (x y : Inst) : Bool := x.sysok == y.sysok && x.iq == y.iq

/-- A second copy of an instant: compared, and its direction noted (R70, R73). -/
def markDir (x : Recent) (y : Recent) : Recent :=
  if y.inst.at_ = x.inst.at_ then { y with l := y.l || x.l, h := y.h || x.h } else y

/-- Merge a valid copy (R70). -/
def mergeCopy (i : Nat) (x : Recent) (s : State) : State :=
  let s := modGn8 i (fun g => { g with lastValid := some s.bell.time, lastValidLand := s.bell.landNo,
                                       next := match g.next with
                                         | none => some x.inst.at_
                                         | some t => some t }) s
  let g := gn8Of i s
  let first := g.next.getD x.inst.at_
  match (g.recent ++ g.held).find? (fun y => y.inst.at_ == x.inst.at_) with
  | some y =>
    if sameCopy y.inst x.inst then
      modGn8 i (fun g => { g with recent := g.recent.map (markDir x), held := g.held.map (markDir x) }) s
    else takeOut i (sticky clsRing 0 6 s)
  | none =>
    if g.start.any fun b => laterMod 48 b x.inst.at_ then s
    else if laterMod 48 first x.inst.at_ then
      modRing (i / 4) (fun r => { r with lateCnt := satInc 0xFFFF r.lateCnt }) s
    else modGn8 i (fun g => { g with held := insertHeld x g.held }) s

/-! ### Frames received (R58 to R60, R76) -/

/-- A code violation: a group outside the code, or a control character other than K28.5, K27.7 and K29.7 (R58). -/
def violates (c : LineChar) : Bool :=
  match c with
  | .data _ => false
  | .ctl b => b != 0xBC && b != 0xFB && b != 0xFD
  | .invalid => true

/-- The distances between the violations of a frame, its SOF being n + 1 characters behind the violation before. -/
def violationGaps : Nat → List LineChar → List Nat
  | _, [] => []
  | n, c :: t => if violates c then (n + 1) :: violationGaps 0 t else violationGaps (n + 1) t

/-- The characters of a frame, SOF and EOF included, and the running disparity behind it; none where the groups do not begin
with a SOF and end with an EOF. The disparity ahead of the first frame since alignment is the one its SOF shows (R58). -/
def lineFrame (rd : Option Bool) (groups : List (BitVec 10)) : Option (List LineChar × Bool) :=
  match groups.head?.bind sofRd, groups.getLast? with
  | some b, some e =>
    if 2 ≤ groups.length && (e == ctlGroup false eofOctet || e == ctlGroup true eofOctet) then
      some (decodeGroups (rd.getD b) groups)
    else none
  | _, _ => none

/-- The octets of a frame; none where a control character stands in it. -/
def frameOctets : List LineChar → Option (List Byte)
  | [] => some []
  | .data b :: t => (frameOctets t).map (b :: ·)
  | _ :: _ => none

/-- A copy of a GN8's instant was discarded; its merge is brought up to now before (R76). -/
def noteDiscard (i : Nat) (s : State) : State :=
  modGn8 i (fun g => { g with lastDiscard := some s.bell.time }) (if commits s then mergeGn8 i s else s)

/-- Count a discarded frame (R60). DESIGN CHOICE, log 95: a discarded frame whose source cannot be known counts against every
GN8 of its ring. -/
def discardFrame (p bit : Nat) (s : State) : State :=
  let s := modPort p (fun r => { r with crc := satInc 0xFFFF r.crc }) s
  let s := match portRing p s with
    | some k => forEach (List.range (ringCfg k s).ngn8) (fun t => noteDiscard (4 * k + t)) s
    | none => s
  sticky clsRing 0 bit s

/-- A sound frame of a reserved type, which is no copy of an instant (R60). -/
def discardReserved (p : Nat) (s : State) : State :=
  sticky clsRing 0 9 (modPort p (fun r => { r with crc := satInc 0xFFFF r.crc }) s)

/-- A sound frame that finds the receive FIFO full (R19, R80); where it is a SAMPLE, a copy of its GN8's instant is lost (R76). -/
def overflowFrame (p : Nat) (f : List Byte) (s : State) : State :=
  let slot := bitsNat (frameByte f 1) 0 3
  let s := match portRing p s with
    | some k => if frameType f == tSample && slot < (ringCfg k s).ngn8 then noteDiscard (4 * k + slot) s else s
    | none => s
  sticky clsRing 0 10 s

/-- The code violations of a frame count until the link goes DOWN. -/
def frameViolation (p n : Nat) (s : State) : State :=
  if (portOf p s).link == .down then s else codeViolationAt p n s

/-- The characters of a frame, SOF and EOF included, are checked; a valid frame enters the receive FIFO of 32 entries (R19, R60,
R80). DESIGN CHOICE, log 96: an entry of the FIFO is one whole checked frame. DESIGN CHOICE, log 97: a frame discarded for a
code violation sets CRC; one of a wrong length or a reserved type, or with a SOF, an EOF or a comma inside it, sets FRAME,
whatever its CRC. -/
def receiveChars (p : Nat) (chars : List LineChar) (gap : Nat) (s : State) : State :=
  match violationGaps gap chars, frameOctets (chars.drop 1).dropLast with
  | [], some f =>
    if f.length < 8 then discardFrame p 9 s
    else if frameLen (frameType f) == 0 then (if frameCrcOk f then discardReserved p s else discardFrame p 9 s)
    else if f.length != frameLen (frameType f) then discardFrame p 9 s
    else if !frameCrcOk f then discardFrame p 0 s
    else if 32 ≤ (portOf p s).rx.length then overflowFrame p f s
    else modPort p (fun r => { r with rx := r.rx ++ [f] }) s
  | [], none => discardFrame p 9 s
  | l, _ => discardFrame p 0 (forEach l (frameViolation p) s)

/-- A frame is received whole: its code groups are decoded with the running disparity the receiver holds (R58, R60). -/
def receiveFrame (p : Nat) (groups : List (BitVec 10)) (gap : Nat) (s : State) : State :=
  match lineFrame (portOf p s).rxRd groups with
  | some d => receiveChars p d.1 gap (modPort p (fun r => { r with rxRd := some d.2 }) s)
  | none => s

/-- FRAME_RECEIVE: the code groups from SOF to EOF, gap characters standing between the latest code violation and the SOF. -/
def execFrameReceive (p : PortIx) (groups : List (BitVec 10)) (gap : Nat) (s : State) : Out :=
  .next (if portInUse p s && (portOf p s).link == .up then receiveFrame p groups gap s else s)

/-! ### Discovery (R68, R69) -/

/-- Every GN8 of a ring is expected to deliver instants from now on (R70). -/
def expectRing (k : Nat) (s : State) : State :=
  forEach (List.range (ringCfg k s).ngn8) (fun t s => modGn8 (4 * k + t) (expectFrom s.bell.time) s) s

/-- The ring has failed: its instants are missing with cause RING_DOWN (R68, R76). -/
def failRing (k derr : Nat) (s : State) : State :=
  sticky clsRing 0 7 (expectRing k
    (modRing k (fun r => { r with state := .failed, derr := derr, step := 0, cmds := [] }) s))

/-- The port of a ring with fewer hops to a GN8; P(k) where both have as many, and for every GN8 (R54, R63). -/
def nearPort (k target : Nat) (s : State) : Nat :=
  if (ringCfg k s).mode == 1 && decide (target < 4) && decide ((ringCfg k s).ngn8 < 2 * target + 1) then k + 16 else k

/-- Slots a ring can have (R54). -/
def maxSlots (k : Nat) (s : State) : Nat := if (ringCfg k s).mode == 2 then 2 else 4

/-- A ring begins a discovery step. -/
def toStep (k n : Nat) (s : State) : State :=
  modRing k (fun r => { r with step := n, stepAt := s.bell.time, cmds := [] }) s

/-- Step 6: send the write numbered left, counted from the end of the list (R68). -/
def sendSetup (k : Nat) (s : State) : State :=
  let l := (ringCfg k s).setup
  match l.drop (l.length - (ringOf k s).left) with
  | [] => sendCommand k k 0xFF 6 0 0 (toStep k 7 s)
  | w :: _ => sendCommand k (nearPort k w.1 s) w.1 1 w.2.1 w.2.2 s

def startSetup (k : Nat) (s : State) : State :=
  sendSetup k (modRing k (fun r => { r with left := (ringCfg k s).setup.length }) (toStep k 6 s))

/-- Step 5: one ECHO to each GN8 from each side (R68). -/
def startEcho (k : Nat) (s : State) : State :=
  let n := (ringCfg k s).ngn8
  let ports := ringPorts k s
  let s := modRing k (fun r => { r with left := n * ports.length }) (toStep k 5 s)
  forEach ports (fun p s => forEach (List.range n) (fun t => sendCommand k p t 4 0 0) s) s

/-- Step 4: the count and the identities (R68). -/
def checkIdentities (k : Nat) (s : State) : State :=
  let c := ringCfg k s
  let got := (ringOf k s).fromL
  if got.length != c.ngn8 then failRing k 0x3 s
  else if (List.range c.ngn8).all fun t => got.any fun x => x.2.1 == t && x.2.2 == c.ids.getD t 0 then
    startEcho k s
  else failRing k 0x5 s

/-- Step 3 complete: every GN8 at HOP s from P(k) and N - 1 - s from P(k+16) (R68). -/
def checkPositions (k : Nat) (s : State) : State :=
  let r := ringOf k s
  let n := r.fromL.length
  if r.fromL.all (fun x => x.1 == x.2.1 && r.fromH.any fun y => y.2.1 == x.2.1 && y.1 + x.2.1 + 1 == n) &&
      r.fromH.length == n then checkIdentities k s
  else failRing k 0x4 s

/-- Steps 2 and 3 end when the DISCOVER has closed the ring with as many hops as there were replies (R68). -/
def discoverProgress (k : Nat) (s : State) : State :=
  let r := ringOf k s
  let paired := (ringCfg k s).mode == 2
  match r.step with
  | 2 =>
    match r.closedL with
    | some h =>
      if h == r.fromL.length then
        if paired then checkIdentities k s
        else sendCommand k (k + 16) 0xFF 3 0 0 (toStep k 3 s)
      else if h < r.fromL.length then failRing k 0x2 s else s
    | none => s
  | 3 =>
    match r.closedH with
    | some h =>
      if h == r.fromH.length then checkPositions k s
      else if h < r.fromH.length then failRing k 0x2 s else s
    | none => s
  | _ => s

/-- Step 8: every GN8 has delivered 16 consecutive instants (R68). -/
def checkStep8 (k : Nat) (s : State) : State :=
  if (ringOf k s).step == 8 && s.dev.mode == .prove then
    let gs := (List.range (ringCfg k s).ngn8).map fun t => gn8Of (4 * k + t) s
    if gs.all fun g => 16 ≤ g.both || 16 ≤ g.onlyL || 16 ≤ g.onlyH then
      let s := forEach (List.range (ringCfg k s).ngn8) (fun t => modGn8 (4 * k + t) fun g =>
        { g with dirl := decide (16 ≤ g.both) || decide (16 ≤ g.onlyL),
                 dirh := decide (16 ≤ g.both) || decide (16 ≤ g.onlyH) }) s
      modRing k (fun r => { r with step := 0, state := if gs.all fun g => 16 ≤ g.both then .closed else .open }) s
    else s
  else s

/-- SAMPLE frames are merged from step 8 of discovery on (R68). -/
def ringMerges (k : Nat) (s : State) : Bool :=
  let r := ringOf k s
  r.step == 8 || r.state == .closed || r.state == .open

/-- The copy of a SAMPLE frame as this device stamps it; none where it carries no instant (R62, R66, R67): one stamped in the
partner's time, before its first marker or after a change of its offset until 16 markers agree (log 92). DESIGN CHOICE, log 94:
a translated stamp counts for the instant of the grid nearest to it. -/
def sampleInst (k : Nat) (f : List Byte) (s : State) : Option Recent :=
  let stamp := BitVec.ofNat 32 (fieldLE f 4 4)
  let paired := (ringCfg k s).mode == 2
  let relay := bitsNat (frameByte f 0) 3 1 == 1
  let dir := bitsNat (frameByte f 0) 2 1 == 1
  let theirs := paired && (bitsNat (frameByte f 1) 3 1 == 1) != (ringCfg k s).pdev
  let h := if paired then relay else dir
  let mk := fun t : Bell =>
    { inst := { at_ := t, sysok := BitVec.ofNat 16 (fieldLE f 8 2), iq := parseIq f, dir := dir, relay := relay }
      l := !h, h := h, judged := false : Recent }
  if theirs then
    match (ringOf k s).offset with
    | some o =>
      if (ringOf k s).trusted then
        let off : Bell := BitVec.ofInt 48 o
        let t := extendStamp stamp (s.bell.time + off) - off
        some (mk (nearestOn (gridAhead (gn8Of (4 * k + bitsNat (frameByte f 1) 0 3) s) t) t))
      else none
    | none => none
  else some (mk (extendStamp stamp s.bell.time))

/-- A valid SAMPLE frame (R56, R62, R70). DESIGN CHOICE, log 94: a copy whose STAMP in this device's time lies on no expected
grid is dropped, uncounted. -/
def takeSample (k p : Nat) (f : List Byte) (s : State) : State :=
  let slot := bitsNat (frameByte f 1) 0 3
  let i := 4 * k + slot
  let s := if (ringCfg k s).mode == 2 && bitsNat (frameByte f 0) 3 1 == 0 then relayFrame p f s else s
  if slot < (ringCfg k s).ngn8 then
    if fieldLE f 4 4 == 0xFFFFFFFF then
      sticky clsRing 0 5 (modGn8 i (fun g => { g with unsync := true, lastUnsync := some s.bell.time }) (mergeGn8 i s))
    else
      let s := modGn8 i (fun g => { g with unsync := false }) s
      if (gn8Of i s).out || !ringMerges k s then s
      else
        match sampleInst k f s with
        | none => s
        | some x =>
          let s := mergeGn8 i s
          if x.inst.at_.toNat % gridAhead (gn8Of i s) x.inst.at_ == 0 then
            checkStep8 k (mergeGn8 i (mergeCopy i x s))
          else s
  else s

/-- Take the frame at the front of a port's FIFO where it has a type (R19). -/
def popFrame (p ty : Nat) (s : State) : Option (List Byte × State) :=
  match (portOf p s).rx with
  | f :: rest => if frameType f == ty then some (f, modPort p (fun r => { r with rx := rest }) s) else none
  | [] => none

def onFrame (p ty : Nat) (act : Nat → List Byte → State → State) (s : State) : State :=
  if domOn (portDom p) s then
    match popFrame p ty s, portRing p s with
    | some (f, s'), some k => act k f s'
    | some (_, s'), none => s'
    | none, _ => s
  else s

def execSampleFrame (p : PortIx) (s : State) : Out :=
  .next (onFrame p tSample (fun k f => takeSample k p f) s)

/-- The offset to the partner's bell time at a MARKER (R63, R66): its BELL, plus the delays it gathered in ns and that of the
link on which it came in, which no GN8 has added (R65). -/
def takeMarker (k p : Nat) (f : List Byte) (s : State) : State :=
  let c := ringCfg k s
  if c.mode == 2 && (bitsNat (frameByte f 1) 3 1 == 1) != c.pdev then
    let their : Bell := BitVec.ofNat 48 (fieldLE f 4 6) + 
      BitVec.ofInt 48 (roundEven (fieldLE f 10 2 + (portOf p s).delay) 100)
    let o : Int := (their - s.bell.time).toInt
    let r := ringOf k s
    match r.offset with
    | none => setRing k { r with offset := some o, agree := 1 } s
    | some o' =>
      if (o - o').natAbs ≤ 2 then
        setRing k { r with offset := some o, agree := satInc 16 r.agree,
                           trusted := r.trusted || decide (16 ≤ r.agree + 1) } s
      else sticky clsRing 0 8 (setRing k { r with offset := some o, agree := 1, trusted := false } s)
  else s

def execMarkerFrame (p : PortIx) (s : State) : Out := .next (onFrame p tMarker (fun k f => takeMarker k p f) s)

/-- One reply for each slot; a second one, after a resend, takes the place of the first. -/
def addReply (x : Nat × Nat × Word) (l : List (Nat × Nat × Word)) : List (Nat × Nat × Word) :=
  (l.filter fun y => y.2.1 != x.2.1) ++ [x]

/-- A reply to DISCOVER (R68, steps 2 and 3), of a GN8 in slot 0 to 3 or of the partner; identities show in the slots that the
ring can have (R61, R79). -/
def discoverReply (k slot hop : Nat) (ident : Word) (s : State) : State :=
  let r := ringOf k s
  match r.step with
  | 2 =>
    if slot == 7 then discoverProgress k (setRing k { r with closedL := some hop } s)
    else if 4 ≤ slot then s
    else
      let s := if slot < maxSlots k s then modGn8 (4 * k + slot) (fun g => { g with id := ident }) s else s
      discoverProgress k (setRing k { r with fromL := addReply (hop, slot, ident) r.fromL } s)
  | 3 => if 4 ≤ slot then s
    else discoverProgress k (setRing k { r with fromH := addReply (hop, slot, ident) r.fromH } s)
  | _ => s

/-- The GN8 attached to a port of a ring: slot 0 at P(k), the last slot at P(k+16); in a paired ring slot 0 at the device with
PDEV 0, the last slot at the other (R54). -/
def attachedSlot (k p : Nat) (s : State) : Nat :=
  let c := ringCfg k s
  if (if c.mode == 2 then c.pdev else p != k) then c.ngn8 - 1 else 0

/-- A command is done with. -/
def dropCmd (k : Nat) (c : RCmd) (s : State) : State :=
  modRing k (fun r => { r with cmds := r.cmds.filter fun x => x.tag != c.tag }) s

/-- A reply to ECHO: one link segment measured, and the result written to the GN8 (R68). The manual gives the ns to no
command, so the measured delay is a free value (DESIGN CHOICE, log 20). -/
def echoReply (k slot : Nat) (c : RCmd) (s : State) : State :=
  let delay := (Config.freeWord s.free).toNat % 4096
  let s := drawFree s
  let s := if slot == attachedSlot k c.port s then modPort c.port (fun r => { r with delay := delay }) s else s
  if 750 < delay then failRing k 0x6 s
  else sendCommand k (nearPort k slot s) slot 1 (Config.gn8Addr 0).toNat (BitVec.ofNat 32 delay) (dropCmd k c s)

/-- The GN8 has taken an ECHO result; after the last one the set-up begins (R68). -/
def echoWritten (k : Nat) (c : RCmd) (s : State) : State :=
  let s := modRing k (fun r => { r with left := r.left - 1 }) (dropCmd k c s)
  if (ringOf k s).left == 0 then startSetup k s else s

/-- Step 7 is over: the instants of every GN8 are expected from here on (R68, R70). -/
def startMerge (k : Nat) (s : State) : State := expectRing k (modRing k (fun r => { r with step := 8, cmds := [] }) s)

/-- A reply in step 6: a write is read back, a read compared (R68). -/
def setupReply (k op result : Nat) (data : Word) (c : RCmd) (s : State) : State :=
  let r := ringOf k s
  let s := dropCmd k c s
  let l := (ringCfg k s).setup
  let want := match l.drop (l.length - r.left) with
    | w :: _ => w.2.2
    | [] => 0
  if result != 0 then failRing k 0x7 s
  else if op == 1 then sendCommand k (nearPort k c.target s) c.target 2 c.addr 0 s
  else if data == want then sendSetup k (modRing k (fun r => { r with left := r.left - 1 }) s)
  else failRing k 0x7 s

/-- A STATUS reply (R63). -/
def takeStatus (k : Nat) (f : List Byte) (s : State) : State :=
  let slot := bitsNat (frameByte f 1) 0 3
  let tag := fieldLE f 4 2
  let op := fieldLE f 6 1
  let data := BitVec.ofNat 32 (fieldLE f 10 4)
  let health := fieldLE f 18 2
  let i := 4 * k + slot
  let isGn8 := slot < (ringCfg k s).ngn8
  let s := if isGn8 then
      stickyIf (bitsNat health 1 1 == 0) clsRing 0 8 (modGn8 i (fun g => { g with markdis := bitsNat health 1 1 == 0 }) s)
    else s
  match (ringOf k s).cmds.find? (fun c => c.tag == tag && c.op == op && (c.target == 0xFF || c.target == slot)) with
  | none => s
  | some c =>
    let s := modRing k (fun r => { r with cmds := r.cmds.map fun x => if x.tag == c.tag then { x with answered := true } else x }) s
    if c.digest then dropCmd k c s
    else if (ringOf k s).step != 0 && s.dev.mode != .prove then s
    else match op, (ringOf k s).step with
    | 3, _ => discoverReply k slot data.toNat (BitVec.ofNat 32 (fieldLE f 14 4)) s
    | 4, 5 => echoReply k slot c s
    | 1, 5 => echoWritten k c s
    | 1, 6 => setupReply k 1 (fieldLE f 7 1) data c s
    | 2, 6 => setupReply k 2 (fieldLE f 7 1) data c s
    | 6, 7 =>
      if isGn8 && bitsNat health 0 1 == 1 then
        let s := modRing k (fun r => { r with aligned := insertKey slot r.aligned }) s
        if (ringOf k s).aligned.length == (ringCfg k s).ngn8 then
          startMerge k s
        else s
      else s
    | _, _ => dropCmd k c s

def execStatusFrame (p : PortIx) (s : State) : Out := .next (onFrame p tStatus (fun k f => takeStatus k f) s)

/-- The MARKER that leaves a port now, or once the frame on its line has ended; BELL is when its SOF leaves (R63, R65). -/
def sendMarker (p : Nat) (s : State) : State :=
  let wait : Bell := BitVec.ofInt 48 (roundEven (portOf p s).txLeft 25)
  sendFrame p tMarker (leBytes 6 (s.bell.time + wait).toNat ++ leBytes 2 0) s

/-- A COMMAND frame received: the DISCOVER that closes a single-device ring (R68), or a partner's DISCOVER, answered
with the HOP seen (table row, R68). -/
def takeCommand (k p : Nat) (f : List Byte) (s : State) : State :=
  let hop := frameByte f 1 / 16
  let op := fieldLE f 5 1
  if op != 3 then s
  else if (ringCfg k s).mode == 2 then
    sendFrame p tStatus (leBytes 2 (fieldLE f 6 2) ++ leBytes 1 3 ++ leBytes 1 0 ++ leBytes 2 (fieldLE f 8 2) ++
      leBytes 4 hop ++ leBytes 4 0xB0510512 ++ leBytes 2 0) s
  else
    let r := ringOf k s
    if s.dev.mode != .prove then s
    else match r.step with
    | 2 => if p != k then discoverProgress k (setRing k { r with closedL := some hop } s) else s
    | 3 => if p == k then discoverProgress k (setRing k { r with closedH := some hop } s) else s
    | _ => s

def execCommandFrame (p : PortIx) (s : State) : Out := .next (onFrame p tCommand (fun k f => takeCommand k p f) s)

/-- Every port in use sends a MARKER at each multiple of 1 000 ticks (R65). -/
def execMarkerSend (s : State) : Out :=
  if s.bell.time.toNat % 1000 == 0 && inService s then
    .next (forEach (List.range 32) (fun p s =>
      if portInUse p s then sendMarker p s else s) s)
  else .next s

/-- The other port of a single-device ring; in a paired ring the same one (R63). -/
def otherPort (k p : Nat) (s : State) : Nat :=
  if (ringCfg k s).mode == 1 then (if p == k then k + 16 else k) else p

/-- A DISCOVER is resent where its step sends it; any other command through the other port (R63, R68; log 21). -/
def retryPort (k : Nat) (c : RCmd) (s : State) : Nat := if c.op == 3 then c.port else otherPort k c.port s

def resendCommand (k : Nat) (c : RCmd) (s : State) : State :=
  let p := retryPort k c s
  let s := modRing k (fun r => { r with cmds := r.cmds.map fun x =>
    if x.tag == c.tag then { x with retried := true, sentAt := s.bell.time, port := p } else x }) s
  sendFrame p tCommand (leBytes 1 c.target ++ leBytes 1 c.op ++ leBytes 2 c.tag ++ leBytes 2 c.addr ++
    leBytes 4 c.data.toNat) s

/-- Commands of a discovery step are resent in PROVE only (R63, R69). -/
def execCommandRetry (k : RingIx) (s : State) : Out :=
  if (ringOf k s).step != 0 && s.dev.mode != .prove then .next s
  else match (ringOf k s).cmds.find? (fun c => !c.retried && !c.answered && 1000 ≤ elapsed s.bell.time c.sentAt) with
  | some c => .next (resendCommand k c s)
  | none => .next s

/-- The code of a step whose limit expires, in PROVE (R68, R69). DESIGN CHOICE, log 93: commands that stay unanswered give 0x2
in step 3, 0x6 in step 5 and 0x7 in step 6. -/
def timeoutCode (k : Nat) (s : State) : Option Nat :=
  let r := ringOf k s
  let t := elapsed s.bell.time r.stepAt
  let lost := r.cmds.any fun c => (c.retried || c.answered) && 1000 ≤ elapsed s.bell.time c.sentAt
  if s.dev.mode != .prove then none
  else match r.step with
  | 1 => if 100000 ≤ t then some 0x1 else none
  | 2 => if lost then some (if (ringCfg k s).mode == 2 && r.closedL.isNone then 0x8 else 0x2) else none
  | 3 => if lost then some 0x2 else none
  | 5 => if lost then some 0x6 else none
  | 6 => if lost then some 0x7 else none
  | 7 => if 200000 ≤ t then some 0x9 else none
  | 8 => if 200000 ≤ t ∧ (List.range (ringCfg k s).ngn8).any (fun i => (gn8Of (4 * k + i) s).lastValid.isNone)
    then some 0xA else none
  | _ => none

def execDiscoveryTimeout (k : RingIx) (s : State) : Out :=
  match timeoutCode k s with
  | some c => .next (failRing k c s)
  | none => .next s

/-! ### Directions, outs, digests (R69, R73, R74) -/

def execDirectionLoss (g : Gn8Ix) (s : State) : Out :=
  let x := gn8Of g s
  let k := g.val / 4
  let lose := fun y : Gn8 => sticky clsRing 0 3
    (modRing k (fun r => if r.state == .closed then { r with state := .open } else r) (setGn8 g y s))
  if ringMerges k s && x.dirh && 16 ≤ x.onlyL then .next (lose { x with dirh := false })
  else if ringMerges k s && x.dirl && 16 ≤ x.onlyH then .next (lose { x with dirl := false })
  else .next s

/-- The ring is CLOSED again once each of its GN8s delivers both ways (DEDUCED, log 22). -/
def execDirectionRegain (g : Gn8Ix) (s : State) : Out :=
  let x := gn8Of g s
  let k := g.val / 4
  if ringMerges k s && 16 ≤ x.both && !(x.dirh && x.dirl) then
    let s := setGn8 g { x with dirh := true, dirl := true } s
    if (ringOf k s).state == .open && (List.range (ringCfg k s).ngn8).all fun t =>
        (gn8Of (4 * k + t) s).dirl && (gn8Of (4 * k + t) s).dirh then
      .next (modRing k (fun r => { r with state := .closed }) s)
    else .next s
  else .next s

def execGn8OutTimeout (g : Gn8Ix) (s : State) : Out :=
  let k := g.val / 4
  let up := (ringOf k s).state == .closed || (ringOf k s).state == .open
  if up && g.val % 4 < (ringCfg k s).ngn8 && !(gn8Of g s).out &&
      64 ≤ elapsedLand s.bell.landNo (gn8Of g s).lastValidLand then
    .next (takeOut g s)
  else .next s

/-- A READ of a GN8's set-up digest register goes out; its address is the GN8's own (DESIGN CHOICE, log 20: a free value). -/
def sendDigestRead (k slot : Nat) (s : State) : State :=
  sendCommandAs true k (nearPort k slot s) slot 2 (Config.gn8Addr 2).toNat 0 s

/-- A GN8's set-up digest is read: the first value since step 6 is kept, and one that differs at a multiple of 256 landings
takes the GN8 out (R69; log 78). -/
def execDigestCheck (g : Gn8Ix) (digest : Word) (s : State) : Out :=
  let k := g.val / 4
  let r := ringOf k s
  if !(g.val % 4 < (ringCfg k s).ngn8) then .next s
  else if 6 ≤ r.step && r.step ≤ 8 && s.dev.mode == .prove then
    .next (sendDigestRead k (g.val % 4) (modGn8 g (fun x => { x with digest := some (x.digest.getD digest) }) s))
  else if (r.state == .closed || r.state == .open) && s.bell.landNo.toNat % 256 == 0 && inService s then
    let s1 := sendDigestRead k (g.val % 4) s
    .next (if (gn8Of g s).digest.any (· != digest) then takeOut g s1 else s1)
  else .next s

/-! ### Links (R59) -/

/-- Three K28.5 characters in consistent positions (R59). -/
def execCommaAlignment (p : PortIx) (s : State) : Out :=
  if portInUse p s && s.pins.vlnk && (portOf p s).link == .down then
    .next (modPort p (fun r => { r with link := .align, los := false, gaps := [], rxRd := none }) s)
  else .next s

/-- 64 further characters without a violation, 8 IDLEs among them; step 1 of discovery ends when every port of the
ring is UP (R59, R68). -/
def execLinkUp (p : PortIx) (s : State) : Out :=
  if portInUse p s && s.pins.vlnk && (portOf p s).link == .align then
    let s := modPort p (fun r => { r with link := .up }) s
    match portRing p s with
    | some k =>
      if (ringOf k s).step == 1 && s.dev.mode == .prove && (ringPorts k s).all fun q => (portOf q s).link == .up then
        .next (sendCommand k k 0xFF 3 0 0
          (modRing k (fun r => { r with state := .discovering, fromL := [], fromH := [], closedL := none,
                                        closedH := none, aligned := [] }) (toStep k 2 s)))
      else .next s
    | none => .next s
  else .next s

def execLinkDown (p : PortIx) (why : LinkLoss) (s : State) : Out :=
  if (portOf p s).link != .down then .next (linkDownAt p (why == .noSignal) s)
  else if why == .noSignal && portInUse p s then .next (modPort p (fun r => { r with los := true }) s)
  else .next s

/-- A GN8 changes grid at the first multiple of 800 ticks after the landing tick (R77). -/
def execDecimationGridChange (g : Gn8Ix) (s : State) : Out :=
  match (gn8Of g s).change with
  | some _ => .next (mergeGn8 g s)
  | none => .next s

/-- The transmitters of a ring's ports drive where their domain and VLNK stand (R55, R398). -/
def driveRing (k : Nat) (s : State) : State :=
  forEach (ringPorts k s) (fun p => modPort p fun r => { r with txen := domOn (portDom p) s && s.pins.vlnk }) s

/-- Discovery starts for each ring in use at the transition (R68, R315). -/
def startRings (s : State) : State :=
  forEach (cfgRings s) (fun k s =>
    driveRing k (setRing k { Ring.reset with state := .down, step := 1, stepAt := s.bell.time } s)) s

/-- A GN8 is commanded to a grid at a landing: the command goes to it, and its grid and the merge unit's change together at
the first multiple of 800 ticks after the landing tick; one that has no instant expected yet starts on it (R77). -/
def orderGrid (d : Bool) (i : Nat) (s : State) : State :=
  let s := sendCommand (i / 4) (nearPort (i / 4) (i % 4) s) (i % 4) 1 (Config.gn8Addr 1).toNat (Config.gn8Grid d) s
  modGn8 i (fun g => if g.next.isNone then { g with decim := d, change := none, gridAt := none }
    else { g with change := some (d, nextMultiple 800 s.bell.tickTime) }) s

/-- The rings at a landing tick: every GN8 brought up to the tick (R77). -/
def ringsTick (s : State) : State := forEach (cfgGn8s s) mergeGn8 s

end Sys2Proof.Machine
end

