-- ==== Sys2Proof/Machine/CopArith.lean ====
section
/-! DEFINITION. Block-floating arithmetic of the signal coprocessor, exact up to the one rounding (R190 to R197). -/

namespace Sys2Proof.Machine

/-- An exact value n x 2^x. -/
abbrev Dy := Int × Int

/-- n x 2^k for k of either sign, where 2^k divides n or k is not negative. -/
def shiftUp (n : Int) (k : Nat) : Int := n * 2 ^ k

def dyAdd (a b : Dy) : Dy :=
  let x := min a.2 b.2
  (shiftUp a.1 (a.2 - x).toNat + shiftUp b.1 (b.2 - x).toNat, x)

def dyNeg (a : Dy) : Dy := (-a.1, a.2)

def dyMul (a b : Dy) : Dy := (a.1 * b.1, a.2 + b.2)

def dySum (l : List Dy) : Dy := l.foldl dyAdd (0, 0)

/-- a < b. -/
def dyLt (a b : Dy) : Bool := decide ((dyAdd a (dyNeg b)).1 < 0)

def dyAbs (a : Dy) : Dy := (a.1.natAbs, a.2)

/-- Lane k of a vector as an exact value (R190). -/
def laneOf (v : Vec) (k : Nat) : Dy := ((v.m.getD k 0).toInt, v.e.toInt - 15)

def lanes (v : Vec) : List Dy := (List.range 16).map (laneOf v)

/-- The lanes over one common exponent. -/
def alignLanes (l : List Dy) : List Int × Int :=
  let x := l.foldl (fun x a => min x a.2) (l.headD (0, 0)).2
  (l.map fun a => shiftUp a.1 (a.2 - x).toNat, x)

/-- Bits of a magnitude. -/
def bitLen (n : Nat) : Nat := if n = 0 then 0 else n.log2 + 1

/-- round (n / 2^k), ties to even; exact for negative k (R192). -/
def roundShift (n k : Int) : Int :=
  if k ≤ 0 then shiftUp n (-k).toNat else roundEven n (2 ^ k.toNat)

/-- n is a multiple of 2^k. -/
def exactShift (n k : Int) : Bool := if k ≤ 0 then true else n % (2 ^ k.toNat) == 0

/-- round (sqrt n / 2^k), ties to even (R192, R194). -/
def roundRoot (n : Nat) (k : Int) : Int :=
  let a := if k ≤ 0 then 4 * n * 4 ^ (-k).toNat else 4 * n
  let d := if k ≤ 0 then 1 else 2 ^ k.toNat
  let h := isqrt a / d
  if h % 2 = 1 ∧ (h * d) * (h * d) = a then (if (h / 2) % 2 = 0 then h / 2 else h / 2 + 1)
  else (h + 1) / 2

def exactRoot (n : Nat) (k : Int) : Bool :=
  let r := roundRoot n k
  let a := if k ≤ 0 then n * 4 ^ (-k).toNat else n
  let d : Int := if k ≤ 0 then 1 else 2 ^ k.toNat
  decide ((r * d) * (r * d) = a)

def fits16 (l : List Int) : Bool := l.all fun x => decide (-32768 ≤ x ∧ x ≤ 32767)

/-- A result vector and its exceptions, bit 0 OVF, 1 UNF, 2 ZPH (R197). -/
abbrev CopResult := Vec × Byte

def packVec (l : List Int) (e : Int) : Vec := { m := l.map (BitVec.ofInt 16), e := BitVec.ofInt 8 e }

/-- The canonical zero vector (R191). -/
def zeroVec : Vec := packVec (List.replicate 16 0) (-128)

/-- The output rule (R192): rnd gives the rounded mantissas at exponent e = k + x + 15, k0 is a shift at or below the
smallest that can fit, exact tells whether nothing is lost at a shift. -/
def outputRule (zero : Bool) (rnd : Int → List Int) (exact : Int → Bool) (x k0 : Int) : CopResult :=
  if zero then (zeroVec, 0)
  else
    let k := if fits16 (rnd k0) then k0 else if fits16 (rnd (k0 + 1)) then k0 + 1 else k0 + 2
    let e := k + x + 15
    if 127 < e then
      (packVec ((rnd (127 - x - 15)).map (clampInt (-32768) 32767)) 127, 1)
    else if e < -128 then
      (packVec (rnd (-128 - x - 15)) (-128), if exact (-128 - x - 15) then 0 else 2)
    else (packVec (rnd k) e, 0)

/-- The output rule on exact lanes (R192). -/
def outLanes (l : List Dy) : CopResult :=
  let a := alignLanes l
  let len := a.1.foldl (fun m n => max m (bitLen n.natAbs)) 0
  outputRule (a.1.all (· == 0)) (fun k => a.1.map fun n => roundShift n k)
    (fun k => a.1.all fun n => exactShift n k) a.2 ((len : Int) - 16)

/-- The output rule on square roots of exact lanes (R194, VMAG mode 0). -/
def outRoots (l : List Dy) : CopResult :=
  let l2 := l.map fun a => if a.2 % 2 = 0 then a else (a.1 * 2, a.2 - 1)
  let x := l2.foldl (fun x a => min x a.2) (l2.headD (0, 0)).2
  let ns := l2.map fun a => (shiftUp a.1 (a.2 - x).toNat).toNat
  let len := ns.foldl (fun m n => max m (bitLen (isqrt n))) 0
  outputRule (ns.all (· == 0)) (fun k => ns.map fun n => roundRoot n k)
    (fun k => ns.all fun n => exactRoot n k) (x / 2) ((len : Int) - 16)

/-- The n leading bits of an angle as a fraction of a turn, by squaring (R196). -/
def angleBits : Nat → Int → Int → Nat → Nat
  | 0, _, _, acc => acc
  | n + 1, re, im, acc =>
    let bit := if im < 0 ∨ (im = 0 ∧ re < 0) then 1 else 0
    angleBits n (re * re - im * im) (2 * re * im) (2 * acc + bit)

/-- round (atan2 (im, re) x 128 / pi), 128 becoming -128 (R196). No exact half arises: of the odd multiples of pi / 256
none has a rational tangent. -/
def binaryAngle (re im : Int) : Int :=
  if re = 0 ∧ im = 0 then 0
  else
    let r : Int := ((angleBits 9 re im 0 + 1) / 2 % 256 : Nat)
    if 128 ≤ r then r - 256 else r

def phaseLanes (a b : Vec) : CopResult :=
  let zs := (List.range 16).map fun k => (alignLanes [laneOf a k, laneOf b k]).1
  let th := zs.map fun z => binaryAngle (z.getD 0 0) (z.getD 1 0)
  (packVec (th.map (· * 256)) 0, if zs.any fun z => z.getD 0 0 == 0 && z.getD 1 0 == 0 then 4 else 0)

/-- VMAC (R194). -/
def vmacLanes (d a b : Vec) : CopResult :=
  outLanes ((List.range 16).map fun k => dyAdd (laneOf d k) (dyMul (laneOf a k) (laneOf b k)))

/-- VCORR (R194). -/
def vcorrLanes (a b : Vec) : CopResult :=
  outLanes ((List.range 16).map fun k =>
    dySum ((List.range (16 - k)).map fun i => dyMul (laneOf a i) (laneOf b (i + k))))

/-- VMAG (R194, R196). -/
def vmagLanes (mode : Nat) (a b : Vec) : CopResult :=
  if mode = 0 then
    outRoots ((List.range 16).map fun k =>
      dyAdd (dyMul (laneOf a k) (laneOf a k)) (dyMul (laneOf b k) (laneOf b k)))
  else phaseLanes a b

/-- VADD (R194). -/
def vaddLanes (mode : Nat) (a b : Vec) : CopResult :=
  outLanes ((List.range 16).map fun k =>
    dyAdd (laneOf a k) (if mode = 0 then laneOf b k else dyNeg (laneOf b k)))

/-- VSCALE (R194). -/
def vscaleLanes (mode : Nat) (a : Vec) (gs : Word) : CopResult :=
  if mode = 0 then
    let sh : Int := (gs.setWidth 8).toInt
    let e := a.e.toInt + sh
    if -128 ≤ e ∧ e ≤ 127 then ({ a with e := BitVec.ofInt 8 e }, 0)
    else outLanes ((lanes a).map fun x => (x.1, x.2 + sh))
  else
    let f : Dy := ((gs.setWidth 16).toInt, -15)
    outLanes ((lanes a).map fun x => dyMul x f)

/-- VMAX (R194). -/
def vmaxLanes (mode : Nat) (a b : Vec) : CopResult :=
  outLanes ((List.range 16).map fun k =>
    let x := laneOf a k
    let y := laneOf b k
    if mode = 0 then (if dyLt x y then y else x) else (if dyLt (dyAbs x) (dyAbs y) then y else x))

/-- VRED (R194). -/
def vredLanes (mode : Nat) (a : Vec) : CopResult :=
  let l := lanes a
  let r : Dy := match mode with
    | 0 => dySum l
    | 1 => l.foldl (fun x y => if dyLt x y then y else x) (laneOf a 0)
    | _ => dySum (l.map fun x => dyMul x x)
  outLanes (r :: List.replicate 15 (0, r.2))

/-- x_j of VFIR (R195). -/
def firSample (a b b1 : Vec) (j : Int) : Dy :=
  if 0 ≤ j then laneOf a j.toNat else if -16 ≤ j then laneOf b (16 + j).toNat else laneOf b1 (32 + j).toNat

/-- VFIR with n taps (R194, R195). -/
def vfirLanes (n : Nat) (c0 c1 a b b1 : Vec) : CopResult :=
  outLanes ((List.range 16).map fun k =>
    dySum ((List.range n).map fun i =>
      dyMul (if i < 16 then laneOf c0 i else laneOf c1 (i - 16)) (firSample a b b1 ((k : Int) - i))))

/-- A vector image in memory (R177). -/
def vecImage (v : Vec) : List Byte :=
  (List.range 16).flatMap (fun k => leBytes 2 (v.m.getD k 0).toNat) ++ leBytes 4 (v.e.signExtend 32).toNat

def vecMantissas (v : Vec) : List Byte := (List.range 16).flatMap (fun k => leBytes 2 (v.m.getD k 0).toNat)

end Sys2Proof.Machine
end

