-- ==== Sys2Proof/Machine/Operands.lean ====
section
/-! DEFINITION. The Dyhar core's operand forms: registers, the local address map, memory accesses, issue and
faults (R163 to R178, R186, R187). -/

namespace Sys2Proof.Machine

/-! ### Contexts and registers (R164, R169) -/

/-- A general register as the next instruction reads it: a held result first (R186); g0 reads as zero (R169). -/
def readReg (x : CtxSt) (r : Nat) : Word :=
  if r = 0 then 0
  else
    match x.spec with
    | some sp => match sp.held.find? (fun p => p.1 == r) with
      | some p => p.2
      | none => tabGet 0 x.g r
    | none => tabGet 0 x.g r

/-- Write the register file, an event of the RF lane; a write to g0 is discarded (R169, R212). -/
def fileWrite (x : CtxSt) (r : Nat) (v : Word) : CtxSt :=
  if r = 0 then x else { x with g := tabSet 0 x.g r v, wrote := x.wrote ++ [(r, v)] }

/-- Write a result: held while a branch is unresolved (R186). -/
def writeReg (x : CtxSt) (r : Nat) (v : Word) : CtxSt :=
  if r = 0 then x
  else
    match x.spec with
    | some sp => { x with spec := some { sp with held := (r, v) :: sp.held } }
    | none => fileWrite x r v

/-- The instruction has issued: the PC moves on, and one more is retired, or has gone past an unresolved branch. -/
def retire (x : CtxSt) : CtxSt :=
  { x with pc := x.pc + 4, done := x.done + (if x.spec.isNone then 1 else 0)
           spec := x.spec.map fun sp => { sp with n := sp.n + 1 } }

/-- A register that an operation in flight has still to write (R189). -/
def regInFlight (c : Ctx) (k : Core) (r : Nat) : Bool :=
  r != 0 && ((c == .head && k.pulls.any (fun p => p.rd == r)) || k.shared.any (fun p => p.ctx == c && p.rd == r))

/-! ### Code regions and the address map (R167) -/

def inCode (c : Ctx) (pc : Word) : Bool :=
  match c with
  | .head => decide (pc.toNat < 0x3000)
  | .ext => decide (0x3000 ≤ pc.toNat ∧ pc.toNat < 0x4000)

/-- Where an address lies. -/
inductive Region where
  | dmem (off : Nat)
  | vmem (off : Nat)
  | shared (off : Nat)
  | other
  deriving DecidableEq, Repr

def regionOf (a : Nat) : Region :=
  if 0x10000000 ≤ a ∧ a < 0x10008000 then .dmem (a - 0x10000000)
  else if 0x20000000 ≤ a ∧ a < 0x20004000 then .vmem (a - 0x20000000)
  else if 0x40000000 ≤ a ∧ a < 0x40001000 then .shared (a - 0x40000000)
  else .other

/-- A context's own data regions, where it may store (R167). -/
def ownData (c : Ctx) (a : Nat) : Bool :=
  match c with
  | .head => decide ((0x10000000 ≤ a ∧ a < 0x10007000) ∨ (0x20000000 ≤ a ∧ a < 0x20003000))
  | .ext => decide ((0x10007000 ≤ a ∧ a < 0x10008000) ∨ (0x20003000 ≤ a ∧ a < 0x20004000))

/-- Every byte of an access lies in the context's own data regions, and in one of them. -/
def mayStore (c : Ctx) (a n : Nat) : Bool :=
  ownData c a && ownData c (a + n - 1) && decide (a / 0x10000000 = (a + n - 1) / 0x10000000)

/-- Every byte of an access lies in DMEM, or in VMEM, which both contexts may load (R167). -/
def mayLoad (a n : Nat) : Bool :=
  match regionOf a, regionOf (a + n - 1) with
  | .dmem _, .dmem _ => true
  | .vmem _, .vmem _ => true
  | _, _ => false

/-- Local memory by address. -/
def localByte (k : Core) (a : Nat) : Byte :=
  match regionOf a with
  | .dmem o => memGet k.dmem o
  | .vmem o => memGet k.vmem o
  | .shared o => memGet k.shr o
  | .other => 0

def localBytes (k : Core) (a : Nat) : Nat → List Byte
  | 0 => []
  | n + 1 => localByte k a :: localBytes k (a + 1) n

def storeLocalByte (k : Core) (a : Nat) (b : Byte) : Core :=
  match regionOf a with
  | .dmem o => { k with dmem := memSet k.dmem o b }
  | .vmem o => { k with vmem := memSet k.vmem o b }
  | .shared _ => k
  | .other => k

/-- Store bytes at rising addresses of DMEM or VMEM. -/
def storeLocal : Core → Nat → List Byte → Core
  | k, _, [] => k
  | k, a, b :: t => storeLocal (storeLocalByte k a b) (a + 1) t

def overlap (a n b m : Nat) : Bool := a < b + m && b < a + n

/-- Words of DMEM or VMEM that an access touches (R163). -/
def localHit (a n : Nat) : EccErr → Bool :=
  match regionOf a with
  | .dmem o => wordHit .dmem (o / 4) ((o + n - 1) / 4)
  | .vmem o => wordHit .vmem (o / 4) ((o + n - 1) / 4)
  | .shared _ => fun _ => false
  | .other => fun _ => false

/-- The words of DMEM or VMEM that an access covers only in part. -/
def partHit (a n : Nat) (x : EccErr) : Bool :=
  (a % 4 != 0 && localHit a 1 x) || ((a + n) % 4 != 0 && localHit (a + n - 1) 1 x)

/-- Words written: an error is left only where a word was written in part, and read for it. -/
def writeWords (a n : Nat) (k : Core) : Core := overwrite (fun x => localHit a n x && !partHit a n x) k

/-- Bytes a vector load or store names: (address, span) (R176, R177). -/
def vldSpan (mode : Nat) : Nat :=
  match mode with
  | 0 => 36
  | 1 => 32
  | 2 => 62
  | _ => 242

def vstSpan (mode : Nat) : Nat := if mode = 0 then 36 else 32

/-- Taps of a VFIR mode (R176). -/
def firTaps (mode : Nat) : Nat :=
  match mode % 4 with
  | 0 => 4
  | 1 => 8
  | 2 => 16
  | _ => 32

/-- The pieces of memory, as (offset, length), that a vector load or a VFIR reads (R176, R177). -/
def readPieces (kind : CopKind) (mode : Nat) : List (Nat × Nat) :=
  match kind, mode with
  | .vld, 0 => [(0, 36)]
  | .vld, 1 => [(0, 32)]
  | .vld, 2 => (List.range 16).map fun i => (4 * i, 2)
  | .vld, _ => (List.range 16).map fun i => (16 * i, 2)
  | .vfir, _ => if mode % 4 = 3 then [(0, 72)] else [(0, 2 * firTaps mode), (32, 4)]
  | _, _ => []

/-- What an operation reads of memory overlaps an access. -/
def readsOverlap (o : CopOp) (a n : Nat) : Bool :=
  (readPieces o.kind o.mode).any fun p => overlap a n (o.gs.toNat + p.1) p.2

/-- Writes still in flight that overlap an access: a PULL not written, a VST not yet in effect (R178). -/
def pullOverlaps (k : Core) (a n : Nat) : Bool := k.pulls.any fun p => overlap a n p.addr 16

def vstOverlaps (c : Ctx) (k : Core) (a n : Nat) : Bool :=
  k.cops.any fun o => o.ctx == c && o.kind == .vst && !o.killed && !o.discard && overlap a n o.gs.toNat (vstSpan o.mode)

/-- Reads still to be made by operations in the queue that a store would overlap (R178). -/
def vldOverlaps (c : Ctx) (k : Core) (a n : Nat) : Bool :=
  k.cops.any fun o => o.ctx == c && o.stage == .queued && readsOverlap o a n

/-! ### Issue (R164, R174, R186) and faults (R187) -/

/-- Blocks of the head context that let the extension context run (R164). -/
def letsExtRun (b : Block) : Bool :=
  match b with
  | .none => false
  | .yield_ => false
  | _ => true

/-- The engine runs a program: it serves heads, or its fulling window is open (R217, R219). -/
def engRuns (g : Eng) : Bool := g.state == .service || (g.state == .proving && g.winStart.isSome)

/-- The context may issue (R164). -/
def mayIssue (c : Ctx) (g : Eng) : Bool :=
  engRuns g && (ctxOf c g.core).halted.isNone && (ctxOf c g.core).block == .none &&
  (match c with
   | .head => true
   | .ext => letsExtRun g.core.head.block && !g.core.xEnded)

/-- Block the context. A block of the head context ends a YIELD of the extension context (R184). -/
def setBlock (c : Ctx) (b : Block) (k : Core) : Core :=
  let k := setCtx c { ctxOf c k with block := b } k
  if c == .head && letsExtRun b && k.ext.block == .yield_ then
    { k with ext := { k.ext with block := .none } }
  else k

/-- A tag has returned: a context stalled on a tag issues again (R174). -/
def freeStall (c : Ctx) (k : Core) : Core :=
  if (ctxOf c k).block == .tag then setCtx c { ctxOf c k with block := .none } k else k

/-- What an instruction does when it comes to issue. -/
inductive Issue where
  | done (k : Core)
  | stall (b : Block)
  | fault (code : Nat)
  deriving DecidableEq, Repr

/-- The extension program ends for the frame; the results of its shared-memory reads are discarded (R187, R188). -/
def endExt (code : Nat) (k : Core) : Core :=
  { k with xEnded := true
           ext := { k.ext with halted := some code, block := .none, spec := none }
           shared := k.shared.map (fun o => if o.ctx == .ext then { o with rd := 0 } else o) }

/-- A fault of the extension context: its operations in flight complete, and their results are discarded (R187). -/
def faultExt (code : Nat) (k : Core) : Core :=
  let k := endExt code k
  { k with xFaulted := true, cops := k.cops.map fun o => if o.ctx == .ext then { o with discard := true } else o }

/-- Preemption kills every operation of the extension context but a committed VST (R188, R207). -/
def preempted (o : CopOp) : Bool := o.ctx == .ext && !(o.committed && o.kind == .vst)

def preemptExt (k : Core) : Core := killTokens preempted (endExt fPreempt k)

/-- A fault of a context: halted at the instruction, or ended for the frame; its code is recorded (R187). -/
def ctxFault (e : Nat) (c : Ctx) (code : Nat) (s : State) : State :=
  let failed := c == .head && killsFailed (fun _ => true) (engOf e s).core.cops
  let s := setCore e (match c with
    | .head => haltHead code
    | .ext => faultExt code) s
  noteFailed failed e (recordCode e (c == .head) code s)

/-- A fault met past an unresolved branch is kept until it resolves (R186). -/
def holdFault (c : Ctx) (code : Nat) (k : Core) : Core :=
  let x := ctxOf c k
  setCtx c { x with spec := x.spec.map fun sp => { sp with fault := some (code, x.pc) } } k

/-- A fault that an instruction meets: raised at it, or held until the branch before it resolves. -/
def faultAt (e : Nat) (c : Ctx) (code : Nat) (s : State) : State :=
  let k := (engOf e s).core
  if (ctxOf c k).spec.isSome then setCore e (holdFault c code) s else ctxFault e c code s

/-- The word of IMEM that holds the instruction (R163). -/
def fetchHit (pc : Word) : EccErr → Bool := wordHit .imem (pc.toNat / 4) (pc.toNat / 4)

/-- An access that reads words; an uncorrectable error in them raises ECC_DED (R163). -/
def reading (c : Ctx) (hit : EccErr → Bool) (k : Core) (act : Core → Issue) : Issue :=
  if doubles hit k then .fault fEccDed else act (readWords c hit k)

/-- A context cannot issue past its unresolved branch: an instruction kind that waits, 8 instructions, or a held
fault (R186). -/
def specStalls (specOk : Bool) (x : CtxSt) : Bool :=
  match x.spec with
  | none => false
  | some sp => !specOk || 8 ≤ sp.n || sp.fault.isSome

/-- The word of the instruction has been read: an error in it is corrected and counted (R163). -/
def fetched (e : Nat) (c : Ctx) (s : State) : State :=
  let k := (engOf e s).core
  let hit := fetchHit (ctxOf c k).pc
  if k.ecc.any hit then setCore e (readWords c hit) s else s

/-- The core behind an instruction that has its effect. -/
def doneOr (k : Core) (x : Issue) : Core :=
  match x with
  | .done k' => k'
  | .stall _ => k
  | .fault _ => k

/-- A head context waits for one of these registers until a PULL has written it (R164, R189). -/
def pullStall (c : Ctx) (regs : List Nat) (k : Core) : Bool :=
  c == .head && regs.any fun r => k.pulls.any fun p => p.rd == r && r != 0

/-- An instruction that has been fetched: it stalls on a register in flight, and its effect, stall or fault follows. -/
def carryOut (e : Nat) (c : Ctx) (regs : List Nat) (act : Core → Issue) (s : State) : State :=
  let k := (engOf e s).core
  if regs.any (regInFlight c k) then (if pullStall c regs k then setCore e (setBlock c .pull) s else s)
  else
    match act k with
    | .done _ => setCore e (fun k => doneOr k (act k)) s
    | .stall b => if b == .none then s else setCore e (setBlock c b) s
    | .fault code => faultAt e c code s

/-- A context stands past a branch that waits for a PULL to write one of its registers (R164, R186). -/
def branchPull (c : Ctx) (k : Core) : Bool := (ctxOf c k).spec.any fun sp => pullStall c [sp.rs1, sp.rs2] k

/-- Issue an instruction of a context: it is fetched, and carried out. -/
def issue (e : Nat) (c : Ctx) (specOk : Bool) (regs : List Nat) (act : Core → Issue) (s : State) : State :=
  let g := engOf e s
  let x := ctxOf c g.core
  if !mayIssue c g then s
  else if specStalls specOk x then (if branchPull c g.core then setCore e (setBlock c .pull) s else s)
  else if !inCode c x.pc then (if x.spec.isSome then s else ctxFault e c fIfetch s)
  else if doubles (fetchHit x.pc) g.core then faultAt e c fEccDed s
  else carryOut e c regs act (fetched e c s)

/-- The result of an instruction that writes one register. -/
def result (c : Ctx) (rd : Nat) (v : Core → CtxSt → Word) (k : Core) : Issue :=
  let x := ctxOf c k
  .done (setCtx c (retire (writeReg x rd (v k x))) k)

/-- Register-register form. -/
def formR (e : Nat) (c : Ctx) (rd rs1 rs2 : Nat) (f : Word → Word → Word) (s : State) : State :=
  issue e c true [rs1, rs2, rd] (result c rd fun _ x => f (readReg x rs1) (readReg x rs2)) s

/-- Register-immediate form. -/
def formI (e : Nat) (c : Ctx) (rd rs1 : Nat) (f : Word → Word) (s : State) : State :=
  issue e c true [rs1, rd] (result c rd fun _ x => f (readReg x rs1)) s

/-- Free tags of a pool (R171, R173). -/
def pullsInUse (k : Core) : Nat :=
  k.pulls.length + (match k.head.block with
    | .peek _ _ _ => 1
    | .bubq _ _ _ _ => 1
    | _ => 0)

def sharedInUse (c : Ctx) (k : Core) : Nat := (k.shared.filter (fun o => o.ctx == c)).length

def copsInUse (c : Ctx) (k : Core) : Nat := (k.cops.filter (fun o => o.ctx == c)).length

/-- The lowest free shared-read tag of a context (R173). -/
def freeSharedTag (c : Ctx) (k : Core) : Option Nat :=
  (List.range 8).find? fun t => !k.shared.any (fun o => o.ctx == c && o.tag == t)

/-- A load of n bytes (M format): ALIGN, then ACCESS; shared space takes a tag and waits for an unresolved branch;
an earlier write in flight to the same bytes is waited for (R167, R172, R178, R186). -/
def loadAct (c : Ctx) (rd rs1 : Nat) (off : BitVec 16) (n : Nat) (sx : Bool) (k : Core) : Issue :=
  let x := ctxOf c k
  let a := (readReg x rs1 + off.signExtend 32).toNat
  if a % n != 0 then .fault fAlign
  else
    match regionOf a with
    | .shared _ =>
      if x.spec.isSome then .stall .none
      else
        match freeSharedTag c k with
        | none => .stall .tag
        | some t => .done (setCtx c (retire x)
            { k with shared := k.shared ++ [{ tag := t, ctx := c, rd := rd, addr := a, size := n, sx := sx }] })
    | .other => .fault fAccess
    | _ =>
      if pullOverlaps k a n && c == .head then .stall .pull
      else if vstOverlaps c k a n then .stall .none
      else
        let v := leNat (localBytes k a n)
        let w : Word := if sx then (match n with
            | 1 => (BitVec.ofNat 8 v).signExtend 32
            | 2 => (BitVec.ofNat 16 v).signExtend 32
            | _ => BitVec.ofNat 32 v)
          else BitVec.ofNat 32 v
        reading c (localHit a n) k fun k => result c rd (fun _ _ => w) k

def formLoad (e : Nat) (c : Ctx) (rd rs1 : Nat) (off : BitVec 16) (n : Nat) (sx : Bool) (s : State) : State :=
  issue e c true [rs1, rd] (loadAct c rd rs1 off n sx) s

/-- The address a store names. -/
def storeAddr (x : CtxSt) (rs1 : Nat) (off : BitVec 16) : Nat := (readReg x rs1 + off.signExtend 32).toNat

/-- A store of n bytes; a word stored to in part is read for it (R163, R167, R178). -/
def storeAct (c : Ctx) (rs2 rs1 : Nat) (off : BitVec 16) (n : Nat) (k : Core) : Issue :=
  let x := ctxOf c k
  let a := storeAddr x rs1 off
  if a % n != 0 then .fault fAlign
  else if !mayStore c a n then .fault fAccess
  else if pullOverlaps k a n && c == .head then .stall .pull
  else if vstOverlaps c k a n || vldOverlaps c k a n then .stall .none
  else
    let data := leBytes n (readReg x rs2).toNat
    reading c (partHit a n) k fun k =>
      .done (emit [.mem c a data] (setCtx c (retire x) (writeWords a n (storeLocal k a data))))

def formStore (e : Nat) (c : Ctx) (rs2 rs1 : Nat) (off : BitVec 16) (n : Nat) (s : State) : State :=
  issue e c false [rs2, rs1] (storeAct c rs2 rs1 off n) s

end Sys2Proof.Machine
end

