-- ==== Sys2Proof/Machine/Flags.lean ====
section
/-! DEFINITION. FLAGS, TAGFREE and the special registers of a context (R169 to R171). Integer arithmetic sets no
flag (R176); the only flags an instruction sets are the VEXC bits of the coprocessor. -/

namespace Sys2Proof.Machine

/-- FLAGS of a context: VEXC, bits 7:1 as of the release, CTX (R170). -/
def flagsOf (c : Ctx) (x : CtxSt) : Word :=
  packWord [(0, if c == .ext then 1 else 0), (1, x.flags.toNat), (16, x.vexc.toNat)]

/-- FLAGS bits 7:1 of a context at a release (R170). -/
def releaseFlags (c : Ctx) (hreq : Bool) (heads : Nat) (comm harb hold : Bool) : BitVec 7 :=
  BitVec.ofNat 7 (b2n hold + 2 * b2n harb + 4 * b2n comm + 8 * ((heads - 1) % 8) +
    64 * b2n (hreq && c == .head))

/-- TAGFREE of the reading context (R171, R173). -/
def tagFree (c : Ctx) (k : Core) : Word :=
  match c with
  | .head => packWord [(0, 32 - pullsInUse k), (8, 16 - copsInUse .head k), (16, 8 - sharedInUse .head k),
      (24, 8 - postsInUse k)]
  | .ext => packWord [(8, 8 - copsInUse .ext k), (16, 8 - sharedInUse .ext k)]

/-- BELLHI as the context reads it: a value latched past a branch is held (R186). -/
def bellHiOf (x : CtxSt) : BitVec 16 :=
  match x.spec with
  | some sp => sp.heldBell.getD x.bellHi
  | none => x.bellHi

/-- Reading the low half latches the high half for its context. DESIGN CHOICE, log 132: R164 does not list BELLHI among the state
of a context; the model keeps one for each. -/
def latchBellHi (t : Bell) (x : CtxSt) : CtxSt :=
  let hi : BitVec 16 := (t >>> 32).setWidth 16
  match x.spec with
  | some sp => { x with spec := some { sp with heldBell := some hi } }
  | none => { x with bellHi := hi }

/-- A read of a special register, and what it latches (R169). -/
def readSpecial (c : Ctx) (sel : Nat) (b : BellSt) (k : Core) (x : CtxSt) : Option (Word × CtxSt) :=
  match sel with
  | 0 => some (x.pc, x)
  | 1 => some (flagsOf c x, x)
  | 2 => some (b.landNo, x)
  | 3 => some (b.time.setWidth 32, latchBellHi b.time x)
  | 4 => some ((bellHiOf x).setWidth 32, x)
  | 5 => some (tagFree c k, x)
  | _ => none

end Sys2Proof.Machine
end

