-- ==== Sys2Proof/Machine/Alu.lean ====
section
/-! DEFINITION. The integer ALU, immediates, loads, stores, branches and jumps of Dyhar (R176, R186). -/

namespace Sys2Proof.Machine

/-! ### Integer ALU, R format -/

def sltWord (a b : Word) : Word := if BitVec.slt a b then 1 else 0
def sltuWord (a b : Word) : Word := if BitVec.ult a b then 1 else 0
def mulhWord (a b : Word) : Word := BitVec.ofInt 32 (a.toInt * b.toInt / 2 ^ 32)
def mulhuWord (a b : Word) : Word := BitVec.ofNat 32 (a.toNat * b.toNat / 2 ^ 32)
def minWord (a b : Word) : Word := if BitVec.slt b a then b else a
def maxWord (a b : Word) : Word := if BitVec.slt a b then b else a
def minuWord (a b : Word) : Word := if BitVec.ult b a then b else a
def maxuWord (a b : Word) : Word := if BitVec.ult a b then b else a
/-- ABS of 0x80000000 is 0x80000000 (R176). -/
def absWord (a : Word) : Word := if a.msb then -a else a
/-- Leading zero bits, 0 to 32 (R176). -/
def clzWord (a : Word) : Word := BitVec.ofNat 32 (if a = 0 then 32 else 31 - a.toNat.log2)

def execAdd (e : EngIx) (c : Ctx) (rd rs1 rs2 : GReg) (s : State) : Out :=
  .next (formR e c rd rs1 rs2 ((· + ·)) s)

def execSub (e : EngIx) (c : Ctx) (rd rs1 rs2 : GReg) (s : State) : Out :=
  .next (formR e c rd rs1 rs2 ((· - ·)) s)

def execAnd (e : EngIx) (c : Ctx) (rd rs1 rs2 : GReg) (s : State) : Out :=
  .next (formR e c rd rs1 rs2 ((· &&& ·)) s)

def execOr (e : EngIx) (c : Ctx) (rd rs1 rs2 : GReg) (s : State) : Out :=
  .next (formR e c rd rs1 rs2 ((· ||| ·)) s)

def execXor (e : EngIx) (c : Ctx) (rd rs1 rs2 : GReg) (s : State) : Out :=
  .next (formR e c rd rs1 rs2 ((· ^^^ ·)) s)

def execSll (e : EngIx) (c : Ctx) (rd rs1 rs2 : GReg) (s : State) : Out :=
  .next (formR e c rd rs1 rs2 (fun a b => a <<< (b.toNat % 32)) s)

def execSrl (e : EngIx) (c : Ctx) (rd rs1 rs2 : GReg) (s : State) : Out :=
  .next (formR e c rd rs1 rs2 (fun a b => a >>> (b.toNat % 32)) s)

def execSra (e : EngIx) (c : Ctx) (rd rs1 rs2 : GReg) (s : State) : Out :=
  .next (formR e c rd rs1 rs2 (fun a b => a.sshiftRight (b.toNat % 32)) s)

def execSlt (e : EngIx) (c : Ctx) (rd rs1 rs2 : GReg) (s : State) : Out :=
  .next (formR e c rd rs1 rs2 (sltWord) s)

def execSltu (e : EngIx) (c : Ctx) (rd rs1 rs2 : GReg) (s : State) : Out :=
  .next (formR e c rd rs1 rs2 (sltuWord) s)

def execMul (e : EngIx) (c : Ctx) (rd rs1 rs2 : GReg) (s : State) : Out :=
  .next (formR e c rd rs1 rs2 ((· * ·)) s)

def execMulh (e : EngIx) (c : Ctx) (rd rs1 rs2 : GReg) (s : State) : Out :=
  .next (formR e c rd rs1 rs2 (mulhWord) s)

def execMulhu (e : EngIx) (c : Ctx) (rd rs1 rs2 : GReg) (s : State) : Out :=
  .next (formR e c rd rs1 rs2 (mulhuWord) s)

def execMin (e : EngIx) (c : Ctx) (rd rs1 rs2 : GReg) (s : State) : Out :=
  .next (formR e c rd rs1 rs2 (minWord) s)

def execMax (e : EngIx) (c : Ctx) (rd rs1 rs2 : GReg) (s : State) : Out :=
  .next (formR e c rd rs1 rs2 (maxWord) s)

def execMinu (e : EngIx) (c : Ctx) (rd rs1 rs2 : GReg) (s : State) : Out :=
  .next (formR e c rd rs1 rs2 (minuWord) s)

def execMaxu (e : EngIx) (c : Ctx) (rd rs1 rs2 : GReg) (s : State) : Out :=
  .next (formR e c rd rs1 rs2 (maxuWord) s)

def execAbs (e : EngIx) (c : Ctx) (rd rs1 : GReg) (s : State) : Out :=
  .next (formI e c rd rs1 absWord s)

def execClz (e : EngIx) (c : Ctx) (rd rs1 : GReg) (s : State) : Out :=
  .next (formI e c rd rs1 clzWord s)

/-! ### Immediates, I format -/

def sext (i : BitVec 16) : Word := i.signExtend 32
def zext (i : BitVec 16) : Word := i.setWidth 32

def execAddi (e : EngIx) (c : Ctx) (rd rs1 : GReg) (imm : BitVec 16) (s : State) : Out :=
  .next (formI e c rd rs1 (fun a => a + sext imm) s)

def execAndi (e : EngIx) (c : Ctx) (rd rs1 : GReg) (imm : BitVec 16) (s : State) : Out :=
  .next (formI e c rd rs1 (fun a => a &&& zext imm) s)

def execOri (e : EngIx) (c : Ctx) (rd rs1 : GReg) (imm : BitVec 16) (s : State) : Out :=
  .next (formI e c rd rs1 (fun a => a ||| zext imm) s)

def execXori (e : EngIx) (c : Ctx) (rd rs1 : GReg) (imm : BitVec 16) (s : State) : Out :=
  .next (formI e c rd rs1 (fun a => a ^^^ zext imm) s)

def execSlti (e : EngIx) (c : Ctx) (rd rs1 : GReg) (imm : BitVec 16) (s : State) : Out :=
  .next (formI e c rd rs1 (fun a => sltWord a (sext imm)) s)

def execSltiu (e : EngIx) (c : Ctx) (rd rs1 : GReg) (imm : BitVec 16) (s : State) : Out :=
  .next (formI e c rd rs1 (fun a => sltuWord a (sext imm)) s)

/-- The shift kinds of SHI; 0b11 is ILLEGAL (R176). -/
def shiWord (kind sh : Nat) (a : Word) : Word :=
  match kind with
  | 0 => a <<< sh
  | 1 => a >>> sh
  | _ => a.sshiftRight sh

def execShi (e : EngIx) (c : Ctx) (rd rs1 : GReg) (kind : Fin 4) (sh : BitVec 5) (s : State) : Out :=
  if kind = 3 then .next (issue e c true [] (fun _ => .fault fIllegal) s)
  else .next (formI e c rd rs1 (shiWord kind sh.toNat) s)

def execLui (e : EngIx) (c : Ctx) (rd : GReg) (imm : BitVec 16) (s : State) : Out :=
  .next (formI e c rd 0 (fun _ => zext imm <<< 16) s)

/-! ### Loads and stores, M format -/

def execLw (e : EngIx) (c : Ctx) (rd rs1 : GReg) (off : BitVec 16) (s : State) : Out :=
  .next (formLoad e c rd rs1 off 4 false s)

def execLh (e : EngIx) (c : Ctx) (rd rs1 : GReg) (off : BitVec 16) (s : State) : Out :=
  .next (formLoad e c rd rs1 off 2 true s)

def execLhu (e : EngIx) (c : Ctx) (rd rs1 : GReg) (off : BitVec 16) (s : State) : Out :=
  .next (formLoad e c rd rs1 off 2 false s)

def execLb (e : EngIx) (c : Ctx) (rd rs1 : GReg) (off : BitVec 16) (s : State) : Out :=
  .next (formLoad e c rd rs1 off 1 true s)

def execLbu (e : EngIx) (c : Ctx) (rd rs1 : GReg) (off : BitVec 16) (s : State) : Out :=
  .next (formLoad e c rd rs1 off 1 false s)

def execSw (e : EngIx) (c : Ctx) (rs2 rs1 : GReg) (off : BitVec 16) (s : State) : Out :=
  .next (formStore e c rs2 rs1 off 4 s)

def execSh (e : EngIx) (c : Ctx) (rs2 rs1 : GReg) (off : BitVec 16) (s : State) : Out :=
  .next (formStore e c rs2 rs1 off 2 s)

def execSb (e : EngIx) (c : Ctx) (rs2 rs1 : GReg) (off : BitVec 16) (s : State) : Out :=
  .next (formStore e c rs2 rs1 off 1 s)

/-- A tagged load completes: its value reaches the register file and its tag returns (R172). -/
def sharedDone (e : Nat) (c : Ctx) (o : SharedOp) (s : State) : State :=
  let v := leNat (localBytes (engOf e s).core o.addr o.size)
  let w : Word := if o.sx then (if o.size = 1 then (BitVec.ofNat 8 v).signExtend 32
      else (BitVec.ofNat 16 v).signExtend 32) else BitVec.ofNat 32 v
  setCore e (fun k => freeStall c (setCtx c (fileWrite (ctxOf c k) o.rd w)
    { k with shared := k.shared.filter fun x => !(x.ctx == c && x.tag == o.tag) })) s

def execSharedLoadComplete (e : EngIx) (c : Ctx) (t : Fin 8) (s : State) : Out :=
  match (engOf e s).core.shared.find? (fun o => o.ctx == c && o.tag == t.val) with
  | some o => .next (sharedDone e c o s)
  | none => .next s

/-! ### Branches and jumps -/

def condHolds (c : Cond) (a b : Word) : Bool :=
  match c with
  | .eq => a == b
  | .ne => a != b
  | .lt => BitVec.slt a b
  | .ge => !BitVec.slt a b
  | .ltu => BitVec.ult a b
  | .geu => !BitVec.ult a b

/-- PC + 4 x sext(off) (R175, R176). -/
def branchTarget (pc : Word) (off : BitVec 16) : Word := pc + (off.signExtend 32 <<< 2)

/-- A conditional branch issues unresolved and is predicted by the sign of its offset (R186). -/
def branchAct (c : Ctx) (cond : Cond) (rs1 rs2 : Nat) (off : BitVec 16) (k : Core) : Issue :=
  let x := ctxOf c k
  let t := branchTarget x.pc off
  .done (setCtx c { x with
    pc := if off.msb then t else x.pc + 4
    spec := some { pc := x.pc, cond := cond, rs1 := rs1, rs2 := rs2, predicted := off.msb, target := t, n := 0,
                   nv := 0, held := [], heldBell := none, tags := [], fault := none, ce := 0 } } k)

def formBranch (e : Nat) (c : Ctx) (cond : Cond) (rs1 rs2 : Nat) (off : BitVec 16) (s : State) : State :=
  issue e c false [] (branchAct c cond rs1 rs2 off) s

def execBeq (e : EngIx) (c : Ctx) (rs1 rs2 : GReg) (off : BitVec 16) (s : State) : Out :=
  .next (formBranch e c .eq rs1 rs2 off s)

def execBne (e : EngIx) (c : Ctx) (rs1 rs2 : GReg) (off : BitVec 16) (s : State) : Out :=
  .next (formBranch e c .ne rs1 rs2 off s)

def execBlt (e : EngIx) (c : Ctx) (rs1 rs2 : GReg) (off : BitVec 16) (s : State) : Out :=
  .next (formBranch e c .lt rs1 rs2 off s)

def execBge (e : EngIx) (c : Ctx) (rs1 rs2 : GReg) (off : BitVec 16) (s : State) : Out :=
  .next (formBranch e c .ge rs1 rs2 off s)

def execBltu (e : EngIx) (c : Ctx) (rs1 rs2 : GReg) (off : BitVec 16) (s : State) : Out :=
  .next (formBranch e c .ltu rs1 rs2 off s)

def execBgeu (e : EngIx) (c : Ctx) (rs1 rs2 : GReg) (off : BitVec 16) (s : State) : Out :=
  .next (formBranch e c .geu rs1 rs2 off s)

/-- A jump: an address outside the code region raises IFETCH (R176, R186). -/
def jumpTo (c : Ctx) (rd : Nat) (t : Word) (k : Core) : Issue :=
  let x := ctxOf c k
  if !inCode c t then .fault fIfetch
  else .done (setCtx c { fileWrite x rd (x.pc + 4) with pc := t, done := x.done + 1 } k)

def jalAct (c : Ctx) (off : BitVec 26) (k : Core) : Issue :=
  jumpTo c 31 ((ctxOf c k).pc + (off.signExtend 32 <<< 2)) k

def execJal (e : EngIx) (c : Ctx) (off : BitVec 26) (s : State) : Out :=
  .next (issue e c false [31] (jalAct c off) s)

def jalrAct (c : Ctx) (rd rs1 : Nat) (imm : BitVec 16) (k : Core) : Issue :=
  let t := readReg (ctxOf c k) rs1 + imm.signExtend 32
  if t.toNat % 4 != 0 then .fault fAlign else jumpTo c rd t k

def execJalr (e : EngIx) (c : Ctx) (rd rs1 : GReg) (imm : BitVec 16) (s : State) : Out :=
  .next (issue e c false [rs1, rd] (jalrAct c rd rs1 imm) s)

/-- Held results reach the register file, oldest first; the branch and what went past it retire (R186). -/
def commitHeld (sp : Spec) (x : CtxSt) : CtxSt :=
  let x := sp.held.foldr (fun p x => fileWrite x p.1 p.2) { x with spec := none }
  { x with bellHi := sp.heldBell.getD x.bellHi, done := x.done + sp.n + 1 }

/-- An operation of a context that awaits its token (R202). -/
def awaits (c : Ctx) (tags : List Nat) (o : CopOp) : Bool :=
  o.ctx == c && tags.contains o.tag && !o.committed && !o.killed

/-- Commit or kill tokens go to the speculative dispatches (R186, R202). -/
def tokens (c : Ctx) (commit : Bool) (tags : List Nat) (ops : List CopOp) : List CopOp :=
  if commit then ops.map fun o => if awaits c tags o then { o with committed := true } else o
  else killOps (awaits c tags) ops

/-- The tags of tokens that find no operation awaiting one (R197). -/
def strayTags (c : Ctx) (tags : List Nat) (ops : List CopOp) : List Nat :=
  tags.filter fun t => !ops.any fun o => awaits c [t] o

/-- Tokens arrive at the coprocessor, words of the DISP lane; a stray one raises SEQ (R197, R202, R212). -/
def sendTokens (c : Ctx) (commit : Bool) (tags : List Nat) (k : Core) : Core :=
  let stray := strayTags c tags k.cops
  let x := ctxOf c k
  let x := if stray.isEmpty then x else
    { x with vexc := x.vexc ||| 0x80, fatal := x.fatal ++ stray.map fun t => (t, none, fVexc) }
  emit (tags.map fun t => .token t commit) (setCtx c x { k with cops := tokens c commit tags k.cops })

/-- A squashed instruction that stalled the context stalls it no more. -/
def freeSquashed (c : Ctx) (k : Core) : Core :=
  if (ctxOf c k).block == .tag || (ctxOf c k).block == .pull then setCtx c { ctxOf c k with block := .none } k else k

/-- Kill tokens for the dispatches past a branch: the context goes on as x. -/
def squash (c : Ctx) (sp : Spec) (x : CtxSt) (k : Core) : Core := freeSquashed c (sendTokens c false sp.tags (setCtx c x k))

/-- A branch as its context resolves it: taken or not, and whether to an address outside its code region (R186). -/
def branchTaken (c : Ctx) (sp : Spec) (k : Core) : Bool :=
  let base := { ctxOf c k with spec := none }
  condHolds sp.cond (readReg base sp.rs1) (readReg base sp.rs2)

/-- A branch taken to an address outside the code region faults at it (R186). -/
def branchFaults (c : Ctx) (sp : Spec) (k : Core) : Bool := branchTaken c sp k && !inCode c sp.target

/-- A branch is squashed: it faults, or has been predicted wrongly. -/
def branchSquashes (c : Ctx) (sp : Spec) (k : Core) : Bool := branchFaults c sp k || branchTaken c sp k != sp.predicted

/-- The resolution of the unresolved branch: held results are written, or everything issued past it is squashed. -/
def resolveCore (c : Ctx) (k : Core) : Core :=
  let x := ctxOf c k
  match x.spec with
  | none => k
  | some sp =>
    let base := { x with spec := none }
    if branchFaults c sp k then squash c sp { base with pc := sp.pc } k
    else if branchSquashes c sp k then
      squash c sp { base with pc := if branchTaken c sp k then sp.target else sp.pc + 4, done := x.done + 1 } k
    else { sendTokens c true sp.tags (setCtx c (commitHeld sp x) k) with ceNew := k.ceNew + sp.ce }

/-- The unresolved branch resolves, and the fault of the branch or of an instruction held past it follows (R186, R205). -/
def resolveBranch (e : Nat) (c : Ctx) (sp : Spec) (s : State) : State :=
  let k := (engOf e s).core
  let s1 := setCore e (resolveCore c) s
  if branchSquashes c sp k then
    let s2 := failCheck (killsFailed (awaits c sp.tags) k.cops) e s1
    if branchFaults c sp k then ctxFault e c fIfetch s2 else s2
  else
    match sp.fault with
    | some (code, _) => ctxFault e c code s1
    | none => s1

def execBranchResolve (e : EngIx) (c : Ctx) (s : State) : Out :=
  let k := (engOf e s).core
  match (ctxOf c k).spec with
  | some sp =>
    if (ctxOf c k).halted.isSome || k.head.halted.isSome || regInFlight c k sp.rs1 || regInFlight c k sp.rs2 then .next s
    else .next (resolveBranch e c sp s)
  | none => .next s

end Sys2Proof.Machine
end

