-- ==== Sys2Proof/Machine/Cop.lean ====
section
/-! DEFINITION. The signal coprocessor: dispatch, start, end, completion, VWAIT (09, R176, R178). -/

namespace Sys2Proof.Machine

/-! ### Dispatch (R174, R186, R198, R200) -/

/-- Tag numbers of a context (R173). -/
def tagInRange (c : Ctx) (t : Nat) : Bool :=
  match c with
  | .head => t < 16
  | .ext => 16 ≤ t && t < 24

def vecReg (x : CtxSt) (r : Nat) : Vec := tabGet .zero x.v r

/-- Source registers of an operation (R176, R195). -/
def copSources (o : CopOp) : List Nat :=
  match o.kind with
  | .vld => []
  | .vst => [o.va]
  | .vfir => if o.mode % 4 = 3 then [o.va, o.vb, (o.vb + 1) % 16] else [o.va, o.vb]
  | .vmac => [o.vd, o.va, o.vb]
  | .vnorm => [o.va]
  | .vscale => [o.va]
  | .vred => [o.va]
  | .vcorr => [o.va, o.vb]
  | .vmag => [o.va, o.vb]
  | .vadd => [o.va, o.vb]
  | .vmax => [o.va, o.vb]

/-- The destination register, which a VST does not have. -/
def copDest (o : CopOp) : Option Nat := if o.kind == .vst then none else some o.vd

/-- Modes of an operation (R176). -/
def modeOk (kind : CopKind) (mode : Nat) : Bool :=
  match kind with
  | .vld => mode < 4
  | .vst => mode < 2
  | .vfir => mode < 4
  | .vmac => mode = 0
  | .vcorr => mode = 0
  | .vnorm => mode = 0
  | .vmag => mode < 2
  | .vadd => mode < 2
  | .vscale => mode < 2
  | .vmax => mode < 2
  | .vred => mode < 3

/-- The checks the core makes at issue: R167, alignment, and the exponent word of a mode 0 VLD (R177, R200). DESIGN CHOICE, log
135: the coefficients of a VFIR, to which R176 gives no alignment, stand on a multiple of 4. -/
def copAddrCheck (c : Ctx) (kind : CopKind) (mode a : Nat) (k : Core) : Option Nat :=
  match kind with
  | .vld =>
    if a % (if mode = 0 then 4 else 2) != 0 then some fAlign
    else if !mayLoad a (vldSpan mode) then some fAccess
    else if mode = 0 then
      let e : Word := BitVec.ofNat 32 (leNat (localBytes k (a + 32) 4))
      if -128 ≤ e.toInt ∧ e.toInt ≤ 127 then none else some fAccess
    else none
  | .vst =>
    if a % (if mode = 0 then 4 else 2) != 0 then some fAlign
    else if !mayStore c a (vstSpan mode) then some fAccess else none
  | .vfir =>
    let n := if mode % 4 = 3 then 72 else 36
    if a % 4 != 0 then some fAlign
    else (match regionOf a, regionOf (a + n - 1) with
      | .vmem _, .vmem _ => none
      | _, _ => some fAccess)
  | _ => none

/-- A fatal exception that the dispatch meets (R198). -/
def fatalHit (x : CtxSt) (o : CopOp) : Option Nat :=
  (x.fatal.find? fun f => f.1 == o.tag || f.2.1.any fun r => (copSources o).contains r || copDest o == some r).map (·.2.2)

def dispatchAct (c : Ctx) (kind : CopKind) (t vd va vb gs mode : Nat) (k : Core) : Issue :=
  let x := ctxOf c k
  let o : CopOp := { tag := t, ctx := c, kind := kind, vd := vd, va := va, vb := vb, gs := readReg x gs,
                     mode := mode, committed := x.spec.isNone, killed := false, stage := .queued, res := .zero,
                     exc := 0, discard := false, ded := false, ce := 0 }
  let image := fun x => kind == .vld && mode == 0 && localHit (o.gs.toNat + 32) 4 x
  if !tagInRange c t || !modeOk kind mode then .fault fIllegal
  else
    match fatalHit x o with
    | some code => .fault code
    | none =>
      if x.spec.any (fun sp => 4 ≤ sp.nv) then .stall .none
      else if k.cops.any (fun p => p.tag == t) then .stall .tag
      else if kind == .vld && mode == 0 && c == .head && pullOverlaps k o.gs.toNat 36 then
        .stall .pull
      else if kind == .vld && mode == 0 && vstOverlaps c k o.gs.toNat 36 then .stall .none
      else
        match copAddrCheck c kind mode o.gs.toNat k with
        | some code => .fault code
        | none =>
          reading c image k fun k =>
            let x' := retire (ctxOf c k)
            let x' := { x' with spec := x'.spec.map fun sp => { sp with nv := sp.nv + 1, tags := sp.tags ++ [t] } }
            .done (emit [.disp c kind t vd va vb gs mode o.gs x.spec.isSome] (setCtx c x' { k with cops := k.cops ++ [o] }))

def dispatch (e : Nat) (c : Ctx) (kind : CopKind) (t vd va vb gs mode : Nat) (s : State) : State :=
  issue e c true [gs] (dispatchAct c kind t vd va vb gs mode) s

def execVld (e : EngIx) (c : Ctx) (t : BitVec 5) (vd : VReg) (gs : GReg) (m : BitVec 4) (s : State) : Out :=
  .next (dispatch e c .vld t.toNat vd 0 0 gs m.toNat s)

def execVst (e : EngIx) (c : Ctx) (t : BitVec 5) (va : VReg) (gs : GReg) (m : BitVec 4) (s : State) : Out :=
  .next (dispatch e c .vst t.toNat 0 va 0 gs m.toNat s)

def execVfir (e : EngIx) (c : Ctx) (t : BitVec 5) (vd va vb : VReg) (gs : GReg) (m : BitVec 4) (s : State) : Out :=
  .next (dispatch e c .vfir t.toNat vd va vb gs m.toNat s)

def execVmac (e : EngIx) (c : Ctx) (t : BitVec 5) (vd va vb : VReg) (m : BitVec 4) (s : State) : Out :=
  .next (dispatch e c .vmac t.toNat vd va vb 0 m.toNat s)

def execVcorr (e : EngIx) (c : Ctx) (t : BitVec 5) (vd va vb : VReg) (m : BitVec 4) (s : State) : Out :=
  .next (dispatch e c .vcorr t.toNat vd va vb 0 m.toNat s)

def execVmag (e : EngIx) (c : Ctx) (t : BitVec 5) (vd va vb : VReg) (m : BitVec 4) (s : State) : Out :=
  .next (dispatch e c .vmag t.toNat vd va vb 0 m.toNat s)

def execVnorm (e : EngIx) (c : Ctx) (t : BitVec 5) (vd va : VReg) (m : BitVec 4) (s : State) : Out :=
  .next (dispatch e c .vnorm t.toNat vd va 0 0 m.toNat s)

def execVadd (e : EngIx) (c : Ctx) (t : BitVec 5) (vd va vb : VReg) (m : BitVec 4) (s : State) : Out :=
  .next (dispatch e c .vadd t.toNat vd va vb 0 m.toNat s)

def execVscale (e : EngIx) (c : Ctx) (t : BitVec 5) (vd va : VReg) (gs : GReg) (m : BitVec 4) (s : State) : Out :=
  .next (dispatch e c .vscale t.toNat vd va 0 gs m.toNat s)

def execVmax (e : EngIx) (c : Ctx) (t : BitVec 5) (vd va vb : VReg) (m : BitVec 4) (s : State) : Out :=
  .next (dispatch e c .vmax t.toNat vd va vb 0 m.toNat s)

def execVred (e : EngIx) (c : Ctx) (t : BitVec 5) (vd va : VReg) (m : BitVec 4) (s : State) : Out :=
  .next (dispatch e c .vred t.toNat vd va 0 0 m.toNat s)

/-! ### VWAIT -/

/-- The tags a VWAIT waits for; mask 0 names every tag of the context (R176). -/
def waitTags (c : Ctx) (mask : BitVec 24) : List Nat :=
  (List.range 24).filter fun t => if mask = 0 then tagInRange c t else mask.getLsbD t

def tagsBack (c : Ctx) (mask : BitVec 24) (k : Core) : Bool :=
  !k.cops.any fun o => (waitTags c mask).contains o.tag

def waitFatal (c : Ctx) (mask : BitVec 24) (x : CtxSt) : Option Nat :=
  (x.fatal.find? fun f => (waitTags c mask).contains f.1).map (·.2.2)

def vwaitAct (c : Ctx) (mask : BitVec 24) (k : Core) : Issue :=
  let x := ctxOf c k
  if (waitTags c mask).any fun t => !tagInRange c t then .fault fIllegal
  else
    match waitFatal c mask x with
    | some code => .fault code
    | none => if tagsBack c mask k then .done (setCtx c (retire x) k) else .stall (.vwait mask)

def execVwait (e : EngIx) (c : Ctx) (mask : BitVec 24) (s : State) : Out :=
  .next (issue e c false [] (vwaitAct c mask) s)

/-- The awaited tags have returned (R176, R198). -/
def execVwaitResume (e : EngIx) (c : Ctx) (s : State) : Out :=
  let k := (engOf e s).core
  match (ctxOf c k).block with
  | .vwait mask =>
    if tagsBack c mask k then
      match waitFatal c mask (ctxOf c k) with
      | some code => .next (ctxFault e c code s)
      | none => .next (setCore e (fun k => setCtx c (retire { ctxOf c k with block := .none }) k) s)
    else .next s
  | _ => .next s

/-! ### Start (R199, R201) -/

/-- Units (R199). -/
inductive CopUnit where
  | loadStore
  | mac
  | simple
  | rotation
  deriving DecidableEq, Repr

def unitOf (o : CopOp) : CopUnit :=
  match o.kind with
  | .vld => .loadStore
  | .vst => .loadStore
  | .vfir => .mac
  | .vmac => .mac
  | .vcorr => .mac
  | .vscale => if o.mode = 1 then .mac else .simple
  | .vred => if o.mode = 2 then .mac else .simple
  | .vadd => .simple
  | .vmax => .simple
  | .vnorm => .simple
  | .vmag => .rotation

/-- The operations dispatched before the one with tag t. -/
def opsBefore (t : Nat) : List CopOp → List CopOp
  | [] => []
  | o :: r => if o.tag = t then [] else o :: opsBefore t r

/-- An operation of its context is ready to start, its unit apart; a VST waits in the store buffer, not in the hold register
(R201, R203). -/
def copReady (o : CopOp) (k : Core) : Bool :=
  let before := (opsBefore o.tag k.cops).filter fun p => p.ctx == o.ctx && !p.killed
  let regs := copSources o ++ (copDest o).toList
  o.stage == .queued && !o.killed &&
  !before.any (fun p => p.stage == .queued) &&
  !before.any (fun p => (copDest p).any fun d => regs.contains d) &&
  !k.cops.any (fun p => p.ctx == o.ctx && unitOf p == unitOf o && p.stage == .computed && p.kind != .vst) &&
  (match o.kind with
   | .vst => !(o.ctx == .head && pullOverlaps k o.gs.toNat (vstSpan o.mode)) &&
      !before.any (fun p => p.kind == .vst && overlap o.gs.toNat (vstSpan o.mode) p.gs.toNat (vstSpan p.mode))
   | _ => !(o.ctx == .head && k.pulls.any fun p => readsOverlap o p.addr 16) &&
      !before.any (fun p => p.kind == .vst && readsOverlap o p.gs.toNat (vstSpan p.mode)))

def unitFree (u : CopUnit) (k : Core) : Bool := !k.cops.any fun p => unitOf p == u && p.stage == .running

/-- The head context's ready operation goes first (R201). -/
def headFirst (o : CopOp) (k : Core) : Bool :=
  o.ctx == .head || !k.cops.any fun p => p.ctx == .head && unitOf p == unitOf o && copReady p k

/-- The vector a VLD reads (R176, R177). -/
def vldValue (k : Core) (a mode : Nat) : Vec :=
  let at_ := fun i => (BitVec.ofNat 16 (leNat (localBytes k (a + i) 2)) : BitVec 16)
  match mode with
  | 0 => { m := (List.range 16).map fun i => at_ (2 * i), e := localByte k (a + 32) }
  | 1 => { m := (List.range 16).map fun i => at_ (2 * i), e := 0 }
  | 2 => { m := (List.range 16).map fun i => at_ (4 * i), e := 0 }
  | _ => { m := (List.range 16).map fun i => at_ (16 * i), e := 0 }

/-- A coefficient image; an exponent word outside the range of R177 leaves the exponent open: a free value. -/
def coeffImage (k : Core) (a free : Nat) : Vec :=
  let e : Word := BitVec.ofNat 32 (leNat (localBytes k (a + 32) 4))
  let v := vldValue k a 0
  if -128 ≤ e.toInt ∧ e.toInt ≤ 127 then v else { v with e := (Config.freeWord free).setWidth 8 }

/-- The result of an operation from its operands as they stand at its start (R194, R201). -/
def copCompute (o : CopOp) (k : Core) (free : Nat) : CopResult :=
  let x := ctxOf o.ctx k
  let a := vecReg x o.va
  let b := vecReg x o.vb
  match o.kind with
  | .vld => (vldValue k o.gs.toNat o.mode, 0)
  | .vst => (a, 0)
  | .vfir => vfirLanes (firTaps o.mode) (coeffImage k o.gs.toNat free) (coeffImage k (o.gs.toNat + 36) free) a b
      (vecReg x ((o.vb + 1) % 16))
  | .vmac => vmacLanes (vecReg x o.vd) a b
  | .vcorr => vcorrLanes a b
  | .vmag => vmagLanes o.mode a b
  | .vnorm => outLanes (lanes a)
  | .vadd => vaddLanes o.mode a b
  | .vscale => vscaleLanes o.mode a o.gs
  | .vmax => vmaxLanes o.mode a b
  | .vred => vredLanes o.mode a

def setOp (t : Nat) (f : CopOp → CopOp) (k : Core) : Core :=
  { k with cops := k.cops.map fun o => if o.tag = t then f o else o }

def dropOp (c : Ctx) (t : Nat) (k : Core) : Core :=
  freeStall c { k with cops := k.cops.filter fun o => o.tag != t }

/-- The words an operation reads at its start (R163). -/
def startHit (o : CopOp) (x : EccErr) : Bool :=
  (readPieces o.kind o.mode).any fun p => localHit (o.gs.toNat + p.1) p.2 x

/-- An operation reads its operands and starts; what its reads met waits for its completion (R198, R201). -/
def startOp (o : CopOp) (free : Nat) (k : Core) : Core :=
  let r := copCompute o k free
  mend (startHit o) (setOp o.tag (fun p => { p with
    stage := .running, res := r.1, exc := r.2, ded := doubles (startHit o) k, ce := singles (startHit o) k }) k)

def copStarts (o : CopOp) (k : Core) : Bool := copReady o k && unitFree (unitOf o) k && headFirst o k

def execCopOpStart (e : EngIx) (t : TagIx) (s : State) : Out :=
  let k := (engOf e s).core
  match k.cops.find? (fun o => o.tag == t.val) with
  | some o =>
    if copStarts o k then .next (drawFree (setCore e (startOp o s.free) s)) else .next s
  | none => .next s

/-! ### Completion (R203 to R206) -/

/-- Post an operation's exceptions; a fatal one waits for the instruction that meets it (R197, R198). DESIGN CHOICE, log 136: of an
uncorrectable memory error and a fatal exception of one operation, the memory error is met first. -/
def postExc (o : CopOp) (x : CtxSt) : CtxSt :=
  { x with vexc := x.vexc ||| o.exc,
           fatal := x.fatal ++ (if o.ded then [(o.tag, copDest o, fEccDed)] else []) ++
             (if o.exc.toNat / 64 != 0 then [(o.tag, copDest o, fVexc)] else []) }

/-- A vector store takes effect; the words it covers in part are read for it (R163). -/
def storeVec (o : CopOp) (k : Core) : Core :=
  let data := if o.mode = 0 then vecImage o.res else vecMantissas o.res
  let part := partHit o.gs.toNat data.length
  let o := { o with ded := o.ded || doubles part k, ce := o.ce + singles part k }
  let k := writeWords o.gs.toNat data.length (mend part (storeLocal k o.gs.toNat data))
  emit [.mem o.ctx o.gs.toNat data] { setCtx o.ctx (postExc o (ctxOf o.ctx k)) k with ceNew := k.ceNew + o.ce }

/-- The result of an arithmetic operation or a load reaches its register in both cores (R201, R212). -/
def writeVec (o : CopOp) (k : Core) : Core :=
  let x := ctxOf o.ctx k
  emit [.vec o.ctx o.vd o.res]
    { setCtx o.ctx (postExc o { x with v := tabSet .zero x.v o.vd o.res }) k with ceNew := k.ceNew + o.ce }

/-- A committed operation completes: vd or memory is written and exceptions are posted, unless its results are discarded; the
tag returns (R187, R206). -/
def completeOp (o : CopOp) (k : Core) : Core :=
  dropOp o.ctx o.tag (if o.discard then k else match o.kind with
    | .vst => storeVec o k
    | _ => writeVec o k)

/-- The fatal exception that a waiting WLAND meets (R198). -/
def wlandFatal (k : Core) : Option Nat :=
  match k.head.block, k.head.fatal with
  | .wland _, f :: _ => some f.2.2
  | _, _ => none

/-- A WLAND that waits faults at a fatal exception (R198). -/
def meetWland (e : Nat) (s : State) : State :=
  match wlandFatal (engOf e s).core with
  | some code => ctxFault e .head code s
  | none => s

def execCopComplete (e : EngIx) (t : TagIx) (s : State) : Out :=
  let k := (engOf e s).core
  match k.cops.find? (fun o => o.tag == t.val) with
  | some o =>
    if o.stage == .computed && o.committed && !o.killed then .next (meetWland e (setCore e (completeOp o) s)) else .next s
  | none => .next s

end Sys2Proof.Machine
end

