-- ==== Sys2Proof/Machine/Sys.lean ====
section
/-! DEFINITION. Stream, event, time and system instructions, and their completions (R176, R179 to R185, R205). -/

namespace Sys2Proof.Machine

/-! ### Events as 16 bytes (R107, R182) -/

def headCode (h : HeadState) : Nat :=
  match h with
  | .unassigned => 0
  | .baseline => 1
  | .occupiedAtStart => 2
  | .idle => 3
  | .passage => 4
  | .standing => 5
  | .suspect => 6
  | .fault => 7

/-- Codes 0x8 to 0xF are treated as FAULT (R102). -/
def headOfCode (n : Nat) : HeadState :=
  match n with
  | 0 => .unassigned
  | 1 => .baseline
  | 2 => .occupiedAtStart
  | 3 => .idle
  | 4 => .passage
  | 5 => .standing
  | 6 => .suspect
  | _ => .fault

/-- HEAD_STAT [7:0] (R105). -/
def statByte (st : HeadState) (back side a b : Bool) : Nat :=
  headCode st + 16 * b2n a + 32 * b2n b + 64 * b2n side + 128 * b2n back

def parseState (l : List Byte) : StateEv :=
  let x := fieldLE l 0 1
  { head := fieldLE l 2 2 % 512, state := headOfCode (x % 16), back := bitsNat x 7 1 == 1,
    side := bitsNat x 6 1 == 1, a := bitsNat x 4 1 == 1, b := bitsNat x 5 1 == 1, cause := fieldLE l 1 1,
    baseA := BitVec.ofNat 32 (fieldLE l 4 4), baseB := BitVec.ofNat 32 (fieldLE l 8 4),
    chg := bitsNat (fieldLE l 12 1) 0 1 == 1 }

/-- The wheel record of a PASS operand (R107, R108). -/
def parseRec (l : List Byte) : WheelRec :=
  let hdc := fieldLE l 6 2
  { centre := BitVec.ofNat 48 (fieldLE l 0 6), cls := bitsNat hdc 10 4, dir := bitsNat hdc 9 1 == 1,
    head := hdc % 512, speed := fieldLE l 8 2, spacing := fieldLE l 10 2, conf := fieldLE l 12 1,
    flags := fieldLE l 13 1, rsv := bitsNat hdc 14 2 }

/-- The 16 bytes of a wheel record (R107, R110). -/
def recBytes (r : WheelRec) : List Byte :=
  let b := leBytes 6 r.centre.toNat ++ leBytes 2 (r.head + 512 * b2n r.dir + 1024 * r.cls + 16384 * r.rsv) ++
    leBytes 2 r.speed ++ leBytes 2 r.spacing ++ leBytes 1 r.conf ++ leBytes 1 r.flags
  b ++ leBytes 2 (crc16 b).toNat

/-- The 16 bytes of a STATE event's operand (R182). -/
def stateBytes (v : StateEv) : List Byte :=
  let b := leBytes 1 (statByte v.state v.back v.side v.a v.b) ++ leBytes 1 v.cause ++ leBytes 2 v.head ++
    leBytes 4 v.baseA.toNat ++ leBytes 4 v.baseB.toNat ++ leBytes 2 (b2n v.chg)
  b ++ leBytes 2 (crc16 b).toNat

/-- The post of an event, with its kind (R182, R212). -/
def postWord (x : Event) : LaneWord :=
  match x with
  | .state v => .post 1 (stateBytes v)
  | .pass r => .post 2 (recBytes r)

def operandCrcOk (l : List Byte) : Bool := (crc16 (l.take 14)).toNat == fieldLE l 14 2

/-! ### Stream access (R179, R180) -/

/-- Heads served; a window feeds slot 0 (R216, R217). -/
def headsServed (g : Eng) : Nat := max 1 g.slots.length

/-- The head context has executed WLAND (R181). -/
def waitsLand (x : CtxSt) : Bool :=
  match x.block with
  | .wland _ => true
  | _ => false

/-- The number of entries of a slot that no issued PULL has claimed (R179). -/
def unclaimed (k : Core) (slot : Nat) : Nat :=
  (queueOf slot k).length - (k.pulls.filter fun p => p.slot == slot).length

def entryWord (x : Entry) (w : Nat) : Word :=
  match w with
  | 0 => x.w0
  | 1 => x.w1
  | 2 => x.w2
  | _ => x.w3

def nextUnclaimed (k : Core) (slot : Nat) : Option Entry :=
  (queueOf slot k)[(k.pulls.filter fun p => p.slot == slot).length]?

def pullAct (c : Ctx) (heads rd rs1 slot : Nat) (k : Core) : Issue :=
  let x := ctxOf c k
  let a := (readReg x rs1).toNat
  if c == .ext then .fault fPriv
  else if heads ≤ slot then .fault fStream
  else if k.marks.contains slot then .fault fStream
  else if a % 16 != 0 then .fault fAlign
  else if !mayStore .head a 16 then .fault fAccess
  else if 32 ≤ pullsInUse k then .stall .tag
  else if pullOverlaps k a 16 then .stall .pull
  else if vstOverlaps .head k a 16 || vldOverlaps .head k a 16 then .stall .none
  else .done (setCtx c (retire x) { k with pulls := k.pulls ++ [{ slot := slot, rd := rd, addr := a }] })

def execPull (e : EngIx) (c : Ctx) (rd rs1 : GReg) (slot : Fin 8) (s : State) : Out :=
  .next (issue e c false [rs1, rd] (pullAct c (headsServed (engOf e s)) rd rs1 slot) s)

/-- What pulling an entry does to the slot's bubble record and to its mark (R179, R181). -/
def noteEntry (slot : Nat) (x : Entry) (k : Core) : Core :=
  let b := tabGet .reset k.bub slot
  match entryKind x with
  | 0 => { k with bub := tabSet .reset k.bub slot { b with sum := 0 } }
  | 1 =>
    let b1 : BubRec := { w0 := x.w2.setWidth 24, contIn := x.w3.getLsbD 0, contOut := x.w3.getLsbD 1, valid := true,
                         sum := min 0xFFFFFFFF (b.sum + bitsNat x.w2.toNat 0 16) }
    { k with bub := tabSet .reset k.bub slot b1 }
  | _ => { k with marks := insertKey slot k.marks }

def entryBytes (x : Entry) : List Byte :=
  leBytes 4 x.w0.toNat ++ leBytes 4 x.w1.toNat ++ leBytes 4 x.w2.toNat ++ leBytes 4 x.w3.toNat

/-- Remove the first PULL that names a slot. -/
def dropPull (slot : Nat) : List PullOp → List PullOp
  | [] => []
  | p :: t => if p.slot = slot then t else p :: dropPull slot t

/-- The head context issues again once its registers or tags are free (R164, R174). -/
def freePull (k : Core) : Core :=
  if k.head.block == .pull || k.head.block == .tag then { k with head := { k.head with block := .none } } else k

/-- The entry in front of a slot is read and leaves the queue; what waits to be replayed moves up (R163, R222). -/
def takeFront (cap slot : Nat) (x : Entry) (rest : List Entry) (k : Core) : Core :=
  let k := { k with ceNew := k.ceNew + singles (streamHit slot 0 3) k }
  refill cap slot (noteEntry slot x (dequeue slot rest k))

/-- A PULL completes: 16 bytes to memory, word 1 to rd (R176). -/
def completePull (cap : Nat) (p : PullOp) (x : Entry) (rest : List Entry) (k : Core) : Core :=
  let k := takeFront cap p.slot x rest { k with pulls := dropPull p.slot k.pulls }
  let k := writeWords p.addr 16 (storeLocal k p.addr (entryBytes x))
  freePull (emit [.mem .head p.addr (entryBytes x)] { k with head := fileWrite k.head p.rd x.w1 })

def execPullComplete (e : EngIx) (s : State) : Out :=
  let k := (engOf e s).core
  match k.pulls.find? (fun p => !(queueOf p.slot k).isEmpty) with
  | some p =>
    if k.marks.contains p.slot then .next (ctxFault e .head fStream s)
    else
      match queueOf p.slot k with
      | x :: rest =>
        if doubles (streamHit p.slot 0 3) k then .next (ctxFault e .head fEccDed s)
        else .next (setCore e (completePull (queueCap (engOf e s)) p x rest) s)
      | [] => .next s
  | none => .next s

/-- The word of the stream buffer that a PEEK reads (R163, R179). -/
def peekHit (k : Core) (slot w : Nat) : EccErr → Bool :=
  let n := 4 * (k.pulls.filter fun p => p.slot == slot).length + w
  streamHit slot n n

def peekAct (c : Ctx) (heads rd slot w : Nat) (n : Bool) (k : Core) : Issue :=
  let x := ctxOf c k
  if c == .ext then .fault fPriv
  else if heads ≤ slot then .fault fStream
  else if n then
    if 32 ≤ pullsInUse k then .stall .tag
    else .done (setCtx c (retire (writeReg x rd (BitVec.ofNat 32 (unclaimed k slot)))) k)
  else if k.marks.contains slot then .fault fStream
  else if 32 ≤ pullsInUse k then .stall .tag
  else
    match nextUnclaimed k slot with
    | some y => reading c (peekHit k slot w) k (result c rd fun _ _ => entryWord y w)
    | none => .stall (.peek rd slot w)

def execPeek (e : EngIx) (c : Ctx) (rd : GReg) (slot : Fin 8) (w : Fin 4) (n : Bool) (s : State) : Out :=
  .next (issue e c false [rd] (peekAct c (headsServed (engOf e s)) rd slot w n) s)

def execPeekResume (e : EngIx) (s : State) : Out :=
  let k := (engOf e s).core
  match k.head.block with
  | .peek rd slot w =>
    match nextUnclaimed k slot with
    | some y =>
      if doubles (peekHit k slot w) k then .next (ctxFault e .head fEccDed s)
      else
        let hit := peekHit k slot w
        .next (setCore e (fun k =>
          let k := readWords .head hit k
          { k with head := retire (writeReg { k.head with block := .none } rd (entryWord y w)) }) s)
    | none => .next s
  | _ => .next s

/-- The word BUBQ returns (R179). -/
def bubWord (sel : Nat) (b : BubRec) : Word :=
  if sel = 0 then
    packWord [(0, b.w0.toNat), (24, b2n b.contIn), (25, b2n b.contOut), (31, b2n b.valid)]
  else BitVec.ofNat 32 b.sum

/-- BUBQ takes its value, and clears the record where imm[5] asks for it (R179). -/
def bubTake (rd slot sel : Nat) (clr : Bool) (k : Core) : Core :=
  let b := tabGet .reset k.bub slot
  let k := { k with head := retire (writeReg k.head rd (bubWord sel b)) }
  if clr then { k with bub := tabSet .reset k.bub slot { BubRec.reset with sum := b.sum } } else k

def bubqAct (c : Ctx) (heads rd slot sel : Nat) (clr : Bool) (k : Core) : Issue :=
  if c == .ext then .fault fPriv
  else if 2 ≤ sel then .fault fIllegal
  else if heads ≤ slot then .fault fStream
  else if 32 ≤ pullsInUse k then .stall .tag
  else if k.pulls.any (fun p => p.slot == slot) then .stall (.bubq rd slot sel clr)
  else .done (bubTake rd slot sel clr k)

def execBubq (e : EngIx) (c : Ctx) (rd : GReg) (slot : Fin 8) (sel : Fin 4) (clr : Bool) (s : State) : Out :=
  .next (issue e c false [rd] (bubqAct c (headsServed (engOf e s)) rd slot sel clr) s)

def execBubqResume (e : EngIx) (s : State) : Out :=
  let k := (engOf e s).core
  match k.head.block with
  | .bubq rd slot sel clr =>
    if k.pulls.any (fun p => p.slot == slot) then .next s
    else .next (setCore e (fun k => bubTake rd slot sel clr { k with head := { k.head with block := .none } }) s)
  | _ => .next s

/-! ### Events (R182) -/

/-- The operand of a POST lies in head data, or in head vectors, which R167 gives the same accesses. -/
def postOperand (a : Nat) : Bool := mayStore .head a 16

def postAct (c : Ctx) (rs1 kind : Nat) (k : Core) : Issue :=
  let x := ctxOf c k
  let a := (readReg x rs1).toNat
  if c == .ext then .fault fPriv
  else if a % 16 != 0 then .fault fAlign
  else if !postOperand a then .fault fAccess
  else if 8 ≤ postsInUse k then .stall .tag
  else if pullOverlaps k a 16 then .stall .pull
  else if vstOverlaps c k a 16 then .stall .none
  else reading c (localHit a 16) k fun k => .done (emit [.post kind (localBytes k a 16)] (setCtx c (retire (ctxOf c k)) k))

def execPost (e : EngIx) (c : Ctx) (rs1 : GReg) (kind : Fin 4) (s : State) : Out :=
  .next (issue e c false [rs1] (postAct c rs1 kind) s)

/-- The event port's checks, in order: the kind, the head, the CRC (R182). -/
def portAccepts (g : Eng) (kind : Nat) (l : List Byte) : Option Event :=
  let serves := fun h : Nat => g.slots.any fun p => p.2 == h + 1
  match kind with
  | 1 => if serves (parseState l).head && operandCrcOk l then some (.state (parseState l)) else none
  | 2 => if serves (parseRec l).head && operandCrcOk l then some (.pass (parseRec l)) else none
  | _ => none

/-- The port takes the oldest post of an engine, which the shadow has matched; in a fulling window a sink accepts every post
(R182, R213, R216). -/
def takePost (e : Nat) (s0 : State) : State :=
  let s := catchUpAt e s0
  let g := engOf e s
  match g.core.posts with
  | [] => s
  | (kind, l) :: rest =>
    let s1 := setCore e (fun k => freePull { k with posts := rest }) s
    if g.state != .service then s1
    else
      match portAccepts g kind l with
      | some ev => { s1 with frame := { s1.frame with events := s1.frame.events ++ [(e, ev)] } }
      | none => ctxFault e .head fEvent s1

/-- The port takes the n oldest posts of an engine, in order (R14). -/
def takePosts (e : Nat) : Nat → State → State
  | 0, s => s
  | n + 1, s => takePosts e n (takePost e s)

def execPostEventPort (e : EngIx) (s : State) : Out := .next (takePost e s)

/-! ### Time and special registers -/

def bellAct (c : Ctx) (rd sel : Nat) (b : BellSt) (k : Core) : Issue :=
  let x := ctxOf c k
  match sel with
  | 0 => .done (setCtx c (retire (writeReg (latchBellHi b.time x) rd (b.time.setWidth 32))) k)
  | 1 => .done (setCtx c (retire (writeReg x rd ((bellHiOf x).setWidth 32))) k)
  | 2 => .done (setCtx c (retire (writeReg x rd (b.tickTime.setWidth 32))) k)
  | _ => .done (setCtx c (retire (writeReg x rd ((b.tickTime >>> 32).setWidth 32))) k)

def execBell (e : EngIx) (c : Ctx) (rd : GReg) (sel : Fin 4) (s : State) : Out :=
  .next (issue e c true [rd] (bellAct c rd sel s.bell) s)

def execLand (e : EngIx) (c : Ctx) (rd : GReg) (s : State) : Out :=
  .next (issue e c true [rd] (result c rd fun _ _ => s.bell.landNo) s)

def mfsAct (c : Ctx) (rd sel : Nat) (b : BellSt) (k : Core) : Issue :=
  match readSpecial c sel b k (ctxOf c k) with
  | some (v, x) => .done (setCtx c (retire (writeReg x rd v)) k)
  | none => .fault fIllegal

def execMfs (e : EngIx) (c : Ctx) (rd : GReg) (sel : Fin 8) (s : State) : Out :=
  .next (issue e c true [rd] (mfsAct c rd sel s.bell) s)

/-- MTS: VEXC bits written as 1 clear (R170). -/
def mtsAct (c : Ctx) (rs1 sel : Nat) (k : Core) : Issue :=
  let x := ctxOf c k
  if sel != 1 then .fault fIllegal
  else .done (setCtx c (retire { x with vexc := x.vexc &&& ~~~((readReg x rs1 >>> 16).setWidth 8) }) k)

def execMts (e : EngIx) (c : Ctx) (rs1 : GReg) (sel : Fin 8) (s : State) : Out :=
  .next (issue e c false [rs1] (mtsAct c rs1 sel) s)

/-! ### WLAND, TRAP, HALT, ECALL -/

def wlandAct (c : Ctx) (rd : Nat) (k : Core) : Issue :=
  if c == .ext then .fault fPriv
  else
    match (ctxOf c k).fatal with
    | f :: _ => .fault f.2.2
    | [] => .stall (.wland rd)

def execWland (e : EngIx) (c : Ctx) (rd : GReg) (s : State) : Out :=
  .next (issue e c false [rd] (wlandAct c rd) s)

/-- The context has just faulted with a code. -/
def faultedNow (e : Nat) (c : Ctx) (code : Nat) (s s1 : State) : Bool :=
  (ctxOf c (engOf e s).core).halted.isNone && (ctxOf c (engOf e s1).core).halted == some code

/-- TRAP: its imm is the code of the fault (R176, R185, R187). -/
def execTrap (e : EngIx) (c : Ctx) (code : BitVec 16) (s : State) : Out :=
  let s1 := issue e c false [] (fun _ => .fault fTrap) s
  .next (if faultedNow e c fTrap s s1 then modEng e (fun g => { g with trap := code }) s1 else s1)

/-- HALT; in the extension context it also ends the program until the engine next enters service (R185). -/
def execHalt (e : EngIx) (c : Ctx) (s : State) : Out :=
  let s1 := issue e c false [] (fun _ => .fault fHalt) s
  .next (if c == .ext && faultedNow e c fHalt s s1 then
    modEng e (fun g => { g with core := { g.core with xOff := true } }) s1 else s1)

def yieldAct (c : Ctx) (k : Core) : Issue :=
  .done (setCtx c { retire (ctxOf c k) with block := .yield_ } k)

def execEcallYield (e : EngIx) (c : Ctx) (s : State) : Out :=
  .next (issue e c false [] (yieldAct c) s)

/-- THROTTLE makes DIAG ignored, from the release on that follows it (R346). -/
def throttled (s : State) : Bool := s.pmc.shed

def diagAct (c : Ctx) (ignored : Bool) (k : Core) : Issue :=
  let x := ctxOf c k
  let k' := setCtx c (retire x) k
  .done (if ignored then k' else emit [.diag (readReg x 4) (readReg x 5)] k')

def execEcallDiag (e : EngIx) (c : Ctx) (s : State) : Out :=
  .next (issue e c false [4, 5] (diagAct c (throttled s)) s)

/-- Number of the open or draining frame (R169, R225). -/
def frameNo (s : State) : Word := if s.frame.closing then s.bell.landNo - 1 else s.bell.landNo

/-- The record as the device completes it: bytes 54 to 63 (R225). -/
def fillRecord (l : List Byte) (hgen : Nat) (frame : Word) : List Byte :=
  let b := l.take 54 ++ leBytes 2 hgen ++ leBytes 4 frame.toNat
  b ++ leBytes 4 (crc32c b).toNat

/-- The highest occupied slot (R226). -/
def topSlot (g : Eng) : Nat := g.slots.foldl (fun m p => max m p.1) 0

/-- The head in a slot; slots hold the head number plus 1. -/
def slotHead (g : Eng) (slot : Nat) : Nat := tabGet 0 g.slots slot - 1

def hrecAct (c : Ctx) (g : Eng) (hgen : Nat) (frame : Word) (k : Core) : Issue :=
  let x := ctxOf c k
  let a := (readReg x 4).toNat
  if c == .ext then .fault fPriv
  else if !x.flags.getLsbD 6 then .done (setCtx c (retire (writeReg x 2 0)) k)
  else if !(decide (0x10000000 ≤ a ∧ a + 64 ≤ 0x10007000)) then .fault fAccess
  else if pullOverlaps k a 64 then .stall .pull
  else if vstOverlaps c k a 64 then .stall .none
  else reading c (localHit a 64) k fun k =>
    .done (emit [.hrec (fillRecord (localBytes k a 64) hgen frame) (k.marks.contains (topSlot g))]
      (setCtx c (retire (writeReg (ctxOf c k) 2 1)) k))

def execEcallHrec (e : EngIx) (c : Ctx) (s : State) : Out :=
  let g := engOf e s
  let h := headOf (slotHead g (topSlot g)) s
  .next (issue e c false [4, 2] (hrecAct c g h.gen (frameNo s)) s)

/-! ### The end of a coprocessor operation (R203 to R205) -/

/-- An operation ends its latency (R203 to R205). -/
def execCopOpEnd (e : EngIx) (t : TagIx) (checkFail : Bool) (s : State) : Out :=
  let k := (engOf e s).core
  match k.cops.find? (fun o => o.tag == t.val) with
  | some o =>
    if o.stage != .running then .next s
    else if o.killed then
      .next (failCheck checkFail e (setCore e (dropOp o.ctx t) s))
    else .next (setCore e (setOp t fun o => { o with
      stage := .computed
      exc := if checkFail then o.exc ||| 0x40 else o.exc }) s)
  | none => .next s

end Sys2Proof.Machine
end

