-- ==== Sys2Proof/Machine/Wheel.lean ====
section
/-! DEFINITION. Damping, passage timing and the wheel record (R82, R83, R91 to R95, R107 to R113). -/

namespace Sys2Proof.Machine

/-! ### Damping (R83) -/

/-- A complex number with rational parts. -/
abbrev Vec2 := Rat × Rat

def vec2 (x : Int × Int) : Vec2 := (x.1, x.2)

def vecSub (a b : Vec2) : Vec2 := (a.1 - b.1, a.2 - b.2)

def normSq (a : Vec2) : Rat := a.1 * a.1 + a.2 * a.2

/-- The nearest integer to a rational, an exact half to the even neighbour (R8). -/
def roundRat (q : Rat) : Int := roundEven q.num q.den

/-- round (sqrt q), an exact half to the even neighbour; q is not negative. -/
def roundSqrt (q : Rat) : Nat :=
  let r := isqrt q.floor.toNat
  let h : Rat := (2 * (r : Rat) + 1) * (2 * (r : Rat) + 1)
  if h < 4 * q then r + 1 else if h = 4 * q then (if r % 2 = 0 then r else r + 1) else r

/-- The damping metric, within 2 LSB of its exact value; a baseline of zero leaves it open (R83, log 30). -/
def damping (n : Nat) (z b : Vec2) : Nat :=
  if normSq b = 0 then (Config.freeWord n).toNat % 65536
  else
    let d := roundSqrt (1073741824 * normSq (vecSub b z) / normSq b)
    min 0xFFFF (d + (Config.dampErr n).val - 2)

/-- The damping phase arg((b - z) / b), within 1 LSB; an exact zero has no phase and leaves it open (R83, log 30). -/
def dampPhase (n : Nat) (z b : Vec2) : Int :=
  let e := vecSub b z
  let re := e.1 * b.1 + e.2 * b.2
  let im := e.2 * b.1 - e.1 * b.2
  if re = 0 ∧ im = 0 then ((Config.freeWord n).setWidth 8 : BitVec 8).toInt
  else
    let d : Rat := ((re.den * im.den : Nat) : Int)
    let ang := binaryAngle (re * d).num (im * d).num
    ((BitVec.ofInt 8 (ang + (Config.phaseErr n).val - 1)) : BitVec 8).toInt

/-- A baseline as HEAD_BASEA and HEAD_BASEB show it (R105). -/
def baseWord (b : Vec2) : Word :=
  let i := clampInt (-32768) 32767 (roundRat b.1)
  let q := clampInt (-32768) 32767 (roundRat b.2)
  BitVec.ofInt 16 q ++ BitVec.ofInt 16 i

def baseOfWord (w : Word) : Vec2 :=
  ((((w.setWidth 16 : BitVec 16).toInt : Int) : Rat), ((((w >>> 16).setWidth 16 : BitVec 16).toInt : Int) : Rat))

/-! ### Constants of the head program (R82, R94, R97) -/

abbrev dTrack : Nat := 0x0400
abbrev driftMax : Nat := 0x0800
abbrev tStand : Nat := 10000000
abbrev tQuiet : Nat := 10000000
abbrev tLearn : Nat := 20000000

/-- V_LIM in 0.01 m/s: 83.333 m/s, in HARBOUR 8.333 m/s, and 1.01 times it in holdover (R82, R94). -/
def vLim (harb hold : Bool) : Rat :=
  let v : Rat := if harb then 8333 / 10 else 83333 / 10
  if hold then v * 101 / 100 else v

/-- T_HIDE = floor (WMIN / (V_LIM x sample period)) (R97). -/
def tHide (wmin grid : Nat) (harb hold : Bool) : Nat :=
  (((wmin : Rat) * 1000000) / (vLim harb hold * (grid : Rat))).floor.toNat

/-! ### A completed passage (R91) -/

/-- What a completed passage shows. -/
structure Passage where
  head : Nat
  lab : Nat
  /-- Direction A to B. -/
  dir : Bool
  xRise : Bell
  xFall : Bell
  yRise : Bell
  yFall : Bell
  first : Option Bell
  peakX : Nat × Int
  peakY : Nat × Int
  interp : Bool
  rocked : Bool
  stood : Bool
  hold : Bool
  harb : Bool
  /-- Completed on the 80 us grid. -/
  dec : Bool
  takeover : Bool
  deriving DecidableEq, Repr

/-- Signed difference of two bell times (R44). -/
def tickDiff (a b : Bell) : Int := (a - b).toInt

/-- LAB over a time, in 0.01 m/s; not computed when the edges coincide (R91). -/
def speedOver (lab : Nat) (dt : Int) : Option Rat :=
  if 0 < dt then some ((lab : Rat) * 1000000 / dt) else none

def Passage.vr (p : Passage) : Option Rat := if p.rocked then none else speedOver p.lab (tickDiff p.yRise p.xRise)
def Passage.vf (p : Passage) : Option Rat := speedOver p.lab (tickDiff p.yFall p.xFall)

/-- The first edge lies more than 2^46 ticks before completion, or is expired (R91, R45). -/
def Passage.timeExp (p : Passage) : Bool :=
  p.first.all fun t => decide (2 ^ 46 < elapsed p.yFall t)

/-- Speed in 0.01 m/s before rounding (R91). -/
def Passage.v (p : Passage) : Rat :=
  if p.timeExp then 0
  else if p.rocked || p.stood then p.vf.getD 0
  else
    match p.vr, p.vf with
    | some a, some b => (a + b) / 2
    | some a, none => a
    | none, some b => b
    | none, none => 0

/-- Speed as reported (R91). -/
def Passage.speed (p : Passage) : Nat := min 0xFFFF (roundRat p.v).toNat

/-- Passage centre (R91). -/
def Passage.centre (p : Passage) : Bell :=
  if p.timeExp then p.yFall
  else
    let t := 4 * (p.xRise.toNat : Int) + tickDiff p.xFall p.xRise + tickDiff p.yRise p.xRise +
      tickDiff p.yFall p.xRise
    BitVec.ofInt 48 (roundEven t 4)

/-- max / min of the two speeds, where R93 computes it. -/
def Passage.ratio (p : Passage) : Option Rat :=
  if p.rocked || p.stood then none
  else
    match p.vr, p.vf with
    | some a, some b => some (max a b / min a b)
    | _, _ => none

/-- Damped length in mm, unrounded (R112): 0.01 m/s times a tick is 10^-6 mm. -/
def Passage.length (p : Passage) : Rat :=
  p.v * ((tickDiff p.xFall p.xRise + tickDiff p.yFall p.yRise : Int) : Rat) / 2000000

/-- The cause that withholds PASS at completion (R93 to R95). -/
def Passage.breach (p : Passage) : Option Nat :=
  let fast := fun v : Option Rat => v.any fun x => decide (vLim p.harb p.hold < x)
  if fast p.vr || fast p.vf then some 0x11
  else if p.ratio.any (fun r => decide ((if p.hold then 21 / 10 else 2 : Rat) < r)) then some 0x12
  else if !p.rocked && !p.stood && p.v != 0 && decide ((400 : Rat) < p.length) then some 0x13
  else none

/-- CLASS (R112); a passage whose reported speed is 0 has class 0 (DEDUCED, log 31). -/
def Passage.cls (p : Passage) (cb : List Nat) : Nat :=
  if p.rocked || p.stood || p.timeExp || p.speed == 0 then 0
  else 1 + (cb.filter fun b => decide ((b : Rat) ≤ p.length)).length

/-- CONF (R113). -/
def Passage.conf (p : Passage) (c : HeadCfg) : Nat :=
  if p.timeExp then 0
  else
    let near := fun x : Int => decide (x ≤ c.phLo + 4 ∨ c.phHi - 4 ≤ x)
    let cut := 96 * b2n p.interp + 32 * b2n p.rocked + 32 * b2n p.stood + 16 * b2n p.hold +
      (match p.ratio with
        | some r => min 64 (64 * (r - 1)).floor.toNat
        | none => 0) +
      (if min p.peakX.1 p.peakY.1 < c.dPeak + 0x1000 then 32 else 0) +
      (if near p.peakX.2 || near p.peakY.2 then 16 else 0)
    255 - cut

/-- SPACING to the previous wheel (R111); a previous wheel with STOOD, ROCKED or TIME_EXP is kept with speed 0. -/
def spacingOf (prev : Option (Bell × Nat × Bool)) (p : Passage) : Nat :=
  match prev with
  | none => 0xFFFF
  | some (c, v, d) =>
    let dt := elapsed p.centre c
    if d != p.dir || p.stood || p.rocked || p.timeExp || p.speed == 0 || v == 0 || 1073741824 < dt ||
        3 * min v p.speed < 2 * max v p.speed then 0xFFFF
    else
      let x := (roundEven ((dt * (v + p.speed) : Nat) : Int) 2000000).toNat
      if 65534 < x then 0xFFFE else x

/-- The wheel record of a passage (R107 to R109). -/
def Passage.record (p : Passage) (c : HeadCfg) (cb : List Nat) (prev : Option (Bell × Nat × Bool)) : WheelRec :=
  { centre := p.centre, cls := p.cls cb, dir := p.dir, head := p.head, speed := p.speed,
    spacing := spacingOf prev p, conf := p.conf c,
    flags := b2n p.interp + 2 * b2n p.rocked + 4 * b2n p.stood + 8 * b2n p.timeExp + 16 * b2n p.hold +
      32 * b2n p.dec + 64 * b2n p.takeover,
    rsv := 0 }

/-- The reference kept for the next wheel (R111). -/
def Passage.toPrev (p : Passage) : Bell × Nat × Bool :=
  (p.centre, if p.stood || p.rocked || p.timeExp then 0 else p.speed, p.dir)

end Sys2Proof.Machine
end

