-- ==== Sys2Proof/Machine/Head.lean ====
section
/-! DEFINITION. Evaluating a counting head: the head program's work on the entries of its stream
(R81 to R102, R410), as one step of the program per entry. -/

namespace Sys2Proof.Machine

/-! ### The step in progress -/

/-- What the head program knows and has done at one entry. -/
structure HStep where
  n : Nat
  cfg : HeadCfg
  cb : List Nat
  harb : Bool
  /-- Grid of the entry's instant; the last instant the entry covers and the one behind it (R77, R97). -/
  grid : Nat
  lastAt : Bell
  after : Bell
  /-- Frames of a learning window (R84). -/
  frames : Nat
  /-- The head's ring was CLOSED or OPEN at the latest landing tick (R315). -/
  ringUp : Bool
  /-- Next free value. -/
  free : Nat
  ev : Eval
  /-- Events posted, and HEAD_FLT bits reported, in order. -/
  out : List Event
  flt : List Nat
  deriving DecidableEq, Repr

def evalOf (x : HStep) (f : Eval → Eval) : HStep := { x with ev := f x.ev }

/-- System A or B of the evaluation; true is B. -/
def sysOf (b : Bool) (e : Eval) : SysEval := if b then e.b else e.a

def setSys (b : Bool) (s : SysEval) (e : Eval) : Eval := if b then { e with b := s } else { e with a := s }

/-- States in which the head follows a passage or waits for one. -/
def tracks (st : HeadState) : Bool :=
  match st with
  | .idle => true
  | .passage => true
  | .standing => true
  | _ => false

def inPassage (st : HeadState) : Bool :=
  match st with
  | .passage => true
  | .standing => true
  | _ => false

def learns (st : HeadState) : Bool :=
  match st with
  | .baseline => true
  | .occupiedAtStart => true
  | _ => false

/-- The STATE event the head would post now (R105, R182). -/
def stateEvent (x : HStep) (chg : Bool) : StateEv :=
  let e := x.ev
  let shows := tracks e.state || e.state == .suspect
  { head := x.n, state := e.state, back := inPassage e.state && e.back, side := inPassage e.state && e.side,
    a := shows && e.a.conf, b := shows && e.b.conf, cause := e.cause, baseA := baseWord e.a.base,
    baseB := baseWord e.b.base, chg := chg }

def post (chg : Bool) (x : HStep) : HStep :=
  let ev := stateEvent x chg
  { x with out := x.out ++ [.state ev], ev := { x.ev with posted := some ev } }

/-- State, pattern bits or baseline differ from the last STATE event (R183). -/
def needsRefresh (x : HStep) : Bool :=
  let y := stateEvent x false
  match x.ev.posted with
  | none => true
  | some p => p.state != y.state || p.a != y.a || p.b != y.b || p.baseA != y.baseA || p.baseB != y.baseB

def flag (bit : Nat) (x : HStep) : HStep := { x with flt := x.flt ++ [bit] }

/-- The HEAD_FLT bit of a cause (R106). -/
def causeBit (cause : Nat) : Option Nat :=
  match cause with
  | 0x10 => some 7
  | 0x11 => some 5
  | 0x12 => some 5
  | 0x13 => some 6
  | 0x14 => some 8
  | 0x15 => some 4
  | 0x20 => some 10
  | 0x23 => some 8
  | 0x24 => some 9
  | _ => none

/-- The state's own HEAD_FLT bit (R106). -/
def stateBit (st : HeadState) : Option Nat :=
  match st with
  | .suspect => some 0
  | .fault => some 1
  | .occupiedAtStart => some 2
  | _ => none

/-- Change the head state at bell time t (R89, R102, R111). -/
def enterState (st : HeadState) (cause : Nat) (t : Bell) (x : HStep) : HStep :=
  let e := x.ev
  let disturbing := learns st || st == .suspect || st == .fault
  let e := { e with
    state := st, cause := cause, wholeIdle := false
    step := 0, back := false, side := false, stood := false, interp := false, bub := none
    quietAt := if disturbing then t else e.quietAt
    prev := if disturbing then none else e.prev
    learn := if st == .baseline || st == .fault then .reset
      else if st == .occupiedAtStart then { Learn.reset with open_ := false } else e.learn
    a := if learns st || st == .fault then { SysEval.reset with base := e.a.base, bad := e.a.bad } else e.a
    b := if learns st || st == .fault then { SysEval.reset with base := e.b.base, bad := e.b.bad } else e.b }
  post true { x with ev := e }

/-! ### Confirmation and edges (R87, R88) -/

/-- One sample of one system: confirmation run and burst peak; whether a change is confirmed. DESIGN CHOICE, log 100: where
the largest D of a burst occurs twice, the phase of its first sample counts (R92). -/
def sysSample (c : HeadCfg) (t : Bell) (d : Nat) (ph : Int) (s : SysEval) : SysEval × Bool :=
  let cond := if s.conf then decide (d ≤ c.dOff) else decide (c.dOn ≤ d)
  let s := if !s.conf && (s.run == 0 || !cond) then { s with peak := d, phase := ph }
    else if s.peak < d then { s with peak := d, phase := ph } else s
  let s := if !cond then { s with run := 0 }
    else if s.run == 0 then { s with run := 1, runAt := t, runD := d, before := s.last }
    else { s with run := s.run + 1 }
  let hit := decide (3 ≤ s.run)
  ({ s with run := if hit then 0 else s.run, last := some (t, d) }, hit)

/-- The time of the edge a run confirms (R88). DESIGN CHOICE, log 99: a run that starts at the first sample after a learning
window has no D before it, and its edge lies at its first instant. -/
def edgeTime (c : HeadCfg) (s : SysEval) : Bell :=
  match s.before with
  | none => s.runAt
  | some (t0, d0) =>
    if s.runD = d0 then s.runAt
    else
      let thr : Int := if s.conf then c.dOff else c.dOn
      let den : Int := (s.runD : Int) - d0
      let num := (thr - d0) * tickDiff s.runAt t0 * den.sign
      BitVec.ofInt 48 (roundEven (t0.toNat * den.natAbs + num) den.natAbs)

/-- The confirmed state of a system changes; a falling edge ends its burst (R92, R113). -/
def flipSys (te : Bell) (s : SysEval) : SysEval :=
  if s.conf then { s with conf := false, fall := te, peakDone := s.peak, phaseDone := s.phase, peak := 0, phase := 0 }
  else { s with conf := true, rise := te }

/-- The burst check (R92). -/
def burstOk (c : HeadCfg) (standing : Bool) (s : SysEval) : Bool :=
  (standing || decide (c.dPeak ≤ s.peak)) && decide (c.phLo ≤ s.phase) && decide (s.phase ≤ c.phHi)

/-! ### The passage state machine (R89 to R95) -/

/-- The passage as it completes with system Y's falling edge (R91). -/
def passageOf (x : HStep) : Passage :=
  let e := x.ev
  let sx := sysOf e.side e
  let sy := sysOf (!e.side) e
  { head := x.n, lab := x.cfg.lab, dir := !e.side, xRise := sx.rise, xFall := sx.fall, yRise := sy.rise,
    yFall := sy.fall, first := e.firstEdge, peakX := (sx.peakDone, sx.phaseDone),
    peakY := (sy.peakDone, sy.phaseDone), interp := e.interp, rocked := e.back, stood := e.stood, hold := e.hold,
    harb := x.harb, dec := x.grid == 800, takeover := e.takeover }

/-- Step 3, Y to none: the checks of R93 and R95, then PASS and STATE IDLE. -/
def complete (t : Bell) (x : HStep) : HStep :=
  let p := passageOf x
  match p.breach with
  | some cause => enterState .suspect cause t x
  | none =>
    let r := p.record x.cfg x.cb x.ev.prev
    let x := { x with out := x.out ++ [.pass r],
                      ev := { x.ev with prev := some p.toPrev, takeover := false } }
    enterState .idle 0 t x

/-- A passage begins at side k (R89). -/
def beginPassage (k : Bool) (te t : Bell) (interp : Bool) (x : HStep) : HStep :=
  let e := { x.ev with state := .passage, cause := 0, wholeIdle := false, side := k, step := 1, back := false,
                       stood := false, interp := interp, changedAt := t, firstEdge := some te }
  post true { x with ev := e }

/-- A head in STANDING returns to PASSAGE at the next pattern change (R89, R96). -/
def leaveStanding (x : HStep) : HStep :=
  if x.ev.state == .standing then post true { x with ev := { x.ev with state := .passage } } else x

/-- The table of R89 for the confirmed change of system k, whose state has been changed already. -/
def oneChange (k : Bool) (te t : Bell) (interp : Bool) (x : HStep) : HStep :=
  let rising := (sysOf k x.ev).conf
  match x.ev.state with
  | .idle => if rising then beginPassage k te t interp x else x
  | _ =>
    let x := leaveStanding x
    let x := evalOf x fun e => { e with changedAt := t, interp := e.interp || interp }
    let isX := k == x.ev.side
    match x.ev.step, isX, rising with
    | 1, false, true => evalOf x fun e => { e with step := 2 }
    | 1, true, false => enterState .idle 0 t (evalOf x fun e => { e with prev := none })
    | 2, true, false => evalOf x fun e => { e with step := 3 }
    | 2, false, false => evalOf x fun e => { e with step := 1, back := true }
    | 3, false, false => complete t x
    | 3, true, true => evalOf x fun e => { e with step := 2, back := true }
    | _, _, _ => x

/-- A confirmed change of system k at edge time te: R92 first, then R89 (R103). -/
def applyOne (k : Bool) (te t : Bell) (interp : Bool) (x : HStep) : HStep :=
  let s := sysOf k x.ev
  let bad := s.conf && inPassage x.ev.state && !burstOk x.cfg false s
  let x := evalOf x (setSys k (flipSys te s))
  if bad then enterState .suspect 0x13 t x else oneChange k te t interp x

/-- Both systems confirm a change at one sample (R89); across a bubble X to Y is taken as two steps (R98). -/
def applyBoth (mid : Option Bell) (t : Bell) (x : HStep) : HStep :=
  let a := x.ev.a
  let b := x.ev.b
  let bad := inPassage x.ev.state &&
    ((a.conf && !burstOk x.cfg false a) || (b.conf && !burstOk x.cfg false b))
  let te := fun s => mid.getD (edgeTime x.cfg s)
  let both := fun x : HStep =>
    evalOf x fun e => { e with a := flipSys (te a) a, b := flipSys (te b) b }
  if bad then enterState .suspect 0x13 t (both x)
  else
    match mid with
    | some m =>
      if a.conf != b.conf then
        let up := a.conf
        applyOne (!up) m t true (applyOne up m t true x)
      else enterState .suspect 0x10 t (leaveStanding (both x))
    | none => enterState .suspect 0x10 t (leaveStanding (both x))

/-- Entry to STANDING (R92, R96). -/
def stand (t : Bell) (x : HStep) : HStep :=
  let e := x.ev
  if (e.a.conf && !burstOk x.cfg true e.a) || (e.b.conf && !burstOk x.cfg true e.b) then
    enterState .suspect 0x13 t x
  else post true { x with ev := { e with state := .standing, stood := true } }

/-! ### Missing instants (R97 to R99) -/

/-- The n missing instants of the entry, from t on (R97). -/
def missing (t : Bell) (n : Nat) (x : HStep) : HStep :=
  let e := x.ev
  let e := { e with quietAt := if e.state == .suspect || e.state == .fault then x.lastAt else e.quietAt }
  if learns e.state then { x with ev := { e with learn := { e.learn with gap := e.learn.gap || e.learn.open_ } } }
  else if tracks e.state || e.state == .suspect then
    let b : HeadBub := match e.bub with
      | some b => { b with total := b.total + n, after := x.after, since := 0 }
      | none => { total := n, first := t, after := x.after, since := 0 }
    let e := { e with bub := some b, a := { e.a with run := 0, last := none }, b := { e.b with run := 0, last := none } }
    if tracks e.state && tHide x.cfg.wmin x.grid x.harb e.hold ≤ b.total then
      evalOf (enterState .suspect 0x15 t { x with ev := e }) fun e => { e with quietAt := x.lastAt }
    else { x with ev := e }
  else { x with ev := e }

/-- A bubble token (R97): causes GN8_OUT and RING_DOWN put the head into FAULT, also from another cause, and before any
SUSPECT cause (R103). Its instants are none with SYSOK clear, so a run of those ends (R99). -/
def takeBubble (en : Entry) (x : HStep) : HStep :=
  let x := evalOf x fun e => { e with a := { e.a with bad := 0 }, b := { e.b with bad := 0 } }
  let cause := bitsNat en.w2.toNat 16 8
  if (cause = 4 ∨ cause = 5) ∧ x.ev.state ≠ .unassigned ∧ ¬(x.ev.state = .fault ∧ x.ev.cause = 0x21) then
    enterState .fault 0x21 (entryTime en) x
  else missing (entryTime en) (bitsNat en.w2.toNat 0 16) x

/-- A sample with SYSOK clear for either system is a missing instant; 16 in a row put the head into FAULT (R99). -/
def badSample (t : Bell) (x : HStep) : HStep :=
  let e := x.ev
  if (e.a.bad == 16 || e.b.bad == 16) && e.state != .fault && e.state != .unassigned then
    enterState .fault 0x20 t x
  else missing t 1 x

/-! ### A sample (R83, R84, R87) -/

/-- I and Q of systems A and B. -/
def entryIq (w : Word) : Int × Int :=
  ((w.setWidth 16 : BitVec 16).toInt, ((w >>> 16).setWidth 16 : BitVec 16).toInt)

/-- A sample of a head that learns (R84). -/
def learnSample (za zb : Int × Int) (x : HStep) : HStep :=
  let l := x.ev.learn
  if !l.open_ then x
  else
    let occ := decide (x.cfg.dOn ≤ damping x.free (vec2 za) (vec2 x.cfg.zcA)) ||
      decide (x.cfg.dOn ≤ damping (x.free + 1) (vec2 zb) (vec2 x.cfg.zcB))
    { x with ev := { x.ev with learn := { l with samples := (za, zb) :: l.samples, occupied := l.occupied || occ } } }

/-- Sums of an IDLE frame (R86). -/
def trackSample (za zb : Int × Int) (da db : Nat) (e : Eval) : Eval :=
  if e.state == .idle then
    { e with sumA := (e.sumA.1 + za.1, e.sumA.2 + za.2), sumB := (e.sumB.1 + zb.1, e.sumB.2 + zb.2), n := e.n + 1,
             lowA := e.lowA && decide (da < dTrack), lowB := e.lowB && decide (db < dTrack) }
  else e

/-- A bubble is judged at the third sample after it; its midpoint places the edges (R97, R98). -/
def stepBubble (e : Eval) : Eval × Option Bell :=
  match e.bub with
  | none => (e, none)
  | some b =>
    if 2 ≤ b.since then
      ({ e with bub := none }, some (b.first + BitVec.ofNat 48 (elapsed b.after b.first / 2)))
    else ({ e with bub := some { b with since := b.since + 1 } }, none)

/-- A head in SUSPECT keeps its confirmed states and leaves after T_QUIET (R410). -/
def suspectSample (t : Bell) (ca cb : Bool) (x : HStep) : HStep :=
  let x := evalOf x fun e =>
    { e with quietAt := if (ca && e.a.conf) || (cb && e.b.conf) then t else e.quietAt
             a := if ca then flipSys (edgeTime x.cfg e.a) e.a else e.a
             b := if cb then flipSys (edgeTime x.cfg e.b) e.b else e.b }
  let e := x.ev
  if !e.a.conf && !e.b.conf && decide (tQuiet ≤ elapsed t e.quietAt) then
    if e.cause == 0x14 then enterState .baseline 0 t x else enterState .idle 0 t x
  else x

/-- Confirmed changes at a sample, else the standing test (R89, R96, R103). -/
def patternSample (t : Bell) (mid : Option Bell) (ca cb : Bool) (x : HStep) : HStep :=
  match ca, cb with
  | true, true => applyBoth mid t x
  | true, false => applyOne false (mid.getD (edgeTime x.cfg x.ev.a)) t mid.isSome x
  | false, true => applyOne true (mid.getD (edgeTime x.cfg x.ev.b)) t mid.isSome x
  | false, false =>
    if x.ev.state == .passage && decide (tStand ≤ elapsed t x.ev.changedAt) then stand t x else x

/-- A sample with both SYSOK bits set. -/
def goodSample (t : Bell) (za zb : Int × Int) (x : HStep) : HStep :=
  let x := { x with free := x.free + 2 }
  let fr := x.free - 2
  match x.ev.state with
  | .unassigned => x
  | .baseline => learnSample za zb { x with free := x.free + 2 }
  | .occupiedAtStart => learnSample za zb { x with free := x.free + 2 }
  | .fault =>
    if x.ev.cause == 0x20 && decide (tQuiet ≤ elapsed t x.ev.quietAt) then enterState .baseline 0 t x else x
  | _ =>
    let da := damping fr (vec2 za) x.ev.a.base
    let db := damping (fr + 1) (vec2 zb) x.ev.b.base
    let ra := sysSample x.cfg t da (dampPhase fr (vec2 za) x.ev.a.base) x.ev.a
    let rb := sysSample x.cfg t db (dampPhase (fr + 1) (vec2 zb) x.ev.b.base) x.ev.b
    let x := evalOf x fun e => trackSample za zb da db { e with a := ra.1, b := rb.1 }
    let bub := stepBubble x.ev
    let x := { x with ev := bub.1 }
    if x.ev.state == .suspect then suspectSample t ra.2 rb.2 x else patternSample t bub.2 ra.2 rb.2 x

/-- A head that takes over in BASELINE reports it at once, as an entry (R100); otherwise the first STATE event on an
engine is a refresh. -/
def announce (x : HStep) : HStep :=
  if x.ev.posted.isNone && x.ev.state == .baseline then post true x else x

/-- The head program at a sample entry. -/
def evalSample (en : Entry) (x : HStep) : HStep :=
  let x := announce x
  let t := entryTime en
  let okA := en.w1.getLsbD 25
  let okB := en.w1.getLsbD 26
  let x := evalOf x fun e =>
    { e with a := { e.a with bad := if okA then 0 else min 17 (e.a.bad + 1) },
             b := { e.b with bad := if okB then 0 else min 17 (e.b.bad + 1) } }
  if okA && okB then goodSample t (entryIq en.w2) (entryIq en.w3) x else badSample t x

/-! ### The end of a frame (R84 to R86, R183) -/

/-- What a learning window shows (R84). -/
inductive Verdict where
  | goesOn
  | occupied
  | drift
  | noise
  | gap
  | good (a b : Rat × Rat)
  deriving DecidableEq, Repr

def meanOf (l : List (Int × Int)) : Vec2 :=
  let n : Rat := ((l.length : Nat) : Int)
  (((l.map (·.1)).foldl (· + ·) 0 : Int) / n, ((l.map (·.2)).foldl (· + ·) 0 : Int) / n)

/-- A sample differs from the window mean by more than D_TRACK, measured as for D (R84). -/
def anyNoise : Nat → List (Int × Int) → Vec2 → Bool
  | _, [], _ => false
  | n, z :: t, m => decide (dTrack < damping n (vec2 z) m) || anyNoise (n + 1) t m

/-- Judge a window at the tick that closes a frame of it (R84). -/
def judgeWindow (x : HStep) : Verdict :=
  let l := x.ev.learn
  let sa := l.samples.map (·.1)
  let sb := l.samples.map (·.2)
  let ma := meanOf sa
  let mb := meanOf sb
  if !(l.occupied || l.gap || decide (x.frames ≤ l.frames)) then .goesOn
  else if l.occupied then .occupied
  else if l.samples.isEmpty then .gap
  else if decide (driftMax < damping x.free ma (vec2 x.cfg.zcA)) ||
      decide (driftMax < damping (x.free + 1) mb (vec2 x.cfg.zcB)) then .drift
  else if anyNoise (x.free + 2) sa ma || anyNoise (x.free + 2 + sa.length) sb mb then .noise
  else if l.gap then .gap
  else .good ma mb

/-- Close the window, with the counts of R85. -/
def closeWindow (drift noise : Nat) (x : HStep) : HStep :=
  evalOf x fun e => { e with learn := { Learn.reset with drift := drift, noise := noise } }

/-- The end of a frame for a head with an open window (R84, R85). -/
def learnFrame (t : Bell) (x : HStep) : HStep :=
  let x := evalOf x fun e => { e with learn := { e.learn with frames := e.learn.frames + 1 } }
  let l := x.ev.learn
  let v := judgeWindow x
  let x := { x with free := x.free + 2 + 2 * l.samples.length }
  match v with
  | .goesOn => x
  | .occupied => if x.ev.state == .baseline then enterState .occupiedAtStart 0 t x else closeWindow 0 0 x
  | .drift =>
    if 8 ≤ l.drift + 1 then enterState .fault 0x23 t x else flag 8 (closeWindow (l.drift + 1) 0 x)
  | .noise =>
    if 8 ≤ l.noise + 1 then enterState .fault 0x24 t x else flag 9 (closeWindow 0 (l.noise + 1) x)
  | .gap => closeWindow l.drift l.noise x
  | .good a b =>
    enterState .idle 0 t (evalOf x fun e =>
      { e with learn := .reset, a := { SysEval.reset with base := a, bad := e.a.bad },
               b := { SysEval.reset with base := b, bad := e.b.bad } })

/-- b + (m - b) / 2^20 (R86). -/
def trackBase (low : Bool) (sum : Int × Int) (n : Nat) (b : Vec2) : Vec2 :=
  if low && n != 0 then
    let k : Rat := ((n : Nat) : Int)
    (b.1 + ((sum.1 : Rat) / k - b.1) / 1048576, b.2 + ((sum.2 : Rat) / k - b.2) / 1048576)
  else b

/-- A frame spent wholly in IDLE updates the baselines; too much drift makes the head SUSPECT (R86). -/
def trackFrame (t : Bell) (x : HStep) : HStep :=
  let e := x.ev
  let ba := trackBase e.lowA e.sumA e.n e.a.base
  let bb := trackBase e.lowB e.sumB e.n e.b.base
  let x := { x with ev := { e with a := { e.a with base := ba }, b := { e.b with base := bb } },
                    free := x.free + 2 }
  if (e.lowA && e.n != 0 && decide (driftMax < damping (x.free - 2) ba (vec2 x.cfg.zcA))) ||
      (e.lowB && e.n != 0 && decide (driftMax < damping (x.free - 1) bb (vec2 x.cfg.zcB))) then
    enterState .suspect 0x14 t x
  else x

/-- The next frame opens: fresh sums, and a learning window where the head learns and has none open,
its ring being up (R84, R315). -/
def openFrame (ringUp : Bool) (e : Eval) : Eval :=
  { e with sumA := (0, 0), sumB := (0, 0), n := 0, lowA := true, lowB := true, wholeIdle := e.state == .idle,
           learn := if learns e.state && ringUp && !e.learn.open_ then { e.learn with open_ := true } else e.learn }

/-- The head program at an end-of-frame mark. -/
def evalMark (en : Entry) (x : HStep) : HStep :=
  let x := announce x
  let t := entryTime en
  let x := if learns x.ev.state && x.ev.learn.open_ then learnFrame t x
    else if x.ev.state == .idle && x.ev.wholeIdle then trackFrame t x else x
  let x := if x.ev.state != .unassigned && needsRefresh x then post false x else x
  evalOf x (openFrame x.ringUp)

/-! ### The head program in the device -/

/-- Where a head's next entry lies: its engine and slot, the entry and those behind it. The head program reads it while
its context runs and the slot's mark has not been pulled (R181). -/
def nextEntry (h : Nat) (s : State) : Option (Nat × Nat × Entry × List Entry) :=
  match (headOf h s).route with
  | none => none
  | some (e, slot) =>
    let k := (engOf e s).core
    if (engOf e s).state == .service && k.head.halted.isNone && !waitsLand k.head && !k.marks.contains slot &&
        !(k.pulls.any fun p => p.slot == slot) then
      match queueOf slot k with
      | x :: rest => some (e, slot, x, rest)
      | [] => none
    else none

/-- The step of the head program at an entry of a head. DESIGN CHOICE, log 98: in PROVE and LOCKOUT V_LIM is 83.333 m/s, as
in COMMISSION and RUN (R82). -/
def hstepOf (h : Nat) (en : Entry) (s : State) : HStep :=
  let c := headCfg h s
  let g := gn8Of (4 * c.ring + c.slot) s
  let t := entryTime en
  let n := if entryKind en = 1 then bitsNat en.w2.toNat 0 16 else 1
  { n := h, cfg := c, cb := s.img.cfg.cb, harb := s.dev.mode == .harbour,
    grid := gridFor g t, lastAt := instantAfter g t (n - 1), after := instantAfter g t n, frames := ceilDiv tLearn s.bell.period,
    ringUp := s.frame.ringsUp.contains c.ring, free := s.free,
    ev := (headOf h s).ev, out := [], flt := [] }

/-- The port takes the events that the head program has posted, once the shadow has matched them; those of a stuck shadow stay
in the POST lane (R182, R213). -/
def portTakes (e : Nat) (out : List Event) (s0 : State) : State :=
  let s := catchUpAt e s0
  if (engOf e s).state == .service && (engOf e s).core.shadow.stuck.isNone then
    modEng e (fun g => { g with core := { g.core with posts := [] } })
      { s with frame := { s.frame with events := s.frame.events ++ out.map fun v => (e, v) } }
  else s

/-- Commit a step of the head program: the entry is consumed, and its events, words of the POST lane, enter the event port
behind the engine's earlier posts (R14, R212). -/
def putStep (h e slot : Nat) (en : Entry) (rest : List Entry) (x : HStep) (s : State) : State :=
  let cap := queueCap (engOf e s)
  let s := if x.out.isEmpty then s else takePosts e (postsInUse (engOf e s).core) s
  let s := setCore e (fun k => emit (x.out.map postWord) (takeFront cap slot en rest k)) s
  let s := if x.out.isEmpty then s else portTakes e x.out s
  let s := setHead h { headOf h s with ev := x.ev } s
  { s with free := x.free, frame := { s.frame with headFlt := s.frame.headFlt ++ x.flt.map (fun b => (e, h, b)) } }

/-- Run the head program on the entry in front, where it is of a kind and shows the row's happening. -/
def runHead (kind : Nat) (act : Entry → HStep → HStep) (when_ : Eval → Eval → Bool) (h : Nat) (s : State) : State :=
  match nextEntry h s with
  | some (e, slot, en, rest) =>
    if doubles (streamHit slot 0 3) (engOf e s).core then ctxFault e .head fEccDed s
    else if entryKind en == kind then
      let x := act en (hstepOf h en s)
      if when_ (headOf h s).ev x.ev then putStep h e slot en rest x s else s
    else s
  | none => s

def always (_ _ : Eval) : Bool := true

def execSampleEvaluate (h : HeadIx) (s : State) : Out := .next (runHead 0 evalSample always h s)

def execBubbleRead (h : HeadIx) (s : State) : Out :=
  .next (runHead 1 (fun en x => takeBubble en (announce x)) always h s)

/-- The sample in front is the one at which 16 with SYSOK clear are reached (R99). -/
def execSysokFault (h : HeadIx) (s : State) : Out :=
  .next (runHead 0 evalSample (fun b a => b.state != .fault && a.state == .fault && a.cause == 0x20) h s)

/-- The sample in front is the one at which T_STAND is reached (R96). -/
def execStandingEntry (h : HeadIx) (s : State) : Out :=
  .next (runHead 0 evalSample (fun b a => b.state == .passage && a.state == .standing) h s)

/-- The sample in front is the one at which T_QUIET has elapsed (R410). -/
def execSuspectExit (h : HeadIx) (s : State) : Out :=
  .next (runHead 0 evalSample (fun b a => b.state == .suspect && (a.state == .idle || a.state == .baseline)) h s)

def execSysokFaultExit (h : HeadIx) (s : State) : Out :=
  .next (runHead 0 evalSample (fun b a => b.state == .fault && b.cause == 0x20 && a.state == .baseline) h s)

/-- The mark in front closes a frame of a head that learns (R84). -/
def execLearningWindowJudge (h : HeadIx) (s : State) : Out :=
  .next (runHead 2 evalMark (fun b _ => learns b.state) h s)

/-- The mark in front closes a frame of a head that does not learn; only one spent wholly in IDLE moves its
baseline (R86). -/
def execBaselineTrack (h : HeadIx) (s : State) : Out :=
  .next (runHead 2 evalMark (fun b _ => !learns b.state) h s)

end Sys2Proof.Machine
end

