-- ==== Sys2Proof/Machine/Section.lean ====
section
/-! DEFINITION. Sections: counts, causes, episodes, hints and the derivation of a section's state
(R119 to R123, R127 to R135, R140, R153, R154). -/

namespace Sys2Proof.Machine

/-! ### Episodes and axle lists (R119, R120) -/

/-- What an applied PASS does to a section: +1 or -1, through its end. -/
structure Move1 where
  up : Bool
  cls : Nat
  spc : Nat
  endIx : Nat
  deriving DecidableEq, Repr

/-- Append to one list: SPACING 0xFFFF where the end differs from that of the previous entry (R119). -/
def pushAxle (l : List Axle) (m : Move1) : List Axle :=
  let spc := match l.getLast? with
    | some p => if p.endIx = m.endIx then m.spc else 0xFFFF
    | none => m.spc
  l ++ [{ cls := m.cls, spc := spc, endIx := m.endIx }]

/-- One applied PASS in an episode; the 129th entry of a list is not stored (R119). -/
def appendEp (ep : Episode) (m : Move1) : Episode :=
  if m.up then
    if ep.e.length < 128 then { ep with e := pushAxle ep.e m } else { ep with overflow := true }
  else
    if ep.x.length < 128 then { ep with x := pushAxle ep.x m } else { ep with overflow := true }

def appendAll (ms : List Move1) (ep : Episode) : Episode := ms.foldl appendEp ep

/-- Class 0 matches anything (R120). -/
def clsOk (a b : Nat) : Bool := a == 0 || b == 0 || (decide (a ≤ b + 1) && decide (b ≤ a + 1))

/-- Spacing 0xFFFF matches anything; the tolerance is truncated (R120). -/
def spcOk (tolAbs tolRel a b : Nat) : Bool :=
  a == 0xFFFF || b == 0xFFFF ||
  (let tol := max tolAbs (max a b * tolRel / 1000)
   decide (a ≤ b + tol) && decide (b ≤ a + tol))

/-- Both lists agree, entry by entry; spacings are compared from the second entry on. -/
def classesOk : List Axle → List Axle → Bool
  | [], [] => true
  | x :: xs, e :: es => clsOk x.cls e.cls && classesOk xs es
  | _, _ => false

def spacingsOk (tolAbs tolRel : Nat) : List Axle → List Axle → Bool
  | x :: xs, e :: es => spcOk tolAbs tolRel x.spc e.spc && spacingsOk tolAbs tolRel xs es
  | _, _ => true

/-- The set left in the order it came in (R120). -/
def forwardOk (tolAbs tolRel : Nat) (e x : List Axle) : Bool :=
  classesOk x e && spacingsOk tolAbs tolRel (x.drop 1) (e.drop 1)

/-- The set backed out the way it came: x[i] against e[n+1-i], its spacing against e[n+2-i] (R120). -/
def reverseOk (tolAbs tolRel : Nat) (e x : List Axle) : Bool :=
  classesOk x e.reverse && spacingsOk tolAbs tolRel (x.drop 1) e.reverse

/-- An exit list matches its entry list (R120). -/
def listsMatch (tolAbs tolRel : Nat) (ep : Episode) : Bool :=
  ep.e.length == ep.x.length && (forwardOk tolAbs tolRel ep.e ep.x || reverseOk tolAbs tolRel ep.e ep.x)

def epUsable (ep : Episode) : Bool := !ep.overflow && !ep.unverified

/-! ### Generations (R147) -/

/-- The successor of a generation. -/
def succGen (g : Nat) : Nat := if 0xFFFF ≤ g then 1 else g + 1

/-! ### Derivation (R132 to R135) -/

/-- Cause codes (R132). -/
abbrev cManFail : Nat := 0x01
abbrev cManifest : Nat := 0x02
abbrev cPowerup : Nat := 0x03
abbrev cLate : Nat := 0x04
abbrev cHead : Nat := 0x05
abbrev cUnder : Nat := 0x06
abbrev cOver : Nat := 0x07
abbrev cPattern : Nat := 0x08
abbrev cSweep : Nat := 0x09

/-- SEC_FLT bit of a cause (R145). -/
def secCauseBit (c : Nat) : Option Nat :=
  match c with
  | 1 => some 7
  | 2 => some 7
  | 4 => some 4
  | 5 => some 3
  | 6 => some 1
  | 7 => some 2
  | 8 => some 5
  | 9 => some 9
  | _ => none

/-- What a commit shows a section: the moves of its applied PASS events in list order, whether each end head is late,
has entered a disturbing state, is in one, or is active, and the commit's landing and tick. -/
structure SecIn where
  pvc : Bool
  tolAbs : Nat
  tolRel : Nat
  moves : List Move1
  late : Bool
  entered : Bool
  bad : Bool
  active : Bool
  first : Bool
  /-- The manifest pair fails at this commit; it had failed before. -/
  failing : Bool
  failed : Bool
  land : Word
  tick : Bell
  sweepTmo : Nat
  deriving DecidableEq, Repr

/-- The lowest of a list of causes. -/
def lowest (l : List Nat) : Nat := l.foldl min 0xFF

/-- An entry to DISTURBED (R133, R134), with the sticky bits it sets. -/
def disturb (land : Word) (causes : List Nat) (r : Sec) : Sec × List Nat :=
  ({ r with state := .disturbed, gen := succGen r.gen, cause := lowest causes, dland := land, ep := none,
            hint := some .empty, wasClear := r.state == .clear, sweepLive := false },
   0 :: causes.filterMap secCauseBit)

def netDelta (ms : List Move1) : Int := ms.foldl (fun n m => if m.up then n + 1 else n - 1) 0

/-- The lists take the commit's PASS events (R119, R123); a CLEAR section opens an episode with them (DEDUCED, log 32). -/
def appendLists (ms : List Move1) (r : Sec) : Sec :=
  let ep := match r.ep with
    | some e => some (appendAll ms e)
    | none => if r.state == .clear && !ms.isEmpty then some (appendAll ms .empty) else none
  { r with ep := ep, hint := r.hint.map (appendAll ms) }

/-- Causes of a commit (R132, R135). -/
def causesOf (x : SecIn) (dist : Bool) (c : Int) : List Nat :=
  if x.first then (if x.failing then [cManFail, cPowerup] else [cPowerup])
  else
    (if x.failing then [cManFail] else []) ++
    (if x.late then [cLate] else []) ++
    (if x.entered || (x.bad && !dist) then [cHead] else []) ++
    (if !dist && c < 0 then [cUnder] else []) ++
    (if !dist && 32767 < c then [cOver] else [])

/-- CLEAR, with PATTERN_NC where verification was not possible (R121). -/
def grantClear (nc : Bool) (r : Sec) : Sec × List Nat :=
  ({ r with state := .clear, cause := 0, ep := none, hint := none, sweepLive := false }, if nc then [6] else [])

/-- The outcome where the derivation would yield CLEAR (R121); a failed comparison has a cause. -/
def clearOr (cause : Nat) (x : SecIn) (r : Sec) : Sec × List Nat :=
  let ep := r.ep.getD .empty
  if x.pvc && !epUsable ep then grantClear true r
  else if x.pvc && !listsMatch x.tolAbs x.tolRel ep then disturb x.land [cause] r
  else grantClear false r

/-- The sweep of a SWEEP_PENDING section at a commit (R154). -/
def sweepStep (x : SecIn) (r : Sec) : Sec × List Nat :=
  let r := { r with swIn := r.swIn || x.moves.any (·.up), swOut := r.swOut || x.moves.any (fun m => !m.up) }
  if !r.sweepLive || x.sweepTmo < elapsed x.tick r.sweepAt then disturb x.land [cSweep] r
  else if x.active || r.count != 0 || !r.swIn || !r.swOut then (r, [])
  else clearOr cSweep x r

/-- Manifest A adds the net change to its count (R139). -/
def sumA (ms : List Move1) (r : Sec) : Int := r.count + netDelta ms

/-- Manifest B subtracts it from its inverted count (R139). -/
def sumB (ms : List Move1) (b : SecB) : Int := -1 - (b.count.toInt - netDelta ms)

/-- The derivation of R135 for one configured section whose count comes to c; the landing of a change is set by stampChg. -/
def derive (x : SecIn) (c : Int) (r0 : Sec) : Sec × List Nat :=
  let r := appendLists x.moves r0
  let dist := r.state == .disturbed
  let r := { r with count := clampInt (-32768) 32767 c, prov := false }
  let causes := causesOf x dist c
  if x.failed then (r, [])
  else if !causes.isEmpty then disturb x.land causes r
  else
    match r.state with
    | .disturbed => (r, [])
    | .sweepPending => sweepStep x r
    | .unconfigured => (r, [])
    | _ =>
      if x.active || 0 < r.count then
        ({ r with state := .occupied, prov := x.active && decide (r.count ≤ 0), cause := 0,
                  ep := some (r.ep.getD .empty) }, [])
      else clearOr cPattern x r

/-- The restoration hint (R123). -/
def hintOf (tolAbs tolRel : Nat) (endsIdle : Bool) (r : Sec) : Nat :=
  match r.state, r.hint with
  | .disturbed, some h => hintCodeOf h
  | .sweepPending, some h => hintCodeOf h
  | _, _ => 0
where
  hintCodeOf (h : Episode) : Nat :=
    if h.overflow || (h.e.isEmpty && h.x.isEmpty) || h.e.length != h.x.length || !endsIdle then 0
    else if !listsMatch tolAbs tolRel h then 3
    else if r.wasClear then 2
    else 1

/-- The last-change landing takes the commit's where STATE or GEN differs from the commit before (R135). -/
def stampChg (land : Word) (old : Sec) (r : Sec) : Sec :=
  if old.state == r.state && old.gen == r.gen then r else { r with chg := land }

/-- The record of a section whose copies disagree (R140). -/
def replaceRec (land : Word) (old r : Sec) : Sec :=
  { r with state := .disturbed, cause := cManifest, count := old.count, gen := succGen old.gen, chg := land,
           dland := land, ep := none, hint := some .empty, wasClear := old.state == .clear, prov := false,
           sweepLive := false }

/-- What the comparison of a section's two records covers; the lists themselves stand for their CRC-32C (R140, log 101). -/
def agrees (a b : Sec) : Bool :=
  a.state == b.state && a.prov == b.prov && a.hintCode == b.hintCode && a.count == b.count && a.gen == b.gen &&
    a.chg == b.chg && a.cause == b.cause && a.ep == b.ep && a.hint == b.hint

/-- The record of a section when the manifest pair is declared failed (R141). -/
def failRec (land : Word) (old r : Sec) : Sec :=
  { r with state := .disturbed, cause := cManFail, gen := succGen old.gen, chg := land, dland := land, ep := none,
           hint := some .empty, wasClear := old.state == .clear, prov := false, sweepLive := false }

/-- The same for a section whose copies disagree at that commit: its count goes back (R140, R141). -/
def failBoth (land : Word) (old r : Sec) : Sec := { failRec land old r with count := old.count }

end Sys2Proof.Machine
end

