-- ==== Sys2Proof/Machine/Engine.lean ====
section
/-! DEFINITION. Engines: loading, fulling windows, removal, drain, domain loss, migration, hand-over and rotation
(R166 to R168, R187, R188, R211 to R231, R34, R181). -/

namespace Sys2Proof.Machine

/-! ### Loading an engine (R163, R166, R217) -/

/-- A memory with given bytes from address 0. -/
def memOfBytes (l : List Byte) : Mem :=
  ((l.zipIdx 0).filter fun p => p.1 != 0).map fun p => (p.2, p.1)

/-- Bytes padded with zeros, or cut, to a length. -/
def padTo (n : Nat) (l : List Byte) : List Byte := slice l 0 n

/-- ENG_STAT.EXT that the image's extension table gives an engine (R240, R308). -/
def extOf (e : Nat) (s : State) : Nat :=
  match s.img.cfg.exts.find? (fun x => decide (x.1 ≤ e ∧ e ≤ x.2.1)) with
  | some x => x.2.2 + 1
  | none => 0

/-- IMEM with the proof program, whose bytes from 0x3000 are its extension-context code (R217, R306). -/
def imemProof (s : State) : Mem := memOfBytes (padTo 0x4000 s.img.cfg.proofProg)

/-- IMEM with a head program and an extension program (R166, R306). -/
def imemWith (prog : List Byte) (ext : Nat) (s : State) : Mem :=
  memOfBytes (padTo 0x3000 prog ++ padTo 0x1000 (if ext = 0 then [] else tabGet [] s.img.cfg.extProgs (ext - 1)))

/-- The state an engine starts in (R166). -/
def freshCore (imem : Mem) : Core :=
  let x := { CtxSt.reset with pc := 0x3000 }
  { Core.reset with imem := imem, ext := x, shadow := { Shadow.reset with ext := x } }

/-- An engine begins a fulling window (R216, R217). -/
def startWindow (e : Nat) (s : State) : State :=
  let ext := extOf e s
  modEng e (fun g => { g with
    state := .proving, slots := [], ext := ext, winStart := some s.bell.time, verdict := none, win := .reset
    core := { freshCore (imemProof s) with xEnded := false } }) s

/-- A window ends with a verdict: head and extension programs are loaded and the data memories cleared (R217, R218). -/
def endWindow (e : Nat) (pass : Bool) (s : State) : State :=
  modEng e (fun g => { g with
    winStart := none, winEnd := some s.bell.time, verdict := some pass
    core := freshCore (imemWith s.img.cfg.headProg g.ext s) }) s

/-- The conditions of R218. -/
def windowPasses (w : WinSt) (expected : List Word) (age : Nat) : Bool :=
  w.sigP == w.sigS && w.sigP == expected && w.forced == 128 && !w.unforced && !w.ded && decide (age ≤ 80000)

/-- Bits shifted into the signature of each lane. -/
def shiftSigs (bits : List (List Bool)) (sigs : List Word) : List Word :=
  sigs.zipWith (fun r b => b.foldl shiftSig r) bits

/-- The window logic when the rest of the proof program has run behind the instructions commanded one by one, with the fixed
points still to come (R217; log 110). -/
def winShows (w : WindowIn) (x : WinSt) : WinSt :=
  { x with count := x.count + w.n, sigP := shiftSigs w.bitsP x.sigP, sigS := shiftSigs w.bitsS x.sigS, points := 128
           forced := x.forced + (128 - x.points - w.missed), unforced := x.unforced || w.unforced }

/-- Both cores reach the end of the proof program, 1 048 576 retired instructions from its start (R217). -/
def execFullingWindowEnd (e : EngIx) (w : WindowIn) (s0 : State) : Out :=
  let s := catchUpAt e s0
  let g := engOf e s
  let x := winShows w { g.win with unforced := g.win.unforced || g.core.shadow.stuck.isSome }
  match g.state, g.winStart with
  | .proving, some t =>
    .next (if x.count = 1048576 then
      endWindow e (windowPasses x s.img.cfg.psig (elapsed s.bell.time t)) (setEng e { g with win := x } s) else s)
  | _, _ => .next s

def execFullingWindowTimeout (e : EngIx) (s : State) : Out :=
  let g := engOf e s
  match g.state, g.winStart with
  | .proving, some t => .next (if 80000 < elapsed s.bell.time t then endWindow e false s else s)
  | _, _ => .next s

/-- An engine is retired (R219, R241, R244). -/
def retire_ (e : Nat) (s : State) : State :=
  sticky clsChk 0 8 (sticky clsEng e 13 (modEng e (fun g => { g with state := .retired, core := .reset }) s))

/-! ### Removal for cause (R213 to R215) and illegal words (R175) -/

/-- The comparator finds that a lane's two words differ. -/
def execShadowMismatch (e : EngIx) (l : Lane) (s : State) : Out :=
  .next (removeEngine e 0x01 [0, laneBit l] (noteUnforced e s))

/-- The shadow gives a lane an entry while none of the primary waits, which is a mismatch at once; or it gives the lane nothing
more, which is one when the primary has retired 16 instructions past the entry left unmatched (R213). -/
def execLaneLag (e : EngIx) (l : Lag) (s : State) : Out :=
  .next (match l with
    | .ahead l => removeEngine e 0x02 [0, 5, laneBit l] (noteUnforced e s)
    | .behind l =>
      if engRuns (engOf e s) then
        modEng e (fun g => { g with core := { g.core with shadow := { g.core.shadow with stuck := some l } } }) s
      else s)

/-- A word that decodes to no instruction of the context raises ILLEGAL (R175, R187). -/
def execIllegalInstruction (e : EngIx) (c : Ctx) (w : Word) (s : State) : Out :=
  match Dyhar.decode e c w with
  | some _ => .next s
  | none => .next (issue e c true [] (fun _ => .fault fIllegal) s)

/-! ### The drain (R31 to R35, R181, R188) -/

/-- An extension program still runs. -/
def extRuns (g : Eng) : Bool := g.state == .service && !g.core.xEnded && g.core.ext.halted.isNone

/-- Preempt an engine's extension program that still runs; PREEMPT is recorded, not a fault, and the shadow ends where the
primary does. DESIGN CHOICE (log 129): also where a fault has halted the engine's head context, whose code PREEMPT then takes the
place of. A killed operation that has failed its check is a mismatch (R188, R205, R211). -/
def preemptEng (e : Nat) (s : State) : State :=
  let g := engOf e s
  if extRuns g then
    failCheck (killsFailed preempted g.core.cops) e
      (catchUpAt e (setCore e preemptExt (modEng e (fun g => { g with errCode := fPreempt }) s)))
  else s

/-- Drain complete at a phase: the event set is fixed, and extension programs are preempted (R31, R188). -/
def drainCompleteAt (d : Nat) (s : State) : State :=
  forEach (s.engs.map (·.1)) preemptEng
    { s with frame := { s.frame with drained := some d }, bell := { s.bell with drainT := d } }

/-- Drain complete now. -/
def drainComplete (s : State) : State := drainCompleteAt s.bell.phase s

/-- The head context stands at WLAND with every mark pulled and every tag returned, and the shadow has reached the same WLAND
with every lane empty (R181, R213). -/
def wlandReady (g : Eng) : Bool :=
  let k := g.core
  waitsLand k.head && k.shadow.fifo.isEmpty &&
  k.dead.isNone && k.drained.isNone && k.pulls.isEmpty && k.posts.isEmpty &&
  !(k.shared.any fun o => o.ctx == .head) && !(k.cops.any fun o => o.ctx == .head) &&
  g.slots.all fun p => k.marks.contains p.1

/-- Every in-service engine has drained. -/
def allDrained (s : State) : Bool :=
  s.engs.all fun p => !(p.2.state == .service && !p.2.slots.isEmpty) || p.2.core.drained.isSome

/-- The drain deadline in ticks (R31). -/
def deadlineOf (s : State) : Nat := s.bell.frameLen / 4

/-- Engines are late, and recorded; they run on until the commit takes them out (R34, R35, R341). -/
def markLate (l : List Nat) (s : State) : State :=
  match l with
  | [] => s
  | e :: _ =>
    let fresh := s.frame.late.isEmpty
    let s := { s with
      frame := { s.frame with late := sortKeys (s.frame.late ++ l) }
      bell := { s.bell with missCnt := if fresh then satInc 0xFFFF s.bell.missCnt else s.bell.missCnt
                            lateEng := some (s.bell.lateEng.getD e) } }
    sticky clsBell 0 4 s

/-- In-service engines that have not executed WLAND. -/
def undrained (s : State) : List Nat :=
  (servingEngs s).filter fun e => (engOf e s).core.drained.isNone

/-- A closing frame waits for its drain (R31). -/
def draining (s : State) : Bool := commits s && s.frame.closing && s.frame.drained.isNone

/-- The drain deadline: every undrained engine is late, and the drain is complete (R31, R34). -/
def drainDeadline (s : State) : State := drainCompleteAt (deadlineOf s) (markLate (undrained s) s)

/-- The deadline acts as soon as bell time has reached it with the drain not complete, so that a commit is never later than
the deadline and 80 ticks (R31, R33). -/
def passDeadline (s : State) : State :=
  if draining s && decide (deadlineOf s ≤ s.bell.phase) then drainDeadline s else s

/-- The bell runs on to the drain deadline (R34). -/
def execDrainDeadline (s : State) : Out :=
  .next (if draining s then drainDeadline (addTicks (deadlineOf s - s.bell.phase) s) else s)

/-- A late engine executes its WLAND behind the deadline and ahead of the commit (R35, R341). -/
def lateDrain (e : Nat) (s : State) : Bool := commits s && s.frame.closing && s.frame.late.contains e

/-- An engine reports itself drained; the last one makes the drain complete (R31, R181). Behind the deadline its WLAND changes
nothing but the slack that R341 takes from its instant (R35; DEDUCED, log 126). -/
def execWlandDrained (e : EngIx) (s0 : State) : Out :=
  let s := catchUpAt e (passDeadline s0)
  let g := engOf e s
  if (draining s || lateDrain e s) && engServing e s && wlandReady g then
    let s1 := setEng e { g with core := { g.core with drained := some s.bell.phase } } s
    .next (if draining s && allDrained s1 then drainComplete s1 else s1)
  else .next s

/-! ### Choice of engines (R220) -/

/-- Engines promised to a move in progress. -/
def reserved (s : State) : List Nat :=
  (s.sup.moves.filter fun m => m.stage != .waiting).map (·.dst)

/-- READY engines not promised to a move, in rising order. -/
def readyEngs (s : State) : List Nat :=
  (s.engs.filter fun p => p.2.state == .ready && !(reserved s).contains p.1).map (·.1)

def countState (st : EngState) (s : State) : Nat := (s.engs.filter fun p => p.2.state == st).length

/-- The destination of a move: the domain with the most READY engines outside an excluded one, the lower on a tie,
and its lowest-numbered READY engine (R220). -/
def pickEngine (excl : Option Nat) (s : State) : Option Nat :=
  let l := (readyEngs s).filter fun e => excl != some (e / 32)
  let count := fun k => (l.filter fun e => e / 32 == k).length
  let best := (List.range 16).foldl (fun b k => if count b < count k then k else b) 0
  l.find? fun e => e / 32 == best

/-! ### Moves (R221, R226) -/

/-- A migration, as against a hand-over (kinds 2 to 4). -/
def isMigration (m : Move) : Bool := m.kind == 0 || m.kind == 1 || m.kind == 5

def moveOf (h : Nat) (s : State) : Option Move := s.sup.moves.find? fun m => m.head == h

/-- The moves change in both supervisors' memories (R233). -/
def modMoves (f : List Move → List Move) (s : State) : State := modSups (fun m => { m with moves := f m.moves }) s

/-- The engine in rotation, in both supervisors' memories (R231, R233). -/
def setRot (r : Option Nat) (s : State) : State := modSups (fun m => { m with rot := r }) s

/-- Replace the move of a head. -/
def putMove (m : Move) (s : State) : State :=
  modMoves (fun l => sortBy (·.head) (m :: l.filter fun x => x.head != m.head)) s

def dropMove (h : Nat) (s : State) : State := modMoves (fun l => l.filter fun x => x.head != h) s

/-- A migration of a head that waits for a READY engine. -/
def waitMove (h src kind : Nat) (s : State) : State :=
  putMove { head := h, src := src, dst := 0, slot := 0, kind := kind, record := false, stage := .waiting } s

/-- A migration or hand-over is ordered and its head not yet started (CHK_STAT.MIG_BUSY, R243). -/
def migBusy (s : State) : Bool := s.sup.moves.any fun m => m.kind != 5 && m.stage != .waiting

/-- The engine is source or destination of a hand-over (R228). -/
def inHandover (e : Nat) (s : State) : Bool :=
  s.sup.moves.any fun m => !isMigration m && m.stage != .waiting && (m.src == e || m.dst == e)

/-- Order a hand-over; it waits for a passed checkpoint (R226). -/
def orderHandover (h src dst kind : Nat) (s : State) : State :=
  putMove { head := h, src := src, dst := dst, slot := 0, kind := kind, record := false, stage := .chosen } s

/-- A waiting move takes a destination: a first placement engine n while that may still come READY (R220, R315). -/
def choose (m : Move) (s : State) : State :=
  if m.stage != .waiting then s
  else
    let own := engOf m.head s
    let coming := own.state == .proving || own.state == .out || (own.state == .off &&
      (s.pmc.engQueue.contains (engDom m.head) || (domOf (engDom m.head) s).state == .ramp))
    if m.kind == 5 && coming then s
    else
      let d := if m.kind == 5 && (readyEngs s).contains m.head then some m.head
        else pickEngine (if m.kind == 5 then none else some (m.src / 32)) s
      match d with
      | some e => putMove { m with dst := e, stage := .chosen } s
      | none => stickyIf s.sup.resJudged clsChk 0 5 s

/-- Destinations are chosen in head order (R220). -/
def chooseMoves (s : State) : State := forEach s.sup.moves choose s

/-- A checkpoint that passed agrees the orders (R221, R226, R236). -/
def agreeMoves (s : State) : State :=
  modMoves (fun l => l.map fun m => if m.stage == .chosen then { m with stage := .agreed } else m) s

/-- The next free slot of an engine. -/
def freeSlot (g : Eng) : Nat := ((List.range 8).find? fun i => !(g.slots.any fun p => p.1 == i)).getD 7

/-- The streams of a head switch to its destination at the landing tick; the entries kept since the loss of a domain go
ahead of live ones (R221, R222, R226). A destination that has left READY and SERVICE since is given up. -/
def switchMove (m : Move) (s : State) : State :=
  let go := if isMigration m then m.stage == .agreed else m.stage == .requested
  let d := (engOf m.dst s).state
  if !go then s
  else if d != .ready && d != .service then
    (if isMigration m then waitMove m.head m.src m.kind s else dropMove m.head s)
  else
    let slot := freeSlot (engOf m.dst s)
    let hd := headOf m.head s
    let s := setHead m.head { hd with route := some (m.dst, slot) } s
    let s := putMove { m with slot := slot, stage := .switched } s
    if m.kind == 1 then
      modEng m.dst (fun g =>
        let k := { g.core with replay := tabSet [] g.core.replay slot hd.keptClosing }
        { g with core := refill (queueCap g) slot k }) s
    else s

def switchMoves (s : State) : State := forEach s.sup.moves switchMove s

/-! ### Loss of an ENG domain (R222) -/

/-- Engine numbers of ENG domain k. -/
def engsOfDom (k : Nat) : List Nat := (List.range 32).map fun i => 32 * k + i

/-- The heads an engine serves, in slot order. -/
def headsOfEng (g : Eng) : List Nat := g.slots.map fun p => p.2 - 1

/-- A slot's queue is emptied, with what waits there to be replayed, its bubble record, its mark and its errors. -/
def emptySlot (slot : Nat) (k : Core) : Core :=
  { k with
    queues := tabSet [] k.queues slot [], bub := tabSet .reset k.bub slot .reset, replay := tabSet [] k.replay slot []
    ecc := k.ecc.filter fun x => !streamHit slot 0 511 x
    marks := k.marks.filter (· != slot) }

/-- What a head's streams have written to a destination that does not take the head over is dropped (R166). -/
def clearDest (h : Nat) (s : State) : State :=
  match moveOf h s with
  | some m =>
    if m.stage == .switched then modEng m.dst (fun g => { g with core := emptySlot m.slot g.core }) s else s
  | none => s

/-- A head whose engine is withdrawn (R222). -/
def withdrawHead (src h : Nat) (s0 : State) : State :=
  let s := clearDest h s0
  let hd := headOf h s
  let s := setHead h { hd with route := none, held := hd.state == .idle
                               keptClosing := if s.frame.closing then hd.keptClosing else [] } s
  waitMove h src 1 s

/-- An engine of the lost domain before the drain deadline of the frame (R222). -/
def withdrawEng (e : Nat) (s : State) : State :=
  let g := engOf e s
  let s := setEng e { g with state := .off, errCause := 0x06, slots := [], winStart := none, verdict := none,
                             core := .reset } s
  let s := { s with frame := { s.frame with withdrawn := s.frame.withdrawn ++ [e]
                                            events := s.frame.events.filter fun x => x.1 != e } }
  forEach (headsOfEng g) (withdrawHead e) s

/-- An engine of the lost domain that serves no head. -/
def offEng (e : Nat) (s : State) : State :=
  let g := engOf e s
  if g.state == .retired then s
  else setEng e { g with state := .off, winStart := none, verdict := none, core := .reset } s

/-- A move whose destination lies in the lost domain starts over, or its hand-over is dropped (DEDUCED, log 33). -/
def loseDest (k : Nat) (m : Move) (s : State) : State :=
  if m.stage == .waiting || m.dst / 32 != k then s
  else if isMigration m then
    setHead m.head { headOf m.head s with route := none } (waitMove m.head m.src m.kind s)
  else if m.stage == .switched then withdrawHead m.src m.head s
  else dropMove m.head s

/-- ENG domain k is lost (R222). -/
def loseEngDom (k : Nat) (s : State) : State :=
  let l := engsOfDom k
  let serving := l.filter fun e => engServing e s
  let pastDl := s.frame.closing && decide (deadlineOf s ≤ s.bell.phase)
  let s := if pastDl then
      let late := serving.filter fun e => !s.frame.late.contains e
      let s := markLate late s
      forEach serving (fun e => modEng e fun g => { g with state := .off }) s
    else forEach serving withdrawEng s
  let s := forEach (l.filter fun e => !serving.contains e) offEng s
  let s := forEach s.sup.moves (loseDest k) s
  if s.sup.rot.any fun e => e / 32 == k then setRot none s else s

/-! ### Rotation (R230, R231) -/

/-- Age of an engine's latest window in ticks; none where it has none. -/
def windowAge (e : Nat) (s : State) : Nat :=
  match (engOf e s).winEnd with
  | some t => elapsed s.bell.time t
  | none => 0

/-- ROT_INT in ticks. -/
def rotTicks (s : State) : Nat := s.img.cfg.rotInt * 36000000000

/-- The engine with the oldest window, the lowest on a tie. -/
def oldest (l : List Nat) (s : State) : Option Nat :=
  match l with
  | [] => none
  | e :: t => some (t.foldl (fun b e => if windowAge b s < windowAge e s then e else b) e)

/-- The READY engine to rotate: one whose window is older than ROT_INT (R231). -/
def rotReady (s : State) : Option Nat := oldest ((readyEngs s).filter fun e => rotTicks s < windowAge e s) s

/-- The SERVICE engine to rotate: the one with the oldest window (R231). -/
def rotService (s : State) : Option Nat := oldest ((servingEngs s).filter fun e => !inHandover e s) s

/-- The next engine to rotate (CHK_ROT.NEXT, R243). -/
def rotCandidate (s : State) : Nat := ((rotReady s).orElse fun _ => rotService s).getD 0

/-- An engine in rotation hands over the head in its highest slot, as long as a READY engine can take it (R226, R231). -/
def rotateOut (e : Nat) (s : State) : State :=
  match pickEngine (some (e / 32)) s with
  | some d =>
    setRot (some e) (orderHandover (slotHead (engOf e s) (topSlot (engOf e s))) e d 2 s)
  | none => setRot none s

/-- The next rotation starts (R231). -/
def rotate (s : State) : State :=
  match rotReady s with
  | some e => setRot (some e) (startWindow e s)
  | none =>
    match rotService s with
    | some e => rotateOut e s
    | none => s

/-- An engine that is not in rotation has a window aged past ROT_INT (R231). -/
def skipped (s : State) : Bool :=
  s.engs.any fun p => (p.2.state == .ready || p.2.state == .service) && s.sup.rot != some p.1 &&
    decide (rotTicks s < windowAge p.1 s)

/-- One rotation at a time, and none begins in THROTTLE (R231, R346). -/
def execRotationDue (s : State) : Out :=
  if !commits s || !s.sup.resJudged then .next s
  else
    let s1 := if s.sup.rot.isSome || throttled s then s else rotate s
    .next (stickyIf (skipped s1) clsChk 0 7 s1)

/-! ### A head starts on an engine (R100, R168, R221, R226) -/

/-- The evaluation of a head that starts without a valid record, from its committed record (R100). -/
def startEval (first hold : Bool) (h : Head) : Eval :=
  let base := fun w => { SysEval.reset with base := baseOfWord w }
  let keep := h.state == .fault && (h.cause == 0x21 || h.cause == 0x23 || h.cause == 0x24)
  let st := if h.state == .idle then HeadState.idle else if keep then .fault else .baseline
  let cur : StateEv := { head := 0, state := h.state, back := false, side := false, a := h.a, b := h.b,
                         cause := h.cause, baseA := h.baseA, baseB := h.baseB, chg := false }
  { Eval.reset with
    state := st, cause := if keep then h.cause else 0, a := base h.baseA, b := base h.baseB, takeover := true
    hold := hold, wholeIdle := st == .idle
    posted := if first || st != .baseline then some cur else none }

/-- A word as four bytes. -/
def wordBytes (w : Word) : List Byte := leBytes 4 w.toNat

def iqBytes (z : Int × Int) : List Byte := wordBytes (iqWord z)

/-- The head descriptor, its words in the order R168 lists them (DESIGN CHOICE, log 34). -/
def descriptor (h : Nat) (hvalid : Bool) (s : State) : List Byte :=
  let c := headCfg h s
  let hd := headOf h s
  padTo 64 (wordBytes (BitVec.ofNat 32 h) ++ wordBytes c.wCfg ++ wordBytes c.wThr ++ wordBytes c.wChk ++
    iqBytes c.zcA ++ iqBytes c.zcB ++ wordBytes hd.baseA ++ wordBytes hd.baseB ++
    wordBytes (packWord [(0, headCode hd.state), (8, b2n hvalid)]))

/-- V_LIM in 0.01 m/s, rounded (R168, R82). -/
def vLimWord (s : State) : Nat :=
  if s.dev.mode == .harbour then 833 else 8333

/-- The device constants (R168; layout DESIGN CHOICE, log 34). -/
def deviceConstants (s : State) : List Byte :=
  let cb := fun i => wordBytes (BitVec.ofNat 32 (s.img.cfg.cb.getD i 0))
  padTo 64 (wordBytes (BitVec.ofNat 32 (modeCode s.dev.mode)) ++ wordBytes (BitVec.ofNat 32 s.bell.period) ++
    wordBytes (BitVec.ofNat 32 (vLimWord s)) ++ cb 0 ++ cb 1 ++ cb 2 ++ cb 3 ++ cb 4 ++ cb 5 ++
    wordBytes (packWord [(0, b2n (inHoldover s))]))

/-- Shared space of an engine at a release; a record is offered to at most one slot (R168). DESIGN CHOICE, log 133: an offset that
the table does not list reads as zero. -/
def sharedSpace (g : Eng) (offered : Option (Nat × List Byte)) (s : State) : Mem :=
  let slot := fun i =>
    match tabGet 0 g.slots i with
    | 0 => padTo 64 []
    | h + 1 => descriptor h (offered.any fun o => o.1 == i) s
  memOfBytes (padTo 0x400 ((List.range 8).flatMap slot) ++ padTo 0x400 (deviceConstants s) ++
    padTo 64 (match offered with
      | some o => o.2
      | none => []))

/-- A head starts on its destination at the release: slot, engine, evaluation, and what CHK_MIG shows (R221, R226,
R243). A head that continues from a valid record keeps its evaluation. -/
def startHead (m : Move) (valid : Bool) (s : State) : State :=
  let hd := headOf m.head s
  let ev := if valid then hd.ev else startEval (m.kind == 5) (inHoldover s) hd
  let gen := if valid || m.kind == 5 then hd.gen else succGen hd.gen
  let s := setHead m.head { hd with engine := m.dst, ev := ev, gen := gen, route := some (m.dst, m.slot) } s
  let s := modEng m.dst (fun g => { g with state := .service, slots := tabSet 0 g.slots m.slot (m.head + 1) }) s
  let s := dropMove m.head s
  if m.kind == 5 then s
  else
    { s with sup := { s.sup with
        mig := packWord [(31, 1), (30, b2n valid), (27, m.kind), (18, m.dst), (9, m.src), (0, m.head)]
        migLand := s.bell.landNo } }

end Sys2Proof.Machine
end

