-- ==== Sys2Proof/Machine/Boot.lean ====
section
/-! DEFINITION. The return to BOOT (R320, R329) and the resets of RESET_N and the power cycle (R358, R401). -/

namespace Sys2Proof.Machine

/-! ### Stop groups and SAFIO in BOOT -/

/-- A group without configuration: outputs low, its inputs still taken (R251, R320, R398). -/
def unusedGrp (g : Grp) : Grp :=
  { Grp.reset with
    fba := g.fba, fbb := g.fbb, gda := g.gda, gdb := g.gdb, lrst := g.lrst, lat := g.lat, tickStat := g.tickStat
    live := g.live, edgeA := g.edgeA, edgeB := g.edgeB
    ea := g.ea, eb := g.eb, encErr := g.encErr, v0 := g.v0, ss1Land := g.ss1Land, stopSs1 := g.stopSs1
    stopFb := g.stopFb, lrstAt := g.lrstAt, stuck := g.stuck, gdDisc := g.gdDisc, fbDisc := g.fbDisc }

/-- SAFIO watches nothing in BOOT (R263 to R265). -/
def safBoot (x : SafSt) : SafSt :=
  { SafSt.reset with
    groups := tabMap .reset (fun _ g => unusedGrp g) x.groups
    sealOk := x.sealOk, tokLand := x.tokLand, sealPat := x.sealPat, glitch := x.glitch, reads := x.reads }

/-! ### The blocks in BOOT -/

/-- Engines are OFF; STRIKE counts from BOOT (R219). -/
def offAtBoot (g : Eng) : Eng :=
  { Eng.reset with last := g.last, errCode := g.errCode, errCause := g.errCause, ce := g.ce }

/-- A domain at the return to BOOT: ENG domains are off, phases are enabled again, and a lost domain is started again
(R329, R335, R338; DEDUCED, log 35), its monitors marked failed no more. -/
def domBoot (now : Bell) (d : Nat) (x : Dom) : Dom :=
  let x := { x with disabled := 0, xonAt := [], hist := [], hiRun := 0 }
  if 14 ≤ d then { x with
    state := .off, vset := 0, slew := none, slack := 0, slackMin := 0x7FFF, fail1 := false, fail2 := false }
  else if x.state == .lost then { x with
    state := .ramp, vset := domSetpoint d, startAt := now, fail1 := false, fail2 := false, uv1 := false, ov1 := false, uv2 := false, ov2 := false }
  else x

/-- A ring port in BOOT (R55, R398): no swing; its counters stand. -/
def portBoot (r : RPort) : RPort := { RPort.reset with cv := r.cv, crc := r.crc, seq := r.seq }

/-- A head in BOOT: UNASSIGNED; HEAD_PASS counts on (R102, R105). -/
def headBoot (h : Head) : Head := { Head.reset with passAB := h.passAB, passBA := h.passBA }

/-- A host port at the return to BOOT: the image load window is cleared and nothing taken is kept (R320). -/
def hostBoot (h : PortSt) : PortSt :=
  { h with window := [], mbHeld := false, mbStat := 3, publish := false, body := false, pubLeft := 1, recDrop := false }

/-- Trees come back into service, and the bell unlocks (R39, R320). -/
def bellBoot (b : BellSt) : BellSt :=
  let ho := b.hold && b.lost
  { b with locked := false, waits := [], load := false, loadPps := false, outA := false, outB := false
           ssStart := if ho then b.ssStart else none, ssExpired := ho && b.ssExpired }

/-- The return to BOOT by command (R320). Bell time and the landing number continue (R23). -/
def returnToBoot (s : State) : State :=
  let s := { s with
    bell := bellBoot s.bell
    frame := .reset
    ports := tabMap .reset (fun _ r => portBoot r) s.ports
    rings := tabMap .reset (fun _ r => { Ring.reset with lateCnt := r.lateCnt, bubCnt := r.bubCnt, tag := r.tag })
      s.rings
    gn8s := []
    heads := tabMap .reset (fun _ h => headBoot h) s.heads
    man := .reset
    engs := tabMap .reset (fun _ g => offAtBoot g) s.engs
    sup := { SupSt.reset with
             passA := s.sup.passA, passB := s.sup.passB, ceA := s.sup.ceA, ceB := s.sup.ceB
             digA := s.sup.digA, digB := s.sup.digB, mig := s.sup.mig, migLand := s.sup.migLand
             paramLast := s.sup.paramLast, b := { SupMem.reset with paramLast := s.sup.b.paramLast } }
    saf := safBoot s.saf
    ha := hostBoot s.ha
    hb := hostBoot s.hb
    pmc := { s.pmc with doms := tabMap .reset (domBoot s.bell.time) s.pmc.doms, engQueue := [], engAt := none, shed := false }
    img := { s.img with state := .empty, owner := none, len := 0, cfg := .none }
    dev := { s.dev with mode := .boot, prior := none, pdone := false, htrans := 0, st := false, stfail := false
                        win := false, rings := false, learn := false, tmo := false, stEnd := false
                        stBad := false, modeLand := s.bell.landNo, startReq := false, startTick := false
                        first := false }
    flt := { s.flt with dmHold := false }
    shown := [] }
  raiseBoth 5 s

/-! ### RESET_N and the power cycle (R358, R401, R402) -/

/-- Every fault register but the FLT block clears (R358). -/
def keepFlt (bits : Tab Word) : Tab Word := bits.filter fun p => p.1 / 512 == clsFlt

/-- What no reset changes: the levels at the balls, the supplies, the free-value counter and the waiting commands. A level
that is timed counts from the restart of bell time (R256, R257, R259, R401). -/
def inputsOf (g : Grp) : Grp :=
  { Grp.reset with
    fba := g.fba, fbb := g.fbb, gda := g.gda, gdb := g.gdb, lrst := g.lrst, ea := g.ea, eb := g.eb
    fbDisc := if g.fba == g.fbb then none else some 0
    gdDisc := if g.gda == g.gdb then none else some 0
    lrstAt := if g.lrst then some 0 else none }

/-- RESET_N low for at least 10 us: every domain but D00 is held off, and every block stands as after reset; the
first-fault store keeps its content (R358, R360, R401). -/
def deviceReset (s : State) : State :=
  { State.reset with
    saf := { SafSt.reset with groups := tabMap .reset (fun _ g => inputsOf g) s.saf.groups }
    pins := { s.pins with resetN := false }
    pmc := { PmcSt.reset with doms := [(0, { Dom.reset with state := .on, vset := 800 })] }
    flt := { (settle s).flt with bits := keepFlt s.flt.bits, faultN := false, dmHold := false }
    ha := { PortSt.reset with host := s.ha.host, perst := s.ha.perst }
    hb := { PortSt.reset with host := s.hb.host, perst := s.hb.perst }
    free := s.free
    pending := s.pending }

/-- VAON is lost: D00 and with it everything, the capture store and the instruction of the test access port included (R2, R360,
R402). -/
def powerLost (s : State) : State :=
  let u := deviceReset s
  { u with
    pins := { s.pins with vaon := false, jtag := .idcode }
    flt := .reset
    pmc := { u.pmc with doms := [], step := 1 } }

end Sys2Proof.Machine
end

