-- ==== Sys2Proof/Machine/Cmd.lean ====
section
/-! DEFINITION. Mailbox commands: checks, effects and results (R148 to R159, R252 to R261, R281, R290 to R296,
R318 to R323). -/

namespace Sys2Proof.Machine

/-! ### Entries (R290) -/

/-- Byte k of ARG. -/
def argByte (f : MbFields) (k : Nat) : Nat := bitsNat f.arg.toNat (8 * k) 8

/-- ARG with the bytes of a list set to zero. -/
def argClear (f : MbFields) (used : List Nat) : Bool :=
  (List.range 12).all fun k => used.contains k || argByte f k == 0

/-- The 32 bytes of an entry. -/
def entryImage (op : Byte) (f : MbFields) : List Byte :=
  [op, f.z1] ++ leBytes 2 f.obj.toNat ++ leBytes 4 f.tag.toNat ++ leBytes 4 f.issue.toNat ++
    leBytes 2 f.gen.toNat ++ leBytes 2 f.acode.toNat ++ leBytes 2 f.count.toNat ++ leBytes 2 f.key.toNat ++
    leBytes 12 f.arg.toNat

/-- The fields of an entry's 32 bytes. -/
def parseEntry (l : List Byte) : MbFields :=
  { z1 := BitVec.ofNat 8 (fieldLE l 1 1), obj := BitVec.ofNat 16 (fieldLE l 2 2), tag := BitVec.ofNat 32 (fieldLE l 4 4),
    issue := BitVec.ofNat 32 (fieldLE l 8 4), gen := BitVec.ofNat 16 (fieldLE l 12 2),
    acode := BitVec.ofNat 16 (fieldLE l 14 2), count := BitVec.ofNat 16 (fieldLE l 16 2),
    key := BitVec.ofNat 16 (fieldLE l 18 2), arg := BitVec.ofNat 96 (fieldLE l 20 12) }

/-- Which fields an operation uses (R149, R290, R293): OBJ, ISSUE, GEN and ACODE, COUNT, KEY, ARG bytes; none for an
unlisted OP. -/
structure OpUse where
  obj : Bool
  issue : Bool
  gac : Bool
  count : Bool
  key : Bool
  arg : List Nat
  deriving DecidableEq, Repr

def opUse (op : Nat) : Option OpUse :=
  let u := fun o i r c k a => some { obj := o, issue := i, gac := r, count := c, key := k, arg := a : OpUse }
  match op with
  | 0x00 => u false false false false false []
  | 0x01 => u true true true false false []
  | 0x02 => u true true true true false []
  | 0x03 => u true true true true true []
  | 0x10 => u true true false false false []
  | 0x11 => u true true false false false []
  | 0x12 => u true true false false false [0]
  | 0x13 => u true true false false false []
  | 0x14 => u false true false false false []
  | 0x20 => u false true false false false [0]
  | 0x30 => u true true false false false [0, 1, 2, 3, 4, 5, 8, 9, 10, 11]
  | 0x40 => u true true false false false [0, 2, 3]
  | 0x41 => u true true false false false [0]
  | 0x50 => u true true false false false [0, 1]
  | 0x60 => u false false false false false []
  | 0x61 => u false false false false false []
  | _ => none

/-- The check of code 0x10 (R292). -/
def formatOk (op : Nat) (f : MbFields) : Bool :=
  match opUse op with
  | none => false
  | some u =>
    f.z1 == 0 && (u.obj || f.obj == 0) && (u.issue || f.issue == 0) && (u.gac || (f.gen == 0 && f.acode == 0)) &&
    (u.count || f.count == 0) && (u.key || f.key == 0) && argClear f u.arg &&
    (op != 0x41 || argByte f 0 < 2)

/-- ISSUE is later than the current landing, or 4 096 or more landings behind it (R151 code 0x04). -/
def stale (f : MbFields) (s : State) : Bool :=
  laterMod 32 f.issue s.bell.landNo || decide (4096 ≤ elapsedLand s.bell.landNo f.issue)

/-- Where a command stands: its code, its VALUE, and the state. -/
abbrev CmdOut := Nat × Nat × State

def refuse (code : Nat) (s : State) : CmdOut := (code, 0, s)

/-- The first code that applies, else the effect. -/
def checks (l : List (Bool × Nat)) (ok : State → CmdOut) (s : State) : CmdOut :=
  match l.find? (·.1) with
  | some c => refuse c.2 s
  | none => ok s

/-- Modes in which most commands are refused with 0x01. -/
def inBootProve (s : State) : Bool := s.dev.mode == .boot || s.dev.mode == .prove

/-! ### Restorations (R150 to R159) -/

/-- The port is the follower for the commands of this commit (R281, R292). -/
def isFollower (p : HostId) (s : State) : Bool :=
  match s.sup.leadNow with
  | some l => l != p
  | none => s.dev.hasLead && s.dev.lead != p

/-- A request is 30 s old (R158); one with an expired time is older (R45). -/
def agedReq (s : State) (r : Dreq) : Bool := !r.live || decide (300000000 ≤ elapsed s.bell.time r.at_)

/-- The pending requests change in both supervisors' memories. -/
def modPend (f : List Dreq → List Dreq) (s : State) : State := modSups (fun m => { m with pend := f m.pend }) s

/-- Requests 30 s after their time are cancelled (R158). -/
def dropAged (s : State) : State := modPend (fun l => l.filter fun r => !agedReq s r) s

/-- Requests whose section has changed generation are cancelled (R158). -/
def cancelReqs (s : State) : State :=
  { s with sup := { s.sup with
      pend := s.sup.pend.filter fun r => r.gen == (secOf r.snum s).gen
      b := { s.sup.b with pend := s.sup.b.pend.filter fun r => r.gen == (decodeB (secBOf r.snum s)).gen } } }

def reqOf (n : Nat) (s : State) : Option Dreq := s.sup.pend.find? fun r => r.snum == n

def dropReq (n : Nat) (s : State) : State := modPend (fun l => l.filter fun r => r.snum != n) s

/-- Every end head of a section is IDLE. -/
def endsIdle (n : Nat) (s : State) : Bool := (secCfg n s).ends.all fun e => (headOf e.1 s).state == .idle

/-- The authority code of a section's owner (R126). -/
def ownerCode (n : Nat) (s : State) : Nat := s.img.cfg.auth.getD (secCfg n s).auth 0

/-- Checks 0x01 to 0x08 of R151. -/
def rstChecks (f : MbFields) (states : List SecState) (s : State) : List (Bool × Nat) :=
  let n := f.obj.toNat
  [(inBootProve s, 0x01), (s.man.failed, 0x02), (!(decide (n < 512) && secConfigured n s), 0x03), (stale f s, 0x04),
   (f.acode.toNat != ownerCode n s, 0x05), (f.gen.toNat != (secOf n s).gen, 0x06),
   (!states.contains (secOf n s).state, 0x07), (!endsIdle n s, 0x08)]

/-- RST_SWEEP accepted (R153). -/
def sweepEffect (n : Nat) (s : State) : State :=
  cancelReqs (modSec n (fun r => { r with
    state := .sweepPending, count := 0, gen := succGen r.gen, ep := some .empty, prov := false
    chg := s.bell.landNo, sweepAt := s.bell.tickTime, sweepLive := true, swIn := false, swOut := false }) s)

def rstSweep (f : MbFields) (s : State) : CmdOut :=
  checks (rstChecks f [.disturbed] s) (fun s => (0x00, 0, sweepEffect f.obj.toNat s)) s

/-- RST_DREQ accepted: a request with a fresh key, which goes to the key record (R157, R158). -/
def dreqEffect (p : HostId) (i : Nat) (f : MbFields) (s : State) : State :=
  let n := f.obj.toNat
  let key := (Config.drawKey s.free).val + 1
  let req : Dreq := { snum := n, gen := (secOf n s).gen, count := f.count.toNat, at_ := s.bell.tickTime, key := key,
                      live := true }
  let s := dropReq n (drawFree s)
  { s with sup := { s.sup with
      pend := s.sup.pend ++ [req]
      keys := if isFollower p s then s.sup.keys else s.sup.keys ++ [(i, f.tag, n, key)] } }

def rstDreq (p : HostId) (i : Nat) (f : MbFields) (s : State) : CmdOut :=
  checks (rstChecks f [.disturbed, .sweepPending] s ++
    [(decide (32767 < f.count.toNat), 0x09), ((reqOf f.obj.toNat s).isNone && decide (16 ≤ s.sup.pend.length), 0x0D)])
    (fun s => (0x00, 0, dreqEffect p i f s)) s

/-- The confirmation window has opened (R157); an expired reference opens nothing (R45). -/
def windowOpen (r : Dreq) (s : State) : Bool := r.live && decide (5000000 ≤ elapsed s.bell.tickTime r.at_)

/-- RST_DCONF accepted (R159). -/
def dconfEffect (n count : Nat) (s : State) : State :=
  cancelReqs (dropReq n (modSec n (fun r => { r with
    state := if count == 0 then .clear else .occupied
    count := (count : Int), gen := succGen r.gen, cause := 0, hint := none, hintCode := 0, prov := false
    chg := s.bell.landNo, sweepLive := false
    ep := if count == 0 then none else some { Episode.empty with unverified := true } }) s))

/-- Code 0x0B also cancels the request (R151, R158). -/
def rstDconf (f : MbFields) (s : State) : CmdOut :=
  let n := f.obj.toNat
  checks (rstChecks f [.disturbed, .sweepPending] s) (fun s =>
    match reqOf n s with
    | none => refuse 0x0A s
    | some r =>
      if f.count.toNat != r.count then refuse 0x09 s
      else if f.key.toNat != r.key then refuse 0x0B (dropReq n s)
      else if !windowOpen r s then refuse 0x0C s
      else (0x00, 0, dconfEffect n f.count.toNat s)) s

/-- A restoration: DUP first, the checkpoint's refusal, then its own checks (R151, R152). -/
def restoration (cpFail : Bool) (f : MbFields) (act : State → CmdOut) (s : State) : CmdOut :=
  let n := f.obj.toNat
  let s := dropAged s
  if s.sup.dupSecs.contains n then refuse 0x0E s
  else
    let s := { s with sup := { s.sup with dupSecs := n :: s.sup.dupSecs } }
    if cpFail then refuse 0x0F s else act s

/-! ### Stop groups (R252, R253, R259 to R261) -/

/-- The orders forming at this landing. -/
def ordersNow (s : State) : Orders :=
  match s.sup.orders with
  | some o => if o.land = s.bell.landNo then o
    else { land := s.bell.landNo, openDevReset := false, applyDevReset := false, groups := [] }
  | none => { land := s.bell.landNo, openDevReset := false, applyDevReset := false, groups := [] }

def GrpOrder.idle : GrpOrder :=
  { enable := false, stop := false, profile := none, openReset := false, applyReset := false }

def orderOf (g : Nat) (s : State) : GrpOrder := tabGet .idle (ordersNow s).groups g

def modOrder (g : Nat) (f : GrpOrder → GrpOrder) (s : State) : State :=
  let o := ordersNow s
  { s with sup := { s.sup with orders := some { o with groups := tabMod .idle o.groups g f } } }

/-- The inputs of a group as latched at the landing tick (R233). -/
def latFb (g : Grp) : Bool := g.lat.getLsbD 0 && g.lat.getLsbD 1
def latGuard (g : Grp) : Bool := g.lat.getLsbD 2 && g.lat.getLsbD 3
def latLrst (g : Grp) : Bool := g.lat.getLsbD 4

/-- A deliberate reset of the group takes effect at this commit, its own or the device's (R259, R260). -/
def resetsNow (g : Nat) (s : State) : Bool :=
  (orderOf g s).applyReset || ((ordersNow s).applyDevReset && (grpOf g s).state == .locked && latFb (grpOf g s))

/-- The state of a group with the orders of this commit (R261). -/
def grpStateNow (g : Nat) (s : State) : GrpState :=
  if (orderOf g s).enable then .energise else if resetsNow g s then .sto else (grpOf g s).state

def profNow (g : Nat) (s : State) : Nat := (orderOf g s).profile.getD (grpOf g s).prof

/-- A section reads CLEAR or OCCUPIED, as which SWEEP_PENDING is read (R130). -/
def secTrusted (n : Nat) (s : State) : Bool :=
  match (secOf n s).state with
  | .clear => true
  | .occupied => true
  | .sweepPending => true
  | _ => false

/-- The bell as R252 asks for it: HOLD, SS_TIMER and SS_EXPIRED clear, both trees in service. -/
def bellSound (s : State) : Bool :=
  let b := bellStatNow s
  !b.getLsbD 0 && b.getLsbD 1 && b.getLsbD 2 && !b.getLsbD 5 && !b.getLsbD 6

/-- The failing enable conditions, bit 0 for MODE (R252). -/
def enblkOf (g : Nat) (s : State) : BitVec 12 :=
  let c := grpCfg g s
  let x := grpOf g s
  let serv := s.dev.mode == .commission || s.dev.mode == .run || s.dev.mode == .harbour
  (packWord [(0, b2n !serv), (1, b2n (grpStateNow g s != .sto)), (2, b2n !(c.trust.all fun n => secTrusted n s)),
    (3, b2n !((c.profiles.getD (profNow g s) []).all fun n => (secOf n s).state == .clear)),
    (4, b2n (c.guard && (!latGuard x || x.gOpened))), (5, b2n !((x.gtest && !resetsNow g s) || !c.guard)), (6, b2n !latFb x),
    (7, b2n !bellSound s), (8, b2n !s.saf.sealOk),
    (9, b2n (c.enc && decide (c.vStill < x.speed.natAbs))), (10, b2n !(s.saf.accepted && s.sup.cpOkC)),
    (11, b2n (latLrst x))]).setWidth 12

/-- The acceptance conditions of a deliberate reset (R259). -/
def resetOk (g : Nat) (s : State) : Bool :=
  let x := grpOf g s
  grpStateNow g s == .locked && !latLrst x && latFb x

def sgEnable (f : MbFields) (s : State) : CmdOut :=
  let g := f.obj.toNat
  checks [(stale f s, 0x04), (!grpConfigured g s, 0x12)] (fun s =>
    let e := enblkOf g s
    let stop := s.sup.stopGrps.contains g
    if e != 0 || stop then (0x20, e.toNat + 4096 * b2n stop, s)
    else (0x00, 0, modOrder g (fun o => { o with enable := true }) s)) s

def sgStop (f : MbFields) (s : State) : CmdOut :=
  let g := f.obj.toNat
  checks [(inBootProve s, 0x01), (stale f s, 0x04), (!grpConfigured g s, 0x12)] (fun s =>
    (0x00, 0, modOrder g (fun o => { o with stop := true })
      { s with sup := { s.sup with stopGrps := insertKey g s.sup.stopGrps } })) s

def sgProfile (f : MbFields) (s : State) : CmdOut :=
  let g := f.obj.toNat
  let p := argByte f 0
  checks [(inBootProve s, 0x01), (stale f s, 0x04),
    (!(grpConfigured g s && decide (p < (grpCfg g s).profiles.length)), 0x12), (grpStateNow g s != .sto, 0x21)]
    (fun s => (0x00, 0, modOrder g (fun o => { o with profile := some p }) s)) s

def sgReset (f : MbFields) (s : State) : CmdOut :=
  let g := f.obj.toNat
  checks [(inBootProve s, 0x01), (stale f s, 0x04), (!grpConfigured g s, 0x12), (!resetOk g s, 0x22)]
    (fun s => (0x00, 0, modOrder g (fun o => { o with openReset := true }) s)) s

/-! ### Modes (R318 to R323) -/

/-- The condition bits of R318. -/
abbrev cTrans : Nat := 0
abbrev cPdone : Nat := 1
abbrev cRef : Nat := 2
abbrev cSeal : Nat := 3
abbrev cCheck : Nat := 4
abbrev cGroups : Nat := 5
abbrev cCommok : Nat := 6
abbrev cPassage : Nat := 7
abbrev cBusy : Nat := 8
abbrev cSup : Nat := 9
abbrev cRst : Nat := 10

/-- RSTG's acceptance conditions as R260 applies them. -/
def devResetOk (s : State) : Bool :=
  if grpConfigured s.img.cfg.rstg s then resetOk s.img.cfg.rstg s else !latLrst (grpOf s.img.cfg.rstg s)

/-- A configured group permits torque or is about to. -/
def groupsActive (s : State) : Bool :=
  (cfgGroups s).any fun g =>
    match grpStateNow g s with
    | .energise => true
    | .run => true
    | .ss1 => true
    | .drop => true
    | _ => false

/-- A condition of R318 fails. -/
def condFails (devReset : Bool) (c : Nat) (s : State) : Bool :=
  match c with
  | 0 => true
  | 1 => !s.dev.pdone
  | 2 => !(bellStatNow s).getLsbD 3
  | 3 => !s.saf.sealOk
  | 4 => decide (s.sup.cpokRunC < (if devReset then 256 else 16))
  | 5 => groupsActive s
  | 6 => !s.img.cfg.commok
  | 7 => (cfgHeads s).any fun h => (headOf h s).state == .passage
  | 8 => migBusy s || s.sup.rot.isSome || s.dev.htrans != 0
  | 9 => !(domOn 6 s && domOn 7 s)
  | 10 => !devResetOk s
  | _ => false

def condBits (devReset : Bool) (l : List Nat) (s : State) : Nat :=
  l.foldl (fun n c => if condFails devReset c s then n + 2 ^ c else n) 0

/-- The conditions of a transition by command (R319); TRANS where it is not in the table. -/
def modeConds (target : Mode) (s : State) : List Nat :=
  match s.dev.mode, target with
  | .prove, .commission => [cPdone, cRef, cSeal, cCheck, cCommok]
  | .prove, .run => [cPdone, cRef, cSeal, cCheck]
  | .commission, .run => [cCheck]
  | .run, .commission => [cCheck, cCommok]
  | .run, .harbour => [cCheck, cGroups, cPassage, cBusy]
  | .harbour, .run => [cCheck, cBusy]
  | .boot, _ => [cTrans]
  | .lockout, .lockout => if s.sup.lockNow then [] else [cTrans]
  | _, .lockout => []
  | _, .boot => [cGroups]
  | _, _ => [cTrans]

/-- A refused MODE_REQ or DEV_RESET: code 0x70, VALUE and DEV_REFUSE with the failing conditions (R318). -/
def refuseMode (req bits : Nat) (s : State) : CmdOut :=
  (0x70, bits, { s with dev := { s.dev with refReq := req, refCond := bits } })

/-- The device leaves COMMISSION: every force goes (R296). -/
def leaveForces (s : State) : State :=
  if s.dev.mode == .commission then s else { s with sup := { s.sup with forces := [] } }

/-- A mode change by command takes effect (R319 to R322). -/
def modeEffect (target : Mode) (s : State) : State :=
  match target with
  | .boot => returnToBoot s
  | .lockout => leaveForces (enterLockout s)
  | .harbour => setMode .harbour { s with dev := { s.dev with htrans := 1, seqLand := s.bell.landNo + 1 } }
  | .run =>
    if s.dev.mode == .harbour then { s with dev := { s.dev with htrans := 2, seqLand := s.bell.landNo } }
    else leaveForces (setMode .run s)
  | m => setMode m s

/-- MODE_REQ with a target of the table (R318, R319, R323). -/
def modeReq (target : Mode) (f : MbFields) (s : State) : CmdOut :=
  checks [(stale f s, 0x04)] (fun s =>
    let again := s.sup.modeTaken
    let s := { s with sup := { s.sup with modeTaken := true } }
    let bits := if again then 2 ^ cBusy else condBits false (modeConds target s) s
    if bits != 0 then refuseMode (modeCode target) bits s else (0x00, 0, modeEffect target s)) s

/-- MODE_REQ with PROVE or no mode code as its target (R318). -/
def modeReqOther (f : MbFields) (s : State) : CmdOut :=
  checks [(stale f s, 0x04), (argByte f 0 != 2, 0x12)] (fun s =>
    let again := s.sup.modeTaken
    let s := { s with sup := { s.sup with modeTaken := true } }
    refuseMode 2 (if again then 2 ^ cBusy else 2 ^ cTrans) s) s

/-- DEV_RESET (R260, R319, R323). -/
def devReset (f : MbFields) (s : State) : CmdOut :=
  checks [(stale f s, 0x04)] (fun s =>
    let again := s.sup.modeTaken
    let s := { s with sup := { s.sup with modeTaken := true } }
    let trans := s.dev.mode != .lockout || s.sup.lockNow || s.dev.prior == some .prove
    let bits := if again then 2 ^ cBusy
      else if s.dev.mode != .lockout || s.sup.lockNow then 2 ^ cTrans
      else condBits true ([cCheck, cSeal, cSup, cRst] ++ (if trans then [cTrans] else [])) s
    if bits != 0 then refuseMode 0xFF bits s
    else (0x00, 0, { s with sup := { s.sup with orders := some { ordersNow s with openDevReset := true } } })) s

/-! ### Parameters, forces, heads, lead (R281, R293, R295, R296) -/

/-- PARAM_FLT bit of a refusal (R304). -/
def paramRefuse (code bit : Nat) (s : State) : CmdOut := refuse code (sticky clsParam 0 bit s)

def paramOf (pid : Nat) (s : State) : Option ParamCfg := (s.img.cfg.params.find? fun p => p.1 == pid).map (·.2)

def paramInRange (c : ParamCfg) (v : Word) : Bool :=
  if c.signed then decide (c.min.toInt ≤ v.toInt) && decide (v.toInt ≤ c.max.toInt)
  else decide (c.min.toNat ≤ v.toNat) && decide (v.toNat ≤ c.max.toNat)

def paramSet (f : MbFields) (s : State) : CmdOut :=
  let pid := f.obj.toNat
  let v : Word := f.arg.setWidth 32
  checks [(inBootProve s, 0x01), (stale f s, 0x04)] (fun s =>
    let again := s.sup.paramTaken
    let s := { s with sup := { s.sup with paramTaken := true } }
    if again then paramRefuse 0x34 4 s
    else if (crc32c ((entryImage 0x30 f).take 28)).toNat != bitsNat f.arg.toNat 64 32 then paramRefuse 0x30 0 s
    else
      match paramOf pid s with
      | none => paramRefuse 0x31 1 s
      | some c =>
        if bitsNat f.arg.toNat 32 16 != s.sup.pgen then paramRefuse 0x33 3 s
        else if !paramInRange c v then paramRefuse 0x32 2 s
        else (0x00, 0, { s with sup := { s.sup with
          params := tabSet 0 s.sup.params pid v
          pgen := succGen s.sup.pgen
          paramLast := packWord [(0, s.bell.landNo.toNat % 65536), (16, pid)] } })) s

def forced (n : Nat) (s : State) : Bool := s.sup.forces.any fun p => p.1 == n

/-- Forces are keyed by section; an entry is kept whatever its value. -/
def putForce (n : Nat) (v : Byte × BitVec 16) (l : Tab (Byte × BitVec 16)) : Tab (Byte × BitVec 16) :=
  sortBy (·.1) ((n, v) :: l.filter fun p => p.1 != n)

def forceChecks (f : MbFields) (all : Bool) (s : State) : List (Bool × Nat) :=
  [(s.dev.mode != .commission, 0x01), (stale f s, 0x04),
   (!all && !(decide (f.obj.toNat < 512) && secConfigured f.obj.toNat s), 0x03)]

def forceSet (f : MbFields) (s : State) : CmdOut :=
  let n := f.obj.toNat
  checks (forceChecks f false s ++ [(!forced n s && decide (32 ≤ s.sup.forces.length), 0x40)]) (fun s =>
    let v := (BitVec.ofNat 8 (argByte f 0), BitVec.ofNat 16 (bitsNat f.arg.toNat 16 16))
    (0x00, 0, { s with sup := { s.sup with forces := putForce n v s.sup.forces } })) s

def forceClr (f : MbFields) (s : State) : CmdOut :=
  let n := f.obj.toNat
  checks (forceChecks f false s) (fun s =>
    (0x00, 0, { s with sup := { s.sup with forces := s.sup.forces.filter fun p => p.1 != n } })) s

def forceClrAll (f : MbFields) (s : State) : CmdOut :=
  checks (forceChecks f true s) (fun s => (0x00, 0, { s with sup := { s.sup with forces := [] } })) s

/-- The engine that serves a head. -/
def engineOf (h : Nat) (s : State) : Option Nat :=
  (s.engs.find? fun p => p.2.state == .service && p.2.slots.any fun x => x.2 == h + 1).map (·.1)

/-- The destination HEAD_WD names or leaves to the device; none where the command is refused with 0x50 (R293). -/
def withdrawTo (src want : Nat) (s : State) : Option Nat :=
  if want == 0xFFFF then pickEngine (some (src / 32)) s
  else if (readyEngs s).contains want then some want else none

def headWd (f : MbFields) (s : State) : CmdOut :=
  let h := f.obj.toNat
  let want := bitsNat f.arg.toNat 0 16
  checks [(s.dev.mode != .commission && s.dev.mode != .run, 0x01), (stale f s, 0x04),
    (!(decide (h < 512) && headConfigured h s) || (decide (512 ≤ want) && want != 0xFFFF), 0x12)] (fun s =>
    match engineOf h s with
    | none => refuse 0x50 s
    | some e =>
      if inHandover e s || (moveOf h s).isSome then refuse 0x50 s
      else
        match withdrawTo e want s with
        | none => refuse 0x50 s
        | some d => (0x00, 0, orderHandover h e d 4 s)) s

/-- The roles swap (R281). -/
def swapLead (q : HostId) (s : State) : State :=
  let s := { s with dev := { s.dev with lead := q } }
  let s := modHost q (fun h => { h with wrRidx := s.dev.wrWidx }) s
  let s := modHost .ha (fun h => { h with leadLand := s.bell.landNo }) s
  raiseBoth 4 (modHost .hb (fun h => { h with leadLand := s.bell.landNo }) s)

def leadTake (p : HostId) (s : State) : CmdOut :=
  let other := (hostOf (otherHost p) s).silent
  if s.dev.hasLead && s.dev.lead != p && decide (64 ≤ other) then (0x00, 0, swapLead p s) else (0x60, other, s)

def leadYield (p : HostId) (s : State) : CmdOut :=
  let q := otherHost p
  let other := (hostOf q s).silent
  if isLead p s && hostUp q s && decide (other < 64) then (0x00, 0, swapLead q s) else (0x60, other, s)

/-! ### One entry (R292) -/

/-- A PARAM_SET counts as taken once it has passed 0x01 and STALE, whatever its outcome (R292, R295). -/
def noteParam (op : Nat) (f : MbFields) (s : State) : State :=
  if op = 0x30 && !inBootProve s && !stale f s then { s with sup := { s.sup with paramTaken := true } } else s

/-- The operation of an entry, after the host-level checks. -/
def runOp (p : HostId) (i : Nat) (op : Nat) (f : MbFields) (cpFail keyen : Bool) (s : State) : CmdOut :=
  match op with
  | 0x01 => restoration cpFail f (rstSweep f) s
  | 0x02 =>
    if !keyen then refuse 0x13 s else restoration cpFail f (rstDreq p i f) s
  | 0x03 => restoration cpFail f (rstDconf f) s
  | _ =>
    if cpFail then refuse 0x0F (noteParam op f s)
    else
      match op with
      | 0x00 => (0x00, 0, s)
      | 0x10 => sgEnable f s
      | 0x11 => sgStop f s
      | 0x12 => sgProfile f s
      | 0x13 => sgReset f s
      | 0x14 => devReset f s
      | 0x20 =>
        match argByte f 0 with
        | 1 => modeReq .boot f s
        | 3 => modeReq .commission f s
        | 4 => modeReq .run f s
        | 5 => modeReq .harbour f s
        | 6 => modeReq .lockout f s
        | _ => modeReqOther f s
      | 0x30 => paramSet f s
      | 0x40 => forceSet f s
      | 0x41 => if argByte f 0 == 1 then forceClrAll f s else forceClr f s
      | 0x50 => headWd f s
      | 0x60 => leadTake p s
      | _ => leadYield p s

/-- The result of an entry joins those of the commit (R291). -/
def addResult (p : HostId) (i : Nat) (tag : Word) (r : CmdOut) : State :=
  let s := r.2.2
  { s with sup := { s.sup with results := s.sup.results ++
      [{ port := p, ix := i, code := r.1, value := r.2.1 % 65536, tag := tag }] } }

/-- One mailbox entry at step 4 of a commit: 0x10, 0x11, then the operation (R150, R292). The safe state takes no
command (R362). -/
def applyEntry (p : HostId) (i : Nat) (op : Byte) (f : MbFields) (cpFail keyen : Bool) (s : State) : State :=
  if s.dev.safe then s
  else if !formatOk op.toNat f then addResult p i f.tag (refuse 0x10 s)
  else if isFollower p s && op != 0x00 && op != 0x60 then addResult p i f.tag (refuse 0x11 s)
  else addResult p i f.tag (runOp p i op.toNat f cpFail keyen s)

/-! ### The rows -/

/-- HOST_CTL.KEYEN of a port now. -/
def keyEnabled (p : HostId) (s : State) : Bool := (hostOf p s).ctl.getLsbD 3

/-- The supervisors' results differ (R234). -/
def disagrees (s : State) : Bool := s.sup.results != s.sup.b.results

/-- An entry whose checkpoint passed, at step 4 of the commit at hand; one on whose outcome the supervisors disagree is refused
with 0x0F and changes nothing (R150, R234; DEDUCED, log 127). -/
def takeEntry (p : HostId) (i : Nat) (op : Byte) (f : MbFields) (s : State) : State :=
  let s1 := bothSups (applyEntry p i op f false (keyEnabled p s)) s
  if disagrees s1 then bothSups (applyEntry p i op f true (keyEnabled p s)) (sticky clsChk 0 2 s) else s1

def execNop (p : HostId) (i : Fin 127) (f : MbFields) (s : State) : Out := .next (takeEntry p i 0x00 f s)
def execRstSweep (p : HostId) (i : Fin 127) (f : MbFields) (s : State) : Out := .next (takeEntry p i 0x01 f s)
def execRstDreq (p : HostId) (i : Fin 127) (f : MbFields) (s : State) : Out := .next (takeEntry p i 0x02 f s)
def execRstDconf (p : HostId) (i : Fin 127) (f : MbFields) (s : State) : Out := .next (takeEntry p i 0x03 f s)
def execSgEnable (p : HostId) (i : Fin 127) (f : MbFields) (s : State) : Out := .next (takeEntry p i 0x10 f s)
def execSgStop (p : HostId) (i : Fin 127) (f : MbFields) (s : State) : Out := .next (takeEntry p i 0x11 f s)
def execSgProfile (p : HostId) (i : Fin 127) (f : MbFields) (s : State) : Out := .next (takeEntry p i 0x12 f s)
def execSgReset (p : HostId) (i : Fin 127) (f : MbFields) (s : State) : Out := .next (takeEntry p i 0x13 f s)
def execDevReset (p : HostId) (i : Fin 127) (f : MbFields) (s : State) : Out := .next (takeEntry p i 0x14 f s)

/-- A MODE_REQ row: the entry's target is the row's. -/
def modeRow (p : HostId) (i : Nat) (f : MbFields) (ok : Nat → Bool) (s : State) : State :=
  if ok (argByte f 0) then takeEntry p i 0x20 f s else s

def execModeReqCommission (p : HostId) (i : Fin 127) (f : MbFields) (s : State) : Out := .next (modeRow p i f (· == 3) s)
def execModeReqRun (p : HostId) (i : Fin 127) (f : MbFields) (s : State) : Out := .next (modeRow p i f (· == 4) s)
def execModeReqHarbour (p : HostId) (i : Fin 127) (f : MbFields) (s : State) : Out := .next (modeRow p i f (· == 5) s)
def execModeReqLockout (p : HostId) (i : Fin 127) (f : MbFields) (s : State) : Out := .next (modeRow p i f (· == 6) s)
def execModeReqBoot (p : HostId) (i : Fin 127) (f : MbFields) (s : State) : Out := .next (modeRow p i f (· == 1) s)
def execModeReqOtherTarget (p : HostId) (i : Fin 127) (f : MbFields) (s : State) : Out :=
  .next (modeRow p i f (fun t => t == 2 || t == 0 || decide (6 < t)) s)
def execParamSet (p : HostId) (i : Fin 127) (f : MbFields) (s : State) : Out := .next (takeEntry p i 0x30 f s)
def execForceSet (p : HostId) (i : Fin 127) (f : MbFields) (s : State) : Out := .next (takeEntry p i 0x40 f s)
def execForceClr (p : HostId) (i : Fin 127) (f : MbFields) (s : State) : Out :=
  .next (if argByte f 0 == 1 then s else takeEntry p i 0x41 f s)
def execForceClrAll (p : HostId) (i : Fin 127) (f : MbFields) (s : State) : Out :=
  .next (if argByte f 0 == 1 then takeEntry p i 0x41 f s else s)
def execHeadWd (p : HostId) (i : Fin 127) (f : MbFields) (s : State) : Out := .next (takeEntry p i 0x50 f s)
def execLeadTake (p : HostId) (i : Fin 127) (f : MbFields) (s : State) : Out := .next (takeEntry p i 0x60 f s)
def execLeadYield (p : HostId) (i : Fin 127) (f : MbFields) (s : State) : Out := .next (takeEntry p i 0x61 f s)

/-- An OP that R293 does not list (R292). -/
def execUnlistedOp (p : HostId) (i : Fin 127) (op : Byte) (f : MbFields) (s : State) : Out :=
  .next (if (opUse op.toNat).isSome then s else takeEntry p i op f s)

/-- A pending request expires 30 s after its time (R158). -/
def execDreqExpiry (n : SecIx) (s : State) : Out :=
  match reqOf n s with
  | some r => .next (if agedReq s r then dropReq n s else s)
  | none => .next s

end Sys2Proof.Machine
end

