-- ==== Sys2Proof/Machine/Safio.lean ====
section
/-! DEFINITION. SAFIO: inputs, encoders, SS1, feedback, guards, resets, tokens, the dead-man and the seal
(R245 to R266). -/

namespace Sys2Proof.Machine

/-- SAFIO works while D12 is in service (R18). -/
def safioOn (s : State) : Bool := domOn 12 s

/-- Ticks from a time to the most recent landing tick, 0 where the time is later (R250: comparisons are made at landing
ticks). -/
def tickAge (t : Bell) (s : State) : Nat :=
  if laterMod 48 t s.bell.tickTime then 0 else elapsed s.bell.tickTime t

/-- Milliseconds as ticks (R250). -/
abbrev msTicks (ms : Nat) : Nat := 10000 * ms

/-! ### The status register -/

def grpCode : GrpState → Nat
  | .unused => 0
  | .sto => 1
  | .energise => 2
  | .run => 3
  | .ss1 => 4
  | .drop => 5
  | .locked => 6

/-- SG_STAT (R270); GTEST reads 1 where no guard is fitted (R258). -/
def sgStat (g : Nat) (s : State) : Word :=
  let x := grpOf g s
  packWord [(0, grpCode x.state), (4, b2n x.fba), (5, b2n x.fbb), (6, b2n x.tra), (7, b2n x.trb), (8, b2n x.srq),
    (9, b2n (x.gtest || (x.state != .unused && !(grpCfg g s).guard))), (10, x.prof), (12, b2n x.gda), (13, b2n x.gdb), (14, b2n x.lrst), (16, x.enblk.toNat)]

/-! ### Changes of state (R251, R254, R255) -/

/-- Enter STO: outputs low, the start-up test begins afresh (R251, R258). -/
def toSto (now : Bell) (g : Grp) : Grp :=
  { g with state := .sto, tra := false, trb := false, srq := false, since := now, gAt := none, gbAt := none, gSeen := 0
           fbBad := if g.fba && g.fbb then none else some now }

/-- A deliberate reset takes effect (R259). -/
def resetGrp (now : Bell) (g : Grp) : Grp :=
  { toSto now g with gtest := false, winAt := none, riseLand := none, rstOk := false }

/-- Enter ENERGISE (R252). -/
def toEnergise (now : Bell) (g : Grp) : Grp :=
  { g with state := .energise, tra := true, trb := true, srq := false, since := now, fbBad := none }

/-- Enter RUN (R251). -/
def toRun (now : Bell) (g : Grp) : Grp := { g with state := .run, srq := true, since := now }

/-- Enter SS1; k = 0 is the most recent landing tick (R254). -/
def toSs1 (vStill : Nat) (tick : Bell) (land : Word) (g : Grp) : Grp :=
  { g with state := .ss1, srq := false, v0 := g.speed, ss1At := tick, ss1K := 0, ss1Land := land, since := tick
           stillAt := if g.speed.natAbs ≤ vStill then some tick else none }

/-- Enter DROP, or STO where both feedback inputs read dropped out already (R255, R256). -/
def toDrop (tick : Bell) (g : Grp) : Grp :=
  let g := { endSs1 tick g with state := .drop, tra := false, trb := false, srq := false, since := tick
                                dropAt := some tick, stillAt := none }
  if g.fba && g.fbb then toSto tick { g with dropAt := none, stopFb := 0 } else g

/-- A stop cause: SS1 from RUN, LOCKED from ENERGISE, else none (R253). -/
def stopGroup (g : Nat) (s : State) : State :=
  match (grpOf g s).state with
  | .run => modGrp g (toSs1 (grpCfg g s).vStill s.bell.tickTime s.bell.landNo) s
  | .energise => lockGroup g [] s
  | _ => s

/-! ### Contactor feedback (R256) -/

def bothOut (g : Grp) : Bool := g.fba && g.fbb
def bothIn (g : Grp) : Bool := !g.fba && !g.fbb

/-- The levels taken, and the times that follow from them; a time in steps of 10 us is the nearest (R8). DESIGN CHOICE, log 117:
a drop-out time that SG_STOPT.FB has no room for shows as 0xFFFF. -/
def takeFb (ch : Side) (level : Bool) (now : Bell) (g : Grp) : Grp :=
  let g := match ch with
    | .a => { g with fba := level }
    | .b => { g with fbb := level }
  let rest := g.state == .sto || g.state == .locked
  let g := { g with
    fbDisc := if g.fba == g.fbb then none else some (g.fbDisc.getD now)
    fbBad := if rest && !bothOut g then some (g.fbBad.getD now) else none }
  match g.dropAt with
  | some t => if bothOut g then { g with dropAt := none, stopFb := min 0xFFFF (tenMicros (elapsed now t)) } else g
  | none => g

/-- What a new feedback level does in each state (R256). -/
def feedbackStep (g : Nat) (s : State) : State :=
  let x := grpOf g s
  match x.state with
  | .energise => if bothIn x then modGrp g (toRun s.bell.time) s else s
  | .run => if bothIn x then s else lockGroup g [4] s
  | .ss1 => if bothIn x then s else lockGroup g [4] s
  | .drop => if bothOut x then modGrp g (toSto s.bell.time) s else s
  | _ => s

def execFeedbackChange (g : GrpIx) (ch : Side) (level : Bool) (s : State) : Out :=
  .next (if safioOn s && s33On s then feedbackStep g (modGrp g (takeFb ch level s.bell.time) s) else s)

/-- SG_FLT bits of the feedback windows that have run out (R256). -/
def fbExpired (g : Nat) (s : State) : List Nat :=
  let x := grpOf g s
  let tfb := msTicks (grpCfg g s).tFb
  let past := fun t : Bell => decide (tfb ≤ tickAge t s)
  (match x.state with
    | .energise => if past x.since && !bothIn x then [3] else []
    | .drop => if past x.since && !bothOut x then [2] else []
    | GrpState.sto => if x.fbBad.any past then [6] else []
    | GrpState.locked => if x.fbBad.any past then [6] else []
    | _ => []) ++ (if x.fbDisc.any past then [5] else [])

def execFbWindowExpiry (g : GrpIx) (s : State) : Out :=
  match fbExpired g s with
  | [] => .next s
  | l => .next (if safioOn s then lockGroup g l s else s)

/-! ### Guards (R257, R258) -/

/-- Two times lie within 500 ms of each other. -/
def near500 (a b : Option Bell) : Bool :=
  match a, b with
  | some x, some y => decide (elapsed x y ≤ 5000000) || decide (elapsed y x ≤ 5000000)
  | _, _ => false

/-- The start-up test sequence, observed in STO (R258). -/
def guardTest (g : Grp) : Grp :=
  if g.state != .sto then g
  else if !g.gda && !g.gdb then { g with gSeen := if near500 g.gAt g.gbAt then 1 else 0 }
  else if g.gda && g.gdb then
    { g with gtest := g.gtest || (g.gSeen == 1 && near500 g.gAt g.gbAt), gSeen := 0 }
  else g

/-- A new guard level; an opening of a closed guard is seen (R257, R261). -/
def takeGuard (ch : Side) (level : Bool) (now : Bell) (g : Grp) : Grp :=
  let was := g.gda && g.gdb
  let g := match ch with
    | .a => { g with gda := level, gAt := if g.state == GrpState.sto then some now else none }
    | .b => { g with gdb := level, gbAt := if g.state == GrpState.sto then some now else none }
  guardTest { g with
    gOpened := g.gOpened || (was && !(g.gda && g.gdb))
    gdDisc := if g.gda == g.gdb then none else some (g.gdDisc.getD now) }

def execGuardChange (g : GrpIx) (ch : Side) (level : Bool) (s : State) : Out :=
  .next (if safioOn s && s33On s then modGrp g (takeGuard ch level s.bell.time) s else s)

def execGuardDiscrepancyTimeout (g : GrpIx) (s : State) : Out :=
  let x := grpOf g s
  .next (if safioOn s && (grpCfg g s).guard && x.gdDisc.any (fun t => decide (5000000 ≤ tickAge t s)) then
    lockGroup g [7] s else s)

/-! ### The reset input (R259, R260) -/

/-- The high time of a pulse, in landings, as 0.2 s to 2 s at the period in use (R259). -/
def pulseOk (rise : Word) (s : State) : Bool :=
  let t := elapsedLand s.bell.landNo rise * s.bell.period
  decide (2000000 ≤ t) && decide (t ≤ 20000000)

/-- A window of 10 s has run out (R259). -/
def windowOut (t : Option Bell) (s : State) : Bool := t.any fun t => decide (100000000 ≤ tickAge t s)

/-- LRST rises: only inside an open window does it count (R259). -/
def lrstRise (g : Nat) (s : State) : State :=
  let land := s.bell.landNo
  let s := modGrp g (fun x => { x with
    lrst := true, lrstAt := some s.bell.time
    riseLand := if x.winAt.isSome then some land else none }) s
  if s.img.cfg.rstg == g && s.saf.devAt.isSome then { s with saf := { s.saf with devRise := some land } } else s

/-- LRST falls: a window with a rise closes, with a valid pulse inside its 10 s or with RST_BAD (R259). A fault that has locked
the group in the same landing leaves the pulse without effect (R261). -/
def lrstFall (g : Nat) (s : State) : State :=
  let x := grpOf g s
  let anew := x.faultLand == some s.bell.landNo
  let ok := fun r => pulseOk r s && !x.stuck && !windowOut x.winAt s
  let devWin := fun r => pulseOk r s && !x.stuck && !windowOut s.saf.devAt s
  let s1 := modGrp g (fun x => { x with
    lrst := false, lrstAt := none, stuck := false
    rstOk := x.rstOk || (x.riseLand.any ok && !anew)
    winAt := if x.riseLand.isSome then none else x.winAt
    riseLand := none }) s
  let dev := s.img.cfg.rstg == g && s.saf.devRise.isSome
  let s2 := if dev then { s1 with saf := { s1.saf with
      devOk := s1.saf.devOk || (s.saf.devRise.any devWin && !anew), devAt := none, devRise := none } } else s1
  stickyIf (x.riseLand.any (fun r => !ok r) || (dev && s.saf.devRise.any fun r => !devWin r)) clsSg g 10 s2

def execLrstChange (g : GrpIx) (level : Bool) (s : State) : Out :=
  .next (if !safioOn s || !s33On s || (grpOf g s).lrst == level then s
    else if level then lrstRise g s else lrstFall g s)

def execResetWindowExpiry (g : GrpIx) (s : State) : Out :=
  let own := windowOut (grpOf g s).winAt s
  let dev := s.img.cfg.rstg == g.val && windowOut s.saf.devAt s
  if safioOn s && (own || dev) then
    let s := if own then modGrp g (fun x => { x with winAt := none, riseLand := none }) s else s
    let s := if dev then { s with saf := { s.saf with devAt := none, devRise := none } } else s
    .next (sticky clsSg g 10 s)
  else .next s

/-- High for more than 2 s: RST_BAD, and the windows close with no effect (R259). -/
def execLrstStuck (g : GrpIx) (s : State) : Out :=
  let x := grpOf g s
  if safioOn s && x.lrst && !x.stuck && x.lrstAt.any (fun t => decide (20000000 < elapsed s.bell.time t)) then
    let s := modGrp g (fun x => { x with stuck := true, winAt := none, riseLand := none }) s
    let s := if s.img.cfg.rstg == g.val then { s with saf := { s.saf with devAt := none, devRise := none } } else s
    .next (sticky clsSg g 10 s)
  else .next s

/-! ### Encoders and read-back (R247, R248) -/

/-- The group is in motion, for an illegal transition (R248). -/
def inMotion (g : Grp) : Bool := g.state == .run || g.state == .ss1 || g.state == .drop

/-- One quadrature edge; A before B counts up (DESIGN CHOICE, log 36). -/
def countEdge (la lb : Bool) (g : Grp) : Grp :=
  let up := if la != g.ea then la != g.eb else lb == g.ea
  { g with live := if up then g.live + 1 else g.live - 1, ea := la, eb := lb }

/-- An edge less than 250 ns from the latest edge of the other channel: the bell dates edges to 100 ns (R403; DESIGN CHOICE, log
130: at most 2 ticks). -/
def tooClose (now : Bell) (other : Option Bell) : Bool := other.any fun t => decide (elapsed now t ≤ 2)

/-- A transition is illegal: both channels at once, or an edge too close to the other channel's (R248, R403). -/
def illegalEdge (now : Bell) (la lb : Bool) (g : Grp) : Bool :=
  if la != g.ea then lb != g.eb || tooClose now g.edgeB else tooClose now g.edgeA

/-- The times of the edges. -/
def dateEdges (now : Bell) (la lb : Bool) (g : Grp) : Grp :=
  { g with edgeA := if la != g.ea then some now else g.edgeA, edgeB := if lb != g.eb then some now else g.edgeB }

def execEncoderEdge (g : GrpIx) (la lb : Bool) (s : State) : Out :=
  let x := grpOf g s
  let now := s.bell.time
  if !safioOn s || !s33On s || (la == x.ea && lb == x.eb) then .next s
  else if illegalEdge now la lb x then
    let s1 := modGrp g (fun x => { dateEdges now la lb x with ea := la, eb := lb, encErr := satInc 0xFFFF x.encErr }) s
    .next (if inMotion x then lockGroup g [8] s1 else s1)
  else .next (modGrp g (fun x => countEdge la lb (dateEdges now la lb x)) s)

/-- A group that drives an output high with VIO33 out reads it back low, and is locked (R247, R402). -/
def driveCheck (g : Nat) (s : State) : State :=
  let x := grpOf g s
  if !s33On s && (x.tra || x.trb || x.srq) then lockGroup g [9] s else s

def execReadbackFault (g : GrpIx) (_o : SgOut) (s : State) : Out :=
  .next (if safioOn s then lockGroup g [9] s else s)

/-! ### The end of SS1 (R254) -/

def standstillHeld (g : Nat) (s : State) : Bool :=
  let x := grpOf g s
  (grpCfg g s).enc && x.stillAt.any fun t => decide (msTicks (grpCfg g s).tStill ≤ tickAge t s)

def ss1TimedOut (g : Nat) (s : State) : Bool :=
  decide (msTicks (grpCfg g s).tSs1 ≤ (grpOf g s).ss1K * s.bell.period)

def execSs1Standstill (g : GrpIx) (s : State) : Out :=
  .next (if safioOn s && (grpOf g s).state == .ss1 && standstillHeld g s then
    modGrp g (toDrop s.bell.tickTime) s else s)

/-- Time-out; a standstill confirmed at the same tick decides first (R254, R261). -/
def execSs1Timeout (g : GrpIx) (s : State) : Out :=
  if safioOn s && (grpOf g s).state == .ss1 && ss1TimedOut g s then
    .next (stickyIf ((grpCfg g s).enc && !standstillHeld g s) clsSg g 11 (modGrp g (toDrop s.bell.tickTime) s))
  else .next s

/-! ### The landing tick at SAFIO (R249, R254, R263) -/

/-- The speed in mm/s over the intervals available (R249). -/
def speedOf (c : GrpCfg) (period : Nat) (hist : List Word) : Int :=
  let m := min c.win (hist.length - 1)
  if m = 0 then 0
  else
    let d := (hist.getD 0 0 - hist.getD m 0).toInt
    roundEven (d * 10000000000) (m * period * c.encScale)

/-- Latch the position and compute the speed (R249). -/
def latchSpeed (c : GrpCfg) (period : Nat) (g : Grp) : Grp :=
  let hist := (g.live :: g.hist).take (c.win + 1)
  { g with pos := g.live, hist := hist, speed := speedOf c period hist }

/-- v_env in units of 10^-7 mm/s (R254). -/
def envelope (c : GrpCfg) (ticks : Nat) (v0 : Int) : Int :=
  max ((c.vStill * 10000000 : Nat) : Int)
    ((((v0.natAbs + c.vTol) * 10000000 : Nat) : Int) - ((c.aEnv * (ticks - msTicks c.tDly) : Nat) : Int))

/-- The envelope at a landing tick in SS1: the group, and the fault bit of a breach (R254). -/
def ss1Tick (c : GrpCfg) (period : Nat) (tick : Bell) (g : Grp) : Grp × List Nat :=
  let k := g.ss1K + 1
  let e := envelope c (k * period) g.v0
  let v := g.speed.natAbs
  let dir := g.v0 != 0 && decide (g.speed * g.v0 < 0) && decide (c.vStill < v)
  let above := decide (e < ((v * 10000000 : Nat) : Int))
  let g := { g with
    ss1K := k, env := roundEven e 10000000
    stillAt := if v ≤ c.vStill then some (g.stillAt.getD tick) else none }
  (g, if !c.enc then [] else if dir then [1] else if above then [0] else [])

/-- One group at a landing tick: inputs latched (R233), position, speed and envelope. -/
def grpTick (g : Nat) (s : State) : State :=
  let c := grpCfg g s
  let x := grpOf g s
  let lat : BitVec 5 := (packWord [(0, b2n x.fba), (1, b2n x.fbb), (2, b2n x.gda), (3, b2n x.gdb), (4, b2n x.lrst)]).setWidth 5
  let x := { x with lat := lat }
  if x.state == .unused then setGrp g x s
  else
    let x := latchSpeed c s.bell.period x
    if x.state == .ss1 then
      let r := ss1Tick c s.bell.period s.bell.tickTime x
      let s := setGrp g r.1 s
      if r.2.isEmpty then s else lockGroup g r.2 s
    else setGrp g x s

/-- The dead-man expires (R263). -/
def deadman (s : State) : State :=
  let s := lockAll [12] { s with saf := { s.saf with miss := 2, dm := true }, flt := { s.flt with dmHold := true } }
  sticky clsFlt 0 1 (sticky clsSafio 0 1 s)

/-- The token watch at a landing tick: prev is the landing whose pair was due (R263). -/
def tokenTick (prev : Word) (s : State) : State :=
  if !(s.saf.watching && s.saf.expecting) then s
  else if s.saf.accepted && s.saf.tokLand == prev then { s with saf := { s.saf with miss := 0 } }
  else
    let n := min 2 (s.saf.miss + 1)
    let s := sticky clsSafio 0 0 { s with saf := { s.saf with miss := n, accepted := false } }
    if n = 2 then deadman s else forEach (s.saf.groups.map (·.1)) stopGroup s

/-- SAFIO at a landing tick; a group that enters SS1 by the token watch has k = 0 at this tick. -/
def safioTick (prev : Word) (s : State) : State :=
  if safioOn s then
    let s := tokenTick prev (forEach (s.saf.groups.map (·.1)) grpTick s)
    { s with saf := { s.saf with groups := tabMap .reset (fun g x => { x with tickStat := sgStat g s }) s.saf.groups } }
  else s

/-- No landing tick for 2.5 periods by SAFIO's own oscillator (R264). -/
def execNotickTimeout (s : State) : Out :=
  .next (if safioOn s && s.saf.watching then deadman (sticky clsSafio 0 6 s) else s)

/-! ### Token pairs and orders (R262) -/

/-- One group's orders reach SAFIO. -/
def applyOrder (g : Nat) (o : GrpOrder) (s : State) : State :=
  let now := s.bell.time
  let x := grpOf g s
  let s := if o.applyReset && x.state == .locked && x.rstOk then modGrp g (resetGrp now) s else s
  let s := if o.openReset && (grpOf g s).state == .locked then
      modGrp g (fun x => { x with winAt := some s.bell.tickTime, riseLand := none, rstOk := false }) s
    else s
  let s := match o.profile with
    | some p => if (grpOf g s).state == .sto then modGrp g (fun x => { x with prof := p }) s else s
    | none => s
  let s := if o.enable && (grpOf g s).state == .sto then feedbackStep g (modGrp g (toEnergise now) s) else s
  driveCheck g (if o.stop then stopGroup g s else s)

/-- Every group that is LOCKED and whose feedback inputs read dropped out enters STO (R260). -/
def devResetGroups (s : State) : State :=
  forEach (s.saf.groups.map (·.1)) (fun g s =>
    let x := grpOf g s
    if x.state == .locked && bothOut x then modGrp g (resetGrp s.bell.time) s else s) s

def applyOrders (o : Orders) (s : State) : State :=
  let s := if o.applyDevReset then devResetGroups s else s
  let s := if o.openDevReset then
      { s with saf := { s.saf with devAt := some s.bell.tickTime, devRise := none, devOk := false } } else s
  forEach o.groups (fun p => applyOrder p.1 p.2) s

/-- The two copies of the orders arrive equal (R262). -/
def ordersSame (same : Bool) (s : State) : Bool := same && s.sup.outA.orders == s.sup.outB.orders

/-- The pair is accepted: TOKA is digest A and TOKB digest B inverted, each with its landing number, as they arrive (R236,
R262). -/
def pairOk (errA errB errLandA errLandB : Word) (same : Bool) (land : Word) (s : State) : Bool :=
  s.sup.digA ^^^ errA == ~~~(~~~s.sup.digB ^^^ errB) && land ^^^ errLandA == s.bell.landNo &&
    land ^^^ errLandB == s.bell.landNo && ordersSame same s

/-- A pair comes only where a passed checkpoint has released it and both supervisors' domains are in service (R18, R236,
R237); it comes once. -/
def execTokenPair (errA errB errLandA errLandB : Word) (same : Bool) (s : State) : Out :=
  match s.sup.sent with
  | none => .next s
  | some o =>
    if !(safioOn s && s.saf.watching && domOn 6 s && domOn 7 s) then .next s
    else
      let s1 := { s with sup := { s.sup with sent := none } }
      if pairOk errA errB errLandA errLandB same o.land s then
        .next (applyOrders o { s1 with saf := { s.saf with tokLand := s.bell.landNo, accepted := true, miss := 0 } })
      else .next (stickyIf (!ordersSame same s) clsSafio 0 2 s1)

/-! ### The seal (R265, R266) -/

/-- The expected seal word: the last word of the safety configuration block's digest. -/
def sealWord (s : State) : Word := s.img.cfg.scHash.getD 7 0

def sealPatOk (bits : BitVec 40) : Bool := bits >>> 32 == 0xA5
def sealWordOk (bits : BitVec 40) (s : State) : Bool := bits.setWidth 32 == sealWord s

/-- The read as SG_SEAL_RD and SG_SEAL_CNT show it. -/
def noteSeal (bits : BitVec 40) (s : State) : State :=
  { s with saf := { s.saf with sealPat := (bits >>> 32).setWidth 8, reads := (s.saf.reads + 1) % 65536, reading := false } }

/-- A read starts at a landing tick, once: at every 256th, or after a mismatch (R265). -/
def execSealRead (s : State) : Out :=
  if safioOn s && s.saf.watching && !s.dev.safe && !s.saf.reading && s.bell.phase == 0 && s.saf.sealAt != some s.bell.time &&
      (s.bell.landNo.toNat % 256 == 0 || s.saf.repeatDue) then
    .next { s with saf := { s.saf with reading := true, sealAt := some s.bell.time, repeatDue := false } }
  else .next s

/-- Ticks since the latest read began; none in the safe state, in which SEAL_LD and SEAL_CK rest (R398). -/
def sealTicks (s : State) : Option Nat := if s.dev.safe then none else s.saf.sealAt.map fun t => elapsed s.bell.time t

/-- SEAL_LD: low for the first 2 us of a read, else high (R265). -/
def sealLd (s : State) : Bool := (sealTicks s).all fun n => decide (20 ≤ n)

/-- SEAL_CK: low, but for 39 pulses of 1 us, one every 2 us; they begin 2.5 us into the read (R265; DESIGN CHOICE, log 102). -/
def sealCk (s : State) : Bool :=
  (sealTicks s).any fun n => decide (25 ≤ n) && decide ((n - 25) / 20 < 39) && decide ((n - 25) % 20 < 10)

/-- A read in service is judged (R266). -/
def judgeSeal (bits : BitVec 40) (s : State) : State :=
  if sealPatOk bits && sealWordOk bits s then { s with saf := { s.saf with sealOk := true, sealBad := false } }
  else
    let s := stickyIf (!sealWordOk bits s) clsSafio 0 3 (stickyIf (!sealPatOk bits) clsSafio 0 5 s)
    if s.saf.sealBad then
      sticky clsSafio 0 4 { s with saf := { s.saf with sealOk := false }, sup := { s.sup with lockNext := true } }
    else
      { s with saf := { s.saf with sealBad := true, repeatDue := true, glitch := satInc 0xFFFF s.saf.glitch } }

/-- The bits SAFIO samples; none come through without VIO33, so such a read mismatches (R402). -/
def sampledBits (bits : BitVec 40) (s : State) : BitVec 40 := if s.pins.vio33 then bits else 0

def execSealReadDone (bits : BitVec 40) (s : State) : Out :=
  let b := sampledBits bits s
  .next (if safioOn s && s.saf.reading && !s.dev.safe then judgeSeal b (noteSeal b s) else s)

end Sys2Proof.Machine
end

