-- ==== Sys2Proof/Machine/Views.lean ====
section
/-! DEFINITION. Registers as they read: the value of every BAR0 register (16), with the fields of the chapter that owns
its block. -/

namespace Sys2Proof.Machine

/-! ### Domain constants (R326, R335) -/

/-- Phases built; 0 = linear (R18, R326). -/
def domNph (d : Nat) : Nat :=
  if d = 0 then 0 else if 14 ≤ d then 4 else if 4 ≤ d && d ≤ 11 then 2 else 1

/-- Phases of a domain that are enabled, as a mask (PHEN, R350). -/
def phasesOn (d : Nat) (s : State) : List Nat :=
  (List.range (domNph d)).filter fun p => !(domOf d s).disabled.getLsbD p

/-- The governor's upper bound in mV (R335, R342). -/
def engVmax (n : Nat) : Nat := if 4 ≤ n then 950 else if n = 3 then 850 else 750

def domVmax (d : Nat) (s : State) : Nat := if 14 ≤ d then engVmax (phasesOn d s).length else domSetpoint d
def domVmin (d : Nat) : Nat := if 14 ≤ d then 550 else domSetpoint d

/-- Rated current of the enabled phases in mA (R326, R335). -/
def domRated (d : Nat) (s : State) : Nat := if d = 0 then 200 else 1500 * (phasesOn d s).length

/-- Ticks of a slew at 10 mV/us (R327). -/
def slewTicks (v : Nat) (w : Slew) : Nat := if w.from_ ≤ v then v - w.from_ else w.from_ - v

/-- The slew of a domain that the monitor thresholds still follow, until 2 us after its end (R327). -/
def slewOf (now : Bell) (x : Dom) : Option Slew := x.slew.filter fun w => elapsed now w.at_ < slewTicks x.vset w + 20

/-- Where the rail stands between its setpoints, in mV (R327). -/
def railOf (now : Bell) (x : Dom) : Nat :=
  match x.slew with
  | some w => if w.from_ ≤ x.vset then min x.vset (w.from_ + elapsed now w.at_) else max x.vset (w.from_ - elapsed now w.at_)
  | none => x.vset

/-- A new setpoint: the rail slews to it, and the window covers the old and the new one (R327; a slew that starts while the
window still follows the one before covers its setpoints too, DESIGN CHOICE, log 103). -/
def retarget (now : Bell) (v : Nat) (x : Dom) : Dom :=
  if v = x.vset then x
  else
    let w := (slewOf now x).getD { from_ := x.vset, at_ := now, lo := x.vset, hi := x.vset }
    { x with vset := v, slew := some { from_ := railOf now x, at_ := now, lo := min w.lo v, hi := max w.hi v } }

/-- The setpoints the UV and OV thresholds stand below and above (R326, R327); the start setpoint while the domain is off. -/
def domVref (d : Nat) (s : State) : Nat × Nat :=
  let x := domOf d s
  if x.vset = 0 then (domSetpoint d, domSetpoint d)
  else
    match slewOf s.bell.time x with
    | some w => (w.lo, w.hi)
    | none => (x.vset, x.vset)

/-! ### Codes -/

def engCode : EngState → Nat
  | .off => 0
  | .proving => 1
  | .ready => 2
  | .service => 3
  | .out => 4
  | .retired => 5
  | .gated => 6

def domCode : DomState → Nat
  | .off => 0
  | .ramp => 1
  | .on => 2
  | .gated => 3
  | .lost => 4

def ringCode : RingState → Nat
  | .unused => 0
  | .down => 1
  | .discovering => 2
  | .closed => 3
  | .open => 4
  | .failed => 5

def linkCode : Link → Nat
  | .down => 0
  | .align => 1
  | .up => 2

def imgCode : ImgState → Nat
  | .empty => 0
  | .checking => 2
  | .distributing => 4
  | .loaded => 5
  | .failed => 6

def thermCode : ThermState → Nat
  | .normal => 0
  | .warning => 1
  | .throttle => 2
  | .safe => 3

def portNo : HostId → Nat
  | .ha => 0
  | .hb => 1

/-- A signed value in 16 bits. -/
def i16 (x : Int) : Nat := (BitVec.ofInt 16 x).toNat

/-! ### Blocks -/

/-- DEV (R324). -/
def devReg (off : Nat) (s : State) : Word :=
  let prior := match s.dev.prior with
    | some m => if s.dev.mode == .lockout then modeCode m else 0
    | none => 0
  match off with
  | 0x00 => 0x0512B000
  | 0x04 => packWord [(0, modeCode s.dev.mode), (11, b2n (s.img.state == .loaded)), (12, s.dev.htrans),
      (14, b2n s.dev.pdone), (15, b2n s.dev.safe), (16, prior)]
  | 0x0C => packWord [(0, b2n s.dev.st), (1, b2n s.dev.stfail), (2, b2n s.dev.win), (3, b2n s.dev.rings),
      (4, b2n s.dev.learn), (5, b2n s.dev.tmo)]
  | 0x10 => s.dev.modeLand
  | 0x14 => packWord [(0, s.dev.refCond), (16, s.dev.refReq)]
  | 0x20 => fltReg clsDev 0 s
  | _ => 0

/-- BELL (R49 to R53); BELL_STAT is live in BOOT, where nothing commits. -/
def bellReg (p : HostId) (off : Nat) (s : State) : Word :=
  let b := s.bell
  let h := hostOf p s
  match off with
  | 0x00 => if inService s then b.stat else bellStatNow s
  | 0x04 => packWord [(0, b2n b.load), (1, b2n b.loadPps)]
  | 0x08 => BitVec.ofNat 32 b.period
  | 0x10 => b.time.setWidth 32
  | 0x14 => h.timeHi.setWidth 32
  | 0x18 => b.landNo
  | 0x20 => b.presetLo
  | 0x24 => b.presetHi.setWidth 32
  | 0x28 => b.landPreset
  | 0x30 => b.ppsTime.setWidth 32
  | 0x34 => h.ppsHi.setWidth 32
  | 0x38 => BitVec.ofNat 32 b.ppsInt
  | 0x3C => b.ppsCnt
  | 0x40 => packWord [(0, b.drainT), (16, b.commitT)]
  | 0x44 => match b.lateEng with
    | some e => packWord [(31, 1), (0, e)]
    | none => 0
  | 0x48 => BitVec.ofNat 32 b.missCnt
  | 0x4C => BitVec.ofNat 32 b.holdLand
  | 0x50 => packWord [(0, b.wrapBell), (8, b.wrapLand)]
  | 0x54 => packWord [(0, b.trimA), (16, b.trimB)]
  | 0x60 => fltReg clsBell 0 s
  | _ => 0

/-- RING_GN8 (R79). -/
def gn8Reg (i : Nat) (s : State) : Word :=
  let g := gn8Of i s
  packWord [(0, b2n g.dirl), (1, b2n g.dirh), (2, b2n g.markdis), (3, b2n g.unsync), (4, b2n g.out),
    (16, g.sysok.toNat)]

/-- RING (R78 to R80). -/
def ringReg (off : Nat) (s : State) : Word :=
  let n := off % 0x80 / 4
  if off = 0x700 then fltReg clsRing 0 s
  else
    match off / 0x80 with
    | 0 => packWord [(0, ringCode (ringOf n s).state), (4, (ringOf n s).derr)]
    | 1 =>
      let c := ringCfg n s
      if inService s then
        packWord [(0, c.mode), (2, b2n ((List.range c.ngn8).any fun i => (gn8Of (4 * n + i) s).decim)),
          (3, b2n c.pdev), (4, c.ngn8)]
      else 0
    | 2 =>
      let r := portOf n s
      packWord [(0, linkCode r.link), (2, b2n r.los), (3, b2n r.txen), (4, r.delay)]
    | 3 => packWord [(0, (portOf n s).crc), (16, (portOf n s).cv)]
    | 12 => packWord [(0, (ringOf n s).bubCnt), (16, (ringOf n s).lateCnt)]
    | q =>
      let i := off % 0x200 / 4
      if q / 4 = 1 then gn8Reg i s else if q / 4 = 2 then (gn8Of i s).id else 0

/-- HEAD_STAT (R105). -/
def headStat (n : Nat) (s : State) : Word :=
  let h := headOf n s
  packWord [(0, statByte h.state h.back h.side h.a h.b), (8, h.cause), (23, h.engine)]

def headPass (n : Nat) (s : State) : Word := packWord [(0, (headOf n s).passAB), (16, (headOf n s).passBA)]

/-- HEAD (R104 to R106); the configuration is loaded at the Boot to Prove transition. -/
def headReg (off : Nat) (s : State) : Word :=
  let n := off / 0x20
  let c := headCfg n s
  let loaded := fun w : Word => if inService s then w else 0
  match off % 0x20 with
  | 0x00 => headStat n s
  | 0x04 => loaded c.wCfg
  | 0x08 => loaded c.wThr
  | 0x0C => loaded c.wChk
  | 0x10 => (headOf n s).baseA
  | 0x14 => (headOf n s).baseB
  | 0x18 => headPass n s
  | 0x1C => fltReg clsHead n s
  | _ => 0

/-- FLAGS of a section record (R142), without FORCED; an UNCONFIGURED record is all zero. -/
def secFlags (n : Nat) (s : State) : Nat :=
  let r := shownSec n s
  let c := secCfg n s
  let pnc := c.pvc && r.ep.any fun e => !epUsable e
  if r.state == .unconfigured then 0 else r.hintCode + 4 * b2n r.prov + 8 * b2n c.pvc + 16 * b2n pnc

/-- SEC_STATE and SEC_COUNT (R144). -/
def secState (n : Nat) (s : State) : Word :=
  if !inService s then 0 else packWord [(0, secCode (shownSec n s).state), (8, secFlags n s), (24, (shownSec n s).cause)]

def secCount (n : Nat) (s : State) : Word :=
  packWord [(0, i16 (shownSec n s).count), (16, (shownSec n s).gen)]

def epLens : Option Episode → Nat × Nat
  | some e => (e.e.length, e.x.length)
  | none => (0, 0)

/-- SEC (R143 to R145); the configuration is loaded at the Boot to Prove transition. -/
def secReg (off : Nat) (s : State) : Word :=
  let n := off / 0x20
  let r := shownSec n s
  let c := secCfg n s
  let loaded := fun w : Word => if inService s then w else 0
  match off % 0x20 with
  | 0x00 => secState n s
  | 0x04 => secCount n s
  | 0x08 => r.chg
  | 0x0C => loaded (packWord [(0, c.ends.length), (8, c.auth), (30, b2n c.pvc), (31, b2n (secConfigured n s))])
  | 0x10 => packWord [(0, (epLens r.ep).1), (8, (epLens r.ep).2), (16, (epLens r.hint).1), (24, (epLens r.hint).2)]
  | 0x14 => loaded c.defCrc
  | 0x18 => r.dland
  | 0x1C => fltReg clsSec n s
  | _ => 0

/-- ENG_STAT (R240). -/
def engStat (n : Nat) (s : State) : Word :=
  let g := engOf n s
  packWord [(0, engCode g.state), (8, g.ext), (18, g.strike), (20, g.slots.length - 1),
    (23, if g.state == .service then tabGet 1 g.slots 0 - 1 else 0)]

def engErr (n : Nat) (s : State) : Word :=
  packWord [(0, (engOf n s).ce), (16, (engOf n s).errCause), (24, (engOf n s).errCode)]

/-- ENG (R239 to R241). -/
def engReg (off : Nat) (s : State) : Word :=
  let n := off / 0x10
  match off % 0x10 with
  | 0x00 => engStat n s
  | 0x04 => (engOf n s).last
  | 0x08 => engErr n s
  | 0x0C => fltReg clsEng n s
  | _ => 0

/-- CHK_STAT (R243). -/
def chkStat (s : State) : Word :=
  packWord [(0, b2n s.sup.cpOk), (1, b2n s.man.failed), (2, b2n (migBusy s)), (3, b2n s.sup.rot.isSome),
    (16, s.sup.cpokRun)]

/-- CHK (R242 to R244). -/
def chkReg (p : HostId) (off : Nat) (s : State) : Word :=
  let h := hostOf p s
  match off with
  | 0x00 => chkStat s
  | 0x04 => packWord [(0, countState .ready s), (16, countState .retired s)]
  | 0x08 => packWord [(0, s.img.cfg.rotInt), (16, s.sup.rotNext)]
  | 0x10 => s.sup.mig
  | 0x14 => s.sup.migLand
  | 0x20 => s.sup.digA
  | 0x24 => s.sup.digB
  | 0x30 => packWord [(0, h.selHead), (16, h.selEng)]
  | 0x34 => BitVec.ofNat 32 (headOf h.selHead s).gen
  | 0x38 => (engOf h.selEng s).diag0
  | 0x3C => (engOf h.selEng s).diag1
  | 0x40 => fltReg clsChk 0 s
  | _ => 0

/-- SUP (R377). -/
def supReg (off : Nat) (s : State) : Word :=
  match off with
  | 0x00 => packWord [(0, s.sup.ncmd), (16, b2n (domOn 6 s && inService s)), (17, b2n (domOn 7 s && inService s))]
  | 0x04 => packWord [(0, s.sup.passA), (16, s.sup.passB)]
  | 0x08 => s.img.cfg.supCrc
  | 0x0C => packWord [(0, s.sup.ceA), (16, s.sup.ceB)]
  | _ => 0

/-- Each supervisor's own fields of SUP read zero while its domain is out (R385). -/
def supMask (off : Nat) (s : State) : Word :=
  match off with
  | 0x00 => packWord [(0, 0x7F), (16, b2n (domOn 6 s)), (17, b2n (domOn 7 s))]
  | 0x08 => 0xFFFFFFFF
  | _ => packWord [(0, 0xFFFF * b2n (domOn 6 s)), (16, 0xFFFF * b2n (domOn 7 s))]

/-- SG (R269 to R273). -/
def sgReg (off : Nat) (s : State) : Word :=
  let g := off / 0x100
  let x := grpOf g s
  let c := grpCfg g s
  match off % 0x100 with
  | 0x00 => sgStat g s
  | 0x04 => packWord [(0, b2n (grpConfigured g s)), (7, b2n c.enc), (8, b2n c.guard), (9, c.profiles.length),
      (16, c.trust.length)]
  | 0x08 => x.pos
  | 0x0C => BitVec.ofInt 32 x.speed
  | 0x10 => BitVec.ofInt 32 x.v0
  | 0x14 => BitVec.ofInt 32 x.env
  | 0x18 => x.ss1Land
  | 0x1C => packWord [(0, x.stopFb), (16, x.stopSs1)]
  | 0x20 => BitVec.ofNat 32 x.encErr
  | 0x7C => fltReg clsSg g s
  | q =>
    if g ≠ 0 then 0
    else
      match q with
      | 0x80 => packWord [(0, s.saf.miss), (2, b2n s.saf.dm), (3, b2n s.saf.sealOk)]
      | 0x84 => s.saf.tokLand
      | 0x88 => sealWord s
      | 0x8C => packWord [(24, s.saf.sealPat.toNat)]
      | 0x90 => packWord [(0, s.saf.reads), (16, s.saf.glitch)]
      | 0x94 => BitVec.ofNat 32 s.img.cfg.rstg
      | 0xFC => fltReg clsSafio 0 s
      | _ => 0

/-- HOST of one port, with its MSI-X structures (R301 to R303). -/
def hostReg (p : HostId) (off : Nat) (s : State) : Word :=
  let h := hostOf p s
  let lo := fun b : BitVec 64 => b.setWidth 32
  let hi := fun b : BitVec 64 => (b >>> 32).setWidth 32
  match off with
  | 0x00 => packWord [(0, portNo p), (1, b2n (isLead p s)), (4, b2n (hostUp (otherHost p) s)), (5, b2n h.gen2)]
  | 0x04 => h.ctl.setWidth 32
  | 0x08 => BitVec.ofNat 32 h.pub
  | 0x10 => lo h.imgBase
  | 0x14 => hi h.imgBase
  | 0x18 => lo h.wrBase
  | 0x1C => hi h.wrBase
  | 0x20 => BitVec.ofNat 32 h.wrSize
  | 0x24 => h.wrRidx
  | 0x28 => s.dev.wrWidx
  | 0x2C => BitVec.ofNat 32 h.wrDrop
  | 0x30 => lo h.dlBase
  | 0x34 => hi h.dlBase
  | 0x38 => lo h.keyBase
  | 0x3C => hi h.keyBase
  | 0x40 => h.pubSeq
  | 0x44 => if inService s then h.mbShown else h.mbSeq
  | 0x48 => BitVec.ofNat 32 h.silent
  | 0x4C => if inService s then h.leadShown else h.leadLand
  | 0x50 => h.irqEn.setWidth 32
  | 0x54 => h.irqSt.setWidth 32
  | 0x60 => fltReg (clsHost p) 0 s
  | 0xC00 => h.msixPend.setWidth 32
  | q => if 0x800 ≤ q && q < 0x880 then tabGet 0 h.msix ((q - 0x800) / 4) else 0

/-- A word of a list of words, or of the fused key hash. -/
def hashWord (i : Nat) : Word := (Config.fuseHash >>> (32 * (7 - i))).setWidth 32

/-- IMG (R325). -/
def imgReg (off : Nat) (s : State) : Word :=
  match off with
  | 0x004 => BitVec.ofNat 32 s.img.len
  | 0x008 => packWord [(0, imgCode s.img.state), (4, portNo s.img.port), (24, s.img.err)]
  | 0x00C => packWord [(0, s.img.tDist), (16, s.img.tCheck)]
  | 0x010 => s.img.cfg.build
  | 0x0F0 => fltReg clsImg 0 s
  | q =>
    if 0x40 ≤ q && q < 0x60 then s.img.cfg.scHash.getD ((q - 0x40) / 4) 0
    else if 0x60 ≤ q && q < 0x80 then hashWord ((q - 0x60) / 4)
    else 0

/-- The slack bounds (R341). -/
def slackD (s : State) : Nat := s.bell.period / 4
def sCrit (s : State) : Nat := slackD s / 8
def sLo (s : State) : Nat := 8 * slackD s / 25
def sHi (s : State) : Nat := 14 * slackD s / 25
/-- S_LO and S_HI as PMC_GOV shows them: of the period the image brings, from distribution on (R352, R386). -/
def govWord (s : State) : Word := packWord [(0, 8 * (s.img.cfg.period / 4) / 25), (16, 14 * (s.img.cfg.period / 4) / 25)]
def sStep (s : State) : Nat := slackD s / 25

/-- The domains with one of the 30 numbers that are lost. -/
def nLost (s : State) : Nat := ((List.range 30).filter fun d => (domOf d s).state == .lost).length

/-- PMC_DOM (R350, R351). -/
def domReg (d off : Nat) (s : State) : Word :=
  let x := domOf d s
  match off with
  | 0x00 => packWord [(0, domCode x.state), (4, b2n (14 ≤ d)), (5, b2n (d == 0)),
      (24, (phasesOn d s).foldl (fun n p => n + 2 ^ p) 0)]
  | 0x04 => packWord [(0, domNph d), (8, domVmin d), (20, domVmax d s)]
  | 0x08 => BitVec.ofNat 32 x.vset
  | 0x0C => BitVec.ofNat 32 x.vmeas
  | 0x10 => packWord [(0, x.iout), (16, domRated d s)]
  | 0x14 => packWord [(0, i16 x.slack), (16, i16 x.slackMin)]
  | 0x18 => packWord [(0, x.xon.getD 0 0), (8, x.xon.getD 1 0), (16, x.xon.getD 2 0), (24, x.xon.getD 3 0)]
  | 0x1C => packWord [(0, b2n x.uv1), (1, b2n x.ov1), (2, b2n x.uv2), (3, b2n x.ov2), (4, b2n x.fail1),
      (5, b2n x.fail2), (8, (domVref d s).1 - 50), (20, (domVref d s).2 + 50)]
  | 0x3C => fltReg clsDom d s
  | _ => 0

/-- VTRK inside 1.62 V to 2.00 V at the latest landing tick (R352). -/
def trunkOk (s : State) : Bool := decide (1620 ≤ s.pmc.trunkV) && decide (s.pmc.trunkV ≤ 2000)

/-- The device with the domains as they stood at the most recent landing tick (R349, R386). -/
def atTick (s : State) : State :=
  { s with bell := { s.bell with time := s.bell.tickTime }, pmc := { s.pmc with doms := s.pmc.seen } }

/-- In-service tie tests run (R340, R352). -/
def tieTests (s : State) : Bool := inService s && s.dev.mode != .prove && domOn 1 s && domOn 13 s

/-- PMC as it stands (R349 to R352). -/
def pmcLive (off : Nat) (s : State) : Word :=
  match off with
  | 0x800 => packWord [(0, nLost s), (8, b2n s.pmc.tieSeen), (9, b2n (trunkOk s))]
  | 0x804 => packWord [(0, s.pmc.trunkV), (16, s.pmc.trunkI)]
  | 0x808 => govWord s
  | 0x80C => fltReg clsPmc 0 s
  | q => if q < 0x780 then domReg (q / 0x40) (q % 0x40) s else 0

/-- PMC: every register shows values at the most recent landing tick, a fault register its own (R349, R386). -/
def pmcReg (off : Nat) (s : State) : Word := pmcLive off (atTick s)

/-- THERM_STAT and THERM_CNT as they stand (R354). -/
def thermStat (s : State) : Word :=
  packWord [(0, thermCode s.pmc.therm), (3, b2n s.pmc.latch), (4, s.pmc.ninv), (8, s.pmc.hot), (16, i16 s.pmc.tj)]

def thermCnt (s : State) : Word := packWord [(0, s.pmc.transTotal), (16, s.pmc.trans.length)]

/-- The PMC and THERM registers take the values of a landing tick (R349, R353, R386). -/
def seeTick (s : State) : State :=
  { s with pmc := { s.pmc with seen := s.pmc.doms, tieSeen := tieTests s, statSeen := thermStat s, cntSeen := thermCnt s } }

/-- THERM (R353 to R355). -/
def thermReg (off : Nat) (s : State) : Word :=
  match off with
  | 0x00 => s.pmc.statSeen
  | 0x04 => s.pmc.cntSeen
  | 0x60 => fltReg clsTherm 0 s
  | q =>
    if 0x10 ≤ q && q < 0x40 then
      let x := s.pmc.sens.getD ((q - 0x10) / 4) (false, 0)
      packWord [(0, i16 x.2), (31, b2n x.1)]
    else 0

/-- FLT (R371 to R374). -/
def fltBlock (off : Nat) (s : State) : Word :=
  let first := s.flt.first
  match off with
  | 0x00 => fltSum s
  | 0x04 => packWord [(0, b2n (safeAsserted s)), (1, b2n (faultAsserted s)), (2, b2n s.flt.dmHold)]
  | 0x08 => packWord [(0, s.flt.safeCause), (31, b2n s.flt.safeActive)]
  | 0x10 => match first with
    | some r => packWord [(0, r.1.ix), (16, r.1.bit), (24, r.1.cls), (31, 1)]
    | none => 0
  | 0x14 => match first with
    | some r => r.2.1.setWidth 32
    | none => 0
  | 0x18 => match first with
    | some r => (r.2.1 >>> 32).setWidth 32
    | none => 0
  | 0x1C => match first with
    | some r => r.2.2
    | none => 0
  | 0x20 => BitVec.ofNat 32 s.flt.later
  | 0x30 => fltReg clsFlt 0 s
  | _ => 0

/-- PARAM_STAT (R304). -/
def paramStat (s : State) : Word := packWord [(0, s.img.cfg.params.length), (16, s.sup.pgen)]

/-- The value of a parameter (R304). -/
def paramValue (pid : Nat) (s : State) : Word := if (paramOf pid s).isSome then tabGet 0 s.sup.params pid else 0

/-- The key under which the shown value of a parameter is kept, beyond every BAR0 offset. -/
def paramKey (pid : Nat) : Nat := 0x1000000 + pid

/-- PARAM (R304). -/
def paramReg (p : HostId) (off : Nat) (s : State) : Word :=
  match off with
  | 0x00 => paramStat s
  | 0x04 => BitVec.ofNat 32 (hostOf p s).selPid
  | 0x08 => if inService s then tabGet 0 s.shown (paramKey (hostOf p s).selPid) else paramValue (hostOf p s).selPid s
  | 0x0C => s.sup.paramLast
  | 0x10 => fltReg clsParam 0 s
  | _ => 0

/-! ### BAR0 (R376, R385, R386) -/

/-- The two domains that may hold a register's value: the second is the fallback (R385). -/
def holdingDoms (off : Nat) (s : State) : List Nat :=
  if off < 0x01000 then [0]
  else if off < 0x02000 then [bellDom s]
  else if off < 0x04000 then
    let r := off - 0x2000
    let n := r % 0x80 / 4
    let i := r % 0x200 / 4 / 4
    if r = 0x700 then [11]
    else if r < 0x200 then [if n < 16 then 10 else 11]
    else if r < 0x600 then [if i < 16 then 10 else 11]
    else [if n < 16 then 10 else 11]
  else if off < 0x0C000 then [4, 5]
  else if off < 0x0F000 then [6, 7]
  else if off < 0x10000 then [6, 7]
  else if off < 0x11000 then [12]
  else if off < 0x12000 then []
  else if off < 0x13000 then [0]
  else if off < 0x15000 then [1]
  else if off < 0x16000 then []
  else [6, 7]

/-- The register's holding domain is in service; HOST answers with its port and FLT reads from VAON. -/
def holdOn (off : Nat) (s : State) : Bool :=
  match holdingDoms off s with
  | [] => true
  | l => l.any fun d => domOn d s

/-- The device as its configuration registers show it: fixed from distribution until BOOT (R313, R386). -/
def seenCfg (s : State) : State := if s.img.state == .loaded then s else { s with img := { s.img with cfg := .none } }

/-- A register's own value. -/
def bar0Live (p : HostId) (off : Nat) (s0 : State) : Word :=
  let s := seenCfg s0
  match off / 0x1000 with
  | 0x00 => devReg off s
  | 0x01 => bellReg p (off - 0x1000) s
  | 0x02 => ringReg (off - 0x2000) s
  | 0x03 => 0
  | 0x0E => chkReg p (off - 0xE000) s
  | 0x0F => supReg (off - 0xF000) s
  | 0x10 => sgReg (off - 0x10000) s
  | 0x11 => hostReg p (off - 0x11000) s
  | 0x12 => imgReg (off - 0x12000) s
  | 0x13 => pmcReg (off - 0x13000) s
  | 0x14 => thermReg (off - 0x14000) s
  | 0x15 => fltBlock (off - 0x15000) s
  | 0x16 => paramReg p (off - 0x16000) s
  | q =>
    if q < 0x08 then headReg (off - 0x4000) s
    else if q < 0x0C then secReg (off - 0x8000) s
    else if q < 0x0E then engReg (off - 0xC000) s
    else 0

/-- Shared registers of the commit-switch class whose state may move between commits, but for ENG; HEAD, SEC, BELL_STAT,
CHK_HGEN and CHK_DIAG show what only a commit writes (R386). -/
def switchList : List Nat :=
  [0x0004, 0x0010, 0x1040, 0x1044, 0x1048, 0x104C, 0xE000, 0xE004, 0xE008, 0xE010, 0xE014, 0xE020, 0xE024, 0xF000, 0xF004,
   0xF00C, 0x16000, 0x1600C]

/-- A register of those, or one of ENG; ENG_FLT sets at the event. -/
def switches (off : Nat) : Bool := (0xC000 ≤ off && off < 0xE000 && off % 0x10 != 0x0C) || switchList.contains off

/-- What a register of the class shows: DEV_STAT.SAFE sets at the entry to the safe state (R362). -/
def switchRead (off : Nat) (s : State) : Word :=
  let w := tabGet 0 s.shown off
  if off = 0x0004 then w ||| packWord [(15, b2n s.dev.safe)] else w

/-- What a BAR0 read of one register returns (R376 to R379, R385, R386). -/
def bar0Read (p : HostId) (off : Nat) (s : State) : Word :=
  if !holdOn off s then 0
  else
    let w := if inService s && switches off then switchRead off s else bar0Live p off s
    if off / 0x1000 = 0x0F then w &&& supMask (off - 0xF000) s else w

/-- A port's registers of the class (R386). -/
def switchPort (h : PortSt) : PortSt := { h with mbShown := h.mbSeq, leadShown := h.leadLand }

/-- The registers of the commit-switch class take their new values (R137 step 6, R386). -/
def switchShown (s : State) : State :=
  let engs := s.engs.flatMap fun e => [0, 4, 8].map fun o => 0xC000 + 0x10 * e.1 + o
  let regs := (engs ++ switchList).map fun o => (o, bar0Live .ha o s)
  let vals := s.img.cfg.params.map fun x => (paramKey x.1, paramValue x.1 s)
  { s with shown := sortBy (·.1) ((regs ++ vals).filter fun x => x.2 != 0), ha := switchPort s.ha, hb := switchPort s.hb }

/-! ### Configuration space (R274, R275, R383) -/

/-- A word of a port's configuration space: the header with the identity and the BARs, and the capabilities of power management,
MSI, PCI Express, MSI-X and Advanced Error Reporting. Where each lies is PRESUMED (PCI Express Base Specification, log 105). -/
def pciWord (p : HostId) (off : Nat) (s : State) : Word :=
  let h := hostOf p s
  let c := h.pci
  match off with
  | 0x00 => 0x05121C3F
  | 0x04 => packWord [(0, c.cmd.toNat), (20, 1)]
  | 0x08 => 0x088000B0
  | 0x10 => (c.bar0.setWidth 32 &&& 0xFFFC0000) ||| 4
  | 0x14 => (c.bar0 >>> 32).setWidth 32
  | 0x18 => (c.bar2.setWidth 32 &&& 0xFC000000) ||| 4
  | 0x1C => (c.bar2 >>> 32).setWidth 32
  | 0x2C => 0x05121C3F
  | 0x34 => 0x40
  | 0x40 => packWord [(0, 0x01), (8, 0x50)]
  | 0x44 => packWord [(0, 3 * b2n h.d3hot)]
  | 0x50 => packWord [(0, 0x05), (8, 0x70), (16, b2n c.msiEn), (17, 3), (20, c.msiVecs.val), (23, 1)]
  | 0x54 => c.msiAddr.setWidth 32
  | 0x58 => (c.msiAddr >>> 32).setWidth 32
  | 0x5C => c.msiData.setWidth 32
  | 0x70 => packWord [(0, 0x10), (8, 0xB0), (16, 2)]
  | 0x74 => packWord [(0, 1)]
  | 0x78 => packWord [(5, b2n c.mps256)]
  | 0xB0 => packWord [(0, 0x11), (16, 7), (30, b2n c.msixMask), (31, b2n c.msixEn)]
  | 0xB4 => 0x00011800
  | 0xB8 => 0x00011C00
  | 0x100 => packWord [(0, 0x0001), (16, 1)]
  | 0x104 => packWord [(12, b2n h.aerPoison), (20, b2n h.aerUr)]
  | _ => 0

/-! ### Pins (R296, R364, R397, R398) -/

/-- The outputs of the S33 type. -/
inductive S33Out where
  | tra (g : Nat)
  | trb (g : Nat)
  | srq (g : Nat)
  | sealLd
  | sealCk
  | forceInd
  deriving DecidableEq, Repr

/-- What a ball shows. -/
inductive Ball where
  | low
  | high
  /-- High-impedance: low where a pull-down stands on it. -/
  | hiZ
  deriving DecidableEq, Repr

/-- An output that is driven to a level while its supply stands. -/
def ballOf (powered level : Bool) : Ball := if powered then (if level then .high else .low) else .hiZ

/-- FORCE_IND is high in COMMISSION while a force is in effect, and low in the safe state. -/
def forceInd (s : State) : Bool :=
  s.pins.resetN && !s.dev.safe && s.dev.mode == .commission && !s.sup.forces.isEmpty

/-- An S33 output. -/
def s33Ball (o : S33Out) (s : State) : Ball :=
  ballOf (s33On s) (match o with
    | .tra g => (grpOf g s).tra
    | .trb g => (grpOf g s).trb
    | .srq g => (grpOf g s).srq
    | .sealLd => sealLd s
    | .sealCk => sealCk s
    | .forceInd => forceInd s)

/-- SAFE_N and FAULT_N, which are asserted low. -/
def safeBall (s : State) : Ball := ballOf s.pins.vaon (!safeAsserted s)

def faultBall (s : State) : Ball := ballOf s.pins.vaon (!faultAsserted s)

/-- TDO is high-impedance but while the port shifts, which no command does (log 9). -/
def tdoBall (_ : State) : Ball := .hiZ

/-- Bring-up has reached step 4 with RESET_N high (R328, R398). -/
def outOfReset (s : State) : Bool := s.pins.vaon && s.pins.resetN && decide (4 ≤ s.pmc.step)

/-- A Tsumal transmitter drives its line: its domain and VLNK stand, and the device has enabled it (R55, R398). -/
def tsumalSwings (p : Nat) (s : State) : Bool :=
  outOfReset s && s.pins.vlnk && domOn (portDom p) s && !s.dev.safe && (portOf p s).txen

/-- A Tsumal receiver terminates its line: that of a configured port, outside BOOT and the safe state (R398). -/
def tsumalTerminated (p : Nat) (s : State) : Bool := outOfReset s && portInUse p s

/-- The terminations of a host port are on: its domain, VPCI and VPH18 stand (R398). -/
def hostTerminated (p : HostId) (s : State) : Bool :=
  outOfReset s && s.pins.vpci && s.pins.vph18 && domOn (hostDom p) s

end Sys2Proof.Machine
end

