-- ==== Sys2Proof/Machine/Host.lean ====
section
/-! DEFINITION. Host ports: the landing image, wheel records, key records, the deck-load frame, the mailbox, links and the
host registers with a row of their own (R115 to R118, R274 to R303). -/

namespace Sys2Proof.Machine

/-! ### Writes into host memory (R277) -/

/-- The maximum payload size in use: 128 or 256 bytes (R274). -/
def payload (h : PortSt) : Nat := if h.pci.mps256 then 256 else 128

/-- The memory writes of a run of bytes: each inside one 4 KiB block and within the maximum payload size m; the second argument
bounds their number. -/
def writesOf (m : Nat) : Nat → Nat → List Byte → List (Nat × List Byte)
  | 0, _, _ => []
  | n + 1, a, l =>
    if l.isEmpty then []
    else
      let k := min m (4096 - a % 4096)
      (a, l.take k) :: writesOf m n (a + k) (l.drop k)

/-- A write enters the port's transmit FIFO (R19). DESIGN CHOICE, log 115: an entry is one write request. -/
def pushTx (w : Nat × List Byte) (h : PortSt) : PortSt := { h with txFifo := h.txFifo ++ [w] }

/-- The oldest write of the FIFO reaches host memory: posted writes keep their order (R277). -/
def sendTx (h : PortSt) : PortSt :=
  match h.txFifo with
  | w :: t => { h with txFifo := t, host := memStore h.host w.1 w.2 }
  | [] => h

/-- The port writes bytes at an offset from a base address; credit is granted at the link rate, so that no write waits
(R277). -/
def putHost (base : BitVec 64) (off : Nat) (l : List Byte) (h : PortSt) : PortSt :=
  (writesOf (payload h) l.length ((base.toNat + off) % 2 ^ 64) l).foldl (fun h w => sendTx (pushTx w h)) h

def zeros (n : Nat) : List Byte := List.replicate n 0

/-- HOST_CTL enables (R302). -/
def imgEn (h : PortSt) : Bool := h.ctl.getLsbD 0
def wrEn (h : PortSt) : Bool := h.ctl.getLsbD 1
def dlEn (h : PortSt) : Bool := h.ctl.getLsbD 2

/-! ### The landing image (R284 to R287) -/

/-- FLTSUM as a port shows it (R286). -/
def fltSumOf (p : HostId) (s : State) : Word :=
  let own := match p with
    | .ha => clsHa
    | .hb => clsHb
  let listed := [clsBell, clsRing, clsHead, clsSec, clsEng, clsChk, clsSg, clsSafio, own, clsParam]
  let other := s.flt.bits.any fun x => !listed.contains (x.1 / 512) && x.2 != 0
  packWord (((List.range 10).map fun i => (i, b2n (clsBits (listed.getD i 0) s))) ++ [(10, b2n other)])

/-- The device block, 64 bytes at 0x0040 (R286). -/
def deviceBlock (p : HostId) (s : State) : List Byte :=
  padTo 64 ([BitVec.ofNat 8 (modeCode s.dev.mode), 0] ++ leBytes 2 (countState .ready s) ++ wordBytes s.bell.stat ++
    wordBytes (chkStat s) ++ wordBytes (fltSumOf p s) ++ wordBytes (paramStat s) ++
    leBytes 4 (hostOf p s).wrDrop ++ leBytes 1 s.sup.forces.length)

/-- A stop-group record, 16 bytes (R286). -/
def groupRecord (g : Nat) (s : State) : List Byte :=
  let x := grpOf g s
  padTo 16 (wordBytes x.tickStat ++ wordBytes (BitVec.ofInt 32 x.speed) ++ leBytes 2 (fltReg clsSg g s).toNat ++
    leBytes 2 x.ss1Land.toNat)

/-- A section record as the host images show it, forces applied (R142, R296). -/
def sectionRecord (n : Nat) (s : State) : List Byte :=
  if (shownSec n s).state == .unconfigured then zeros 8
  else
    let r := shownSec n s
    let f := s.sup.forces.find? fun x => x.1 == n
    let st := match f with
      | some x => x.2.1
      | none => BitVec.ofNat 8 (secCode r.state)
    let cnt := match f with
      | some x => x.2.2.toNat
      | none => i16 r.count
    [st, BitVec.ofNat 8 (secFlags n s + 128 * b2n f.isSome)] ++ leBytes 2 cnt ++ leBytes 2 r.gen ++ leBytes 2 r.chg.toNat

/-- A head record (R287). -/
def headRecord (n : Nat) (s : State) : List Byte :=
  if !headConfigured n s then zeros 8
  else
    let w := headStat n s
    [w.setWidth 8, (w >>> 8).setWidth 8] ++ leBytes 2 (headOf n s).engine ++ wordBytes (headPass n s)

/-- Bytes 0x0040 to 0x01FF, and 0x1000 to 0x2FFF, of an image: the part written from commit completion (R284). -/
def imageLow (p : HostId) (s : State) : List Byte :=
  deviceBlock p s ++ (List.range 16).flatMap (fun g => groupRecord g s) ++ zeros 128

def imageHigh (s : State) : List Byte :=
  (List.range 512).flatMap (fun n => sectionRecord n s) ++ (List.range 512).flatMap (fun n => headRecord n s)

/-- The buffer of the image being written (R284). -/
def imageOff (h : PortSt) : Nat := 0x4000 * ((h.imgSeq.toNat + 1) % 4)

/-- The first part of a publication (R284). -/
def writeBody (p : HostId) (s : State) : State :=
  modHost p (fun h =>
    putHost h.pubImg (imageOff h + 0x1000) (imageHigh s) (putHost h.pubImg (imageOff h + 0x40) (imageLow p s) h)) s

/-- A result entry, 8 bytes (R291). -/
def resultBytes (r : Result) : List Byte :=
  leBytes 1 r.ix ++ leBytes 1 r.code ++ leBytes 2 r.value ++ wordBytes r.tag

/-- The results area, 0x0200 to 0x0FFF: entry i at 8i (R285, R291). -/
def resultsArea (p : HostId) (s : State) : List Byte :=
  let l := s.sup.results.filter fun r => r.port == p
  padTo 0xE00 ((List.range 127).flatMap fun i =>
    match l.find? fun r => r.ix == i with
    | some r => resultBytes r
    | none => zeros 8)

/-- Header bytes 0x0000 to 0x003B (R285). -/
def imageHeader (p : HostId) (s : State) : List Byte :=
  let h := hostOf p s
  let oneTree := !s.bell.stat.getLsbD 1 || !s.bell.stat.getLsbD 2
  let nres := (s.sup.results.filter fun r => r.port == p).length
  let flags := b2n (isLead p s) + 2 * b2n (!s.sup.forces.isEmpty) + 4 * b2n (s.bell.stat.getLsbD 0) + 8 * b2n oneTree +
    16 * b2n s.man.failed + 32 * b2n h.recDrop
  padTo 0x3C (wordBytes s.bell.landNo ++ leBytes 6 s.bell.tickTime.toNat ++ leBytes 2 flags ++
    wordBytes (h.imgSeq + 1) ++ wordBytes s.dev.wrWidx ++ wordBytes h.resSeq ++ leBytes 1 h.mbStat ++ leBytes 1 nres ++
    leBytes 2 h.pub)

/-- The bytes the port has written of the image, from 0x0040 on. -/
def imageRest (h : PortSt) : List Byte :=
  memLoad h.host ((h.pubImg.toNat + imageOff h + 0x40) % 2 ^ 64) (0x3000 - 0x40)

/-- A key record (R291). -/
def keyRecord (tag : Word) (sec key : Nat) (land : Word) : List Byte :=
  let l := wordBytes tag ++ leBytes 2 sec ++ leBytes 2 key ++ wordBytes land
  l ++ wordBytes (crc32c l)

/-- Key records of the lead, ahead of the header, where KEYEN enables them for the publication (R282, R284, R291, R302). -/
def writeKeys (p : HostId) (s : State) : State :=
  if isLead p s && (hostOf p s).pubCtl.getLsbD 3 then
    forEach s.sup.keys (fun k s =>
      modHost p (putHost (hostOf p s).pubKey (16 * k.1) (keyRecord k.2.1 k.2.2.1 k.2.2.2 s.bell.landNo)) s) s
  else s

/-- Results, key records, then the header, which completes the image (R284). -/
def completeImage (p : HostId) (s : State) : State :=
  let hdr := imageHeader p s
  let s := modHost p (fun h => putHost h.pubImg (imageOff h + 0x200) (resultsArea p s) h) s
  let s := writeKeys p s
  let s := modHost p (fun h =>
    let crc := crc32c (hdr ++ imageRest h)
    { putHost h.pubImg (imageOff h) (hdr ++ wordBytes crc) h with
      pubSeq := h.imgSeq + 1, imgSeq := h.imgSeq + 1, recDrop := false }) s
  raiseAt p 0 s

/-- The results of a port have been released (R288, R291). -/
def releaseResults (p : HostId) (s : State) : State :=
  let s := modHost p (fun h => { h with mbHeld := false, mbStat := 3 }) s
  modSups (fun m => { m with results := m.results.filter fun r => r.port != p, keys := if isLead p s then [] else m.keys }) s

/-- The schedule of HOST_PUB at a commit (R283). -/
def schedule (h : PortSt) : PortSt :=
  if h.pubLeft ≤ 1 then { h with publish := true, pubLeft := h.pub } else { h with publish := false, pubLeft := h.pubLeft - 1 }

/-- The enables and base addresses of a publication are those of its commit (R301, R390). -/
def openPub (h : PortSt) : PortSt := { h with pubCtl := h.ctl, pubImg := h.imgBase, pubDl := h.dlBase, pubKey := h.keyBase }

/-- Publication at a commit: the schedule moves on, and a published image gets its first part (R283, R284). -/
def publishCommit (p : HostId) (s : State) : State :=
  let s := modHost p (fun h => openPub (schedule h)) s
  if (hostOf p s).publish && imgEn (hostOf p s) && hostUp p s then
    writeBody p (modHost p (fun h => { h with body := true }) s)
  else modHost p (fun h => { h with body := false }) s

/-- Publication at a passed checkpoint: an image whose first part has been written is completed; with IMGEN clear at the commit
the results are released and written nowhere (R284, R288, R390). -/
def publishPassed (p : HostId) (s : State) : State :=
  let h := hostOf p s
  if !h.publish then s
  else
    let s := modHost p (fun h => { h with publish := false, body := false }) s
    if h.body then
      if hostUp p s then releaseResults p (completeImage p s) else s
    else releaseResults p s

/-! ### Wheel records (R115 to R118) -/

/-- Records the ring holds; the manual gives none for a LOG2 outside 6 to 16, which the register takes: a free value (R302,
R378; DESIGN CHOICE, log 76). -/
def ringSize (h : PortSt) : Nat := if 6 ≤ h.wrSize ∧ h.wrSize ≤ 16 then 2 ^ h.wrSize else Config.wrRing h.wrSize

/-- Records of a commit go to the lead's ring; those that find no room are dropped. -/
def writeRecords (p : HostId) (l : List WheelRec) (s : State) : State :=
  let h := hostOf p s
  if l.isEmpty || !wrEn h || !hostUp p s then s
  else
    let size := ringSize h
    let free := size - (s.dev.wrWidx - h.wrRidx).toNat
    let fit := l.take free
    let lost := l.length - fit.length
    let put := fun (h : PortSt) (x : WheelRec × Nat) =>
      putHost h.wrBase (16 * ((s.dev.wrWidx.toNat + x.2) % size)) (recBytes x.1) h
    let s1 := modHost p (fun h =>
      { (fit.zipIdx 0).foldl put h with wrDrop := min 0xFFFFFFFF (h.wrDrop + lost)
                                        recDrop := h.recDrop || decide (0 < lost) }) s
    let s2 := { s1 with dev := { s1.dev with wrWidx := s1.dev.wrWidx + BitVec.ofNat 32 fit.length } }
    let s3 := stickyIf (decide (0 < lost)) (clsHost p) 0 4 s2
    if fit.isEmpty then s3 else raiseAt p 1 s3

/-- The records of a commit are written at the lead port (R116). -/
def leadRecords (l : List WheelRec) (s : State) : State := if s.dev.hasLead then writeRecords s.dev.lead l s else s

/-! ### The deck-load frame (R297, R298) -/

/-- r x 2^(15 - e) for r = n / 10^6, rounded (R192, R297). -/
def deckRound (e : Int) (n : Int) : Int :=
  if e ≤ 15 then roundEven (n * 2 ^ (15 - e).toNat) 1000000 else roundEven n (1000000 * 2 ^ (e - 15).toNat)

/-- The smallest exponent, from a sufficient one downward (R192). -/
def deckExp (l : List Int) : Nat → Int → Int
  | 0, e => e
  | k + 1, e => if fits16 (l.map (deckRound (e - 1))) then deckExp l k (e - 1) else e

/-- The 32 values in units of 10^-6 t m. -/
def deckValues (s : State) : List Int :=
  (List.range 32).map fun i =>
    let secs := s.img.cfg.lines.getD i []
    let axles : Int := secs.foldl (fun n x => n + (shownSec x s).count) 0
    if i < s.img.cfg.lines.length then axles * (paramValue (0x100 + i) s).toInt * (paramValue (0x140 + i) s).toInt else 0

/-- A member section holds its line (R297); an unconfigured one does so too. -/
def holdsLine (n : Nat) (s : State) : Bool :=
  match (shownSec n s).state with
  | .clear => false
  | .occupied => false
  | _ => true

def deckHold (s : State) : Word :=
  packWord ((List.range 32).map fun i => (i, b2n ((s.img.cfg.lines.getD i []).any fun n => holdsLine n s)))

/-- The deck vector at a commit (R297). -/
def formDeck (s : State) : State :=
  let v := deckValues s
  let zero := v.all (· == 0)
  let e := if zero then -128 else deckExp v 168 40
  let m := if zero then List.replicate 32 0 else v.map fun n => BitVec.ofInt 16 (deckRound e n)
  let hold := deckHold s
  let ok := hold == 0
  { s with sup := { s.sup with
      cur := m, curExp := e, holdMask := hold
      lv := if ok then m else s.sup.lv
      lvExp := if ok then e else s.sup.lvExp
      lvLand := if ok then s.bell.landNo else s.sup.lvLand
      lvOk := s.sup.lvOk || ok } }

/-- Mantissas of a vector of the deck, 64 bytes. -/
def deckBytes (l : List (BitVec 16)) : List Byte := padTo 64 (l.flatMap fun m => leBytes 2 m.toNat)

/-- The 160-byte frame (R298). -/
def deckFrame (s : State) : List Byte :=
  let u := s.sup
  let flags := b2n (u.holdMask != 0) + 2 * b2n u.lvOk + 4 * b2n (s.bell.stat.getLsbD 0) + 256 * s.img.cfg.lines.length
  let b := padTo 156 (wordBytes s.bell.landNo ++ leBytes 2 flags ++ zeros 2 ++ wordBytes u.holdMask ++
    wordBytes u.lvLand ++ [BitVec.ofInt 8 u.curExp, BitVec.ofInt 8 u.lvExp] ++ zeros 2 ++ deckBytes u.cur ++ deckBytes u.lv)
  b ++ wordBytes (crc32c b)

/-- Each port with DLEN set at the commit writes the frame after a passed checkpoint (R298, R390). -/
def writeDeck (p : HostId) (s : State) : State :=
  if (hostOf p s).pubCtl.getLsbD 2 && hostUp p s then
    raiseAt p 2 (modHost p (fun h => putHost h.pubDl 0 (deckFrame s) h) s)
  else s

/-! ### The mailbox (R288 to R290) -/

/-- The entries of a mailbox as taken. -/
def mailEntries (p : HostId) (m : Mem) (keyen : Bool) (n : Nat) : List Taken :=
  (List.range n).map fun i =>
    let l := memLoad m (32 + 32 * i) 32
    { port := p, ix := i, op := l.getD 0 0, f := parseEntry l, cpFail := false, keyen := keyen }

/-- A new mailbox is taken: NCMD is judged before the CRC (R288). -/
def takeMailbox (p : HostId) (s : State) : State :=
  let h := hostOf p s
  let m := h.mailbox
  let n := (memGet m 4).toNat
  let s := modHost p (fun h => { h with
    mbSeq := BitVec.ofNat 32 (memLE m 0 4), resSeq := BitVec.ofNat 32 (memLE m 0 4), mbHeld := true }) s
  if 127 < n then sticky (clsHost p) 0 3 (modHost p (fun h => { h with mbStat := 2 }) s)
  else if (crc32c (memLoad m 0 28 ++ memLoad m 32 (32 * n))).toNat != memLE m 28 4 then
    sticky (clsHost p) 0 2 (modHost p (fun h => { h with mbStat := 1 }) s)
  else
    let s := modHost p (fun h => { h with mbStat := 0 }) s
    { s with sup := { s.sup with taken := s.sup.taken ++ mailEntries p m (keyEnabled p s) n } }

/-- The copy of a port's mailbox ahead of a published landing, once earlier results are released (R288, R294). -/
def copyMailbox (p : HostId) (s : State) : State :=
  let h := hostOf p s
  if !domOn (hostDom p) s || 1 < h.pubLeft || h.mbHeld then s
  else if memLE h.mailbox 0 4 == h.mbSeq.toNat then modHost p (fun h => { h with mbStat := 3 }) s
  else takeMailbox p s

/-! ### Links (R278) -/

/-- A port as R278 leaves it: the publication in progress is abandoned with SEQ unchanged (R294), and the HOST registers and
configuration space take their reset values, but for the sticky bits, which nothing but a reset clears (R358). -/
def resetPort (h : PortSt) : PortSt :=
  { PortSt.reset with
    wasLost := true, lostBeat := true, window := h.window, mailbox := h.mailbox, host := h.host, sent := h.sent
    irqSt := h.irqSt, imgSeq := h.imgSeq, resSeq := h.resSeq, mbStat := h.mbStat, mbHeld := h.mbHeld, perst := h.perst
    timeHi := h.timeHi, ppsHi := h.ppsHi, readData := h.readData, selEng := h.selEng, selHead := h.selHead, selPid := h.selPid }

/-- The port is reset; where its link was active, the other port hears of the change (R278, R300). -/
def linkLost (p : HostId) (s : State) : State :=
  let s1 := modHost p resetPort s
  if (hostOf p s).link then raiseAt (otherHost p) 6 s1 else s1

/-- An active link goes down. -/
def dropLink (p : HostId) (s : State) : State := if (hostOf p s).link then linkLost p s else s

def execHostLinkDown (p : HostId) (s : State) : Out := .next (dropLink p s)

/-- PERST stays asserted until the link comes up, which only its release lets happen (log 125). -/
def execPerstAssert (p : HostId) (s : State) : Out := .next (modHost p (fun h => { h with perst := true }) (linkLost p s))

/-- Software reaches a port only over its link (R274, R278). -/
def execD3hotEntry (p : HostId) (s : State) : Out :=
  .next (if (hostOf p s).link then modHost p (fun h => { h with d3hot := true }) (linkLost p s) else s)

/-- The link becomes active, in D0, with the configuration space as the host's enumeration writes it (DESIGN CHOICE, log 124: no
row makes a configuration access); LINK_DOWN shows an earlier loss (R278). -/
def linkActive (p : HostId) (up : LinkUp) (s : State) : State :=
  let was := (hostOf p s).wasLost
  let s := modHost p (fun h => { h with
    link := true, gen2 := up.gen2, wasLost := false, d3hot := false, perst := false, pci := up.cfg }) s
  raiseAt (otherHost p) 6 (stickyIf was (clsHost p) 0 1 s)

def execHostLinkUp (p : HostId) (up : LinkUp) (s : State) : Out :=
  .next (if !(hostOf p s).link && domOn (hostDom p) s && s.pins.vpci && s.pins.vph18 then linkActive p up s else s)

/-- The port's domain is lost: no link, nothing held, and the host counts as silent (R18, R280). -/
def portLost (p : HostId) (s : State) : State :=
  let was := (hostOf p s).wasLost || (hostOf p s).link
  modHost p (fun h => { h with window := [], mailbox := [], silent := 0xFFFF, lostBeat := true, wasLost := was }) (linkLost p s)

/-! ### Signs of life (R280) -/

def execHostHbeat (p : HostId) (s : State) : Out :=
  .next (if hostUp p s then modHost p (fun h => { h with beat := true }) s else s)

/-- HOST_SILENT of a port at a landing tick (R278, R280): a lost domain holds it at 0xFFFF, and after a link loss the host
counts as silent until it writes again. -/
def countSilent (lost : Bool) (h : PortSt) : PortSt :=
  if lost then { h with silent := 0xFFFF }
  else if h.beat then { h with silent := 0, beat := false, lostBeat := false }
  else { h with silent := if h.lostBeat then max 64 (satInc 0xFFFF h.silent) else satInc 0xFFFF h.silent }

/-- The count at a landing tick; a host that becomes silent is shown at both ports (R300, R303). -/
def silentTick (p : HostId) (s : State) : State :=
  let s1 := modHost p (countSilent ((domOf (hostDom p) s).state == .lost)) s
  if decide ((hostOf p s).silent < 64) && decide (64 ≤ (hostOf p s1).silent) then
    raiseAt (otherHost p) 6 (sticky (clsHost p) 0 5 s1)
  else s1

def execHostSilentTimeout (p : HostId) (s : State) : Out :=
  .next (if decide (64 ≤ (hostOf p s).silent) && !(fltReg (clsHost p) 0 s).getLsbD 5 then
    raiseAt (otherHost p) 6 (sticky (clsHost p) 0 5 s) else s)

/-! ### Register writes with a row of their own (R118, R283, R390) -/

def writePub (p : HostId) (v : Word) (s : State) : State :=
  let n := bitsNat v.toNat 0 9
  if 1 ≤ n ∧ n ≤ 256 then modHost p (fun h => { h with pub := n, pubLeft := 1 }) s else sticky (clsHost p) 0 0 s

def execHostPubWrite (p : HostId) (v : Word) (s : State) : Out := .next (if hostUp p s then writePub p v s else s)

/-- A base, size or index register: while its stream is enabled a write is ignored and sets CFG (R301, R380). -/
def gatedWrite (p : HostId) (enabled : PortSt → Bool) (f : PortSt → PortSt) (s : State) : State :=
  if enabled (hostOf p s) then sticky (clsHost p) 0 0 s else modHost p f s

/-- HOST_WRRIDX, the index register of the wheel-record stream (R118, R301). -/
def writeRidx (p : HostId) (v : Word) (s : State) : State := gatedWrite p wrEn (fun h => { h with wrRidx := v }) s

def execHostWrridxWrite (p : HostId) (v : Word) (s : State) : Out := .next (if hostUp p s then writeRidx p v s else s)

/-- The MSI-X table, whose vector control has bit 0 alone (R376, R379); a vector that becomes unmasked with its pending bit set
is sent (R390). -/
def writeMsix (i : Nat) (v : Word) (h : PortSt) : PortSt :=
  let n := i / 4
  let h1 := { h with msix := tabSet 0 h.msix i (if i % 4 = 3 then v &&& 1 else v) }
  if i % 4 = 3 && !v.getLsbD 0 && h.msixPend.getLsbD n && h.pci.msixEn && !h.pci.msixMask then
    { h1 with msixPend := h.msixPend &&& ~~~((1 : Byte) <<< n), sent := h.sent ++ [n] }
  else h1

def execMsixTableWrite (p : HostId) (i : Fin 32) (v : Word) (s : State) : Out :=
  .next (if hostUp p s then modHost p (writeMsix i v) s else s)

/-! ### BAR2 (R276, R288, R309, R382) -/

/-- A write request passes the port's receive FIFO, behind those ahead of it (R19, R387; DESIGN CHOICE, log 115). -/
def pushRx (p : HostId) (w : Nat × List (Option Byte)) (s : State) : State := modHost p (fun h => { h with rxFifo := h.rxFifo ++ [w] }) s
def popRx (p : HostId) (s : State) : State := modHost p (fun h => { h with rxFifo := h.rxFifo.tail }) s

/-- A request that is not served completes as Unsupported Request (R274, R381, R382). -/
def unsupported (p : HostId) (s : State) : State := modHost p (fun h => { h with aerUr := true }) s

/-- A poisoned request is reported under Advanced Error Reporting (R381). -/
def poisonedReq (p : HostId) (s : State) : State := modHost p (fun h => { h with aerPoison := true }) s

/-- First and end offset of the region of BAR2 an offset lies in (R276). -/
def bar2Region (off : Nat) : Nat × Nat :=
  if off < 0x800000 then (0, 0x800000) else if off < 0x801000 then (0x800000, 0x801000) else (0x801000, 0x4000000)

/-- A byte of BAR2 as it reads: the mailbox what the host wrote, the image load window and reserved space zero (R276,
R382). -/
def bar2Read (p : HostId) (off : Nat) (s : State) : Byte :=
  if 0x800000 ≤ off && off < 0x801000 then memGet (hostOf p s).mailbox (off - 0x800000) else 0

/-- What a read of n bytes of BAR2 returns, and the state it leaves; one past the end of its region is not served (R382). -/
def bar2Request (p : HostId) (off n : Nat) (s : State) : List Byte × State :=
  if !hostUp p s then ([], s)
  else if (bar2Region off).2 < off + n then ([], unsupported p s)
  else ((List.range n).map (fun i => bar2Read p (off + i) s), s)

/-- Store the bytes of a request whose byte enables are set (R382). -/
def memStoreEn : Mem → Nat → List (Option Byte) → Mem
  | m, _, [] => m
  | m, a, b :: t =>
    memStoreEn (match b with
      | some b => memSet m a b
      | none => m) (a + 1) t

/-- The window of a port that does not own the load is closed (R309). -/
def windowOpenAt (p : HostId) (s : State) : Bool :=
  match s.img.owner with
  | some q => q == p
  | none => true

/-- Data for a region of BAR2; reserved space discards it (R276, R309). -/
def bar2Store (p : HostId) (off : Nat) (data : List (Option Byte)) (s : State) : State :=
  if off < 0x800000 then
    if s.dev.mode != .boot then sticky (clsHost p) 0 6 s
    else if windowOpenAt p s then modHost p (fun h => { h with window := memStoreEn h.window off data }) s
    else s
  else if off < 0x801000 then
    modHost p (fun h => { h with mailbox := memStoreEn h.mailbox (off - 0x800000) data }) s
  else s

/-- A write request to BAR2 (R276, R303, R382). -/
def bar2Write (p : HostId) (off : Nat) (data : List (Option Byte)) (poisoned : Bool) (s : State) : State :=
  if !hostUp p s then s
  else
    popRx p (let s := pushRx p (off, data) s
      if (bar2Region off).2 < off + data.length then unsupported p s
      else if poisoned then sticky (clsHost p) 0 7 (poisonedReq p s)
      else bar2Store p off data s)

def execImageWindowWrite (p : HostId) (off : BitVec 23) (data : List (Option Byte)) (poisoned : Bool) (s : State) : Out :=
  .next (bar2Write p off.toNat data poisoned s)

def execMailboxWrite (p : HostId) (off : BitVec 12) (data : List (Option Byte)) (poisoned : Bool) (s : State) : Out :=
  .next (bar2Write p (0x800000 + off.toNat) data poisoned s)

end Sys2Proof.Machine
end

