-- ==== Sys2Proof/Machine/Power.lean ====
section
/-! DEFINITION. Power domains, supplies, regulator phases, monitors, the slack governor and temperature
(R18, R326 to R348, R399 to R402). -/

namespace Sys2Proof.Machine

/-! ### Loss of a domain (R18, R338) -/

/-- A ring port whose domain is lost: no swing, no link, nothing held (R18, R398). -/
def ringPortLost (p : Nat) (s : State) : State :=
  let s := if (portOf p s).link == .down then s else linkDownAt p true s
  setPort p { RPort.reset with los := true } s

/-- What the loss of a domain does, by R18. -/
def lossEffect (d : Nat) (s : State) : State :=
  match d with
  | 0 => enterSafe 0x01 s
  | 1 => enterSafe 0x02 s
  | 2 => treeDecision true false s
  | 3 => treeDecision false true s
  | 4 => { s with man := { s.man with failNext := true } }
  | 5 => { s with man := { s.man with failNext := true } }
  | 6 => { s with sup := { s.sup with lockNext := true } }
  | 7 => { s with sup := { s.sup with lockNext := true } }
  | 8 => portLost .ha s
  | 9 => portLost .hb s
  | 10 => forEach (List.range 16) ringPortLost s
  | 11 => forEach ((List.range 16).map (· + 16)) ringPortLost s
  | 12 => { s with saf := { s.saf with watching := false, expecting := false, accepted := false
                                       groups := tabMap .reset (fun _ g =>
                                         if g.state == .unused then g else toSto s.bell.time g) s.saf.groups } }
  | 13 => sticky clsPmc 0 2 { s with pmc := { s.pmc with tieNow := none } }
  | n => loseEngDom (n - 14) s

/-- A domain is lost until BOOT (R338). -/
def loseDomain (d : Nat) (s : State) : State :=
  let st := (domOf d s).state
  if st == .on || st == .ramp then
    lossEffect d (sticky clsDom d 8 (modDom d (fun x => { x with state := .lost, vset := 0, slew := none }) s))
  else s

/-! ### Bringing the domains up (R328) -/

/-- Marks on the monitors that lose a domain: one of an ENG domain, both of another (R338). -/
def monitorsOut (d : Nat) (x : Dom) : Bool := if 14 ≤ d then x.fail1 || x.fail2 else x.fail1 && x.fail2

/-- A rail starts to ramp to its setpoint. -/
def startDom (d : Nat) (s : State) : State :=
  let now := s.bell.time
  modDom d (fun x => { x with state := .ramp, vset := domSetpoint d, slew := none, startAt := now, hist := [], hiRun := 0
                              slackMin := 0x7FFF, uv1 := false, ov1 := false, uv2 := false, ov2 := false }) s

def startDoms (l : List Nat) (s : State) : State := forEach l startDom s

/-- The groups of domains that start together in step 3. -/
def step3 (sub : Nat) : List Nat :=
  match sub with
  | 0 => [2, 3]
  | 1 => [4, 5]
  | 2 => [6, 7]
  | 3 => [12]
  | 4 => [8, 9]
  | 5 => [10, 11]
  | 6 => [13]
  | _ => []

/-- D01 starts once D00 is in service, VTRK in range and RESET_N high (step 2). -/
def startStep2 (s : State) : State :=
  if s.pmc.step == 2 && !s.pmc.stopped && domOn 0 s && s.pins.vtrk && s.pins.resetN && (domOf 1 s).state == .off then
    startDom 1 s
  else s

/-- The next group of step 3 starts, or step 4 is reached (R328). -/
def nextStep3 (sub : Nat) (s : State) : State :=
  let s := { s with pmc := { s.pmc with sub := sub } }
  match step3 sub with
  | [] => { s with pmc := { s.pmc with step := 4 } }
  | l => startDoms l s

/-- What a domain newly in service lets start. -/
def afterStart (d : Nat) (s : State) : State :=
  if s.pmc.stopped then s
  else
    match s.pmc.step with
    | 1 => if d = 0 then startStep2 { s with pmc := { s.pmc with step := 2 } } else s
    | 2 => if d = 1 then nextStep3 0 { s with pmc := { s.pmc with step := 3 } } else s
    | 3 => if (step3 s.pmc.sub).all fun x => domOn x s then nextStep3 (s.pmc.sub + 1) s else s
    | _ => s

/-- Modes in which an engine enters PROVING (R219). -/
def enginesProve (s : State) : Bool :=
  match s.dev.mode with
  | .prove => true
  | .commission => true
  | .run => true
  | .harbour => true
  | _ => false

/-- The engines of an ENG domain in service start their windows (R219, R322, R329). -/
def proveDom (k : Nat) (s : State) : State :=
  forEach (engsOfDom k) (fun e s =>
    match (engOf e s).state with
    | .off => if enginesProve s then startWindow e s else s
    | .gated => startWindow e s
    | _ => s) s

/-- A domain comes into service, unless a mark on its monitors loses it at once (R328, R338). -/
def execDomainInService (d : DomIx) (s : State) : Out :=
  if (domOf d s).state != .ramp then .next s
  else
    let s1 := modDom d (fun x => { x with state := .on, uv1 := false, ov1 := false, uv2 := false, ov2 := false }) s
    .next (if monitorsOut d (domOf d s) then loseDomain d s1
      else if 14 ≤ d.val then proveDom (d.val - 14) s1 else afterStart d s1)

/-- VAON rises: the fuses are read, and D00 starts, with every other domain held off (R328 step 1, R375). -/
def execPowerUp (s : State) : Out :=
  if s.pins.vaon then .next s
  else
    .next (startDom 0 (stickyIf (!Config.fuseReadOk) clsFlt 0 2 { s with
      pins := { s.pins with vaon := true, jtag := .idcode }
      pmc := { s.pmc with step := 1, sub := 0, stopped := false } }))

def execVtrkInRange (s : State) : Out :=
  .next (startStep2 { s with pins := { s.pins with vtrk := true } })

/-- 5 ms without service stop the sequence; the capture shows the domain (R328, R361; DESIGN CHOICE, log 37: as LOST). -/
def execDomainStartTimeout (d : DomIx) (s : State) : Out :=
  let x := domOf d s
  if decide (1 ≤ d.val) && decide (d.val < 14) && (s.pmc.step == 2 || s.pmc.step == 3) && !s.pmc.stopped &&
      x.state == .ramp && decide (50000 ≤ elapsed s.bell.time x.startAt) then
    .next (enterSafe 0x07 (sticky clsDom d 8 { s with pmc := { s.pmc with stopped := true } }))
  else .next s

/-- ENG domains start one every 100 us (R328 step 5, R329). -/
def execEngDomainStart (s : State) : Out :=
  let due := match s.pmc.engAt with
    | some t => decide (1000 ≤ elapsed s.bell.time t)
    | none => true
  match s.pmc.engQueue with
  | d :: rest =>
    if due && domOn 1 s then
      .next (startDom d { s with pmc := { s.pmc with engQueue := rest, engAt := some s.bell.time } })
    else .next s
  | [] => .next s

/-! ### RESET_N (R401) -/

/-- RESET_N is low, and has been for at least 10 us. -/
def execResetNAssert (s : State) : Out := .next (if s.pins.resetN && s.pins.vaon then deviceReset s else s)

/-- RESET_N rises, and the sequence resumes at step 2. -/
def riseReset (s : State) : State := startStep2 { s with pins := { s.pins with resetN := true } }

/-- RESET_N rises. Where it has not been low for 10 us, the rise ends a shorter pulse: one below 1 us is ignored, and of one above it
the manual leaves open whether it resets, a free value (R401; DESIGN CHOICE, log 77). -/
def execResetNRelease (s : State) : Out :=
  .next (if !s.pins.resetN then riseReset s
    else if s.pins.vaon && Config.shortReset s.free then riseReset (deviceReset (drawFree s))
    else drawFree s)

/-! ### Loss of an ENG domain -/

def execEngDomainLoss (k : Fin 16) (s : State) : Out := .next (loseDomain (14 + k.val) s)

/-! ### Supplies (R330, R402) -/

/-- VTRK out of range at 5 of 7 ticks: the safe state (R330). -/
def execTrunkFault (x : Excursion) (s : State) : Out :=
  if domOn 1 s then
    let bit := match x with
      | .under => 0
      | .over => 1
    .next (enterSafe 0x05 (sticky clsPmc 0 bit { s with pins := { s.pins with vtrk := false } }))
  else .next { s with pins := { s.pins with vtrk := false } }

def execVaonLoss (s : State) : Out := .next (if s.pins.vaon then powerLost s else s)

/-- VIO33 changes: it is lost, and groups that drove an output high are locked by their read-back; or, where it is out, it returns
(R247, R400, R402; DESIGN CHOICE, log 57). -/
def execVio33Loss (s : State) : Out :=
  let s1 := { s with pins := { s.pins with vio33 := !s.pins.vio33 } }
  .next (if safioOn s && s.pins.vio33 then forEach (s.saf.groups.map (·.1)) driveCheck s1 else s1)

/-- A port loses the supply of its lines: no swing, and its link goes down (R398, R402). -/
def unpowerPort (p : Nat) (s : State) : State :=
  let s1 := modPort p (fun r => { r with txen := false }) s
  if (portOf p s).link == .down then s1 else linkDownAt p true s1

/-- VLNK changes: it is lost, and every link goes down; or, where it is out, it returns, and the configured ports drive again (R400,
R402; DESIGN CHOICE, log 57). -/
def execVlnkLoss (s : State) : Out :=
  let s1 := { s with pins := { s.pins with vlnk := !s.pins.vlnk } }
  .next (if s.pins.vlnk then forEach (s.ports.map (·.1)) unpowerPort s1
    else if commits s then forEach (cfgRings s) driveRing s1 else s1)

/-- VPCI or VPH18 changes: it is lost, and both host links go down; or, where it is out, it returns (R400, R402; DESIGN CHOICE, log
57). -/
def execVpciLoss (vph18 : Bool) (s : State) : Out :=
  .next (if vph18 then
      (if s.pins.vph18 then dropLink .hb (dropLink .ha { s with pins := { s.pins with vph18 := false } })
      else { s with pins := { s.pins with vph18 := true } })
    else if s.pins.vpci then dropLink .hb (dropLink .ha { s with pins := { s.pins with vpci := false } })
    else { s with pins := { s.pins with vpci := true } })

/-! ### Monitors (R336 to R340) -/

/-- A monitor is marked failed; its domain is lost where that leaves too few (R338). -/
def failMonitor (d : Nat) (m : Side) (s : State) : State :=
  let s := modDom d (fun x => match m with
    | .a => { x with fail1 := true }
    | .b => { x with fail2 := true }) s
  if monitorsOut d (domOf d s) then loseDomain d s else s

/-- The flag of a monitor's report (PMC_DOM_MON, R350). -/
def noteExcursion (m : Side) (x : Excursion) (g : Dom) : Dom :=
  match m, x with
  | .a, .under => { g with uv1 := true }
  | .a, .over => { g with ov1 := true }
  | .b, .under => { g with uv2 := true }
  | .b, .over => { g with ov2 := true }

def monFailed (m : Side) (g : Dom) : Bool :=
  match m with
  | .a => g.fail1
  | .b => g.fail2

/-- A monitor reports the rail back inside: its flags clear (R336). -/
def backInside (m : Side) (g : Dom) : Dom :=
  match m with
  | .a => { g with uv1 := false, ov1 := false }
  | .b => { g with uv2 := false, ov2 := false }

/-- A monitor's report counts: the domain is supplied or lost, the monitor not marked failed and not under test (R338, R340). -/
def monitorHeard (d : Nat) (m : Side) (s : State) : Bool :=
  let g := domOf d s
  (g.state == .ramp || g.state == .on || g.state == .lost) && !monFailed m g && s.pmc.tieNow != some (d, m)

/-- A monitor reports an excursion, which loses a domain in service, or that the rail is back inside. The flags follow every
report; a rail that has still to reach its window faults nothing (R336, R338, R350; DEDUCED, log 131). -/
def execMonitorExcursion (d : DomIx) (m : Side) (x : Option Excursion) (s : State) : Out :=
  .next (if !monitorHeard d m s then s
    else
      match x with
      | none => modDom d (backInside m) s
      | some e =>
        let s1 := modDom d (noteExcursion m e) s
        let bit := match e with
          | .under => 2
          | .over => 3
        if (domOf d s).state == .ramp then s1 else loseDomain d (sticky clsDom d bit s1))

/-- A disagreement is judged in service and after the loss that an excursion brought, but not while one of the domain's monitors
is under test (R337, R340). -/
def execMonitorDisagreement (d : DomIx) (m : Side) (s : State) : Out :=
  let g := domOf d s
  let tested := s.pmc.tieNow.any fun t => t.1 == d.val
  .next (if (g.state != .on && g.state != .lost) || monFailed m g || tested then s
    else failMonitor d m (sticky clsDom d 4 s))

/-- A tie test starts at every 256th landing tick of service (R340). -/
def execTieTest (s : State) : Out :=
  if tieTests s && s.pmc.tieNow.isNone &&
      s.bell.landNo.toNat % 256 == 0 && s.bell.phase == 0 then
    let n := s.pmc.tieNext
    let m := if n % 2 = 0 then Side.a else Side.b
    .next { s with pmc := { s.pmc with tieNow := some (n / 2, m), tieNext := (n + 1) % 60 } }
  else .next s

def execTieTestEnd (pass : Bool) (s : State) : Out :=
  match s.pmc.tieNow with
  | some t =>
    let s1 := { s with pmc := { s.pmc with tieNow := none } }
    .next (if pass then s1 else failMonitor t.1 t.2 (sticky clsDom t.1 6 s1))
  | none => .next s

/-- The threshold DAC whose turn it is, of 120 (R339). -/
def dacTick (bad : Bool) (s : State) : State :=
  let n := s.pmc.dacNext
  let s := { s with pmc := { s.pmc with dacNext := (n + 1) % 120 } }
  if bad then
    failMonitor (n / 4) (if n / 2 % 2 = 0 then .a else .b) (sticky clsDom (n / 4) 5 s)
  else s

/-! ### Phases (R333 to R335) -/

/-- A phase stays off until BOOT; the domain's bound follows, or it is lost (R335). -/
def disablePhase (d p : Nat) (s : State) : State :=
  if p < domNph d && !(domOf d s).disabled.getLsbD p then
    let s := modDom d (fun x => { x with disabled := x.disabled ||| (1#4 <<< p) }) s
    let s := sticky clsDom d 1 s
    let left := (phasesOn d s).length
    if left = 0 || (14 ≤ d && left ≤ 1) then loseDomain d s
    else if 14 ≤ d then modDom d (fun x => retarget s.bell.time (min x.vset (engVmax left)) x) s
    else s
  else s

/-- A phase switches: its domain is on or ramping and the phase enabled. -/
def phaseLive (d p : Nat) (s : State) : Bool :=
  let x := domOf d s
  (x.state == .on || x.state == .ramp) && decide (p < domNph d) && !x.disabled.getLsbD p

/-- An interlock event is counted (R334). -/
def noteXon (now : Bell) (p : Nat) (x : Dom) : Dom :=
  { x with xon := x.xon.zipIdx.map fun c => if c.2 = p then satInc 255 c.1 else c.1
           xonAt := ((p, now) :: x.xonAt).filter fun e => elapsed now e.2 < 10000000 }

def execInterlockEvent (d : DomIx) (ph : Fin 4) (s : State) : Out :=
  if phaseLive d ph s then
    let s1 := sticky clsDom d 0 (modDom d (noteXon s.bell.time ph) s)
    let n := ((domOf d s1).xonAt.filter fun e => e.1 == ph.val).length
    .next (if 3 ≤ n then disablePhase d ph s1 else s1)
  else .next s

def execPhaseIlim (d : DomIx) (ph : Fin 4) (s : State) : Out := .next (stickyIf (phaseLive d ph s) clsDom d 7 s)

/-- A pulse oscillator found out of range at the landing (R333). -/
def oscTick (l : List (Nat × Nat)) (s : State) : State :=
  forEach l (fun x s => if phaseLive x.1 x.2 s then disablePhase x.1 x.2 (sticky clsPmc 0 3 s) else s) s

/-! ### The slack governor (R341, R342) -/

/-- Slack of one engine of the closing frame (R341). DESIGN CHOICE, log 61: in whole bell ticks. -/
def engSlack (s : State) (e : Nat) : Int :=
  match (engOf e s).core.drained with
  | some t => clampInt (-32768) 32767 ((deadlineOf s : Int) - t)
  | none => -32768

/-- The slack of a domain over its in-service engines (R341). -/
def domSlack (l : List Nat) (s : State) : Int := (l.map (engSlack s)).foldl min 32767

/-- One domain's setpoint at a commit, with its fault bits (R342). -/
def govern (crit lo hi step vmax : Nat) (slack : Int) (x : Dom) : Dom × List Nat :=
  let hist := (slack :: x.hist).take 4
  let smin := hist.foldl min slack
  if slack < crit then ({ x with vset := vmax, hiRun := 0, hist := [] }, [10])
  else if smin < lo then
    let v := min vmax (x.vset + 10 * ceilDiv ((lo : Int) - smin).toNat step)
    ({ x with vset := v, hiRun := 0, hist := hist }, if v = vmax then [9] else [])
  else if (hi : Int) < smin then
    if 64 ≤ x.hiRun + 1 then ({ x with vset := max 550 (x.vset - 5), hiRun := 0, hist := hist }, [])
    else ({ x with hiRun := x.hiRun + 1, hist := hist }, [])
  else ({ x with hiRun := 0, hist := hist }, [])

/-- The governor of ENG domain k at a commit; l are its in-service engines (R342). -/
def governDom (k : Nat) (l : List Nat) (s : State) : State :=
  let d := 14 + k
  if !domOn d s then s
  else if l.isEmpty then modDom d (fun x => { retarget s.bell.time 700 x with hiRun := 0 }) s
  else
    let slack := domSlack l s
    let x := domOf d s
    let r := govern (sCrit s) (sLo s) (sHi s) (sStep s) (domVmax d s) slack
      { x with slack := slack, slackMin := min x.slackMin slack }
    forEach r.2 (fun b => sticky clsDom d b)
      (setDom d (retarget s.bell.time r.1.vset { r.1 with vset := x.vset }) s)

/-- The governor over all ENG domains; serving are the in-service engines of the landing. -/
def governAll (serving : List Nat) (s : State) : State :=
  if domOn 1 s then forEach (List.range 16) (fun k => governDom k (serving.filter fun e => e / 32 == k)) s else s

/-! ### Temperature (R344 to R347) -/

/-- Twice the median of a list of readings, 0 for none. -/
def median2 (l : List Int) : Int :=
  let r := sortBy (fun x => (x + 100000).toNat) l
  r.getD (r.length / 2) 0 + r.getD ((r.length - 1) / 2) 0

/-- A reading in the sensor's own range. -/
def tempInRange (t : Int) : Bool := decide (-550 ≤ t) && decide (t ≤ 2000)

/-- Validity of the twelve readings (R344). -/
def judgeTemps (l : List Int) : List (Bool × Int) :=
  let m := median2 (l.filter tempInRange)
  l.map fun t => (tempInRange t && decide ((2 * t - m).natAbs ≤ 600), t)

/-- The highest valid reading and its sensor, the lowest-numbered on a tie. -/
def hottest (l : List (Bool × Int)) : Option (Int × Nat) :=
  l.zipIdx.foldl (fun b x =>
    if !x.1.1 then b
    else
      match b with
      | some y => if y.1 < x.1.2 then some (x.1.2, x.2) else b
      | none => some (x.1.2, x.2)) none

/-- A filtered indicator over the last 7 readings (R345). -/
def filtered (th : Int) (hist : List Int) (f : Bool) : Bool :=
  if 5 ≤ (hist.filter fun t => decide (th ≤ t)).length then true
  else if 5 ≤ (hist.filter fun t => decide (t < th - 40)).length then false
  else f

def thermOfCode (n : Nat) : ThermState :=
  match n with
  | 0 => .normal
  | 1 => .warning
  | 2 => .throttle
  | _ => .safe

/-- The state the indicators call for (R346). -/
def calledFor (p : PmcSt) : ThermState :=
  if p.f155 then .safe else if p.f145 then .throttle else if p.f135 then .warning else .normal

/-- The sticky bits of a thermal state, and the safe state (R346, R355). -/
def enterTherm (t : ThermState) (s : State) : State :=
  match t with
  | .normal => s
  | .warning => sticky clsTherm 0 0 s
  | .throttle => sticky clsTherm 0 1 s
  | .safe => enterSafe 0x06 (sticky clsTherm 0 2 s)

/-- One transition; the 9th within a second latches the higher of the two states it joins (R347). -/
def thermTransition (t : ThermState) (s : State) : State :=
  let now := s.bell.time
  let old := s.pmc.therm
  let trans := now :: s.pmc.trans.filter fun x => elapsed now x < 10000000
  let latch := decide (9 ≤ trans.length)
  let new := if latch then thermOfCode (max (thermCode old) (thermCode t)) else t
  let s := { s with pmc := { s.pmc with trans := trans, transTotal := satInc 0xFFFF s.pmc.transTotal, therm := new
                                        latch := s.pmc.latch || latch } }
  let s := stickyIf latch clsTherm 0 3 s
  if new == old then s else enterTherm new s

/-- A thermal state changes at a landing tick, whose registers show it (R345, R353). The 16th tick that calls for it is that
tick. -/
def seeTherm (s : State) : State := { s with pmc := { s.pmc with statSeen := thermStat s, cntSeen := thermCnt s } }

def execThermalStateChange (s : State) : Out :=
  let c := s.pmc.call
  let falls := decide (thermCode c < thermCode s.pmc.therm)
  .next (if domOn 1 s && s.bell.phase == 0 && c != s.pmc.therm && s.pmc.callN == 16 && !(s.pmc.latch && falls) then
    seeTherm (thermTransition c s) else s)

/-- The sensors and indicators at a landing tick (R344, R345). -/
def thermTick (temps : List Int) (s : State) : State :=
  let l := (List.range 12).map fun i => temps.getD i (s.pmc.sens.getD i (false, 0)).2
  let sens := judgeTemps l
  let ninv := (sens.filter fun x => !x.1).length
  let hot := (hottest sens).getD (0, 0)
  let tj := if 4 ≤ ninv then 1460 else hot.1
  let hist := (tj :: s.pmc.tjHist).take 7
  let now := s.bell.time
  let p := { s.pmc with
    sens := sens, ninv := ninv, tj := tj, hot := hot.2, tjHist := hist
    f135 := filtered 1350 hist s.pmc.f135, f145 := filtered 1450 hist s.pmc.f145
    f155 := filtered 1550 hist s.pmc.f155
    trans := s.pmc.trans.filter fun x => elapsed now x < 10000000 }
  let c := calledFor p
  let p := { p with call := c, callN := if c = s.pmc.call then s.pmc.callN + 1 else 1, hoverTick := false }
  let s1 := stickyIf (decide (0 < ninv)) clsTherm 0 4 { s with pmc := p }
  let s2 := if s.pmc.hoverTick && c != s.pmc.therm then thermTransition c s1 else s1
  if 9 ≤ ninv then enterSafe 0x06 s2 else s2

/-- Clearing HOVER also clears LATCH (R347, R355). -/
def clearHover (s : State) : State :=
  { s with pmc := { s.pmc with latch := false, hoverTick := s.pmc.hoverTick || s.pmc.latch } }

/-- What the PMC measures at a landing tick (R350, R352). -/
def measureTick (w : TickIn) (s : State) : State :=
  let s := forEach w.vmeas (fun x => modDom x.1 (fun d => { d with vmeas := x.2 })) s
  let s := forEach w.iout (fun x => modDom x.1 (fun d => { d with iout := x.2 })) s
  match w.trunk with
  | some t => { s with pmc := { s.pmc with trunkV := t.1, trunkI := t.2 } }
  | none => s

/-- The PMC at a landing tick. -/
def pmcTick (w : TickIn) (s : State) : State :=
  seeTick (if domOn 1 s then thermTick w.temps (dacTick w.dacBad (oscTick w.oscBad (measureTick w s))) else s)

end Sys2Proof.Machine
end

