-- ==== Sys2Proof/Machine/Image.lean ====
section
/-! DEFINITION. The firmware image: layout, checks, distribution (R55, R81, R114, R124, R250, R305 to R313, R325). -/

namespace Sys2Proof.Machine

/-! ### Fields -/

/-- A signed little-endian field of two bytes. -/
def sfield16 (l : List Byte) (off : Nat) : Int := (BitVec.ofNat 16 (fieldLE l off 2)).toInt

def word32 (l : List Byte) (off : Nat) : Word := BitVec.ofNat 32 (fieldLE l off 4)

def inRange (lo hi x : Nat) : Bool := decide (lo ≤ x) && decide (x ≤ hi)

/-- n records of k bytes from an offset. -/
def records (l : List Byte) (off k n : Nat) : List (List Byte) := (List.range n).map fun i => slice l (off + k * i) k

def allZero (l : List Byte) : Bool := l.all (· == 0)

/-- A rising list of distinct numbers. -/
def rising : List Nat → Bool
  | a :: b :: t => decide (a < b) && rising (b :: t)
  | _ => true

def distinct (l : List Nat) : Bool := (sortKeys l).length == l.length

/-! ### The part table (R305) -/

structure Part where
  type_ : Nat
  index : Nat
  off : Nat
  len : Nat
  crc : Word
  /-- Bytes 2 and 3 are zero. -/
  clean : Bool
  deriving DecidableEq, Repr

def parsePart (l : List Byte) : Part :=
  { type_ := fieldLE l 0 1, index := fieldLE l 1 1, off := fieldLE l 4 4, len := fieldLE l 8 4, crc := word32 l 12
    clean := allZero (slice l 2 2) }

def npart (b : List Byte) : Nat := fieldLE b 6 2

def partsOf (b : List Byte) : List Part := (records b 96 16 (min 16 (npart b))).map parsePart

/-- One entry lies where R305 lets it. -/
def partOk (len : Nat) (p : Part) : Bool :=
  p.clean && inRange 1 5 p.type_ && (if p.type_ = 5 then decide (p.index < 8) else p.index == 0) &&
  p.off % 16 == 0 && decide (352 ≤ p.off) && decide (1 ≤ p.len) && decide (p.off + p.len + 64 ≤ len)

def partsApart : List Part → Bool
  | [] => true
  | p :: t => (t.all fun q => decide (p.off + p.len ≤ q.off) || decide (q.off + q.len ≤ p.off)) && partsApart t

def partTableOk (b : List Byte) : Bool :=
  let l := partsOf b
  let n := npart b
  inRange 4 12 n && allZero (slice b (96 + 16 * n) (256 - 16 * n)) && allZero (slice b 17 3) && allZero (slice b 88 8) &&
  l.all (partOk b.length) && partsApart l && distinct (l.map fun p => 256 * p.type_ + p.index) &&
  [1, 2, 3, 4].all fun t => l.any fun p => p.type_ == t

def partBytes (b : List Byte) (p : Part) : List Byte := slice b p.off p.len

/-- The bytes of the part of a type and index; empty where there is none. -/
def partNamed (b : List Byte) (t ix : Nat) : List Byte :=
  match (partsOf b).find? fun p => p.type_ == t && p.index == ix with
  | some p => partBytes b p
  | none => []

/-! ### The engine head program (R306) -/

def headProgOk (h : List Byte) : Bool :=
  let a := fieldLE h 0 4
  let b := fieldLE h 4 4
  decide (32 ≤ h.length) && a % 4 == 0 && decide (a ≤ 12288) && b % 4 == 0 && decide (b ≤ 16384) &&
  h.length == 32 + a + b && allZero (slice h 24 8)

/-! ### The safety configuration block (R307) -/

def ringRec (sc : List Byte) (k : Nat) : List Byte := slice sc (32 + 24 * k) 24

/-- Set-up writes of all rings (R307). -/
def setupCount (sc : List Byte) : Nat := (List.range 32).foldl (fun n k => n + fieldLE (ringRec sc k) 1 1) 0

def headTabAt (sc : List Byte) : Nat := 800 + 8 * setupCount sc
def headRec (sc : List Byte) (n : Nat) : List Byte := slice sc (headTabAt sc + 24 * n) 24
def authAt (sc : List Byte) : Nat := headTabAt sc + 12288
def secTabAt (sc : List Byte) : Nat := authAt sc + 128
def nsecOf (sc : List Byte) : Nat := fieldLE sc (secTabAt sc) 2
def grpTabAt (sc : List Byte) : Nat := secTabAt sc + 2 + 36 * nsecOf sc
def nsgOf (sc : List Byte) : Nat := fieldLE sc (grpTabAt sc) 2
def secRecs (sc : List Byte) : List (List Byte) := records sc (secTabAt sc + 2) 36 (nsecOf sc)
def grpRecs (sc : List Byte) : List (List Byte) := records sc (grpTabAt sc + 2) 144 (nsgOf sc)

/-- The block's length is the sum of its sub-blocks, and its reserved bytes and bits are zero. -/
def scFormatOk (sc : List Byte) : Bool :=
  sc.length == grpTabAt sc + 2 + 144 * nsgOf sc &&
  decide (fieldLE sc 5 1 < 32) && allZero (slice sc 16 16) &&
  ((List.range 32).all fun k =>
    let r := ringRec sc k
    bitsNat (fieldLE r 0 1) 2 1 == 0 && bitsNat (fieldLE r 0 1) 7 1 == 0 && allZero (slice r 2 2)) &&
  ((List.range (setupCount sc)).all fun i => fieldLE sc (800 + 8 * i + 1) 1 == 0) &&
  ((grpRecs sc).all fun r => allZero (slice r 140 4)) &&
  (List.range 512).all fun n =>
    let h := headRec sc n
    allZero (slice h 20 4) && bitsNat (fieldLE h 0 4) 16 5 == 0

/-- Ring k as configured. No load check names a SETIDX + NSET past the set-up list (R312); the writes it would take from
there are none (DESIGN CHOICE, log 104). -/
def parseRing (sc : List Byte) (k : Nat) : RingCfg :=
  let r := ringRec sc k
  let c := fieldLE r 0 1
  let n := bitsNat c 4 3
  let ix := fieldLE r 20 4
  { mode := bitsNat c 0 2, pdev := bitsNat c 3 1 == 1, ngn8 := n, ids := (List.range n).map fun i => word32 r (4 + 4 * i)
    setup := (List.range (min (fieldLE r 1 1) (setupCount sc - ix))).map fun i =>
      let w := slice sc (800 + 8 * (ix + i)) 8
      (fieldLE w 0 1, fieldLE w 2 2, word32 w 4) }

/-- The ports a ring claims (R54). -/
def ringClaims (k : Nat) (c : RingCfg) : List Nat :=
  if c.mode = 1 then [k, k + 16] else if c.mode = 2 then [k] else []

/-- R55 for one ring. -/
def ringOk (sc : List Byte) (k : Nat) : Bool :=
  let c := parseRing sc k
  match c.mode with
  | 0 => allZero (ringRec sc k)
  | 1 => decide (k < 16) && inRange 1 4 c.ngn8
  | 2 => inRange 1 2 c.ngn8
  | _ => false

def headEn (h : List Byte) : Bool := bitsNat (fieldLE h 0 4) 31 1 == 1

def iqField (h : List Byte) (off : Nat) : Int × Int := (sfield16 h off, sfield16 h (off + 2))

def parseHead (h : List Byte) : HeadCfg :=
  let c := fieldLE h 0 4
  let t := fieldLE h 4 4
  let k := fieldLE h 8 4
  { ring := bitsNat c 26 5, slot := bitsNat c 24 2, chan := bitsNat c 21 3, lab := bitsNat c 8 8, wmin := bitsNat c 0 8
    dOn := bitsNat t 16 16, dOff := bitsNat t 0 16, dPeak := bitsNat k 16 16
    phLo := (BitVec.ofNat 8 k).toInt, phHi := (BitVec.ofNat 8 (k / 256)).toInt
    zcA := iqField h 12, zcB := iqField h 16, wCfg := word32 h 0, wThr := word32 h 4, wChk := word32 h 8 }

def parseHeads (sc : List Byte) : Tab HeadCfg :=
  ((List.range 512).filter fun n => headEn (headRec sc n)).map fun n => (n, parseHead (headRec sc n))

def parseRings (sc : List Byte) : Tab RingCfg :=
  ((List.range 32).map fun k => (k, parseRing sc k)).filter fun r => r.2.mode != 0

/-- R55, with the heads' places. -/
def ringsOk (sc : List Byte) : Bool :=
  let rings := parseRings sc
  let heads := parseHeads sc
  ((List.range 32).all fun k => ringOk sc k) && distinct (rings.flatMap fun r => ringClaims r.1 r.2) &&
  distinct (heads.map fun h => 32 * h.2.ring + 8 * h.2.slot + h.2.chan) &&
  heads.all fun h => rings.any fun r => r.1 == h.2.ring && decide (h.2.slot < r.2.ngn8)

/-- R81. -/
def headOk (h : HeadCfg) : Bool :=
  let long := fun z : Int × Int => decide (0x1000000 ≤ z.1 * z.1 + z.2 * z.2)
  inRange 20 150 h.lab && inRange 30 250 h.wmin && decide (h.lab + 10 ≤ h.wmin) &&
  inRange 0x0C00 0x6000 h.dOn && decide (0x0C00 ≤ h.dOff) && decide (h.dOff + 0x0400 ≤ h.dOn) &&
  inRange (h.dOn + 0x0400) 0xC000 h.dPeak && decide (-0x40 ≤ h.phLo) && decide (h.phLo < h.phHi) &&
  decide (h.phHi ≤ 0x40) && long h.zcA && long h.zcB

/-- R114. -/
def wheelConstsOk (sc : List Byte) : Bool :=
  let cb := (List.range 6).map fun i => fieldLE sc (6 + i) 1
  cb.all (inRange 30 250) && rising cb && inRange 10 500 (fieldLE sc 12 2) && decide (fieldLE sc 14 2 ≤ 100)

/-- Codes of the authorities (R126). -/
def parseAuth (sc : List Byte) : List Nat := (List.range 64).map fun i => fieldLE sc (authAt sc + 2 * i) 2

def parseSec (r : List Byte) : SecCfg :=
  let b := fieldLE r 2 1
  { pvc := bitsNat b 7 1 == 1, auth := bitsNat b 0 6
    ends := (List.range (min 16 (fieldLE r 3 1))).map fun i =>
      let w := fieldLE r (4 + 2 * i) 2
      (bitsNat w 0 9, bitsNat w 9 1 == 0)
    defCrc := crc32c r }

/-- R124 for one record. -/
def secOk (sc : List Byte) (heads : Tab HeadCfg) (r : List Byte) : Bool :=
  let n := fieldLE r 3 1
  let c := parseSec r
  let used := (List.range 16).all fun i =>
    let w := fieldLE r (4 + 2 * i) 2
    if i < n then decide (w < 1024) && heads.any fun h => h.1 == w % 512 else w == 0
  decide (fieldLE r 0 2 < 512) && bitsNat (fieldLE r 2 1) 6 1 == 0 && inRange 1 16 n && used &&
  distinct (c.ends.map (·.1)) && (parseAuth sc).getD c.auth 0 != 0

def parseSecs (sc : List Byte) : Tab SecCfg := (secRecs sc).map fun r => (fieldLE r 0 2, parseSec r)

/-- R124. -/
def secsOk (sc : List Byte) : Bool :=
  let heads := parseHeads sc
  let ends := (parseSecs sc).flatMap fun s => s.2.ends.map (·.1)
  decide (nsecOf sc ≤ 512) && rising ((secRecs sc).map fun r => fieldLE r 0 2) && (secRecs sc).all (secOk sc heads) &&
  ends.all fun h => decide ((ends.filter (· == h)).length ≤ 4)

/-- A list of section numbers in 2-byte slots. -/
def secList (r : List Byte) (off n : Nat) : List Nat := (List.range n).map fun i => fieldLE r (off + 2 * i) 2

def parseGrp (r : List Byte) : GrpCfg :=
  { enc := bitsNat (fieldLE r 1 1) 0 1 == 1, guard := bitsNat (fieldLE r 1 1) 1 1 == 1
    trust := secList r 4 (min 24 (fieldLE r 2 1))
    profiles := (List.range (min 4 (fieldLE r 3 1))).map fun p => secList r (56 + 16 * p) (min 8 (fieldLE r (52 + p) 1))
    encScale := fieldLE r 120 4, win := fieldLE r 124 2, aEnv := fieldLE r 126 2, vTol := fieldLE r 128 2
    tDly := fieldLE r 130 2, vStill := fieldLE r 132 2, tStill := fieldLE r 134 2, tSs1 := fieldLE r 136 2
    tFb := fieldLE r 138 2 }

/-- A list in use names configured sections, and the rest of its slots are zero. -/
def secListOk (secs : Tab SecCfg) (r : List Byte) (off n cap : Nat) : Bool :=
  ((secList r off n).all fun x => secs.any fun s => s.1 == x) && allZero (slice r (off + 2 * n) (2 * (cap - n)))

/-- R250 for one record. -/
def grpOk (secs : Tab SecCfg) (r : List Byte) : Bool :=
  let c := parseGrp r
  let np := fieldLE r 3 1
  let clr := (List.range 4).all fun p =>
    let n := fieldLE r (52 + p) 1
    decide (n ≤ 8) && (decide (p < np) || n == 0) && secListOk secs r (56 + 16 * p) n 8
  decide (fieldLE r 0 1 < 16) && decide (fieldLE r 1 1 < 4) && decide (fieldLE r 2 1 ≤ 24) && inRange 1 4 np &&
  secListOk secs r 4 (fieldLE r 2 1) 24 && clr && inRange 100 500000 c.encScale && inRange 4 256 c.win &&
  inRange 10 10000 c.aEnv && decide (c.vTol ≤ 2000) && decide (c.tDly ≤ 2000) && inRange 1 100 c.vStill &&
  inRange 10 1000 c.tStill && inRange 100 60000 c.tSs1 && inRange 10 500 c.tFb && decide (c.tDly + c.tStill ≤ c.tSs1) &&
  allZero (slice r 140 4)

def parseGrps (sc : List Byte) : Tab GrpCfg := (grpRecs sc).map fun r => (fieldLE r 0 1, parseGrp r)

def rstgOf (sc : List Byte) : Nat := bitsNat (fieldLE sc 5 1) 0 4

/-- R250. -/
def grpsOk (sc : List Byte) : Bool :=
  let secs := parseSecs sc
  let nums := (grpRecs sc).map fun r => fieldLE r 0 1
  decide (nsgOf sc ≤ 16) && rising nums && (grpRecs sc).all (grpOk secs) && (nums.isEmpty || nums.contains (rstgOf sc))

/-! ### The parameter block (R308) -/

def nparamOf (pb : List Byte) : Nat := fieldLE pb 0 2
def nlinesOf (pb : List Byte) : Nat := fieldLE pb 2 1
def nextOf (pb : List Byte) : Nat := fieldLE pb 3 1
def extRecs (pb : List Byte) : List (List Byte) := records pb 4 8 (nextOf pb)
def paramRecs (pb : List Byte) : List (List Byte) := records pb (4 + 8 * nextOf pb) 16 (nparamOf pb)
def lineRecs (pb : List Byte) : List (List Byte) :=
  records pb (4 + 8 * nextOf pb + 16 * nparamOf pb) 34 (nlinesOf pb)

def parseParam (r : List Byte) : ParamCfg :=
  { signed := bitsNat (fieldLE r 2 1) 0 1 == 1, min := word32 r 4, max := word32 r 8, dflt := word32 r 12 }

def parseParams (pb : List Byte) : Tab ParamCfg := (paramRecs pb).map fun r => (fieldLE r 0 2, parseParam r)

/-- Length, counts, PID order and reserved bits (code 0x20). -/
def pbFormatOk (pb : List Byte) : Bool :=
  decide (4 ≤ pb.length) && decide (nparamOf pb ≤ 511) && decide (nlinesOf pb ≤ 32) && decide (nextOf pb ≤ 16) &&
  pb.length == 4 + 8 * nextOf pb + 16 * nparamOf pb + 34 * nlinesOf pb &&
  rising ((paramRecs pb).map fun r => fieldLE r 0 2) && ((paramRecs pb).all fun r => decide (fieldLE r 2 2 < 2)) &&
  ((extRecs pb).all fun r => allZero (slice r 5 3)) &&
  (lineRecs pb).all fun r =>
    inRange 1 16 (fieldLE r 0 1) && fieldLE r 1 1 == 0 &&
    allZero (slice r (2 + 2 * fieldLE r 0 1) (32 - 2 * fieldLE r 0 1))

/-- MIN, MAX and DEFAULT in order (code 0x21). -/
def paramLimitOk (c : ParamCfg) : Bool :=
  (if c.signed then decide (c.min.toInt ≤ c.max.toInt) else decide (c.min.toNat ≤ c.max.toNat)) && paramInRange c c.dflt

/-- A parameter's limits as numbers. -/
def paramLimits (c : ParamCfg) : Int × Int :=
  if c.signed then (c.min.toInt, c.max.toInt) else ((c.min.toNat : Int), (c.max.toNat : Int))

/-- A parameter exists with limits inside a range. -/
def paramWithin (ps : Tab ParamCfg) (pid : Nat) (lo hi : Int) : Bool :=
  ps.any fun p => p.1 == pid && decide (lo ≤ (paramLimits p.2).1) && decide ((paramLimits p.2).2 ≤ hi)

def parseLine (r : List Byte) : List Nat := secList r 2 (min 16 (fieldLE r 0 1))

/-- Deck lines (code 0x22, R297). -/
def deckOk (sc pb : List Byte) : Bool :=
  let secs := parseSecs sc
  let ps := parseParams pb
  (lineRecs pb).zipIdx.all fun r =>
    ((parseLine r.1).all fun x => secs.any fun s => s.1 == x) &&
    paramWithin ps (0x100 + r.2) 1 65535 && paramWithin ps (0x140 + r.2) (-32768) 32767

def parseExt (r : List Byte) : Nat × Nat × Nat := (fieldLE r 0 2, fieldLE r 2 2, fieldLE r 4 1)

def rangesApart : List (Nat × Nat × Nat) → Bool
  | [] => true
  | x :: t => (t.all fun y => decide (x.2.1 < y.1) || decide (y.2.1 < x.1)) && rangesApart t

/-- Extension entries (code 0x23). -/
def extsOk (b pb : List Byte) : Bool :=
  let l := (extRecs pb).map parseExt
  (l.all fun x => decide (x.1 ≤ x.2.1) && decide (x.2.1 ≤ 511) &&
    (partsOf b).any fun p => p.type_ == 5 && p.index == x.2.2) && rangesApart l

/-! ### The checks in the order of their codes (R311, R312) -/

def beField (b : List Byte) (off n : Nat) : Nat := beNat (slice b off n)

/-- The public key's digest equals the fused hash (R311). -/
def keyOk (b : List Byte) : Bool := digestNat (sha256 (slice b 24 64)) == Config.fuseHash.toNat

def signatureOk (b : List Byte) : Bool :=
  let n := b.length
  ecdsaOk (beField b 24 32) (beField b 56 32) (digestNat (sha256 (b.take (n - 64)))) (beField b (n - 64) 32)
    (beField b (n - 32) 32)

/-- Codes 0x01 to 0x0C, each with its condition for failure; b holds len bytes. -/
def imageChecks (len : Nat) (b : List Byte) : List (Bool × Nat) :=
  [(len == 0 || decide (0x800000 < len) || len % 16 != 0 || len != fieldLE b 8 4, 0x01),
   (fieldLE b 0 4 != 0x4E565256, 0x02), (fieldLE b 4 2 != 2, 0x03),
   (fieldLE b 12 4 != 0x512 || decide (0xB0 < fieldLE b 16 1), 0x04),
   (Config.fuseHash == 0 || !Config.fuseReadOk, 0x05), (!keyOk b, 0x06), (!signatureOk b, 0x07),
   (!partTableOk b, 0x08), (!((partsOf b).all fun p => crc32c (partBytes b p) == p.crc), 0x09),
   (!headProgOk (partNamed b 1 0), 0x0A), (decide (0x200000 < (partNamed b 2 0).length), 0x0B),
   ((partsOf b).any fun p => p.type_ == 5 && decide (4096 < p.len), 0x0C)]

/-- Codes 0x10 to 0x23. -/
def blockChecks (b : List Byte) : List (Bool × Nat) :=
  let sc := partNamed b 3 0
  let pb := partNamed b 4 0
  [(!scFormatOk sc, 0x10), (!inRange 1250 20000 (fieldLE sc 0 2), 0x11), (!ringsOk sc, 0x12),
   (!((parseHeads sc).all fun h => headOk h.2), 0x13), (!wheelConstsOk sc, 0x14), (!secsOk sc, 0x15),
   (!inRange 10 3600 (fieldLE sc 2 2), 0x16), (!inRange 1 168 (fieldLE sc 4 1), 0x17), (!grpsOk sc, 0x18),
   (!pbFormatOk pb, 0x20), (!((parseParams pb).all fun p => paramLimitOk p.2), 0x21), (!deckOk sc pb, 0x22),
   (!extsOk b pb, 0x23)]

/-- The load error code of an image, 0 where it passes. -/
def imageError (len : Nat) (b : List Byte) : Nat :=
  match (imageChecks len b ++ blockChecks b).find? (·.1) with
  | some c => c.2
  | none => 0

/-- What a sound image configures (R306 to R308, R266). -/
def parseImage (b : List Byte) : Cfg :=
  let hp := partNamed b 1 0
  let sc := partNamed b 3 0
  let pb := partNamed b 4 0
  let a := fieldLE hp 0 4
  { period := fieldLE sc 0 2, sweepTmo := fieldLE sc 2 2, rotInt := fieldLE sc 4 1, rstg := rstgOf sc
    commok := bitsNat (fieldLE sc 5 1) 4 1 == 1, cb := (List.range 6).map fun i => fieldLE sc (6 + i) 1
    spcAbs := fieldLE sc 12 2, spcRel := fieldLE sc 14 2, rings := parseRings sc, heads := parseHeads sc
    auth := parseAuth sc, secs := parseSecs sc, groups := parseGrps sc, params := parseParams pb
    lines := (lineRecs pb).map parseLine, exts := (extRecs pb).map parseExt
    extProgs := ((List.range 8).map fun i => (i, partNamed b 5 i)).filter fun p => !p.2.isEmpty
    headProg := slice hp 32 a, proofProg := slice hp (32 + a) (fieldLE hp 4 4)
    psig := (List.range 4).map fun i => word32 hp (8 + 4 * i), supCrc := crc32c (partNamed b 2 0)
    scHash := sha256 sc, build := word32 b 20 }

/-! ### The load (R309, R313, R325) -/

/-- A duration of IMG_TIME in units of 10 us, to the nearest (R8, R310), as far as its field reaches. -/
def loadTime (t0 : Bell) (s : State) : Nat := min 0xFFFF (tenMicros (elapsed s.bell.time t0))

/-- A refused LOAD (R325). -/
def refuseLoad (code : Nat) (s : State) : State :=
  sticky clsImg 0 1 { s with img := { s.img with err := code } }

/-- LOAD written through a port (R309). -/
def loadWrite (p : HostId) (s : State) : State :=
  let busy := match s.img.state with
    | .checking => true
    | .distributing => true
    | .loaded => true
    | _ => false
  let other := match s.img.owner with
    | some q => q != p
    | none => false
  if s.dev.mode != .boot then refuseLoad 0x31 s
  else if busy || other then refuseLoad 0x30 s
  else { s with img := { s.img with state := .checking, port := p, owner := some p, at_ := s.bell.time } }

def execImgLoad (p : HostId) (s : State) : Out := .next (if canAccess p 0 s then loadWrite p s else s)

/-- A load fails: the image is discarded and no port owns a load (R309). -/
def failLoad (code : Nat) (s : State) : State :=
  raiseBoth 7 (sticky clsImg 0 0
    { s with img := { s.img with state := .failed, err := code, owner := none, cfg := .none }
             sup := { s.sup with progA := [], progB := [] } })

/-- The window's first bytes as the device checks them. -/
def windowBytes (s : State) : List Byte :=
  memLoad (hostOf s.img.port s).window 0 (min 0x800000 s.img.len)

/-- The checks end (R309, R310, R312). -/
def execImageCheckComplete (s : State) : Out :=
  if s.img.state != .checking then .next s
  else
    let b := windowBytes s
    let code := imageError s.img.len b
    let s1 := { s with img := { s.img with tCheck := loadTime s.img.at_ s } }
    .next (if code = 0 then
      { s1 with img := { s1.img with state := .distributing, at_ := s.bell.time, cfg := parseImage b }
                sup := { s1.sup with progA := partNamed b 2 0, progB := partNamed b 2 0 } }
    else failLoad code s1)

/-- Distribution ends; a destination whose CRC differs fails the load (R313). -/
def execImageDistributionComplete (mismatch : Bool) (s : State) : Out :=
  if s.img.state != .distributing then .next s
  else
    let s1 := { s with img := { s.img with tDist := loadTime s.img.at_ s } }
    .next (if mismatch then failLoad 0x40 s1 else raiseBoth 7 { s1 with img := { s1.img with state := .loaded } })

end Sys2Proof.Machine
end

