-- ==== Sys2Proof/Machine/Fault.lean ====
section
/-! DEFINITION. The fault record and the test access port (R356 to R360, R364, R407). -/

namespace Sys2Proof.Machine

/-! ### Reports and the first-fault capture (R359, R360) -/

/-- A report whose path fails its parity check is taken as a fault of its class, and REPORT sets (R375). -/
def parityReport (r : Fin 18 × Fin 512 × Fin 32) (s : State) : State :=
  if r.1.val = 0 then s else sticky clsFlt 0 3 (sendReport r.1.val r.2.1.val r.2.2.val s)

/-- What the paths of the reports show at a landing tick. -/
def reportTick (bad : Option (Fin 18 × Fin 512 × Fin 32)) (s : State) : State :=
  match bad with
  | some r => parityReport r s
  | none => s

/-- FAULT_REPORT: the reports under way arrive at AON at once. -/
def execFaultReport (s : State) : Out := .next (if s.pins.vaon then deliver s else s)

/-- CLRFIRST; while the safe state persists FLT_SAFE is written again, with that state's own cause (R360, R374). -/
def clearFirst (s : State) : State :=
  { s with flt := { s.flt with first := none, later := 0, safeActive := s.dev.safe
                               safeCause := if s.dev.safe then s.dev.safeCause else 0 } }

def execClrfirst (p : HostId) (s : State) : Out := .next (if hostUp p s then clearFirst s else s)

/-! ### W1C (R357, R378, R385) -/

/-- A port reaches a class: its holding domain is in service, and HOST is the port's own (R383, R385). -/
def clsReach (p : HostId) (cls : Nat) (s : State) : Bool :=
  match cls with
  | 0x01 => domOn (bellDom s) s
  | 0x02 => domOn 11 s
  | 0x03 => domOn 4 s || domOn 5 s
  | 0x04 => domOn 4 s || domOn 5 s
  | 0x05 => domOn 6 s || domOn 7 s
  | 0x06 => domOn 6 s || domOn 7 s
  | 0x07 => domOn 12 s
  | 0x08 => domOn 12 s
  | 0x09 => p == .ha
  | 0x0A => p == .hb
  | 0x0B => domOn 6 s || domOn 7 s
  | 0x0C => domOn 0 s
  | 0x0D => domOn 0 s
  | 0x0E => domOn 1 s
  | 0x0F => domOn 1 s
  | 0x10 => domOn 1 s
  | 0x11 => true
  | _ => false

/-- Side clears: BELL_LATE.VALID with DRAIN_MISS, THERM_STAT.LATCH with HOVER (R53, R355). DESIGN CHOICE, log 88: with VALID
clear, BELL_LATE.ENGINE reads 0. -/
def sideClear (cls : Nat) (mask : Word) (s : State) : State :=
  if cls = clsBell && mask.getLsbD 4 then { s with bell := { s.bell with lateEng := none } }
  else if cls = clsTherm && mask.getLsbD 3 then clearHover s
  else s

/-- Bits whose condition still holds at a landing tick set again (R357). -/
def persist (s : State) : State :=
  let s := if s.man.failed then forEach (cfgSecs s) (fun n => sticky clsSec n 7) s else s
  let s := stickyIf (s.sup.resJudged && decide (countState .ready s < 8)) clsChk 0 4 s
  let s := stickyIf (decide (64 ≤ s.ha.silent)) clsHa 0 5 s
  let s := stickyIf (decide (64 ≤ s.hb.silent)) clsHb 0 5 s
  let s := forEach s.pmc.doms (fun d => stickyIf (d.2.state == .lost) clsDom d.1 8) s
  let s := forEach s.saf.groups (fun g => stickyIf (g.2.state == .locked) clsSg g.1 13) s
  let t := thermCode s.pmc.therm
  let s := stickyIf (decide (1 ≤ t)) clsTherm 0 0 s
  let s := stickyIf (decide (2 ≤ t)) clsTherm 0 1 s
  let s := stickyIf (decide (3 ≤ t)) clsTherm 0 2 s
  let s := stickyIf (s.dev.mode == .lockout) clsDev 0 3 s
  stickyIf s.dev.safe clsFlt 0 0 s

/-- The bell counts: VAON stands, RESET_N is high, and one of the trees is not lost (R24, R401, R402). -/
def bellRuns (s : State) : Bool :=
  s.pins.vaon && s.pins.resetN && ((domOf 2 s).state != .lost || (domOf 3 s).state != .lost)

/-- A write of ones to a fault register: a bit with an event in the same tick stays (R390), and where no landing tick comes a
condition that holds sets its bit again within 1 us (R357). -/
def w1c (p : HostId) (cls ix : Nat) (mask : Word) (s : State) : State :=
  if hostUp p s && clsReach p cls s then
    let m := mask &&& ~~~freshReg cls ix s
    let s1 := sideClear cls m (clearFlt cls ix m s)
    if bellRuns s then s1 else persist s1
  else s

def execW1cClear (p : HostId) (cls : Fin 18) (ix : Fin 512) (mask : Word) (s : State) : Out :=
  .next (w1c p cls ix mask s)

/-- A write of 1 to THERM_FLT.HOVER, which clears LATCH too (R347). -/
def execThermHoverClear (p : HostId) (s : State) : Out := .next (w1c p clsTherm 0 8 s)

/-- FAULT_N is released at the landing tick after the last sticky bit is cleared (R364). -/
def releaseFaultN (s : State) : State :=
  { s with flt := { s.flt with faultN := s.dev.safe || fltSum s != 0 } }

/-! ### The test access port (R407) -/

/-- TEST_EN high outside BOOT sets DEV_FLT.TESTEN and changes nothing in service. -/
def execTestEnChange (level : Bool) (s : State) : Out :=
  .next (if s33On s then stickyIf (level && !s.pins.testEn && inService s) clsDev 0 4
    { s with pins := { s.pins with testEn := level } } else s)

/-- An instruction that takes effect with TEST_EN high in BOOT alone. -/
def gatedJtag (j : Jtag) : Bool :=
  match j with
  | .extest => true
  | .intest => true
  | .clamp => true
  | .bypass => false
  | .idcode => false
  | .samplePreload => false

/-- The instruction in effect: EXTEST, INTEST and CLAMP act as BYPASS but with TEST_EN high in BOOT. -/
def jtagNow (s : State) : Jtag :=
  if gatedJtag s.pins.jtag && !(s.pins.testEn && s.dev.mode == .boot) then .bypass else s.pins.jtag

/-- The instruction register of the port, an S33 input, takes an instruction (R397). -/
def setJtag (j : Jtag) (s : State) : State := if s33On s then { s with pins := { s.pins with jtag := j } } else s

def execBypass (s : State) : Out := .next (setJtag .bypass s)
def execIdcode (s : State) : Out := .next (setJtag .idcode s)
def execSamplePreload (s : State) : Out := .next (setJtag .samplePreload s)
def execExtest (s : State) : Out := .next (setJtag .extest s)
def execIntest (s : State) : Out := .next (setJtag .intest s)
def execClamp (s : State) : Out := .next (setJtag .clamp s)

/-- The identification word the port shifts out under IDCODE. -/
def idcodeWord : Word := 0xB0512C7D

/-- The data register that the port puts between TDI and TDO where the manual gives it: the identification word under IDCODE, the
one-bit bypass register under BYPASS (IEEE 1149.1; PRESUMED, log 9); the boundary-scan register has no place in the manual. -/
def tapRegister (s : State) : Option (List Bool) :=
  match jtagNow s with
  | .idcode => some ((List.range 32).map idcodeWord.getLsbD)
  | .bypass => some [false]
  | .samplePreload => none
  | .extest => none
  | .intest => none
  | .clamp => none

end Sys2Proof.Machine
end

