-- ==== Sys2Proof/Machine/Mode.lean ====
section
/-! DEFINITION. START and the Boot to Prove transition, PROVE, and the HARBOUR sequences (R314 to R316, R321, R322). -/

namespace Sys2Proof.Machine

/-! ### START (R314) -/

/-- A write of 1 to DEV_CTL.START in BOOT. -/
def requestStart (s : State) : State :=
  if s.dev.mode == .boot && !s.dev.safe then { s with dev := { s.dev with startReq := true } } else s

def execStart (p : HostId) (s : State) : Out := .next (if canAccess p 0 s then requestStart s else s)

/-- The failing conditions of START; the seal is judged only with a LOADED image. -/
def startConds (bits : BitVec 40) (s : State) : Nat :=
  let loaded := s.img.state == .loaded
  let sealed := safioOn s && sealPatOk bits && sealWordOk bits s
  2 * b2n (!loaded) + 4 * b2n (!(bellStatNow s).getLsbD 3) + 8 * b2n (loaded && !sealed) + 2048 * b2n s.pins.testEn

/-- START is refused: the device stays in BOOT. -/
def refuseStart (bits : Nat) (s : State) : State :=
  takeWaits (sticky clsDev 0 0 { s with dev := { s.dev with startTick := false, refReq := 2, refCond := bits } })

/-! ### The transition (R27, R28, R251, R263, R279, R315) -/

/-- The bell locks, and a LOAD_PPS still pending is cancelled; BELL_STAT holds until the first commit (R49). -/
def lockBell (s : State) : State :=
  stickyIf s.bell.loadPps clsBell 0 9 { s with bell := { s.bell with
    stat := bellStatNow s, locked := true, waits := [], loadPps := false, period := s.img.cfg.period, frameLen := s.img.cfg.period } }

/-- A configured group enters STO from its unused record, with its input levels and its latched position (R249, R251). -/
def startGroup (g : Nat) (s : State) : State :=
  modGrp g (fun x => toSto s.bell.time { unusedGrp x with pos := x.live, hist := [x.live] }) s

/-- The supervisors begin, with the parameters at their defaults and PGEN 1 (R295, R304); every configured head waits for
its first engine (R315). -/
def startSup (s : State) : State :=
  let u := s.sup
  let firsts : List Move := (cfgHeads s).map fun h =>
    { head := h, src := h, dst := 0, slot := 0, kind := 5, record := false, stage := .waiting }
  { s with sup := { SupSt.reset with
      passA := u.passA, passB := u.passB, ceA := u.ceA, ceB := u.ceB, digA := u.digA, digB := u.digB
      mig := u.mig, migLand := u.migLand, paramLast := u.paramLast, lockNext := u.lockNext, pgen := 1
      progA := u.progA, progB := u.progB
      params := s.img.cfg.params.foldl (fun t p => tabSet 0 t p.1 p.2.dflt) []
      b := { SupMem.reset with
             pgen := 1, paramLast := u.b.paramLast, moves := firsts
             params := s.img.cfg.params.foldl (fun t p => tabSet 0 t p.1 p.2.dflt) [] }
      moves := firsts } }

/-- The ports' roles: the port of the accepted image becomes lead, and a port whose role changes hears of it (R279, R300;
DEDUCED, log 106: taking a role for the first time is a change). -/
def setRoles (s : State) : State :=
  let s1 := { s with dev := { s.dev with lead := s.img.port, hasLead := true } }
  if s.dev.hasLead && s.dev.lead == s.img.port then s1 else raiseBoth 4 s1

/-- DEV_STAT and DEV_MODELAND show the transition at its tick, as the manual's power-up example reads them; every other
register of the class holds until the first commit (R314, R386). -/
def showMode (s : State) : State :=
  { s with shown := tabSet 0 (tabSet 0 s.shown 0x0004 (devReg 0x04 s)) 0x0010 (devReg 0x10 s) }

/-- The Boot to Prove transition, at its tick. -/
def toProve (s : State) : State :=
  let s := startSup (lockBell (setRoles (switchShown s)))
  let s := { s with
    man := { ManSt.reset with failNext := s.man.failNext }
    saf := { s.saf with watching := true, expecting := true, miss := 0, accepted := false, dm := false
                        sealOk := true, sealBad := false, repeatDue := false }
    frame := { FrameSt.reset with closing := true, drained := some 0 }
    pmc := { s.pmc with engQueue := (List.range 16).map (· + 14), engAt := none }
    dev := { s.dev with startTick := false, first := true, proveAt := s.bell.time } }
  let s := forEach (cfgGroups s) startGroup s
  startRings (showMode (setMode .prove s))

/-- The seal chain is read at the tick; a loaded image makes it judged, whatever else START meets (R265, R266, R314). -/
def startRead (bits : BitVec 40) (s : State) : State :=
  if safioOn s then
    let s0 := noteSeal bits s
    let s := { s0 with saf := { s0.saf with sealAt := some s.bell.tickTime } }
    if s.img.state == .loaded then { s with saf := { s.saf with sealOk := sealPatOk bits && sealWordOk bits s } } else s
  else s

def execStartTransition (bits : BitVec 40) (s : State) : Out :=
  if !s.dev.startTick || s.dev.safe then .next s
  else
    let b := sampledBits bits s
    let s1 := startRead b s
    let c := startConds b s1
    .next (if c == 0 then toProve s1 else refuseStart c s1)

/-! ### PROVE (R315, R316) -/

/-- A failed self-test: of a domain's block, or a tie test of one of its monitors, which is then marked failed (R315, R340). -/
def failTest (x : DomIx × Option Side) (s : State) : State :=
  match x.2 with
  | some m => loseDomain x.1 (failMonitor x.1 m (sticky clsDom x.1 6 s))
  | none => loseDomain x.1 s

/-- The self-tests end; DEV_PROVE shows it at the next commit, and every block that failed one behaves as on loss of its
domain (R315). -/
def execSelftestComplete (failed : List (DomIx × Option Side)) (s : State) : Out :=
  if inService s && !s.dev.st && !s.dev.stEnd then
    .next (forEach failed failTest
      { s with dev := { s.dev with stEnd := true, stBad := !failed.isEmpty } })
  else .next s

/-- PDONE sets regardless, 10 s after the transition (R316). -/
def proveTimeout (s : State) : State := sticky clsDev 0 2 { s with dev := { s.dev with pdone := true, tmo := true } }

/-- The conditions of PDONE have not all come to hold within the 10 s (R316). -/
def proveLate (s : State) : Bool := !s.dev.pdone && decide (100000000 ≤ elapsed s.bell.time s.dev.proveAt)

def execProveTimeout (s : State) : Out := .next (if inService s && proveLate s then proveTimeout s else s)

/-! ### HARBOUR (R228, R321, R322) -/

/-- A hand-over of an engine has been ordered and its request not yet released: at most one an engine and landing. -/
def ordering (e : Nat) (s : State) : Bool :=
  s.sup.moves.any fun m => !isMigration m && (m.src == e || m.dst == e) && (m.stage == .chosen || m.stage == .agreed)

/-- The heads of a GN8 that some engine serves, in rising order, each with its engine. -/
def servedHeads (i : Nat) (s : State) : List (Nat × Nat) :=
  (gn8Heads i s).filterMap fun h => (engineOf h.1 s).map fun e => (h.1, e)

/-- The gathering engine of a GN8: the one that serves its lowest-numbered configured head. -/
def gatherEng (i : Nat) (s : State) : Option Nat :=
  match gn8Heads i s with
  | h :: _ => engineOf h.1 s
  | [] => none

/-- The next head of a GN8 goes to its gathering engine (R228). -/
def gather (i : Nat) (s : State) : State :=
  match gatherEng i s with
  | none => s
  | some d =>
    if ordering d s then s
    else
      match (servedHeads i s).find? fun h => h.2 != d && (moveOf h.1 s).isNone && !inHandover h.2 s with
      | some h => orderHandover h.1 h.2 d 3 s
      | none => s

/-- Every head of a GN8 that an engine serves is on one engine, with no hand-over under way. -/
def gathered (s : State) (i : Nat) : Bool :=
  (servedHeads i s).all fun h => gatherEng i s == none || (gatherEng i s == some h.2 && (moveOf h.1 s).isNone)

/-- An engine that still serves several heads of a GN8. -/
def crowdedEng (i : Nat) (s : State) : Option Nat :=
  ((servedHeads i s).find? fun h => decide (2 ≤ ((servedHeads i s).filter fun x => x.2 == h.2).length)).map (·.2)

/-- The slot whose head goes next: the highest one with no move under way. -/
def nextSlot (g : Eng) (s : State) : Option Nat :=
  ((g.slots.filter fun p => (moveOf (p.2 - 1) s).isNone).map (·.1)).getLast?

/-- The head in the gathering engine's highest slot goes to a READY engine; the last one stays (R228). -/
def disperse (i : Nat) (s : State) : State :=
  match crowdedEng i s with
  | none => s
  | some e =>
    let g := engOf e s
    let left := g.slots.filter fun p => (moveOf (p.2 - 1) s).isNone
    if ordering e s || left.length ≤ 1 then s
    else
      match nextSlot g s, pickEngine (some (e / 32)) s with
      | some slot, some d => orderHandover (slotHead g slot) e d 3 s
      | _, _ => s

/-- A GN8's dispersal is complete: each engine serves one of its heads and no hand-over of them is under way. -/
def dispersed (s : State) (i : Nat) : Bool :=
  (crowdedEng i s).isNone &&
  !(s.sup.moves.any fun m => m.kind == 3 && (gn8Heads i s).any fun h => h.1 == m.head)

/-- The row orders the next hand-over of one GN8's dispersal. -/
def execHarbourDispersalStart (g : Gn8Ix) (s : State) : Out :=
  .next (if commits s && s.dev.htrans == 2 && (cfgGn8s s).contains g.val then disperse g s else s)

/-- ENG domains to gate: in service, with no SERVICE engine and no destination promised, but for the lowest (R321). -/
def gateList (s : State) : List Nat :=
  ((List.range 16).filter fun k =>
    domOn (14 + k) s && !((engsOfDom k).any fun e =>
      (engOf e s).state == .service || (reserved s).contains e)).drop 1

/-- Gate an ENG domain (R321, R329). -/
def gateDom (k : Nat) (s : State) : State :=
  let s := modDom (14 + k) (fun x => { x with state := .gated, vset := 0, slew := none }) s
  forEach (engsOfDom k) (fun e s =>
    if (engOf e s).state == .retired then s
    else modEng e (fun g => { g with state := .gated, winStart := none, verdict := none, core := .reset }) s) s

/-- HARBOUR entry at a commit from E + 1 on: gathering, and gating once it is done (R321). -/
def harbourEntry (s : State) : State :=
  if s.dev.htrans == 1 && !laterMod 32 s.dev.seqLand s.bell.landNo then
    if (cfgGn8s s).all (gathered s) then
      forEach (gateList s) gateDom { s with dev := { s.dev with htrans := 0 } }
    else forEach (cfgGn8s s) gather s
  else s

/-- Ungating at commit X (R322). -/
def ungate (s : State) : State :=
  { s with pmc := { s.pmc with
      engQueue := (List.range 16).filterMap fun k => if (domOf (14 + k) s).state == .gated then some (14 + k) else none
      engAt := none } }

/-- HARBOUR exit at a commit: ungating at X, dispersal, and RUN once no GN8 is in decimation (R322). -/
def harbourExit (s : State) : State :=
  if s.dev.htrans != 2 then s
  else if s.bell.landNo == s.dev.seqLand then ungate s
  else if (cfgGn8s s).all fun i => !(gn8Of i s).decim && (gn8Of i s).change.isNone then
    let s := { s with dev := { s.dev with htrans := 0 } }
    if s.dev.mode == .harbour then setMode .run s else s
  else forEach (cfgGn8s s) disperse s

/-- Decimation at the landing ticks of HARBOUR (R77, R321, R322). -/
def harbourTick (s : State) : State :=
  if s.dev.htrans == 1 && s.bell.landNo == s.dev.seqLand then forEach (cfgGn8s s) (orderGrid true) s
  else if s.dev.htrans == 2 then
    forEach ((cfgGn8s s).filter fun i => ((gn8Of i s).decim || (gn8Of i s).change.any (·.1)) && dispersed s i &&
      laterMod 32 s.bell.landNo s.dev.seqLand)
      (fun i s => if (gn8Of i s).change.any (fun c => !c.1) then s else orderGrid false i s) s
  else s

end Sys2Proof.Machine
end

