-- ==== Sys2Proof/Machine/Commit.lean ====
section
/-! DEFINITION. The commit up to the release: events, heads, sections, commands, comparison, modes and stop causes
(R132 to R141, R224, R292, R315 to R323). -/

namespace Sys2Proof.Machine

/-! ### The engines of the closing frame (R34, R214) -/

/-- An engine's events are discarded: late, removed for cause, or withdrawn. -/
def discarded (s : State) (e : Nat) : Bool :=
  s.frame.late.contains e || s.frame.removed.any (fun r => r.1 == e) || s.frame.withdrawn.contains e

/-- The events the commit applies, by engine and in posting order (R14). -/
def eventsOf (s : State) : List (Nat × Event) :=
  sortBy (·.1) (s.frame.events.filter fun x => !discarded s x.1)

/-- The PASS events of a list of events. -/
def passesOf (l : List (Nat × Event)) : List WheelRec :=
  l.filterMap fun x => match x.2 with
    | .pass r => some r
    | .state _ => none

/-- The heads of the late engines, and those of the engines removed for cause, with a head whose streams had gone over to
such an engine (R34, R214). -/
def headsOn (s : State) (l : List Nat) : List Nat :=
  sortKeys (l.flatMap (fun e => headsOfEng (engOf e s)) ++
    (s.sup.moves.filter fun m => m.stage == .switched && l.contains m.dst).map (·.head))

def lateHeads (s : State) : List Nat := headsOn s s.frame.late
def removedHeads (s : State) : List Nat := headsOn s (s.frame.removed.map (·.1))

/-! ### STATE and PASS events at the head records (R105, R106, R183, R224) -/

/-- States whose entry disturbs (R103). -/
def disturbing (st : HeadState) : Bool :=
  match st with
  | .baseline => true
  | .occupiedAtStart => true
  | .suspect => true
  | .fault => true
  | _ => false

/-- A STATE event counts as an entry into its state (R183). -/
def isEntry (e : StateEv) (h : Head) : Bool := e.chg || e.state != h.state

/-- A STATE event sets the committed record and, where it is an entry, the HEAD_FLT bits of its state and cause (R106); the
heads that entered a disturbing state are collected. -/
def applyState (e : StateEv) (x : State × List Nat) : State × List Nat :=
  let h := headOf e.head x.1
  let entry := isEntry e h
  let s := setHead e.head { h with state := e.state, cause := e.cause, back := e.back, side := e.side, a := e.a, b := e.b
                                   baseA := e.baseA, baseB := e.baseB } x.1
  (if entry then forEach ((stateBit e.state).toList ++ (causeBit e.cause).toList) (sticky clsHead e.head) s else s,
   if entry && disturbing e.state then insertKey e.head x.2 else x.2)

/-- A PASS event counts in HEAD_PASS; one that carries INTERP sets its HEAD_FLT bit (R106). -/
def applyPass (r : WheelRec) (s : State) : State :=
  let h := headOf r.head s
  let s := setHead r.head (if r.dir then { h with passAB := (h.passAB + 1) % 65536 }
    else { h with passBA := (h.passBA + 1) % 65536 }) s
  stickyIf (bitsNat r.flags 0 1 == 1) clsHead r.head 3 s

def applyEvents (l : List (Nat × Event)) (s : State) : State × List Nat :=
  l.foldl (fun x v => match v.2 with
    | .state e => applyState e x
    | .pass r => (applyPass r x.1, x.2)) (s, [])

/-- HEAD_FLT bits of learning windows that failed in the frame; a frame whose events are discarded sets none (R106). -/
def applyHeadFlt (s : State) : State :=
  forEach (s.frame.headFlt.filter fun x => !discarded s x.1) (fun x => sticky clsHead x.2.1 x.2.2) s

/-- A head whose engine was late or removed reports FAULT (R34, R99, R214) and waits for another engine (R221); one whose
streams have gone over to a sound destination starts there (R226, R227). DESIGN CHOICE, log 120: the cause takes the place of
one that R99 keeps until the next PROVE. -/
def failHead (cause h : Nat) (s : State) : State :=
  let s := sticky clsHead h 1 (setHead h { headOf h s with
    state := .fault, cause := cause, back := false, side := false, a := false, b := false, held := false } s)
  let away := fun src =>
    waitMove h src 0 (setHead h { headOf h s with route := none, keptClosing := [], keptOpen := [] } s)
  match moveOf h s with
  | some m => if m.stage == .switched then (if discarded s m.dst then away m.dst else s) else away (headOf h s).engine
  | none => away (headOf h s).engine

/-- A late engine leaves service at the commit, halted, and an operation that has failed its check is killed with the others;
one removed has left it (R34, R205, R214). -/
def outLate (e : Nat) (s : State) : State :=
  let failed := killsFailed (fun _ => true) (engOf e s).core.cops
  noteFailed failed e (modEng e (fun g => { g with
    state := if g.state == .service then .out else g.state
    strike := satInc 3 g.strike, errCause := 0x05, core := haltBoth g.core }) s)

/-- A discarded engine serves no head any more. -/
def emptySlots (e : Nat) (s : State) : State := modEng e (fun g => { g with slots := [] }) s

/-- ENG_LAST and the DIAG words of the engines whose frame is applied; the heads they serve are held no more
(R222, R229, R243). -/
def noteServed (e : Nat) (s : State) : State :=
  let g := engOf e s
  if g.state == .service && g.core.drained.isSome && !discarded s e then
    let s := setEng e { g with last := s.bell.landNo, diag0 := g.core.diag0, diag1 := g.core.diag1 } s
    forEach (headsOfEng g) (fun h s => setHead h { headOf h s with held := false } s) s
  else s

/-- HGEN takes its successor (R224). -/
def stepGen (h : Nat) (s : State) : State := setHead h { headOf h s with gen := succGen (headOf h s).gen } s

/-- The first commit after the transition: every configured head is in BASELINE with HGEN 1 (R161, R224). -/
def firstHead (h : Nat) (s : State) : State := setHead h { headOf h s with state := .baseline, gen := 1 } s

/-! ### Sections (R119, R127, R135) -/

/-- PASS events in order of centre, equal centres in the order of R14 (R119). -/
def byCentre (tick : Bell) (l : List WheelRec) : List WheelRec :=
  sortBy (fun r => (r.centre - (tick - 0x800000000000)).toNat) l

/-- What the applied PASS events do to a section. -/
def movesOf (n : Nat) (l : List WheelRec) (s : State) : List Move1 :=
  l.flatMap fun r =>
    ((secCfg n s).ends.zipIdx.filter fun e => e.1.1 == r.head).map fun e =>
      { up := r.dir == e.1.2, cls := r.cls, spc := r.spacing, endIx := e.2 }

/-- A head that counts as in PASSAGE or STANDING for the derivation (R131, R222). -/
def activeHead (h : Nat) (s : State) : Bool := (headOf h s).held || inPassage (headOf h s).state

/-- A head in a state that does not let a section be derived. -/
def badHead (h : Nat) (s : State) : Bool := !(headOf h s).held && !tracks (headOf h s).state

/-- What the commit shows a section; late and entered list the heads. -/
def secIn (n : Nat) (l : List WheelRec) (late entered : List Nat) (failing : Bool) (s : State) : SecIn :=
  let ends := (secCfg n s).ends.map (·.1)
  { pvc := (secCfg n s).pvc, tolAbs := s.img.cfg.spcAbs, tolRel := s.img.cfg.spcRel, moves := movesOf n l s
    late := ends.any late.contains
    entered := ends.any fun h => entered.contains h && !late.contains h
    bad := ends.any fun h => badHead h s && !late.contains h
    active := ends.any fun h => activeHead h s
    first := s.dev.first, failing := failing, failed := s.man.failed, land := s.bell.landNo, tick := s.bell.tickTime
    sweepTmo := s.img.cfg.sweepTmo * 10000000 }

/-- The hint, with the heads as committed (R123). -/
def withHint (n : Nat) (r : Sec) (s : State) : Sec :=
  { r with hintCode := hintOf s.img.cfg.spcAbs s.img.cfg.spcRel (endsIdle n s) r }

/-- A derived record with its last-change landing and its hint; old is the manifest's record of the commit before. -/
def sealRec (n : Nat) (old r : Sec) (s : State) : Sec := withHint n (stampChg s.bell.landNo old r) s

/-- Each manifest derives one section on its own record, in its own arithmetic (R135, R139). -/
def deriveSec (l : List WheelRec) (late entered : List Nat) (failing : Bool) (n : Nat) (s : State) : State :=
  let x := secIn n l late entered failing s
  let ra := derive x (sumA x.moves (secOf n s)) (secOf n s)
  let rb := derive x (sumB x.moves (secBOf n s)) (decodeB (secBOf n s))
  let s1 := setPair n (sealRec n (comSec n s) ra.1 s) (sealRec n (decodeB (comSecB n s)) rb.1 s) s
  forEach (ra.2 ++ rb.2) (fun b => sticky clsSec n b) s1

/-- Derive every configured section; a pair found failed before counts as failed from here on (R141). -/
def deriveAll (l : List WheelRec) (late entered : List Nat) (s : State) : State :=
  let failing := s.man.failNext && !s.man.failed
  let s := forEach (cfgSecs s) (deriveSec (byCentre s.bell.tickTime l) late entered failing) s
  cancelReqs { s with man := { s.man with failed := s.man.failed || s.man.failNext, failNext := false } }

/-! ### The comparison (R140, R141) -/

/-- A section's pending records are both replaced, each by its own manifest, with the bits of the cause (R139, R140). -/
def replaceSec (f : Word → Sec → Sec → Sec) (n : Nat) (s : State) : State :=
  let ra := withHint n (f s.bell.landNo (comSec n s) (secOf n s)) s
  let rb := withHint n (f s.bell.landNo (decodeB (comSecB n s)) (decodeB (secBOf n s))) s
  sticky clsSec n 7 (sticky clsSec n 0 (setPair n ra rb s))

/-- The sections, 0 to 511, of which either manifest holds a record that is not as after reset. -/
def listedSecs (s : State) : List Nat :=
  sortKeys ((s.man.a.map (·.1)).filter (decide <| · < 512) ++ s.man.b.map fun p => 511 - p.1)

/-- The sections whose pending records differ, or show an error that cannot be corrected: of all 512, with a record in the
section table or without (R140). -/
def differing (w : CommitIn) (s : State) : List Nat :=
  sortKeys (w.mismatch.filter (decide <| · < 512) ++ (listedSecs s).filter fun n => !agrees (secOf n s) (decodeB (secBOf n s)))

/-- The mismatch commits of the last 256 landings, this one included. -/
def mismatchLog (s : State) : List Word :=
  s.bell.landNo :: s.man.mismatchLands.filter fun x => elapsedLand s.bell.landNo x < 256

/-- The pair fails at the comparison (R141). -/
def pairFails (w : CommitIn) (mism : List Nat) (s : State) : Bool :=
  decide (16 < mism.length) || w.otherWord || (!mism.isEmpty && decide (4 ≤ (mismatchLog s).length))

/-- The sections whose records the comparison replaces (R140, R141). -/
def replacedSecs (w : CommitIn) (mism : List Nat) (s : State) : List Nat :=
  if s.man.failed then [] else if pairFails w mism s then sortKeys (cfgSecs s ++ mism) else mism

/-- Compare the copies; mism are the sections that mismatch. -/
def compareSecs (w : CommitIn) (mism : List Nat) (s : State) : State :=
  let s := forEach (sortKeys (w.corrected.filter (decide <| · < 512))) (fun n => sticky clsSec n 8) s
  if s.man.failed then s
  else
    let fails := pairFails w mism s
    let s := if mism.isEmpty then s else { s with man := { s.man with mismatchLands := mismatchLog s } }
    if fails then
      cancelReqs (forEach (cfgSecs s) (fun n => replaceSec (if mism.contains n then failBoth else failRec) n)
        (forEach (mism.filter fun n => !secConfigured n s) (replaceSec replaceRec) { s with man := { s.man with failed := true } }))
    else cancelReqs (forEach mism (replaceSec replaceRec) s)

/-! ### Results that a later step of the commit changes (R136, R152, R252, R294) -/

/-- The results of those entries taken for the commit that p names take another code and value. -/
def reviseResults (l : List Taken) (p : Taken → Result → Bool) (code value : Nat) (s : State) : State :=
  let hit := fun r : Result => l.any fun t => t.port == r.port && t.ix == r.ix && p t r
  let revise := fun r => if hit r then { r with code := code, value := value } else r
  { s with sup := { s.sup with results := s.sup.results.map revise } }

/-- A restoration command for one of the sections that was accepted, or refused by a check behind that of the generation. -/
def restores (l : List Nat) (t : Taken) (r : Result) : Bool :=
  (t.op == 0x01 || t.op == 0x02 || t.op == 0x03) && l.contains t.f.obj.toNat &&
  (r.code == 0x00 || (decide (0x07 ≤ r.code) && decide (r.code ≤ 0x0D)))

/-- A cause that the comparison raises arises at the commit, so a restoration of that section is refused with 0x06 and its key
is never written (R136, R147, R152; DEDUCED, log 128). -/
def refuseRestored (l : List Taken) (secs : List Nat) (s : State) : State :=
  let gone := fun k : Nat × Word × Nat × Nat =>
    secs.contains k.2.2.1 && l.any fun t => t.op == 0x02 && t.ix == k.1 && t.f.obj.toNat == k.2.2.1
  let s1 := reviseResults l (restores secs) 0x06 0 s
  { s1 with sup := { s1.sup with keys := s1.sup.keys.filter fun k => !gone k } }

/-! ### Commands (R292, R294, R323) -/

/-- The lead's entries, then the follower's, each in entry order. -/
def commandList (s : State) : List Taken :=
  s.sup.taken.filter (fun t => t.port == s.dev.lead) ++ s.sup.taken.filter fun t => t.port != s.dev.lead

def isForce (t : Taken) : Bool := t.op == 0x40

def applyTaken (t : Taken) (s : State) : State := applyEntry t.port t.ix t.op t.f t.cpFail t.keyen s

/-- Entries in order (R292). A return to BOOT takes every later entry with it. -/
def runCommands (l : List Taken) (s : State) : State :=
  forEach l (fun t s => if s.dev.mode == .boot then s else applyTaken t s) s

/-- A force of the commit at which the device leaves COMMISSION: the mode change counts first, and check 0x01 refuses it ahead
of every check of its own (R293, R294; DEDUCED, log 67). -/
def lateForce (t : Taken) (r : Result) : Bool :=
  isForce t && (r.code == 0x00 || r.code == 0x03 || r.code == 0x04 || r.code == 0x40)

/-- was is the mode before the commit. -/
def allCommands (was : Mode) (s : State) : State :=
  let l := commandList s
  let s := runCommands l { s with sup := { s.sup with taken := [], ncmd := min 127 l.length } }
  if was == .commission && s.dev.mode != .commission then reviseResults l lateForce 0x01 0 s else s

/-- The bookkeeping of a commit begins: the roles before it, and the groups an SG_STOP of the lead's mailbox names. -/
def openCommit (s : State) : State :=
  let stops := s.sup.taken.filter fun t => t.port == s.dev.lead && t.op == 0x11
  let s := dropAged s
  { s with sup := { s.sup with
      dupSecs := [], modeTaken := false, paramTaken := false, leadNow := some s.dev.lead, lockNow := s.sup.lockNext
      stopGrps := sortKeys (stops.map fun t => t.f.obj.toNat)
      orders := some { land := s.bell.landNo, openDevReset := false, applyDevReset := false, groups := [] } } }

/-- LOCKOUT first (R237, R266, R323). -/
def lockStep (s : State) : State :=
  if s.sup.lockNext then
    leaveForces (enterLockout { s with sup := { s.sup with lockNext := false } })
  else s

/-- The device-level deliberate reset takes effect; a new LOCKOUT cause takes it away (R260, R323, R364). -/
def devResetStep (s : State) : State :=
  if !s.saf.devOk then s
  else
    let s := { s with saf := { s.saf with devOk := false } }
    match s.dev.mode, s.dev.prior with
    | .lockout, some m =>
      if s.sup.lockNow || m == .prove then s
      else
        let s := setMode m { s with dev := { s.dev with prior := none }, flt := { s.flt with dmHold := false } }
        { s with sup := { s.sup with orders := some { ordersNow s with applyDevReset := true } } }
    | _, _ => s

/-! ### PROVE at a commit (R218, R315, R316) -/

/-- A window's verdict is recorded. -/
def recordVerdict (e : Nat) (s : State) : State :=
  let g := engOf e s
  match g.verdict with
  | none => s
  | some true => setEng e { g with state := .ready, verdict := none, last := s.bell.landNo } s
  | some false =>
    retire_ e (sticky clsEng e 8 (setEng e { g with verdict := none, errCause := 0x07, last := s.bell.landNo } s))

/-- The rotation ends with its engine's window; an engine that still serves hands its next head over (R231). -/
def endRotation (s : State) : State :=
  match s.sup.rot with
  | some e =>
    if (engOf e s).state == .proving || (s.sup.moves.any fun m => m.kind == 2 && m.src == e) then s
    else if engServing e s then rotateOut e s
    else { s with sup := { s.sup with rot := none } }
  | none => s

/-- Every fulling window of PROVE has a verdict. -/
def windowsDone (s : State) : Bool :=
  s.pmc.engQueue.isEmpty && (s.pmc.doms.all fun d => !(decide (14 ≤ d.1) && d.2.state == .ramp)) &&
  s.engs.all fun p => p.2.state != .proving

def ringFailed (k : Nat) (s : State) : Bool := (ringOf k s).state == .failed

def ringsDone (s : State) : Bool :=
  (cfgRings s).all fun k => ringFailed k s || (ringOf k s).state == .closed || (ringOf k s).state == .open

/-- Every head has left BASELINE or lies on a FAILED ring. -/
def headsDone (s : State) : Bool :=
  (cfgHeads s).all fun h =>
    ((headOf h s).state != .baseline && (headOf h s).state != .unassigned) || ringFailed (headCfg h s).ring s

/-- DEV_PROVE and PDONE at a commit: WIN, RINGS and LEARN show what holds at it, and PDONE sets at the first at which all
hold; one past the 10 s times out (R316; DEDUCED, log 68: once all four have held together they stay set). -/
def proveStep (s : State) : State :=
  let d := s.dev
  let fresh := d.stEnd && !d.st
  let st := d.st || d.stEnd
  let all := d.st && d.win && d.rings && d.learn
  let win := all || windowsDone s
  let rings := all || ringsDone s
  let learn := all || headsDone s
  let s := stickyIf (fresh && d.stBad) clsDev 0 1 { s with
    dev := { d with st := st, stfail := d.stfail || (fresh && d.stBad), win := win, rings := rings, learn := learn
                    pdone := d.pdone || (st && win && rings && learn) }
    sup := { s.sup with resJudged := s.sup.resJudged || win } }
  let s := if proveLate s then proveTimeout s else s
  stickyIf (s.sup.resJudged && decide (countState .ready s < 8)) clsChk 0 4 s

/-! ### Stop causes (R252, R253, R259) -/

/-- A group's ENBLK at the commit, and its stop causes. -/
def groupStep (g : Nat) (s : State) : State :=
  let e := enblkOf g s
  let x := grpOf g s
  let stop := e.getLsbD 2 || e.getLsbD 3 || e.getLsbD 4 || e.getLsbD 8 || s.bell.ssExpired
  let s := setGrp g { x with enblk := e, gOpened := false } s
  if stop then modOrder g (fun o => { o with stop := true }) s else s

/-- Resets whose pulse has ended take effect at the commit, so commands are checked against them (R259, R292). -/
def resetStep (g : Nat) (s : State) : State :=
  let x := grpOf g s
  if x.rstOk && x.state == .locked then modOrder g (fun o => { o with applyReset := true }) s else s

end Sys2Proof.Machine
end

