-- ==== Sys2Proof/Machine/Release.lean ====
section
/-! DEFINITION. The release: moves and hand-over records, engines returning from WLAND, windows, shared space
(R31, R165, R168, R187, R188, R219 to R231); and the commit as a whole (R31, R137). -/

namespace Sys2Proof.Machine

/-! ### Hand-over records (R225, R227) -/

/-- The bytes of a record agree with a head after the commit. -/
def recordBytesOk (l : List Byte) (h : Nat) (frame : Word) (hd : Head) : Bool :=
  fieldLE l 0 2 == h && fieldLE l 56 4 == frame.toNat &&
  (crc16 (l.take 52)).toNat == fieldLE l 52 2 && (crc32c (l.take 60)).toNat == fieldLE l 60 4 &&
  fieldLE l 2 1 == headCode hd.state && tracks hd.state && fieldLE l 54 2 == hd.gen

/-- The record of a hand-over is valid (R227). -/
def recordOk (m : Move) (s : State) : Bool :=
  let k := (engOf m.src s).core
  (engOf m.src s).state == .service && !discarded s m.src && k.drained.isSome &&
  match k.hrec with
  | some (l, marked) => marked && recordBytesOk l m.head (s.bell.landNo - 1) (headOf m.head s)
  | none => false

/-- A switched move is judged: whether its head goes on from the record (R226, R227). -/
def judgeMove (m : Move) (s : State) : Move × Bool :=
  ({ m with record := !isMigration m && recordOk m s }, !isMigration m && !recordOk m s)

/-- The switched moves with their records judged, and CHK_FLT.REC_REFUSED where one is refused. -/
def judgeMoves (s : State) : State :=
  let l := s.sup.moves.map fun m => if m.stage == .switched then judgeMove m s else (m, false)
  stickyIf (l.any (·.2)) clsChk 0 6 { s with sup := { s.sup with moves := l.map (·.1) } }

/-! ### The heads start on their destinations -/

/-- ENG_ERR.CAUSE of an engine that hands its last head over (R240). -/
def leaveCause (kind : Nat) : Nat :=
  match kind with
  | 2 => 0x08
  | 3 => 0x09
  | _ => 0x0A

/-- A slot is emptied. -/
def dropSlot (slot : Nat) (g : Eng) : Eng :=
  { g with slots := tabSet 0 g.slots slot 0, core := emptySlot slot g.core }

/-- The source stops serving a head; without another head it begins a window (R226). -/
def leaveSource (m : Move) (s : State) : State :=
  let g := engOf m.src s
  match g.slots.find? fun p => p.2 == m.head + 1 with
  | none => s
  | some p =>
    let g := dropSlot p.1 g
    let s := setEng m.src g s
    if g.state == .service && g.slots.isEmpty then
      startWindow m.src (setEng m.src { g with errCause := leaveCause m.kind } s)
    else s

/-- One switched move completes; a head whose HGEN has stepped at this commit keeps it (R224). -/
def finishMove (stepped : List Nat) (m : Move) (s : State) : State :=
  if m.stage != .switched then s
  else
    let gen := (headOf m.head s).gen
    let s := startHead m m.record (leaveSource m s)
    if stepped.contains m.head then setHead m.head { headOf m.head s with gen := gen } s else s

/-- A first placement on the head's own engine, at once (R315). -/
def placeOwn (m : Move) (s : State) : State :=
  if m.kind == 5 && m.stage == .waiting && (readyEngs s).contains m.head then
    startHead { m with dst := m.head, slot := 0 } false s
  else s

/-- An agreed hand-over is requested at its source, if both engines still stand (R226). -/
def requestMove (m : Move) (s : State) : State :=
  if isMigration m || m.stage != .agreed then s
  else
    let d := (engOf m.dst s).state
    if (d == .ready || d == .service) && (engOf m.src s).slots.any fun p => p.2 == m.head + 1 then
      putMove { m with stage := .requested } s
    else dropMove m.head s

/-! ### Engines at the release -/

/-- OUT engines are examined or retired (R219). -/
def examine (e : Nat) (s : State) : State :=
  let g := engOf e s
  if g.state == .out then (if 2 ≤ g.strike then retire_ e s else startWindow e s) else s

/-- OFF engines of a domain in service begin their windows (R219). -/
def rejoin (s : State) : State :=
  if enginesProve s then forEach (List.range 16) (fun k s => if domOn (14 + k) s then proveDom k s else s) s else s

/-- The head context returns from WLAND with the landing number; FLAGS are latched (R170, R181). -/
def releaseHead (land : Word) (flags : BitVec 7) (x : CtxSt) : CtxSt :=
  match x.block with
  | .wland rd => { fileWrite x rd land with pc := x.pc + 4, block := .none, flags := flags }
  | _ => { x with flags := flags }

/-- The extension context starts afresh where it is eligible (R165, R187, R188). -/
def releaseExt (may : Bool) (flags : BitVec 7) (k : Core) : Core :=
  let n := if k.xFaulted then k.xFrames + 1 else 0
  let off := k.xOff || decide (16 ≤ n)
  let run := may && !off
  { k with ext := { CtxSt.reset with pc := 0x3000, flags := flags }, xEnded := !run, xFaulted := false
           xFrames := n, xOff := off }

/-- Extension tags are outstanding (R188). -/
def extTags (k : Core) : Bool := k.cops.any (fun o => o.ctx == .ext) || k.shared.any fun o => o.ctx == .ext

/-- The served heads are on the 800-tick grid (R77, R170). -/
def onHarbourGrid (g : Eng) (s : State) : Bool :=
  !g.slots.isEmpty && (headsOfEng g).all fun h => (gn8Of (4 * (headCfg h s).ring + (headCfg h s).slot) s).decim

/-- A SERVICE engine at the release; shared space takes the committed snapshot (R168). -/
def releaseEng (offers : List (Nat × Nat × List Byte)) (e : Nat) (s : State) : State :=
  let g := engOf e s
  if g.state != .service then s
  else
    let tags := extTags g.core
    let hreq := s.sup.moves.any fun m => m.stage == .requested && m.src == e
    let fl := fun c => releaseFlags c hreq g.slots.length (s.dev.mode == .commission)
      (onHarbourGrid g s) (inHoldover s)
    let offer := (offers.find? fun o => o.1 == e).map (·.2)
    let s := setCore e (fun k => releaseExt (g.ext != 0 && !throttled s) (fl .ext) { k with
      head := releaseHead s.bell.landNo (fl .head) k.head, marks := [], dead := none, drained := none
      hrec := none, shr := sharedSpace g offer s }) s
    let s := forEach (headsOfEng g) (fun h s =>
      setHead h { headOf h s with ev := { (headOf h s).ev with hold := inHoldover s } } s) s
    if tags then removeEngine e 0x04 [0, 7] s else s

/-- Records offered at the release: destination, slot, bytes (R168, R226). -/
def offersOf (s : State) : List (Nat × Nat × List Byte) :=
  s.sup.moves.filterMap fun m =>
    if m.stage == .switched && m.record then
      ((engOf m.src s).core.hrec).map fun r => (m.dst, m.slot, r.1)
    else none

/-- A head that waits for nothing keeps no entries of the committed frame (R222). -/
def forgetKept (s : State) : State :=
  { s with heads := tabMap .reset (fun h x =>
      if (moveOf h s).any fun m => m.kind == 1 then x else { x with keptClosing := [] }) s.heads }

/-- The release of a commit; stepped are the heads whose HGEN it has stepped. -/
def release (stepped : List Nat) (s : State) : State :=
  let s := judgeMoves s
  let offers := offersOf s
  let s := { s with pmc := { s.pmc with shed := decide (2 ≤ thermCode s.pmc.therm) } }
  let s := { s with frame := { s.frame with closing := false, drained := none, events := [], late := [], removed := []
                                            withdrawn := [], headFlt := [], committedAt := some s.bell.phase
                                            holdOpen := inHoldover s } }
  let s := forEach s.sup.moves (finishMove stepped) s
  let s := forEach (s.engs.map (·.1)) examine s
  let s := rejoin s
  let s := forEach s.sup.moves placeOwn s
  let s := forEach s.sup.moves requestMove s
  let s := endRotation s
  let s := harbourExit (harbourEntry s)
  let s := chooseMoves s
  let s := forEach (s.engs.map (·.1)) (releaseEng offers) s
  forgetKept s

/-! ### The commit (R31, R137) -/

/-- Steps 1 and 2: events, HEAD_FLT, and the heads of late and removed engines; also the heads whose entry disturbs. -/
def commitHeads (s : State) : State × List Nat :=
  let late := lateHeads s
  let gone := removedHeads s
  let s := if s.dev.first then forEach (cfgHeads s) firstHead s else s
  let r := applyEvents (eventsOf s) s
  let s := applyHeadFlt r.1
  let s := forEach (s.engs.map (·.1)) noteServed s
  let s := forEach gone (failHead 0x25) (forEach (late.filter fun h => !gone.contains h) (failHead 0x22) s)
  let entered := sortKeys (r.2 ++ gone)
  let stepped := sortKeys (entered ++ late)
  let s := if s.dev.first then s else forEach stepped stepGen s
  (s, entered)

/-- Step 4 on the derived records, with what the landing brings to a commit. -/
def commitActions (s : State) : State :=
  let was := s.dev.mode
  let s := devResetStep (lockStep s)
  let s := forEach (cfgGroups s) resetStep s
  allCommands was s

/-- What a commit publishes and shows (R116, R284, R297, R342). -/
def commitShow (serving : List Nat) (l : List WheelRec) (s : State) : State :=
  let s := forEach (cfgGroups s) groupStep s
  let s := governAll serving (formDeck s)
  leadRecords l s

/-- An enable accepted ahead of the comparison is judged again after it: every condition holds at the commit that applies it,
or the command gets 0x20 (R252, R261). -/
def rejudge (l : List Taken) (g : Nat) (s : State) : State :=
  let s1 := modOrder g (fun o => { o with enable := false }) s
  let e := enblkOf g s1
  if !(orderOf g s).enable || e == 0 then s
  else reviseResults l (fun t r => r.code == 0x00 && t.op == 0x10 && t.f.obj.toNat == g) 0x20 e.toNat s1

/-- Steps 1 to 4 of a commit (R137); also the heads whose entry disturbs. -/
def commitSteps (s0 : State) : State × List Nat :=
  let d := s0.frame.drained.getD 0
  let s := openCommit { s0 with bell := { s0.bell with stat := bellStatNow s0, commitT := s0.bell.phase - d } }
  let r := commitHeads s
  (commitActions (deriveAll (passesOf (eventsOf s0)) (lateHeads s0) r.2 r.1), r.2)

/-- Steps 5 and 6, and the release: s0 is the state before the commit, r what steps 1 to 4 left. -/
def commitRest (w : CommitIn) (mism : List Nat) (s0 : State) (r : State × List Nat) : State :=
  let passes := passesOf (eventsOf s0)
  let out := s0.frame.late ++ s0.frame.removed.map (·.1)
  if r.1.dev.mode == .boot then leadRecords passes r.1
  else
    let s := refuseRestored s0.sup.taken (replacedSecs w mism r.1) (compareSecs w mism r.1)
    let s := forEach (cfgGroups r.1) (rejudge s0.sup.taken) (switchBanks s)
    let s := forEach (s.engs.map (·.1)) recordVerdict s
    let s := proveStep { s with dev := { s.dev with first := false } }
    let s := commitShow (servingEngs s0) passes s
    let s := forEach out emptySlots (forEach s0.frame.late outLate s)
    let s := { s with sup := { s.sup with cpokRun := s.sup.cpokRunC, cpOk := s.sup.cpOkC, cpDue := true, leadNow := none
                                          rotNext := rotCandidate s } }
    let s := release (sortKeys (r.2 ++ lateHeads s0)) s
    switchShown (publishCommit .hb (publishCommit .ha s))

/-- Every 256th landing tests the comparators (R238). -/
def testLanding (s : State) : Bool := s.bell.landNo.toNat % 256 == 0

/-- The output block of a supervisor that has made a commit, with the word it puts in at a test landing (R233, R238). -/
def outOf (test : Word) (s : State) : OutBlock :=
  { orders := s.sup.orders, mode := s.dev.mode, prior := s.dev.prior, htrans := s.dev.htrans
    restored := s.sup.dupSecs.map fun n => (n, secCode (secOf n s).state, (secOf n s).count, (secOf n s).gen)
    verdicts := s.engs.map fun p => (p.1, p.2.state), mem := memOf s.sup, test := if testLanding s then test else 0 }

/-- The first command on whose outcome the supervisors disagree (R234). -/
def disputed (a b : State) : Option Result := a.sup.results.find? fun r => !b.sup.results.contains r

/-- That command is refused with 0x0F (R150, R234). -/
def refuseTaken (r : Result) (s : State) : State :=
  sticky clsChk 0 2 { s with sup := { s.sup with
    taken := s.sup.taken.map fun t => if t.port == r.port && t.ix == r.ix then { t with cpFail := true } else t } }

/-- The state a commit starts from: at most n commands are refused before the supervisors agree on every outcome (R150, R234;
DEDUCED, log 127). -/
def settleTaken : Nat → State → State
  | 0, s => s
  | n + 1, s =>
    match disputed (commitSteps s).1 (commitSteps (viewB s)).1 with
    | some r => settleTaken n (refuseTaken r s)
    | none => s

/-- The commit of the closing frame: the commit sequencer compares the manifests, and each supervisor works on its own
memories and its own manifest (R137, R140, R233). -/
def commitBody (w : CommitIn) (s : State) : State :=
  let s0 := settleTaken s.sup.taken.length s
  let r := commitSteps s0
  let mism := differing w r.1
  let a := commitRest w mism s0 r
  let b := commitRest w mism (viewB s0) (commitSteps (viewB s0))
  if a.dev.mode == .boot then a
  else { a with sup := { a.sup with b := memOf b.sup, outA := outOf Config.testWord a, outB := outOf (~~~Config.testWord) b } }

/-- A removal or a loss may have left only drained engines: the drain is then complete (R31, R32). -/
def settleDrain (s0 : State) : State :=
  let s := passDeadline s0
  if s.frame.closing && s.frame.drained.isNone && allDrained s then drainComplete s else s

/-- A commit can complete: within 80 ticks of drain complete, with a manifest in service (R31, R36, R141). -/
def commitReady (s : State) : Bool :=
  commits s && s.frame.closing && (domOn 4 s || domOn 5 s) &&
  s.frame.drained.any fun d => decide (s.bell.phase ≤ d + 80)

def execCommit (w : CommitIn) (s : State) : Out :=
  let s1 := settleDrain s
  .next (if commitReady s1 then commitBody w s1 else s1)

/-- A manifest misses the 80 ticks: the commit completes with the pair failed, or the device goes to its safe state where
neither completes, which is so of both once the 80 ticks are over with no commit (R33, R36, R141). -/
def commitTimeout (aMissed bMissed : Bool) (s : State) : State :=
  let d := s.frame.drained.getD 0
  let past := decide (d + 80 < s.bell.phase)
  let s := sticky clsBell 0 5 (addTicks (d + 80 - s.bell.phase) s)
  if past || ((aMissed || !domOn 4 s) && (bMissed || !domOn 5 s)) then enterSafe 0x03 s
  else commitBody .clean { s with man := { s.man with failNext := true } }

def execCommitTimeout (aMissed bMissed : Bool) (s : State) : Out :=
  let s1 := settleDrain s
  let missed := aMissed || bMissed || !(domOn 4 s1 || domOn 5 s1) ||
    s1.frame.drained.any fun d => decide (d + 80 < s1.bell.phase)
  .next (if commits s1 && s1.frame.closing && s1.frame.drained.isSome && missed then
    commitTimeout aMissed bMissed s1 else s1)

/-- The commit at which a sweep's time is up (R154). -/
def sweepExpired (n : Nat) (s : State) : Bool :=
  (secOf n s).state == .sweepPending && decide (s.img.cfg.sweepTmo * 10000000 < elapsed s.bell.tickTime (secOf n s).sweepAt)

def execSweepTimeout (n : SecIx) (s : State) : Out :=
  let s1 := settleDrain s
  .next (if commitReady s1 && sweepExpired n s1 then commitBody .clean s1 else s1)

end Sys2Proof.Machine
end

