-- ==== Sys2Proof/Machine/Landing.lean ====
section
/-! DEFINITION. The passage of bell time: ticks, landing ticks, presets, holdover entry, expiry of references; and the
supervisor checkpoint (R23 to R46, R77, R221, R234 to R238, R263). -/

namespace Sys2Proof.Machine

/-! ### What a landing tick does to the streams (R31, R70, R77, R221) -/

/-- The end-of-frame marks of a serving engine's slots. -/
def markEngine (e : Nat) (s : State) : State :=
  let g := engOf e s
  if g.state == .service then
    forEach g.slots (fun p => writeEntry e p.1 (markEntry (p.2 - 1) s.bell.time)) s
  else s

/-- The entries kept in the frame that closes are kept on while the head waits after a withdrawal (R222). -/
def turnKept (s : State) : State :=
  { s with heads := tabMap .reset (fun h x =>
      let on := (moveOf h s).any fun m => m.kind == 1
      { x with keptClosing := (if on then x.keptClosing else []) ++ x.keptOpen, keptOpen := [] }) s.heads }

/-- The merge units close every stream, and streams change engines. -/
def closeStreams (s : State) : State :=
  let s := ringsTick s
  let s := forEach (cfgHeads s) (flushBubble true) s
  let s := forEach (s.engs.map (·.1)) markEngine s
  switchMoves (turnKept s)

/-- The rings that deliver (R315). -/
def ringsNow (s : State) : List Nat :=
  (cfgRings s).filter fun k => (ringOf k s).state == .closed || (ringOf k s).state == .open

/-- The frame closes; with no in-service engine the drain is complete at once (R31, R32). -/
def closeFrame (s : State) : State :=
  { s with
    frame := { s.frame with closing := true, drained := if (servingEngs s).isEmpty then some 0 else none
                            committedAt := none, ringsUp := ringsNow s }
    bell := { s.bell with drainT := if (servingEngs s).isEmpty then 0 else s.bell.drainT } }

/-- A checkpoint whose digests have not come by the next landing tick has failed (R235, R237). -/
def failCheckpoint (bits : List Nat) (s : State) : State :=
  forEach bits (sticky clsChk 0) { s with sup := { s.sup with
    cpDue := false, cpOkC := false, cpokRunC := 0, lockNext := true, orders := none, sent := none } }

/-- Both mailboxes are taken; a failed checkpoint, or a disagreement on an entry, refuses it with 0x0F (R234, R292). -/
def takeMailboxes (failed : Bool) (disagree : List (Bool × Nat)) (s : State) : State :=
  let s := copyMailbox .hb (copyMailbox .ha s)
  let hit := fun t : Taken => disagree.contains (t.port == .hb, t.ix)
  let s := stickyIf (s.sup.taken.any hit) clsChk 0 2 s
  { s with sup := { s.sup with taken := s.sup.taken.map fun t => { t with cpFail := failed || hit t } } }

/-- Errors come into the memories of the engines in service and of the supervisors (R163, R377; DESIGN CHOICE, log 107: at a
landing tick). -/
def upsetTick (w : TickIn) (s : State) : State :=
  let s := forEach (w.upsets.filter fun p => domOn (engDom p.1) s) (fun p =>
    modEng p.1 fun g => { g with core := addError p.2 g.core }) s
  { s with sup := { s.sup with ceA := min 0xFFFF (s.sup.ceA + w.supCe.1), ceB := min 0xFFFF (s.sup.ceB + w.supCe.2) } }

/-- The landing number of the tick: one more, or the preset (R27, R29, R46). -/
def nextLanding (preset : Bool) (s : State) : State :=
  if preset then { s with bell := { s.bell with landNo := s.bell.landPreset } }
  else
    { s with bell := { s.bell with
        landNo := s.bell.landNo + 1
        wrapLand := if s.bell.landNo == 0xFFFFFFFF then satInc 255 s.bell.wrapLand else s.bell.wrapLand } }

/-- The bell at a landing tick: phase, period, source, and the count of holdover landings (R28, R29, R43, R52). -/
def bellTick (s : State) : State :=
  let s := { s with bell := { s.bell with
    phase := 0, frameLen := s.bell.period, tickTime := s.bell.time
    holdLand := if inHoldover s then satInc 0xFFFFFFFF s.bell.holdLand else s.bell.holdLand } }
  holdoverExitTick s

/-- Holdover rates further apart than 1.2 percent are a disagreement with neither tree at fault (R40). -/
def rateCheck (bad : Bool) (s : State) : State :=
  if bad && inHoldover s && !s.bell.outA && !s.bell.outB then enterSafe 0x04 (sticky clsBell 0 1 s) else s

/-- A landing tick, at the bell time reached (R31, R33). -/
def landingAt (preset : Bool) (w : TickIn) (s : State) : State :=
  let prev := s.bell.landNo
  let s := if s.frame.closing && commits s then enterSafe 0x03 s else s
  let s := if commits s && s.sup.cpDue then takeMailboxes true [] (failCheckpoint [1] s) else s
  let s := bellTick (nextLanding preset s)
  let s := if commits s then closeFrame (closeStreams s) else s
  let s := rateCheck w.rateBad (treeCheck w.skew s)
  let s := silentTick .hb (silentTick .ha s)
  let s := pmcTick w (upsetTick w (reportTick w.badReport s))
  let s := harbourTick s
  let s := safioTick prev s
  let s := releaseFaultN (persist s)
  if s.dev.startReq && s.dev.mode == .boot then
    { s with dev := { s.dev with startReq := false, startTick := true } }
  else s

/-- A preset asked for by LOAD is due at the next bell tick (R27). -/
def loadDue (s : State) : Bool := s.bell.load && !s.bell.locked

/-- The bell tick at which a preset takes effect (R27). -/
def presetTick (w : TickIn) (s : State) : State := landingAt true w (takePreset false (addTicks 1 s))

/-- The bell runs on to its next landing tick; a drain deadline on the way acts (R31). -/
def runToLanding (w : TickIn) (s : State) : State :=
  if !bellRuns s then s
  else if loadDue s then presetTick w s
  else landingAt false w (passDeadline (addTicks (s.bell.frameLen - s.bell.phase) s))

def execLandingTick (w : TickIn) (s : State) : Out := .next (runToLanding w s)

/-- One bell tick; the drain deadline acts at its own tick (R31). -/
def bellTickOne (s : State) : State :=
  if !bellRuns s then s
  else if loadDue s || decide (s.bell.frameLen ≤ s.bell.phase + 1) then runToLanding .quiet s
  else passDeadline (addTicks 1 s)

def execPresetLoad (s : State) : Out := .next (if bellRuns s && loadDue s then presetTick .quiet s else s)

def execBellTimeWrap (s : State) : Out :=
  .next (if s.bell.time == 0xFFFFFFFFFFFF then bellTickOne s else s)

def execLandingNumberWrap (w : TickIn) (s : State) : Out :=
  .next (if s.bell.landNo == 0xFFFFFFFF && !loadDue s then runToLanding w s else s)

/-- The three ticks whose edges were missing are added at the entry into holdover (R41). -/
def execHoldoverEntry (missing : Bool) (s : State) : Out :=
  let s1 := if missing && !s.bell.hold then bellTickOne (bellTickOne (bellTickOne s)) else s
  .next (enterHoldover s1)

/-- A BELLPPS edge; a pending LOAD_PPS takes effect at it (R26, R27). -/
def execBellppsEdge (s : State) : Out :=
  .next (if !bellRuns s then s
    else if ppsLoads s then landingAt true .quiet (stampPps (takePreset true s)) else stampPps s)

/-! ### Expiry of references (R45) -/

def oldBell (t : Bell) (s : State) : Bool := decide (2 ^ 46 < elapsed s.bell.time t)
def oldLand (n : Word) (s : State) : Bool := decide (2 ^ 30 < elapsedLand s.bell.landNo n)

/-- A bell time past the limit stays as old as the limit, so that it compares as stale from there on. -/
def clampBell (s : State) (t : Bell) : Bell := if oldBell t s then s.bell.time - 0x400000000000 else t

/-- The same for a landing number. -/
def clampLand (s : State) (n : Word) : Word := if oldLand n s then s.bell.landNo - 0x40000000 else n

/-- A bell time past the limit is forgotten. -/
def freshBell (s : State) (t : Option Bell) : Option Bell := t.filter fun t => !oldBell t s

/-- A sweep start that is too old (R153). -/
def expireSweep (s : State) (r : Sec) : Sec := if r.sweepLive && oldBell r.sweepAt s then { r with sweepLive := false } else r

/-- The bell's references (R25, R26, R42). -/
def expireBell (s : State) (b : BellSt) : BellSt :=
  { b with
    ppsRef := b.ppsRef && !oldBell b.ppsMark s, ppsMark := clampBell s b.ppsMark, loadPpsAt := clampBell s b.loadPpsAt
    trimAtA := clampBell s b.trimAtA, trimAtB := clampBell s b.trimAtB
    ssStart := b.ssStart.map (clampBell s) }

/-- A ring's references (R63, R68). -/
def expireRing (s : State) (_ : Nat) (r : Ring) : Ring :=
  { r with stepAt := clampBell s r.stepAt, cmds := r.cmds.map fun c => { c with sentAt := clampBell s c.sentAt } }

/-- A GN8's references (R70, R74, R76, R109). -/
def expireGn8 (s : State) (_ : Nat) (g : Gn8) : Gn8 :=
  { g with
    start := freshBell s g.start, recent := g.recent.filter fun x => !oldBell x.inst.at_ s
    lastValid := g.lastValid.map (clampBell s), lastValidLand := clampLand s g.lastValidLand
    lastUnsync := freshBell s g.lastUnsync, lastDiscard := freshBell s g.lastDiscard, gridAt := freshBell s g.gridAt }

/-- A sensor system's references (R88, R91). -/
def expireSys (s : State) (x : SysEval) : SysEval :=
  { x with
    runAt := clampBell s x.runAt, before := x.before.filter fun p => !oldBell p.1 s, last := x.last.filter fun p => !oldBell p.1 s
    rise := clampBell s x.rise, fall := clampBell s x.fall }

/-- A head's references: the previous wheel, the passage and its times (R91, R96, R99, R111). -/
def expireEval (s : State) (x : Eval) : Eval :=
  { x with
    a := expireSys s x.a, b := expireSys s x.b, changedAt := clampBell s x.changedAt, firstEdge := freshBell s x.firstEdge
    quietAt := clampBell s x.quietAt, prev := x.prev.filter fun p => !oldBell p.1 s }

/-- An engine's windows; one as old as the limit still counts as aged (R218, R231). -/
def expireWindow (s : State) (_ : Nat) (g : Eng) : Eng :=
  { g with winStart := g.winStart.map (clampBell s), winEnd := g.winEnd.map (clampBell s) }

/-- A group's timers (R254 to R259). -/
def expireGrp (s : State) (_ : Nat) (g : Grp) : Grp :=
  let c := fun t : Option Bell => t.map (clampBell s)
  { g with
    since := clampBell s g.since, ss1At := clampBell s g.ss1At, stillAt := c g.stillAt, fbDisc := c g.fbDisc
    fbBad := c g.fbBad, dropAt := c g.dropAt, gdDisc := c g.gdDisc, gAt := c g.gAt, gbAt := c g.gbAt, winAt := c g.winAt
    riseLand := g.riseLand.map (clampLand s), lrstAt := c g.lrstAt, edgeA := freshBell s g.edgeA, edgeB := freshBell s g.edgeB
    faultLand := g.faultLand.filter fun n => !oldLand n s }

/-- A domain's times; a slew that has ended is forgotten (R327, R328, R335). -/
def expireDom (s : State) (_ : Nat) (d : Dom) : Dom :=
  { d with
    slew := slewOf s.bell.time d, startAt := clampBell s d.startAt, xonAt := d.xonAt.filter fun x => !oldBell x.2 s }

/-- Each landing, every stored reference past its limit expires: it is forgotten, or it stays as old as the limit. -/
def expireRefs (s : State) : State :=
  let sweepA := fun (_ : Nat) r => expireSweep s r
  let sweepB := fun (_ : Nat) r => if !(r : SecB).sweepLive && oldBell (~~~r.sweepAt) s then { r with sweepLive := true } else r
  { s with
    bell := expireBell s s.bell
    rings := tabMap .reset (expireRing s) s.rings
    gn8s := tabMap .reset (expireGn8 s) s.gn8s
    heads := tabMap .reset (fun _ h => { h with ev := expireEval s h.ev }) s.heads
    engs := tabMap .reset (expireWindow s) s.engs
    man := { s.man with
      a := tabMap .reset sweepA s.man.a, comA := tabMap .reset sweepA s.man.comA
      b := tabMap (codeB .reset) sweepB s.man.b, comB := tabMap (codeB .reset) sweepB s.man.comB
      mismatchLands := s.man.mismatchLands.filter fun n => !oldLand n s }
    sup := (modPend (fun l => l.map fun r => if oldBell r.at_ s then { r with live := false } else r) s).sup
    saf := { s.saf with
      groups := tabMap .reset (expireGrp s) s.saf.groups, sealAt := s.saf.sealAt.map (clampBell s)
      devAt := s.saf.devAt.map (clampBell s), devRise := s.saf.devRise.map (clampLand s) }
    pmc := { s.pmc with
      doms := tabMap .reset (expireDom s) s.pmc.doms, engAt := s.pmc.engAt.map (clampBell s)
      trans := s.pmc.trans.filter fun t => !oldBell t s }
    img := { s.img with at_ := clampBell s s.img.at_ }
    dev := { s.dev with proveAt := clampBell s s.dev.proveAt, seqLand := clampLand s s.dev.seqLand } }

def execReferenceExpiry (s : State) : Out := .next (expireRefs s)

/-! ### The checkpoint (R234 to R238) -/

/-- Ticks from commit completion to the checkpoint deadline (R235). -/
def cpTicks : Nat := 1240

/-- A digest has not come by the deadline: its supervisor's domain is out, or the time is up (R235). -/
def cpLate (s : State) : Bool :=
  !domOn 6 s || !domOn 7 s || s.frame.committedAt.any fun t => decide (t + cpTicks < s.bell.phase)

/-- The comparators do not both report a match of the digests (R234, R237). -/
def cpMismatch (w : CheckIn) (s : State) : Bool := s.sup.digA != s.sup.digB || !w.reportA || !w.reportB

/-- The bits of CHK_FLT of a checkpoint that fails, none where it passes (R237, R238); digests of the landing are in. At a
test landing a comparator that fails the test, or finds any other difference, sets CP_TEST as well; the test words differ where
supervisor B has put in the complement of supervisor A's. -/
def cpFailure (w : CheckIn) (s : State) : List Nat :=
  (if cpLate s then [1] else if cpMismatch w s then [0] else []) ++
  (if testLanding s && (!w.testA || !w.testB || s.sup.outA.test != ~~~s.sup.outB.test ||
    (!cpLate s && s.sup.digA != s.sup.digB)) then [3] else [])

/-- The safety part of an output block: everything but the command results; the test word is compared by itself (R234, R238). -/
def safetyPart (o : OutBlock) : OutBlock := { o with mem := { o.mem with results := [] }, test := 0 }

/-- A safety digest: the CRC-32C of the landing number and the safety part (R234). -/
def digestOf (land : Word) (o : OutBlock) : Word := crc32c (leBytes 4 land.toNat ++ blockBytes (safetyPart o))

/-- The digests of the landing, with the bits a fault changes (R234). -/
def takeDigests (errA errB : Word) (s : State) : State :=
  { s with sup := { s.sup with
      digA := if domOn 6 s then digestOf s.bell.landNo s.sup.outA ^^^ errA else s.sup.digA
      digB := if domOn 7 s then digestOf s.bell.landNo s.sup.outB ^^^ errB else s.sup.digB } }

/-- A checkpoint that passes releases the orders, the images and the deck-load frames (R236, R284, R298). -/
def passCheckpoint (s : State) : State :=
  let s := agreeMoves { s with sup := { s.sup with
    cpDue := false, cpOkC := true, cpokRunC := satInc 0xFFFF s.sup.cpokRunC, sent := s.sup.orders, orders := none } }
  let s := publishPassed .hb (publishPassed .ha s)
  writeDeck .hb (writeDeck .ha s)

def checkpoint (w : CheckIn) (s : State) : State :=
  let s := takeDigests w.errA w.errB { s with sup := { s.sup with passA := w.passA, passB := w.passB } }
  match cpFailure w s with
  | [] => takeMailboxes false w.disagree (passCheckpoint s)
  | bits => takeMailboxes true w.disagree (failCheckpoint bits s)

def execCheckpoint (w : CheckIn) (s : State) : Out := .next (if commits s && s.sup.cpDue then checkpoint w s else s)

/-- The bell runs on to the deadline: 1 240 ticks after the commit, or just ahead of the landing tick (R235). -/
def execCheckpointDeadline (s : State) : Out :=
  if commits s && s.sup.cpDue then
    let t := min ((s.frame.committedAt.getD 0) + cpTicks) (s.bell.frameLen - 1)
    .next (takeMailboxes true [] (failCheckpoint [1] (addTicks (t - s.bell.phase) s)))
  else .next s

/-! ### The dead-man (R263) -/

/-- The landing tick at which a second consecutive pair is missing. -/
def execDeadmanExpiry (s : State) : Out :=
  let due := safioOn s && s.saf.watching && s.saf.expecting && s.saf.miss == 1 &&
    !(s.saf.accepted && s.saf.tokLand == s.bell.landNo)
  .next (if due then runToLanding .quiet s else s)

end Sys2Proof.Machine
end

