-- ==== Sys2Proof/Machine/Regs.lean ====
section
/-! DEFINITION. Writes to BAR0 (R301, R376 to R381, R390). -/

namespace Sys2Proof.Machine

/-! ### The HOST block (R301, R302) -/

/-- Bits 31:12 of an address; a base register keeps no others (R302). -/
def baseLo (b : BitVec 64) (v : Word) : BitVec 64 := ((b >>> 32).setWidth 32 : Word) ++ (v &&& 0xFFFFF000)
def baseHi (b : BitVec 64) (v : Word) : BitVec 64 := v ++ (b.setWidth 32 : Word)

def keyEn (h : PortSt) : Bool := h.ctl.getLsbD 3

/-- HOST_IRQST: a cause that comes in the same tick stays (R356, R390). -/
def clearIrq (p : HostId) (v : Word) (s : State) : State :=
  let mask := v.setWidth 8 &&& ~~~((freshReg (clsHost p) 1 s).setWidth 8 : Byte)
  modHost p (fun h => { h with irqSt := h.irqSt &&& ~~~mask })
    { s with flt := { s.flt with faultN := s.flt.faultN || fltSum s != 0 } }

/-- A write in the HOST block of a port. -/
def hostWrite (p : HostId) (off : Nat) (v : Word) (s : State) : State :=
  match off with
  | 0x04 => modHost p (fun h => { h with ctl := v.setWidth 4 }) s
  | 0x08 => writePub p v s
  | 0x0C => modHost p (fun h => { h with beat := true }) s
  | 0x10 => gatedWrite p imgEn (fun h => { h with imgBase := baseLo h.imgBase v }) s
  | 0x14 => gatedWrite p imgEn (fun h => { h with imgBase := baseHi h.imgBase v }) s
  | 0x18 => gatedWrite p wrEn (fun h => { h with wrBase := baseLo h.wrBase v }) s
  | 0x1C => gatedWrite p wrEn (fun h => { h with wrBase := baseHi h.wrBase v }) s
  | 0x20 => gatedWrite p wrEn (fun h => { h with wrSize := bitsNat v.toNat 0 5 }) s
  | 0x24 => writeRidx p v s
  | 0x30 => gatedWrite p dlEn (fun h => { h with dlBase := baseLo h.dlBase v }) s
  | 0x34 => gatedWrite p dlEn (fun h => { h with dlBase := baseHi h.dlBase v }) s
  | 0x38 => gatedWrite p keyEn (fun h => { h with keyBase := baseLo h.keyBase v }) s
  | 0x3C => gatedWrite p keyEn (fun h => { h with keyBase := baseHi h.keyBase v }) s
  | 0x50 => modHost p (fun h => { h with irqEn := v.setWidth 8 }) s
  | 0x54 => clearIrq p v s
  | 0x60 => w1c p (clsHost p) 0 v s
  | q => if 0x800 ≤ q && q < 0x880 then modHost p (writeMsix ((q - 0x800) / 4) v) s else s

/-! ### The other blocks -/

/-- A write in the BELL block (R378, R380). -/
def bellWrite (p : HostId) (off : Nat) (v : Word) (s : State) : State :=
  if off = 0x60 then w1c p clsBell 0 v s else bellTake off v s

/-- A load is in progress (R380). -/
def loadRuns (s : State) : Bool := s.img.state == .checking || s.img.state == .distributing

/-- IMG_LEN is writable in BOOT with no load in progress (R380). -/
def writeImgLen (v : Word) (s : State) : State :=
  if s.dev.mode == .boot && !loadRuns s then { s with img := { s.img with len := bitsNat v.toNat 0 24 } } else s

def imgWrite (p : HostId) (off : Nat) (v : Word) (s : State) : State :=
  match off with
  | 0x00 => if v.getLsbD 0 then loadWrite p s else s
  | 0x04 => writeImgLen v s
  | 0xF0 => w1c p clsImg 0 v s
  | _ => s

/-- CHK_SEL (R243). -/
def writeChkSel (p : HostId) (v : Word) (s : State) : State :=
  modHost p (fun h => { h with selHead := bitsNat v.toNat 0 9, selEng := bitsNat v.toNat 16 9 }) s

/-- A write in one of the blocks whose only writable registers are sticky, but for selectors and actions. -/
def otherWrite (p : HostId) (off : Nat) (v : Word) (s : State) : State :=
  match off with
  | 0x00008 => if v.getLsbD 0 then requestStart s else s
  | 0x00020 => w1c p clsDev 0 v s
  | 0x02700 => w1c p clsRing 0 v s
  | 0x0E030 => writeChkSel p v s
  | 0x0E040 => w1c p clsChk 0 v s
  | 0x100FC => w1c p clsSafio 0 v s
  | 0x1380C => w1c p clsPmc 0 v s
  | 0x14060 => w1c p clsTherm 0 v s
  | 0x15024 => if v.getLsbD 0 then clearFirst s else s
  | 0x15030 => w1c p clsFlt 0 v s
  | 0x16004 => modHost p (fun h => { h with selPid := bitsNat v.toNat 0 16 }) s
  | 0x16010 => w1c p clsParam 0 v s
  | _ => s

/-- The sticky registers of an array: HEAD, SEC, ENG, SG and PMC_DOM (R376). -/
def arrayWrite (p : HostId) (off : Nat) (v : Word) (s : State) : Option State :=
  let at_ := fun base span last fltOff cls =>
    if base ≤ off ∧ (off - base) / span ≤ last ∧ (off - base) % span = fltOff then
      some (w1c p cls ((off - base) / span) v s)
    else none
  (at_ 0x4000 0x20 511 0x1C clsHead).orElse fun _ =>
    (at_ 0x8000 0x20 511 0x1C clsSec).orElse fun _ =>
      (at_ 0xC000 0x10 511 0xC clsEng).orElse fun _ =>
        (at_ 0x10000 0x100 15 0x7C clsSg).orElse fun _ => at_ 0x13000 0x40 29 0x3C clsDom

/-- One DW written at an offset of BAR0 (R376 to R380); what no field takes is discarded with no fault. -/
def bar0Write (p : HostId) (off : Nat) (v : Word) (s : State) : State :=
  if off / 0x1000 = 0x11 then hostWrite p (off - 0x11000) v s
  else if off / 0x1000 = 0x01 then bellWrite p (off - 0x1000) v s
  else if off / 0x1000 = 0x12 then imgWrite p (off - 0x12000) v s
  else (arrayWrite p off v s).getD (otherWrite p off v s)

/-- One DW of a request: with a byte enable clear it is discarded and sets HOST_FLT.CFG; a register whose holding domain is out
takes no write (R379, R381, R385). -/
def writeDw (p : HostId) (off : Nat) (v : Word) (be : BitVec 4) (s : State) : State :=
  if be != 0xF then sticky (clsHost p) 0 0 s
  else if holdOn off s then bar0Write p off v s
  else s

/-- The DWs of a request, in ascending order of address (R381). -/
def writeDws (p : HostId) (off : Nat) (dws : List (Word × BitVec 4)) (s : State) : State :=
  forEach dws.zipIdx (fun d => writeDw p (off + 4 * d.2) d.1.1 d.1.2) s

/-- BAR0 serves a request of n DWs from an offset: aligned, 1 to 16 DWs, wholly inside the 256 KiB (R275, R381). -/
def bar0Serves (off n : Nat) : Bool := off % 4 == 0 && decide (1 ≤ n) && decide (n ≤ 16) && decide (off + 4 * n ≤ 0x40000)

/-- A write request of some DWs (R381). -/
def requestWrite (p : HostId) (off : BitVec 18) (dws : List (Word × BitVec 4)) (poisoned : Bool) (s : State) : State :=
  if !hostUp p s then s
  else
    popRx p (let s := pushRx p (off.toNat, dws.flatMap fun d => (wordBytes d.1).map some) s
      if !bar0Serves off.toNat dws.length then unsupported p s
      else if poisoned then poisonedReq p s
      else writeDws p off.toNat dws s)

/-- REGISTER_WRITE: its first DW with its byte enables, and those behind it. -/
def execRegisterWrite (p : HostId) (off : BitVec 18) (dw : Word × BitVec 4) (more : List (Word × BitVec 4)) (poisoned : Bool)
    (s : State) : Out :=
  .next (requestWrite p off (dw :: more) poisoned s)

/-! ### Reads (R378, R381, R387) -/

/-- The side effect of a read: the latches of R51 alone have one (R378). -/
def readEffect (p : HostId) (off : Nat) (s : State) : State :=
  if canAccess p (bellDom s) s then
    if off = 0x1010 then readTimeLo p s else if off = 0x1030 then readPpsLo p s else s
  else s

/-- What a read of n DWs from an offset returns, and the state it leaves: the DWs are read one after the other, all at one
bell time and from one commit (R381); none comes of a request BAR0 does not serve. -/
def readDws (p : HostId) : Nat → Nat → State → List Word × State
  | _, 0, s => ([], s)
  | off, n + 1, s =>
    let r := readDws p (off + 4) n (readEffect p off s)
    (bar0Read p off s :: r.1, r.2)

def readRequest (p : HostId) (off n : Nat) (s : State) : List Word × State :=
  if !hostUp p s then ([], s)
  else if bar0Serves off n then readDws p off n s
  else ([], unsupported p s)

end Sys2Proof.Machine
end

