-- ==== Sys2Proof/Machine/Dispatch.lean ====
section
/-! DEFINITION. One arm per command: each calls its meaning. -/

namespace Sys2Proof.Machine

def exec (i : Instr) (s : State) : Host.Outcome State Fault Refusal :=
  match i with
  | .powerUp => Sys2Proof.Machine.execPowerUp s
  | .domainInService d => Sys2Proof.Machine.execDomainInService d s
  | .domainStartTimeout d => Sys2Proof.Machine.execDomainStartTimeout d s
  | .engDomainStart => Sys2Proof.Machine.execEngDomainStart s
  | .resetNAssert => Sys2Proof.Machine.execResetNAssert s
  | .resetNRelease => Sys2Proof.Machine.execResetNRelease s
  | .trunkFault x => Sys2Proof.Machine.execTrunkFault x s
  | .vaonLoss => Sys2Proof.Machine.execVaonLoss s
  | .vio33Loss => Sys2Proof.Machine.execVio33Loss s
  | .vlnkLoss => Sys2Proof.Machine.execVlnkLoss s
  | .vpciLoss vph18 => Sys2Proof.Machine.execVpciLoss vph18 s
  | .landingTick w => Sys2Proof.Machine.execLandingTick w s
  | .bellTimeWrap => Sys2Proof.Machine.execBellTimeWrap s
  | .landingNumberWrap w => Sys2Proof.Machine.execLandingNumberWrap w s
  | .referenceExpiry => Sys2Proof.Machine.execReferenceExpiry s
  | .refMeasure t dev missing => Sys2Proof.Machine.execRefMeasure t dev missing s
  | .holdoverEntry missing => Sys2Proof.Machine.execHoldoverEntry missing s
  | .holdoverExit => Sys2Proof.Machine.execHoldoverExit s
  | .safeStopTimerExpiry => Sys2Proof.Machine.execSafeStopTimerExpiry s
  | .treeDisagreement aFault bFault => Sys2Proof.Machine.execTreeDisagreement aFault bFault s
  | .bellppsEdge => Sys2Proof.Machine.execBellppsEdge s
  | .ppsSeenExpiry => Sys2Proof.Machine.execPpsSeenExpiry s
  | .bellLoad p => Sys2Proof.Machine.execBellLoad p s
  | .bellLoadPps p => Sys2Proof.Machine.execBellLoadPps p s
  | .presetLoad => Sys2Proof.Machine.execPresetLoad s
  | .bellPeriodWrite p v => Sys2Proof.Machine.execBellPeriodWrite p v s
  | .bellTimeLoRead p => Sys2Proof.Machine.execBellTimeLoRead p s
  | .bellPpsLoRead p => Sys2Proof.Machine.execBellPpsLoRead p s
  | .wlandDrained e => Sys2Proof.Machine.execWlandDrained e s
  | .drainDeadline => Sys2Proof.Machine.execDrainDeadline s
  | .commit w => Sys2Proof.Machine.execCommit w s
  | .sweepTimeout n => Sys2Proof.Machine.execSweepTimeout n s
  | .commitTimeout aMissed bMissed => Sys2Proof.Machine.execCommitTimeout aMissed bMissed s
  | .proveTimeout => Sys2Proof.Machine.execProveTimeout s
  | .selftestComplete failed => Sys2Proof.Machine.execSelftestComplete failed s
  | .harbourDispersalStart g => Sys2Proof.Machine.execHarbourDispersalStart g s
  | .decimationGridChange g => Sys2Proof.Machine.execDecimationGridChange g s
  | .checkpoint w => Sys2Proof.Machine.execCheckpoint w s
  | .checkpointDeadline => Sys2Proof.Machine.execCheckpointDeadline s
  | .tokenPair tokA tokB landA landB sameOrders => Sys2Proof.Machine.execTokenPair tokA tokB landA landB sameOrders s
  | .deadmanExpiry => Sys2Proof.Machine.execDeadmanExpiry s
  | .notickTimeout => Sys2Proof.Machine.execNotickTimeout s
  | .ss1Standstill g => Sys2Proof.Machine.execSs1Standstill g s
  | .ss1Timeout g => Sys2Proof.Machine.execSs1Timeout g s
  | .fbWindowExpiry g => Sys2Proof.Machine.execFbWindowExpiry g s
  | .feedbackChange g ch level => Sys2Proof.Machine.execFeedbackChange g ch level s
  | .guardChange g ch level => Sys2Proof.Machine.execGuardChange g ch level s
  | .guardDiscrepancyTimeout g => Sys2Proof.Machine.execGuardDiscrepancyTimeout g s
  | .lrstChange g level => Sys2Proof.Machine.execLrstChange g level s
  | .resetWindowExpiry g => Sys2Proof.Machine.execResetWindowExpiry g s
  | .lrstStuck g => Sys2Proof.Machine.execLrstStuck g s
  | .encoderEdge g la lb => Sys2Proof.Machine.execEncoderEdge g la lb s
  | .readbackFault g o => Sys2Proof.Machine.execReadbackFault g o s
  | .sealRead => Sys2Proof.Machine.execSealRead s
  | .sealReadDone bits => Sys2Proof.Machine.execSealReadDone bits s
  | .frameReceive p groups gap => Sys2Proof.Machine.execFrameReceive p groups gap s
  | .sampleFrame p => Sys2Proof.Machine.execSampleFrame p s
  | .markerFrame p => Sys2Proof.Machine.execMarkerFrame p s
  | .statusFrame p => Sys2Proof.Machine.execStatusFrame p s
  | .markerSend => Sys2Proof.Machine.execMarkerSend s
  | .commandRetry k => Sys2Proof.Machine.execCommandRetry k s
  | .instantMissing g => Sys2Proof.Machine.execInstantMissing g s
  | .directionLoss g => Sys2Proof.Machine.execDirectionLoss g s
  | .directionRegain g => Sys2Proof.Machine.execDirectionRegain g s
  | .gn8OutTimeout g => Sys2Proof.Machine.execGn8OutTimeout g s
  | .digestCheck g digest => Sys2Proof.Machine.execDigestCheck g digest s
  | .linkUp p => Sys2Proof.Machine.execLinkUp p s
  | .linkDown p why => Sys2Proof.Machine.execLinkDown p why s
  | .discoveryTimeout k => Sys2Proof.Machine.execDiscoveryTimeout k s
  | .sampleEvaluate h => Sys2Proof.Machine.execSampleEvaluate h s
  | .bubbleRead h => Sys2Proof.Machine.execBubbleRead h s
  | .sysokFault h => Sys2Proof.Machine.execSysokFault h s
  | .standingEntry h => Sys2Proof.Machine.execStandingEntry h s
  | .suspectExit h => Sys2Proof.Machine.execSuspectExit h s
  | .sysokFaultExit h => Sys2Proof.Machine.execSysokFaultExit h s
  | .learningWindowJudge h => Sys2Proof.Machine.execLearningWindowJudge h s
  | .baselineTrack h => Sys2Proof.Machine.execBaselineTrack h s
  | .add e c rd rs1 rs2 => Sys2Proof.Machine.execAdd e c rd rs1 rs2 s
  | .sub e c rd rs1 rs2 => Sys2Proof.Machine.execSub e c rd rs1 rs2 s
  | .and e c rd rs1 rs2 => Sys2Proof.Machine.execAnd e c rd rs1 rs2 s
  | .or e c rd rs1 rs2 => Sys2Proof.Machine.execOr e c rd rs1 rs2 s
  | .xor e c rd rs1 rs2 => Sys2Proof.Machine.execXor e c rd rs1 rs2 s
  | .sll e c rd rs1 rs2 => Sys2Proof.Machine.execSll e c rd rs1 rs2 s
  | .srl e c rd rs1 rs2 => Sys2Proof.Machine.execSrl e c rd rs1 rs2 s
  | .sra e c rd rs1 rs2 => Sys2Proof.Machine.execSra e c rd rs1 rs2 s
  | .slt e c rd rs1 rs2 => Sys2Proof.Machine.execSlt e c rd rs1 rs2 s
  | .sltu e c rd rs1 rs2 => Sys2Proof.Machine.execSltu e c rd rs1 rs2 s
  | .mul e c rd rs1 rs2 => Sys2Proof.Machine.execMul e c rd rs1 rs2 s
  | .mulh e c rd rs1 rs2 => Sys2Proof.Machine.execMulh e c rd rs1 rs2 s
  | .mulhu e c rd rs1 rs2 => Sys2Proof.Machine.execMulhu e c rd rs1 rs2 s
  | .min e c rd rs1 rs2 => Sys2Proof.Machine.execMin e c rd rs1 rs2 s
  | .max e c rd rs1 rs2 => Sys2Proof.Machine.execMax e c rd rs1 rs2 s
  | .minu e c rd rs1 rs2 => Sys2Proof.Machine.execMinu e c rd rs1 rs2 s
  | .maxu e c rd rs1 rs2 => Sys2Proof.Machine.execMaxu e c rd rs1 rs2 s
  | .abs e c rd rs1 => Sys2Proof.Machine.execAbs e c rd rs1 s
  | .clz e c rd rs1 => Sys2Proof.Machine.execClz e c rd rs1 s
  | .addi e c rd rs1 imm => Sys2Proof.Machine.execAddi e c rd rs1 imm s
  | .andi e c rd rs1 imm => Sys2Proof.Machine.execAndi e c rd rs1 imm s
  | .ori e c rd rs1 imm => Sys2Proof.Machine.execOri e c rd rs1 imm s
  | .xori e c rd rs1 imm => Sys2Proof.Machine.execXori e c rd rs1 imm s
  | .slti e c rd rs1 imm => Sys2Proof.Machine.execSlti e c rd rs1 imm s
  | .sltiu e c rd rs1 imm => Sys2Proof.Machine.execSltiu e c rd rs1 imm s
  | .shi e c rd rs1 kind sh => Sys2Proof.Machine.execShi e c rd rs1 kind sh s
  | .lui e c rd imm => Sys2Proof.Machine.execLui e c rd imm s
  | .lw e c rd rs1 off => Sys2Proof.Machine.execLw e c rd rs1 off s
  | .lh e c rd rs1 off => Sys2Proof.Machine.execLh e c rd rs1 off s
  | .lhu e c rd rs1 off => Sys2Proof.Machine.execLhu e c rd rs1 off s
  | .lb e c rd rs1 off => Sys2Proof.Machine.execLb e c rd rs1 off s
  | .lbu e c rd rs1 off => Sys2Proof.Machine.execLbu e c rd rs1 off s
  | .sw e c rs2 rs1 off => Sys2Proof.Machine.execSw e c rs2 rs1 off s
  | .sh e c rs2 rs1 off => Sys2Proof.Machine.execSh e c rs2 rs1 off s
  | .sb e c rs2 rs1 off => Sys2Proof.Machine.execSb e c rs2 rs1 off s
  | .sharedLoadComplete e c t => Sys2Proof.Machine.execSharedLoadComplete e c t s
  | .beq e c rs1 rs2 off => Sys2Proof.Machine.execBeq e c rs1 rs2 off s
  | .bne e c rs1 rs2 off => Sys2Proof.Machine.execBne e c rs1 rs2 off s
  | .blt e c rs1 rs2 off => Sys2Proof.Machine.execBlt e c rs1 rs2 off s
  | .bge e c rs1 rs2 off => Sys2Proof.Machine.execBge e c rs1 rs2 off s
  | .bltu e c rs1 rs2 off => Sys2Proof.Machine.execBltu e c rs1 rs2 off s
  | .bgeu e c rs1 rs2 off => Sys2Proof.Machine.execBgeu e c rs1 rs2 off s
  | .jal e c off => Sys2Proof.Machine.execJal e c off s
  | .jalr e c rd rs1 imm => Sys2Proof.Machine.execJalr e c rd rs1 imm s
  | .branchResolve e c => Sys2Proof.Machine.execBranchResolve e c s
  | .vld e c t vd gs m => Sys2Proof.Machine.execVld e c t vd gs m s
  | .vst e c t va gs m => Sys2Proof.Machine.execVst e c t va gs m s
  | .vfir e c t vd va vb gs m => Sys2Proof.Machine.execVfir e c t vd va vb gs m s
  | .vmac e c t vd va vb m => Sys2Proof.Machine.execVmac e c t vd va vb m s
  | .vcorr e c t vd va vb m => Sys2Proof.Machine.execVcorr e c t vd va vb m s
  | .vmag e c t vd va vb m => Sys2Proof.Machine.execVmag e c t vd va vb m s
  | .vnorm e c t vd va m => Sys2Proof.Machine.execVnorm e c t vd va m s
  | .vadd e c t vd va vb m => Sys2Proof.Machine.execVadd e c t vd va vb m s
  | .vscale e c t vd va gs m => Sys2Proof.Machine.execVscale e c t vd va gs m s
  | .vmax e c t vd va vb m => Sys2Proof.Machine.execVmax e c t vd va vb m s
  | .vred e c t vd va m => Sys2Proof.Machine.execVred e c t vd va m s
  | .vwait e c mask => Sys2Proof.Machine.execVwait e c mask s
  | .vwaitResume e c => Sys2Proof.Machine.execVwaitResume e c s
  | .copOpStart e t => Sys2Proof.Machine.execCopOpStart e t s
  | .copOpEnd e t checkFail => Sys2Proof.Machine.execCopOpEnd e t checkFail s
  | .copComplete e t => Sys2Proof.Machine.execCopComplete e t s
  | .pull e c rd rs1 slot => Sys2Proof.Machine.execPull e c rd rs1 slot s
  | .pullComplete e => Sys2Proof.Machine.execPullComplete e s
  | .peek e c rd slot w n => Sys2Proof.Machine.execPeek e c rd slot w n s
  | .peekResume e => Sys2Proof.Machine.execPeekResume e s
  | .bubq e c rd slot sel clr => Sys2Proof.Machine.execBubq e c rd slot sel clr s
  | .bubqResume e => Sys2Proof.Machine.execBubqResume e s
  | .post e c rs1 kind => Sys2Proof.Machine.execPost e c rs1 kind s
  | .postEventPort e => Sys2Proof.Machine.execPostEventPort e s
  | .bell e c rd sel => Sys2Proof.Machine.execBell e c rd sel s
  | .land e c rd => Sys2Proof.Machine.execLand e c rd s
  | .wland e c rd => Sys2Proof.Machine.execWland e c rd s
  | .mfs e c rd sel => Sys2Proof.Machine.execMfs e c rd sel s
  | .mts e c rs1 sel => Sys2Proof.Machine.execMts e c rs1 sel s
  | .trap e c code => Sys2Proof.Machine.execTrap e c code s
  | .halt e c => Sys2Proof.Machine.execHalt e c s
  | .ecallYield e c => Sys2Proof.Machine.execEcallYield e c s
  | .ecallDiag e c => Sys2Proof.Machine.execEcallDiag e c s
  | .ecallHrec e c => Sys2Proof.Machine.execEcallHrec e c s
  | .shadowMismatch e l => Sys2Proof.Machine.execShadowMismatch e l s
  | .laneLag e l => Sys2Proof.Machine.execLaneLag e l s
  | .fullingWindowEnd e w => Sys2Proof.Machine.execFullingWindowEnd e w s
  | .fullingWindowTimeout e => Sys2Proof.Machine.execFullingWindowTimeout e s
  | .rotationDue => Sys2Proof.Machine.execRotationDue s
  | .engDomainLoss k => Sys2Proof.Machine.execEngDomainLoss k s
  | .monitorExcursion d m x => Sys2Proof.Machine.execMonitorExcursion d m x s
  | .monitorDisagreement d m => Sys2Proof.Machine.execMonitorDisagreement d m s
  | .tieTest => Sys2Proof.Machine.execTieTest s
  | .tieTestEnd pass => Sys2Proof.Machine.execTieTestEnd pass s
  | .interlockEvent d ph => Sys2Proof.Machine.execInterlockEvent d ph s
  | .phaseIlim d ph => Sys2Proof.Machine.execPhaseIlim d ph s
  | .thermalStateChange => Sys2Proof.Machine.execThermalStateChange s
  | .thermHoverClear p => Sys2Proof.Machine.execThermHoverClear p s
  | .faultReport => Sys2Proof.Machine.execFaultReport s
  | .w1cClear p cls ix mask => Sys2Proof.Machine.execW1cClear p cls ix mask s
  | .clrfirst p => Sys2Proof.Machine.execClrfirst p s
  | .start p => Sys2Proof.Machine.execStart p s
  | .startTransition bits => Sys2Proof.Machine.execStartTransition bits s
  | .imgLoad p => Sys2Proof.Machine.execImgLoad p s
  | .imageCheckComplete => Sys2Proof.Machine.execImageCheckComplete s
  | .imageDistributionComplete mismatch => Sys2Proof.Machine.execImageDistributionComplete mismatch s
  | .imageWindowWrite p off data poisoned => Sys2Proof.Machine.execImageWindowWrite p off data poisoned s
  | .mailboxWrite p off data poisoned => Sys2Proof.Machine.execMailboxWrite p off data poisoned s
  | .hostHbeat p => Sys2Proof.Machine.execHostHbeat p s
  | .hostSilentTimeout p => Sys2Proof.Machine.execHostSilentTimeout p s
  | .hostPubWrite p v => Sys2Proof.Machine.execHostPubWrite p v s
  | .hostWrridxWrite p v => Sys2Proof.Machine.execHostWrridxWrite p v s
  | .msixTableWrite p w v => Sys2Proof.Machine.execMsixTableWrite p w v s
  | .registerWrite p off dw more poisoned => Sys2Proof.Machine.execRegisterWrite p off dw more poisoned s
  | .hostLinkDown p => Sys2Proof.Machine.execHostLinkDown p s
  | .hostLinkUp p up => Sys2Proof.Machine.execHostLinkUp p up s
  | .perstAssert p => Sys2Proof.Machine.execPerstAssert p s
  | .d3hotEntry p => Sys2Proof.Machine.execD3hotEntry p s
  | .nop p n f => Sys2Proof.Machine.execNop p n f s
  | .rstSweep p n f => Sys2Proof.Machine.execRstSweep p n f s
  | .rstDreq p n f => Sys2Proof.Machine.execRstDreq p n f s
  | .rstDconf p n f => Sys2Proof.Machine.execRstDconf p n f s
  | .dreqExpiry n => Sys2Proof.Machine.execDreqExpiry n s
  | .sgEnable p n f => Sys2Proof.Machine.execSgEnable p n f s
  | .sgStop p n f => Sys2Proof.Machine.execSgStop p n f s
  | .sgProfile p n f => Sys2Proof.Machine.execSgProfile p n f s
  | .sgReset p n f => Sys2Proof.Machine.execSgReset p n f s
  | .devReset p n f => Sys2Proof.Machine.execDevReset p n f s
  | .modeReqCommission p n f => Sys2Proof.Machine.execModeReqCommission p n f s
  | .modeReqRun p n f => Sys2Proof.Machine.execModeReqRun p n f s
  | .modeReqHarbour p n f => Sys2Proof.Machine.execModeReqHarbour p n f s
  | .modeReqLockout p n f => Sys2Proof.Machine.execModeReqLockout p n f s
  | .modeReqBoot p n f => Sys2Proof.Machine.execModeReqBoot p n f s
  | .paramSet p n f => Sys2Proof.Machine.execParamSet p n f s
  | .forceSet p n f => Sys2Proof.Machine.execForceSet p n f s
  | .forceClr p n f => Sys2Proof.Machine.execForceClr p n f s
  | .forceClrAll p n f => Sys2Proof.Machine.execForceClrAll p n f s
  | .headWd p n f => Sys2Proof.Machine.execHeadWd p n f s
  | .leadTake p n f => Sys2Proof.Machine.execLeadTake p n f s
  | .leadYield p n f => Sys2Proof.Machine.execLeadYield p n f s
  | .testEnChange level => Sys2Proof.Machine.execTestEnChange level s
  | .bypass => Sys2Proof.Machine.execBypass s
  | .idcode => Sys2Proof.Machine.execIdcode s
  | .samplePreload => Sys2Proof.Machine.execSamplePreload s
  | .extest => Sys2Proof.Machine.execExtest s
  | .intest => Sys2Proof.Machine.execIntest s
  | .clamp => Sys2Proof.Machine.execClamp s
  | .commaAlignment p => Sys2Proof.Machine.execCommaAlignment p s
  | .codeViolation p chars => Sys2Proof.Machine.execCodeViolation p chars s
  | .vtrkInRange => Sys2Proof.Machine.execVtrkInRange s
  | .illegalInstruction e c w => Sys2Proof.Machine.execIllegalInstruction e c w s
  | .commandFrame p => Sys2Proof.Machine.execCommandFrame p s
  | .unlistedOp p n op f => Sys2Proof.Machine.execUnlistedOp p n op f s
  | .modeReqOtherTarget p n f => Sys2Proof.Machine.execModeReqOtherTarget p n f s

end Sys2Proof.Machine
end

