-- ==== Sys2Proof/Safety.lean ====
section
/-! DEFINITION. The terms claims are made in: what an instruction of an engine meets and changes, and the invariants. -/

namespace Sys2Proof.Machine

/-! ### The core of an engine moves on (R211 to R213, R240) -/

/-- A bit of a fault register: class, index, bit. -/
abbrev FltBit := Nat × Nat × Nat

/-- Those of a list of bits that are clear. -/
def clearBits (l : List FltBit) (s : State) : List FltBit :=
  l.filter fun b => !(fltReg b.1 b.2.1 s).getLsbD b.2.2

/-- Vector v has been raised n times at a port: its HOST_IRQST bit is set, and where the link is active and HOST_IRQEN
enables it the vector has been sent: by MSI-X where the host has enabled that, or kept pending while it is masked, else by MSI
where the host has enabled that. A port whose domain is out takes nothing. -/
def Vectored (v n : Nat) (p : HostId) (u t : State) : Prop :=
  let h := hostOf p u
  let st := h.irqSt ||| (1#8 <<< v)
  hostOf p t =
    if n = 0 ∨ domOn (hostDom p) u = false then h
    else if h.link = false ∨ h.irqEn.getLsbD v = false then { h with irqSt := st }
    else if h.pci.msixEn = true then
      (if h.pci.msixMask = true ∨ (tabGet 0 h.msix (4 * v + 3)).getLsbD 0 = true then
        { h with irqSt := st, msixPend := h.msixPend ||| (1#8 <<< v) }
      else { h with irqSt := st, sent := h.sent ++ List.replicate n v })
    else if h.pci.msiEn = true then { h with irqSt := st, sent := h.sent ++ List.replicate n (v % 2 ^ h.pci.msiVecs.val) }
    else { h with irqSt := st }

/-- The report of a bit as it sets out now, with the bell time and landing it will be stamped with. -/
def stamped (b : FltBit) (u : State) : Report × Bell × Word :=
  ({ cls := b.1, ix := b.2.1, bit := b.2.2 }, u.bell.time, u.bell.landNo)

/-- The reports of HOST_IRQST bit v at the ports that take vector v and have it clear (R356). -/
def vectorReports (v : Nat) (u : State) : List (Report × Bell × Word) :=
  ([HostId.ha, .hb].filter fun p => domOn (hostDom p) u && !(hostOf p u).irqSt.getLsbD v).map fun p =>
    stamped (clsHost p, 0, v) u

/-- The reports that setting a list of bits brings: one for each that was clear, in order, and behind the first of them those of
HOST_IRQST bit 3. -/
def reportsOf (l : List FltBit) (u : State) : List (Report × Bell × Word) :=
  match clearBits l u with
  | [] => []
  | b :: r => stamped b u :: vectorReports 3 u ++ r.map fun b => stamped b u

/-- The listed sticky bits have been set, and nothing else differs but what that brings: their reports to AON, vector 3 for
each that was clear, and a note of each event for the present tick. -/
def Raises (l : List FltBit) (u t : State) : Prop :=
  t = { u with flt := t.flt, ha := t.ha, hb := t.hb } ∧
  t.flt = { u.flt with bits := t.flt.bits, fresh := t.flt.fresh, reports := u.flt.reports ++ reportsOf l u } ∧
  (∀ c i, i < 512 → ∀ b, (fltReg c i t).getLsbD b = ((fltReg c i u).getLsbD b || l.contains (c, i, b))) ∧
  (∀ c i, i < 512 → (c, i) ≠ (clsHa, 1) → (c, i) ≠ (clsHb, 1) →
    ∀ b, (freshReg c i t).getLsbD b = ((freshReg c i u).getLsbD b || l.contains (c, i, b))) ∧
  Vectored 3 (clearBits l u).length .ha u t ∧ Vectored 3 (clearBits l u).length .hb u t

/-- Vector v has been raised at both ports, and nothing else differs but what that brings. -/
def VectorRaised (v : Nat) (u t : State) : Prop :=
  t = { u with flt := t.flt, ha := t.ha, hb := t.hb } ∧
  t.flt = { u.flt with fresh := t.flt.fresh, reports := u.flt.reports ++ vectorReports v u } ∧
  Vectored v 1 .ha u t ∧ Vectored v 1 .hb u t

/-- The shadow of engine e has done, in the cycles it has made and those under way, what the primary has: it stands where the
primary does, and the words of every cycle match; the lanes have taken all that the primary wrote (R211, R213). -/
def CoresAgree (e : Nat) (s : State) : Prop :=
  let k := (engOf e s).core
  clearStep k = k ∧ k.shadow.differ = none ∧ shadowView k = k ∧ (∀ c ∈ k.shadow.fifo, c.words = c.own) ∧
  (k.shadow.stuck = none → k.shadow.fifo.length ≤ 2)

/-- The two cores of engine e agree, and no lane of the shadow is stuck. -/
def InStep (e : Nat) (s : State) : Prop := CoresAgree e s ∧ (engOf e s).core.shadow.stuck = none

/-- The cycle of a move to k in which the shadow gives the lanes what the primary does. -/
def sameCycle (k : Core) : Cycle :=
  { words := laneStep k, own := laneStep k, head := taken k.head, ext := taken k.ext, n := k.head.done + k.ext.done }

/-- Engine e's primary core has moved to k: the lanes have taken what it wrote, stored, dispatched and posted, and the shadow
follows two handshake cycles behind, making the oldest of three, whose POST words then leave the core; corrected memory errors
are counted; a window counts and signs. Nothing else differs, but for ENG_FLT.CE where an error was corrected. -/
def CoreMoves (e : Nat) (k : Core) (s t : State) : Prop :=
  let g := engOf e s
  let x := g.core.shadow
  (∃ u, Raises (if 0 < k.ceNew then [(clsEng, e, 9)] else []) u t ∧ u = { s with engs := t.engs }) ∧
  (∀ e', e' ≠ e → engOf e' t = engOf e' s) ∧
  engOf e t = { g with core := (engOf e t).core, ce := min 0xFFFF (g.ce + k.ceNew), win := (engOf e t).win } ∧
  (g.winStart = none → (engOf e t).win = g.win) ∧
  (engOf e t).core =
    (match x.fifo ++ [sameCycle k] with
    | a :: b :: c :: rest =>
      a.words.foldl leave { clearStep k with shadow := { x with head := a.head, ext := a.ext, fifo := b :: c :: rest } }
    | l => { clearStep k with shadow := { x with fifo := l } }) ∧
  InStep e t

/-! ### Contexts of an engine (R164, R186) -/

/-- A context of an engine. -/
def ctxAt (e : Nat) (c : Ctx) (s : State) : CtxSt := ctxOf c (engOf e s).core

/-- An instruction of a context comes to issue: its context may issue (R164), it need not wait for an unresolved branch
(R186), its address lies in the context's code region (R167), its word reads without a memory error (R163), and no operation
in flight has yet to write one of the registers it names (R189). The engine's two cores are in step (R211). -/
def Ready (e : Nat) (c : Ctx) (specOk : Bool) (regs : List Nat) (s : State) : Prop :=
  InStep e s ∧ mayIssue c (engOf e s) = true ∧ specStalls specOk (ctxAt e c s) = false ∧
  inCode c (ctxAt e c s).pc = true ∧ (engOf e s).core.ecc.any (fetchHit (ctxAt e c s).pc) = false ∧
  regs.any (regInFlight c (engOf e s).core) = false

/-- Context c of engine e has moved to y. -/
def CtxMoves (e : Nat) (c : Ctx) (y : CtxSt) (s t : State) : Prop := CoreMoves e (setCtx c y (engOf e s).core) s t

/-- The instruction of a context has issued: its PC has moved on, and it has retired, or stands past an unresolved branch. -/
def passed (x : CtxSt) : CtxSt :=
  { x with pc := x.pc + 4, done := x.done + (if x.spec = none then 1 else 0)
           spec := x.spec.map fun b => { b with n := b.n + 1 } }

/-- From context x to y, v has been written to register rd and nothing else has happened: g0 takes no write, and a result past
an unresolved branch is held until the branch resolves. -/
def Writes (rd : Nat) (v : Word) (x y : CtxSt) : Prop :=
  (∀ r, readReg y r = if r = rd ∧ r ≠ 0 then v else readReg x r) ∧
  y = { x with g := y.g, spec := y.spec, wrote := y.wrote } ∧
  y.spec = x.spec.map (fun b => { b with held := if rd = 0 then b.held else (rd, v) :: b.held }) ∧
  (x.spec.isSome → y.g = x.g ∧ y.wrote = x.wrote) ∧
  (x.spec = none → y.wrote = x.wrote ++ if rd = 0 then [] else [(rd, v)])

/-- The instruction has written v to register rd and nothing else, and the PC has moved on. -/
def RegResult (e : Nat) (c : Ctx) (rd : Nat) (v : Word) (s t : State) : Prop :=
  ∃ y, Writes rd v (ctxAt e c s) y ∧ CtxMoves e c (passed y) s t

/-- The instruction has moved the PC on and written no register. -/
def Passed (e : Nat) (c : Ctx) (s t : State) : Prop := CtxMoves e c (passed (ctxAt e c s)) s t

/-- A fault of a context has been taken: the context is halted with its PC at the instruction, ENG_ERR.CODE shows the code
and the context's ENG_FLT bit is set (R187). A fault of the head context kills every coprocessor operation and what the
extension context held past a branch, drops the PULLs and lets no WLAND of the frame be accepted; one of the extension context
ends its program for the frame, and what it has in flight completes without a result. -/
def FaultTaken (e : Nat) (c : Ctx) (code : Nat) (s t : State) : Prop :=
  let k := (engOf e s).core
  let k' := (engOf e t).core
  t = { s with engs := t.engs, flt := t.flt, ha := t.ha, hb := t.hb } ∧
  (∀ e', e' ≠ e → engOf e' t = engOf e' s) ∧
  engOf e t = { engOf e s with
    errCode := code, core := k', ce := min 0xFFFF ((engOf e s).ce + k.ceNew), win := (engOf e t).win
    trap := (engOf e t).trap } ∧
  (code ≠ 0x07 → (engOf e t).trap = (engOf e s).trap) ∧
  (ctxAt e c t).halted = some code ∧ (ctxAt e c t).pc = (ctxAt e c s).pc ∧ (ctxAt e c t).g = (ctxAt e c s).g ∧
  (fltReg clsEng e t).getLsbD (if c = .head then 11 else 12) = true ∧
  k'.dmem = k.dmem ∧ k'.vmem = k.vmem ∧ k'.queues = k.queues ∧
  (match c with
   | .head => k'.dead.isSome ∧ (∀ o ∈ k'.cops, o.killed = true) ∧ k'.pulls = [] ∧ k'.shared = [] ∧
       k'.ext = { taken k.ext with spec := none, block := .none }
   | .ext => k'.xEnded = true ∧ k'.head = taken k.head ∧ k'.pulls = k.pulls ∧
       (∀ o ∈ k'.cops, o.ctx = .ext → o.discard = true)) ∧
  InStep e t

/-- A fault met past an unresolved branch is held, with its code and address, until the branch resolves (R186). -/
def FaultHeld (e : Nat) (c : Ctx) (code : Nat) (s t : State) : Prop :=
  let x := ctxAt e c s
  CtxMoves e c { x with spec := x.spec.map fun b => { b with fault := some (code, x.pc) } } s t

/-- What an instruction that faults leads to. -/
def FaultOf (e : Nat) (c : Ctx) (code : Nat) (s t : State) : Prop :=
  if (ctxAt e c s).spec = none then FaultTaken e c code s t else FaultHeld e c code s t

/-! ### Loads and stores (R167, R178) -/

/-- An address of DMEM or VMEM. -/
def IsLocal (a : Nat) : Prop :=
  (0x10000000 ≤ a ∧ a < 0x10008000) ∨ (0x20000000 ≤ a ∧ a < 0x20004000)

/-- An address of shared space. -/
def IsShared (a : Nat) : Prop := 0x40000000 ≤ a ∧ a < 0x40001000

/-- No write in flight concerns n bytes from a: neither a PULL of the head context nor a VST of the context (R178). -/
def NoWriteInFlight (e : Nat) (c : Ctx) (a n : Nat) (s : State) : Prop :=
  (c = .head → pullOverlaps (engOf e s).core a n = false) ∧ vstOverlaps c (engOf e s).core a n = false

/-- The words of DMEM or VMEM that n bytes from a touch hold no error (R163). -/
def Sound (e : Nat) (a n : Nat) (s : State) : Prop := (engOf e s).core.ecc.any (localHit a n) = false

/-- A byte of an engine's local memory. -/
def byteAt (e : Nat) (s : State) (a : Nat) : Byte := localByte (engOf e s).core a

/-- The n low bytes of a word, least significant first. -/
def lowBytes (n : Nat) (w : Word) : List Byte := (List.range n).map fun i => (w >>> (8 * i)).setWidth 8

/-- The n low bytes of register rs2 stand at a and above, least significant first; every other byte of the engine's
memories, and all else but the PC, is as before. The MEM lane takes the store. -/
def StoreResult (e : Nat) (c : Ctx) (rs2 a n : Nat) (s t : State) : Prop :=
  let x := ctxAt e c s
  let k := (engOf e s).core
  ∃ m m' : Mem,
    CoreMoves e { setCtx c (passed x) k with
      dmem := m, vmem := m', ecc := k.ecc.filter (fun y => !localHit a n y)
      step := k.step ++ [.mem c a (lowBytes n (readReg x rs2))] } s t ∧
    ∀ b, byteAt e t b = if a ≤ b ∧ b < a + n then (readReg x rs2 >>> (8 * (b - a))).setWidth 8 else byteAt e s b

/-! ### Vector dispatch (R173, R174, R200) -/

/-- The operation a vector dispatch forms. -/
def copOpOf (e : Nat) (c : Ctx) (kind : CopKind) (t vd va vb gs mode : Nat) (s : State) : CopOp :=
  { tag := t, ctx := c, kind := kind, vd := vd, va := va, vb := vb, gs := readReg (ctxAt e c s) gs, mode := mode,
    committed := (ctxAt e c s).spec.isNone, killed := false, stage := .queued, res := .zero, exc := 0, discard := false
    ded := false, ce := 0 }

/-- A vector dispatch issues: its tag number and mode are the context's and the operation's, it meets no fatal exception,
fewer than 4 dispatches stand past an unresolved branch, its tag is free, its address passes the core's checks, and the
exponent word that a mode 0 VLD is checked by holds no error and no write in flight concerns it. -/
def Dispatchable (e : Nat) (o : CopOp) (s : State) : Prop :=
  let x := ctxAt e o.ctx s
  let k := (engOf e s).core
  tagInRange o.ctx o.tag = true ∧ modeOk o.kind o.mode = true ∧ fatalHit x o = none ∧
  (∀ b, x.spec = some b → b.nv < 4) ∧ k.cops.any (fun p => p.tag == o.tag) = false ∧
  (o.kind = .vld → o.mode = 0 → NoWriteInFlight e o.ctx o.gs.toNat 36 s ∧ Sound e (o.gs.toNat + 32) 4 s) ∧
  copAddrCheck o.ctx o.kind o.mode o.gs.toNat k = none

/-- The operation stands at the end of the engine's coprocessor queue, and the PC has moved on. The DISP lane takes the
dispatch. -/
def Dispatched (e : Nat) (o : CopOp) (gs : Nat) (s t : State) : Prop :=
  let x := ctxAt e o.ctx s
  let k := (engOf e s).core
  let y := passed x
  CoreMoves e { setCtx o.ctx { y with spec := y.spec.map fun b => { b with nv := b.nv + 1, tags := b.tags ++ [o.tag] } } k with
    cops := k.cops ++ [o]
    step := k.step ++ [.disp o.ctx o.kind o.tag o.vd o.va o.vb gs o.mode o.gs x.spec.isSome] } s t

/-! ### Block-floating values (R190 to R192) -/

/-- The value of a lane of a vector (R190). -/
def laneValue (v : Vec) (k : Nat) : ℚ := ((v.m.getD k 0).toInt : ℚ) * 2 ^ v.e.toInt / 32768

/-- n is x rounded to nearest, with ties to even. -/
def RoundsTo (x : ℝ) (n : Int) : Prop := |x - n| < 1 / 2 ∨ (|x - n| = 1 / 2 ∧ n % 2 = 0)

/-- Every lane, rounded at exponent e, lies in the range of a mantissa. -/
def FitsAt (r : Nat → ℝ) (e : Int) : Prop :=
  ∀ k < 16, ∃ n : Int, RoundsTo (r k * 2 ^ (15 - e)) n ∧ -32768 ≤ n ∧ n ≤ 32767

/-- A result vector and its exceptions (bit 0 OVF, bit 1 UNF) follow from the exact lanes r by the output rule (R192). -/
def OutputRule (r : Nat → ℝ) (v : Vec) (exc : Byte) : Prop :=
  let m := fun k => (v.m.getD k 0).toInt
  v.m.length = 16 ∧
  ((∀ k < 16, r k = 0) → (∀ k < 16, m k = 0) ∧ v.e.toInt = -128 ∧ exc = 0) ∧
  (¬(∀ k < 16, r k = 0) → ∃ e : Int, FitsAt r e ∧ (∀ e' < e, ¬FitsAt r e') ∧
    (-128 ≤ e ∧ e ≤ 127 → v.e.toInt = e ∧ (∀ k < 16, RoundsTo (r k * 2 ^ (15 - e)) (m k)) ∧ exc = 0) ∧
    (127 < e → v.e.toInt = 127 ∧ exc = 1 ∧
      ∀ k < 16, ∃ n : Int, RoundsTo (r k * 2 ^ (-112 : Int)) n ∧ m k = max (-32768) (min 32767 n)) ∧
    (e < -128 → v.e.toInt = -128 ∧ (∀ k < 16, RoundsTo (r k * 2 ^ 143) (m k)) ∧
      (exc = 0 ∨ exc = 2) ∧ (exc = 0 ↔ ∀ k < 16, (m k : ℝ) = r k * 2 ^ 143)))

/-- The word BUBQ gives of a bubble record: what the latest bubble token said, or the count (R179). -/
def bubbleWordOf (sel : Nat) (b : BubRec) : Word :=
  if sel = 0 then
    b.w0.setWidth 32 ||| (BitVec.ofBool b.contIn).setWidth 32 <<< 24 ||| (BitVec.ofBool b.contOut).setWidth 32 <<< 25 |||
      (BitVec.ofBool b.valid).setWidth 32 <<< 31
  else BitVec.ofNat 32 b.sum

/-! ### Stop groups and the safe state (R251, R361, R362) -/

/-- A group with every output low in LOCKED. -/
def IsLocked (x : Grp) : Prop := x.state = .locked ∧ x.tra = false ∧ x.trb = false ∧ x.srq = false

/-- Group g has gone to LOCKED: its outputs are low, no reset pulse is remembered, the landing is, SG_FLT shows the bits of the
cause and LOCK, and no other group and nothing else has changed. -/
def Locks (g : Nat) (bits : List Nat) (u t : State) : Prop :=
  let x := grpOf g u
  let y := grpOf g t
  Raises ((bits.map fun b => (clsSg, g, b)) ++ [(clsSg, g, 13)]) { u with saf := t.saf } t ∧
  t.saf = { u.saf with groups := t.saf.groups } ∧
  (∀ g', g' ≠ g → grpOf g' t = grpOf g' u) ∧
  y = { x with state := .locked, tra := false, trb := false, srq := false, rstOk := false
               faultLand := some u.bell.landNo, stopSs1 := y.stopSs1, since := y.since, winAt := y.winAt, riseLand := y.riseLand
               stillAt := y.stillAt, fbBad := y.fbBad } ∧
  (x.state = .locked → y = { x with
    tra := false, trb := false, srq := false, rstOk := false, faultLand := some u.bell.landNo }) ∧
  (x.state ≠ .locked → y.since = u.bell.time ∧ y.winAt = none ∧ y.riseLand = none ∧ y.stillAt = none ∧
    y.fbBad = (if x.fba = true ∧ x.fbb = true then none else some (x.fbBad.getD u.bell.time)) ∧
    (x.state ≠ .ss1 → y.stopSs1 = x.stopSs1))

/-- Group g alone has changed, to y. -/
def GroupBecomes (g : Nat) (y : Grp) (u t : State) : Prop :=
  t = { u with saf := { u.saf with groups := t.saf.groups } } ∧ ∀ g', grpOf g' t = if g' = g then y else grpOf g' u

/-- The device has entered the safe state: every configured group is LOCKED with its outputs low, every port transmits
nothing, FLT_SAFE and FAULT_N are set, the first cause stands, and what else is held stays. The capture takes FLT_FLT.SAFE ahead
of the reports of the groups, which come in later (R362). -/
def EntersSafe (cause : Nat) (u t : State) : Prop :=
  let f := (u.flt.reports ++ reportsOf [(clsFlt, 0, 0)] u).foldl takeReport u.flt
  t = { u with dev := { u.dev with safe := true, safeCause := cause }, flt := t.flt, saf := t.saf, ports := t.ports
               ha := t.ha, hb := t.hb } ∧
  t.flt = { u.flt with bits := t.flt.bits, fresh := t.flt.fresh, reports := t.flt.reports, first := f.first, later := f.later
                       safeActive := true, faultN := true
                       safeCause := if u.flt.safeActive then u.flt.safeCause else cause } ∧
  (∀ r ∈ t.flt.reports, r.2.1 ≠ u.bell.time) ∧
  (fltReg clsFlt 0 t).getLsbD 0 = true ∧
  (∀ c i b, (fltReg c i u).getLsbD b = true → (fltReg c i t).getLsbD b = true) ∧
  t.saf = { u.saf with groups := t.saf.groups } ∧
  (∀ g, if (grpOf g u).state = .unused then grpOf g t = grpOf g u else IsLocked (grpOf g t)) ∧
  ∀ p, portOf p t = { portOf p u with txen := false }

/-! ### The bell -/

/-- What a landing tick leaves of the bell: no tick of the frame has passed, the frame just begun has the period's length,
and neither the presets nor the captures have moved. -/
def TickedBell (time : Bell) (land : Word) (wrapLand wrapBell : Nat) (b b' : BellSt) : Prop :=
  b'.time = time ∧ b'.tickTime = time ∧ b'.landNo = land ∧ b'.phase = 0 ∧ b'.frameLen = b.period ∧ b'.period = b.period ∧
  b'.wrapLand = wrapLand ∧ b'.wrapBell = wrapBell ∧ b'.presetLo = b.presetLo ∧ b'.presetHi = b.presetHi ∧
  b'.landPreset = b.landPreset ∧ b'.ppsTime = b.ppsTime ∧ b'.ppsCnt = b.ppsCnt ∧ b'.trimA = b.trimA ∧ b'.trimB = b.trimB ∧
  b'.everOk = b.everOk ∧ (b.exitPending = true → b'.hold = false ∧ b'.lost = false)

/-! ### Tables -/

/-- The tables of the instances (engines, heads, ports, rings, GN8s, groups, domains), the section records, the fault registers
and what has set them in this tick, the MSI-X tables and the memories of the hosts are in canonical form: keys rise strictly, and
no entry holds what an unlisted one reads as. -/
def Canonical (s : State) : Prop :=
  tabWf .reset s.engs = true ∧ tabWf .reset s.heads = true ∧ tabWf .reset s.ports = true ∧ tabWf .reset s.rings = true ∧
  tabWf .reset s.gn8s = true ∧ tabWf .reset s.saf.groups = true ∧ tabWf .reset s.pmc.doms = true ∧
  tabWf .reset s.man.a = true ∧ tabWf (codeB .reset) s.man.b = true ∧ tabWf .reset s.man.comA = true ∧
  tabWf (codeB .reset) s.man.comB = true ∧ tabWf 0 s.flt.bits = true ∧ tabWf 0 s.flt.fresh = true ∧
  tabWf 0 s.ha.msix = true ∧ tabWf 0 s.hb.msix = true ∧
  Memory.wf s.ha.window = true ∧ Memory.wf s.ha.mailbox = true ∧ Memory.wf s.ha.host = true ∧
  Memory.wf s.hb.window = true ∧ Memory.wf s.hb.mailbox = true ∧ Memory.wf s.hb.host = true

/-! ### The commit (R31, R137) -/

/-- A commit of the closing frame can complete, d ticks after the landing tick its drain completed: service runs, the device
is not in its safe state, a manifest is in service and no more than 80 ticks have passed since. -/
def CommitDue (d : Nat) (s : State) : Prop :=
  s.dev.mode ≠ .boot ∧ s.dev.safe = false ∧ s.frame.closing = true ∧ s.frame.drained = some d ∧ s.bell.phase ≤ d + 80 ∧
  (domOn 4 s = true ∨ domOn 5 s = true)

/-- The frame has been committed: its events are applied and the entries taken are answered; unless a command of the commit
has returned the device to BOOT, its checkpoint is due, BELL_STAT shows the bell as it stood, and each manifest's pending
records have become its committed ones. -/
def Committed (d : Nat) (s t : State) : Prop :=
  t.frame.closing = false ∧ t.frame.drained = none ∧ t.frame.events = [] ∧ t.sup.taken = [] ∧
  (t.dev.mode ≠ .boot → t.sup.cpDue = true ∧ t.frame.committedAt = some s.bell.phase ∧ t.dev.first = false ∧
    t.bell = { s.bell with stat := bellStatNow s, commitT := s.bell.phase - d } ∧
    t.man.comA = t.man.a ∧ t.man.comB = t.man.b)

/-- Section n has been derived: each manifest's committed record is what the derivation gives on its own record, in its own
arithmetic, for the events and the heads of the frame, with the last change and the hint set (R123, R135, R137, R139). -/
def SecDerived (n : Nat) (s t : State) : Prop :=
  let h := commitHeads s
  let x := secIn n (byCentre s.bell.tickTime (passesOf (eventsOf s))) (lateHeads s) h.2 (s.man.failNext && !s.man.failed) h.1
  comSec n t = sealRec n (comSec n s) (derive x (sumA x.moves (secOf n s)) (secOf n s)).1 h.1 ∧
  comSecB n t = codeB (sealRec n (decodeB (comSecB n s))
    (derive x (sumB x.moves (secBOf n s)) (decodeB (secBOf n s))).1 h.1)

/-! ### Mailbox entries (R291, R292) -/

/-- Supervisor B's memories hold what A's do, and the manifests agree on every section (R139, R233). -/
def SupsAgree (s : State) : Prop := s.sup.b = memOf s.sup ∧ ∀ n, secOf n (viewB s) = secOf n s

/-- The supervisors, each on its own memories and its own manifest, come to the same outcome of an entry (R233, R234). -/
def Concur (p : HostId) (i : Nat) (op : Byte) (f : MbFields) (s : State) : Prop :=
  let one := applyEntry p i op f false (keyEnabled p s)
  (one s).sup.results = (one (viewB s)).sup.results

/-- An entry is heard: the device is not in its safe state, the supervisors agree, the entry's form is right (R292, code 0x10),
and its port is not the follower, which gives no operation but NOP and LEAD_TAKE (code 0x11). -/
def Heard (p : HostId) (op : Byte) (f : MbFields) (s : State) : Prop :=
  s.dev.safe = false ∧ SupsAgree s ∧ formatOk op.toNat f = true ∧ (op ≠ 0x00 → op ≠ 0x60 → isFollower p s = false)

/-- The entry's result stands behind those of the commit, and nothing else has changed since u but supervisor B's memories,
where B acts for itself (R233). -/
def Answered (p : HostId) (i code value : Nat) (f : MbFields) (u t : State) : Prop :=
  t = { u with sup := { u.sup with
    results := u.sup.results ++ [{ port := p, ix := i, code := code, value := value % 65536, tag := f.tag }]
    b := t.sup.b } }

/-- The code of the first check that fails, in the order of the list. -/
def firstCode (l : List (Bool × Nat)) : Option Nat := (l.find? (·.1)).map (·.2)

/-! ### Rings and heads -/

/-- Port p alone has changed, to y. -/
def PortBecomes (p : Nat) (y : RPort) (u t : State) : Prop :=
  t = { u with ports := t.ports } ∧ ∀ q, portOf q t = if q = p then y else portOf q u

/-- Ring k alone has changed, to y. -/
def RingBecomes (k : Nat) (y : Ring) (u t : State) : Prop :=
  t = { u with rings := t.rings } ∧ ∀ j, ringOf j t = if j = k then y else ringOf j u

/-- GN8 i alone has changed, to y. -/
def Gn8Becomes (i : Nat) (y : Gn8) (u t : State) : Prop :=
  t = { u with gn8s := t.gn8s } ∧ ∀ j, gn8Of j t = if j = i then y else gn8Of j u

/-- The port has given a frame of its own to the transmit queue, and its SEQ has moved on (R61, R64). -/
def SentFrame (cls : Nat) (frame : List Byte) (x : RPort) : RPort := { queueFrame cls frame x with seq := x.seq + 1 }

/-- Command c has gone out at a port for ring k, and is kept until its reply; the ring's TAG has moved on (R63). -/
def CommandSent (k port : Nat) (c : RCmd) (s t : State) : Prop :=
  t = { s with rings := t.rings, ports := t.ports } ∧ (∀ j, j ≠ k → ringOf j t = ringOf j s) ∧
  ringOf k t = { ringOf k s with tag := ((ringOf k s).tag + 1) % 65536, cmds := (ringOf k s).cmds ++ [c] } ∧
  c.tag = (ringOf k s).tag ∧ c.port = port ∧ c.sentAt = s.bell.time ∧ c.retried = false ∧ c.answered = false ∧
  (∀ q, q ≠ port → portOf q t = portOf q s) ∧
  (¬((portOf port s).link = .up ∧ (portOf port s).txen = true) → portOf port t = portOf port s) ∧
  ((portOf port s).link = .up → (portOf port s).txen = true →
    ∃ f, portOf port t = SentFrame 2 f (portOf port s) ∧ f.length = 18 ∧ frameType f = 3 ∧ fieldLE f 4 1 = c.target % 256 ∧
      fieldLE f 5 1 = c.op % 256 ∧ fieldLE f 6 2 = c.tag % 65536 ∧ fieldLE f 8 2 = c.addr % 65536 ∧
      fieldLE f 10 4 = c.data.toNat ∧ (crc32c (f.take 14)).toNat = fieldLE f 14 4)

/-- The frame at the front of a port's receive FIFO is of a type, and the port's domain is in service (R19, R61). -/
def FrameWaits (p ty : Nat) (f : List Byte) (rest : List (List Byte)) (s : State) : Prop :=
  domOn (portDom p) s = true ∧ (portOf p s).rx = f :: rest ∧ frameType f = ty

/-- The shadow of engine e has caught up, and nothing but its lanes and what leaves by them has changed: the posts have left. -/
def CaughtUp (e : Nat) (u t : State) : Prop :=
  t = { u with engs := t.engs, frame := t.frame } ∧ (∀ j, j ≠ e → engOf j t = engOf j u) ∧
  engOf e t = { engOf e u with core := (engOf e t).core, win := (engOf e t).win } ∧
  (engOf e t).core = { (engOf e u).core with
    shadow := (engOf e t).core.shadow, posts := [], hrec := (engOf e t).core.hrec, diag0 := (engOf e t).core.diag0
    diag1 := (engOf e t).core.diag1 } ∧
  (engOf e t).core.shadow.fifo = [] ∧ InStep e t

/-- The head program has taken the entry in front of a head's slot and done what step x shows: the engine's earlier posts go
ahead of its events (R14), the entry leaves the queue, and what waits to be replayed moves up; its events are words of the POST
lane, which the shadow matches ahead of the port (R212, R213); the evaluation goes on from x, and its events and HEAD_FLT bits
join those of the frame. -/
def HeadStepped (h e slot : Nat) (en : Entry) (rest : List Entry) (x : HStep) (s t : State) : Prop :=
  ∃ u v w, u = (if x.out = [] then s else takePosts e (postsInUse (engOf e s).core) s) ∧
    CoreMoves e (emit (x.out.map postWord) (takeFront (queueCap (engOf e s)) slot en rest (engOf e u).core)) u v ∧
    (replayOf slot (engOf e u).core = [] → queueOf slot (engOf e v).core = rest) ∧
    (x.out = [] → w = v) ∧ (x.out ≠ [] → CaughtUp e v w) ∧
    w.frame = { v.frame with events := v.frame.events ++ x.out.map fun y => (e, y) } ∧
    t = { w with heads := t.heads, free := x.free, frame := { w.frame with
      headFlt := w.frame.headFlt ++ x.flt.map fun b => (e, h, b) } } ∧
    headOf h t = { headOf h v with ev := x.ev } ∧ ∀ j, j ≠ h → headOf j t = headOf j v

/-- The step of the head program ends in a state, with its cause, and its latest event is the STATE event that says so. -/
def EndsIn (st : HeadState) (cause : Nat) (x : HStep) : Prop :=
  x.ev.state = st ∧ x.ev.cause = cause ∧
  ∃ l v, x.out = l ++ [.state v] ∧ v.head = x.n ∧ v.state = st ∧ v.cause = cause

/-! ### Power domains, engines and host ports -/

/-- Domain d alone has changed, to y. -/
def DomBecomes (d : Nat) (y : Dom) (u t : State) : Prop :=
  t = { u with pmc := { u.pmc with doms := t.pmc.doms } } ∧ ∀ j, domOf j t = if j = d then y else domOf j u

/-- A rail that starts to ramp to its setpoint at bell time now. -/
def rampFrom (d : Nat) (now : Bell) (x : Dom) : Dom :=
  { x with state := .ramp, vset := domSetpoint d, slew := none, startAt := now, hist := [], hiRun := 0, slackMin := 0x7FFF
           uv1 := false, ov1 := false, uv2 := false, ov2 := false }

/-- Engine e alone has changed, to y. -/
def EngBecomes (e : Nat) (y : Eng) (u t : State) : Prop :=
  t = { u with engs := t.engs } ∧ ∀ j, engOf j t = if j = e then y else engOf j u

/-- Port p alone has changed, to y. -/
def HostBecomes (p : HostId) (y : PortSt) (u t : State) : Prop := t = setHost p y u

/-- A link of a port is down: the HOST registers and configuration space stand as after reset, but for the HOST_IRQST bits, and
of a publication only the SEQ of the next image goes on (R278, R294, R358). -/
def LinkGone (x y : PortSt) : Prop :=
  y = { PortSt.reset with
    wasLost := true, lostBeat := true, window := x.window, mailbox := x.mailbox, host := x.host, sent := x.sent
    irqSt := x.irqSt, imgSeq := x.imgSeq, resSeq := x.resSeq, mbStat := x.mbStat, mbHeld := x.mbHeld, perst := x.perst
    timeHi := x.timeHi, ppsHi := x.ppsHi, readData := x.readData, selEng := x.selEng, selHead := x.selHead, selPid := x.selPid }

/-! ### Outputs of the stop groups (R251) -/

/-- The outputs of a group are those of its state. -/
def OutputsOf (x : Grp) : Prop :=
  (x.tra = true ↔ x.state = .energise ∨ x.state = .run ∨ x.state = .ss1) ∧ x.trb = x.tra ∧ (x.srq = true ↔ x.state = .run)

/-- The table of groups is canonical and every group's outputs are those of its state. -/
def OutputsFollow (s : State) : Prop := tabWf .reset s.saf.groups = true ∧ ∀ g, OutputsOf (grpOf g s)

end Sys2Proof.Machine
end

