-- ==== Sys2Proof/Certificates/Slice0/Obligations.lean ====
section
/-! DEFINITION. The statements for the provers. -/

open Sys2Proof Sys2Proof.Machine

/-! ### The step -/

/-- A step runs the command at the front of the queue with the queue's rest; on an empty queue one bell tick passes. -/
def Obligations.StepRunsFrontCommand : Prop :=
  (∀ (c : Instr) (rest : List Instr) (s : State), s.pending = c :: rest →
    step s = exec c { s with pending := rest }) ∧
  (∀ s : State, s.pending = [] → step s = .next (bellTickOne s))

/-- Every command answers a next state: no command faults and none is refused; and no command touches the queue of
commands that are waiting, whatever else it does. -/
def Obligations.EveryCommandAnswers : Prop :=
  ∀ (c : Instr) (s : State), ∃ t, exec c s = .next t ∧ t.pending = s.pending

/-! ### The Dyhar instruction words (R175, R176) -/

/-- Decoding an encoded well-formed instruction gives it back, for every instruction of the set and every operand; and a word
that decodes is the word of the instruction it decodes to, so that no two words spell one instruction. -/
def Obligations.DecodeAndEncodeAgree : Prop :=
  (∀ (i : Instr) (w : Word), i.wf = true → Dyhar.encode i = some w → ∃ e c, Dyhar.decode e c w = some i) ∧
  (∀ (e : EngIx) (c : Ctx) (w : Word) (i : Instr), Dyhar.decode e c w = some i → Dyhar.encode i = some w)

/-- Words written out bit by bit from the formats of R175 and the opcodes of R176, one of each format. -/
def Obligations.WordsDecode : Prop :=
  ∀ (e : EngIx) (c : Ctx),
    Dyhar.decode e c 0b00000000001000100001100000000000#32 = some (.add e c 1 2 3) ∧
    Dyhar.decode e c 0b00000100101000001111111111111111#32 = some (.addi e c 5 0 0xFFFF) ∧
    Dyhar.decode e c 0b01010100100000100000000000001000#32 = some (.sw e c 4 2 8) ∧
    Dyhar.decode e c 0b01100000001000100000000000000011#32 = some (.beq e c 1 2 3) ∧
    Dyhar.decode e c 0b01111000000000000000000000000001#32 = some (.jal e c 1) ∧
    Dyhar.decode e c 0b10001100011000100010010000000000#32 = some (.vmac e c 3 1 1 2 0) ∧
    Dyhar.decode e c 0b11000000010000110000000000000001#32 = some (.pull e c 2 3 1) ∧
    Dyhar.decode e c 0b11111100000000000000000000000000#32 = some (.halt e c) ∧
    Dyhar.decode e c 0b00000000001000100001100000000101#32 = none

/-! ### Dyhar: integer instructions (R169, R176) -/

/-- Each R-format instruction, ABS and CLZ among them, and each immediate instruction writes its result to rd and changes nothing
else (R176). -/
def Obligations.IntegerResults : Prop :=
  (∀ (e : EngIx) (c : Ctx) (rd rs1 rs2 : GReg) (s : State), Ready e c true [rs1, rs2, rd] s →
     let a := readReg (ctxAt e c s) rs1
     let b := readReg (ctxAt e c s) rs2
     (∃ t, exec (.add e c rd rs1 rs2) s = .next t ∧ RegResult e c rd (a + b) s t) ∧
     (∃ t, exec (.sub e c rd rs1 rs2) s = .next t ∧ RegResult e c rd (a - b) s t) ∧
     (∃ t, exec (.and e c rd rs1 rs2) s = .next t ∧ RegResult e c rd (a &&& b) s t) ∧
     (∃ t, exec (.or e c rd rs1 rs2) s = .next t ∧ RegResult e c rd (a ||| b) s t) ∧
     (∃ t, exec (.xor e c rd rs1 rs2) s = .next t ∧ RegResult e c rd (a ^^^ b) s t) ∧
     (∃ t, exec (.sll e c rd rs1 rs2) s = .next t ∧ RegResult e c rd (a <<< (b.toNat % 32)) s t) ∧
     (∃ t, exec (.srl e c rd rs1 rs2) s = .next t ∧ RegResult e c rd (a >>> (b.toNat % 32)) s t) ∧
     (∃ t, exec (.sra e c rd rs1 rs2) s = .next t ∧ RegResult e c rd (a.sshiftRight (b.toNat % 32)) s t) ∧
     (∃ t, exec (.slt e c rd rs1 rs2) s = .next t ∧ RegResult e c rd (if a.toInt < b.toInt then 1 else 0) s t) ∧
     (∃ t, exec (.sltu e c rd rs1 rs2) s = .next t ∧ RegResult e c rd (if a.toNat < b.toNat then 1 else 0) s t) ∧
     (∃ t, exec (.mul e c rd rs1 rs2) s = .next t ∧
       RegResult e c rd (BitVec.ofInt 32 (a.toInt * b.toInt)) s t) ∧
     (∃ t, exec (.mulh e c rd rs1 rs2) s = .next t ∧
       RegResult e c rd (BitVec.ofInt 32 ((a.toInt * b.toInt) / 2 ^ 32)) s t) ∧
     (∃ t, exec (.mulhu e c rd rs1 rs2) s = .next t ∧
       RegResult e c rd (BitVec.ofNat 32 ((a.toNat * b.toNat) / 2 ^ 32)) s t) ∧
     (∃ t, exec (.min e c rd rs1 rs2) s = .next t ∧ RegResult e c rd (BitVec.ofInt 32 (min a.toInt b.toInt)) s t) ∧
     (∃ t, exec (.max e c rd rs1 rs2) s = .next t ∧ RegResult e c rd (BitVec.ofInt 32 (max a.toInt b.toInt)) s t) ∧
     (∃ t, exec (.minu e c rd rs1 rs2) s = .next t ∧ RegResult e c rd (BitVec.ofNat 32 (min a.toNat b.toNat)) s t) ∧
     (∃ t, exec (.maxu e c rd rs1 rs2) s = .next t ∧ RegResult e c rd (BitVec.ofNat 32 (max a.toNat b.toNat)) s t)) ∧
  (∀ (e : EngIx) (c : Ctx) (rd rs1 : GReg) (s : State), Ready e c true [rs1, rd] s →
     let a := readReg (ctxAt e c s) rs1
     (∃ t, exec (.abs e c rd rs1) s = .next t ∧ RegResult e c rd (BitVec.ofNat 32 a.toInt.natAbs) s t) ∧
     (∃ t n, exec (.clz e c rd rs1) s = .next t ∧ RegResult e c rd (BitVec.ofNat 32 n) s t ∧ n ≤ 32 ∧
       (∀ i < n, a.getMsbD i = false) ∧ (n < 32 → a.getMsbD n = true))) ∧
  (∀ (e : EngIx) (c : Ctx) (rd rs1 : GReg) (imm : BitVec 16) (sh : BitVec 5) (s : State), Ready e c true [rs1, rd] s →
     let a := readReg (ctxAt e c s) rs1
     (∃ t, exec (.addi e c rd rs1 imm) s = .next t ∧ RegResult e c rd (a + imm.signExtend 32) s t) ∧
     (∃ t, exec (.andi e c rd rs1 imm) s = .next t ∧ RegResult e c rd (a &&& imm.setWidth 32) s t) ∧
     (∃ t, exec (.ori e c rd rs1 imm) s = .next t ∧ RegResult e c rd (a ||| imm.setWidth 32) s t) ∧
     (∃ t, exec (.xori e c rd rs1 imm) s = .next t ∧ RegResult e c rd (a ^^^ imm.setWidth 32) s t) ∧
     (∃ t, exec (.slti e c rd rs1 imm) s = .next t ∧ RegResult e c rd (if a.toInt < imm.toInt then 1 else 0) s t) ∧
     (∃ t, exec (.sltiu e c rd rs1 imm) s = .next t ∧
       RegResult e c rd (if a.toNat < (imm.signExtend 32).toNat then 1 else 0) s t) ∧
     (∃ t, exec (.shi e c rd rs1 0 sh) s = .next t ∧ RegResult e c rd (a <<< sh.toNat) s t) ∧
     (∃ t, exec (.shi e c rd rs1 1 sh) s = .next t ∧ RegResult e c rd (a >>> sh.toNat) s t) ∧
     (∃ t, exec (.shi e c rd rs1 2 sh) s = .next t ∧ RegResult e c rd (a.sshiftRight sh.toNat) s t) ∧
     (∃ t, exec (.lui e c rd imm) s = .next t ∧ RegResult e c rd (imm ++ (0 : BitVec 16)) s t))

/-- Forms that raise a fault instead of their result: SHI of the reserved kind, BUBQ of a reserved selection, MFS and MTS of an
unlisted register (ILLEGAL); PULL, PEEK, BUBQ, POST, WLAND and HREC in the extension context (PRIV); a slot no head has, or a
PULL or PEEK behind an end-of-frame mark (STREAM); a load, store, jump, PULL, POST, VLD or VST at a misaligned address (ALIGN); a
load or store outside what R167 allows (ACCESS); a jump to, or an instruction at, an address outside the code region (IFETCH); and
any instruction whose own word, or whose data, holds an error that cannot be corrected (ECC_DED, with ENG_FLT.DED). The fault is
taken at once, or held while a branch is unresolved. An instruction whose word held an error that was corrected goes on as it
does without: the error is gone, and counted. -/
def Obligations.FaultingForms : Prop :=
  ∀ (e : EngIx) (c : Ctx) (rd rs1 rs2 : GReg) (off : BitVec 16) (sh : BitVec 5) (s : State),
    let x := ctxAt e c s
    let k := (engOf e s).core
    let r := (readReg x rs1).toNat
    let a := (readReg x rs1 + off.signExtend 32).toNat
    let F := fun (i : Instr) (code : Nat) => ∃ t, exec i s = .next t ∧ FaultOf e c code s t
    let H := fun (i : Instr) (code : Nat) => ∃ t, exec i s = .next t ∧ FaultTaken e c code s t
    (Ready e c true [] s → F (.shi e c rd rs1 3 sh) 0x01) ∧
    (∀ sel : Fin 8, 6 ≤ sel.val → Ready e c true [rd] s → F (.mfs e c rd sel) 0x01) ∧
    (∀ sel : Fin 8, sel ≠ 1 → Ready e c false [rs1] s → F (.mts e c rs1 sel) 0x01) ∧
    (Ready e c true [rs1, rd] s → a % 4 ≠ 0 → F (.lw e c rd rs1 off) 0x03) ∧
    (Ready e c true [rs1, rd] s → a % 2 ≠ 0 → F (.lh e c rd rs1 off) 0x03 ∧ F (.lhu e c rd rs1 off) 0x03) ∧
    (Ready e c true [rs1, rd] s → ¬IsLocal a → ¬IsShared a →
      (a % 4 = 0 → F (.lw e c rd rs1 off) 0x04) ∧ (a % 2 = 0 → F (.lh e c rd rs1 off) 0x04) ∧
      (a % 2 = 0 → F (.lhu e c rd rs1 off) 0x04) ∧ F (.lb e c rd rs1 off) 0x04 ∧ F (.lbu e c rd rs1 off) 0x04) ∧
    (Ready e c false [rs2, rs1] s →
      (a % 4 ≠ 0 → F (.sw e c rs2 rs1 off) 0x03) ∧ (a % 2 ≠ 0 → F (.sh e c rs2 rs1 off) 0x03) ∧
      (a % 4 = 0 → ownData c a = false → F (.sw e c rs2 rs1 off) 0x04) ∧
      (a % 2 = 0 → ownData c a = false → F (.sh e c rs2 rs1 off) 0x04) ∧
      (ownData c a = false → F (.sb e c rs2 rs1 off) 0x04)) ∧
    (Ready e c false [rs1, rd] s →
      (a % 4 ≠ 0 → H (.jalr e c rd rs1 off) 0x03) ∧
      (a % 4 = 0 → inCode c (readReg x rs1 + off.signExtend 32) = false → H (.jalr e c rd rs1 off) 0x02)) ∧
    (∀ o : BitVec 26, Ready e c false [31] s → inCode c (x.pc + (o.signExtend 32 <<< 2)) = false → H (.jal e c o) 0x02) ∧
    (∀ (slot : Fin 8) (w : Fin 4) (n clr : Bool) (sel : Fin 4) (kind : Fin 4),
      (c = .ext →
        (Ready e c false [rs1, rd] s → H (.pull e c rd rs1 slot) 0x06) ∧
        (Ready e c false [rd] s →
          H (.peek e c rd slot w n) 0x06 ∧ H (.bubq e c rd slot sel clr) 0x06 ∧ H (.wland e c rd) 0x06) ∧
        (Ready e c false [rs1] s → H (.post e c rs1 kind) 0x06) ∧
        (Ready e c false [4, 2] s → H (.ecallHrec e c) 0x06)) ∧
      (c = .head →
        (Ready e c false [rs1, rd] s →
          (headsServed (engOf e s) ≤ slot.val ∨ slot.val ∈ k.marks → H (.pull e c rd rs1 slot) 0x09) ∧
          (slot.val < headsServed (engOf e s) → slot.val ∉ k.marks → r % 16 ≠ 0 → H (.pull e c rd rs1 slot) 0x03) ∧
          (slot.val < headsServed (engOf e s) → slot.val ∉ k.marks → r % 16 = 0 → ownData .head r = false →
            H (.pull e c rd rs1 slot) 0x04)) ∧
        (Ready e c false [rd] s →
          (headsServed (engOf e s) ≤ slot.val → H (.peek e c rd slot w n) 0x09) ∧
          (slot.val ∈ k.marks → H (.peek e c rd slot w false) 0x09) ∧
          (2 ≤ sel.val → H (.bubq e c rd slot sel clr) 0x01) ∧
          (sel.val < 2 → headsServed (engOf e s) ≤ slot.val → H (.bubq e c rd slot sel clr) 0x09)) ∧
        (Ready e c false [rs1] s →
          (r % 16 ≠ 0 → H (.post e c rs1 kind) 0x03) ∧
          (r % 16 = 0 → ownData .head r = false → H (.post e c rs1 kind) 0x04)))) ∧
    (∀ (tg : BitVec 5) (v : VReg) (m : BitVec 4), Ready e c true [rs1] s → tagInRange c tg.toNat = true →
      k.cops.any (fun p => p.tag == tg.toNat) = false → (∀ b, x.spec = some b → b.nv < 4) → r % (if m = 0 then 4 else 2) ≠ 0 →
      (m.toNat < 4 → fatalHit x (copOpOf e c .vld tg.toNat v 0 0 rs1 m.toNat s) = none → (m = 0 → NoWriteInFlight e c r 36 s) →
        F (.vld e c tg v rs1 m) 0x03) ∧
      (m.toNat < 2 → fatalHit x (copOpOf e c .vst tg.toNat 0 v 0 rs1 m.toNat s) = none → F (.vst e c tg v rs1 m) 0x03)) ∧
    (Ready e c true [rs1, rd] s → a % 4 = 0 → IsLocal a → NoWriteInFlight e c a 4 s →
      k.ecc.any (fun y => localHit a 4 y && y.double) = true → F (.lw e c rd rs1 off) 0x05) ∧
    (∀ (w : Word) (i : Instr), Dyhar.decode e c w = some i →
      let mended : Core := { k with ecc := k.ecc.filter fun y => !fetchHit x.pc y, ceNew := k.ceNew + (k.ecc.filter (fetchHit x.pc)).length }
      InStep e s → mayIssue c (engOf e s) = true → x.spec = none →
      (inCode c x.pc = false → H i 0x02) ∧
      (inCode c x.pc = true → k.ecc.any (fun y => fetchHit x.pc y && y.double) = true →
        ∃ t, exec i s = .next t ∧ FaultTaken e c 0x05 s t ∧ (fltReg clsEng e t).getLsbD 10 = true) ∧
      (inCode c x.pc = true → k.ecc.any (fetchHit x.pc) = true → k.ecc.any (fun y => fetchHit x.pc y && y.double) = false →
        ∃ u, CoreMoves e mended s u ∧ exec i s = exec i u))

/-! ### Dyhar: loads and stores (R6, R167, R172, R178) -/

/-- A load from DMEM or VMEM gives the bytes there, the lowest address least significant, sign- or zero-extended. A store to
the context's own data regions writes its bytes there and changes no other byte and no register; a whole word stored leaves
no error in it. A load of a word with one wrong bit gives the right value, puts the word right, and is counted (R163). -/
def Obligations.LocalLoadsAndStores : Prop :=
  (∀ (e : EngIx) (c : Ctx) (rd rs1 : GReg) (off : BitVec 16) (s : State), Ready e c true [rs1, rd] s →
     let a := (readReg (ctxAt e c s) rs1 + off.signExtend 32).toNat
     let m := byteAt e s
     IsLocal a →
     (a % 4 = 0 → NoWriteInFlight e c a 4 s → Sound e a 4 s →
       ∃ t, exec (.lw e c rd rs1 off) s = .next t ∧ RegResult e c rd (m (a + 3) ++ m (a + 2) ++ m (a + 1) ++ m a) s t) ∧
     (a % 2 = 0 → NoWriteInFlight e c a 2 s → Sound e a 2 s →
       (∃ t, exec (.lh e c rd rs1 off) s = .next t ∧ RegResult e c rd ((m (a + 1) ++ m a).signExtend 32) s t) ∧
       (∃ t, exec (.lhu e c rd rs1 off) s = .next t ∧ RegResult e c rd ((m (a + 1) ++ m a).setWidth 32) s t)) ∧
     (NoWriteInFlight e c a 1 s → Sound e a 1 s →
       (∃ t, exec (.lb e c rd rs1 off) s = .next t ∧ RegResult e c rd ((m a).signExtend 32) s t) ∧
       (∃ t, exec (.lbu e c rd rs1 off) s = .next t ∧ RegResult e c rd ((m a).setWidth 32) s t)) ∧
     (a % 4 = 0 → NoWriteInFlight e c a 4 s → (ctxAt e c s).spec = none → ∀ err, err.double = false →
       (engOf e s).core.ecc.filter (localHit a 4) = [err] →
       let k := (engOf e s).core
       ∃ t y, exec (.lw e c rd rs1 off) s = .next t ∧
         Writes rd (m (a + 3) ++ m (a + 2) ++ m (a + 1) ++ m a) (ctxAt e c s) y ∧
         CoreMoves e { setCtx c (passed y) k with ecc := k.ecc.filter (fun z => !localHit a 4 z), ceNew := k.ceNew + 1 } s t)) ∧
  (∀ (e : EngIx) (c : Ctx) (rs2 rs1 : GReg) (off : BitVec 16) (s : State), Ready e c false [rs2, rs1] s →
     let a := (readReg (ctxAt e c s) rs1 + off.signExtend 32).toNat
     ownData c a = true →
     (a % 4 = 0 → NoWriteInFlight e c a 4 s → vldOverlaps c (engOf e s).core a 4 = false →
       ∃ t, exec (.sw e c rs2 rs1 off) s = .next t ∧ StoreResult e c rs2 a 4 s t) ∧
     (a % 2 = 0 → NoWriteInFlight e c a 2 s → Sound e a 2 s → vldOverlaps c (engOf e s).core a 2 = false →
       ∃ t, exec (.sh e c rs2 rs1 off) s = .next t ∧ StoreResult e c rs2 a 2 s t) ∧
     (NoWriteInFlight e c a 1 s → Sound e a 1 s → vldOverlaps c (engOf e s).core a 1 = false →
       ∃ t, exec (.sb e c rs2 rs1 off) s = .next t ∧ StoreResult e c rs2 a 1 s t))

/-- A load of any size from shared space takes a tag and writes no register yet; its completion writes the value, sign- or
zero-extended, returns the tag and leaves every other register alone (R172). -/
def Obligations.SharedLoads : Prop :=
  (∀ (e : EngIx) (c : Ctx) (rd rs1 : GReg) (off : BitVec 16) (s : State), Ready e c true [rs1, rd] s →
    let x := ctxAt e c s
    let k := (engOf e s).core
    let a := (readReg x rs1 + off.signExtend 32).toNat
    IsShared a → x.spec = none → ∀ t, freeSharedTag c k = some t →
    let P := fun (i : Instr) (n : Nat) (sx : Bool) => a % n = 0 → ∃ s', exec i s = .next s' ∧
      CoreMoves e { setCtx c (passed x) k with
        shared := k.shared ++ [{ tag := t, ctx := c, rd := rd, addr := a, size := n, sx := sx }] } s s'
    P (.lw e c rd rs1 off) 4 false ∧ P (.lh e c rd rs1 off) 2 true ∧ P (.lhu e c rd rs1 off) 2 false ∧
    P (.lb e c rd rs1 off) 1 true ∧ P (.lbu e c rd rs1 off) 1 false) ∧
  (∀ (e : EngIx) (c : Ctx) (t : Fin 8) (o : SharedOp) (v : Word) (s : State), InStep e s →
    (engOf e s).core.shared.find? (fun o => o.ctx == c && o.tag == t.val) = some o →
    let x := ctxAt e c s
    let k := (engOf e s).core
    let m := fun i => byteAt e s (o.addr + i)
    (o.size = 4 ∧ o.sx = false ∧ v = m 3 ++ m 2 ++ m 1 ++ m 0) ∨
      (o.size = 2 ∧ v = if o.sx then (m 1 ++ m 0).signExtend 32 else (m 1 ++ m 0).setWidth 32) ∨
      (o.size = 1 ∧ v = if o.sx then (m 0).signExtend 32 else (m 0).setWidth 32) →
    ∃ s' g', exec (.sharedLoadComplete e c t) s = .next s' ∧
      (∀ r, r ≠ 0 → tabGet 0 g' r = if r = o.rd then v else tabGet 0 x.g r) ∧
      CoreMoves e { setCtx c { x with
          g := g'
          wrote := x.wrote ++ if o.rd = 0 then [] else [(o.rd, v)]
          block := if x.block = .tag then .none else x.block } k with
        shared := k.shared.filter fun p => !(p.ctx == c && p.tag == t.val) } s s')

/-! ### Dyhar: branches and jumps (R176, R186) -/

/-- A conditional branch issues unresolved: a backward one is predicted taken, a forward one not taken (R186). JAL and JALR
save PC + 4 and jump; no other register changes (R176). -/
def Obligations.BranchesAndJumps : Prop :=
  (∀ (e : EngIx) (c : Ctx) (rs1 rs2 : GReg) (off : BitVec 16) (s : State), Ready e c false [] s →
     let x := ctxAt e c s
     let target := x.pc + (off.signExtend 32 <<< 2)
     let P := fun (i : Instr) (cond : Cond) => ∃ t, exec i s = .next t ∧ CtxMoves e c { x with
       pc := if off.toInt < 0 then target else x.pc + 4
       spec := some { pc := x.pc, cond := cond, rs1 := rs1, rs2 := rs2, predicted := decide (off.toInt < 0), target := target
                      n := 0, nv := 0, held := [], heldBell := none, tags := [], fault := none, ce := 0 } } s t
     P (.beq e c rs1 rs2 off) .eq ∧ P (.bne e c rs1 rs2 off) .ne ∧ P (.blt e c rs1 rs2 off) .lt ∧
     P (.bge e c rs1 rs2 off) .ge ∧ P (.bltu e c rs1 rs2 off) .ltu ∧ P (.bgeu e c rs1 rs2 off) .geu) ∧
  (∀ (e : EngIx) (c : Ctx) (s : State),
     let x := ctxAt e c s
     let P := fun (i : Instr) (rd : Nat) (target : Word) => ∃ t y, exec i s = .next t ∧ Writes rd (x.pc + 4) x y ∧
       CtxMoves e c { y with pc := target, done := x.done + 1 } s t
     (∀ off : BitVec 26, Ready e c false [31] s → inCode c (x.pc + (off.signExtend 32 <<< 2)) = true →
       P (.jal e c off) 31 (x.pc + (off.signExtend 32 <<< 2))) ∧
     (∀ (rd rs1 : GReg) (imm : BitVec 16), Ready e c false [rs1, rd] s →
       (readReg x rs1 + imm.signExtend 32).toNat % 4 = 0 → inCode c (readReg x rs1 + imm.signExtend 32) = true →
       P (.jalr e c rd rs1 imm) rd (readReg x rs1 + imm.signExtend 32)))

/-- A branch whose operands have arrived resolves. As predicted: the results held stand in the registers, the dispatches past
it are committed, and the PC stands. Not as predicted: every register reads as it read at the branch, the dispatches past it
are killed, and the PC takes the other way (R186). The DISP lane takes the tokens; one that finds no operation awaiting it
raises SEQ (R197). A fault held past the branch is then taken, and a taken branch out of the code region raises IFETCH. -/
def Obligations.BranchResolves : Prop :=
  ∀ (e : EngIx) (c : Ctx) (b : Spec) (s : State),
    let x := ctxAt e c s
    let k := (engOf e s).core
    let base := { x with spec := none }
    let u := readReg base b.rs1
    let v := readReg base b.rs2
    let taken := match b.cond with
      | .eq => decide (u = v)
      | .ne => decide (u ≠ v)
      | .lt => decide (u.toInt < v.toInt)
      | .ge => decide (v.toInt ≤ u.toInt)
      | .ltu => decide (u.toNat < v.toNat)
      | .geu => decide (v.toNat ≤ u.toNat)
    let awaiting := fun (t : Nat) (o : CopOp) => o.ctx = c ∧ o.tag = t ∧ o.committed = false ∧ o.killed = false
    let stray := b.tags.filter fun t => decide (∀ o ∈ k.cops, ¬awaiting t o)
    let posted := fun y : CtxSt => { y with
      vexc := if stray = [] then x.vexc else x.vexc ||| 0x80
      fatal := x.fatal ++ stray.map fun t => (t, none, 0x0C) }
    let sound := ∀ o ∈ k.cops, o.ctx = c → o.tag ∈ b.tags → o.stage = .computed → o.exc.getLsbD 6 = false
    let squashed := fun (pc : Word) (n : Nat) (u : State) =>
      CoreMoves e { setCtx c (posted { base with
          pc := pc, done := x.done + n, block := if x.block = .tag ∨ x.block = .pull then .none else x.block }) k with
        cops := killOps (fun o => decide (∃ t ∈ b.tags, awaiting t o)) k.cops
        step := k.step ++ b.tags.map fun t => .token t false } s u
    InStep e s → x.spec = some b → x.halted = none → k.head.halted = none → regInFlight c k b.rs1 = false → regInFlight c k b.rs2 = false →
    ((taken = true → inCode c b.target = true) → taken = b.predicted →
      ∃ t u y, exec (.branchResolve e c) s = .next t ∧ y.spec = none ∧ (∀ r, readReg y r = readReg x r) ∧
        CoreMoves e { setCtx c (posted { base with g := y.g, wrote := y.wrote, bellHi := bellHiOf x, done := x.done + b.n + 1 }) k with
          cops := k.cops.map fun o => if ∃ t ∈ b.tags, awaiting t o then { o with committed := true } else o
          step := k.step ++ b.tags.map fun t => .token t true
          ceNew := k.ceNew + b.ce } s u ∧
        (b.fault = none → t = u) ∧ ∀ f, b.fault = some f → FaultTaken e c f.1 u t) ∧
    ((taken = true → inCode c b.target = true) → taken ≠ b.predicted → sound →
      ∃ t, exec (.branchResolve e c) s = .next t ∧ squashed (if taken then b.target else b.pc + 4) 1 t) ∧
    (taken = true → inCode c b.target = false → sound →
      ∃ t u, exec (.branchResolve e c) s = .next t ∧ squashed b.pc 0 u ∧ FaultTaken e c 0x02 u t)

/-! ### Dyhar: time and special registers (R169 to R171, R176) -/

/-- BELL, LAND, MFS and MTS read and write what R169 gives: the frame's tick, BELLHI, the landing number, the PC, FLAGS and
TAGFREE reach rd; a read of the running bell time latches its upper half in BELLHI; MTS clears the VEXC bits written as 1. -/
def Obligations.TimeAndSpecialRegisters : Prop :=
  ∀ (e : EngIx) (c : Ctx) (rd rs1 : GReg) (s : State),
    let x := ctxAt e c s
    let k := (engOf e s).core
    (Ready e c true [rd] s →
      let P := fun (i : Instr) (v : Word) => ∃ t, exec i s = .next t ∧ RegResult e c rd v s t
      let L := fun (i : Instr) => ∃ t y z, exec i s = .next t ∧
        z = (match x.spec with
          | none => { x with bellHi := (s.bell.time >>> 32).setWidth 16 }
          | some b => { x with spec := some { b with heldBell := some ((s.bell.time >>> 32).setWidth 16) } }) ∧
        Writes rd (s.bell.time.setWidth 32) z y ∧ CtxMoves e c (passed y) s t
      L (.bell e c rd 0) ∧
      P (.bell e c rd 1) ((bellHiOf x).setWidth 32) ∧
      P (.bell e c rd 2) (s.bell.tickTime.setWidth 32) ∧
      P (.bell e c rd 3) ((s.bell.tickTime >>> 32).setWidth 32) ∧
      P (.land e c rd) s.bell.landNo ∧
      P (.mfs e c rd 0) x.pc ∧
      P (.mfs e c rd 1) (x.vexc.setWidth 32 <<< 16 ||| x.flags.setWidth 32 <<< 1 ||| if c = .ext then 1 else 0) ∧
      P (.mfs e c rd 2) s.bell.landNo ∧
      L (.mfs e c rd 3) ∧
      P (.mfs e c rd 4) ((bellHiOf x).setWidth 32) ∧
      P (.mfs e c rd 5) (match c with
        | .head => BitVec.ofNat 32 ((32 - pullsInUse k) + 2 ^ 8 * (16 - copsInUse .head k) +
            2 ^ 16 * (8 - sharedInUse .head k) + 2 ^ 24 * (8 - postsInUse k))
        | .ext => BitVec.ofNat 32 (2 ^ 8 * (8 - copsInUse .ext k) + 2 ^ 16 * (8 - sharedInUse .ext k)))) ∧
    (Ready e c false [rs1] s →
      ∃ t, exec (.mts e c rs1 1) s = .next t ∧
        CtxMoves e c (passed { x with vexc := x.vexc &&& ~~~((readReg x rs1 >>> 16).setWidth 8) }) s t)

/-! ### Dyhar: the stream buffer and events (R179 to R182) -/

/-- A PULL takes a tag and moves on; its completion takes the entry at the front of the slot's queue, stores its 16 bytes,
writes word 1 to rd and returns the tag. A sample clears the slot's bubble count, a bubble token replaces the bubble record
and adds to the count, and an end-of-frame mark is noted (R179, R181); a PULL behind it faults the context with STREAM. An entry with an error that cannot be corrected faults the
context with ECC_DED (R163, R187). -/
def Obligations.PullsTakeEntries : Prop :=
  (∀ (e : EngIx) (rd rs1 : GReg) (slot : Fin 8) (s : State), Ready e .head false [rs1, rd] s →
    let x := ctxAt e .head s
    let k := (engOf e s).core
    let a := (readReg x rs1).toNat
    slot.val < headsServed (engOf e s) → slot.val ∉ k.marks → a % 16 = 0 → ownData .head a = true → pullsInUse k < 32 →
    NoWriteInFlight e .head a 16 s → vldOverlaps .head k a 16 = false →
    ∃ t, exec (.pull e .head rd rs1 slot) s = .next t ∧
      CoreMoves e { k with head := passed x, pulls := k.pulls ++ [{ slot := slot, rd := rd, addr := a }] } s t) ∧
  (∀ (e : EngIx) (p : PullOp) (y : Entry) (rest : List Entry) (s : State), InStep e s →
    let k := (engOf e s).core
    k.pulls.find? (fun p => (queueOf p.slot k).length != 0) = some p → queueOf p.slot k = y :: rest → p.slot ∉ k.marks →
    mayStore .head p.addr 16 = true → replayOf p.slot k = [] →
    (k.ecc.any (streamHit p.slot 0 3) = false →
      ∃ t k', exec (.pullComplete e) s = .next t ∧ CoreMoves e k' s t ∧
        k' = { k with head := k'.head, dmem := k'.dmem, vmem := k'.vmem, queues := k'.queues, replay := k'.replay
                      pulls := k.pulls.erase p, bub := k'.bub, marks := k'.marks
                      step := k.step ++ [.mem .head p.addr (entryBytes y)], ecc := k'.ecc } ∧
        (∀ q, queueOf q k' = if q = p.slot then rest else queueOf q k) ∧ (∀ q, replayOf q k' = replayOf q k) ∧
        (∀ r, r ≠ 0 → tabGet 0 k'.head.g r = if r = p.rd then y.w1 else tabGet 0 k.head.g r) ∧
        k'.head = { k.head with
          g := k'.head.g, wrote := k.head.wrote ++ if p.rd = 0 then [] else [(p.rd, y.w1)]
          block := if k.head.block = .pull ∨ k.head.block = .tag then .none else k.head.block } ∧
        (∀ b, localByte k' b = if p.addr ≤ b ∧ b < p.addr + 16 then
            (entryWord y ((b - p.addr) / 4) >>> (8 * ((b - p.addr) % 4))).setWidth 8 else byteAt e s b) ∧
        (∀ m, m ∈ k'.marks ↔ m ∈ k.marks ∨ (m = p.slot ∧ 2 ≤ entryKind y)) ∧
        ∀ q, tabGet .reset k'.bub q =
          let b := tabGet .reset k.bub q
          if q = p.slot ∧ entryKind y = 0 then { b with sum := 0 }
          else if q = p.slot ∧ entryKind y = 1 then
            { w0 := y.w2.setWidth 24, contIn := y.w3.getLsbD 0, contOut := y.w3.getLsbD 1, valid := true,
              sum := min 0xFFFFFFFF (b.sum + y.w2.toNat % 2 ^ 16) }
          else b) ∧
    (k.ecc.any (fun z => streamHit p.slot 0 3 z && z.double) = true → k.head.halted = none →
      ∃ t, exec (.pullComplete e) s = .next t ∧ FaultTaken e .head 0x05 s t)) ∧
  (∀ (e : EngIx) (p : PullOp) (s : State), InStep e s →
    let k := (engOf e s).core
    k.pulls.find? (fun p => (queueOf p.slot k).length != 0) = some p → p.slot ∈ k.marks → k.head.halted = none →
    ∃ t, exec (.pullComplete e) s = .next t ∧ FaultTaken e .head 0x09 s t)

/-- PEEK reads a word of the next unclaimed entry, or the number of them, and takes none; with no entry there it waits and
takes it up when one has come. BUBQ gives the slot's bubble record or its count, and clears the record, not the count,
where it asks for that; with a PULL of the slot in flight it waits for it (R179). -/
def Obligations.StreamQueries : Prop :=
  ((∀ (e : EngIx) (rd : GReg) (slot : Fin 8) (w : Fin 4) (s : State), Ready e .head false [rd] s →
     let x := ctxAt e .head s
     let k := (engOf e s).core
     let mine := (k.pulls.filter fun p => p.slot == slot.val).length
     slot.val < headsServed (engOf e s) → pullsInUse k < 32 →
     (∃ t, exec (.peek e .head rd slot w true) s = .next t ∧
       RegResult e .head rd (BitVec.ofNat 32 ((queueOf slot k).length - mine)) s t) ∧
     (slot.val ∉ k.marks → k.ecc.any (peekHit k slot w) = false → ∀ y, (queueOf slot k)[mine]? = some y →
       ∃ t, exec (.peek e .head rd slot w false) s = .next t ∧ RegResult e .head rd (entryWord y w) s t) ∧
     (slot.val ∉ k.marks → (queueOf slot k)[mine]? = none →
       ∃ t, exec (.peek e .head rd slot w false) s = .next t ∧
         CoreMoves e { k with head := { x with block := .peek rd slot w }
                              ext := if k.ext.block = .yield_ then { k.ext with block := .none } else k.ext } s t)) ∧
   (∀ (e : EngIx) (rd slot w : Nat) (y : Entry) (s : State), InStep e s →
     let x := ctxAt e .head s
     let k := (engOf e s).core
     x.block = .peek rd slot w → k.ecc.any (peekHit k slot w) = false →
     (queueOf slot k)[(k.pulls.filter fun p => p.slot == slot).length]? = some y →
     ∃ t z, exec (.peekResume e) s = .next t ∧ Writes rd (entryWord y w) { x with block := .none } z ∧
       CtxMoves e .head (passed z) s t)) ∧
  ((∀ (e : EngIx) (rd : GReg) (slot : Fin 8) (sel : Fin 4) (clr : Bool) (s : State), Ready e .head false [rd] s →
     let x := ctxAt e .head s
     let k := (engOf e s).core
     let b := tabGet .reset k.bub slot
     sel.val < 2 → slot.val < headsServed (engOf e s) → pullsInUse k < 32 →
     (k.pulls.any (fun p => p.slot == slot.val) = false →
       ∃ t z bub, exec (.bubq e .head rd slot sel clr) s = .next t ∧ Writes rd (bubbleWordOf sel b) x z ∧
         CoreMoves e { k with head := passed z, bub := bub } s t ∧
         ∀ q, tabGet .reset bub q =
           if q = slot.val ∧ clr = true then { BubRec.reset with sum := b.sum } else tabGet .reset k.bub q) ∧
     (k.pulls.any (fun p => p.slot == slot.val) = true →
       ∃ t, exec (.bubq e .head rd slot sel clr) s = .next t ∧
         CoreMoves e { k with head := { x with block := .bubq rd slot sel clr }
                              ext := if k.ext.block = .yield_ then { k.ext with block := .none } else k.ext } s t)) ∧
   (∀ (e : EngIx) (rd slot sel : Nat) (clr : Bool) (s : State), InStep e s →
     let x := ctxAt e .head s
     let k := (engOf e s).core
     let b := tabGet .reset k.bub slot
     x.block = .bubq rd slot sel clr → k.pulls.any (fun p => p.slot == slot) = false →
     ∃ t z bub, exec (.bubqResume e) s = .next t ∧ Writes rd (bubbleWordOf sel b) { x with block := .none } z ∧
       CoreMoves e { k with head := passed z, bub := bub } s t ∧
       ∀ q, tabGet .reset bub q =
         if q = slot ∧ clr = true then { BubRec.reset with sum := b.sum } else tabGet .reset k.bub q))

/-- A POST hands 16 bytes of head data to the event port by the POST lane. The port takes the oldest post once the shadow has
caught up: an event of a served head with a good CRC joins the frame's events; one that fails the check faults the head context
(EVENT); in a fulling window it is dropped (R182, R213). -/
def Obligations.PostedEvents : Prop :=
  (∀ (e : EngIx) (rs1 : GReg) (kind : Fin 4) (s : State), Ready e .head false [rs1] s →
    let x := ctxAt e .head s
    let k := (engOf e s).core
    let a := (readReg x rs1).toNat
    a % 16 = 0 → ownData .head a = true → postsInUse k < 8 → NoWriteInFlight e .head a 16 s → Sound e a 16 s →
    ∃ t, exec (.post e .head rs1 kind) s = .next t ∧
      CoreMoves e { k with
        head := passed x
        step := k.step ++ [.post kind.val ((List.range 16).map fun i => byteAt e s (a + i))] } s t) ∧
  (∀ (e : EngIx) (kind : Nat) (l : List Byte) (rest : List (Nat × List Byte)) (s : State), InStep e s →
    let g := catchUp (engOf e s)
    let k := g.core
    let freed : Core := { k with
      posts := rest
      head := if k.head.block = .pull ∨ k.head.block = .tag then { k.head with block := .none } else k.head }
    let served := fun h : Nat => g.slots.any fun p => p.2 == h + 1
    let crcOk := crc16 (l.take 14) = BitVec.ofNat 16 (fieldLE l 14 2)
    let left := fun m : State => ∃ u, EngBecomes e g s u ∧ CoreMoves e freed u m
    let took := fun (ev : List (Nat × Event)) (t : State) =>
      ∃ m, left m ∧ t = { m with frame := { m.frame with events := m.frame.events ++ ev } }
    k.posts = (kind, l) :: rest →
    (g.state ≠ .service → ∃ t, exec (.postEventPort e) s = .next t ∧ took [] t) ∧
    (g.state = .service → kind = 1 → served (parseState l).head = true → crcOk →
      ∃ t, exec (.postEventPort e) s = .next t ∧ took [(e.val, .state (parseState l))] t) ∧
    (g.state = .service → kind = 2 → served (parseRec l).head = true → crcOk →
      ∃ t, exec (.postEventPort e) s = .next t ∧ took [(e.val, .pass (parseRec l))] t) ∧
    (g.state = .service → k.head.halted = none →
      ¬(kind = 1 ∧ served (parseState l).head = true ∧ crcOk) → ¬(kind = 2 ∧ served (parseRec l).head = true ∧ crcOk) →
      ∃ t m, exec (.postEventPort e) s = .next t ∧ left m ∧ FaultTaken e .head 0x0B m t))

/-- Wheel records and STATE operands survive their 16 bytes: reading back what R107 and R182 lay out gives the record, its fields
stand where R107 and R108 put them, and the last two bytes are the CRC of the others. -/
def Obligations.EventOperands : Prop :=
  (∀ r : WheelRec, r.cls < 16 → r.head < 512 → r.speed < 2 ^ 16 → r.spacing < 2 ^ 16 → r.conf < 2 ^ 8 → r.flags < 2 ^ 8 →
    r.rsv < 4 →
    let b := recBytes r
    b.length = 16 ∧ parseRec b = r ∧ fieldLE b 0 6 = r.centre.toNat ∧ fieldLE b 6 2 % 512 = r.head ∧
    (fieldLE b 6 2).testBit 9 = r.dir ∧ fieldLE b 6 2 / 1024 % 16 = r.cls ∧ fieldLE b 6 2 / 16384 = r.rsv ∧
    fieldLE b 8 2 = r.speed ∧ fieldLE b 10 2 = r.spacing ∧ fieldLE b 12 1 = r.conf ∧ fieldLE b 13 1 = r.flags ∧
    crc16 (b.take 14) = BitVec.ofNat 16 (fieldLE b 14 2)) ∧
  (∀ v : StateEv, v.head < 512 → v.cause < 256 →
    let b := stateBytes v
    b.length = 16 ∧ parseState b = v ∧ crc16 (b.take 14) = BitVec.ofNat 16 (fieldLE b 14 2))

/-! ### Dyhar: WLAND, system calls, traps (R176, R180, R184, R185, R187, R225) -/

/-- WLAND blocks the head context until the release, or meets a fatal exception that waits; YIELD gives way; DIAG hands g4 and
g5 over, or does nothing where the last release found THROTTLE (R346); HREC takes the 64 bytes at g4 as the hand-over record where HREQ is set, and answers 0 in
g2 where it is not. The POST lane takes what DIAG and HREC hand over. -/
def Obligations.SystemCalls : Prop :=
  (∀ (e : EngIx) (rd : GReg) (s : State), Ready e .head false [rd] s →
    let x := ctxAt e .head s
    let k := (engOf e s).core
    (x.fatal = [] → ∃ t, exec (.wland e .head rd) s = .next t ∧
      CoreMoves e { k with head := { x with block := .wland rd }
                           ext := if k.ext.block = .yield_ then { k.ext with block := .none } else k.ext } s t) ∧
    (∀ f rest, x.fatal = f :: rest → ∃ t, exec (.wland e .head rd) s = .next t ∧ FaultTaken e .head f.2.2 s t)) ∧
  (∀ (e : EngIx) (c : Ctx) (s : State), Ready e c false [] s →
    ∃ t, exec (.ecallYield e c) s = .next t ∧ CtxMoves e c { passed (ctxAt e c s) with block := .yield_ } s t) ∧
  (∀ (e : EngIx) (c : Ctx) (s : State), Ready e c false [4, 5] s →
    let x := ctxAt e c s
    let k := (engOf e s).core
    ∃ t, exec (.ecallDiag e c) s = .next t ∧
      CoreMoves e { setCtx c (passed x) k with
        step := k.step ++ if s.pmc.shed then [] else [.diag (readReg x 4) (readReg x 5)] } s t) ∧
  (∀ (e : EngIx) (s : State), Ready e .head false [4, 2] s →
    let x := ctxAt e .head s
    let k := (engOf e s).core
    let a := (readReg x 4).toNat
    (x.flags.getLsbD 6 = false → ∃ t, exec (.ecallHrec e .head) s = .next t ∧ RegResult e .head 2 0 s t) ∧
    (x.flags.getLsbD 6 = true → 0x10000000 ≤ a → a + 64 ≤ 0x10007000 → NoWriteInFlight e .head a 64 s → Sound e a 64 s →
      ∃ t l y, exec (.ecallHrec e .head) s = .next t ∧ Writes 2 1 x y ∧
        CoreMoves e { k with head := passed y
                             step := k.step ++ [.hrec l (k.marks.contains (topSlot (engOf e s)))] } s t ∧
        l.length = 64 ∧ l.take 54 = (List.range 54).map (fun i => byteAt e s (a + i)) ∧
        (l.drop 56).take 4 = leBytes 4 (frameNo s).toNat ∧
        l.drop 60 = leBytes 4 (crc32c (l.take 60)).toNat))

/-- TRAP and HALT raise their own fault in the context; TRAP keeps its imm as the fault's code, and HALT ends the extension
program until the engine next enters service (R185); a word that is no instruction raises ILLEGAL. -/
def Obligations.TrapsAndHalts : Prop :=
  ∀ (e : EngIx) (c : Ctx) (s : State),
    (Ready e c false [] s →
      (∀ code : BitVec 16, ∃ t, exec (.trap e c code) s = .next t ∧ FaultTaken e c 0x07 s t ∧ (engOf e t).trap = code) ∧
      (∃ t, exec (.halt e c) s = .next t ∧ FaultTaken e c 0x08 s t ∧
        (engOf e t).core.xOff = (if c = .ext then true else (engOf e s).core.xOff))) ∧
    (∀ w : Word, Ready e c true [] s → Dyhar.decode e c w = none →
      ∃ t, exec (.illegalInstruction e c w) s = .next t ∧ FaultOf e c 0x01 s t)

/-! ### The signal coprocessor (R173, R176, R198 to R206) -/

/-- Each vector instruction hands its operation to the coprocessor queue, with its tag, registers, mode and the value of its
general register, committed where no branch is unresolved. -/
def Obligations.VectorDispatches : Prop :=
  ∀ (e : EngIx) (c : Ctx) (tg : BitVec 5) (vd va vb : VReg) (gs : GReg) (m : BitVec 4) (s : State),
    let P := fun (i : Instr) (o : CopOp) (r : Nat) => Dispatchable e o s → ∃ t, exec i s = .next t ∧ Dispatched e o r s t
    (Ready e c true [gs] s →
      P (.vld e c tg vd gs m) (copOpOf e c .vld tg.toNat vd 0 0 gs m.toNat s) gs ∧
      P (.vst e c tg va gs m) (copOpOf e c .vst tg.toNat 0 va 0 gs m.toNat s) gs ∧
      P (.vfir e c tg vd va vb gs m) (copOpOf e c .vfir tg.toNat vd va vb gs m.toNat s) gs ∧
      P (.vscale e c tg vd va gs m) (copOpOf e c .vscale tg.toNat vd va 0 gs m.toNat s) gs) ∧
    (Ready e c true [] s →
      P (.vmac e c tg vd va vb m) (copOpOf e c .vmac tg.toNat vd va vb 0 m.toNat s) 0 ∧
      P (.vcorr e c tg vd va vb m) (copOpOf e c .vcorr tg.toNat vd va vb 0 m.toNat s) 0 ∧
      P (.vmag e c tg vd va vb m) (copOpOf e c .vmag tg.toNat vd va vb 0 m.toNat s) 0 ∧
      P (.vnorm e c tg vd va m) (copOpOf e c .vnorm tg.toNat vd va 0 0 m.toNat s) 0 ∧
      P (.vadd e c tg vd va vb m) (copOpOf e c .vadd tg.toNat vd va vb 0 m.toNat s) 0 ∧
      P (.vmax e c tg vd va vb m) (copOpOf e c .vmax tg.toNat vd va vb 0 m.toNat s) 0 ∧
      P (.vred e c tg vd va m) (copOpOf e c .vred tg.toNat vd va 0 0 m.toNat s) 0)

/-- The life of an operation: it starts with its operands as they stand then and computes; it ends into a hold register, an
uncorrectable check adding VEXC bit 6, or is dropped when it was killed, which a failed check then shows in ENG_FLT and removes
the engine for; a committed one completes, writes its vector register or memory, posts its exceptions and returns its tag. One
that is to be discarded only returns its tag. A WLAND that waits faults at a fatal exception. -/
def Obligations.CoprocessorOperations : Prop :=
  ∀ (e : EngIx) (tg : TagIx) (o : CopOp) (s : State), InStep e s →
    let k := (engOf e s).core
    let x := ctxAt e o.ctx s
    let freed := fun y : CtxSt => { y with block := if y.block = .tag then .none else y.block }
    let others := k.cops.filter fun p => p.tag != tg.val
    k.cops.find? (fun o => o.tag == tg.val) = some o →
    (copReady o k = true → unitFree (unitOf o) k = true → headFirst o k = true →
      ∃ t u, exec (.copOpStart e tg) s = .next t ∧ t = { u with free := u.free + 1 } ∧
        CoreMoves e { k with
          cops := k.cops.map fun p => if p.tag = tg.val then
            { p with stage := .running, res := (copCompute o k s.free).1, exc := (copCompute o k s.free).2
                     ded := k.ecc.any fun y => startHit o y && y.double
                     ce := (k.ecc.filter fun y => startHit o y && !y.double).length } else p
          ecc := k.ecc.filter fun y => !startHit o y || y.double } s u) ∧
    (o.stage = .running → o.killed = false → ∀ bad : Bool,
      ∃ t, exec (.copOpEnd e tg bad) s = .next t ∧
        CoreMoves e { k with cops := k.cops.map fun p => if p.tag = tg.val then
          { p with stage := .computed, exc := if bad then p.exc ||| 0x40 else p.exc } else p } s t) ∧
    (o.stage = .running → o.killed = true →
      (∃ t, exec (.copOpEnd e tg false) s = .next t ∧ CoreMoves e { setCtx o.ctx (freed x) k with cops := others } s t) ∧
      (∃ t, exec (.copOpEnd e tg true) s = .next t ∧
        (fltReg clsEng e t).getLsbD 6 = true ∧ (fltReg clsEng e t).getLsbD 0 = true ∧
        ((engOf e s).state = .service → e.val ∉ s.frame.late → k.dead = none →
          (engOf e t).state = .out ∧ (engOf e t).errCause = 0x03))) ∧
    (o.stage = .computed → o.committed = true → o.killed = false →
      let dest := if o.kind = .vst then none else some o.vd
      let fatal := x.fatal ++ (if o.ded then [(o.tag, dest, 0x05)] else []) ++
        (if o.exc.toNat < 64 then [] else [(o.tag, dest, 0x0C)])
      let posted := fun y : CtxSt => freed { y with vexc := x.vexc ||| o.exc, fatal := fatal }
      let n := if o.mode = 0 then 36 else 32
      let ends := fun (K : Core) => ∃ t u, exec (.copComplete e tg) s = .next t ∧ CoreMoves e K s u ∧
        (match K.head.block, K.head.fatal with
          | .wland _, f :: _ => K.head.halted = none → FaultTaken e .head f.2.2 u t
          | _, _ => t = u)
      (o.discard = true → ends { setCtx o.ctx (freed x) k with cops := others }) ∧
      (o.discard = false → o.kind ≠ .vst →
        ∃ v, (∀ r, tabGet .zero v r = if r = o.vd then o.res else tabGet .zero x.v r) ∧
          ends { setCtx o.ctx (posted { x with v := v }) k with
            cops := others, step := k.step ++ [.vec o.ctx o.vd o.res], ceNew := k.ceNew + o.ce }) ∧
      (o.discard = false → o.kind = .vst → mayStore o.ctx o.gs.toNat n = true →
        k.ecc.any (partHit o.gs.toNat n) = false →
        ∃ (m m' : Mem) (l : List Byte), l.length = n ∧
          (∀ a, localByte { k with dmem := m, vmem := m' } a =
            if o.gs.toNat ≤ a ∧ a < o.gs.toNat + n then l.getD (a - o.gs.toNat) 0 else byteAt e s a) ∧
          (∀ i, i < 32 → l.getD i 0 = (o.res.m.getD (i / 2) 0 >>> (8 * (i % 2))).setWidth 8) ∧
          (∀ i, i < 4 → n = 36 → l.getD (32 + i) 0 = (o.res.e.signExtend 32 >>> (8 * i)).setWidth 8) ∧
          ends { setCtx o.ctx (posted x) k with
            dmem := m, vmem := m', ecc := k.ecc.filter (fun y => !localHit o.gs.toNat n y), cops := others
            step := k.step ++ [.mem o.ctx o.gs.toNat l], ceNew := k.ceNew + o.ce }))

/-- What an operation computes from its operands (R194, R195, R196): a VST stores its vector, a VLD of mode 1 loads raw mantissas,
VSCALE of mode 0 moves the exponent alone while it stays in range, VMAG of mode 1 gives the binary angle of each lane, and every other
operation forms the exact lanes of R194, rounds each once and takes the smallest exponent that holds them all, saturating above 127
(OVF) and losing bits below -128 (UNF). VNORM, VMAX and VRED of mode 1 raise nothing; VADD and VRED of mode 0 never underflow. -/
def Obligations.OperationResults : Prop :=
  ∀ (o : CopOp) (k : Core) (n : Nat),
    let x := ctxOf o.ctx k
    let v := (copCompute o k n).1
    let exc := (copCompute o k n).2
    let reg := fun r => tabGet .zero x.v r
    let A := laneValue (reg o.va)
    let B := laneValue (reg o.vb)
    let byte := localByte k
    let image := fun a : Nat =>
      ({ m := (List.range 16).map fun i => byte (a + 2 * i + 1) ++ byte (a + 2 * i), e := byte (a + 32) } : Vec)
    let imageOk := fun a : Nat =>
      byte (a + 35) ++ byte (a + 34) ++ byte (a + 33) ++ byte (a + 32) = (byte (a + 32)).signExtend 32
    let rule := fun r : Nat → ℚ => OutputRule (fun i => (r i : ℝ)) v exc
    let zero0 := fun (r : ℚ) (i : Nat) => if i = 0 then r else 0
    (o.kind = .vst → v = reg o.va ∧ exc = 0) ∧
    (o.kind = .vld → o.mode = 0 → v = image o.gs.toNat ∧ exc = 0) ∧
    (o.kind = .vld → o.mode = 1 → v = { image o.gs.toNat with e := 0 } ∧ exc = 0) ∧
    (o.kind = .vfir → o.mode < 4 → imageOk o.gs.toNat → (o.mode = 3 → imageOk (o.gs.toNat + 36)) →
      let taps := [4, 8, 16, 32].getD o.mode 0
      let coeff := fun i : Nat => if i < 16 then laneValue (image o.gs.toNat) i else laneValue (image (o.gs.toNat + 36)) (i - 16)
      let sample := fun j : Int =>
        if 0 ≤ j then A j.toNat else if -16 ≤ j then B (16 + j).toNat else laneValue (reg ((o.vb + 1) % 16)) (32 + j).toNat
      rule fun i => ∑ t ∈ Finset.range taps, coeff t * sample ((i : Int) - t)) ∧
    (o.kind = .vmac → rule fun i => laneValue (reg o.vd) i + A i * B i) ∧
    (o.kind = .vcorr → rule fun i => ∑ t ∈ Finset.range (16 - i), A t * B (t + i)) ∧
    (o.kind = .vmag → o.mode = 0 → OutputRule (fun i => Real.sqrt ((A i * A i + B i * B i : ℚ) : ℝ)) v exc) ∧
    (o.kind = .vmag → o.mode = 1 → v.e = 0 ∧ v.m.length = 16 ∧
      (∀ i < 16, ∃ θ : Int, -128 ≤ θ ∧ θ ≤ 127 ∧ (v.m.getD i 0).toInt = θ * 256 ∧
        (A i = 0 → B i = 0 → θ = 0) ∧
        (¬(A i = 0 ∧ B i = 0) →
          let t := Complex.arg ⟨(A i : ℝ), (B i : ℝ)⟩ * 128 / Real.pi
          |t - θ| ≤ 1 / 2 ∨ (θ = -128 ∧ 127 + 1 / 2 ≤ t))) ∧
      (exc = 0 ∨ exc = 4) ∧ (exc = 4 ↔ ∃ i < 16, A i = 0 ∧ B i = 0)) ∧
    (o.kind = .vnorm → rule A ∧ exc = 0) ∧
    (o.kind = .vadd → (rule fun i => if o.mode = 0 then A i + B i else A i - B i) ∧ exc ≠ 2) ∧
    (o.kind = .vscale → o.mode = 0 →
      let e := (reg o.va).e.toInt + (o.gs.setWidth 8).toInt
      (-128 ≤ e ∧ e ≤ 127 → v.m = (reg o.va).m ∧ v.e.toInt = e ∧ exc = 0) ∧
      (¬(-128 ≤ e ∧ e ≤ 127) → rule fun i => A i * 2 ^ (o.gs.setWidth 8).toInt)) ∧
    (o.kind = .vscale → o.mode = 1 → rule fun i => A i * ((o.gs.setWidth 16).toInt / 32768)) ∧
    (o.kind = .vmax → (rule fun i => if o.mode = 0 then max (A i) (B i) else if |A i| < |B i| then B i else A i) ∧ exc = 0) ∧
    (o.kind = .vred → o.mode = 0 → rule (zero0 (∑ t ∈ Finset.range 16, A t)) ∧ exc ≠ 2) ∧
    (o.kind = .vred → o.mode = 1 → rule (zero0 ((List.range 16).foldl (fun y t => max y (A t)) (A 0))) ∧ exc = 0) ∧
    (o.kind = .vred → o.mode = 2 → rule (zero0 (∑ t ∈ Finset.range 16, A t * A t)))

/-- VWAIT moves on where every tag it names is free and no fatal exception waits on them; it faults where one does; otherwise
it waits, and moves on when the last of them returns (R176, R198). -/
def Obligations.VwaitWaitsForTags : Prop :=
  ∀ (e : EngIx) (c : Ctx) (mask : BitVec 24) (s : State),
    let k := (engOf e s).core
    let x := ctxAt e c s
    let named := fun t : Nat => (if mask = 0 then tagInRange c t else mask.getLsbD t) = true
    let back := ∀ o ∈ k.cops, o.tag < 24 → ¬named o.tag
    let clean := ∀ f ∈ x.fatal, f.1 < 24 → ¬named f.1
    (Ready e c false [] s → (∀ t < 24, named t → tagInRange c t = true) → clean →
      (back → ∃ t, exec (.vwait e c mask) s = .next t ∧ Passed e c s t) ∧
      (¬back → ∃ t, exec (.vwait e c mask) s = .next t ∧
        CoreMoves e (if c = .head ∧ k.ext.block = .yield_ then
            { k with head := { x with block := .vwait mask }, ext := { k.ext with block := .none } }
          else setCtx c { x with block := .vwait mask } k) s t)) ∧
    (Ready e c false [] s → (∀ t < 24, named t → tagInRange c t = true) →
      ∀ f l r, x.fatal = l ++ f :: r → (∀ y ∈ l, y.1 < 24 → ¬named y.1) → f.1 < 24 → named f.1 →
        ∃ t, exec (.vwait e c mask) s = .next t ∧ FaultTaken e c f.2.2 s t) ∧
    (InStep e s → x.block = .vwait mask → back → clean →
      ∃ t, exec (.vwaitResume e c) s = .next t ∧ CtxMoves e c (passed { x with block := .none }) s t)

/-! ### Reset (R24, R49, R317, R328, R401) -/

/-- The machine after reset: the bell at 0 with its period 2 500, its trim registers in the middle and BELL_STAT reading
HOLD, TREE_A and TREE_B; mode BOOT; no image; every fault register clear; heads, sections, engines, rings, ports and stop
groups unused and every safety output low; of the power domains D00 in service and D01 ramping; memories empty and the
queue of commands empty. The three invariants of every step hold of it. -/
def Obligations.ResetState : Prop :=
  let s := State.reset
  s.bell.time = 0 ∧ s.bell.timeB = ~~~s.bell.time ∧ s.bell.landNo = 0 ∧ s.bell.period = 0x09C4 ∧ s.bell.trimA = 0x8000 ∧ s.bell.trimB = 0x8000 ∧
  s.bell.stat = 7 ∧ s.bell.locked = false ∧ s.dev.mode = .boot ∧ s.dev.safe = false ∧ s.img.state = .empty ∧
  (∀ c i, fltReg c i s = 0) ∧ s.flt.first = none ∧
  (∀ h, (headOf h s).state = .unassigned) ∧ (∀ n, (secOf n s).state = .unconfigured) ∧
  (∀ e, (engOf e s).state = .off) ∧ (∀ k, (ringOf k s).state = .unused) ∧
  (∀ p, (portOf p s).link = .down ∧ (portOf p s).txen = false) ∧
  (∀ g, (grpOf g s).state = .unused ∧ (grpOf g s).tra = false ∧ (grpOf g s).trb = false ∧ (grpOf g s).srq = false) ∧
  (∀ d, (domOf d s).state = if d = 0 then .on else if d = 1 then .ramp else .off) ∧
  s.ha.window = [] ∧ s.ha.mailbox = [] ∧ s.hb.window = [] ∧ s.hb.mailbox = [] ∧ s.pending = [] ∧
  Canonical s ∧ OutputsFollow s ∧ ∀ e, CoresAgree e s

/-! ### The bell (R23 to R28, R38 to R46, R49 to R51) -/

/-- Host accesses to the bell: LOAD and LOAD_PPS arm a preset, BELL_PERIOD takes 1 250 to 20 000 and refuses every other
value with CFG, none of them once the bell is locked; at a tick whose START has still to be judged they wait, and the lock wins
over them (R380). A read of a low half latches the upper half for the port. -/
def Obligations.BellRegisterAccesses : Prop :=
  ∀ (p : HostId) (v : Word) (s : State),
    let n := v.toNat % 2 ^ 15
    hostUp p s = true → domOn (if s.bell.outA then 3 else 2) s = true →
    (s.bell.locked = false → s.dev.startTick = true →
      let waits := fun w => .next { s with bell := { s.bell with waits := s.bell.waits ++ [w] } }
      exec (.bellLoad p) s = waits (0x04, 1) ∧ exec (.bellLoadPps p) s = waits (0x04, 2) ∧
      exec (.bellPeriodWrite p v) s = waits (0x08, v)) ∧
    (s.bell.locked = false → s.dev.startTick = false →
      exec (.bellLoad p) s = .next { s with bell := { s.bell with load := true } } ∧
      exec (.bellLoadPps p) s = .next { s with bell := { s.bell with loadPps := true, loadPpsAt := s.bell.time } } ∧
      (1250 ≤ n → n ≤ 20000 → exec (.bellPeriodWrite p v) s = .next { s with bell := { s.bell with period := n } }) ∧
      (n < 1250 ∨ 20000 < n → ∃ t, exec (.bellPeriodWrite p v) s = .next t ∧ Raises [(clsBell, 0, 7)] s t)) ∧
    (s.bell.locked = true →
      exec (.bellLoad p) s = .next s ∧ exec (.bellLoadPps p) s = .next s ∧ exec (.bellPeriodWrite p v) s = .next s) ∧
    exec (.bellTimeLoRead p) s = .next (setHost p { hostOf p s with
      readData := s.bell.time.setWidth 32, timeHi := (s.bell.time >>> 32).setWidth 16 } s) ∧
    exec (.bellPpsLoRead p) s = .next (setHost p { hostOf p s with
      readData := s.bell.ppsTime.setWidth 32, ppsHi := (s.bell.ppsTime >>> 32).setWidth 16 } s)

/-- A receiver that finds BELLREF implausible drops REF_OK and, once the reference has been good, sets REF_LOSS; a plausible
measurement restores it, and moves the trim by no step or by one toward the reference, never past the ends of its register and not
within 100 ms of the last; a tree that is out measures nothing. A BELLPPS edge is stamped with the bell time; an interval more than
1 000 ticks off 1 s sets PPS_RANGE; an edge with no reference judges no interval (DESIGN CHOICE, log 87). With a LOAD_PPS pending
for more than 2 ticks in BOOT the preset takes effect first, and the edge carries its time (DEDUCED, log 72). PPS_SEEN falls after
2 s without an edge. -/
def Obligations.ReferenceInputs : Prop :=
  (∀ (dev : Int) (missing : Bool) (s : State),
     let ok := missing = false ∧ -1000 ≤ dev ∧ dev ≤ 1000
     let lost := if s.bell.everOk then [(clsBell, 0, 0)] else []
     let step := fun (t t' : Nat) (at_ at' : Bell) =>
       (t' = t ∧ at' = at_) ∨
       (1000000 ≤ (s.bell.time - at_).toNat ∧ at' = s.bell.time ∧
         (0 < dev ∧ t' = min 0xFFFF (t + 1) ∨ dev < 0 ∧ t' = t - 1))
     (s.bell.outA = false → domOn 2 s = true →
       (ok → ∃ t tr at_, exec (.refMeasure .a dev missing) s = .next t ∧ step s.bell.trimA tr s.bell.trimAtA at_ ∧
         t = { s with bell := { s.bell with trimA := tr, trimAtA := at_, refA := true }, free := s.free + 1 }) ∧
       (¬ok → ∃ t, exec (.refMeasure .a dev missing) s = .next t ∧
         Raises lost { s with bell := { s.bell with refA := false }, free := s.free + 1 } t)) ∧
     (s.bell.outB = false → domOn 3 s = true →
       (ok → ∃ t tr at_, exec (.refMeasure .b dev missing) s = .next t ∧ step s.bell.trimB tr s.bell.trimAtB at_ ∧
         t = { s with bell := { s.bell with trimB := tr, trimAtB := at_, refB := true }, free := s.free + 1 }) ∧
       (¬ok → ∃ t, exec (.refMeasure .b dev missing) s = .next t ∧
         Raises lost { s with bell := { s.bell with refB := false }, free := s.free + 1 } t)) ∧
     (s.bell.outA = true ∨ domOn 2 s = false → exec (.refMeasure .a dev missing) s = .next s) ∧
     (s.bell.outB = true ∨ domOn 3 s = false → exec (.refMeasure .b dev missing) s = .next s)) ∧
  (∀ s : State,
     let d := (s.bell.time - s.bell.ppsMark).toNat
     let preset : Bell := s.bell.presetHi ++ s.bell.presetLo
     let due := s.bell.loadPps = true ∧ s.bell.locked = false ∧ 2 < (s.bell.time - s.bell.loadPpsAt).toNat
     (bellRuns s = false → exec .bellppsEdge s = .next s) ∧
     (bellRuns s = true → ¬due →
       ∃ t, exec .bellppsEdge s = .next t ∧
         Raises (if s.bell.ppsRef = true ∧ (d < 9999000 ∨ 10001000 < d) then [(clsBell, 0, 6)] else [])
           { s with bell := { s.bell with
             ppsTime := s.bell.time, ppsMark := s.bell.time, ppsCnt := s.bell.ppsCnt + 1, ppsRef := true, ppsSeen := true
             ppsInt := if s.bell.ppsRef then min 0x0FFFFFFF d else s.bell.ppsInt } } t) ∧
     (bellRuns s = true → due →
       ∃ t, exec .bellppsEdge s = .next t ∧ t.bell.time = preset ∧ t.bell.timeB = ~~~preset ∧
         t.bell.landNo = s.bell.landPreset ∧ t.bell.phase = 0 ∧ t.bell.tickTime = preset ∧ t.bell.ppsTime = preset ∧
         t.bell.ppsCnt = s.bell.ppsCnt + 1 ∧ t.bell.ppsSeen = true ∧ t.bell.load = s.bell.load ∧ t.bell.loadPps = false)) ∧
  (∀ s : State,
     (s.bell.ppsSeen = true → 20000000 ≤ (s.bell.time - s.bell.ppsMark).toNat →
       exec .ppsSeenExpiry s = .next { s with bell := { s.bell with ppsSeen := false } }) ∧
     (s.bell.ppsSeen = false ∨ (s.bell.time - s.bell.ppsMark).toNat < 20000000 → exec .ppsSeenExpiry s = .next s))

/-- The loss of the reference is holdover once it had been plausible for 65 536 edges: REF_LOSS, HOLD and the safe-stop timer,
the three missing ticks added; before that it only drops REF_OK. It ends at the next landing tick once the reference is back.
The timer expires after 1 s of ticks. Trees that disagree take one tree out, and the timer starts; the device stops where
neither or both are at fault, or where the other tree is out already (a tree that is out counts as at fault: DEDUCED, log 13). -/
def Obligations.HoldoverAndTrees : Prop :=
  ∀ s : State,
    let start := some (s.bell.ssStart.getD s.bell.time)
    (s.bell.everOk = true → inHoldover s = false →
      ∃ t, exec (.holdoverEntry false) s = .next t ∧
        Raises [(clsBell, 0, 0)] { s with bell := { s.bell with
          hold := true, lost := true, holdLand := 0, refA := false, refB := false, exitPending := false, ssStart := start } } t) ∧
    (s.bell.everOk = true → s.bell.hold = false → bellRuns s = true → (s.bell.load = false ∨ s.bell.locked = true) →
      s.bell.phase + 3 < s.bell.frameLen → s.bell.time.toNat + 3 < 2 ^ 48 → draining s = false →
      ∃ t ports, exec (.holdoverEntry true) s = .next t ∧
        Raises [(clsBell, 0, 0)] { s with ports := ports, flt := (settle s).flt, bell := { s.bell with
          time := s.bell.time + 3, timeB := s.bell.timeB - 3, phase := s.bell.phase + 3, hold := true, lost := true
          holdLand := 0, refA := false, refB := false, exitPending := false
          ssStart := some (s.bell.ssStart.getD (s.bell.time + 3)) } } t) ∧
    (s.bell.everOk = false →
      exec (.holdoverEntry false) s = .next { s with bell := { s.bell with
        refA := false, refB := false, exitPending := false } }) ∧
    (s.bell.hold = true → ¬(s.bell.outA = true ∧ s.bell.outB = true) →
      exec .holdoverExit s = .next { s with bell := { s.bell with
        refA := !s.bell.outA, refB := !s.bell.outB, exitPending := true, everOk := true
        ssStart := if s.bell.outA = true ∨ s.bell.outB = true then start else s.bell.ssStart } }) ∧
    (∀ b, s.bell.ssStart = some b → s.bell.ssExpired = false → 10000000 ≤ (s.bell.time - b).toNat →
      ∃ t, exec .safeStopTimerExpiry s = .next t ∧
        Raises [(clsBell, 0, 8)] { s with bell := { s.bell with ssExpired := true } } t) ∧
    (s.bell.outA = false → s.bell.outB = false →
      let single := if s.bell.everOk = true then start else s.bell.ssStart
      (∃ t, exec (.treeDisagreement true false) s = .next t ∧
        Raises [(clsBell, 0, 1), (clsBell, 0, 2)] { s with bell := { s.bell with outA := true, ssStart := single } } t) ∧
      (∃ t, exec (.treeDisagreement false true) s = .next t ∧
        Raises [(clsBell, 0, 1), (clsBell, 0, 3)] { s with bell := { s.bell with outB := true, ssStart := single } } t)) ∧
    (s.dev.safe = false → ∀ a b : Bool, (a || s.bell.outA) = (b || s.bell.outB) →
      ∃ u t, exec (.treeDisagreement a b) s = .next t ∧ Raises [(clsBell, 0, 1)] s u ∧ EntersSafe 0x04 u t)

/-- A landing tick counts bell time on to it, in both trees, and the landing number up by one, modulo their widths with the
wraps counted, closes the frame in service and waits for its commit; a frame whose commit is still due stops the device; START
in BOOT is taken up. Copies of the tick that lie further apart than 60 ns, or carry bell times that differ, set TREE_DIS. LOAD
makes the same tick load the presets instead (R23, R27, R29, R31, R33, R37, R46). -/
def Obligations.LandingTicks : Prop :=
  ∀ (w : TickIn) (s : State), bellRuns s = true → s.bell.phase ≤ s.bell.frameLen →
    let n := s.bell.time.toNat + (s.bell.frameLen - s.bell.phase)
    let land := s.bell.landNo + 1
    let wl := if s.bell.landNo = 0xFFFFFFFF then satInc 255 s.bell.wrapLand else s.bell.wrapLand
    let wb := if n < 2 ^ 48 then s.bell.wrapBell else satInc 255 s.bell.wrapBell
    let kept := fun t : State => t.pins = s.pins ∧ t.shown = s.shown ∧ t.free = s.free ∧ t.pending = s.pending ∧
      t.dev.mode = s.dev.mode ∧ t.img.cfg = s.img.cfg
    let loading := s.bell.load = true ∧ s.bell.locked = false
    let preset : Bell := s.bell.presetHi ++ s.bell.presetLo
    let loaded := fun t : State => t.bell.time = preset ∧ t.bell.timeB = ~~~preset ∧ t.bell.tickTime = preset ∧
      t.bell.landNo = s.bell.landPreset ∧ t.bell.phase = 0 ∧ t.bell.load = false ∧ t.bell.loadPps = s.bell.loadPps
    (¬loading →
      ∃ t, exec (.landingTick w) s = .next t ∧ kept t ∧ TickedBell (BitVec.ofNat 48 n) land wl wb s.bell t.bell ∧
        t.bell.timeB = s.bell.timeB - BitVec.ofNat 48 (s.bell.frameLen - s.bell.phase) ∧
        (s.dev.mode ≠ .boot → s.dev.safe = false → s.frame.closing = false →
          t.frame.closing = true ∧ t.frame.committedAt = none) ∧
        (s.dev.mode ≠ .boot → s.frame.closing = true → t.dev.safe = true) ∧
        (s.dev.mode ≠ .boot → s.dev.safe = false → s.frame.closing = false → s.sup.cpDue = true →
          t.sup.cpDue = false ∧ t.sup.lockNext = true ∧ (fltReg clsChk 0 t).getLsbD 1 = true) ∧
        (s.bell.outA = false → s.bell.outB = false →
          (w.skew = none ∨ (∃ d, w.skew = some d ∧ 60 < d) ∨ s.bell.timeB ≠ ~~~s.bell.time) →
          (fltReg clsBell 0 t).getLsbD 1 = true) ∧
        (s.dev.mode = .boot → s.dev.startReq = true → t.dev.startReq = false ∧ t.dev.startTick = true)) ∧
    (¬loading → s.bell.landNo = 0xFFFFFFFF →
      ∃ t, exec (.landingNumberWrap w) s = .next t ∧ kept t ∧
        TickedBell (BitVec.ofNat 48 n) 0 (satInc 255 s.bell.wrapLand) wb s.bell t.bell) ∧
    (¬loading → s.bell.time = 0xFFFFFFFFFFFF → s.bell.phase + 1 < s.bell.frameLen →
      (draining s = false ∨ s.bell.phase + 1 < s.bell.frameLen / 4) →
      exec .bellTimeWrap s = .next { s with ports := runLines 1 s.ports, flt := (settle s).flt, bell := { s.bell with
        time := 0, timeB := s.bell.timeB - 1, phase := s.bell.phase + 1, wrapBell := satInc 255 s.bell.wrapBell } }) ∧
    (loading → (∃ t, exec .presetLoad s = .next t ∧ loaded t ∧ kept t) ∧
      ∃ t, exec (.landingTick w) s = .next t ∧ loaded t ∧ kept t)

/-- References past their limits expire: bell times older than 2^46 ticks and landing numbers older than 2^30. One that is only
compared for being the latest, or for having happened, is forgotten; a timer's start, which must go on counting as long past,
stays as old as the limit (DESIGN CHOICE, log 69). Nothing else changes (R45). -/
def Obligations.ReferencesExpire : Prop :=
  ∀ s : State, Canonical s →
    let old := fun b : Bell => decide (2 ^ 46 < (s.bell.time - b).toNat)
    let stay := fun b : Bell => if old b then s.bell.time - 0x400000000000 else b
    let stayAll := fun x : Option Bell => x.map stay
    let gone := fun x : Option Bell => x.filter fun b => !old b
    let oldLand := fun n : Word => decide (2 ^ 30 < (s.bell.landNo - n).toNat)
    let stayLand := fun n : Word => if oldLand n then s.bell.landNo - 0x40000000 else n
    let sys := fun x : SysEval => { x with
      runAt := stay x.runAt, before := x.before.filter (fun p => !old p.1), last := x.last.filter (fun p => !old p.1)
      rise := stay x.rise, fall := stay x.fall }
    let requests := fun l : List Dreq => l.map fun r => if old r.at_ then { r with live := false } else r
    ∃ t, exec .referenceExpiry s = .next t ∧
      t = { s with
        bell := { s.bell with ppsRef := s.bell.ppsRef && !old s.bell.ppsMark, ssStart := stayAll s.bell.ssStart
                              ppsMark := stay s.bell.ppsMark, loadPpsAt := stay s.bell.loadPpsAt
                              trimAtA := stay s.bell.trimAtA, trimAtB := stay s.bell.trimAtB }
        rings := t.rings, gn8s := t.gn8s, heads := t.heads, engs := t.engs
        man := { s.man with a := t.man.a, b := t.man.b, comA := t.man.comA, comB := t.man.comB
                            mismatchLands := s.man.mismatchLands.filter fun n => !oldLand n }
        sup := { s.sup with pend := requests s.sup.pend, b := { s.sup.b with pend := requests s.sup.b.pend } }
        saf := { s.saf with groups := t.saf.groups, sealAt := stayAll s.saf.sealAt, devAt := stayAll s.saf.devAt
                            devRise := s.saf.devRise.map stayLand }
        pmc := { s.pmc with doms := t.pmc.doms, engAt := stayAll s.pmc.engAt, trans := s.pmc.trans.filter fun b => !old b }
        img := { s.img with at_ := stay s.img.at_ }
        dev := { s.dev with proveAt := stay s.dev.proveAt, seqLand := stayLand s.dev.seqLand } } ∧
      (∀ k, let r := ringOf k s
        ringOf k t = if r = .reset then r else { r with
          stepAt := stay r.stepAt, cmds := r.cmds.map fun c => { c with sentAt := stay c.sentAt } }) ∧
      (∀ i, let g := gn8Of i s
        gn8Of i t = if g = .reset then g else { g with
          start := gone g.start, recent := g.recent.filter (fun x => !old x.inst.at_), lastValid := stayAll g.lastValid
          lastValidLand := stayLand g.lastValidLand, lastUnsync := gone g.lastUnsync, lastDiscard := gone g.lastDiscard
          gridAt := gone g.gridAt }) ∧
      (∀ h, let x := headOf h s
        headOf h t = if x = .reset then x else { x with ev := { x.ev with
          a := sys x.ev.a, b := sys x.ev.b, changedAt := stay x.ev.changedAt, firstEdge := gone x.ev.firstEdge
          quietAt := stay x.ev.quietAt, prev := x.ev.prev.filter fun p => !old p.1 } }) ∧
      (∀ e, engOf e t = { engOf e s with winStart := stayAll (engOf e s).winStart, winEnd := stayAll (engOf e s).winEnd }) ∧
      (∀ n, let swept := fun r : Sec => { r with sweepLive := r.sweepLive && !old r.sweepAt }
        secOf n t = swept (secOf n s) ∧ comSec n t = swept (comSec n s)) ∧
      (∀ n, let swept := fun r : SecB => { r with sweepLive := r.sweepLive || old (~~~r.sweepAt) }
        secBOf n t = swept (secBOf n s) ∧ comSecB n t = swept (comSecB n s)) ∧
      (∀ g, let x := grpOf g s
        grpOf g t = if x = .reset then x else { x with
          since := stay x.since, ss1At := stay x.ss1At, stillAt := stayAll x.stillAt, fbDisc := stayAll x.fbDisc
          fbBad := stayAll x.fbBad, dropAt := stayAll x.dropAt, gdDisc := stayAll x.gdDisc, gAt := stayAll x.gAt
          gbAt := stayAll x.gbAt, winAt := stayAll x.winAt, riseLand := x.riseLand.map stayLand, lrstAt := stayAll x.lrstAt
          edgeA := gone x.edgeA, edgeB := gone x.edgeB, faultLand := x.faultLand.filter fun n => !oldLand n }) ∧
      ∀ d, let x := domOf d s
        domOf d t = if x = .reset then x else { x with
          slew := slewOf s.bell.time x, startAt := stay x.startAt, xonAt := x.xonAt.filter fun p => !old p.2 }

/-! ### Stop groups (R247 to R266) -/

/-- New levels of the feedback inputs: in ENERGISE both pulled in lead to RUN, in RUN or SS1 either dropped out locks the
group with FB_LOSS, in DROP both dropped out lead to STO; elsewhere the levels are only taken. The release time counts in steps
of 10 us, to the nearest (R8, R256), and stays at 0xFFFF where SG_STOPT.FB has no room for it (DESIGN CHOICE, log 117). What else
locks a group: a feedback window that runs out, guards that disagree for 500 ms, a read-back that differs. In each case every output
goes low, the group is LOCKED and SG_FLT shows the cause (R247, R256, R257). -/
def Obligations.FeedbackAndGroupFaults : Prop :=
  ∀ (g : GrpIx) (s : State), domOn 12 s = true →
    let x := grpOf g s
    let past := fun (n : Nat) (t : Bell) => n ≤ tickAge t s
    let fb := past (10000 * (grpCfg g s).tFb)
    let bits : List Nat :=
      (if x.state = .energise ∧ fb x.since ∧ ¬(x.fba = false ∧ x.fbb = false) then [3]
       else if x.state = .drop ∧ fb x.since ∧ ¬(x.fba = true ∧ x.fbb = true) then [2]
       else if (x.state = .sto ∨ x.state = .locked) ∧ (∃ t, x.fbBad = some t ∧ fb t) then [6] else []) ++
      (if ∃ t, x.fbDisc = some t ∧ fb t then [5] else [])
    (∀ (ch : Side) (level : Bool),
      let a := if ch = .a then level else x.fba
      let b := if ch = .b then level else x.fbb
      let tens := fun n : Nat => if n % 100 < 50 ∨ (n % 100 = 50 ∧ n / 100 % 2 = 0) then n / 100 else n / 100 + 1
      let taken := fun y : Grp => y = { x with
        fba := a, fbb := b, fbDisc := if a = b then none else some (x.fbDisc.getD s.bell.time)
        fbBad := if (x.state = .sto ∨ x.state = .locked) ∧ ¬(a = true ∧ b = true) then some (x.fbBad.getD s.bell.time) else none
        dropAt := if a = true ∧ b = true then none else x.dropAt
        stopFb := match x.dropAt with
          | some t => if a = true ∧ b = true then min 0xFFFF (tens (s.bell.time - t).toNat) else x.stopFb
          | none => x.stopFb }
      (s33On s = false → exec (.feedbackChange g ch level) s = .next s) ∧
      (s33On s = true → ∃ u y, taken y ∧ GroupBecomes g y s u ∧
        (x.state = .energise → a = false → b = false → ∃ t, exec (.feedbackChange g ch level) s = .next t ∧
          GroupBecomes g { y with state := .run, srq := true, since := s.bell.time } s t) ∧
        ((x.state = .run ∨ x.state = .ss1) → ¬(a = false ∧ b = false) →
          ∃ t, exec (.feedbackChange g ch level) s = .next t ∧ Locks g [4] u t) ∧
        (x.state = .drop → a = true → b = true → ∃ t, exec (.feedbackChange g ch level) s = .next t ∧
          GroupBecomes g { y with state := .sto, tra := false, trb := false, srq := false, since := s.bell.time
                                  gAt := none, gbAt := none, gSeen := 0 } s t) ∧
        ((x.state = .energise ∧ ¬(a = false ∧ b = false) ∨ (x.state = .run ∨ x.state = .ss1) ∧ a = false ∧ b = false ∨
          x.state = .drop ∧ ¬(a = true ∧ b = true) ∨ x.state = .sto ∨ x.state = .locked ∨ x.state = .unused) →
          exec (.feedbackChange g ch level) s = .next u))) ∧
    (x.state ≠ .unused → bits ≠ [] → ∃ t, exec (.fbWindowExpiry g) s = .next t ∧ Locks g bits s t) ∧
    (bits = [] → exec (.fbWindowExpiry g) s = .next s) ∧
    (∀ b, x.state ≠ .unused → (grpCfg g s).guard = true → x.gdDisc = some b → past 5000000 b →
      ∃ t, exec (.guardDiscrepancyTimeout g) s = .next t ∧ Locks g [7] s t) ∧
    (∀ o, x.state ≠ .unused → ∃ t, exec (.readbackFault g o) s = .next t ∧ Locks g [9] s t)

/-- A guard input takes a new level: an opening of a closed guard is noted for the commit, a disagreement is timed, and in
STO the start-up test follows the inputs: GTEST sets when both have opened and then both have closed, each time within
500 ms of each other, and at no other change (R257, R258, R261).
An encoder edge moves the position by one, up where A leads B (log 36); a transition of both channels, or an edge less than
250 ns from the other channel's (by bell times: at most 2 ticks, log 130), is counted as an error and, in RUN, SS1 or DROP, locks
the group with ENC (R248, R403). -/
def Obligations.GuardsAndEncoders : Prop :=
  (∀ (g : GrpIx) (ch : Side) (level : Bool) (s : State), domOn 12 s = true → s33On s = true →
     let x := grpOf g s
     let a := if ch = .a then level else x.gda
     let b := if ch = .b then level else x.gdb
     let now := if x.state = .sto then some s.bell.time else none
     let near := ∃ other, (if ch = .a then x.gbAt else x.gAt) = some other ∧
       ((s.bell.time - other).toNat ≤ 5000000 ∨ (other - s.bell.time).toNat ≤ 5000000)
     ∃ t y, exec (.guardChange g ch level) s = .next t ∧ GroupBecomes g y s t ∧
       y = { x with gda := a, gdb := b, gSeen := y.gSeen, gtest := y.gtest
                    gAt := if ch = .a then now else x.gAt, gbAt := if ch = .b then now else x.gbAt
                    gOpened := x.gOpened || (x.gda && x.gdb && !(a && b))
                    gdDisc := if a = b then none else some (x.gdDisc.getD s.bell.time) } ∧
       (x.state ≠ .sto → y.gtest = x.gtest ∧ y.gSeen = x.gSeen) ∧
       (x.state = .sto →
         (y.gtest = true ↔ x.gtest = true ∨ (a = true ∧ b = true ∧ x.gSeen = 1 ∧ near)) ∧
         (a = false → b = false → (y.gSeen = 1 ↔ near)) ∧ (a = true → b = true → y.gSeen = 0) ∧
         (a ≠ b → y.gSeen = x.gSeen))) ∧
  (∀ (g : GrpIx) (la lb : Bool) (s : State), domOn 12 s = true → s33On s = true →
     let x := grpOf g s
     let up := if la = x.ea then lb = la else la ≠ lb
     let recent := fun o : Option Bell => ∃ t, o = some t ∧ (s.bell.time - t).toNat ≤ 2
     let legal := (la ≠ x.ea ∧ lb = x.eb ∧ ¬recent x.edgeB) ∨ (la = x.ea ∧ lb ≠ x.eb ∧ ¬recent x.edgeA)
     let dated : Grp := { x with
       edgeA := if la ≠ x.ea then some s.bell.time else x.edgeA, edgeB := if lb ≠ x.eb then some s.bell.time else x.edgeB }
     (la = x.ea → lb = x.eb → exec (.encoderEdge g la lb) s = .next s) ∧
     (legal → ∃ t, exec (.encoderEdge g la lb) s = .next t ∧
       GroupBecomes g { dated with ea := la, eb := lb, live := if up then x.live + 1 else x.live - 1 } s t) ∧
     (¬legal → (la ≠ x.ea ∨ lb ≠ x.eb) → ∃ u t, exec (.encoderEdge g la lb) s = .next t ∧
       GroupBecomes g { dated with ea := la, eb := lb, encErr := min 0xFFFF (x.encErr + 1) } s u ∧
       if x.state = .run ∨ x.state = .ss1 ∨ x.state = .drop then Locks g [8] u t else t = u)) ∧
  (∀ (g : GrpIx) (ch : Side) (la lb : Bool) (s : State), s33On s = false →
     exec (.guardChange g ch la) s = .next s ∧ exec (.encoderEdge g la lb) s = .next s ∧ exec (.lrstChange g la) s = .next s)

/-- SS1 ends in DROP, or in STO where both feedback inputs read dropped out already: at a standstill held for T_STILL, and at
T_SS1, then with SS1_TMO if an encoder is fitted and standstill was not confirmed (R254, R255, R261). A landing tick latches the
position and gives the speed over the last WIN landings, to the nearest mm/s (R249); in SS1 it counts on, and with an encoder
fitted a speed above the envelope, or against v0 beyond V_STILL, locks the group with ENVELOPE or DIR (R254). The first pair missed takes
a group in RUN to SS1, with k = 0 at the tick that detects it, and locks one in ENERGISE (R263). -/
def Obligations.StopsEnd : Prop :=
  ∀ (g : GrpIx) (s : State), domOn 12 s = true →
    let x := grpOf g s
    let c := grpCfg g s
    let out := x.fba = true ∧ x.fbb = true
    let still := c.enc = true ∧ ∃ t, x.stillAt = some t ∧ 10000 * c.tStill ≤ tickAge t s
    let dropped := fun y : Grp => y = { x with
      state := if out then .sto else .drop, tra := false, trb := false, srq := false, since := s.bell.tickTime
      stopSs1 := min 0xFFFF ((s.bell.tickTime - x.ss1At).toNat / 10000), stillAt := none
      dropAt := if out then none else some s.bell.tickTime, stopFb := if out then 0 else x.stopFb
      gAt := if out then none else x.gAt, gbAt := if out then none else x.gbAt
      gSeen := if out then 0 else x.gSeen, fbBad := if out then none else x.fbBad }
    (x.state = .ss1 →
      (still → ∃ t y, exec (.ss1Standstill g) s = .next t ∧ dropped y ∧ GroupBecomes g y s t) ∧
      (¬still → exec (.ss1Standstill g) s = .next s) ∧
      (10000 * c.tSs1 ≤ x.ss1K * s.bell.period → ∃ u t y, exec (.ss1Timeout g) s = .next t ∧ dropped y ∧
        GroupBecomes g y s u ∧ Raises (if c.enc = true ∧ ¬still then [(clsSg, g, 11)] else []) u t)) ∧
    (∀ (w : TickIn) (t : State), exec (.landingTick w) s = .next t → bellRuns s = true → s.bell.phase ≤ s.bell.frameLen →
      ¬(s.bell.load = true ∧ s.bell.locked = false) → w.oscBad = [] → w.dacBad = false → t.dev.safe = false →
      tabWf .reset s.saf.groups = true →
      x.state ≠ .unused → 0 < s.bell.period → 0 < c.encScale →
      let y := grpOf g t
      let hist := (x.live :: x.hist).take (c.win + 1)
      let m := min c.win (hist.length - 1)
      let moved := ((x.live - hist.getD m 0).toInt : ℝ)
      let k := x.ss1K + 1
      let env : ℚ := max c.vStill ((x.v0.natAbs : ℚ) + c.vTol -
        c.aEnv * ((k * s.bell.period - 10000 * c.tDly : Nat) : ℚ) / 10000000)
      let against := x.v0 ≠ 0 ∧ y.speed * x.v0 < 0 ∧ c.vStill < y.speed.natAbs
      let above := env < y.speed.natAbs
      let watched := s.saf.watching = true ∧ s.saf.expecting = true
      let missed := watched ∧ ¬(s.saf.accepted = true ∧ s.saf.tokLand = s.bell.landNo)
      (y.pos = x.live ∧ y.hist = hist ∧ (m = 0 → y.speed = 0) ∧
        (0 < m → RoundsTo (moved * 10 ^ 10 / (m * s.bell.period * c.encScale)) y.speed)) ∧
      (x.state = .ss1 → c.enc = true → against → IsLocked y ∧ (fltReg clsSg g t).getLsbD 1 = true) ∧
      (x.state = .ss1 → c.enc = true → ¬against → above → IsLocked y ∧ (fltReg clsSg g t).getLsbD 0 = true) ∧
      (x.state = .ss1 → ¬missed → ¬(c.enc = true ∧ (against ∨ above)) →
        y.state = .ss1 ∧ y.tra = x.tra ∧ y.trb = x.trb ∧ y.ss1K = k ∧ y.v0 = x.v0 ∧ y.ss1At = x.ss1At ∧ RoundsTo (env : ℚ) y.env ∧
        y.stillAt = if y.speed.natAbs ≤ c.vStill then some (x.stillAt.getD t.bell.tickTime) else none) ∧
      (x.state = .run → ¬missed → y.state = .run ∧ y.srq = x.srq) ∧
      (missed → s.saf.miss = 0 → (fltReg clsSafio 0 t).getLsbD 0 = true ∧ t.saf.miss = 1 ∧
        (x.state = .energise → IsLocked y) ∧
        (x.state = .run → y.state = .ss1 ∧ y.tra = x.tra ∧ y.trb = x.trb ∧ y.srq = false ∧ y.v0 = y.speed ∧ y.ss1K = 0 ∧
          y.ss1At = t.bell.tickTime ∧ y.ss1Land = t.bell.landNo)))

/-- The reset input: a rise counts only inside an open window; a fall closes a window in which it rose, with a valid pulse of
0.2 s to 2 s within the window's 10 s, which counts unless a fault has locked the group in the same landing (R261), or with RST_BAD; a window of 10 s that runs out, and a level high for more than 2 s, set RST_BAD and close it.
The input of group RSTG serves the device-level reset in the same way (R259, R260). -/
def Obligations.ResetInput : Prop :=
  ∀ (g : GrpIx) (s : State), domOn 12 s = true → s33On s = true →
    let x := grpOf g s
    let mine := s.img.cfg.rstg = g.val
    let high := fun r : Word => (s.bell.landNo - r).toNat * s.bell.period
    let late := fun t : Option Bell => ∃ b, t = some b ∧ 100000000 ≤ tickAge b s
    let calm := x.faultLand ≠ some s.bell.landNo
    let good := fun (w : Option Bell) (r : Word) =>
      2000000 ≤ high r ∧ high r ≤ 20000000 ∧ x.stuck = false ∧ ¬late w
    (x.lrst = false → ∃ t, exec (.lrstChange g true) s = .next t ∧
      GroupBecomes g { x with lrst := true, lrstAt := some s.bell.time
                              riseLand := if x.winAt.isSome then some s.bell.landNo else none }
        { s with saf := { s.saf with
          devRise := if mine ∧ s.saf.devAt.isSome then some s.bell.landNo else s.saf.devRise } } t) ∧
    (x.lrst = true → ∃ u t, exec (.lrstChange g false) s = .next t ∧
      GroupBecomes g { x with lrst := false, lrstAt := none, stuck := false, riseLand := none
                              rstOk := x.rstOk || decide (calm ∧ ∃ r, x.riseLand = some r ∧ good x.winAt r)
                              winAt := if x.riseLand.isSome then none else x.winAt }
        (if mine ∧ s.saf.devRise.isSome then { s with saf := { s.saf with
          devAt := none, devRise := none, devOk := s.saf.devOk || decide (calm ∧ ∃ r, s.saf.devRise = some r ∧ good s.saf.devAt r) } }
         else s) u ∧
      Raises (if (∃ r, x.riseLand = some r ∧ ¬good x.winAt r) ∨
          (mine ∧ ∃ r, s.saf.devRise = some r ∧ ¬good s.saf.devAt r) then
        [(clsSg, g, 10)] else []) u t) ∧
    (late x.winAt ∨ mine ∧ late s.saf.devAt → ∃ u t, exec (.resetWindowExpiry g) s = .next t ∧
      GroupBecomes g (if late x.winAt then { x with winAt := none, riseLand := none } else x)
        (if mine ∧ late s.saf.devAt then { s with saf := { s.saf with devAt := none, devRise := none } } else s) u ∧
      Raises [(clsSg, g, 10)] u t) ∧
    (∀ b, x.lrst = true → x.stuck = false → x.lrstAt = some b → 20000000 < (s.bell.time - b).toNat →
      ∃ u t, exec (.lrstStuck g) s = .next t ∧
        GroupBecomes g { x with stuck := true, winAt := none, riseLand := none }
          (if mine then { s with saf := { s.saf with devAt := none, devRise := none } } else s) u ∧
        Raises [(clsSg, g, 10)] u t)

/-- A token pair comes once, for the landing whose checkpoint has passed, while both supervisors' domains are in service. It is
accepted only when TOKA, supervisor A's digest, is the inverse of TOKB, B's inverted, as they arrive, both carry the landing
number and the orders are equal; then the miss count clears, and the orders of the landing take effect: an enable takes a group
in STO to ENERGISE, and on to RUN where its contactors have pulled in; a stop takes one in RUN to SS1 and locks one in ENERGISE;
a profile is taken in STO; a deliberate reset opens its window, and takes a LOCKED group to STO after a valid pulse, alone or
with the device. Unequal orders set ORD_DIS (R236, R252 to R254, R259, R260, R262, R263). A group at or below V_STILL as it stops
counts its standstill from the tick at which v0 was latched (DEDUCED, log 48). An enable with VIO33 out locks the group by its
read-back (R247, R402). -/
def Obligations.TokenPairs : Prop :=
  ∀ (errA errB landA landB : Word) (same : Bool) (s : State), domOn 12 s = true → s.saf.watching = true →
    (s.sup.sent = none → exec (.tokenPair errA errB landA landB same) s = .next s) ∧
    (domOn 6 s = false ∨ domOn 7 s = false → exec (.tokenPair errA errB landA landB same) s = .next s) ∧
    ∀ o : Orders, s.sup.sent = some o → domOn 6 s = true → domOn 7 s = true →
      let tokA := s.sup.digA ^^^ errA
      let tokB := ~~~s.sup.digB ^^^ errB
      let equal := same = true ∧ s.sup.outA.orders = s.sup.outB.orders
      let ok := tokA = ~~~tokB ∧ o.land ^^^ landA = s.bell.landNo ∧ o.land ^^^ landB = s.bell.landNo ∧ equal
      let taken : State := { s with saf := { s.saf with tokLand := s.bell.landNo, accepted := true, miss := 0 }
                                    sup := { s.sup with sent := none } }
      let sto := fun x : Grp => { x with
        state := .sto, tra := false, trb := false, srq := false, since := s.bell.time, gAt := none, gbAt := none, gSeen := 0
        fbBad := if x.fba = true ∧ x.fbb = true then none else some s.bell.time
        gtest := false, winAt := none, riseLand := none, rstOk := false }
      (¬ok → ∃ t, exec (.tokenPair errA errB landA landB same) s = .next t ∧
        Raises (if equal then [] else [(clsSafio, 0, 2)]) { s with sup := { s.sup with sent := none } } t) ∧
      (ok → ∃ t, exec (.tokenPair errA errB landA landB same) s = .next t ∧ t.sup.sent = none ∧
        t.saf.tokLand = s.bell.landNo ∧ t.saf.accepted = true ∧ t.saf.miss = 0) ∧
      (ok → o.openDevReset = false → o.applyDevReset = false → s33On s = false → ∀ g : Nat, (grpOf g s).state = .sto →
        o.groups = [(g, { enable := true, stop := false, profile := none, openReset := false, applyReset := false })] →
        ∃ u t, exec (.tokenPair errA errB landA landB same) s = .next t ∧
          u = { taken with saf := { taken.saf with groups := u.saf.groups } } ∧ Locks g [9] u t) ∧
      (ok → o.openDevReset = false → o.applyDevReset = false → s33On s = true → ∀ (g : Nat) (q : GrpOrder), o.groups = [(g, q)] →
        let x := grpOf g s
        ∃ t, exec (.tokenPair errA errB landA landB same) s = .next t ∧
          (q = { enable := true, stop := false, profile := none, openReset := false, applyReset := false } → x.state = .sto →
            GroupBecomes g { x with
              state := if x.fba = true ∨ x.fbb = true then .energise else .run
              tra := true, trb := true, srq := decide (x.fba = false ∧ x.fbb = false), since := s.bell.time
              fbBad := none } taken t) ∧
          (q = { enable := false, stop := true, profile := none, openReset := false, applyReset := false } →
            (x.state = .run → GroupBecomes g { x with
              state := .ss1, srq := false, v0 := x.speed, ss1At := s.bell.tickTime, ss1K := 0, ss1Land := s.bell.landNo
              since := s.bell.tickTime
              stillAt := if x.speed.natAbs ≤ (grpCfg g s).vStill then some s.bell.tickTime else none } taken t) ∧
            (x.state = .energise → Locks g [] taken t)) ∧
          (∀ p, q = { enable := false, stop := false, profile := some p, openReset := false, applyReset := false } →
            if x.state = .sto then GroupBecomes g { x with prof := p } taken t else t = taken) ∧
          (q = { enable := false, stop := false, profile := none, openReset := true, applyReset := false } →
            if x.state = .locked then
              GroupBecomes g { x with winAt := some s.bell.tickTime, riseLand := none, rstOk := false } taken t
            else t = taken) ∧
          (q = { enable := false, stop := false, profile := none, openReset := false, applyReset := true } →
            if x.state = .locked ∧ x.rstOk = true then GroupBecomes g (sto x) taken t else t = taken)) ∧
      (ok → o.groups = [] → o.openDevReset = true → o.applyDevReset = false →
        exec (.tokenPair errA errB landA landB same) s = .next { taken with saf := { taken.saf with
          devAt := some s.bell.tickTime, devRise := none, devOk := false } }) ∧
      (ok → o.groups = [] → o.openDevReset = false → o.applyDevReset = true →
        ∃ t, exec (.tokenPair errA errB landA landB same) s = .next t ∧
          t = { taken with saf := { taken.saf with groups := t.saf.groups } } ∧
          ∀ g, let x := grpOf g s
            grpOf g t = if x.state = .locked ∧ x.fba = true ∧ x.fbb = true then sto x else x)

/-- The dead-man: with no landing tick for 2.5 periods, or at the landing tick at which a second consecutive pair is missing,
every configured group is LOCKED with its outputs low and DEADMAN set, and SAFE_N is held asserted (R263, R264). -/
def Obligations.DeadmanExpires : Prop :=
  ∀ s : State, domOn 12 s = true → s.saf.watching = true →
    let stopped := fun t : State => t.saf.miss = 2 ∧ t.saf.dm = true ∧ safeAsserted t = true ∧
      (fltReg clsSafio 0 t).getLsbD 1 = true ∧ (fltReg clsFlt 0 t).getLsbD 1 = true ∧
      ∀ g, (grpOf g s).state ≠ .unused → IsLocked (grpOf g t) ∧ (fltReg clsSg g t).getLsbD 12 = true
    (∃ t, exec .notickTimeout s = .next t ∧ stopped t ∧ (fltReg clsSafio 0 t).getLsbD 6 = true ∧
      t = { s with saf := { s.saf with miss := 2, dm := true, groups := t.saf.groups }
                   flt := { s.flt with bits := t.flt.bits, fresh := t.flt.fresh, reports := t.flt.reports, dmHold := true }
                   ha := t.ha, hb := t.hb }) ∧
    (s.saf.expecting = true → s.saf.miss = 1 → ¬(s.saf.accepted = true ∧ s.saf.tokLand = s.bell.landNo) →
      bellRuns s = true → ∃ t, exec .deadmanExpiry s = .next t ∧ stopped t)

/-- The seal: a read starts at a landing tick, once, whose number is a multiple of 256 or after a mismatch, with SEAL_LD and
SEAL_CK low (the first pulse: log 102), never in the safe state; it matches when its first 8 bits are 0xA5 and its last 32 are the
expected word. With VIO33 out it fails (R402), the bits reading 0 (DESIGN CHOICE, log 57). A mismatch in service is read again, and a
second in a row clears SEAL_OK, sets SEAL_FAIL and orders LOCKOUT at the next commit (R265, R266). -/
def Obligations.SealReads : Prop :=
  ∀ (bits : BitVec 40) (s : State), domOn 12 s = true →
    let b : BitVec 40 := if s.pins.vio33 = true then bits else 0
    let pat := b >>> 32 = 0xA5
    let word := b.setWidth 32 = s.img.cfg.scHash.getD 7 0
    let read : State := { s with saf := { s.saf with
      sealPat := (b >>> 32).setWidth 8, reads := (s.saf.reads + 1) % 65536, reading := false } }
    let causes := (if pat then [] else [(clsSafio, 0, 5)]) ++ (if word then [] else [(clsSafio, 0, 3)])
    (s.dev.safe = true → exec .sealRead s = .next s ∧ exec (.sealReadDone bits) s = .next s) ∧
    (s.dev.safe = false → s.saf.watching = true → s.saf.reading = false → s.bell.phase = 0 → s.saf.sealAt ≠ some s.bell.time →
      s.bell.landNo.toNat % 256 = 0 ∨ s.saf.repeatDue = true →
      ∃ t, exec .sealRead s = .next t ∧ sealLd t = false ∧ sealCk t = false ∧
        t = { s with saf := { s.saf with reading := true, sealAt := some s.bell.time, repeatDue := false } }) ∧
    (s.saf.watching = false ∨ s.saf.reading = true ∨ s.bell.phase ≠ 0 ∨ s.saf.sealAt = some s.bell.time ∨
      (s.bell.landNo.toNat % 256 ≠ 0 ∧ s.saf.repeatDue = false) → exec .sealRead s = .next s) ∧
    (s.dev.safe = false → s.saf.reading = true → pat → word →
      exec (.sealReadDone bits) s = .next { read with saf := { read.saf with sealOk := true, sealBad := false } }) ∧
    (s.dev.safe = false → s.saf.reading = true → ¬(pat ∧ word) → s.saf.sealBad = false → ∃ t, exec (.sealReadDone bits) s = .next t ∧
      Raises causes { read with saf := { read.saf with
        sealBad := true, repeatDue := true, glitch := min 0xFFFF (s.saf.glitch + 1) } } t) ∧
    (s.dev.safe = false → s.saf.reading = true → ¬(pat ∧ word) → s.saf.sealBad = true → ∃ t, exec (.sealReadDone bits) s = .next t ∧
      Raises (causes ++ [(clsSafio, 0, 4)]) { read with
        saf := { read.saf with sealOk := false }, sup := { s.sup with lockNext := true } } t)

/-! ### Drain, commit and checkpoint (R31 to R36, R137 to R141, R154, R234 to R238) -/

/-- An engine reports itself drained when its head context stands at WLAND with every mark pulled, nothing in flight and its
shadow at the same WLAND; the last one makes the drain complete. At the deadline, a quarter of the frame, every engine still
undrained is late: it is listed and shown by DRAIN_MISS, and runs on to the commit; a WLAND of its own changes nothing but the
instant that its slack is taken from (R341; log 126). At drain complete the extension programs that still run are preempted:
PREEMPT is recorded, what a program has in flight is killed, but for a VST already committed, and the shadow ends where the
primary does (R31 to R35, R181, R188, R207, R213). -/
def Obligations.DrainReports : Prop :=
  ∀ (e : EngIx) (s : State), Canonical s → s.dev.mode ≠ .boot → s.dev.safe = false → s.frame.closing = true →
    s.frame.drained = none → (∀ n, InStep n s) →
    (∀ n, ∀ o ∈ (engOf n s).core.cops, o.stage = .computed → o.exc.getLsbD 6 = false) →
    let preempts := fun (u t : State) => ∀ n,
      let k := (engOf n u).core
      let k' := (engOf n t).core
      if (engOf n u).state = .service ∧ k.xEnded = false ∧ k.ext.halted = none then
        engOf n t = { engOf n u with errCode := 0x0D, core := k', win := (engOf n t).win } ∧
        k' = { k with
          xEnded := true, ext := { k.ext with halted := some 0x0D, block := .none, spec := none }
          shared := k.shared.map (fun o => if o.ctx == .ext then { o with rd := 0 } else o)
          cops := killOps (fun o => o.ctx == .ext && !(o.committed && o.kind == .vst)) k.cops
          posts := k'.posts, hrec := k'.hrec, diag0 := k'.diag0, diag1 := k'.diag1, shadow := k'.shadow } ∧
        k'.shadow.fifo = [] ∧ InStep n t
      else engOf n t = engOf n u
    let completes := fun (d : Nat) (u t : State) =>
      t = { u with frame := { u.frame with drained := some d }
                   bell := { u.bell with drainT := d }, engs := t.engs } ∧ preempts u t
    let undrained := fun (n : Nat) (u : State) => engServing n u = true ∧ (engOf n u).core.drained = none
    let late := fun (u v : State) =>
      ((∀ n, ¬undrained n u) → v = u) ∧
      ((∃ n, undrained n u) → ∃ w,
        w = { u with
          frame := { u.frame with late := w.frame.late }
          bell := { u.bell with
            missCnt := if u.frame.late = [] then min 0xFFFF (u.bell.missCnt + 1) else u.bell.missCnt
            lateEng := w.bell.lateEng } } ∧
          Raises [(clsBell, 0, 4)] w v ∧ (∀ n, n ∈ w.frame.late ↔ n ∈ u.frame.late ∨ undrained n u) ∧
          ∃ l, w.bell.lateEng = some l ∧
            ∀ m, if u.bell.lateEng = some m then l = m else u.bell.lateEng = none → undrained l u ∧ (undrained m u → l ≤ m))
    let g := catchUp (engOf e s)
    let atWland := (∃ rd, g.core.head.block = .wland rd) ∧ g.core.dead = none ∧ g.core.drained = none ∧
      g.core.pulls = [] ∧ g.core.posts = [] ∧ (∀ o ∈ g.core.shared, o.ctx = .ext) ∧ (∀ o ∈ g.core.cops, o.ctx = .ext) ∧
      ∀ p ∈ g.slots, p.1 ∈ g.core.marks
    (engServing e s = true → atWland → s.bell.phase < s.bell.frameLen / 4 →
      ∃ u t, exec (.wlandDrained e) s = .next t ∧
        EngBecomes e { g with core := { g.core with drained := some s.bell.phase } } s u ∧
        ((∀ n, ¬undrained n u) → completes s.bell.phase u t) ∧ (∀ n, undrained n u → t = u)) ∧
    (s.bell.frameLen / 4 ≤ s.bell.phase →
      ∃ t, exec (.wlandDrained e) s = .next t ∧ t.frame.drained = some (s.bell.frameLen / 4) ∧
        (undrained e s → e.val ∈ t.frame.late ∧ (atWland → (engOf e t).core.drained = some s.bell.phase))) ∧
    (let n := s.bell.frameLen / 4 - s.bell.phase
      let u : State := { s with
        ports := runLines n s.ports, flt := if n = 0 then s.flt else (settle s).flt
        bell := { s.bell with
          time := s.bell.time + BitVec.ofNat 48 n, timeB := s.bell.timeB - BitVec.ofNat 48 n, phase := s.bell.phase + n
          wrapBell := if s.bell.time.toNat + n < 2 ^ 48 then s.bell.wrapBell else min 255 (s.bell.wrapBell + 1) } }
      ∃ t v, exec .drainDeadline s = .next t ∧ late u v ∧ completes (s.bell.frameLen / 4) v t)

/-- A commit completes within 80 ticks of drain complete: with it the frame's events are gone, the entries taken are answered,
the pending banks have become the committed ones and the checkpoint is due. A STATE event sets the record of its head, unless a
later one of the frame does or its engine's events are discarded (R105, R183). Each manifest's record of a configured section is
what the derivation gives for the events and heads of the frame, on its own record and in its own arithmetic, unless a command
of the commit or the comparison changes it (R135, R137); a section whose copies differ goes to DISTURBED with cause MANIFEST and
its count of the commit before, and where the pair fails every configured section does with cause MAN_FAIL (R140, R141). The row
of a sweep's time-out is such a commit. A manifest that misses the 80 ticks sets COMMIT_MISS and fails the pair; where neither
completes, and with the 80 ticks over, the device enters its safe state and no commit completes (R31, R36, R137, R138, R141,
R154). -/
def Obligations.CommitsComplete : Prop :=
  ∀ (w : CommitIn) (d : Nat) (s : State),
    (CommitDue d s → ∃ t, exec (.commit w) s = .next t ∧ Committed d s t) ∧
    (CommitDue d s → Canonical s → ∀ (pre post : List (Nat × Event)) (e : Nat) (v : StateEv),
      eventsOf s = pre ++ (e, .state v) :: post → (∀ x ∈ post, ∀ v', x.2 = .state v' → v'.head ≠ v.head) →
      v.head ∉ lateHeads s → v.head ∉ removedHeads s →
      ∃ t, exec (.commit w) s = .next t ∧ (t.dev.mode ≠ .boot →
        let y := headOf v.head t
        y.state = v.state ∧ y.cause = v.cause ∧ y.back = v.back ∧ y.side = v.side ∧ y.a = v.a ∧ y.b = v.b ∧
        y.baseA = v.baseA ∧ y.baseB = v.baseB)) ∧
    (CommitDue d s → (cfgSecs s).Nodup → (∀ n ∈ cfgSecs s, n < 512) →
      let r := (commitSteps (settleTaken s.sup.taken.length s)).1
      let mism := differing w r
      r.dev.mode ≠ .boot → ∃ t, exec (.commit w) s = .next t ∧
        (∀ n ∈ cfgSecs s, n ∉ replacedSecs w mism r →
          (∀ x ∈ s.sup.taken, (x.op = 0x01 ∨ x.op = 0x02 ∨ x.op = 0x03) → x.f.obj.toNat ≠ n) → SecDerived n s t) ∧
        (r.man.failed = false →
          (pairFails w mism r = false → t.man.failed = false ∧ ∀ n ∈ mism,
            (comSec n t).state = .disturbed ∧ (comSec n t).cause = 0x02 ∧ (comSec n t).gen = succGen (comSec n s).gen ∧
            (comSec n t).count = (comSec n s).count ∧ (comSec n t).chg = s.bell.landNo ∧
            (fltReg clsSec n t).getLsbD 0 = true ∧ (fltReg clsSec n t).getLsbD 7 = true) ∧
          (pairFails w mism r = true → t.man.failed = true ∧ ∀ n ∈ cfgSecs s,
            (comSec n t).state = .disturbed ∧ (comSec n t).cause = 0x01 ∧ (comSec n t).gen = succGen (comSec n s).gen ∧
            (comSec n t).chg = s.bell.landNo ∧ (fltReg clsSec n t).getLsbD 0 = true ∧
            (fltReg clsSec n t).getLsbD 7 = true))) ∧
    (∀ n : SecIx, CommitDue d s → (secOf n s).state = .sweepPending →
      s.img.cfg.sweepTmo * 10000000 < (s.bell.tickTime - (secOf n s).sweepAt).toNat →
      ∃ t, exec (.sweepTimeout n) s = .next t ∧ Committed d s t) ∧
    (∀ a b : Bool,
      let n := d + 80 - s.bell.phase
      let late : State := { s with
        ports := runLines n s.ports, flt := if n = 0 then s.flt else (settle s).flt
        bell := { s.bell with
          time := s.bell.time + BitVec.ofNat 48 n, timeB := s.bell.timeB - BitVec.ofNat 48 n, phase := s.bell.phase + n
          wrapBell := if s.bell.time.toNat + n < 2 ^ 48 then s.bell.wrapBell else min 255 (s.bell.wrapBell + 1) } }
      (CommitDue d s → (a = true ∨ domOn 4 s = false) → (b = true ∨ domOn 5 s = false) →
        ∃ u t, exec (.commitTimeout a b) s = .next t ∧ Raises [(clsBell, 0, 5)] late u ∧ EntersSafe 0x03 u t) ∧
      (CommitDue d s → (a = true ∧ b = false ∧ domOn 5 s = true ∨ a = false ∧ domOn 4 s = true ∧ b = true) →
        ∃ t, exec (.commitTimeout a b) s = .next t ∧ Committed d late t ∧
          (t.dev.mode ≠ .boot → t.man.failed = true ∧ (fltReg clsBell 0 t).getLsbD 5 = true)) ∧
      (s.dev.mode ≠ .boot → s.dev.safe = false → s.frame.closing = true → s.frame.drained = some d →
        d + 80 < s.bell.phase →
        exec (.commit w) s = .next s ∧
        ∃ u t, exec (.commitTimeout a b) s = .next t ∧ Raises [(clsBell, 0, 5)] late u ∧ EntersSafe 0x03 u t))

/-- The derivation of R135 for one section, on the record of either manifest. Each manifest counts in its own arithmetic. With
the pair failed only the count and the lists follow. Where a cause arises the section goes to DISTURBED with the lowest cause and
the sticky bits of all (R132 to R134): MAN_FAIL where the pair fails, POWERUP at the first commit, and at any other LATE, HEAD (an
end head enters or, ahead of DISTURBED, is in a state that bars derivation), UNDER and OVER for a section not DISTURBED. Where
none arises a DISTURBED section stays so, its count and hint lists taking the PASS events. A CLEAR or OCCUPIED one is OCCUPIED with
axles counted or an active end; else the lists decide where pattern verification is on (R120, R121). A sweep ends by its time-out,
by its verification, or, with wheels seen in and out and none counted, in CLEAR (R119, R127, R128, R135, R139, R154). -/
def Obligations.SectionsDerived : Prop :=
  ∀ (x : SecIn) (r : Sec),
    let c := r.count + ((x.moves.filter (·.up)).length : Int) - ((x.moves.filter fun m => !m.up).length : Int)
    let count := max (-32768) (min 32767 c)
    let y := derive x c r
    let arises := fun k : Nat =>
      (k = 0x01 ∧ x.failing = true) ∨ (k = 0x03 ∧ x.first = true) ∨ (x.first = false ∧
        (k = 0x04 ∧ x.late = true ∨ k = 0x05 ∧ (x.entered = true ∨ x.bad = true ∧ r.state ≠ .disturbed) ∨
         k = 0x06 ∧ r.state ≠ .disturbed ∧ c < 0 ∨ k = 0x07 ∧ r.state ≠ .disturbed ∧ 32767 < c))
    let bitOf := fun k : Nat => if k = 1 then [7] else if k = 4 then [4] else if k = 5 then [3] else if k = 6 then [1] else
      if k = 7 then [2] else if k = 8 then [5] else if k = 9 then [9] else ([] : List Nat)
    let disturbed := fun k : Nat => y.1 = { r with
      state := .disturbed, cause := k, gen := if r.gen = 0xFFFF ∨ 0xFFFF < r.gen then 1 else r.gen + 1, count := count
      dland := x.land, ep := none, hint := some .empty, wasClear := (r.state == .clear), prov := false, sweepLive := false }
    let near := fun a b : Nat => a = 0xFFFF ∨ b = 0xFFFF ∨
      (a ≤ b + max x.tolAbs (max a b * x.tolRel / 1000) ∧ b ≤ a + max x.tolAbs (max a b * x.tolRel / 1000))
    let alike := fun a b : Nat => a = 0 ∨ b = 0 ∨ (a ≤ b + 1 ∧ b ≤ a + 1)
    let verified := fun ep : Episode =>
      let n := ep.e.length
      let E := fun i => ep.e.getD i ⟨0, 0, 0⟩
      let X := fun i => ep.x.getD i ⟨0, 0, 0⟩
      ep.x.length = n ∧
      ((∀ i < n, alike (X i).cls (E i).cls) ∧ (∀ i < n, 1 ≤ i → near (X i).spc (E i).spc) ∨
       (∀ i < n, alike (X i).cls (E (n - 1 - i)).cls) ∧ (∀ i < n, 1 ≤ i → near (X i).spc (E (n - i)).spc))
    let ep := (appendLists x.moves r).ep.getD .empty
    let clears := fun k : Nat =>
      if x.pvc = true ∧ ep.overflow = false ∧ ep.unverified = false ∧ ¬verified ep then
        disturbed k ∧ y.2 = 0 :: bitOf k
      else y.1.state = .clear ∧ y.1.cause = 0 ∧ y.1.count = count ∧ y.1.gen = r.gen ∧ y.1.prov = false ∧ y.1.ep = none ∧
        y.1.hint = none ∧
        y.2 = if x.pvc = true ∧ ¬(ep.overflow = false ∧ ep.unverified = false) then [6] else []
    sumA x.moves r = c ∧
    (-32768 ≤ r.count → r.count ≤ 32767 → sumB x.moves (codeB r) = c) ∧
    (x.failed = true → y = ({ appendLists x.moves r with count := count, prov := false }, [])) ∧
    (x.failed = false → ∀ k, arises k → (∀ k', arises k' → k ≤ k') →
      disturbed k ∧ ∀ b, b ∈ y.2 ↔ b = 0 ∨ ∃ k', arises k' ∧ b ∈ bitOf k') ∧
    (x.failed = false → (∀ k, ¬arises k) →
      (r.state = .disturbed → y = ({ appendLists x.moves r with count := count, prov := false }, []) ∧
        y.1.state = .disturbed ∧ y.1.hint = r.hint.map (appendAll x.moves)) ∧
      ((r.state = .clear ∨ r.state = .occupied) →
        (0 < c ∨ x.active = true → y.1.state = .occupied ∧ y.1.count = c ∧ y.1.cause = 0 ∧ y.1.gen = r.gen ∧
          (y.1.prov = true ↔ x.active = true ∧ c = 0) ∧ y.1.ep = some ep ∧ y.2 = []) ∧
        (c = 0 → x.active = false → clears 0x08)) ∧
      (r.state = .sweepPending →
        let seenIn := r.swIn = true ∨ ∃ m ∈ x.moves, m.up = true
        let seenOut := r.swOut = true ∨ ∃ m ∈ x.moves, m.up = false
        (¬(r.sweepLive = true ∧ (x.tick - r.sweepAt).toNat ≤ x.sweepTmo) →
          y.1.state = .disturbed ∧ y.1.cause = 0x09 ∧ y.1.gen = succGen r.gen ∧ y.1.count = c ∧ y.2 = [0, 9]) ∧
        (r.sweepLive = true → (x.tick - r.sweepAt).toNat ≤ x.sweepTmo →
          (x.active = true ∨ c ≠ 0 ∨ ¬seenIn ∨ ¬seenOut →
            y.1.state = .sweepPending ∧ y.1.count = c ∧ (y.1.swIn = true ↔ seenIn) ∧ (y.1.swOut = true ↔ seenOut) ∧
            y.1.hint = r.hint.map (appendAll x.moves) ∧ y.2 = []) ∧
          (x.active = false → c = 0 → seenIn → seenOut →
            if x.pvc = true ∧ ep.overflow = false ∧ ep.unverified = false ∧ ¬verified ep then
              y.1.state = .disturbed ∧ y.1.cause = 0x09 ∧ y.1.gen = succGen r.gen ∧ y.2 = [0, 9]
            else y.1.state = .clear ∧ y.1.cause = 0 ∧ y.1.count = 0 ∧ y.1.gen = r.gen ∧
              y.2 = if x.pvc = true ∧ ¬(ep.overflow = false ∧ ep.unverified = false) then [6] else []))))

/-- A checkpoint passes when both supervisors are in service, it is in time, the digests of the two safety parts are equal,
both reports came and, on every 256th landing, the test words are each the other's complement and the comparator tests did: the
orders are then released and the run count goes up. The safety part is everything of an output block but the command results and
the test word. Otherwise the checkpoint fails: the run count clears, nothing is released, CHK_FLT shows why and LOCKOUT follows
at the next commit; a digest that has not come by the deadline, 1 240 ticks behind the commit, is such a failure (R234 to R238). -/
def Obligations.Checkpoints : Prop :=
  ∀ (w : CheckIn) (s : State), s.dev.mode ≠ .boot → s.dev.safe = false → s.sup.cpDue = true →
    let served := domOn 6 s = true ∧ domOn 7 s = true
    let inTime := ∀ t, s.frame.committedAt = some t → s.bell.phase ≤ t + 1240
    let reports := w.reportA = true ∧ w.reportB = true
    let test := s.bell.landNo.toNat % 256 = 0
    let testsPass := w.testA = true ∧ w.testB = true ∧ s.sup.outA.test = ~~~s.sup.outB.test
    let failsWith := fun (bit : Nat) (t : State) => t.sup.cpDue = false ∧ t.sup.cpOkC = false ∧ t.sup.cpokRunC = 0 ∧
      t.sup.lockNext = true ∧ t.sup.orders = none ∧ t.sup.sent = none ∧ (fltReg clsChk 0 t).getLsbD bit = true ∧
      ∀ x ∈ t.sup.taken, x.cpFail = true
    let digest := fun (o : OutBlock) => crc32c (leBytes 4 s.bell.landNo.toNat ++
      blockBytes { o with mem := { o.mem with results := [] }, test := 0 })
    (∃ t, exec (.checkpoint w) s = .next t ∧ t.free = s.free ∧ t.bell = s.bell ∧ t.frame = s.frame ∧ t.saf = s.saf ∧
      t.man = s.man ∧ t.engs = s.engs ∧ t.heads = s.heads ∧ t.sup.passA = w.passA ∧ t.sup.passB = w.passB ∧
      t.sup.digA = (if domOn 6 s = true then digest s.sup.outA ^^^ w.errA else s.sup.digA) ∧
      t.sup.digB = (if domOn 7 s = true then digest s.sup.outB ^^^ w.errB else s.sup.digB) ∧
      (served → inTime → t.sup.digA = t.sup.digB → reports → (test → testsPass) →
        t.sup.cpDue = false ∧ t.sup.cpOkC = true ∧ t.sup.cpokRunC = min 0xFFFF (s.sup.cpokRunC + 1) ∧
        t.sup.sent = s.sup.orders ∧ t.sup.orders = none ∧ t.sup.lockNext = s.sup.lockNext) ∧
      (¬(served ∧ inTime) → failsWith 1 t) ∧
      (served → inTime → ¬(t.sup.digA = t.sup.digB ∧ reports) → failsWith 0 t) ∧
      (test → ¬testsPass → failsWith 3 t) ∧
      (served → inTime → test → t.sup.digA ≠ t.sup.digB → failsWith 3 t)) ∧
    (∃ t, exec .checkpointDeadline s = .next t ∧ failsWith 1 t ∧
      t.bell.phase = max s.bell.phase (min (s.frame.committedAt.getD 0 + 1240) (s.bell.frameLen - 1)))

/-! ### The mailbox (R148 to R159, R252, R259 to R261, R281, R290 to R296, R318 to R323) -/

/-- Every mailbox row: in the safe state it takes nothing; an entry whose form is wrong is refused with 0x10 and one of the
follower, but for NOP and LEAD_TAKE, with 0x11. NOP succeeds with no effect; an OP that R293 does not list is refused with
0x10. Supervisor B does with its own memories and manifest what A does with its own; an entry on whose outcome they disagree is
refused with 0x0F and sets CMD_DISAGREE (R150, R233, R234, R292, R293, R362; log 127). -/
def Obligations.MailboxForms : Prop :=
  ∀ (p : HostId) (i : Fin 127) (f : MbFields) (s : State),
    let k := argByte f 0
    let rows : List (Instr × Byte × Bool) := [
      (.nop p i f, 0x00, true), (.rstSweep p i f, 0x01, true), (.rstDreq p i f, 0x02, true),
      (.rstDconf p i f, 0x03, true), (.sgEnable p i f, 0x10, true), (.sgStop p i f, 0x11, true),
      (.sgProfile p i f, 0x12, true), (.sgReset p i f, 0x13, true), (.devReset p i f, 0x14, true),
      (.modeReqBoot p i f, 0x20, k == 1), (.modeReqCommission p i f, 0x20, k == 3), (.modeReqRun p i f, 0x20, k == 4),
      (.modeReqHarbour p i f, 0x20, k == 5), (.modeReqLockout p i f, 0x20, k == 6),
      (.modeReqOtherTarget p i f, 0x20, k == 0 || k == 2 || decide (6 < k)), (.paramSet p i f, 0x30, true),
      (.forceSet p i f, 0x40, true), (.forceClr p i f, 0x41, k != 1), (.forceClrAll p i f, 0x41, k == 1),
      (.headWd p i f, 0x50, true), (.leadTake p i f, 0x60, true), (.leadYield p i f, 0x61, true)]
    (∀ x ∈ rows, x.2.2 = true →
      (s.dev.safe = true → exec x.1 s = .next s) ∧
      (s.dev.safe = false → s.sup.b.results = s.sup.results → formatOk x.2.1.toNat f = false →
        ∃ t, exec x.1 s = .next t ∧ Answered p i 0x10 0 f s t) ∧
      (s.dev.safe = false → s.sup.b.results = s.sup.results → formatOk x.2.1.toNat f = true → isFollower p s = true →
        x.2.1 ≠ 0x00 → x.2.1 ≠ 0x60 → ∃ t, exec x.1 s = .next t ∧ Answered p i 0x11 0 f s t) ∧
      (Concur p i x.2.1 f s → ∃ t v, exec x.1 s = .next t ∧ exec x.1 (viewB s) = .next v ∧ t.sup.b = memOf v.sup) ∧
      (¬Concur p i x.2.1 f s → s.dev.safe = false → formatOk x.2.1.toNat f = true →
        (x.2.1 ≠ 0x00 → x.2.1 ≠ 0x60 → isFollower p s = false) → x.2.1.toNat ∉ [0x01, 0x02, 0x03, 0x30] →
        ∃ u t, exec x.1 s = .next t ∧ Raises [(clsChk, 0, 2)] s u ∧ Answered p i 0x0F 0 f u t)) ∧
    (Heard p 0x00 f s → ∃ t, exec (.nop p i f) s = .next t ∧ Answered p i 0x00 0 f s t) ∧
    (∀ op : Byte, op.toNat ∉ [0x00, 0x01, 0x02, 0x03, 0x10, 0x11, 0x12, 0x13, 0x14, 0x20, 0x30, 0x40, 0x41, 0x50, 0x60, 0x61] →
      s.dev.safe = false → s.sup.b.results = s.sup.results → ∃ t, exec (.unlistedOp p i op f) s = .next t ∧ Answered p i 0x10 0 f s t)

/-- The restorations: the codes of R151 in their order, then the effect: RST_SWEEP makes the section SWEEP_PENDING, RST_DREQ
leaves a request with a fresh key that goes to the key record, RST_DCONF within its window and with the key and count of the
request sets the count; each manifest changes its own record. A request is cancelled 30 s after its time, by bell time and
wherever it is looked at (R139, R149 to R155, R157 to R159; the bell time is DEDUCED, log 80). -/
def Obligations.Restorations : Prop :=
  ∀ (p : HostId) (i : Fin 127) (f : MbFields) (s : State),
    let n := f.obj.toNat
    let r := secOf n s
    let land := s.bell.landNo
    let checks := fun (states : List SecState) => [
      (decide (s.dev.mode = .boot ∨ s.dev.mode = .prove), 0x01), (s.man.failed, 0x02),
      (!(decide (n < 512) && secConfigured n s), 0x03),
      (decide (1 ≤ (f.issue - land).toNat ∧ (f.issue - land).toNat < 2 ^ 31) || decide (4096 ≤ (land - f.issue).toNat), 0x04),
      (decide (f.acode.toNat ≠ s.img.cfg.auth.getD (secCfg n s).auth 0), 0x05), (decide (f.gen.toNat ≠ r.gen), 0x06),
      (!states.contains r.state, 0x07), (!((secCfg n s).ends.all fun e => (headOf e.1 s).state == .idle), 0x08)]
    let young := fun q : Dreq => q.live && decide ((s.bell.time - q.at_).toNat < 300000000)
    let pend := s.sup.pend.filter young
    let base : State := { s with sup := { s.sup with pend := pend } }
    let seen : State := { base with sup := { base.sup with dupSecs := n :: s.sup.dupSecs } }
    let req := pend.find? fun q => q.snum == n
    let without := pend.filter fun q => q.snum != n
    let pair : List SecState := [.disturbed, .sweepPending]
    let only := fun (u : State) (h : Sec → Sec) => secOf n u = h r ∧ secBOf n u = codeB (h (decodeB (secBOf n s))) ∧
      ∀ m, m < 512 → m ≠ n → secOf m u = secOf m s ∧ secBOf m u = secBOf m s
    (s.sup.dupSecs.contains n = true →
      (Heard p 0x01 f s → ∃ t, exec (.rstSweep p i f) s = .next t ∧ Answered p i 0x0E 0 f base t) ∧
      (Heard p 0x02 f s → keyEnabled p s = true →
        ∃ t, exec (.rstDreq p i f) s = .next t ∧ Answered p i 0x0E 0 f base t) ∧
      (Heard p 0x03 f s → ∃ t, exec (.rstDconf p i f) s = .next t ∧ Answered p i 0x0E 0 f base t)) ∧
    (Heard p 0x02 f s → keyEnabled p s = false →
      ∃ t, exec (.rstDreq p i f) s = .next t ∧ Answered p i 0x13 0 f s t) ∧
    (s.sup.dupSecs.contains n = false →
      (Heard p 0x01 f s →
        (∀ c, firstCode (checks [.disturbed]) = some c →
          ∃ t, exec (.rstSweep p i f) s = .next t ∧ Answered p i c 0 f seen t) ∧
        (firstCode (checks [.disturbed]) = none →
          ∃ u t, exec (.rstSweep p i f) s = .next t ∧ Answered p i 0x00 0 f u t ∧
            only u (fun r => { r with state := .sweepPending, count := 0, gen := succGen r.gen, ep := some .empty
                                      prov := false, chg := land, sweepAt := s.bell.tickTime, sweepLive := true
                                      swIn := false, swOut := false }) ∧
            u = { seen with man := { s.man with a := u.man.a, b := u.man.b }
                            sup := { seen.sup with pend := pend.filter fun q => q.gen == (secOf q.snum u).gen } })) ∧
      (Heard p 0x02 f s → keyEnabled p s = true →
        let all := checks pair ++ [(decide (32767 < f.count.toNat), 0x09),
          (req.isNone && decide (16 ≤ pend.length), 0x0D)]
        (∀ c, firstCode all = some c → ∃ t, exec (.rstDreq p i f) s = .next t ∧ Answered p i c 0 f seen t) ∧
        (firstCode all = none →
          ∃ t key, exec (.rstDreq p i f) s = .next t ∧ 1 ≤ key ∧ key ≤ 65535 ∧
            Answered p i 0x00 0 f { seen with
              free := s.free + 1
              sup := { seen.sup with
                pend := without ++ [{ snum := n, gen := r.gen, count := f.count.toNat, at_ := s.bell.tickTime
                                      key := key, live := true }]
                keys := s.sup.keys ++ [(i.val, f.tag, n, key)] } } t)) ∧
      (Heard p 0x03 f s →
        (∀ c, firstCode (checks pair) = some c →
          ∃ t, exec (.rstDconf p i f) s = .next t ∧ Answered p i c 0 f seen t) ∧
        (firstCode (checks pair) = none →
          (req = none → ∃ t, exec (.rstDconf p i f) s = .next t ∧ Answered p i 0x0A 0 f seen t) ∧
          (∀ q, req = some q →
            (f.count.toNat ≠ q.count → ∃ t, exec (.rstDconf p i f) s = .next t ∧ Answered p i 0x09 0 f seen t) ∧
            (f.count.toNat = q.count → f.key.toNat ≠ q.key →
              ∃ t, exec (.rstDconf p i f) s = .next t ∧
                Answered p i 0x0B 0 f { seen with sup := { seen.sup with pend := without } } t) ∧
            (f.count.toNat = q.count → f.key.toNat = q.key →
              (s.bell.tickTime - q.at_).toNat < 5000000 →
              ∃ t, exec (.rstDconf p i f) s = .next t ∧ Answered p i 0x0C 0 f seen t) ∧
            (f.count.toNat = q.count → f.key.toNat = q.key → 5000000 ≤ (s.bell.tickTime - q.at_).toNat →
              ∃ u t, exec (.rstDconf p i f) s = .next t ∧ Answered p i 0x00 0 f u t ∧
                only u (fun r => { r with
                  state := if f.count.toNat = 0 then .clear else .occupied, count := (f.count.toNat : Int)
                  gen := succGen r.gen, cause := 0, hint := none, hintCode := 0, prov := false, chg := land
                  sweepLive := false
                  ep := if f.count.toNat = 0 then none else some { Episode.empty with unverified := true } }) ∧
                u = { seen with man := { s.man with a := u.man.a, b := u.man.b }
                                sup := { seen.sup with pend := without.filter fun q => q.gen == (secOf q.snum u).gen } }))))) ∧
    (∀ m : SecIx,
      let other := fun q : Dreq => q.snum != m.val
      (s.sup.pend.all other = true → exec (.dreqExpiry m) s = .next s) ∧
      ∀ q, s.sup.pend.find? (fun q => q.snum == m.val) = some q → exec (.dreqExpiry m) s = .next
        (if young q = true then s
         else { s with sup := { s.sup with
           pend := s.sup.pend.filter other, b := { s.sup.b with pend := s.sup.b.pend.filter other } } }))

/-- The commands of a stop group: the codes of R293 in their order, then the order for the landing. An enable is refused with
0x20 and the failing conditions while one of R252 fails or the mailbox stops the group; SWEEP_PENDING counts as OCCUPIED; a
profile is taken only in STO, a reset only with the group LOCKED, LRST low and both feedback inputs dropped out (R130, R252,
R259 to R261, R292). -/
def Obligations.StopGroupCommands : Prop :=
  ∀ (p : HostId) (i : Fin 127) (f : MbFields) (s : State),
    let g := f.obj.toNat
    let b := argByte f 0
    let none_ := decide (s.dev.mode = .boot ∨ s.dev.mode = .prove)
    let cfgd := grpConfigured g s
    let e := enblkOf g s
    let stop := s.sup.stopGrps.contains g
    let orders := fun (h : GrpOrder → GrpOrder) (s u : State) =>
      u = { s with sup := { s.sup with orders := u.sup.orders } } ∧ orderOf g u = h (orderOf g s) ∧
      ∀ g', g' ≠ g → orderOf g' u = orderOf g' s
    let refused := fun (c : Instr) (op : Byte) (l : List (Bool × Nat)) =>
      ∀ k, firstCode l = some k → Heard p op f s → ∃ t, exec c s = .next t ∧ Answered p i k 0 f s t
    refused (.sgEnable p i f) 0x10 [(stale f s, 0x04), (!cfgd, 0x12)] ∧
    (Heard p 0x10 f s → stale f s = false → cfgd = true →
      (e ≠ 0 ∨ stop = true → ∃ t, exec (.sgEnable p i f) s = .next t ∧
        Answered p i 0x20 (e.toNat + if stop then 4096 else 0) f s t) ∧
      (e = 0 → stop = false → ∃ u t, exec (.sgEnable p i f) s = .next t ∧ Answered p i 0x00 0 f u t ∧
        orders (fun o => { o with enable := true }) s u)) ∧
    (e.getLsbD 1 = decide (grpStateNow g s ≠ .sto)) ∧
    (e.getLsbD 2 = !((grpCfg g s).trust.all fun n =>
      (secOf n s).state == .clear || (secOf n s).state == .occupied || (secOf n s).state == .sweepPending)) ∧
    (e.getLsbD 6 = !((grpOf g s).lat.getLsbD 0 && (grpOf g s).lat.getLsbD 1)) ∧
    (e.getLsbD 10 = !(s.saf.accepted && s.sup.cpOkC)) ∧
    refused (.sgStop p i f) 0x11 [(none_, 0x01), (stale f s, 0x04), (!cfgd, 0x12)] ∧
    (Heard p 0x11 f s → none_ = false → stale f s = false → cfgd = true →
      ∃ u t, exec (.sgStop p i f) s = .next t ∧ Answered p i 0x00 0 f u t ∧
        orders (fun o => { o with stop := true })
          { s with sup := { s.sup with stopGrps := insertKey g s.sup.stopGrps } } u) ∧
    refused (.sgProfile p i f) 0x12 [(none_, 0x01), (stale f s, 0x04),
      (!(cfgd && decide (b < (grpCfg g s).profiles.length)), 0x12), (decide (grpStateNow g s ≠ .sto), 0x21)] ∧
    (Heard p 0x12 f s → none_ = false → stale f s = false → cfgd = true → b < (grpCfg g s).profiles.length →
      grpStateNow g s = .sto →
      ∃ u t, exec (.sgProfile p i f) s = .next t ∧ Answered p i 0x00 0 f u t ∧
        orders (fun o => { o with profile := some b }) s u) ∧
    (let ready := grpStateNow g s = .locked ∧ (grpOf g s).lat.getLsbD 4 = false ∧ (grpOf g s).lat.getLsbD 0 = true ∧
      (grpOf g s).lat.getLsbD 1 = true
     refused (.sgReset p i f) 0x13 [(none_, 0x01), (stale f s, 0x04), (!cfgd, 0x12), (decide ¬ready, 0x22)] ∧
     (Heard p 0x13 f s → none_ = false → stale f s = false → cfgd = true → ready →
       ∃ u t, exec (.sgReset p i f) s = .next t ∧ Answered p i 0x00 0 f u t ∧
         orders (fun o => { o with openReset := true }) s u))

/-- The mode requests and DEV_RESET: stale entries are refused with 0x04, a second one of a commit with 0x70 and BUSY, one
whose conditions fail with 0x70, those conditions standing in VALUE and DEV_REFUSE; otherwise the mode changes, or a HARBOUR
sequence or the reset's window begins (R318 to R323). -/
def Obligations.ModeRequests : Prop :=
  ∀ (p : HostId) (i : Fin 127) (f : MbFields) (s : State),
    let rows : List (Instr × Mode) := [(.modeReqBoot p i f, .boot), (.modeReqCommission p i f, .commission),
      (.modeReqRun p i f, .run), (.modeReqHarbour p i f, .harbour), (.modeReqLockout p i f, .lockout)]
    let seen : State := { s with sup := { s.sup with modeTaken := true } }
    let refusal := fun (req bits : Nat) (t : State) =>
      Answered p i 0x70 bits f { seen with dev := { s.dev with refReq := req, refCond := bits } } t
    let done := fun t : State => t.sup.results = s.sup.results ++
      [{ port := p, ix := i, code := 0x00, value := 0, tag := f.tag }]
    (∀ x ∈ rows, Heard p 0x20 f s → argByte f 0 = modeCode x.2 →
      (stale f s = true → ∃ t, exec x.1 s = .next t ∧ Answered p i 0x04 0 f s t) ∧
      (stale f s = false → s.sup.modeTaken = true →
        ∃ t, exec x.1 s = .next t ∧ refusal (modeCode x.2) 0x100 t) ∧
      (stale f s = false → s.sup.modeTaken = false → condBits false (modeConds x.2 seen) seen ≠ 0 →
        ∃ t, exec x.1 s = .next t ∧ refusal (modeCode x.2) (condBits false (modeConds x.2 seen) seen) t)) ∧
    (Heard p 0x20 f s → stale f s = false → s.sup.modeTaken = false →
      let sound := (bellStatNow s).getLsbD 3 = true ∧ s.saf.sealOk = true ∧ 16 ≤ s.sup.cpokRunC
      let changed := fun (m : Mode) (t : State) => done t ∧ t.dev.mode = m ∧ t.dev.modeLand = s.bell.landNo ∧
        t.sup.modeTaken = true ∧ t.bell = s.bell ∧ t.man = s.man ∧ t.engs = s.engs
      (argByte f 0 = 3 → s.dev.mode = .prove → s.dev.pdone = true → sound → s.img.cfg.commok = true →
        ∃ t, exec (.modeReqCommission p i f) s = .next t ∧ changed .commission t ∧ t.saf = s.saf) ∧
      (argByte f 0 = 4 → s.dev.mode = .prove → s.dev.pdone = true → sound →
        ∃ t, exec (.modeReqRun p i f) s = .next t ∧ changed .run t ∧ t.saf = s.saf ∧ t.sup.forces = []) ∧
      (argByte f 0 = 4 → s.dev.mode = .commission → 16 ≤ s.sup.cpokRunC →
        ∃ t, exec (.modeReqRun p i f) s = .next t ∧ changed .run t ∧ t.saf = s.saf ∧ t.sup.forces = []) ∧
      (argByte f 0 = 3 → s.dev.mode = .run → 16 ≤ s.sup.cpokRunC → s.img.cfg.commok = true →
        ∃ t, exec (.modeReqCommission p i f) s = .next t ∧ changed .commission t ∧ t.saf = s.saf) ∧
      (argByte f 0 = 5 → s.dev.mode = .run → 16 ≤ s.sup.cpokRunC → groupsActive s = false →
        (∀ h ∈ cfgHeads s, (headOf h s).state ≠ .passage) →
        migBusy s = false → s.sup.rot = none → s.dev.htrans = 0 →
        ∃ t, exec (.modeReqHarbour p i f) s = .next t ∧ changed .harbour t ∧ t.saf = s.saf ∧ t.dev.htrans = 1 ∧
          t.dev.seqLand = s.bell.landNo + 1) ∧
      (argByte f 0 = 4 → s.dev.mode = .harbour → 16 ≤ s.sup.cpokRunC → migBusy s = false → s.sup.rot = none →
        s.dev.htrans = 0 →
        ∃ t, exec (.modeReqRun p i f) s = .next t ∧ Answered p i 0x00 0 f { seen with
          dev := { s.dev with htrans := 2, seqLand := s.bell.landNo } } t) ∧
      (argByte f 0 = 6 → s.dev.mode ≠ .boot → s.dev.mode ≠ .lockout →
        ∃ t, exec (.modeReqLockout p i f) s = .next t ∧ changed .lockout t ∧ t.dev.prior = some s.dev.mode ∧
          (fltReg clsDev 0 t).getLsbD 3 = true ∧ t.sup.forces = [] ∧
          ∀ g, (grpOf g s).state ≠ .unused → IsLocked (grpOf g t)) ∧
      (argByte f 0 = 1 → s.dev.mode ≠ .boot → groupsActive s = false →
        ∃ t, exec (.modeReqBoot p i f) s = .next t ∧ t.dev.mode = .boot ∧ t.dev.modeLand = s.bell.landNo ∧
          t.bell.time = s.bell.time ∧ t.bell.landNo = s.bell.landNo ∧ t.bell.locked = false ∧ t.img.state = .empty ∧
          t.ha.window = [] ∧ t.hb.window = [] ∧ t.flt.bits = s.flt.bits ∧ (∀ n, (secOf n t).state = .unconfigured) ∧
          ∀ g, (grpOf g t).tra = false ∧ (grpOf g t).trb = false ∧ (grpOf g t).srq = false) ∧
      (argByte f 0 = 2 → ∃ t, exec (.modeReqOtherTarget p i f) s = .next t ∧ refusal 2 1 t) ∧
      (argByte f 0 = 0 ∨ 6 < argByte f 0 →
        ∃ t, exec (.modeReqOtherTarget p i f) s = .next t ∧ Answered p i 0x12 0 f s t)) ∧
    (Heard p 0x14 f s →
      (stale f s = true → ∃ t, exec (.devReset p i f) s = .next t ∧ Answered p i 0x04 0 f s t) ∧
      (stale f s = false → s.sup.modeTaken = true → ∃ t, exec (.devReset p i f) s = .next t ∧ refusal 0xFF 0x100 t) ∧
      (stale f s = false → s.sup.modeTaken = false → s.dev.mode ≠ .lockout →
        ∃ t, exec (.devReset p i f) s = .next t ∧ refusal 0xFF 1 t) ∧
      (∀ m, stale f s = false → s.sup.modeTaken = false → s.dev.mode = .lockout → s.sup.lockNow = false →
        s.dev.prior = some m → m ≠ .prove → 256 ≤ s.sup.cpokRunC → s.saf.sealOk = true → domOn 6 s = true →
        domOn 7 s = true → devResetOk s = true →
        ∃ t, exec (.devReset p i f) s = .next t ∧ Answered p i 0x00 0 f { seen with
          sup := { seen.sup with orders := some { ordersNow s with openDevReset := true } } } t))

/-- Parameters, forces, the withdrawal of a head and the lead: the codes of R293 in their order, then the effect. A parameter
needs its CRC, its PID, the current PGEN and its range, and steps PGEN; a force holds until it is cleared; a withdrawal orders
a hand-over of the head to the engine named, or, for 0xFFFF, to the lowest-numbered READY engine of the ENG domain, not the source's
own, that has the most of them; the lead changes hands with the writes of its ring, and vector 4 is raised (R220, R281, R293,
R295, R296). -/
def Obligations.ParametersForcesLead : Prop :=
  ∀ (p : HostId) (i : Fin 127) (f : MbFields) (s : State),
    let n := f.obj.toNat
    let q := otherHost p
    let v : Word := f.arg.setWidth 32
    let gone := fun m : Mode => s.dev.mode = m
    let seen : State := { s with sup := { s.sup with paramTaken := true } }
    let bad := fun (code bit : Nat) (t : State) => ∃ u, Raises [(clsParam, 0, bit)] seen u ∧ Answered p i code 0 f u t
    let crc := (crc32c ((entryImage 0x30 f).take 28)).toNat = f.arg.toNat / 2 ^ 64 % 2 ^ 32
    let pgen := f.arg.toNat / 2 ^ 32 % 2 ^ 16
    (Heard p 0x30 f s → ¬gone .boot → ¬gone .prove → stale f s = false →
      (s.sup.paramTaken = true → ∃ t, exec (.paramSet p i f) s = .next t ∧ bad 0x34 4 t) ∧
      (s.sup.paramTaken = false → ¬crc → ∃ t, exec (.paramSet p i f) s = .next t ∧ bad 0x30 0 t) ∧
      (s.sup.paramTaken = false → crc → paramOf n s = none → ∃ t, exec (.paramSet p i f) s = .next t ∧ bad 0x31 1 t) ∧
      (∀ c, s.sup.paramTaken = false → crc → paramOf n s = some c →
        (pgen ≠ s.sup.pgen → ∃ t, exec (.paramSet p i f) s = .next t ∧ bad 0x33 3 t) ∧
        (pgen = s.sup.pgen → paramInRange c v = false → ∃ t, exec (.paramSet p i f) s = .next t ∧ bad 0x32 2 t) ∧
        (pgen = s.sup.pgen → paramInRange c v = true →
          ∃ u t, exec (.paramSet p i f) s = .next t ∧ Answered p i 0x00 0 f u t ∧ paramValue n u = v ∧
            (∀ m, m ≠ n → paramValue m u = paramValue m s) ∧
            u = { seen with sup := { seen.sup with params := u.sup.params, pgen := succGen s.sup.pgen
                                                   paramLast := u.sup.paramLast } }))) ∧
    (Heard p 0x40 f s → gone .commission → stale f s = false → n < 512 → secConfigured n s = true →
      (forced n s = true ∨ s.sup.forces.length < 32 →
        ∃ u t, exec (.forceSet p i f) s = .next t ∧ Answered p i 0x00 0 f u t ∧
          u = { s with sup := { s.sup with forces := u.sup.forces } } ∧
          ∀ x, x ∈ u.sup.forces ↔ x = (n, BitVec.ofNat 8 (f.arg.toNat % 256), BitVec.ofNat 16 (f.arg.toNat / 2 ^ 16)) ∨
            x ∈ s.sup.forces ∧ x.1 ≠ n) ∧
      (forced n s = false → 32 ≤ s.sup.forces.length →
        ∃ t, exec (.forceSet p i f) s = .next t ∧ Answered p i 0x40 0 f s t)) ∧
    (Heard p 0x41 f s → gone .commission → stale f s = false → argByte f 0 ≠ 1 → n < 512 → secConfigured n s = true →
      ∃ t, exec (.forceClr p i f) s = .next t ∧ Answered p i 0x00 0 f
        { s with sup := { s.sup with forces := s.sup.forces.filter fun x => x.1 != n } } t) ∧
    (Heard p 0x41 f s → gone .commission → stale f s = false → argByte f 0 = 1 →
      ∃ t, exec (.forceClrAll p i f) s = .next t ∧ Answered p i 0x00 0 f { s with sup := { s.sup with forces := [] } } t) ∧
    (∀ d e : Nat, Heard p 0x50 f s → (gone .commission ∨ gone .run) → stale f s = false → n < 512 →
      headConfigured n s = true → f.arg.toNat % 2 ^ 16 = d → d < 512 → d ∈ readyEngs s → engineOf n s = some e →
      inHandover e s = false → moveOf n s = none →
      ∃ u t, exec (.headWd p i f) s = .next t ∧ Answered p i 0x00 0 f u t ∧
        u = { s with sup := { s.sup with moves := u.sup.moves } } ∧
        ∀ m, m ∈ u.sup.moves ↔ m = { head := n, src := e, dst := d, slot := 0, kind := 4, record := false, stage := .chosen } ∨
          m ∈ s.sup.moves ∧ m.head ≠ n) ∧
    (∀ e : Nat, Canonical s → Heard p 0x50 f s → (gone .commission ∨ gone .run) → stale f s = false → n < 512 →
      headConfigured n s = true → f.arg.toNat % 2 ^ 16 = 0xFFFF → engineOf n s = some e →
      inHandover e s = false → moveOf n s = none → (∀ d ∈ readyEngs s, d < 512) →
      let free := (readyEngs s).filter fun d => d / 32 != e / 32
      let count := fun d => (free.filter fun x => x / 32 == d / 32).length
      (free = [] → ∃ t, exec (.headWd p i f) s = .next t ∧ Answered p i 0x50 0 f s t) ∧
      (∀ d ∈ free, (∀ x ∈ free, count x < count d ∨ count x = count d ∧ d ≤ x) →
        ∃ u t, exec (.headWd p i f) s = .next t ∧ Answered p i 0x00 0 f u t ∧
          u = { s with sup := { s.sup with moves := u.sup.moves } } ∧
          ∀ m, m ∈ u.sup.moves ↔
            m = { head := n, src := e, dst := d, slot := 0, kind := 4, record := false, stage := .chosen } ∨
            m ∈ s.sup.moves ∧ m.head ≠ n)) ∧
    (let swapped := fun (r : HostId) (t : State) => ∃ u, Answered p i 0x00 0 f u t ∧ VectorRaised 4
        { s with
          dev := { s.dev with lead := r }
          ha := { s.ha with wrRidx := if r = .ha then s.dev.wrWidx else s.ha.wrRidx, leadLand := s.bell.landNo }
          hb := { s.hb with wrRidx := if r = .hb then s.dev.wrWidx else s.hb.wrRidx, leadLand := s.bell.landNo } } u
     (Heard p 0x60 f s → s.dev.hasLead = true → s.dev.lead ≠ p → 64 ≤ (hostOf q s).silent →
       ∃ t, exec (.leadTake p i f) s = .next t ∧ swapped p t) ∧
     (Heard p 0x60 f s → (hostOf q s).silent < 64 →
       ∃ t, exec (.leadTake p i f) s = .next t ∧ Answered p i 0x60 (hostOf q s).silent f s t) ∧
     (Heard p 0x61 f s → s.dev.hasLead = true → s.dev.lead = p → hostUp q s = true → (hostOf q s).silent < 64 →
       ∃ t, exec (.leadYield p i f) s = .next t ∧ swapped q t) ∧
     (Heard p 0x61 f s → 64 ≤ (hostOf q s).silent →
       ∃ t, exec (.leadYield p i f) s = .next t ∧ Answered p i 0x60 (hostOf q s).silent f s t))

/-! ### Rings (R56 to R80) -/

/-- What a port meets: the code groups of a frame, from SOF to EOF, are decoded with the running disparity held, or, for the first
since alignment, the one its SOF shows; frames received whole enter its FIFO of 32 unless their length, type or CRC is wrong; code
violations are counted, and 4 within 256 characters take the link down; commas bring a link that is down to ALIGN, 64 clean
characters bring it UP, and the last port of a ring in discovery to come up starts its DISCOVER (R58 to R61, R68, R79, R80).
What a ring sends of itself: a frame waits for the line behind those of its precedence and above (R64); a MARKER leaves every
port in use at each multiple of 1 000 ticks, with the bell time its SOF leaves (R65); a command unanswered for 100 us goes out
once more, one of discovery in PROVE only (R63); and a discovery step whose limit expires in PROVE fails the ring with the step's
code (R68, R69). That a discarded frame of unknown source counts against every GN8 of its ring, which bit a frame with more than one
error sets, and the codes of unanswered commands of steps 3, 5 and 6, are the model's choices (logs 95, 97 and 93); so are the line
code's tables (PRESUMED, log 89). -/
def Obligations.RingLinksAndCommands : Prop :=
  (∀ (rd : Bool) (f : List Byte), decodeGroups rd (frameGroups rd f).1 =
     ([.ctl sofOctet] ++ f.map .data ++ [.ctl eofOctet], (frameGroups rd f).2)) ∧
  (∀ (p : PortIx) (k : Nat) (s : State), portInUse p s = true → portRing p s = some k →
     let x := portOf p s
     let now := s.bell.time
     (∀ (f : List Byte) (rd : Bool) (gap : Nat), x.link = .up → (x.rxRd = none ∨ x.rxRd = some rd) →
       let groups := (frameGroups rd f).1
       let y : RPort := { x with rxRd := some (frameGroups rd f).2 }
       let at_ : State := setPort p y s
       let i := 4 * k + (f.getD 1 0).toNat % 8
       let ours := frameType f = 1 ∧ (f.getD 1 0).toNat % 8 < (ringCfg k s).ngn8
       let known := frameLen (frameType f) ≠ 0 ∧ f.length = frameLen (frameType f)
       let crc := (crc32c (f.take (f.length - 4))).toNat = fieldLE f (f.length - 4) 4
       let counted : RPort := { y with crc := min 0xFFFF (x.crc + 1) }
       (known → crc → x.rx.length < 32 → ∃ t, exec (.frameReceive p groups gap) s = .next t ∧
         PortBecomes p { y with rx := x.rx ++ [f] } s t) ∧
       (known → crc → 32 ≤ x.rx.length → ∃ u t, exec (.frameReceive p groups gap) s = .next t ∧
         (¬ours → u = at_) ∧
         (ours → let m := if commits s = true then mergeGn8 i at_ else at_
           Gn8Becomes i { gn8Of i m with lastDiscard := some now } m u) ∧
         Raises [(clsRing, 0, 10)] u t) ∧
       (frameLen (frameType f) = 0 → 8 ≤ f.length → crc → ∃ u t, exec (.frameReceive p groups gap) s = .next t ∧
         PortBecomes p counted s u ∧ Raises [(clsRing, 0, 9)] u t) ∧
       (¬(known ∧ crc) → ¬(frameLen (frameType f) = 0 ∧ 8 ≤ f.length ∧ crc) →
         ∃ u t, exec (.frameReceive p groups gap) s = .next t ∧ PortBecomes p counted s u ∧
           Raises [(clsRing, 0, if known then 0 else 9)]
             (forEach (List.range (ringCfg k s).ngn8) (fun j => noteDiscard (4 * k + j)) u) t)) ∧
     (∀ (groups : List (BitVec 10)) (gap : Nat), x.link = .up →
       (lineFrame x.rxRd groups = none → exec (.frameReceive p groups gap) s = .next s) ∧
       (∀ chars d, lineFrame x.rxRd groups = some (chars, d) →
         let inner := (chars.drop 1).dropLast
         (chars.any violates = true → ∃ t, exec (.frameReceive p groups gap) s = .next t ∧
           (portOf p t).crc = min 0xFFFF (x.crc + 1) ∧ (portOf p t).rx = x.rx ∧
           ((chars.filter violates).length = 1 → (portOf p t).cv = min 0xFFFF (x.cv + 1)) ∧
           (fltReg clsRing 0 t).getLsbD 1 = true ∧ (fltReg clsRing 0 t).getLsbD 0 = true) ∧
         (chars.any violates = false → (∃ b, .ctl b ∈ inner) → ∃ u t, exec (.frameReceive p groups gap) s = .next t ∧
           PortBecomes p { x with rxRd := some d, crc := min 0xFFFF (x.crc + 1) } s u ∧
           Raises [(clsRing, 0, 9)] (forEach (List.range (ringCfg k s).ngn8) (fun j => noteDiscard (4 * k + j)) u) t))) ∧
     (∀ n : Nat, x.link ≠ .down →
       let gaps := ((if x.gaps = [] then 256 else n) :: x.gaps).take 3
       let bad := gaps.length = 3 ∧ gaps.sum < 256
       ∃ u t, exec (.codeViolation p n) s = .next t ∧
         PortBecomes p (if bad then { x with cv := min 0xFFFF (x.cv + 1), gaps := [], link := .down, rxRd := none }
           else { x with cv := min 0xFFFF (x.cv + 1), gaps := gaps }) s u ∧
         Raises ((clsRing, 0, 1) :: if bad ∧ x.link = .up ∧ s.dev.mode ≠ .lockout then [(clsRing, 0, 2)] else []) u t) ∧
     (x.link = .down → ∃ t, exec (.commaAlignment p) s = .next t ∧
       PortBecomes p { x with link := .align, los := false, gaps := [], rxRd := none } s t) ∧
     (x.link = .align →
       let starts := s.dev.mode = .prove ∧ (ringOf k s).step = 1
       ∃ u t, exec (.linkUp p) s = .next t ∧ PortBecomes p { x with link := .up } s u ∧
         ((¬starts ∨ ∃ q ∈ ringPorts k s, (portOf q u).link ≠ .up) → t = u) ∧
         (starts → (∀ q ∈ ringPorts k s, (portOf q u).link = .up) →
           t = { u with rings := t.rings, ports := t.ports } ∧ (∀ j, j ≠ k → ringOf j t = ringOf j s) ∧
           ringOf k t = { ringOf k s with
             state := .discovering, step := 2, stepAt := now, fromL := [], fromH := [], closedL := none, closedH := none
             aligned := [], tag := ((ringOf k s).tag + 1) % 65536
             cmds := [{ target := 0xFF, op := 3, tag := (ringOf k s).tag, addr := 0, data := 0, port := k, sentAt := now
                        retried := false, answered := false, digest := false }] })) ∧
     (∀ why, x.link ≠ .down → ∃ u t, exec (.linkDown p why) s = .next t ∧
       PortBecomes p { x with link := .down, los := why == .noSignal, gaps := [], rxRd := none } s u ∧
       Raises (if x.link = .up ∧ s.dev.mode ≠ .lockout then [(clsRing, 0, 2)] else []) u t) ∧
     (x.link = .down → ∃ t, exec (.linkDown p .noSignal) s = .next t ∧ PortBecomes p { x with los := true } s t)) ∧
  (∀ (cls : Nat) (f : List Byte) (x : RPort),
     (0 < x.txLeft → queueFrame cls f x = { x with txq :=
       ((x.txq.filter fun y => decide (y.1 ≤ cls)) ++ [(cls, f)] ++ x.txq.filter fun y => decide (cls < y.1)).take 16 }) ∧
     (x.txLeft = 0 → x.txq = [] → queueFrame cls f x =
       { x with tx := (x.tx ++ [(frameGroups x.txRd f).1]).drop (x.tx.length + 1 - 16), txRd := (frameGroups x.txRd f).2
                txLeft := 4 * (f.length + 4) })) ∧
  (∀ (k : RingIx) (s : State),
     let r := ringOf k s
     let now := s.bell.time
     (s.bell.time.toNat % 1000 = 0 → s.dev.mode ≠ .boot →
       ∃ t, exec .markerSend s = .next t ∧ t = { s with ports := t.ports } ∧ ∀ p : PortIx,
         let x := portOf p s
         if portInUse p s = true ∧ x.link = .up ∧ x.txen = true then
           ∃ f, portOf p t = SentFrame 0 f x ∧ f.length = 16 ∧ frameType f = 2 ∧
             (f.drop 4).take 8 = leBytes 6 (now + BitVec.ofInt 48 (roundEven x.txLeft 25)).toNat ++ [0, 0] ∧
             (crc32c (f.take 12)).toNat = fieldLE f 12 4
         else portOf p t = x) ∧
     (r.step ≠ 0 → s.dev.mode ≠ .prove → exec (.commandRetry k) s = .next s) ∧
     (∀ c, (r.step = 0 ∨ s.dev.mode = .prove) →
       r.cmds.find? (fun c => !c.retried && !c.answered && decide (1000 ≤ (now - c.sentAt).toNat)) = some c →
       let port := if c.op = 3 ∨ (ringCfg k s).mode ≠ 1 then c.port else if c.port = k.val then k.val + 16 else k.val
       ∃ t, exec (.commandRetry k) s = .next t ∧ t = { s with ports := t.ports, rings := t.rings } ∧
         (∀ j, j ≠ k.val → ringOf j t = ringOf j s) ∧
         ringOf k t = { r with cmds := r.cmds.map fun y =>
           if y.tag = c.tag then { y with retried := true, sentAt := now, port := port } else y } ∧
         (∀ q, q ≠ port → portOf q t = portOf q s) ∧
         ((portOf port s).link = .up → (portOf port s).txen = true →
           ∃ f, portOf port t = SentFrame 2 f (portOf port s) ∧ f.length = 18 ∧ frameType f = 3 ∧
             fieldLE f 4 1 = c.target % 256 ∧ fieldLE f 5 1 = c.op % 256 ∧ fieldLE f 6 2 = c.tag % 65536)) ∧
     (let late := 100000 ≤ (now - r.stepAt).toNat
      let late2 := 200000 ≤ (now - r.stepAt).toNat
      let lost := r.cmds.any fun c => (c.retried || c.answered) && decide (1000 ≤ (now - c.sentAt).toNat)
      let code : Nat :=
        if s.dev.mode ≠ .prove then 0
        else if r.step = 1 ∧ late then 0x1
        else if r.step = 2 ∧ lost then (if (ringCfg k s).mode = 2 ∧ r.closedL = none then 0x8 else 0x2)
        else if r.step = 3 ∧ lost then 0x2
        else if r.step = 5 ∧ lost then 0x6
        else if r.step = 6 ∧ lost then 0x7
        else if r.step = 7 ∧ late2 then 0x9
        else if r.step = 8 ∧ late2 ∧ ((List.range (ringCfg k s).ngn8).any fun i => (gn8Of (4 * k + i) s).lastValid.isNone) then 0xA
        else 0
      (code ≠ 0 → ∃ u t, exec (.discoveryTimeout k) s = .next t ∧
        RingBecomes k { r with state := .failed, derr := code, step := 0, cmds := [] } s u ∧
        Raises [(clsRing, 0, 7)] (expectRing k u) t) ∧
      (code = 0 → exec (.discoveryTimeout k) s = .next s)))

/-- Frames taken from a FIFO in order: a SAMPLE without alignment marks its GN8 UNSYNC; the first copy of an instant on the
grid is written and the next one expected; a partner's MARKER keeps the offset, with the delay of the link on which it came
in: the first is trusted at once (DESIGN CHOICE, log 92), and one that changes by more than 2 ticks is trusted again after 16 that
agree. A STATUS shows whether markers disagree, and where it answers a command it ends it, out of discovery; in discovery the
reply to DISCOVER is listed, a set-up write is read back, a bad result fails the ring, and the last GN8 to be aligned starts the
merge. A COMMAND that is no DISCOVER changes nothing; a partner's DISCOVER is answered with its HOP, and one that has come round
the ring closes it. That one entry of a FIFO is one frame, that a frame waits in a queue of 16, and that a DISCOVER goes out again
at its own port, are the model's choices (logs 96, 90, 21) (R56, R62 to R70). -/
def Obligations.RingFrames : Prop :=
  ∀ (p : PortIx) (k : Nat) (f : List Byte) (rest : List (List Byte)) (s : State), portRing p s = some k →
    let x := portOf p s
    let r := ringOf k s
    let c := ringCfg k s
    let slot := (f.getD 1 0).toNat % 8
    let g := gn8Of (4 * k + slot) s
    let took := fun u : State => PortBecomes p { x with rx := rest } s u
    (FrameWaits p 1 f rest s → c.mode = 1 → slot < c.ngn8 →
      (fieldLE f 4 4 = 0xFFFFFFFF → ∃ u v t, exec (.sampleFrame p) s = .next t ∧ took u ∧
        (let m := mergeGn8 (4 * k + slot) u
         Gn8Becomes (4 * k + slot)
           { gn8Of (4 * k + slot) m with unsync := true, lastUnsync := some s.bell.time } m v) ∧
        Raises [(clsRing, 0, 5)] v t) ∧
      (let at_ := extendStamp (BitVec.ofNat 32 (fieldLE f 4 4)) s.bell.time
       ringMerges k s = true → fieldLE f 4 4 ≠ 0xFFFFFFFF → g.out = false → g.next = none → g.start = none →
       g.held = [] → g.recent = [] → g.change = none → g.gridAt = none →
       at_.toNat % gridOf g = 0 → (s.bell.time - at_).toNat < 660 →
       ∃ t, exec (.sampleFrame p) s = .next t ∧ (portOf p t).rx = rest ∧
         let y := gn8Of (4 * k + slot) t
         y.next = some (nextMultiple (gridOf g) at_) ∧ y.held = [] ∧ y.unsync = false ∧
         y.lastValid = some s.bell.time ∧ y.sysok = BitVec.ofNat 16 (fieldLE f 8 2) ∧
         y.recent.map (·.inst.at_) = [at_])) ∧
    (FrameWaits p 2 f rest s → c.mode = 2 → (((f.getD 1 0).toNat / 8 % 2 == 1) != c.pdev) = true →
      let o : Int := (BitVec.ofNat 48 (fieldLE f 4 6) + BitVec.ofInt 48 (roundEven (fieldLE f 10 2 + x.delay) 100) -
        s.bell.time).toInt
      ∃ u, took u ∧
        (r.offset = none → ∃ t, exec (.markerFrame p) s = .next t ∧
          RingBecomes k { r with offset := some o, agree := 1 } u t) ∧
        (∀ o', r.offset = some o' → (o - o').natAbs ≤ 2 → ∃ t, exec (.markerFrame p) s = .next t ∧
          RingBecomes k { r with offset := some o, agree := min 16 (r.agree + 1)
                                 trusted := r.trusted || decide (16 ≤ r.agree + 1) } u t) ∧
        (∀ o', r.offset = some o' → 2 < (o - o').natAbs → ∃ v t, exec (.markerFrame p) s = .next t ∧
          RingBecomes k { r with offset := some o, agree := 1, trusted := false } u v ∧ Raises [(clsRing, 0, 8)] v t)) ∧
    (FrameWaits p 4 f rest s → slot < c.ngn8 →
      let tag := fieldLE f 4 2
      let op := fieldLE f 6 1
      let result := fieldLE f 7 1
      let dis := fieldLE f 18 2 / 2 % 2 = 0
      let hit := r.cmds.find? fun y => y.tag == tag && y.op == op && (y.target == 0xFF || y.target == slot)
      ∃ u v w t, exec (.statusFrame p) s = .next t ∧ took u ∧
        Gn8Becomes (4 * k + slot) { g with markdis := decide dis } u v ∧
        Raises (if dis then [(clsRing, 0, 8)] else []) v w ∧
        (hit = none → t = w) ∧
        (∀ q, hit = some q →
          let answered := r.cmds.map fun y => if y.tag = q.tag then { y with answered := true } else y
          let others := r.cmds.filter fun y => y.tag != q.tag
          (q.digest = true ∨ (r.step = 0 ∧ op ≠ 3) → RingBecomes k { r with cmds := others } w t) ∧
          (q.digest = false → r.step ≠ 0 → s.dev.mode ≠ .prove → RingBecomes k { r with cmds := answered } w t) ∧
          (q.digest = false → s.dev.mode = .prove →
            (op = 3 → r.step = 2 → slot < 4 → r.closedL = none →
              let ident := BitVec.ofNat 32 (fieldLE f 14 4)
              ∃ y, Gn8Becomes (4 * k + slot)
                  { g with markdis := decide dis, id := if slot < (if c.mode = 2 then 2 else 4) then ident else g.id } w y ∧
                RingBecomes k { r with
                  cmds := answered, fromL := (r.fromL.filter fun z => z.2.1 != slot) ++ [(fieldLE f 10 4, slot, ident)] } y t) ∧
            (r.step = 6 → (op = 1 ∨ op = 2) → result ≠ 0 → ∃ y,
              RingBecomes k { r with state := .failed, derr := 0x7, step := 0, cmds := [] } w y ∧
              Raises [(clsRing, 0, 7)] (expectRing k y) t) ∧
            (r.step = 6 → op = 1 → result = 0 → ∃ y, RingBecomes k { r with cmds := others } w y ∧
              let port := if c.mode = 1 ∧ q.target < 4 ∧ c.ngn8 < 2 * q.target + 1 then k + 16 else k
              CommandSent k port { target := q.target, op := 2, tag := r.tag, addr := q.addr, data := 0, port := port
                                   sentAt := s.bell.time, retried := false, answered := false, digest := false } y t) ∧
            (r.step = 7 → op = 6 → fieldLE f 18 2 % 2 = 1 →
              let aligned := insertKey slot r.aligned
              (aligned.length ≠ c.ngn8 → RingBecomes k { r with cmds := answered, aligned := aligned } w t) ∧
              (aligned.length = c.ngn8 → ∃ y, RingBecomes k { r with step := 8, cmds := [], aligned := aligned } w y ∧
                t = expectRing k y))))) ∧
    (FrameWaits p 3 f rest s →
      (fieldLE f 5 1 ≠ 3 → ∃ t, exec (.commandFrame p) s = .next t ∧ took t) ∧
      (fieldLE f 5 1 = 3 → c.mode = 1 → s.dev.mode = .prove → r.step = 2 → p.val ≠ k →
        r.fromL.length < (f.getD 1 0).toNat / 16 →
        ∃ u t, exec (.commandFrame p) s = .next t ∧ took u ∧
          RingBecomes k { r with closedL := some ((f.getD 1 0).toNat / 16) } u t) ∧
      (fieldLE f 5 1 = 3 → c.mode = 2 → x.link = .up → x.txen = true →
        ∃ t y, exec (.commandFrame p) s = .next t ∧ PortBecomes p (SentFrame 2 y { x with rx := rest }) s t ∧
          y.length = 24 ∧ frameType y = 4 ∧ fieldLE y 4 2 = fieldLE f 6 2 ∧ fieldLE y 10 4 = (f.getD 1 0).toNat / 16))

/-- The merge of a GN8: an instant not come 660 ticks after its time is missing for each of its heads, in a bubble that keeps
the highest cause; a grid change takes effect at its multiple of 800 ticks; 16 instants one way only lose a
direction, 16 both ways regain it; 64 landings without a valid instant, or a digest that a READ finds changed, take the GN8 out (R69
to R77; the row shows what the READ finds, log 78). -/
def Obligations.MergeEvents : Prop :=
  ∀ (g : Gn8Ix) (s : State),
    let x := gn8Of g s
    let k := g.val / 4
    let r := ringOf k s
    let up := r.state = .closed ∨ r.state = .open
    let age := fun t : Bell => (s.bell.time - t).toNat
    let lone := x.held = [] ∧ x.recent = []
    (∀ t, commits s = true → x.next = some t → lone → x.change = none → pastDeadline t s.bell.time = true →
      pastDeadline (nextMultiple (gridOf x) t) s.bell.time = false →
      ∃ t', exec (.instantMissing g) s = .next t' ∧ (gn8Of g t').next = some (nextMultiple (gridOf x) t) ∧
        (∀ h ch, gn8Heads g s = [(h, ch)] → (headOf h s).bubble = none →
          (headOf h t').bubble = some { first := t, count := 1, cause := missCause g t s
                                        contIn := laterMod 48 s.bell.tickTime t || (headOf h s).cont }) ∧
        (∀ h ch b, gn8Heads g s = [(h, ch)] → (headOf h s).bubble = some b → b.count < 65534 →
          (headOf h t').bubble = some { b with count := b.count + 1, cause := max b.cause (missCause g t s) })) ∧
    (∀ t d, x.next = some t → x.change = some (d, t) → lone → pastDeadline t s.bell.time = true →
      pastDeadline (nextMultiple (if d then 800 else 100) t) s.bell.time = false →
      ∃ t', exec (.decimationGridChange g) s = .next t' ∧ (gn8Of g t').decim = d ∧ (gn8Of g t').change = none ∧
        (gn8Of g t').gridAt = some t ∧ (gn8Of g t').next = some (nextMultiple (if d then 800 else 100) t)) ∧
    (∀ t : Bell, pastDeadline t s.bell.time = true ↔ laterMod 48 t s.bell.time = false ∧ 660 ≤ age t) ∧
    (ringMerges k s = true →
      let opened := if r.state = .closed then { r with state := .open } else r
      (x.dirh = true → 16 ≤ x.onlyL → ∃ u v t, exec (.directionLoss g) s = .next t ∧
        Gn8Becomes g { x with dirh := false } s u ∧ RingBecomes k opened u v ∧ Raises [(clsRing, 0, 3)] v t) ∧
      (x.dirh = false → x.dirl = true → 16 ≤ x.onlyH → ∃ u v t, exec (.directionLoss g) s = .next t ∧
        Gn8Becomes g { x with dirl := false } s u ∧ RingBecomes k opened u v ∧ Raises [(clsRing, 0, 3)] v t) ∧
      (16 ≤ x.both → ¬(x.dirh = true ∧ x.dirl = true) → ∃ u t, exec (.directionRegain g) s = .next t ∧
        Gn8Becomes g { x with dirh := true, dirl := true } s u ∧
        RingBecomes k (if r.state = .open ∧ ∀ i < (ringCfg k s).ngn8, (gn8Of (4 * k + i) u).dirl = true ∧
          (gn8Of (4 * k + i) u).dirh = true then { r with state := .closed } else r) u t)) ∧
    (g.val % 4 < (ringCfg k s).ngn8 →
      (up → x.out = false → 64 ≤ (s.bell.landNo - x.lastValidLand).toNat →
        ∃ t, exec (.gn8OutTimeout g) s = .next t ∧ Gn8Becomes g { x with out := true, held := [] } s t) ∧
      (∀ w : Word,
        let port := if (ringCfg k s).mode = 1 ∧ (ringCfg k s).ngn8 < 2 * (g.val % 4) + 1 then k + 16 else k
        let read := CommandSent k port { target := g.val % 4, op := 2, tag := r.tag, addr := (Config.gn8Addr 2).toNat, data := 0
                                         port := port, sentAt := s.bell.time, retried := false, answered := false
                                         digest := true }
        let setting := 6 ≤ r.step ∧ r.step ≤ 8 ∧ s.dev.mode = .prove
        (setting → ∃ u t, exec (.digestCheck g w) s = .next t ∧
          Gn8Becomes g { x with digest := some (x.digest.getD w) } s u ∧ read u t) ∧
        (¬setting → s.dev.mode ≠ .boot → up → s.bell.landNo.toNat % 256 = 0 →
          ∃ u t, exec (.digestCheck g w) s = .next t ∧ read s u ∧
            ((x.digest = none ∨ x.digest = some w) → t = u) ∧
            (∀ d, x.digest = some d → w ≠ d → Gn8Becomes g { x with out := true, held := [] } u t))))

/-! ### Heads (R81 to R103, R410) -/

/-- The head program takes the entry in front of its slot, behind the engine's earlier posts; an uncorrectable error in the
entry faults the engine. 16 samples in a row without SYSOK, no bubble between them, and a bubble of cause GN8_OUT or RING_DOWN,
put the head into FAULT; a passage at rest for T_STAND goes to STANDING; SUSPECT, and FAULT for SYSOK, end after
T_QUIET; a learning window ends as R84 judges it; a frame spent wholly in IDLE moves the baselines (R14, R84 to R99, R163,
R410). -/
def Obligations.HeadEvaluation : Prop :=
  ∀ (h : HeadIx) (e slot : Nat) (en : Entry) (rest : List Entry) (s : State),
    nextEntry h s = some (e, slot, en, rest) → e < 512 → InStep e s →
    let x := hstepOf h en s
    let ev := (headOf h s).ev
    let t0 := entryTime en
    let a := sysSample x.cfg t0 (damping s.free (vec2 (entryIq en.w2)) ev.a.base)
      (dampPhase s.free (vec2 (entryIq en.w2)) ev.a.base) { ev.a with bad := 0 }
    let b := sysSample x.cfg t0 (damping (s.free + 1) (vec2 (entryIq en.w3)) ev.b.base)
      (dampPhase (s.free + 1) (vec2 (entryIq en.w3)) ev.b.base) { ev.b with bad := 0 }
    let ok := en.w1.getLsbD 25 = true ∧ en.w1.getLsbD 26 = true
    let calm := a.2 = false ∧ b.2 = false
    let quiet := tQuiet ≤ (t0 - ev.quietAt).toNat
    let bad := doubles (streamHit slot 0 3) (engOf e s).core
    let steps := fun (c : Instr) (y : HStep) => ∃ t, exec c s = .next t ∧ HeadStepped h e slot en rest y s t
    (bad = true → ∀ c ∈ [.sampleEvaluate h, .sysokFault h, .sysokFaultExit h, .standingEntry h, .suspectExit h, .bubbleRead h,
      .learningWindowJudge h, .baselineTrack h], ∃ t, exec c s = .next t ∧ FaultTaken e .head 0x05 s t) ∧
    (bad = false → entryKind en = 0 →
      steps (.sampleEvaluate h) (evalSample en x) ∧
      (ev.state ≠ .fault → ev.state ≠ .unassigned → en.w1.getLsbD 25 = false → ev.a.bad = 15 →
        steps (.sysokFault h) (evalSample en x) ∧ EndsIn .fault 0x20 (evalSample en x)) ∧
      (ev.state ≠ .fault → ev.state ≠ .unassigned → en.w1.getLsbD 26 = false → ev.b.bad = 15 →
        steps (.sysokFault h) (evalSample en x) ∧ EndsIn .fault 0x20 (evalSample en x)) ∧
      (ev.state = .fault → ev.cause = 0x20 → ok → quiet →
        steps (.sysokFaultExit h) (evalSample en x) ∧ EndsIn .baseline 0 (evalSample en x)) ∧
      (ev.state = .passage → ok → calm → tStand ≤ (t0 - ev.changedAt).toNat → ev.cause = 0 →
        (a.1.conf = true → burstOk x.cfg true a.1 = true) → (b.1.conf = true → burstOk x.cfg true b.1 = true) →
        steps (.standingEntry h) (evalSample en x) ∧ EndsIn .standing 0 (evalSample en x) ∧
          (evalSample en x).ev.stood = true) ∧
      (ev.state = .suspect → ok → calm → ev.a.conf = false → ev.b.conf = false → quiet →
        steps (.suspectExit h) (evalSample en x) ∧
          EndsIn (if ev.cause = 0x14 then .baseline else .idle) 0 (evalSample en x))) ∧
    (bad = false → entryKind en = 1 →
      let y := takeBubble en (announce x)
      steps (.bubbleRead h) y ∧ y.ev.a.bad = 0 ∧ y.ev.b.bad = 0 ∧
      (let cause := en.w2.toNat / 2 ^ 16 % 2 ^ 8
       ((cause = 4 ∨ cause = 5) → ev.state ≠ .unassigned → ¬(ev.state = .fault ∧ ev.cause = 0x21) → EndsIn .fault 0x21 y))) ∧
    (bad = false → entryKind en = 2 →
      let y := evalMark en x
      (learns ev.state = true → ev.learn.open_ = true →
        let l := ev.learn
        let v := judgeWindow { x with ev := { ev with learn := { l with frames := l.frames + 1 } } }
        steps (.learningWindowJudge h) y ∧
        (v = .goesOn → y.ev.state = ev.state ∧ y.ev.learn.frames = l.frames + 1) ∧
        (v = .occupied → y.ev.state = .occupiedAtStart) ∧
        (v = .drift → if 7 ≤ l.drift then y.ev.state = .fault ∧ y.ev.cause = 0x23
          else y.ev.state = ev.state ∧ y.ev.learn.drift = l.drift + 1 ∧ 8 ∈ y.flt) ∧
        (v = .noise → if 7 ≤ l.noise then y.ev.state = .fault ∧ y.ev.cause = 0x24
          else y.ev.state = ev.state ∧ y.ev.learn.noise = l.noise + 1 ∧ 9 ∈ y.flt) ∧
        (v = .gap → y.ev.state = ev.state ∧ y.ev.learn.drift = l.drift ∧ y.ev.learn.noise = l.noise) ∧
        (∀ ba bb, v = .good ba bb → y.ev.state = .idle ∧ y.ev.a.base = ba ∧ y.ev.b.base = bb)) ∧
      (learns ev.state = false → steps (.baselineTrack h) y) ∧
      (ev.state = .idle → ev.wholeIdle = true →
        let ba := trackBase ev.lowA ev.sumA ev.n ev.a.base
        let bb := trackBase ev.lowB ev.sumB ev.n ev.b.base
        let far := (ev.lowA = true ∧ ev.n ≠ 0 ∧ driftMax < damping s.free ba (vec2 x.cfg.zcA)) ∨
          (ev.lowB = true ∧ ev.n ≠ 0 ∧ driftMax < damping (s.free + 1) bb (vec2 x.cfg.zcB))
        y.ev.a.base = ba ∧ y.ev.b.base = bb ∧ if far then EndsIn .suspect 0x14 y else y.ev.state = .idle))

/-! ### Engines (R213 to R219, R222, R231, R346) -/

/-- A mismatch or a lag of the shadow removes an engine from service, unless it is late or a fault of its head context has
halted it; in a fulling window it is remembered. The shadow ahead of the primary is a mismatch at once; a shadow that gives a lane
nothing more is one when the primary has retired 16 instructions past the entry left unmatched. A window ends, at 1 048 576 retired
instructions, with the verdict of R218 on the signatures of what both cores gave the lanes and the forced differences, and fresh
memories; a rotation begins with a READY engine whose window has aged, else with a hand-over of the oldest that serves, none while
another runs or in the release of THROTTLE, and an engine past ROT_INT that is not in rotation shows as skipped; the loss of an ENG
domain switches its engines off (R211 to R219, R222, R231, R346). -/
def Obligations.EngineEvents : Prop :=
  ∀ (e : EngIx) (s : State),
    let g := engOf e s
    let now := s.bell.time
    let failed := g.core.cops.any fun o => o.stage == .computed && o.exc.getLsbD 6
    let removed := fun (cause : Nat) (bits : List Nat) (t : State) => ∃ u y,
      EngBecomes e y { s with frame := { s.frame with removed := s.frame.removed ++ [(e.val, cause)] } } u ∧
      Raises ((0 :: (if failed then [6] else []) ++ bits).map fun b => (clsEng, e.val, b)) u t ∧
      y = { g with state := .out, strike := min 3 (g.strike + 1), errCause := cause, core := y.core } ∧
      y.core.dead.isSome ∧ y.core.xEnded = true ∧ y.core.head.halted.isSome ∧ y.core.pulls = [] ∧ y.core.posts = [] ∧
      y.core.shadow = { head := y.core.head, ext := y.core.ext, fifo := [], stuck := none, differ := none } ∧
      ∀ o ∈ y.core.cops, o.killed = true
    let ended := fun (pass : Bool) (win : WinSt) (t : State) => ∃ y, EngBecomes e y s t ∧
      y = { g with winStart := none, winEnd := some now, verdict := some pass, win := win, core := y.core } ∧ y.core.dmem = [] ∧
      y.core.vmem = [] ∧ y.core.head.pc = 0 ∧ y.core.ext.pc = 0x3000
    (g.state = .service → s.frame.late.contains e.val = false → g.core.dead = none →
      (∃ t, exec (.shadowMismatch e .rf) s = .next t ∧ removed 0x01 [1] t) ∧
      (∃ t, exec (.shadowMismatch e .mem) s = .next t ∧ removed 0x01 [2] t) ∧
      (∃ t, exec (.shadowMismatch e .disp) s = .next t ∧ removed 0x01 [3] t) ∧
      (∃ t, exec (.shadowMismatch e .post) s = .next t ∧ removed 0x01 [4] t) ∧
      (∃ t, exec (.laneLag e (.ahead .rf)) s = .next t ∧ removed 0x02 [5, 1] t) ∧
      (∃ t, exec (.laneLag e (.ahead .mem)) s = .next t ∧ removed 0x02 [5, 2] t) ∧
      (∃ t, exec (.laneLag e (.ahead .disp)) s = .next t ∧ removed 0x02 [5, 3] t) ∧
      (∃ t, exec (.laneLag e (.ahead .post)) s = .next t ∧ removed 0x02 [5, 4] t)) ∧
    (g.state ≠ .service ∨ s.frame.late.contains e.val = true ∨ g.core.dead.isSome →
      let y := if g.state = .proving ∧ g.winStart.isSome then { g with win := { g.win with unforced := true } } else g
      ∀ l, (∃ t, exec (.shadowMismatch e l) s = .next t ∧ EngBecomes e y s t) ∧
        ∃ t, exec (.laneLag e (.ahead l)) s = .next t ∧ EngBecomes e y s t) ∧
    (∀ l, ∃ t, exec (.laneLag e (.behind l)) s = .next t ∧
      if engRuns g = true then
        EngBecomes e { g with core := { g.core with shadow := { g.core.shadow with stuck := some l } } } s t
      else t = s) ∧
    (∀ (f : Core → Core) (l : Lane) (pre post : List Cycle) (c : Cycle),
      g.core.shadow.stuck = some l → g.core.shadow.differ = none → g.state = .service →
      s.frame.late.contains e.val = false → (f g.core).dead = none →
      g.core.shadow.fifo ++ [cycleOf f g.core] = pre ++ c :: post → (∀ x ∈ pre, ∀ w ∈ x.words, wordLane w ≠ l) →
      (∃ w ∈ c.words, wordLane w = l) →
      let t := setCore e f s
      (16 ≤ (post.map (·.n)).sum → (engOf e t).state = .out ∧ (engOf e t).errCause = 0x02 ∧ (e.val, 0x02) ∈ t.frame.removed ∧
        ∀ b ∈ [0, 5, laneBit l], (fltReg clsEng e t).getLsbD b = true) ∧
      ((post.map (·.n)).sum < 16 → (engOf e t).state = .service ∧ (engOf e t).core.posts = (f g.core).posts)) ∧
    (∀ t0, g.state = .proving → g.winStart = some t0 →
      (∀ w : WindowIn, InStep e s →
        let x := (catchUp g).win
        let y : WinSt := { x with
          count := x.count + w.n, points := 128, forced := x.forced + (128 - x.points - w.missed)
          unforced := x.unforced || w.unforced
          sigP := shiftSigs w.bitsP x.sigP, sigS := shiftSigs w.bitsS x.sigS }
        (y.count ≠ 1048576 → ∃ t, exec (.fullingWindowEnd e w) s = .next t ∧ EngBecomes e (catchUp g) s t) ∧
        (y.count = 1048576 → ∃ t, exec (.fullingWindowEnd e w) s = .next t ∧
          ended (decide (y.sigP = y.sigS ∧ y.sigP = s.img.cfg.psig ∧ y.forced = 128 ∧ y.unforced = false ∧ y.ded = false ∧
            (now - t0).toNat ≤ 80000)) y t)) ∧
      (80000 < (now - t0).toNat → ∃ t, exec (.fullingWindowTimeout e) s = .next t ∧ ended false g.win t) ∧
      ((now - t0).toNat ≤ 80000 → exec (.fullingWindowTimeout e) s = .next s)) ∧
    (s.dev.mode ≠ .boot → s.dev.safe = false → s.sup.resJudged = true →
      let free := s.pmc.shed = false ∧ s.sup.rot = none
      let shows := fun (u t : State) => Raises (if skipped u then [(clsChk, 0, 7)] else []) u t
      (¬free → ∃ t, exec .rotationDue s = .next t ∧ shows s t) ∧
      (∀ d, free → rotReady s = some d → ∃ u t, exec .rotationDue s = .next t ∧ shows u t ∧ u.sup.rot = some d ∧
        (engOf d u).state = .proving ∧ (engOf d u).winStart = some now ∧ ∀ n, n ≠ d → engOf n u = engOf n s) ∧
      (∀ n d, free → rotReady s = none → rotService s = some n → pickEngine (some (n / 32)) s = some d →
        ∃ u t, exec .rotationDue s = .next t ∧ shows u t ∧
          u = { s with sup := { s.sup with rot := some n, moves := u.sup.moves, b := u.sup.b } } ∧
          ∃ m ∈ u.sup.moves, m.head = slotHead (engOf n s) (topSlot (engOf n s)) ∧ m.src = n ∧ m.dst = d ∧ m.kind = 2)) ∧
    (∀ k : Fin 16, tabWf .reset s.engs = true → (domOf (14 + k) s).state = .on →
      ∃ t, exec (.engDomainLoss k) s = .next t ∧ (domOf (14 + k) t).state = .lost ∧ (domOf (14 + k) t).vset = 0 ∧
        (fltReg clsDom (14 + k) t).getLsbD 8 = true ∧
        ∀ n, n / 32 = k.val → (engOf n t).state = if (engOf n s).state = .retired then .retired else .off)

/-! ### Power, supplies and temperature (R18, R326 to R348, R399 to R402) -/

/-- The domains come up as R328 orders them: D00 at VAON, D01 once D00 is in service with VTRK in range and RESET_N high, then
the groups of step 3, then BOOT; ENG domains one every 100 us. A start that takes 5 ms stops the sequence in the safe state.
The timed-out domain shows as PMC_DOM_FLT.LOST (DESIGN CHOICE, log 37); the other supplies come and go on their own (log 57); a
domain whose monitors are marked failed is lost as it comes into service (R338).
RESET_N low for 10 us returns everything but the first-fault store to reset, the levels at the balls apart; a shorter pulse,
whose rise is RESET_N_RELEASE, resets or changes nothing (a free value, log 77); VAON loss returns the first-fault store and the test
access port as well (R328, R338, R358, R360, R401, R402). -/
def Obligations.PowerSequence : Prop :=
  ∀ s : State,
    let now := s.bell.time
    let may1 := s.pmc.step = 2 ∧ s.pmc.stopped = false ∧ domOn 0 s = true ∧ (domOf 1 s).state = .off
    let asReset := fun t : State => t.bell = State.reset.bell ∧ t.dev = State.reset.dev ∧ t.img = State.reset.img ∧
      t.man = State.reset.man ∧ t.sup = State.reset.sup ∧ t.frame = State.reset.frame ∧ t.heads = [] ∧ t.engs = [] ∧
      t.ports = [] ∧ t.rings = [] ∧ t.pending = s.pending ∧ safeAsserted t = true ∧ faultAsserted t = true ∧
      ∀ g, (grpOf g t).tra = false ∧ (grpOf g t).trb = false ∧ (grpOf g t).srq = false ∧
        (grpOf g t).fba = (grpOf g s).fba ∧ (grpOf g t).fbb = (grpOf g s).fbb ∧ (grpOf g t).gda = (grpOf g s).gda ∧
        (grpOf g t).gdb = (grpOf g s).gdb ∧ (grpOf g t).lrst = (grpOf g s).lrst
    (s.pins.vaon = false → ∃ u t, exec .powerUp s = .next t ∧
      Raises (if Config.fuseReadOk = true then [] else [(clsFlt, 0, 2)]) { s with
        pins := { s.pins with vaon := true, jtag := .idcode }
        pmc := { s.pmc with step := 1, sub := 0, stopped := false } } u ∧
      DomBecomes 0 (rampFrom 0 now (domOf 0 s)) u t) ∧
    (∀ d : DomIx, (domOf d s).state = .ramp → monitorsOut d (domOf d s) = true →
      ∃ t, exec (.domainInService d) s = .next t ∧ (domOf d t).state = .lost ∧ (domOf d t).vset = 0 ∧
        (fltReg clsDom d t).getLsbD 8 = true) ∧
    (∀ (d : Nat) (x : Dom), monitorsOut d x = true ↔
      if 14 ≤ d then x.fail1 = true ∨ x.fail2 = true else x.fail1 = true ∧ x.fail2 = true) ∧
    (∀ d : DomIx, (domOf d s).state = .ramp → monitorsOut d (domOf d s) = false →
      let on := { domOf d s with state := .on, uv1 := false, ov1 := false, uv2 := false, ov2 := false }
      (d.val < 14 → s.pmc.stopped = true ∨ s.pmc.step = 4 ∨
        s.pmc.step = 3 ∧ (∃ q ∈ step3 s.pmc.sub, q ≠ d.val ∧ domOn q s = false) →
        ∃ t, exec (.domainInService d) s = .next t ∧ DomBecomes d on s t) ∧
      (d.val = 0 → s.pmc.step = 1 → s.pmc.stopped = false → s.pins.vtrk = true → s.pins.resetN = true →
        (domOf 1 s).state = .off →
        ∃ t, exec (.domainInService d) s = .next t ∧ t.pmc.step = 2 ∧ domOf 0 t = on ∧
          domOf 1 t = rampFrom 1 now (domOf 1 s)) ∧
      (d.val = 1 → s.pmc.step = 2 → s.pmc.stopped = false → ∃ t, exec (.domainInService d) s = .next t ∧
        t.pmc.step = 3 ∧ t.pmc.sub = 0 ∧ domOf 1 t = on ∧
        domOf 2 t = rampFrom 2 now (domOf 2 s) ∧ domOf 3 t = rampFrom 3 now (domOf 3 s)) ∧
      (s.pmc.step = 3 → s.pmc.stopped = false → d.val ∈ step3 s.pmc.sub →
        (∀ q ∈ step3 s.pmc.sub, q = d.val ∨ domOn q s = true) →
        ∃ t, exec (.domainInService d) s = .next t ∧ domOf d t = on ∧ t.pmc.sub = s.pmc.sub + 1 ∧
          (∀ q ∈ step3 (s.pmc.sub + 1), domOf q t = rampFrom q now (domOf q s)) ∧
          t.pmc.step = if s.pmc.sub = 6 then 4 else 3) ∧
      (14 ≤ d.val → ∃ t, exec (.domainInService d) s = .next t ∧ domOf d t = on ∧
        ∀ e, e / 32 = d.val - 14 →
          ((engOf e s).state = .gated ∨ (engOf e s).state = .off ∧ enginesProve s = true) →
          (engOf e t).state = .proving ∧ (engOf e t).winStart = some now)) ∧
    (∀ d : DomIx, 1 ≤ d.val → d.val < 14 → (s.pmc.step = 2 ∨ s.pmc.step = 3) → s.pmc.stopped = false →
      (domOf d s).state = .ramp → 50000 ≤ (now - (domOf d s).startAt).toNat → s.dev.safe = false →
      ∃ u t, exec (.domainStartTimeout d) s = .next t ∧
        Raises [(clsDom, d.val, 8)] { s with pmc := { s.pmc with stopped := true } } u ∧ EntersSafe 0x07 u t) ∧
    (∀ d rest, s.pmc.engQueue = d :: rest → domOn 1 s = true →
      (∀ t0, s.pmc.engAt = some t0 → 1000 ≤ (now - t0).toNat) →
      ∃ t, exec .engDomainStart s = .next t ∧
        DomBecomes d (rampFrom d now (domOf d s)) { s with pmc := { s.pmc with engQueue := rest, engAt := some now } } t) ∧
    (s.pins.resetN = false → ∃ t, exec .resetNRelease s = .next t ∧
      let u : State := { s with pins := { s.pins with resetN := true } }
      if may1 ∧ s.pins.vtrk = true then DomBecomes 1 (rampFrom 1 now (domOf 1 s)) u t else t = u) ∧
    (∃ t, exec .vtrkInRange s = .next t ∧
      let u : State := { s with pins := { s.pins with vtrk := true } }
      if may1 ∧ s.pins.resetN = true then DomBecomes 1 (rampFrom 1 now (domOf 1 s)) u t else t = u) ∧
    (s.pins.resetN = true → s.pins.vaon = true →
      let kept := (settle s).flt
      let low := fun t : State => asReset t ∧
        t.pins = { s.pins with resetN := false } ∧ t.flt.first = kept.first ∧ t.flt.later = kept.later ∧
        (∀ c i, i < 512 → fltReg c i t = if c = clsFlt then fltReg c i s else 0) ∧
        ∀ d, (domOf d t).state = if d = 0 then .on else .off
      let back := fun t : State => asReset t ∧ t.pins = s.pins ∧ t.flt.first = kept.first ∧ t.flt.later = kept.later ∧
        ∀ d, (domOf d t).state = if d = 0 then .on else if d = 1 ∧ s.pins.vtrk = true then .ramp else .off
      (∃ t, exec .resetNAssert s = .next t ∧ low t) ∧
      ∃ t, exec .resetNRelease s = .next t ∧ t.free = s.free + 1 ∧ (t = { s with free := s.free + 1 } ∨ back t)) ∧
    (s.pins.vaon = true → ∃ t, exec .vaonLoss s = .next t ∧ asReset t ∧
      t.pins = { s.pins with vaon := false, jtag := .idcode } ∧ t.flt.first = none ∧
      (∀ c i, fltReg c i t = 0) ∧ ∀ d, (domOf d t).state = .off)

/-- The other supplies: VTRK out of range is the safe state; without VIO33 every group that drove an output high is LOCKED;
without VLNK every ring link is down and no port drives; without VPCI or VPH18 both host links are down; each returns on its own
row, and TRUNK_FAULT marks VTRK out (DESIGN CHOICE, log 57) (R247, R330, R398, R400, R402).
The monitors and the temperature: the flags of a monitor follow its reports; an excursion loses a domain in service, with the
effect R18 gives its loss, of which the model says that the loss of D12 also ends the accepted tokens (log 56), and faults none
that still ramps (log 131); a failed monitor is marked, also of a domain already lost, and a domain with too few left is lost;
interlock events are counted and the third within a second disables the phase; the thermal state follows the indicators at the
16th tick, and the ninth transition within a second latches the higher state (R18, R334 to R340, R344 to R347).
While a rail slews at 10 mV a microsecond, and for 2 us after, its window covers the old and the new setpoint (R327). -/
def Obligations.SupplyAndHeat : Prop :=
  (∀ s : State,
     let high := fun g => (grpOf g s).tra = true ∨ (grpOf g s).trb = true ∨ (grpOf g s).srq = true
     let noTrk : State := { s with pins := { s.pins with vtrk := false } }
     (domOn 1 s = true → s.dev.safe = false →
       (∃ u t, exec (.trunkFault .under) s = .next t ∧ Raises [(clsPmc, 0, 0)] noTrk u ∧ EntersSafe 0x05 u t) ∧
       (∃ u t, exec (.trunkFault .over) s = .next t ∧ Raises [(clsPmc, 0, 1)] noTrk u ∧ EntersSafe 0x05 u t)) ∧
     (domOn 1 s = false → ∀ x, exec (.trunkFault x) s = .next noTrk) ∧
     (s.pins.vio33 = false → exec .vio33Loss s = .next { s with pins := { s.pins with vio33 := true } }) ∧
     (s.pins.vpci = false → exec (.vpciLoss false) s = .next { s with pins := { s.pins with vpci := true } }) ∧
     (s.pins.vph18 = false → exec (.vpciLoss true) s = .next { s with pins := { s.pins with vph18 := true } }) ∧
     (s.pins.vlnk = false → ∃ t, exec .vlnkLoss s = .next t ∧ t = { s with pins := { s.pins with vlnk := true }, ports := t.ports } ∧
       ∀ p : PortIx,
         let drives := commits s = true ∧ ∃ k, p.val ∈ ringPorts k s
         (drives → portOf p t = { portOf p s with txen := domOn (portDom p) s }) ∧ (¬drives → portOf p t = portOf p s)) ∧
     (domOn 12 s = false → s.pins.vio33 = true → exec .vio33Loss s = .next { s with pins := { s.pins with vio33 := false } }) ∧
     (domOn 12 s = true → s.pins.vio33 = true → ∃ t, exec .vio33Loss s = .next t ∧
       t.pins = { s.pins with vio33 := false } ∧
       (∀ g, (grpOf g s).state ≠ .unused → high g → IsLocked (grpOf g t) ∧ (fltReg clsSg g t).getLsbD 9 = true) ∧
       (∀ g, ¬high g → grpOf g t = grpOf g s) ∧
       t = { s with pins := t.pins, saf := { s.saf with groups := t.saf.groups }, flt := t.flt, ha := t.ha, hb := t.hb }) ∧
     (s.pins.vlnk = true → ∃ t, exec .vlnkLoss s = .next t ∧ t.pins = { s.pins with vlnk := false } ∧
       (∀ p, portOf p t = if (portOf p s).link = .down then { portOf p s with txen := false }
         else { portOf p s with txen := false, link := .down, los := true, gaps := [], rxRd := none }) ∧
       (∀ p, (portOf p s).link = .up → linkShows p s = true → (fltReg clsRing 0 t).getLsbD 2 = true)) ∧
     (∀ b, (if b then s.pins.vph18 else s.pins.vpci) = true → ∃ t, exec (.vpciLoss b) s = .next t ∧ t.ha.link = false ∧ t.hb.link = false ∧
       t.pins = (if b then { s.pins with vph18 := false } else { s.pins with vpci := false }) ∧ t.dev = s.dev ∧
       t.saf = s.saf ∧ t.man = s.man ∧ t.frame = s.frame)) ∧
  (∀ (d : DomIx) (m : Side) (s : State),
     let x := domOf d s
     let now := s.bell.time
     let failed := fun y : Dom => if m = .a then y.fail1 else y.fail2
     let mark : Dom := if m = .a then { x with fail1 := true } else { x with fail2 := true }
     let lost := fun (bit : Nat) (t : State) => (domOf d t).state = .lost ∧ (domOf d t).vset = 0 ∧
       (fltReg clsDom d t).getLsbD bit = true ∧ (fltReg clsDom d t).getLsbD 8 = true ∧
       (d.val ≤ 1 → t.dev.safe = true) ∧ (d.val = 2 → t.bell.outA = true ∨ t.dev.safe = true) ∧
       (d.val = 3 → t.bell.outB = true ∨ t.dev.safe = true) ∧ (d.val = 4 ∨ d.val = 5 → t.man.failNext = true) ∧
       (d.val = 6 ∨ d.val = 7 → t.sup.lockNext = true) ∧ (d.val = 8 → t.ha.link = false) ∧
       (d.val = 9 → t.hb.link = false) ∧ (d.val = 13 → (fltReg clsPmc 0 t).getLsbD 2 = true) ∧
       (d.val = 12 → ∀ g, (grpOf g s).state ≠ .unused → (grpOf g t).state = .sto ∧ (grpOf g t).tra = false ∧
         (grpOf g t).trb = false ∧ (grpOf g t).srq = false) ∧ (d.val = 12 → t.saf.accepted = false)
     let goesOn := d.val < 14 ∧ ¬(mark.fail1 = true ∧ mark.fail2 = true)
     let flagged := fun ex : Excursion => noteExcursion m ex x
     (failed x = false → s.pmc.tieNow ≠ some (d.val, m) →
       (x.state = .on →
         (∃ t, exec (.monitorExcursion d m (some .under)) s = .next t ∧ lost 2 t ∧
           (if m = .a then (domOf d t).uv1 else (domOf d t).uv2) = true) ∧
         (∃ t, exec (.monitorExcursion d m (some .over)) s = .next t ∧ lost 3 t ∧
           (if m = .a then (domOf d t).ov1 else (domOf d t).ov2) = true)) ∧
       (x.state = .ramp → ∀ ex, ∃ t, exec (.monitorExcursion d m (some ex)) s = .next t ∧ DomBecomes d (flagged ex) s t) ∧
       (x.state = .lost → ∀ ex, ∃ u t, exec (.monitorExcursion d m (some ex)) s = .next t ∧ DomBecomes d (flagged ex) s u ∧
         Raises [(clsDom, d.val, if ex = .under then 2 else 3)] u t) ∧
       ((x.state = .on ∨ x.state = .ramp ∨ x.state = .lost) → ∃ t, exec (.monitorExcursion d m none) s = .next t ∧
         DomBecomes d (if m = .a then { x with uv1 := false, ov1 := false } else { x with uv2 := false, ov2 := false }) s t)) ∧
     ((failed x = true ∨ s.pmc.tieNow = some (d.val, m) ∨ x.state = .off ∨ x.state = .gated) →
       ∀ ex, exec (.monitorExcursion d m ex) s = .next s) ∧
     (failed x = false → (∀ m', s.pmc.tieNow ≠ some (d.val, m')) →
       ((x.state = .on ∧ goesOn ∨ x.state = .lost) →
         ∃ u t, exec (.monitorDisagreement d m) s = .next t ∧ DomBecomes d mark s u ∧ Raises [(clsDom, d.val, 4)] u t) ∧
       (x.state = .on → ¬goesOn → ∃ t, exec (.monitorDisagreement d m) s = .next t ∧ lost 4 t)) ∧
     (∀ m', s.pmc.tieNow = some (d.val, m') → exec (.monitorDisagreement d m) s = .next s) ∧
     (s.dev.mode ≠ .boot → s.dev.mode ≠ .prove → domOn 1 s = true → domOn 13 s = true → s.pmc.tieNow = none →
       s.bell.landNo.toNat % 256 = 0 → s.bell.phase = 0 →
       exec .tieTest s = .next { s with pmc := { s.pmc with
         tieNow := some (s.pmc.tieNext / 2, if s.pmc.tieNext % 2 = 0 then .a else .b)
         tieNext := (s.pmc.tieNext + 1) % 60 } }) ∧
     (s.pmc.tieNow = some (d.val, m) →
       let free : State := { s with pmc := { s.pmc with tieNow := none } }
       exec (.tieTestEnd true) s = .next free ∧
       (((x.state = .on ∨ x.state = .ramp) ∧ goesOn ∨ x.state = .off ∨ x.state = .gated ∨ x.state = .lost) →
         ∃ u t, exec (.tieTestEnd false) s = .next t ∧ DomBecomes d mark free u ∧ Raises [(clsDom, d.val, 6)] u t) ∧
       (x.state = .on → ¬goesOn → ∃ t, exec (.tieTestEnd false) s = .next t ∧ lost 6 t)) ∧
     (∀ ph : Fin 4, phaseLive d ph s = true →
       let y := noteXon now ph x
       let n := (y.xonAt.filter fun e => e.1 == ph.val).length
       (n < 3 → ∃ u t, exec (.interlockEvent d ph) s = .next t ∧ DomBecomes d y s u ∧ Raises [(clsDom, d.val, 0)] u t) ∧
       (3 ≤ n → ∃ t, exec (.interlockEvent d ph) s = .next t ∧ (domOf d t).disabled.getLsbD ph = true ∧
         (fltReg clsDom d t).getLsbD 0 = true ∧ (fltReg clsDom d t).getLsbD 1 = true) ∧
       ∃ t, exec (.phaseIlim d ph) s = .next t ∧ Raises [(clsDom, d.val, 7)] s t) ∧
     ((s.bell.phase ≠ 0 ∨ s.pmc.callN ≠ 16) → exec .thermalStateChange s = .next s) ∧
     (domOn 1 s = true → s.bell.phase = 0 → s.pmc.call ≠ s.pmc.therm → s.pmc.callN = 16 →
       ¬(s.pmc.latch = true ∧ thermCode s.pmc.call < thermCode s.pmc.therm) →
       let trans := now :: s.pmc.trans.filter fun b => (now - b).toNat < 10000000
       ∃ t, exec .thermalStateChange s = .next t ∧ t.pmc = { s.pmc with
           trans := trans, transTotal := min 0xFFFF (s.pmc.transTotal + 1), therm := t.pmc.therm, latch := t.pmc.latch
           statSeen := thermStat t, cntSeen := thermCnt t } ∧
         (trans.length < 9 → t.pmc.therm = s.pmc.call ∧ t.pmc.latch = s.pmc.latch ∧
           (s.pmc.call = .warning → (fltReg clsTherm 0 t).getLsbD 0 = true) ∧
           (s.pmc.call = .throttle → (fltReg clsTherm 0 t).getLsbD 1 = true) ∧
           (s.pmc.call = .safe → (fltReg clsTherm 0 t).getLsbD 2 = true ∧ t.dev.safe = true)) ∧
         (9 ≤ trans.length → t.pmc.latch = true ∧ (fltReg clsTherm 0 t).getLsbD 3 = true ∧
           thermCode t.pmc.therm = max (thermCode s.pmc.therm) (thermCode s.pmc.call))) ∧
     (∀ p, hostUp p s = true → domOn 1 s = true → bellRuns s = true → (freshReg clsTherm 0 s).getLsbD 3 = false →
       ∃ t, exec (.thermHoverClear p) s = .next t ∧
       t = { s with flt := { s.flt with bits := t.flt.bits, faultN := t.flt.faultN }
                    pmc := { s.pmc with latch := false, hoverTick := s.pmc.hoverTick || s.pmc.latch } } ∧
       ∀ c i, i < 512 → fltReg c i t = if c = clsTherm ∧ i = 0 then fltReg c i s &&& ~~~8#32 else fltReg c i s)) ∧
  (∀ (d v n : Nat) (s : State),
     let x := domOf d s
     let dist := if x.vset ≤ v then v - x.vset else x.vset - v
     x.slew = none → v ≠ 0 → v ≠ x.vset → n < 2 ^ 48 →
     let t := setDom d (retarget s.bell.time v x) s
     (domOf d t).vset = v ∧
     domVref d { t with bell := { t.bell with time := s.bell.time + BitVec.ofNat 48 n } } =
       if n < dist + 20 then (min x.vset v, max x.vset v) else (v, v))

/-! ### The fault record and the test port (R356 to R360, R375, R407) -/

/-- Reports arrive at AON with the stamps they set out with: the first fills the capture, of those with its stamp the lowest class,
index and bit wins, and the rest are counted; one that fails its parity check, as a landing tick shows,
is taken all the same, and REPORT sets (log 81). A write of ones clears the sticky bits that have had no event in the same tick; with the bell standing, a condition that persists
sets its bit again. CLRFIRST clears the capture, and FLT_SAFE too outside the safe state, whose own cause it shows else. TEST_EN
and the test access port take what comes while VIO33 is in; EXTEST, INTEST and CLAMP act as BYPASS unless TEST_EN is high in BOOT,
and IDCODE and BYPASS put their registers between TDI and TDO (log 9; R356 to R360, R364, R374, R375, R390, R407). -/
def Obligations.FaultRecordAndTestPort : Prop :=
  ∀ (p : HostId) (s : State), s.flt.later ≤ 0xFFFF →
    let key := fun r : Report => (r.cls * 512 + r.ix) * 32 + r.bit
    let got := fun (u t : State) =>
      t = { u with flt := { u.flt with reports := [], first := t.flt.first, later := t.flt.later } } ∧
      (∀ q, u.flt.first = some q → t.flt.later = min 0xFFFF (u.flt.later + u.flt.reports.length) ∧
        ∃ r, t.flt.first = some r ∧ r.2 = q.2 ∧ r ∈ q :: u.flt.reports ∧
          ∀ x ∈ q :: u.flt.reports, x.2 = q.2 → key r.1 ≤ key x.1) ∧
      (u.flt.first = none → u.flt.reports = [] → t.flt.first = none ∧ t.flt.later = u.flt.later) ∧
      (∀ q l, u.flt.first = none → u.flt.reports = q :: l → t.flt.later = min 0xFFFF (u.flt.later + l.length) ∧
        ∃ r ∈ q :: l, t.flt.first = some r ∧ r.2 = q.2 ∧ ∀ x ∈ q :: l, x.2 = q.2 → key r.1 ≤ key x.1)
    (s.pins.vaon = true → ∃ t, exec .faultReport s = .next t ∧ got s t) ∧
    (s.pins.vaon = false → exec .faultReport s = .next s) ∧
    (∀ (r : Fin 18 × Fin 512 × Fin 32) (w : TickIn) (t : State), exec (.landingTick w) s = .next t → bellRuns s = true →
      w.badReport = some r → 0 < r.1.val → (fltReg clsFlt 0 t).getLsbD 3 = true) ∧
    (∀ (cls : Fin 18) (ix : Fin 512) (mask : Word), hostUp p s = true → clsReach p cls s = true →
      let m := mask &&& ~~~(freshReg cls ix s)
      ∃ u t, exec (.w1cClear p cls ix mask) s = .next t ∧
        (∀ c i, i < 512 → fltReg c i u = if c = cls.val ∧ i = ix.val then fltReg c i s &&& ~~~m else fltReg c i s) ∧
        u = { s with flt := { s.flt with bits := u.flt.bits, faultN := s.flt.faultN || fltSum s != 0 }
                     bell := { s.bell with lateEng :=
                       if cls.val = clsBell ∧ m.getLsbD 4 = true then none else s.bell.lateEng }
                     pmc := { s.pmc with
                       latch := s.pmc.latch && !(decide (cls.val = clsTherm) && m.getLsbD 3)
                       hoverTick := u.pmc.hoverTick } } ∧
        (u.pmc.hoverTick = true ↔ s.pmc.hoverTick = true ∨ s.pmc.latch = true ∧ cls.val = clsTherm ∧ m.getLsbD 3 = true) ∧
        (bellRuns s = true → t = u) ∧
        (bellRuns s = false → t = { u with flt := t.flt, ha := t.ha, hb := t.hb } ∧
          (∀ c i b, (fltReg c i u).getLsbD b = true → (fltReg c i t).getLsbD b = true) ∧
          let shows := fun c i b : Nat => (fltReg c i t).getLsbD b = true
          (s.dev.safe = true → shows clsFlt 0 0) ∧ (s.dev.mode = .lockout → shows clsDev 0 3) ∧
          (s.man.failed = true → ∀ n ∈ cfgSecs s, shows clsSec n 7) ∧
          (s.sup.resJudged = true → countState .ready s < 8 → shows clsChk 0 4) ∧
          (∀ q, 64 ≤ (hostOf q s).silent → shows (clsHost q) 0 5) ∧
          (∀ d, (domOf d s).state = .lost → shows clsDom d 8) ∧
          (∀ g, (grpOf g s).state = .locked → shows clsSg g 13) ∧
          (s.pmc.therm ≠ .normal → shows clsTherm 0 0) ∧
          (s.pmc.therm = .throttle ∨ s.pmc.therm = .safe → shows clsTherm 0 1) ∧
          (s.pmc.therm = .safe → shows clsTherm 0 2))) ∧
    (hostUp p s = true → exec (.clrfirst p) s = .next { s with flt := { s.flt with
      first := none, later := 0, safeActive := s.dev.safe, safeCause := if s.dev.safe then s.dev.safeCause else 0 } }) ∧
    (∀ level, (s.pins.vaon = true ∧ s.pins.vio33 = true → ∃ t, exec (.testEnChange level) s = .next t ∧
        Raises (if level = true ∧ s.pins.testEn = false ∧ s.dev.mode ≠ .boot then [(clsDev, 0, 4)] else [])
          { s with pins := { s.pins with testEn := level } } t) ∧
      (¬(s.pins.vaon = true ∧ s.pins.vio33 = true) → exec (.testEnChange level) s = .next s)) ∧
    (∀ c ∈ [(Instr.bypass, Jtag.bypass), (.idcode, .idcode), (.samplePreload, .samplePreload), (.extest, .extest),
        (.intest, .intest), (.clamp, .clamp)],
      let t : State := { s with pins := { s.pins with jtag := c.2 } }
      (s.pins.vaon = true ∧ s.pins.vio33 = true → exec c.1 s = .next t) ∧
      (¬(s.pins.vaon = true ∧ s.pins.vio33 = true) → exec c.1 s = .next s) ∧
      (jtagNow t = if (c.2 = .extest ∨ c.2 = .intest ∨ c.2 = .clamp) ∧ ¬(s.pins.testEn = true ∧ s.dev.mode = .boot) then .bypass
        else c.2)) ∧
    (jtagNow s = .bypass → tapRegister s = some [false]) ∧
    (jtagNow s = .idcode → ∃ l, tapRegister s = some l ∧ l.length = 32 ∧
      ∀ i < 32, l.getD i false = (0xB0512C7D#32).getLsbD i)

/-! ### The image, START, PROVE and HARBOUR (R228, R251, R263, R309 to R316, R321, R322) -/

/-- A load is checked, distributed and LOADED, or FAILED with its code; START is requested in BOOT and judged at the landing
tick: where no condition fails the device is in PROVE with its bell locked over the writes that waited, every configured group in
STO with GTEST clear and every ring down, otherwise it stays, shows the conditions and takes those writes; the seal is read either
way, zeros where VIO33 is out (log 57), and with an image loaded SEAL_OK shows it. PROVE ends its self-tests, each failed block
behaving as on loss of its domain with its LOST bit set (log 58), a failed tie test setting TIE and marking its monitor too, and
its 10 s; HARBOUR disperses the heads of a GN8 one at a time. IMG_TIME counts in steps of 10 us, to the nearest (R8, R228, R265,
R266, R309 to R316, R325, R340, R380). -/
def Obligations.ImageAndStart : Prop :=
  ∀ (p : HostId) (s : State),
    let now := s.bell.time
    let tens := fun t0 : Bell =>
      let n := (now - t0).toNat
      min 0xFFFF (if n % 100 < 50 ∨ (n % 100 = 50 ∧ n / 100 % 2 = 0) then n / 100 else n / 100 + 1)
    (hostUp p s = true → domOn 0 s = true →
      let taken := s.img.state = .checking ∨ s.img.state = .distributing ∨ s.img.state = .loaded ∨
        s.img.owner = some (otherHost p)
      (s.dev.mode ≠ .boot → ∃ t, exec (.imgLoad p) s = .next t ∧
        Raises [(clsImg, 0, 1)] { s with img := { s.img with err := 0x31 } } t) ∧
      (s.dev.mode = .boot → taken → ∃ t, exec (.imgLoad p) s = .next t ∧
        Raises [(clsImg, 0, 1)] { s with img := { s.img with err := 0x30 } } t) ∧
      (s.dev.mode = .boot → ¬taken → exec (.imgLoad p) s = .next { s with img := { s.img with
        state := .checking, port := p, owner := some p, at_ := now } }) ∧
      (s.dev.mode = .boot → s.dev.safe = false →
        exec (.start p) s = .next { s with dev := { s.dev with startReq := true } }) ∧
      (s.dev.mode ≠ .boot → exec (.start p) s = .next s)) ∧
    (let failed := fun (code : Nat) (u t : State) => ∃ v, Raises [(clsImg, 0, 0)] { u with
        img := { u.img with state := .failed, err := code, owner := none, cfg := .none }
        sup := { u.sup with progA := [], progB := [] } } v ∧ VectorRaised 7 v t
     (s.img.state = .checking →
       let b := memLoad (hostOf s.img.port s).window 0 (min 0x800000 s.img.len)
       let u : State := { s with img := { s.img with tCheck := tens s.img.at_ } }
       (imageError s.img.len b = 0 → exec .imageCheckComplete s = .next { u with
         img := { u.img with state := .distributing, at_ := now, cfg := parseImage b }
         sup := { u.sup with progA := partNamed b 2 0, progB := partNamed b 2 0 } }) ∧
       (imageError s.img.len b ≠ 0 →
         ∃ t, exec .imageCheckComplete s = .next t ∧ failed (imageError s.img.len b) u t)) ∧
     (s.img.state = .distributing →
       let u : State := { s with img := { s.img with tDist := tens s.img.at_ } }
       (∃ t, exec (.imageDistributionComplete true) s = .next t ∧ failed 0x40 u t) ∧
       (∃ t, exec (.imageDistributionComplete false) s = .next t ∧
         VectorRaised 7 { u with img := { u.img with state := .loaded } } t))) ∧
    (∀ bits : BitVec 40, s.dev.startTick = true → s.dev.safe = false →
      let b : BitVec 40 := if s.pins.vio33 = true then bits else 0
      let fits := domOn 12 s = true ∧ b >>> 32 = 0xA5 ∧ b.setWidth 32 = s.img.cfg.scHash.getD 7 0
      let cond := (if s.img.state = .loaded then 0 else 2) + (if (bellStatNow s).getLsbD 3 = true then 0 else 4) +
        (if s.img.state = .loaded ∧ ¬fits then 8 else 0) + (if s.pins.testEn = true then 2048 else 0)
      let read := fun t : State => domOn 12 s = true → t.saf.sealAt = some s.bell.tickTime ∧ t.saf.reading = false ∧
        t.saf.reads = (s.saf.reads + 1) % 65536 ∧ t.saf.sealPat = (b >>> 32).setWidth 8
      let told := fun (v : Nat) (t : State) =>
        ∀ q, domOn (hostDom q) s = true → (hostOf q t).irqSt.getLsbD v = true
      (cond = 0 → ∃ t, exec (.startTransition bits) s = .next t ∧ read t ∧ told 5 t ∧
        (¬(s.dev.hasLead = true ∧ s.dev.lead = s.img.port) → told 4 t) ∧
        t.dev = { s.dev with mode := .prove, modeLand := s.bell.landNo, startTick := false, lead := s.img.port
                             hasLead := true, first := true, proveAt := now } ∧
        t.bell = { s.bell with stat := bellStatNow s, locked := true, loadPps := false, waits := []
                               period := s.img.cfg.period, frameLen := s.img.cfg.period } ∧
        t.frame.closing = true ∧ t.frame.drained = some 0 ∧ t.saf.watching = true ∧ t.saf.sealOk = true ∧
        t.saf.miss = 0 ∧ t.sup.pgen = 1 ∧ t.sup.progA = s.sup.progA ∧ t.sup.progB = s.sup.progB ∧ t.man.failed = false ∧
        t.pmc.engQueue = (List.range 16).map (· + 14) ∧
        (∀ g ∈ cfgGroups s, (grpOf g t).state = .sto ∧ (grpOf g t).tra = false ∧ (grpOf g t).trb = false ∧
          (grpOf g t).srq = false ∧ (grpOf g t).gtest = false) ∧
        (∀ k ∈ cfgRings s, (ringOf k t).state = .down ∧ (ringOf k t).step = 1)) ∧
      (cond ≠ 0 → ∃ t, exec (.startTransition bits) s = .next t ∧ read t ∧
        t.dev = { s.dev with startTick := false, refReq := 2, refCond := cond } ∧ t.img = s.img ∧
        t.bell.waits = [] ∧ t.bell.locked = s.bell.locked ∧ (s.bell.waits = [] → t.bell = s.bell) ∧
        (∀ v, s.bell.waits = [(0x20, v)] → t.bell = { s.bell with waits := [], presetLo := v }) ∧
        (fltReg clsDev 0 t).getLsbD 0 = true ∧
        (s.img.state = .loaded → domOn 12 s = true → (t.saf.sealOk = true ↔ fits)))) ∧
    (s.dev.mode ≠ .boot →
      (s.dev.pdone = false → 100000000 ≤ (now - s.dev.proveAt).toNat → ∃ t, exec .proveTimeout s = .next t ∧
        Raises [(clsDev, 0, 2)] { s with dev := { s.dev with pdone := true, tmo := true } } t) ∧
      (s.dev.st = false → s.dev.stEnd = false →
        exec (.selftestComplete []) s = .next { s with dev := { s.dev with stEnd := true, stBad := false } } ∧
        ∀ l : List (DomIx × Option Side), l ≠ [] →
          ∃ t, exec (.selftestComplete l) s = .next t ∧ t.dev.stEnd = true ∧ t.dev.stBad = true ∧
            ∀ x ∈ l, ((domOf x.1 s).state = .on → (domOf x.1 t).state = .lost ∧ (fltReg clsDom x.1 t).getLsbD 8 = true) ∧
              (x.2 = some .a → (fltReg clsDom x.1 t).getLsbD 6 = true ∧ (domOf x.1 t).fail1 = true) ∧
              (x.2 = some .b → (fltReg clsDom x.1 t).getLsbD 6 = true ∧ (domOf x.1 t).fail2 = true)) ∧
      (∀ (g : Gn8Ix) (e d slot : Nat), s.dev.safe = false → s.dev.htrans = 2 → g.val ∈ cfgGn8s s →
        crowdedEng g s = some e → ordering e s = false →
        1 < ((engOf e s).slots.filter fun q => (moveOf (q.2 - 1) s).isNone).length →
        nextSlot (engOf e s) s = some slot → pickEngine (some (e / 32)) s = some d →
        ∃ t, exec (.harbourDispersalStart g) s = .next t ∧
          t = { s with sup := { s.sup with moves := t.sup.moves, b := { s.sup.b with moves := t.sup.b.moves } } } ∧
          let h := slotHead (engOf e s) slot
          let mine := fun m : Move =>
            m = { head := h, src := e, dst := d, slot := 0, kind := 3, record := false, stage := .chosen }
          (∀ m, m ∈ t.sup.moves ↔ mine m ∨ m ∈ s.sup.moves ∧ m.head ≠ h) ∧
          ∀ m, m ∈ t.sup.b.moves ↔ mine m ∨ m ∈ s.sup.b.moves ∧ m.head ≠ h))

/-! ### Host ports (R118, R274 to R283, R288, R301, R302, R376 to R391) -/

/-- What a host port does: writes into its window and mailbox store the bytes whose enables are set, poisoned data and a window
outside BOOT set HOST_FLT, a window that another port's load has closed takes nothing (log 74), and a request past its region or
that BAR0 does not serve completes as unsupported; HOST_PUB, HOST_HBEAT and the MSI-X table take what is written, a base, size or
index register does while its stream is off (log 39), and each DW of a register write, in ascending order, takes effect with all
byte enables set and is refused with CFG otherwise; a bit with an event in the same tick is not cleared. A lost link leaves the
HOST registers and configuration space at reset but for the sticky bits, and the other port hears of it; one that comes back shows
it, with the configuration space as enumerated (log 124) and PERST released (log 125); a silent host is shown at both ports. A write
request passes the port's receive FIFO (log 115; R19, R118, R274, R276, R278, R280, R283, R301, R302, R376 to R383, R390). -/
def Obligations.HostPorts : Prop :=
  ∀ (p : HostId) (s : State),
    let h := hostOf p s
    let q := otherHost p
    let becomes := fun (y : PortSt) => HostBecomes p y s
    let thru := fun (n : Nat) (data : List (Option Byte)) (y : PortSt) => { y with rxFifo := (h.rxFifo ++ [(n, data)]).tail }
    let flt := fun (b : Nat) (y : PortSt) => Raises [(clsHost p, 0, b)] (setHost p y s)
    let stored := fun (old new : Mem) (off : Nat) (data : List (Option Byte)) => ∀ a,
      memGet new a = if off ≤ a ∧ a < off + data.length then (data.getD (a - off) none).getD (memGet old a) else memGet old a
    let told := fun (u t : State) =>
      t = { setHost q (hostOf q t) u with flt := t.flt } ∧
      t.flt = { u.flt with
        fresh := t.flt.fresh
        reports := u.flt.reports ++ (if domOn (hostDom q) u = true ∧ (hostOf q u).irqSt.getLsbD 6 = false then
          [stamped (clsHost q, 0, 6) u] else []) } ∧
      Vectored 6 1 q u t
    (hostUp p s = true →
      (∀ (off : BitVec 23) (data : List (Option Byte)),
        let n := off.toNat
        (n + data.length ≤ 0x800000 →
          (s.dev.mode = .boot → windowOpenAt p s = true → ∃ t y, exec (.imageWindowWrite p off data false) s = .next t ∧
            becomes (thru n data { h with window := y }) t ∧ stored h.window y n data) ∧
          (s.dev.mode = .boot → windowOpenAt p s = false → ∃ t, exec (.imageWindowWrite p off data false) s = .next t ∧
            becomes (thru n data h) t) ∧
          (s.dev.mode ≠ .boot → ∃ t, exec (.imageWindowWrite p off data false) s = .next t ∧ flt 6 (thru n data h) t) ∧
          ∃ t, exec (.imageWindowWrite p off data true) s = .next t ∧ flt 7 (thru n data { h with aerPoison := true }) t) ∧
        (0x800000 < n + data.length → ∀ bad, ∃ t, exec (.imageWindowWrite p off data bad) s = .next t ∧
          becomes (thru n data { h with aerUr := true }) t)) ∧
      (∀ (off : BitVec 12) (data : List (Option Byte)),
        let n := 0x800000 + off.toNat
        (off.toNat + data.length ≤ 0x1000 →
          (∃ t y, exec (.mailboxWrite p off data false) s = .next t ∧
            becomes (thru n data { h with mailbox := y }) t ∧ stored h.mailbox y off.toNat data) ∧
          ∃ t, exec (.mailboxWrite p off data true) s = .next t ∧ flt 7 (thru n data { h with aerPoison := true }) t) ∧
        (0x1000 < off.toNat + data.length → ∀ bad, ∃ t, exec (.mailboxWrite p off data bad) s = .next t ∧
          becomes (thru n data { h with aerUr := true }) t)) ∧
      (∃ t, exec (.hostHbeat p) s = .next t ∧ becomes { h with beat := true } t) ∧
      (∀ v : Word, let n := v.toNat % 512
        (1 ≤ n → n ≤ 256 → ∃ t, exec (.hostPubWrite p v) s = .next t ∧ becomes { h with pub := n, pubLeft := 1 } t) ∧
        (n = 0 ∨ 256 < n → ∃ t, exec (.hostPubWrite p v) s = .next t ∧ flt 0 h t) ∧
        (h.ctl.getLsbD 1 = false → ∃ t, exec (.hostWrridxWrite p v) s = .next t ∧ becomes { h with wrRidx := v } t) ∧
        (h.ctl.getLsbD 1 = true → ∃ t, exec (.hostWrridxWrite p v) s = .next t ∧ flt 0 h t)) ∧
      (∀ (i : Fin 32) (v : Word), let n := i.val / 4
        let w := if i.val % 4 = 3 then v &&& 1 else v
        ∃ t y, exec (.msixTableWrite p i v) s = .next t ∧ becomes y t ∧
          (∀ j, tabGet 0 y.msix j = if j = i.val then w else tabGet 0 h.msix j) ∧
          if i.val % 4 = 3 ∧ v.getLsbD 0 = false ∧ h.msixPend.getLsbD n = true ∧ h.pci.msixEn = true ∧ h.pci.msixMask = false then
            y = { h with msix := y.msix, msixPend := h.msixPend &&& ~~~(1#8 <<< n), sent := h.sent ++ [n] }
          else y = { h with msix := y.msix }) ∧
      (∀ (off : BitVec 18) (dw : Word × BitVec 4) (more : List (Word × BitVec 4)),
        let dws := dw :: more
        let req := thru off.toNat (dws.flatMap fun d => (wordBytes d.1).map some)
        let served := off.toNat % 4 = 0 ∧ dws.length ≤ 16 ∧ off.toNat + 4 * dws.length ≤ 0x40000
        (¬served → ∀ bad, ∃ t, exec (.registerWrite p off dw more bad) s = .next t ∧ becomes (req { h with aerUr := true }) t) ∧
        (served → ∃ t, exec (.registerWrite p off dw more true) s = .next t ∧ becomes (req { h with aerPoison := true }) t) ∧
        (∀ v w, dw = (v, 0xF) → more = [(w, 0xF)] → off.toNat = 0x11010 → h.ctl.getLsbD 0 = false →
          ∃ t, exec (.registerWrite p off dw more false) s = .next t ∧
            becomes (req { h with imgBase := w ++ (v &&& 0xFFFFF000) }) t) ∧
        (∀ v be, dw = (v, be) → more = [] → off.toNat % 4 = 0 →
          (be ≠ 0xF → ∃ t, exec (.registerWrite p off dw more false) s = .next t ∧ flt 0 (req h) t) ∧
          (be = 0xF → holdOn off.toNat s = false → ∃ t, exec (.registerWrite p off dw more false) s = .next t ∧
            becomes (req h) t) ∧
          (be = 0xF → holdOn off.toNat s = true →
            let does := fun (a : Nat) (y : PortSt) => off.toNat = a →
              ∃ t, exec (.registerWrite p off dw more false) s = .next t ∧ becomes (req y) t
            let cfg := fun (a : Nat) => off.toNat = a →
              ∃ t, exec (.registerWrite p off dw more false) s = .next t ∧ flt 0 (req h) t
            does 0x11004 { h with ctl := v.setWidth 4 } ∧ does 0x1100C { h with beat := true } ∧
            (h.ctl.getLsbD 1 = false → does 0x11024 { h with wrRidx := v } ∧ does 0x11020 { h with wrSize := v.toNat % 32 }) ∧
            (h.ctl.getLsbD 1 = true → cfg 0x11024 ∧ cfg 0x11020) ∧
            does 0x11050 { h with irqEn := v.setWidth 8 } ∧
            (off.toNat = 0x11054 → exec (.registerWrite p off dw more false) s = .next (setHost p
              (req { h with irqSt := h.irqSt &&& ~~~(v.setWidth 8 &&& ~~~((freshReg (clsHost p) 1 s).setWidth 8)) })
              { s with flt := { s.flt with faultN := s.flt.faultN || fltSum s != 0 } })) ∧
            (h.ctl.getLsbD 0 = false → does 0x11010 { h with imgBase := baseLo h.imgBase v }) ∧
            (h.ctl.getLsbD 0 = true → cfg 0x11010) ∧
            does 0x0E030 { h with selHead := v.toNat % 512, selEng := v.toNat / 2 ^ 16 % 512 } ∧
            does 0x00000 h ∧ (s.bell.locked = true → does 0x01020 h) ∧
            (s.bell.locked = false → off.toNat = 0x01020 → exec (.registerWrite p off dw more false) s =
              .next (setHost p (req h) { s with bell := if s.dev.startTick then
                { s.bell with waits := s.bell.waits ++ [(0x20, v)] } else { s.bell with presetLo := v } })))))) ∧
    (∀ c ∈ [(Instr.hostLinkDown p, fun y => y), (.perstAssert p, fun y => { y with perst := true }),
        (.d3hotEntry p, fun y : PortSt => { y with d3hot := true })],
      h.link = true → ∃ u y, LinkGone h y ∧ told (setHost p y s) u ∧ exec c.1 s = .next (setHost p (c.2 y) u)) ∧
    (h.link = false → exec (.hostLinkDown p) s = .next s ∧ exec (.d3hotEntry p) s = .next s ∧
      ∃ y, LinkGone h y ∧ exec (.perstAssert p) s = .next (setHost p { y with perst := true } s)) ∧
    (∀ up : LinkUp,
      let ready := h.link = false ∧ domOn (hostDom p) s = true ∧ s.pins.vpci = true ∧ s.pins.vph18 = true
      (ready → ∃ u t, exec (.hostLinkUp p up) s = .next t ∧
        Raises (if h.wasLost then [(clsHost p, 0, 1)] else []) (setHost p { h with
          link := true, gen2 := up.gen2, wasLost := false, d3hot := false, perst := false, pci := up.cfg } s) u ∧ told u t) ∧
      (¬ready → exec (.hostLinkUp p up) s = .next s)) ∧
    (64 ≤ h.silent → (fltReg (clsHost p) 0 s).getLsbD 5 = false →
      ∃ u t, exec (.hostSilentTimeout p) s = .next t ∧ flt 5 h u ∧ told u t)

/-! ### Publication (R115 to R118, R282 to R288, R291, R297, R298, R390) -/

/-- What the block writes into host memory. A commit gives the image of each port due its first part: the device block, the stop
groups, the sections, with forces, and the heads. A checkpoint that passes completes it: results, the lead's key records, then the
header with its CRC; SEQ moves on, the results are released, and every port with DLEN writes the deck-load frame. One that fails
writes nothing. The enables and addresses are those of the commit. The lead writes the records of a commit into its ring, as far as
they fit, behind those it has written; the deck vector is rounded as one, and is the last valid one where no line is held. -/
def Obligations.Publication : Prop :=
  let i16n := fun x : Int => (BitVec.ofInt 16 x).toNat
  let bufAt := fun h : PortSt => h.pubImg.toNat + 0x4000 * ((h.imgSeq.toNat + 1) % 4)
  (∀ (w : CommitIn) (d : Nat) (s : State), CommitDue d s → ∃ t, exec (.commit w) s = .next t ∧ (t.dev.mode ≠ .boot →
    ∀ p, let h := hostOf p t
      let b := bufAt h
      h.pubCtl = h.ctl ∧ h.pubImg = h.imgBase ∧ h.pubDl = h.dlBase ∧ h.pubKey = h.keyBase ∧
      (h.body = true ↔ h.publish = true ∧ h.ctl.getLsbD 0 = true ∧ hostUp p t = true) ∧
      (h.body = true → h.txFifo = [] → h.pubImg.toNat + 0x10000 ≤ 2 ^ 64 →
        let at_ := fun a n : Nat => memLE h.host (b + a) n
        at_ 0x40 2 = modeCode t.dev.mode ∧ at_ 0x42 2 = countState .ready t % 65536 ∧ at_ 0x44 4 = t.bell.stat.toNat ∧
        at_ 0x48 4 = (chkStat t).toNat ∧ at_ 0x4C 4 = (fltSumOf p t).toNat ∧ at_ 0x50 4 = (paramStat t).toNat ∧
        at_ 0x54 4 = h.wrDrop % 2 ^ 32 ∧ at_ 0x58 1 = t.sup.forces.length % 256 ∧
        (∀ g < 16, at_ (0x80 + 16 * g) 4 = (grpOf g t).tickStat.toNat ∧
          at_ (0x84 + 16 * g) 4 = (BitVec.ofInt 32 (grpOf g t).speed).toNat ∧
          at_ (0x88 + 16 * g) 2 = (fltReg clsSg g t).toNat % 65536 ∧ at_ (0x8A + 16 * g) 2 = (grpOf g t).ss1Land.toNat % 65536) ∧
        (∀ n < 512, let r := shownSec n t
          let a := 0x1000 + 8 * n
          if r.state = .unconfigured then at_ a 8 = 0
          else at_ (a + 4) 2 = r.gen % 65536 ∧ at_ (a + 6) 2 = r.chg.toNat % 65536 ∧
            (t.sup.forces.find? (fun f => f.1 == n) = none →
              at_ a 1 = secCode r.state % 256 ∧ at_ (a + 1) 1 = secFlags n t % 256 ∧ at_ (a + 2) 2 = i16n r.count) ∧
            ∀ f, t.sup.forces.find? (fun f => f.1 == n) = some f → at_ a 1 = f.2.1.toNat ∧
              at_ (a + 1) 1 = (secFlags n t + 128) % 256 ∧ at_ (a + 2) 2 = f.2.2.toNat) ∧
        (∀ n < 512, let a := 0x2000 + 8 * n
          if headConfigured n t = false then at_ a 8 = 0
          else at_ a 2 = (headStat n t).toNat % 65536 ∧ at_ (a + 2) 2 = (headOf n t).engine % 65536 ∧
            at_ (a + 4) 4 = (headPass n t).toNat)))) ∧
  (∀ (w : CheckIn) (s : State), s.dev.mode ≠ .boot → s.dev.safe = false → s.sup.cpDue = true →
    ∃ t, exec (.checkpoint w) s = .next t ∧ ∀ p, (hostOf p s).txFifo = [] →
      let h := hostOf p s
      let k := hostOf p t
      let image := h.publish = true ∧ h.body = true
      let deck := h.pubCtl.getLsbD 2 = true ∧ hostUp p s = true
      (t.sup.cpOkC = false → k.host = h.host ∧ k.imgSeq = h.imgSeq) ∧
      (t.sup.cpOkC = true →
        (¬(image ∧ hostUp p s = true) → k.imgSeq = h.imgSeq ∧ (¬deck → k.host = h.host)) ∧
        (h.publish = true → (h.body = true → hostUp p s = true) → ∀ r ∈ t.sup.results, r.port ≠ p) ∧
        (image → hostUp p s = true → h.pubImg.toNat + 0x10000 ≤ 2 ^ 64 → ¬deck →
          (∀ x ∈ s.sup.keys, h.pubKey.toNat + 16 * x.1 + 16 ≤ 2 ^ 64 ∧
            (h.pubKey.toNat + 16 * x.1 + 16 ≤ bufAt h ∨ bufAt h + 0x3000 ≤ h.pubKey.toNat + 16 * x.1)) →
          let b := bufAt h
          let at_ := fun a n : Nat => memLE k.host (b + a) n
          let flag := fun i : Nat => at_ 0x0A 2 / 2 ^ i % 2 = 1
          k.imgSeq = h.imgSeq + 1 ∧ k.pubSeq = h.imgSeq + 1 ∧ k.irqSt.getLsbD 0 = true ∧
          at_ 0 4 = s.bell.landNo.toNat ∧ at_ 4 6 = s.bell.tickTime.toNat ∧ at_ 0x0C 4 = (h.imgSeq + 1).toNat ∧
          at_ 0x10 4 = s.dev.wrWidx.toNat ∧ at_ 0x14 4 = h.resSeq.toNat ∧ at_ 0x18 1 = h.mbStat % 256 ∧
          at_ 0x19 1 = (s.sup.results.filter fun r => r.port == p).length % 256 ∧ at_ 0x1A 2 = h.pub % 65536 ∧
          at_ 0x1C 32 = 0 ∧ at_ 0x0A 2 < 64 ∧ (flag 0 ↔ isLead p s = true) ∧ (flag 1 ↔ s.sup.forces ≠ []) ∧
          (flag 2 ↔ s.bell.stat.getLsbD 0 = true) ∧
          (flag 3 ↔ ¬(s.bell.stat.getLsbD 1 = true ∧ s.bell.stat.getLsbD 2 = true)) ∧ (flag 4 ↔ s.man.failed = true) ∧
          (flag 5 ↔ h.recDrop = true) ∧
          at_ 0x3C 4 = (crc32c (memLoad k.host b 0x3C ++ memLoad k.host (b + 0x40) 0x2FC0)).toNat ∧
          (∀ i < 127, match s.sup.results.find? (fun r => r.port == p && r.ix == i) with
            | some r => at_ (0x200 + 8 * i) 1 = i ∧ at_ (0x201 + 8 * i) 1 = r.code % 256 ∧
              at_ (0x202 + 8 * i) 2 = r.value % 65536 ∧ at_ (0x204 + 8 * i) 4 = r.tag.toNat
            | none => at_ (0x200 + 8 * i) 8 = 0) ∧
          (∀ a, ¬(b ≤ a ∧ a < b + 0x40) → ¬(b + 0x200 ≤ a ∧ a < b + 0x1000) →
            (isLead p s = true → h.pubCtl.getLsbD 3 = true → ∀ x ∈ s.sup.keys,
              ¬(h.pubKey.toNat + 16 * x.1 ≤ a ∧ a < h.pubKey.toNat + 16 * x.1 + 16)) →
            memGet k.host a = memGet h.host a) ∧
          (isLead p s = true → h.pubCtl.getLsbD 3 = true → (s.sup.keys.map (·.1)).Nodup → ∀ x ∈ s.sup.keys,
            let a := h.pubKey.toNat + 16 * x.1
            memLE k.host a 4 = x.2.1.toNat ∧ memLE k.host (a + 4) 2 = x.2.2.1 % 65536 ∧
            memLE k.host (a + 6) 2 = x.2.2.2 % 65536 ∧ memLE k.host (a + 8) 4 = s.bell.landNo.toNat ∧
            memLE k.host (a + 12) 4 = (crc32c (memLoad k.host a 12)).toNat)) ∧
        (deck → h.pubDl.toNat + 160 ≤ 2 ^ 64 →
          let at_ := fun a n : Nat => memLE k.host (h.pubDl.toNat + a) n
          let flag := fun i : Nat => at_ 4 1 / 2 ^ i % 2 = 1
          k.irqSt.getLsbD 2 = true ∧ at_ 0 4 = s.bell.landNo.toNat ∧ at_ 4 1 < 8 ∧ (flag 0 ↔ s.sup.holdMask ≠ 0) ∧
          (flag 1 ↔ s.sup.lvOk = true) ∧ (flag 2 ↔ s.bell.stat.getLsbD 0 = true) ∧
          at_ 5 1 = s.img.cfg.lines.length % 256 ∧ at_ 6 2 = 0 ∧ at_ 8 4 = s.sup.holdMask.toNat ∧
          at_ 12 4 = s.sup.lvLand.toNat ∧ at_ 16 1 = (BitVec.ofInt 8 s.sup.curExp).toNat ∧
          at_ 17 1 = (BitVec.ofInt 8 s.sup.lvExp).toNat ∧ at_ 18 2 = 0 ∧ at_ 148 8 = 0 ∧
          (∀ i < 32, at_ (20 + 2 * i) 2 = (s.sup.cur.getD i 0).toNat ∧ at_ (84 + 2 * i) 2 = (s.sup.lv.getD i 0).toNat) ∧
          at_ 156 4 = (crc32c (memLoad k.host h.pubDl.toNat 156)).toNat))) ∧
  (∀ (l : List WheelRec) (s : State), s.dev.hasLead = true →
    let p := s.dev.lead
    let h := hostOf p s
    let k := hostOf p (leadRecords l s)
    let size := 2 ^ h.wrSize
    let n := min l.length (size - (s.dev.wrWidx - h.wrRidx).toNat)
    let slot := fun i : Nat => h.wrBase.toNat + 16 * ((s.dev.wrWidx.toNat + i) % size)
    (h.ctl.getLsbD 1 = false ∨ hostUp p s = false → leadRecords l s = s) ∧
    (h.ctl.getLsbD 1 = true → hostUp p s = true → h.txFifo = [] → 6 ≤ h.wrSize → h.wrSize ≤ 16 → h.wrBase.toNat + 16 * size ≤ 2 ^ 64 →
      h.wrDrop ≤ 0xFFFFFFFF →
      (leadRecords l s).dev = { s.dev with wrWidx := s.dev.wrWidx + BitVec.ofNat 32 n } ∧
      k.wrDrop = min 0xFFFFFFFF (h.wrDrop + (l.length - n)) ∧ (k.recDrop = true ↔ h.recDrop = true ∨ n < l.length) ∧
      (n < l.length → (fltReg (clsHost p) 0 (leadRecords l s)).getLsbD 4 = true) ∧
      (0 < n → k.irqSt.getLsbD 1 = true) ∧
      (∀ i < n, ∀ r, l[i]? = some r → memLoad k.host (slot i) 16 = recBytes r) ∧
      ∀ a, (∀ i < n, ¬(slot i ≤ a ∧ a < slot i + 16)) → memGet k.host a = memGet h.host a)) ∧
  (∀ s : State,
    let t := formDeck s
    let lines := s.img.cfg.lines
    let r : Nat → ℝ := fun i => if i < lines.length then
      (((lines.getD i []).map fun n => (shownSec n s).count).sum : ℝ) * ((paramValue (0x100 + i) s).toInt : ℝ) *
        ((paramValue (0x140 + i) s).toInt : ℝ) / 1000000 else 0
    let fits := fun e : Int => ∀ i < 32, ∃ m : Int, RoundsTo (r i * 2 ^ (15 - e)) m ∧ -32768 ≤ m ∧ m ≤ 32767
    (∀ i < 32, t.sup.holdMask.getLsbD i = true ↔
      ∃ n ∈ lines.getD i [], (shownSec n s).state ≠ .clear ∧ (shownSec n s).state ≠ .occupied) ∧
    (t.sup.holdMask = 0 → t.sup.lv = t.sup.cur ∧ t.sup.lvExp = t.sup.curExp ∧ t.sup.lvLand = s.bell.landNo ∧
      t.sup.lvOk = true) ∧
    (t.sup.holdMask ≠ 0 → t.sup.lv = s.sup.lv ∧ t.sup.lvExp = s.sup.lvExp ∧ t.sup.lvLand = s.sup.lvLand ∧
      t.sup.lvOk = s.sup.lvOk) ∧
    ((∀ i < 32, r i = 0) → t.sup.curExp = -128 ∧ ∀ i < 32, t.sup.cur.getD i 0 = 0) ∧
    (¬(∀ i < 32, r i = 0) → (∀ i < 32, |r i| ≤ 2 ^ 32) → fits t.sup.curExp ∧ (∀ e < t.sup.curExp, ¬fits e) ∧
      ∀ i < 32, RoundsTo (r i * 2 ^ (15 - t.sup.curExp)) (t.sup.cur.getD i 0).toInt))

/-- No access of a host to BAR0 or BAR2 changes a section, a head or its engine, a stop group or its outputs, the mode or a
parameter (R389). -/
def Obligations.HostAccessesKeepSafety : Prop :=
  ∀ (p : HostId) (s t : State) (v : Word) (o2 : BitVec 23) (o1 : BitVec 12) (o0 : BitVec 18) (dw : Word × BitVec 4)
    (more : List (Word × BitVec 4)) (data : List (Option Byte)) (bad : Bool) (i : Fin 32) (cls : Fin 18) (ix : Fin 512),
    ∀ c ∈ [Instr.registerWrite p o0 dw more bad, .imageWindowWrite p o2 data bad, .mailboxWrite p o1 data bad, .hostHbeat p,
        .hostPubWrite p v, .hostWrridxWrite p v, .msixTableWrite p i v, .bellLoad p, .bellLoadPps p, .bellPeriodWrite p v,
        .bellTimeLoRead p, .bellPpsLoRead p, .imgLoad p, .start p, .w1cClear p cls ix v, .clrfirst p, .thermHoverClear p],
      exec c s = .next t →
        t.man = s.man ∧ t.heads = s.heads ∧ t.engs = s.engs ∧ t.saf = s.saf ∧ t.dev.mode = s.dev.mode ∧ t.sup = s.sup

/-! ### Sections and the safe state as wholes (R127, R363) -/

/-- Each PASS applied at a commit changes the count of a section, in either manifest, by the polarity of its end on that head
where DIR is 1, and by its negative where DIR is 0, unless a restoration is commanded of the section at that commit or the comparison
replaces its record; counts saturate. A head that bounds two sections with opposite polarities moves a wheel from one to the other
(R127). -/
def Obligations.CountsFollowPasses : Prop :=
  ∀ (w : CommitIn) (d n : Nat) (s : State), CommitDue d s → (cfgSecs s).Nodup → (∀ m ∈ cfgSecs s, m < 512) → n ∈ cfgSecs s →
    let r := (commitSteps (settleTaken s.sup.taken.length s)).1
    let pol := fun up : Bool => if up then (1 : Int) else -1
    let change := fun n : Nat => ((passesOf (eventsOf s)).map fun x =>
      ((secCfg n s).ends.map fun e => if e.1 = x.head then pol e.2 * pol x.dir else 0).sum).sum
    let sat := fun c : Int => max (-32768) (min 32767 c)
    (r.dev.mode ≠ .boot → n ∉ replacedSecs w (differing w r) r →
      (∀ x ∈ s.sup.taken, (x.op = 0x01 ∨ x.op = 0x02 ∨ x.op = 0x03) → x.f.obj.toNat ≠ n) →
      ∃ t, exec (.commit w) s = .next t ∧ (comSec n t).count = sat ((secOf n s).count + change n) ∧
        (decodeB (comSecB n t)).count = sat ((decodeB (secBOf n s)).count + change n)) ∧
    (∀ m h, (secCfg n s).ends = [(h, true)] → (secCfg m s).ends = [(h, false)] → change n + change m = 0)

/-- The safe state is left only through RESET_N or a power cycle, into BOOT with no image, so that the image has to be loaded
again: no other step clears it, whatever the mode it was entered in (R363). -/
def Obligations.SafeStateLatches : Prop :=
  ∀ s t : State, s.dev.safe = true → step s = .next t →
    t.dev.safe = true ∨
    ((∃ c rest, c ∈ [Instr.resetNAssert, .resetNRelease, .vaonLoss] ∧ s.pending = c :: rest) ∧ t.dev.mode = .boot ∧ t.img.state = .empty)

/-! ### Invariants of every step -/

/-- The tables of the instances, the section records, the fault registers and what has set them in the present tick, the MSI-X
tables and the memories of the hosts keep their canonical form through every step. -/
def Obligations.TablesStayCanonical : Prop :=
  ∀ s t : State, Canonical s → step s = .next t → Canonical t

/-- In every state a run can reach, each group's outputs are those of its state: TRA and TRB high in ENERGISE, RUN and SS1
alone, SRQ high in RUN alone (R251). Every step keeps it. -/
def Obligations.OutputsFollowGroupState : Prop :=
  ∀ s t : State, OutputsFollow s → step s = .next t → OutputsFollow t

/-- In every state a run can reach, the two cores of every engine agree: the shadow has met no difference, and stands where the
primary does but for the cycles under way (R211). Every step keeps it, mismatches and stuck lanes that the tests inject among
them. -/
def Obligations.CoresStayInStep : Prop :=
  ∀ s t : State, tabWf .reset s.engs = true → (∀ e, CoresAgree e s) → step s = .next t → ∀ e, CoresAgree e t
end

