-- ==== Sys2Proof/Laws/State.lean ====
section
/-! SUPPORT. One lemma per field per update of a record, and what a conditional and a repetition keep. -/

namespace Sys2Proof.Machine

@[simp] theorem setPort_bell (p : Nat) (v : RPort) (s : State) : (setPort p v s).bell = s.bell := (rfl)
@[simp] theorem setPort_frame (p : Nat) (v : RPort) (s : State) : (setPort p v s).frame = s.frame := (rfl)
@[simp] theorem setPort_ports (p : Nat) (v : RPort) (s : State) : (setPort p v s).ports = tabSet .reset s.ports p v := (rfl)
@[simp] theorem setPort_rings (p : Nat) (v : RPort) (s : State) : (setPort p v s).rings = s.rings := (rfl)
@[simp] theorem setPort_gn8s (p : Nat) (v : RPort) (s : State) : (setPort p v s).gn8s = s.gn8s := (rfl)
@[simp] theorem setPort_heads (p : Nat) (v : RPort) (s : State) : (setPort p v s).heads = s.heads := (rfl)
@[simp] theorem setPort_man (p : Nat) (v : RPort) (s : State) : (setPort p v s).man = s.man := (rfl)
@[simp] theorem setPort_engs (p : Nat) (v : RPort) (s : State) : (setPort p v s).engs = s.engs := (rfl)
@[simp] theorem setPort_sup (p : Nat) (v : RPort) (s : State) : (setPort p v s).sup = s.sup := (rfl)
@[simp] theorem setPort_saf (p : Nat) (v : RPort) (s : State) : (setPort p v s).saf = s.saf := (rfl)
@[simp] theorem setPort_ha (p : Nat) (v : RPort) (s : State) : (setPort p v s).ha = s.ha := (rfl)
@[simp] theorem setPort_hb (p : Nat) (v : RPort) (s : State) : (setPort p v s).hb = s.hb := (rfl)
@[simp] theorem setPort_pmc (p : Nat) (v : RPort) (s : State) : (setPort p v s).pmc = s.pmc := (rfl)
@[simp] theorem setPort_dev (p : Nat) (v : RPort) (s : State) : (setPort p v s).dev = s.dev := (rfl)
@[simp] theorem setPort_img (p : Nat) (v : RPort) (s : State) : (setPort p v s).img = s.img := (rfl)
@[simp] theorem setPort_flt (p : Nat) (v : RPort) (s : State) : (setPort p v s).flt = s.flt := (rfl)
@[simp] theorem setPort_pins (p : Nat) (v : RPort) (s : State) : (setPort p v s).pins = s.pins := (rfl)
@[simp] theorem setPort_shown (p : Nat) (v : RPort) (s : State) : (setPort p v s).shown = s.shown := (rfl)
@[simp] theorem setPort_free (p : Nat) (v : RPort) (s : State) : (setPort p v s).free = s.free := (rfl)
@[simp] theorem setPort_pending (p : Nat) (v : RPort) (s : State) : (setPort p v s).pending = s.pending := (rfl)

@[simp] theorem setRing_bell (k : Nat) (v : Ring) (s : State) : (setRing k v s).bell = s.bell := (rfl)
@[simp] theorem setRing_frame (k : Nat) (v : Ring) (s : State) : (setRing k v s).frame = s.frame := (rfl)
@[simp] theorem setRing_ports (k : Nat) (v : Ring) (s : State) : (setRing k v s).ports = s.ports := (rfl)
@[simp] theorem setRing_rings (k : Nat) (v : Ring) (s : State) : (setRing k v s).rings = tabSet .reset s.rings k v := (rfl)
@[simp] theorem setRing_gn8s (k : Nat) (v : Ring) (s : State) : (setRing k v s).gn8s = s.gn8s := (rfl)
@[simp] theorem setRing_heads (k : Nat) (v : Ring) (s : State) : (setRing k v s).heads = s.heads := (rfl)
@[simp] theorem setRing_man (k : Nat) (v : Ring) (s : State) : (setRing k v s).man = s.man := (rfl)
@[simp] theorem setRing_engs (k : Nat) (v : Ring) (s : State) : (setRing k v s).engs = s.engs := (rfl)
@[simp] theorem setRing_sup (k : Nat) (v : Ring) (s : State) : (setRing k v s).sup = s.sup := (rfl)
@[simp] theorem setRing_saf (k : Nat) (v : Ring) (s : State) : (setRing k v s).saf = s.saf := (rfl)
@[simp] theorem setRing_ha (k : Nat) (v : Ring) (s : State) : (setRing k v s).ha = s.ha := (rfl)
@[simp] theorem setRing_hb (k : Nat) (v : Ring) (s : State) : (setRing k v s).hb = s.hb := (rfl)
@[simp] theorem setRing_pmc (k : Nat) (v : Ring) (s : State) : (setRing k v s).pmc = s.pmc := (rfl)
@[simp] theorem setRing_dev (k : Nat) (v : Ring) (s : State) : (setRing k v s).dev = s.dev := (rfl)
@[simp] theorem setRing_img (k : Nat) (v : Ring) (s : State) : (setRing k v s).img = s.img := (rfl)
@[simp] theorem setRing_flt (k : Nat) (v : Ring) (s : State) : (setRing k v s).flt = s.flt := (rfl)
@[simp] theorem setRing_pins (k : Nat) (v : Ring) (s : State) : (setRing k v s).pins = s.pins := (rfl)
@[simp] theorem setRing_shown (k : Nat) (v : Ring) (s : State) : (setRing k v s).shown = s.shown := (rfl)
@[simp] theorem setRing_free (k : Nat) (v : Ring) (s : State) : (setRing k v s).free = s.free := (rfl)
@[simp] theorem setRing_pending (k : Nat) (v : Ring) (s : State) : (setRing k v s).pending = s.pending := (rfl)

@[simp] theorem setGn8_bell (i : Nat) (v : Gn8) (s : State) : (setGn8 i v s).bell = s.bell := (rfl)
@[simp] theorem setGn8_frame (i : Nat) (v : Gn8) (s : State) : (setGn8 i v s).frame = s.frame := (rfl)
@[simp] theorem setGn8_ports (i : Nat) (v : Gn8) (s : State) : (setGn8 i v s).ports = s.ports := (rfl)
@[simp] theorem setGn8_rings (i : Nat) (v : Gn8) (s : State) : (setGn8 i v s).rings = s.rings := (rfl)
@[simp] theorem setGn8_gn8s (i : Nat) (v : Gn8) (s : State) : (setGn8 i v s).gn8s = tabSet .reset s.gn8s i v := (rfl)
@[simp] theorem setGn8_heads (i : Nat) (v : Gn8) (s : State) : (setGn8 i v s).heads = s.heads := (rfl)
@[simp] theorem setGn8_man (i : Nat) (v : Gn8) (s : State) : (setGn8 i v s).man = s.man := (rfl)
@[simp] theorem setGn8_engs (i : Nat) (v : Gn8) (s : State) : (setGn8 i v s).engs = s.engs := (rfl)
@[simp] theorem setGn8_sup (i : Nat) (v : Gn8) (s : State) : (setGn8 i v s).sup = s.sup := (rfl)
@[simp] theorem setGn8_saf (i : Nat) (v : Gn8) (s : State) : (setGn8 i v s).saf = s.saf := (rfl)
@[simp] theorem setGn8_ha (i : Nat) (v : Gn8) (s : State) : (setGn8 i v s).ha = s.ha := (rfl)
@[simp] theorem setGn8_hb (i : Nat) (v : Gn8) (s : State) : (setGn8 i v s).hb = s.hb := (rfl)
@[simp] theorem setGn8_pmc (i : Nat) (v : Gn8) (s : State) : (setGn8 i v s).pmc = s.pmc := (rfl)
@[simp] theorem setGn8_dev (i : Nat) (v : Gn8) (s : State) : (setGn8 i v s).dev = s.dev := (rfl)
@[simp] theorem setGn8_img (i : Nat) (v : Gn8) (s : State) : (setGn8 i v s).img = s.img := (rfl)
@[simp] theorem setGn8_flt (i : Nat) (v : Gn8) (s : State) : (setGn8 i v s).flt = s.flt := (rfl)
@[simp] theorem setGn8_pins (i : Nat) (v : Gn8) (s : State) : (setGn8 i v s).pins = s.pins := (rfl)
@[simp] theorem setGn8_shown (i : Nat) (v : Gn8) (s : State) : (setGn8 i v s).shown = s.shown := (rfl)
@[simp] theorem setGn8_free (i : Nat) (v : Gn8) (s : State) : (setGn8 i v s).free = s.free := (rfl)
@[simp] theorem setGn8_pending (i : Nat) (v : Gn8) (s : State) : (setGn8 i v s).pending = s.pending := (rfl)

@[simp] theorem setHead_bell (h : Nat) (v : Head) (s : State) : (setHead h v s).bell = s.bell := (rfl)
@[simp] theorem setHead_frame (h : Nat) (v : Head) (s : State) : (setHead h v s).frame = s.frame := (rfl)
@[simp] theorem setHead_ports (h : Nat) (v : Head) (s : State) : (setHead h v s).ports = s.ports := (rfl)
@[simp] theorem setHead_rings (h : Nat) (v : Head) (s : State) : (setHead h v s).rings = s.rings := (rfl)
@[simp] theorem setHead_gn8s (h : Nat) (v : Head) (s : State) : (setHead h v s).gn8s = s.gn8s := (rfl)
@[simp] theorem setHead_heads (h : Nat) (v : Head) (s : State) : (setHead h v s).heads = tabSet .reset s.heads h v := (rfl)
@[simp] theorem setHead_man (h : Nat) (v : Head) (s : State) : (setHead h v s).man = s.man := (rfl)
@[simp] theorem setHead_engs (h : Nat) (v : Head) (s : State) : (setHead h v s).engs = s.engs := (rfl)
@[simp] theorem setHead_sup (h : Nat) (v : Head) (s : State) : (setHead h v s).sup = s.sup := (rfl)
@[simp] theorem setHead_saf (h : Nat) (v : Head) (s : State) : (setHead h v s).saf = s.saf := (rfl)
@[simp] theorem setHead_ha (h : Nat) (v : Head) (s : State) : (setHead h v s).ha = s.ha := (rfl)
@[simp] theorem setHead_hb (h : Nat) (v : Head) (s : State) : (setHead h v s).hb = s.hb := (rfl)
@[simp] theorem setHead_pmc (h : Nat) (v : Head) (s : State) : (setHead h v s).pmc = s.pmc := (rfl)
@[simp] theorem setHead_dev (h : Nat) (v : Head) (s : State) : (setHead h v s).dev = s.dev := (rfl)
@[simp] theorem setHead_img (h : Nat) (v : Head) (s : State) : (setHead h v s).img = s.img := (rfl)
@[simp] theorem setHead_flt (h : Nat) (v : Head) (s : State) : (setHead h v s).flt = s.flt := (rfl)
@[simp] theorem setHead_pins (h : Nat) (v : Head) (s : State) : (setHead h v s).pins = s.pins := (rfl)
@[simp] theorem setHead_shown (h : Nat) (v : Head) (s : State) : (setHead h v s).shown = s.shown := (rfl)
@[simp] theorem setHead_free (h : Nat) (v : Head) (s : State) : (setHead h v s).free = s.free := (rfl)
@[simp] theorem setHead_pending (h : Nat) (v : Head) (s : State) : (setHead h v s).pending = s.pending := (rfl)

@[simp] theorem setEng_bell (e : Nat) (v : Eng) (s : State) : (setEng e v s).bell = s.bell := (rfl)
@[simp] theorem setEng_frame (e : Nat) (v : Eng) (s : State) : (setEng e v s).frame = s.frame := (rfl)
@[simp] theorem setEng_ports (e : Nat) (v : Eng) (s : State) : (setEng e v s).ports = s.ports := (rfl)
@[simp] theorem setEng_rings (e : Nat) (v : Eng) (s : State) : (setEng e v s).rings = s.rings := (rfl)
@[simp] theorem setEng_gn8s (e : Nat) (v : Eng) (s : State) : (setEng e v s).gn8s = s.gn8s := (rfl)
@[simp] theorem setEng_heads (e : Nat) (v : Eng) (s : State) : (setEng e v s).heads = s.heads := (rfl)
@[simp] theorem setEng_man (e : Nat) (v : Eng) (s : State) : (setEng e v s).man = s.man := (rfl)
@[simp] theorem setEng_engs (e : Nat) (v : Eng) (s : State) : (setEng e v s).engs = tabSet .reset s.engs e v := (rfl)
@[simp] theorem setEng_sup (e : Nat) (v : Eng) (s : State) : (setEng e v s).sup = s.sup := (rfl)
@[simp] theorem setEng_saf (e : Nat) (v : Eng) (s : State) : (setEng e v s).saf = s.saf := (rfl)
@[simp] theorem setEng_ha (e : Nat) (v : Eng) (s : State) : (setEng e v s).ha = s.ha := (rfl)
@[simp] theorem setEng_hb (e : Nat) (v : Eng) (s : State) : (setEng e v s).hb = s.hb := (rfl)
@[simp] theorem setEng_pmc (e : Nat) (v : Eng) (s : State) : (setEng e v s).pmc = s.pmc := (rfl)
@[simp] theorem setEng_dev (e : Nat) (v : Eng) (s : State) : (setEng e v s).dev = s.dev := (rfl)
@[simp] theorem setEng_img (e : Nat) (v : Eng) (s : State) : (setEng e v s).img = s.img := (rfl)
@[simp] theorem setEng_flt (e : Nat) (v : Eng) (s : State) : (setEng e v s).flt = s.flt := (rfl)
@[simp] theorem setEng_pins (e : Nat) (v : Eng) (s : State) : (setEng e v s).pins = s.pins := (rfl)
@[simp] theorem setEng_shown (e : Nat) (v : Eng) (s : State) : (setEng e v s).shown = s.shown := (rfl)
@[simp] theorem setEng_free (e : Nat) (v : Eng) (s : State) : (setEng e v s).free = s.free := (rfl)
@[simp] theorem setEng_pending (e : Nat) (v : Eng) (s : State) : (setEng e v s).pending = s.pending := (rfl)

@[simp] theorem setGrp_bell (g : Nat) (v : Grp) (s : State) : (setGrp g v s).bell = s.bell := (rfl)
@[simp] theorem setGrp_frame (g : Nat) (v : Grp) (s : State) : (setGrp g v s).frame = s.frame := (rfl)
@[simp] theorem setGrp_ports (g : Nat) (v : Grp) (s : State) : (setGrp g v s).ports = s.ports := (rfl)
@[simp] theorem setGrp_rings (g : Nat) (v : Grp) (s : State) : (setGrp g v s).rings = s.rings := (rfl)
@[simp] theorem setGrp_gn8s (g : Nat) (v : Grp) (s : State) : (setGrp g v s).gn8s = s.gn8s := (rfl)
@[simp] theorem setGrp_heads (g : Nat) (v : Grp) (s : State) : (setGrp g v s).heads = s.heads := (rfl)
@[simp] theorem setGrp_man (g : Nat) (v : Grp) (s : State) : (setGrp g v s).man = s.man := (rfl)
@[simp] theorem setGrp_engs (g : Nat) (v : Grp) (s : State) : (setGrp g v s).engs = s.engs := (rfl)
@[simp] theorem setGrp_sup (g : Nat) (v : Grp) (s : State) : (setGrp g v s).sup = s.sup := (rfl)
@[simp] theorem setGrp_saf (g : Nat) (v : Grp) (s : State) : (setGrp g v s).saf = { s.saf with groups := tabSet .reset s.saf.groups g v } := (rfl)
@[simp] theorem setGrp_ha (g : Nat) (v : Grp) (s : State) : (setGrp g v s).ha = s.ha := (rfl)
@[simp] theorem setGrp_hb (g : Nat) (v : Grp) (s : State) : (setGrp g v s).hb = s.hb := (rfl)
@[simp] theorem setGrp_pmc (g : Nat) (v : Grp) (s : State) : (setGrp g v s).pmc = s.pmc := (rfl)
@[simp] theorem setGrp_dev (g : Nat) (v : Grp) (s : State) : (setGrp g v s).dev = s.dev := (rfl)
@[simp] theorem setGrp_img (g : Nat) (v : Grp) (s : State) : (setGrp g v s).img = s.img := (rfl)
@[simp] theorem setGrp_flt (g : Nat) (v : Grp) (s : State) : (setGrp g v s).flt = s.flt := (rfl)
@[simp] theorem setGrp_pins (g : Nat) (v : Grp) (s : State) : (setGrp g v s).pins = s.pins := (rfl)
@[simp] theorem setGrp_shown (g : Nat) (v : Grp) (s : State) : (setGrp g v s).shown = s.shown := (rfl)
@[simp] theorem setGrp_free (g : Nat) (v : Grp) (s : State) : (setGrp g v s).free = s.free := (rfl)
@[simp] theorem setGrp_pending (g : Nat) (v : Grp) (s : State) : (setGrp g v s).pending = s.pending := (rfl)

@[simp] theorem setDom_bell (d : Nat) (v : Dom) (s : State) : (setDom d v s).bell = s.bell := (rfl)
@[simp] theorem setDom_frame (d : Nat) (v : Dom) (s : State) : (setDom d v s).frame = s.frame := (rfl)
@[simp] theorem setDom_ports (d : Nat) (v : Dom) (s : State) : (setDom d v s).ports = s.ports := (rfl)
@[simp] theorem setDom_rings (d : Nat) (v : Dom) (s : State) : (setDom d v s).rings = s.rings := (rfl)
@[simp] theorem setDom_gn8s (d : Nat) (v : Dom) (s : State) : (setDom d v s).gn8s = s.gn8s := (rfl)
@[simp] theorem setDom_heads (d : Nat) (v : Dom) (s : State) : (setDom d v s).heads = s.heads := (rfl)
@[simp] theorem setDom_man (d : Nat) (v : Dom) (s : State) : (setDom d v s).man = s.man := (rfl)
@[simp] theorem setDom_engs (d : Nat) (v : Dom) (s : State) : (setDom d v s).engs = s.engs := (rfl)
@[simp] theorem setDom_sup (d : Nat) (v : Dom) (s : State) : (setDom d v s).sup = s.sup := (rfl)
@[simp] theorem setDom_saf (d : Nat) (v : Dom) (s : State) : (setDom d v s).saf = s.saf := (rfl)
@[simp] theorem setDom_ha (d : Nat) (v : Dom) (s : State) : (setDom d v s).ha = s.ha := (rfl)
@[simp] theorem setDom_hb (d : Nat) (v : Dom) (s : State) : (setDom d v s).hb = s.hb := (rfl)
@[simp] theorem setDom_pmc (d : Nat) (v : Dom) (s : State) : (setDom d v s).pmc = { s.pmc with doms := tabSet .reset s.pmc.doms d v } := (rfl)
@[simp] theorem setDom_dev (d : Nat) (v : Dom) (s : State) : (setDom d v s).dev = s.dev := (rfl)
@[simp] theorem setDom_img (d : Nat) (v : Dom) (s : State) : (setDom d v s).img = s.img := (rfl)
@[simp] theorem setDom_flt (d : Nat) (v : Dom) (s : State) : (setDom d v s).flt = s.flt := (rfl)
@[simp] theorem setDom_pins (d : Nat) (v : Dom) (s : State) : (setDom d v s).pins = s.pins := (rfl)
@[simp] theorem setDom_shown (d : Nat) (v : Dom) (s : State) : (setDom d v s).shown = s.shown := (rfl)
@[simp] theorem setDom_free (d : Nat) (v : Dom) (s : State) : (setDom d v s).free = s.free := (rfl)
@[simp] theorem setDom_pending (d : Nat) (v : Dom) (s : State) : (setDom d v s).pending = s.pending := (rfl)

@[simp] theorem setPair_bell (n : Nat) (v w : Sec) (s : State) : (setPair n v w s).bell = s.bell := (rfl)
@[simp] theorem setPair_frame (n : Nat) (v w : Sec) (s : State) : (setPair n v w s).frame = s.frame := (rfl)
@[simp] theorem setPair_ports (n : Nat) (v w : Sec) (s : State) : (setPair n v w s).ports = s.ports := (rfl)
@[simp] theorem setPair_rings (n : Nat) (v w : Sec) (s : State) : (setPair n v w s).rings = s.rings := (rfl)
@[simp] theorem setPair_gn8s (n : Nat) (v w : Sec) (s : State) : (setPair n v w s).gn8s = s.gn8s := (rfl)
@[simp] theorem setPair_heads (n : Nat) (v w : Sec) (s : State) : (setPair n v w s).heads = s.heads := (rfl)
@[simp] theorem setPair_man (n : Nat) (v w : Sec) (s : State) : (setPair n v w s).man = { s.man with a := tabSet .reset s.man.a n v, b := tabSet (codeB .reset) s.man.b (511 - n) (codeB w) } := (rfl)
@[simp] theorem setPair_engs (n : Nat) (v w : Sec) (s : State) : (setPair n v w s).engs = s.engs := (rfl)
@[simp] theorem setPair_sup (n : Nat) (v w : Sec) (s : State) : (setPair n v w s).sup = s.sup := (rfl)
@[simp] theorem setPair_saf (n : Nat) (v w : Sec) (s : State) : (setPair n v w s).saf = s.saf := (rfl)
@[simp] theorem setPair_ha (n : Nat) (v w : Sec) (s : State) : (setPair n v w s).ha = s.ha := (rfl)
@[simp] theorem setPair_hb (n : Nat) (v w : Sec) (s : State) : (setPair n v w s).hb = s.hb := (rfl)
@[simp] theorem setPair_pmc (n : Nat) (v w : Sec) (s : State) : (setPair n v w s).pmc = s.pmc := (rfl)
@[simp] theorem setPair_dev (n : Nat) (v w : Sec) (s : State) : (setPair n v w s).dev = s.dev := (rfl)
@[simp] theorem setPair_img (n : Nat) (v w : Sec) (s : State) : (setPair n v w s).img = s.img := (rfl)
@[simp] theorem setPair_flt (n : Nat) (v w : Sec) (s : State) : (setPair n v w s).flt = s.flt := (rfl)
@[simp] theorem setPair_pins (n : Nat) (v w : Sec) (s : State) : (setPair n v w s).pins = s.pins := (rfl)
@[simp] theorem setPair_shown (n : Nat) (v w : Sec) (s : State) : (setPair n v w s).shown = s.shown := (rfl)
@[simp] theorem setPair_free (n : Nat) (v w : Sec) (s : State) : (setPair n v w s).free = s.free := (rfl)
@[simp] theorem setPair_pending (n : Nat) (v w : Sec) (s : State) : (setPair n v w s).pending = s.pending := (rfl)

@[simp] theorem setFltReg_bell (cls ix : Nat) (v : Word) (s : State) : (setFltReg cls ix v s).bell = s.bell := (rfl)
@[simp] theorem setFltReg_frame (cls ix : Nat) (v : Word) (s : State) : (setFltReg cls ix v s).frame = s.frame := (rfl)
@[simp] theorem setFltReg_ports (cls ix : Nat) (v : Word) (s : State) : (setFltReg cls ix v s).ports = s.ports := (rfl)
@[simp] theorem setFltReg_rings (cls ix : Nat) (v : Word) (s : State) : (setFltReg cls ix v s).rings = s.rings := (rfl)
@[simp] theorem setFltReg_gn8s (cls ix : Nat) (v : Word) (s : State) : (setFltReg cls ix v s).gn8s = s.gn8s := (rfl)
@[simp] theorem setFltReg_heads (cls ix : Nat) (v : Word) (s : State) : (setFltReg cls ix v s).heads = s.heads := (rfl)
@[simp] theorem setFltReg_man (cls ix : Nat) (v : Word) (s : State) : (setFltReg cls ix v s).man = s.man := (rfl)
@[simp] theorem setFltReg_engs (cls ix : Nat) (v : Word) (s : State) : (setFltReg cls ix v s).engs = s.engs := (rfl)
@[simp] theorem setFltReg_sup (cls ix : Nat) (v : Word) (s : State) : (setFltReg cls ix v s).sup = s.sup := (rfl)
@[simp] theorem setFltReg_saf (cls ix : Nat) (v : Word) (s : State) : (setFltReg cls ix v s).saf = s.saf := (rfl)
@[simp] theorem setFltReg_ha (cls ix : Nat) (v : Word) (s : State) : (setFltReg cls ix v s).ha = s.ha := (rfl)
@[simp] theorem setFltReg_hb (cls ix : Nat) (v : Word) (s : State) : (setFltReg cls ix v s).hb = s.hb := (rfl)
@[simp] theorem setFltReg_pmc (cls ix : Nat) (v : Word) (s : State) : (setFltReg cls ix v s).pmc = s.pmc := (rfl)
@[simp] theorem setFltReg_dev (cls ix : Nat) (v : Word) (s : State) : (setFltReg cls ix v s).dev = s.dev := (rfl)
@[simp] theorem setFltReg_img (cls ix : Nat) (v : Word) (s : State) : (setFltReg cls ix v s).img = s.img := (rfl)
@[simp] theorem setFltReg_flt (cls ix : Nat) (v : Word) (s : State) : (setFltReg cls ix v s).flt = { s.flt with bits := tabSet 0 s.flt.bits (cls * 512 + ix) v } := (rfl)
@[simp] theorem setFltReg_pins (cls ix : Nat) (v : Word) (s : State) : (setFltReg cls ix v s).pins = s.pins := (rfl)
@[simp] theorem setFltReg_shown (cls ix : Nat) (v : Word) (s : State) : (setFltReg cls ix v s).shown = s.shown := (rfl)
@[simp] theorem setFltReg_free (cls ix : Nat) (v : Word) (s : State) : (setFltReg cls ix v s).free = s.free := (rfl)
@[simp] theorem setFltReg_pending (cls ix : Nat) (v : Word) (s : State) : (setFltReg cls ix v s).pending = s.pending := (rfl)

@[simp] theorem drawFree_bell (s : State) : (drawFree s).bell = s.bell := (rfl)
@[simp] theorem drawFree_frame (s : State) : (drawFree s).frame = s.frame := (rfl)
@[simp] theorem drawFree_ports (s : State) : (drawFree s).ports = s.ports := (rfl)
@[simp] theorem drawFree_rings (s : State) : (drawFree s).rings = s.rings := (rfl)
@[simp] theorem drawFree_gn8s (s : State) : (drawFree s).gn8s = s.gn8s := (rfl)
@[simp] theorem drawFree_heads (s : State) : (drawFree s).heads = s.heads := (rfl)
@[simp] theorem drawFree_man (s : State) : (drawFree s).man = s.man := (rfl)
@[simp] theorem drawFree_engs (s : State) : (drawFree s).engs = s.engs := (rfl)
@[simp] theorem drawFree_sup (s : State) : (drawFree s).sup = s.sup := (rfl)
@[simp] theorem drawFree_saf (s : State) : (drawFree s).saf = s.saf := (rfl)
@[simp] theorem drawFree_ha (s : State) : (drawFree s).ha = s.ha := (rfl)
@[simp] theorem drawFree_hb (s : State) : (drawFree s).hb = s.hb := (rfl)
@[simp] theorem drawFree_pmc (s : State) : (drawFree s).pmc = s.pmc := (rfl)
@[simp] theorem drawFree_dev (s : State) : (drawFree s).dev = s.dev := (rfl)
@[simp] theorem drawFree_img (s : State) : (drawFree s).img = s.img := (rfl)
@[simp] theorem drawFree_flt (s : State) : (drawFree s).flt = s.flt := (rfl)
@[simp] theorem drawFree_pins (s : State) : (drawFree s).pins = s.pins := (rfl)
@[simp] theorem drawFree_shown (s : State) : (drawFree s).shown = s.shown := (rfl)
@[simp] theorem drawFree_free (s : State) : (drawFree s).free = s.free + 1 := (rfl)
@[simp] theorem drawFree_pending (s : State) : (drawFree s).pending = s.pending := (rfl)

@[simp] theorem setHost_bell (p : HostId) (v : PortSt) (s : State) : (setHost p v s).bell = s.bell := by cases p <;> rfl
@[simp] theorem setHost_frame (p : HostId) (v : PortSt) (s : State) : (setHost p v s).frame = s.frame := by cases p <;> rfl
@[simp] theorem setHost_ports (p : HostId) (v : PortSt) (s : State) : (setHost p v s).ports = s.ports := by cases p <;> rfl
@[simp] theorem setHost_rings (p : HostId) (v : PortSt) (s : State) : (setHost p v s).rings = s.rings := by cases p <;> rfl
@[simp] theorem setHost_gn8s (p : HostId) (v : PortSt) (s : State) : (setHost p v s).gn8s = s.gn8s := by cases p <;> rfl
@[simp] theorem setHost_heads (p : HostId) (v : PortSt) (s : State) : (setHost p v s).heads = s.heads := by cases p <;> rfl
@[simp] theorem setHost_man (p : HostId) (v : PortSt) (s : State) : (setHost p v s).man = s.man := by cases p <;> rfl
@[simp] theorem setHost_engs (p : HostId) (v : PortSt) (s : State) : (setHost p v s).engs = s.engs := by cases p <;> rfl
@[simp] theorem setHost_sup (p : HostId) (v : PortSt) (s : State) : (setHost p v s).sup = s.sup := by cases p <;> rfl
@[simp] theorem setHost_saf (p : HostId) (v : PortSt) (s : State) : (setHost p v s).saf = s.saf := by cases p <;> rfl
@[simp] theorem setHost_ha_ha (v : PortSt) (s : State) : (setHost .ha v s).ha = v := (rfl)
@[simp] theorem setHost_hb_ha (v : PortSt) (s : State) : (setHost .hb v s).ha = s.ha := (rfl)
@[simp] theorem setHost_hb_hb (v : PortSt) (s : State) : (setHost .hb v s).hb = v := (rfl)
@[simp] theorem setHost_ha_hb (v : PortSt) (s : State) : (setHost .ha v s).hb = s.hb := (rfl)
@[simp] theorem setHost_pmc (p : HostId) (v : PortSt) (s : State) : (setHost p v s).pmc = s.pmc := by cases p <;> rfl
@[simp] theorem setHost_dev (p : HostId) (v : PortSt) (s : State) : (setHost p v s).dev = s.dev := by cases p <;> rfl
@[simp] theorem setHost_img (p : HostId) (v : PortSt) (s : State) : (setHost p v s).img = s.img := by cases p <;> rfl
@[simp] theorem setHost_flt (p : HostId) (v : PortSt) (s : State) : (setHost p v s).flt = s.flt := by cases p <;> rfl
@[simp] theorem setHost_pins (p : HostId) (v : PortSt) (s : State) : (setHost p v s).pins = s.pins := by cases p <;> rfl
@[simp] theorem setHost_shown (p : HostId) (v : PortSt) (s : State) : (setHost p v s).shown = s.shown := by cases p <;> rfl
@[simp] theorem setHost_free (p : HostId) (v : PortSt) (s : State) : (setHost p v s).free = s.free := by cases p <;> rfl
@[simp] theorem setHost_pending (p : HostId) (v : PortSt) (s : State) : (setHost p v s).pending = s.pending := by cases p <;> rfl

@[simp] theorem ite_bell (c : Prop) [Decidable c] (a b : State) :
    (if c then a else b).bell = if c then a.bell else b.bell := by
  split <;> rfl

@[simp] theorem forEach_bell {β : Type} (l : List β) (f : β → State → State) (s : State)
    (h : ∀ b s, (f b s).bell = s.bell) : (forEach l f s).bell = s.bell := by
  unfold forEach
  induction l generalizing s with
  | nil => rfl
  | cons a t ih => rw [List.foldl_cons, ih, h]

@[simp] theorem ite_frame (c : Prop) [Decidable c] (a b : State) :
    (if c then a else b).frame = if c then a.frame else b.frame := by
  split <;> rfl

@[simp] theorem forEach_frame {β : Type} (l : List β) (f : β → State → State) (s : State)
    (h : ∀ b s, (f b s).frame = s.frame) : (forEach l f s).frame = s.frame := by
  unfold forEach
  induction l generalizing s with
  | nil => rfl
  | cons a t ih => rw [List.foldl_cons, ih, h]

@[simp] theorem ite_ports (c : Prop) [Decidable c] (a b : State) :
    (if c then a else b).ports = if c then a.ports else b.ports := by
  split <;> rfl

@[simp] theorem forEach_ports {β : Type} (l : List β) (f : β → State → State) (s : State)
    (h : ∀ b s, (f b s).ports = s.ports) : (forEach l f s).ports = s.ports := by
  unfold forEach
  induction l generalizing s with
  | nil => rfl
  | cons a t ih => rw [List.foldl_cons, ih, h]

@[simp] theorem ite_rings (c : Prop) [Decidable c] (a b : State) :
    (if c then a else b).rings = if c then a.rings else b.rings := by
  split <;> rfl

@[simp] theorem forEach_rings {β : Type} (l : List β) (f : β → State → State) (s : State)
    (h : ∀ b s, (f b s).rings = s.rings) : (forEach l f s).rings = s.rings := by
  unfold forEach
  induction l generalizing s with
  | nil => rfl
  | cons a t ih => rw [List.foldl_cons, ih, h]

@[simp] theorem ite_gn8s (c : Prop) [Decidable c] (a b : State) :
    (if c then a else b).gn8s = if c then a.gn8s else b.gn8s := by
  split <;> rfl

@[simp] theorem forEach_gn8s {β : Type} (l : List β) (f : β → State → State) (s : State)
    (h : ∀ b s, (f b s).gn8s = s.gn8s) : (forEach l f s).gn8s = s.gn8s := by
  unfold forEach
  induction l generalizing s with
  | nil => rfl
  | cons a t ih => rw [List.foldl_cons, ih, h]

@[simp] theorem ite_heads (c : Prop) [Decidable c] (a b : State) :
    (if c then a else b).heads = if c then a.heads else b.heads := by
  split <;> rfl

@[simp] theorem forEach_heads {β : Type} (l : List β) (f : β → State → State) (s : State)
    (h : ∀ b s, (f b s).heads = s.heads) : (forEach l f s).heads = s.heads := by
  unfold forEach
  induction l generalizing s with
  | nil => rfl
  | cons a t ih => rw [List.foldl_cons, ih, h]

@[simp] theorem ite_man (c : Prop) [Decidable c] (a b : State) :
    (if c then a else b).man = if c then a.man else b.man := by
  split <;> rfl

@[simp] theorem forEach_man {β : Type} (l : List β) (f : β → State → State) (s : State)
    (h : ∀ b s, (f b s).man = s.man) : (forEach l f s).man = s.man := by
  unfold forEach
  induction l generalizing s with
  | nil => rfl
  | cons a t ih => rw [List.foldl_cons, ih, h]

@[simp] theorem ite_engs (c : Prop) [Decidable c] (a b : State) :
    (if c then a else b).engs = if c then a.engs else b.engs := by
  split <;> rfl

@[simp] theorem forEach_engs {β : Type} (l : List β) (f : β → State → State) (s : State)
    (h : ∀ b s, (f b s).engs = s.engs) : (forEach l f s).engs = s.engs := by
  unfold forEach
  induction l generalizing s with
  | nil => rfl
  | cons a t ih => rw [List.foldl_cons, ih, h]

@[simp] theorem ite_sup (c : Prop) [Decidable c] (a b : State) :
    (if c then a else b).sup = if c then a.sup else b.sup := by
  split <;> rfl

@[simp] theorem forEach_sup {β : Type} (l : List β) (f : β → State → State) (s : State)
    (h : ∀ b s, (f b s).sup = s.sup) : (forEach l f s).sup = s.sup := by
  unfold forEach
  induction l generalizing s with
  | nil => rfl
  | cons a t ih => rw [List.foldl_cons, ih, h]

@[simp] theorem ite_saf (c : Prop) [Decidable c] (a b : State) :
    (if c then a else b).saf = if c then a.saf else b.saf := by
  split <;> rfl

@[simp] theorem forEach_saf {β : Type} (l : List β) (f : β → State → State) (s : State)
    (h : ∀ b s, (f b s).saf = s.saf) : (forEach l f s).saf = s.saf := by
  unfold forEach
  induction l generalizing s with
  | nil => rfl
  | cons a t ih => rw [List.foldl_cons, ih, h]

@[simp] theorem ite_ha (c : Prop) [Decidable c] (a b : State) :
    (if c then a else b).ha = if c then a.ha else b.ha := by
  split <;> rfl

@[simp] theorem forEach_ha {β : Type} (l : List β) (f : β → State → State) (s : State)
    (h : ∀ b s, (f b s).ha = s.ha) : (forEach l f s).ha = s.ha := by
  unfold forEach
  induction l generalizing s with
  | nil => rfl
  | cons a t ih => rw [List.foldl_cons, ih, h]

@[simp] theorem ite_hb (c : Prop) [Decidable c] (a b : State) :
    (if c then a else b).hb = if c then a.hb else b.hb := by
  split <;> rfl

@[simp] theorem forEach_hb {β : Type} (l : List β) (f : β → State → State) (s : State)
    (h : ∀ b s, (f b s).hb = s.hb) : (forEach l f s).hb = s.hb := by
  unfold forEach
  induction l generalizing s with
  | nil => rfl
  | cons a t ih => rw [List.foldl_cons, ih, h]

@[simp] theorem ite_pmc (c : Prop) [Decidable c] (a b : State) :
    (if c then a else b).pmc = if c then a.pmc else b.pmc := by
  split <;> rfl

@[simp] theorem forEach_pmc {β : Type} (l : List β) (f : β → State → State) (s : State)
    (h : ∀ b s, (f b s).pmc = s.pmc) : (forEach l f s).pmc = s.pmc := by
  unfold forEach
  induction l generalizing s with
  | nil => rfl
  | cons a t ih => rw [List.foldl_cons, ih, h]

@[simp] theorem ite_dev (c : Prop) [Decidable c] (a b : State) :
    (if c then a else b).dev = if c then a.dev else b.dev := by
  split <;> rfl

@[simp] theorem forEach_dev {β : Type} (l : List β) (f : β → State → State) (s : State)
    (h : ∀ b s, (f b s).dev = s.dev) : (forEach l f s).dev = s.dev := by
  unfold forEach
  induction l generalizing s with
  | nil => rfl
  | cons a t ih => rw [List.foldl_cons, ih, h]

@[simp] theorem ite_img (c : Prop) [Decidable c] (a b : State) :
    (if c then a else b).img = if c then a.img else b.img := by
  split <;> rfl

@[simp] theorem forEach_img {β : Type} (l : List β) (f : β → State → State) (s : State)
    (h : ∀ b s, (f b s).img = s.img) : (forEach l f s).img = s.img := by
  unfold forEach
  induction l generalizing s with
  | nil => rfl
  | cons a t ih => rw [List.foldl_cons, ih, h]

@[simp] theorem ite_flt (c : Prop) [Decidable c] (a b : State) :
    (if c then a else b).flt = if c then a.flt else b.flt := by
  split <;> rfl

@[simp] theorem forEach_flt {β : Type} (l : List β) (f : β → State → State) (s : State)
    (h : ∀ b s, (f b s).flt = s.flt) : (forEach l f s).flt = s.flt := by
  unfold forEach
  induction l generalizing s with
  | nil => rfl
  | cons a t ih => rw [List.foldl_cons, ih, h]

@[simp] theorem ite_pins (c : Prop) [Decidable c] (a b : State) :
    (if c then a else b).pins = if c then a.pins else b.pins := by
  split <;> rfl

@[simp] theorem forEach_pins {β : Type} (l : List β) (f : β → State → State) (s : State)
    (h : ∀ b s, (f b s).pins = s.pins) : (forEach l f s).pins = s.pins := by
  unfold forEach
  induction l generalizing s with
  | nil => rfl
  | cons a t ih => rw [List.foldl_cons, ih, h]

@[simp] theorem ite_shown (c : Prop) [Decidable c] (a b : State) :
    (if c then a else b).shown = if c then a.shown else b.shown := by
  split <;> rfl

@[simp] theorem forEach_shown {β : Type} (l : List β) (f : β → State → State) (s : State)
    (h : ∀ b s, (f b s).shown = s.shown) : (forEach l f s).shown = s.shown := by
  unfold forEach
  induction l generalizing s with
  | nil => rfl
  | cons a t ih => rw [List.foldl_cons, ih, h]

@[simp] theorem ite_free (c : Prop) [Decidable c] (a b : State) :
    (if c then a else b).free = if c then a.free else b.free := by
  split <;> rfl

@[simp] theorem forEach_free {β : Type} (l : List β) (f : β → State → State) (s : State)
    (h : ∀ b s, (f b s).free = s.free) : (forEach l f s).free = s.free := by
  unfold forEach
  induction l generalizing s with
  | nil => rfl
  | cons a t ih => rw [List.foldl_cons, ih, h]

@[simp] theorem ite_pending (c : Prop) [Decidable c] (a b : State) :
    (if c then a else b).pending = if c then a.pending else b.pending := by
  split <;> rfl

@[simp] theorem forEach_pending {β : Type} (l : List β) (f : β → State → State) (s : State)
    (h : ∀ b s, (f b s).pending = s.pending) : (forEach l f s).pending = s.pending := by
  unfold forEach
  induction l generalizing s with
  | nil => rfl
  | cons a t ih => rw [List.foldl_cons, ih, h]

@[simp] theorem bothSups_bell (f : State → State) (s : State) : (bothSups f s).bell = (f s).bell := (rfl)
@[simp] theorem bothSups_frame (f : State → State) (s : State) : (bothSups f s).frame = (f s).frame := (rfl)
@[simp] theorem bothSups_ports (f : State → State) (s : State) : (bothSups f s).ports = (f s).ports := (rfl)
@[simp] theorem bothSups_rings (f : State → State) (s : State) : (bothSups f s).rings = (f s).rings := (rfl)
@[simp] theorem bothSups_gn8s (f : State → State) (s : State) : (bothSups f s).gn8s = (f s).gn8s := (rfl)
@[simp] theorem bothSups_heads (f : State → State) (s : State) : (bothSups f s).heads = (f s).heads := (rfl)
@[simp] theorem bothSups_man (f : State → State) (s : State) : (bothSups f s).man = (f s).man := (rfl)
@[simp] theorem bothSups_engs (f : State → State) (s : State) : (bothSups f s).engs = (f s).engs := (rfl)
@[simp] theorem bothSups_saf (f : State → State) (s : State) : (bothSups f s).saf = (f s).saf := (rfl)
@[simp] theorem bothSups_ha (f : State → State) (s : State) : (bothSups f s).ha = (f s).ha := (rfl)
@[simp] theorem bothSups_hb (f : State → State) (s : State) : (bothSups f s).hb = (f s).hb := (rfl)
@[simp] theorem bothSups_pmc (f : State → State) (s : State) : (bothSups f s).pmc = (f s).pmc := (rfl)
@[simp] theorem bothSups_dev (f : State → State) (s : State) : (bothSups f s).dev = (f s).dev := (rfl)
@[simp] theorem bothSups_img (f : State → State) (s : State) : (bothSups f s).img = (f s).img := (rfl)
@[simp] theorem bothSups_flt (f : State → State) (s : State) : (bothSups f s).flt = (f s).flt := (rfl)
@[simp] theorem bothSups_pins (f : State → State) (s : State) : (bothSups f s).pins = (f s).pins := (rfl)
@[simp] theorem bothSups_shown (f : State → State) (s : State) : (bothSups f s).shown = (f s).shown := (rfl)
@[simp] theorem bothSups_free (f : State → State) (s : State) : (bothSups f s).free = (f s).free := (rfl)
@[simp] theorem bothSups_pending (f : State → State) (s : State) : (bothSups f s).pending = (f s).pending := (rfl)

end Sys2Proof.Machine
end

