-- ==== Sys2Proof/Laws/FrameOps.lean ====
section
/-! SUPPORT. What each operation of Ops.lean (shared operations) leaves unchanged. -/

namespace Sys2Proof.Machine

theorem setPort_keeps (p : Nat) (v : RPort) (s : State) :
    (setPort p v s).bell = s.bell ∧
    (setPort p v s).frame = s.frame ∧
    (setPort p v s).rings = s.rings ∧
    (setPort p v s).gn8s = s.gn8s ∧
    (setPort p v s).heads = s.heads ∧
    (setPort p v s).man = s.man ∧
    (setPort p v s).engs = s.engs ∧
    (setPort p v s).sup = s.sup ∧
    (setPort p v s).saf = s.saf ∧
    (setPort p v s).ha = s.ha ∧
    (setPort p v s).hb = s.hb ∧
    (setPort p v s).pmc = s.pmc ∧
    (setPort p v s).dev = s.dev ∧
    (setPort p v s).img = s.img ∧
    (setPort p v s).flt = s.flt ∧
    (setPort p v s).pins = s.pins ∧
    (setPort p v s).shown = s.shown ∧
    (setPort p v s).free = s.free ∧
    (setPort p v s).pending = s.pending := by
  exact ⟨rfl, rfl, rfl, rfl, rfl, rfl, rfl, rfl, rfl, rfl, rfl, rfl, rfl, rfl, rfl, rfl, rfl, rfl, rfl⟩

theorem setRing_keeps (k : Nat) (v : Ring) (s : State) :
    (setRing k v s).bell = s.bell ∧
    (setRing k v s).frame = s.frame ∧
    (setRing k v s).ports = s.ports ∧
    (setRing k v s).gn8s = s.gn8s ∧
    (setRing k v s).heads = s.heads ∧
    (setRing k v s).man = s.man ∧
    (setRing k v s).engs = s.engs ∧
    (setRing k v s).sup = s.sup ∧
    (setRing k v s).saf = s.saf ∧
    (setRing k v s).ha = s.ha ∧
    (setRing k v s).hb = s.hb ∧
    (setRing k v s).pmc = s.pmc ∧
    (setRing k v s).dev = s.dev ∧
    (setRing k v s).img = s.img ∧
    (setRing k v s).flt = s.flt ∧
    (setRing k v s).pins = s.pins ∧
    (setRing k v s).shown = s.shown ∧
    (setRing k v s).free = s.free ∧
    (setRing k v s).pending = s.pending := by
  exact ⟨rfl, rfl, rfl, rfl, rfl, rfl, rfl, rfl, rfl, rfl, rfl, rfl, rfl, rfl, rfl, rfl, rfl, rfl, rfl⟩

theorem setGn8_keeps (i : Nat) (v : Gn8) (s : State) :
    (setGn8 i v s).bell = s.bell ∧
    (setGn8 i v s).frame = s.frame ∧
    (setGn8 i v s).ports = s.ports ∧
    (setGn8 i v s).rings = s.rings ∧
    (setGn8 i v s).heads = s.heads ∧
    (setGn8 i v s).man = s.man ∧
    (setGn8 i v s).engs = s.engs ∧
    (setGn8 i v s).sup = s.sup ∧
    (setGn8 i v s).saf = s.saf ∧
    (setGn8 i v s).ha = s.ha ∧
    (setGn8 i v s).hb = s.hb ∧
    (setGn8 i v s).pmc = s.pmc ∧
    (setGn8 i v s).dev = s.dev ∧
    (setGn8 i v s).img = s.img ∧
    (setGn8 i v s).flt = s.flt ∧
    (setGn8 i v s).pins = s.pins ∧
    (setGn8 i v s).shown = s.shown ∧
    (setGn8 i v s).free = s.free ∧
    (setGn8 i v s).pending = s.pending := by
  exact ⟨rfl, rfl, rfl, rfl, rfl, rfl, rfl, rfl, rfl, rfl, rfl, rfl, rfl, rfl, rfl, rfl, rfl, rfl, rfl⟩

theorem setHead_keeps (h : Nat) (v : Head) (s : State) :
    (setHead h v s).bell = s.bell ∧
    (setHead h v s).frame = s.frame ∧
    (setHead h v s).ports = s.ports ∧
    (setHead h v s).rings = s.rings ∧
    (setHead h v s).gn8s = s.gn8s ∧
    (setHead h v s).man = s.man ∧
    (setHead h v s).engs = s.engs ∧
    (setHead h v s).sup = s.sup ∧
    (setHead h v s).saf = s.saf ∧
    (setHead h v s).ha = s.ha ∧
    (setHead h v s).hb = s.hb ∧
    (setHead h v s).pmc = s.pmc ∧
    (setHead h v s).dev = s.dev ∧
    (setHead h v s).img = s.img ∧
    (setHead h v s).flt = s.flt ∧
    (setHead h v s).pins = s.pins ∧
    (setHead h v s).shown = s.shown ∧
    (setHead h v s).free = s.free ∧
    (setHead h v s).pending = s.pending := by
  exact ⟨rfl, rfl, rfl, rfl, rfl, rfl, rfl, rfl, rfl, rfl, rfl, rfl, rfl, rfl, rfl, rfl, rfl, rfl, rfl⟩

theorem setEng_keeps (e : Nat) (v : Eng) (s : State) :
    (setEng e v s).bell = s.bell ∧
    (setEng e v s).frame = s.frame ∧
    (setEng e v s).ports = s.ports ∧
    (setEng e v s).rings = s.rings ∧
    (setEng e v s).gn8s = s.gn8s ∧
    (setEng e v s).heads = s.heads ∧
    (setEng e v s).man = s.man ∧
    (setEng e v s).sup = s.sup ∧
    (setEng e v s).saf = s.saf ∧
    (setEng e v s).ha = s.ha ∧
    (setEng e v s).hb = s.hb ∧
    (setEng e v s).pmc = s.pmc ∧
    (setEng e v s).dev = s.dev ∧
    (setEng e v s).img = s.img ∧
    (setEng e v s).flt = s.flt ∧
    (setEng e v s).pins = s.pins ∧
    (setEng e v s).shown = s.shown ∧
    (setEng e v s).free = s.free ∧
    (setEng e v s).pending = s.pending := by
  exact ⟨rfl, rfl, rfl, rfl, rfl, rfl, rfl, rfl, rfl, rfl, rfl, rfl, rfl, rfl, rfl, rfl, rfl, rfl, rfl⟩

theorem modEng_keeps (e : Nat) (f : Eng → Eng) (s : State) :
    (modEng e f s).bell = s.bell ∧
    (modEng e f s).frame = s.frame ∧
    (modEng e f s).ports = s.ports ∧
    (modEng e f s).rings = s.rings ∧
    (modEng e f s).gn8s = s.gn8s ∧
    (modEng e f s).heads = s.heads ∧
    (modEng e f s).man = s.man ∧
    (modEng e f s).sup = s.sup ∧
    (modEng e f s).saf = s.saf ∧
    (modEng e f s).ha = s.ha ∧
    (modEng e f s).hb = s.hb ∧
    (modEng e f s).pmc = s.pmc ∧
    (modEng e f s).dev = s.dev ∧
    (modEng e f s).img = s.img ∧
    (modEng e f s).flt = s.flt ∧
    (modEng e f s).pins = s.pins ∧
    (modEng e f s).shown = s.shown ∧
    (modEng e f s).free = s.free ∧
    (modEng e f s).pending = s.pending := by
  exact ⟨rfl, rfl, rfl, rfl, rfl, rfl, rfl, rfl, rfl, rfl, rfl, rfl, rfl, rfl, rfl, rfl, rfl, rfl, rfl⟩

theorem setGrp_keeps (g : Nat) (v : Grp) (s : State) :
    (setGrp g v s).bell = s.bell ∧
    (setGrp g v s).frame = s.frame ∧
    (setGrp g v s).ports = s.ports ∧
    (setGrp g v s).rings = s.rings ∧
    (setGrp g v s).gn8s = s.gn8s ∧
    (setGrp g v s).heads = s.heads ∧
    (setGrp g v s).man = s.man ∧
    (setGrp g v s).engs = s.engs ∧
    (setGrp g v s).sup = s.sup ∧
    (setGrp g v s).ha = s.ha ∧
    (setGrp g v s).hb = s.hb ∧
    (setGrp g v s).pmc = s.pmc ∧
    (setGrp g v s).dev = s.dev ∧
    (setGrp g v s).img = s.img ∧
    (setGrp g v s).flt = s.flt ∧
    (setGrp g v s).pins = s.pins ∧
    (setGrp g v s).shown = s.shown ∧
    (setGrp g v s).free = s.free ∧
    (setGrp g v s).pending = s.pending := by
  exact ⟨rfl, rfl, rfl, rfl, rfl, rfl, rfl, rfl, rfl, rfl, rfl, rfl, rfl, rfl, rfl, rfl, rfl, rfl, rfl⟩

theorem modGrp_keeps (g : Nat) (f : Grp → Grp) (s : State) :
    (modGrp g f s).bell = s.bell ∧
    (modGrp g f s).frame = s.frame ∧
    (modGrp g f s).ports = s.ports ∧
    (modGrp g f s).rings = s.rings ∧
    (modGrp g f s).gn8s = s.gn8s ∧
    (modGrp g f s).heads = s.heads ∧
    (modGrp g f s).man = s.man ∧
    (modGrp g f s).engs = s.engs ∧
    (modGrp g f s).sup = s.sup ∧
    (modGrp g f s).ha = s.ha ∧
    (modGrp g f s).hb = s.hb ∧
    (modGrp g f s).pmc = s.pmc ∧
    (modGrp g f s).dev = s.dev ∧
    (modGrp g f s).img = s.img ∧
    (modGrp g f s).flt = s.flt ∧
    (modGrp g f s).pins = s.pins ∧
    (modGrp g f s).shown = s.shown ∧
    (modGrp g f s).free = s.free ∧
    (modGrp g f s).pending = s.pending := by
  exact ⟨rfl, rfl, rfl, rfl, rfl, rfl, rfl, rfl, rfl, rfl, rfl, rfl, rfl, rfl, rfl, rfl, rfl, rfl, rfl⟩

theorem setDom_keeps (d : Nat) (v : Dom) (s : State) :
    (setDom d v s).bell = s.bell ∧
    (setDom d v s).frame = s.frame ∧
    (setDom d v s).ports = s.ports ∧
    (setDom d v s).rings = s.rings ∧
    (setDom d v s).gn8s = s.gn8s ∧
    (setDom d v s).heads = s.heads ∧
    (setDom d v s).man = s.man ∧
    (setDom d v s).engs = s.engs ∧
    (setDom d v s).sup = s.sup ∧
    (setDom d v s).saf = s.saf ∧
    (setDom d v s).ha = s.ha ∧
    (setDom d v s).hb = s.hb ∧
    (setDom d v s).dev = s.dev ∧
    (setDom d v s).img = s.img ∧
    (setDom d v s).flt = s.flt ∧
    (setDom d v s).pins = s.pins ∧
    (setDom d v s).shown = s.shown ∧
    (setDom d v s).free = s.free ∧
    (setDom d v s).pending = s.pending := by
  exact ⟨rfl, rfl, rfl, rfl, rfl, rfl, rfl, rfl, rfl, rfl, rfl, rfl, rfl, rfl, rfl, rfl, rfl, rfl, rfl⟩

theorem modDom_keeps (d : Nat) (f : Dom → Dom) (s : State) :
    (modDom d f s).bell = s.bell ∧
    (modDom d f s).frame = s.frame ∧
    (modDom d f s).ports = s.ports ∧
    (modDom d f s).rings = s.rings ∧
    (modDom d f s).gn8s = s.gn8s ∧
    (modDom d f s).heads = s.heads ∧
    (modDom d f s).man = s.man ∧
    (modDom d f s).engs = s.engs ∧
    (modDom d f s).sup = s.sup ∧
    (modDom d f s).saf = s.saf ∧
    (modDom d f s).ha = s.ha ∧
    (modDom d f s).hb = s.hb ∧
    (modDom d f s).dev = s.dev ∧
    (modDom d f s).img = s.img ∧
    (modDom d f s).flt = s.flt ∧
    (modDom d f s).pins = s.pins ∧
    (modDom d f s).shown = s.shown ∧
    (modDom d f s).free = s.free ∧
    (modDom d f s).pending = s.pending := by
  exact ⟨rfl, rfl, rfl, rfl, rfl, rfl, rfl, rfl, rfl, rfl, rfl, rfl, rfl, rfl, rfl, rfl, rfl, rfl, rfl⟩

theorem setHost_keeps (p : HostId) (v : PortSt) (s : State) :
    (setHost p v s).bell = s.bell ∧
    (setHost p v s).frame = s.frame ∧
    (setHost p v s).ports = s.ports ∧
    (setHost p v s).rings = s.rings ∧
    (setHost p v s).gn8s = s.gn8s ∧
    (setHost p v s).heads = s.heads ∧
    (setHost p v s).man = s.man ∧
    (setHost p v s).engs = s.engs ∧
    (setHost p v s).sup = s.sup ∧
    (setHost p v s).saf = s.saf ∧
    (setHost p v s).pmc = s.pmc ∧
    (setHost p v s).dev = s.dev ∧
    (setHost p v s).img = s.img ∧
    (setHost p v s).flt = s.flt ∧
    (setHost p v s).pins = s.pins ∧
    (setHost p v s).shown = s.shown ∧
    (setHost p v s).free = s.free ∧
    (setHost p v s).pending = s.pending := by
  unfold setHost
  (repeat' split) <;> simp []

theorem modHost_keeps (p : HostId) (f : PortSt → PortSt) (s : State) :
    (modHost p f s).bell = s.bell ∧
    (modHost p f s).frame = s.frame ∧
    (modHost p f s).ports = s.ports ∧
    (modHost p f s).rings = s.rings ∧
    (modHost p f s).gn8s = s.gn8s ∧
    (modHost p f s).heads = s.heads ∧
    (modHost p f s).man = s.man ∧
    (modHost p f s).engs = s.engs ∧
    (modHost p f s).sup = s.sup ∧
    (modHost p f s).saf = s.saf ∧
    (modHost p f s).pmc = s.pmc ∧
    (modHost p f s).dev = s.dev ∧
    (modHost p f s).img = s.img ∧
    (modHost p f s).flt = s.flt ∧
    (modHost p f s).pins = s.pins ∧
    (modHost p f s).shown = s.shown ∧
    (modHost p f s).free = s.free ∧
    (modHost p f s).pending = s.pending := by
  unfold modHost
  simp [setHost_keeps]

theorem setPair_keeps (n : Nat) (ra rb : Sec) (s : State) :
    (setPair n ra rb s).bell = s.bell ∧
    (setPair n ra rb s).frame = s.frame ∧
    (setPair n ra rb s).ports = s.ports ∧
    (setPair n ra rb s).rings = s.rings ∧
    (setPair n ra rb s).gn8s = s.gn8s ∧
    (setPair n ra rb s).heads = s.heads ∧
    (setPair n ra rb s).engs = s.engs ∧
    (setPair n ra rb s).sup = s.sup ∧
    (setPair n ra rb s).saf = s.saf ∧
    (setPair n ra rb s).ha = s.ha ∧
    (setPair n ra rb s).hb = s.hb ∧
    (setPair n ra rb s).pmc = s.pmc ∧
    (setPair n ra rb s).dev = s.dev ∧
    (setPair n ra rb s).img = s.img ∧
    (setPair n ra rb s).flt = s.flt ∧
    (setPair n ra rb s).pins = s.pins ∧
    (setPair n ra rb s).shown = s.shown ∧
    (setPair n ra rb s).free = s.free ∧
    (setPair n ra rb s).pending = s.pending := by
  exact ⟨rfl, rfl, rfl, rfl, rfl, rfl, rfl, rfl, rfl, rfl, rfl, rfl, rfl, rfl, rfl, rfl, rfl, rfl, rfl⟩

theorem modSec_keeps (n : Nat) (f : Sec → Sec) (s : State) :
    (modSec n f s).bell = s.bell ∧
    (modSec n f s).frame = s.frame ∧
    (modSec n f s).ports = s.ports ∧
    (modSec n f s).rings = s.rings ∧
    (modSec n f s).gn8s = s.gn8s ∧
    (modSec n f s).heads = s.heads ∧
    (modSec n f s).engs = s.engs ∧
    (modSec n f s).sup = s.sup ∧
    (modSec n f s).saf = s.saf ∧
    (modSec n f s).ha = s.ha ∧
    (modSec n f s).hb = s.hb ∧
    (modSec n f s).pmc = s.pmc ∧
    (modSec n f s).dev = s.dev ∧
    (modSec n f s).img = s.img ∧
    (modSec n f s).flt = s.flt ∧
    (modSec n f s).pins = s.pins ∧
    (modSec n f s).shown = s.shown ∧
    (modSec n f s).free = s.free ∧
    (modSec n f s).pending = s.pending := by
  exact ⟨rfl, rfl, rfl, rfl, rfl, rfl, rfl, rfl, rfl, rfl, rfl, rfl, rfl, rfl, rfl, rfl, rfl, rfl, rfl⟩

theorem viewB_keeps (s : State) :
    (viewB s).bell = s.bell ∧
    (viewB s).frame = s.frame ∧
    (viewB s).ports = s.ports ∧
    (viewB s).rings = s.rings ∧
    (viewB s).gn8s = s.gn8s ∧
    (viewB s).heads = s.heads ∧
    (viewB s).engs = s.engs ∧
    (viewB s).saf = s.saf ∧
    (viewB s).ha = s.ha ∧
    (viewB s).hb = s.hb ∧
    (viewB s).pmc = s.pmc ∧
    (viewB s).dev = s.dev ∧
    (viewB s).img = s.img ∧
    (viewB s).flt = s.flt ∧
    (viewB s).pins = s.pins ∧
    (viewB s).shown = s.shown ∧
    (viewB s).free = s.free ∧
    (viewB s).pending = s.pending := by
  exact ⟨rfl, rfl, rfl, rfl, rfl, rfl, rfl, rfl, rfl, rfl, rfl, rfl, rfl, rfl, rfl, rfl, rfl, rfl⟩

theorem modSups_keeps (f : SupMem → SupMem) (s : State) :
    (modSups f s).bell = s.bell ∧
    (modSups f s).frame = s.frame ∧
    (modSups f s).ports = s.ports ∧
    (modSups f s).rings = s.rings ∧
    (modSups f s).gn8s = s.gn8s ∧
    (modSups f s).heads = s.heads ∧
    (modSups f s).man = s.man ∧
    (modSups f s).engs = s.engs ∧
    (modSups f s).saf = s.saf ∧
    (modSups f s).ha = s.ha ∧
    (modSups f s).hb = s.hb ∧
    (modSups f s).pmc = s.pmc ∧
    (modSups f s).dev = s.dev ∧
    (modSups f s).img = s.img ∧
    (modSups f s).flt = s.flt ∧
    (modSups f s).pins = s.pins ∧
    (modSups f s).shown = s.shown ∧
    (modSups f s).free = s.free ∧
    (modSups f s).pending = s.pending := by
  exact ⟨rfl, rfl, rfl, rfl, rfl, rfl, rfl, rfl, rfl, rfl, rfl, rfl, rfl, rfl, rfl, rfl, rfl, rfl, rfl⟩

theorem switchBanks_keeps (s : State) :
    (switchBanks s).bell = s.bell ∧
    (switchBanks s).frame = s.frame ∧
    (switchBanks s).ports = s.ports ∧
    (switchBanks s).rings = s.rings ∧
    (switchBanks s).gn8s = s.gn8s ∧
    (switchBanks s).heads = s.heads ∧
    (switchBanks s).engs = s.engs ∧
    (switchBanks s).sup = s.sup ∧
    (switchBanks s).saf = s.saf ∧
    (switchBanks s).ha = s.ha ∧
    (switchBanks s).hb = s.hb ∧
    (switchBanks s).pmc = s.pmc ∧
    (switchBanks s).dev = s.dev ∧
    (switchBanks s).img = s.img ∧
    (switchBanks s).flt = s.flt ∧
    (switchBanks s).pins = s.pins ∧
    (switchBanks s).shown = s.shown ∧
    (switchBanks s).free = s.free ∧
    (switchBanks s).pending = s.pending := by
  exact ⟨rfl, rfl, rfl, rfl, rfl, rfl, rfl, rfl, rfl, rfl, rfl, rfl, rfl, rfl, rfl, rfl, rfl, rfl, rfl⟩

theorem setFltReg_keeps (cls ix : Nat) (v : Word) (s : State) :
    (setFltReg cls ix v s).bell = s.bell ∧
    (setFltReg cls ix v s).frame = s.frame ∧
    (setFltReg cls ix v s).ports = s.ports ∧
    (setFltReg cls ix v s).rings = s.rings ∧
    (setFltReg cls ix v s).gn8s = s.gn8s ∧
    (setFltReg cls ix v s).heads = s.heads ∧
    (setFltReg cls ix v s).man = s.man ∧
    (setFltReg cls ix v s).engs = s.engs ∧
    (setFltReg cls ix v s).sup = s.sup ∧
    (setFltReg cls ix v s).saf = s.saf ∧
    (setFltReg cls ix v s).ha = s.ha ∧
    (setFltReg cls ix v s).hb = s.hb ∧
    (setFltReg cls ix v s).pmc = s.pmc ∧
    (setFltReg cls ix v s).dev = s.dev ∧
    (setFltReg cls ix v s).img = s.img ∧
    (setFltReg cls ix v s).pins = s.pins ∧
    (setFltReg cls ix v s).shown = s.shown ∧
    (setFltReg cls ix v s).free = s.free ∧
    (setFltReg cls ix v s).pending = s.pending := by
  exact ⟨rfl, rfl, rfl, rfl, rfl, rfl, rfl, rfl, rfl, rfl, rfl, rfl, rfl, rfl, rfl, rfl, rfl, rfl, rfl⟩

theorem clearFlt_keeps (cls ix : Nat) (mask : Word) (s : State) :
    (clearFlt cls ix mask s).bell = s.bell ∧
    (clearFlt cls ix mask s).frame = s.frame ∧
    (clearFlt cls ix mask s).ports = s.ports ∧
    (clearFlt cls ix mask s).rings = s.rings ∧
    (clearFlt cls ix mask s).gn8s = s.gn8s ∧
    (clearFlt cls ix mask s).heads = s.heads ∧
    (clearFlt cls ix mask s).man = s.man ∧
    (clearFlt cls ix mask s).engs = s.engs ∧
    (clearFlt cls ix mask s).sup = s.sup ∧
    (clearFlt cls ix mask s).saf = s.saf ∧
    (clearFlt cls ix mask s).ha = s.ha ∧
    (clearFlt cls ix mask s).hb = s.hb ∧
    (clearFlt cls ix mask s).pmc = s.pmc ∧
    (clearFlt cls ix mask s).dev = s.dev ∧
    (clearFlt cls ix mask s).img = s.img ∧
    (clearFlt cls ix mask s).pins = s.pins ∧
    (clearFlt cls ix mask s).shown = s.shown ∧
    (clearFlt cls ix mask s).free = s.free ∧
    (clearFlt cls ix mask s).pending = s.pending := by
  exact ⟨rfl, rfl, rfl, rfl, rfl, rfl, rfl, rfl, rfl, rfl, rfl, rfl, rfl, rfl, rfl, rfl, rfl, rfl, rfl⟩

theorem noteEvent_keeps (cls ix bit : Nat) (s : State) :
    (noteEvent cls ix bit s).bell = s.bell ∧
    (noteEvent cls ix bit s).frame = s.frame ∧
    (noteEvent cls ix bit s).ports = s.ports ∧
    (noteEvent cls ix bit s).rings = s.rings ∧
    (noteEvent cls ix bit s).gn8s = s.gn8s ∧
    (noteEvent cls ix bit s).heads = s.heads ∧
    (noteEvent cls ix bit s).man = s.man ∧
    (noteEvent cls ix bit s).engs = s.engs ∧
    (noteEvent cls ix bit s).sup = s.sup ∧
    (noteEvent cls ix bit s).saf = s.saf ∧
    (noteEvent cls ix bit s).ha = s.ha ∧
    (noteEvent cls ix bit s).hb = s.hb ∧
    (noteEvent cls ix bit s).pmc = s.pmc ∧
    (noteEvent cls ix bit s).dev = s.dev ∧
    (noteEvent cls ix bit s).img = s.img ∧
    (noteEvent cls ix bit s).pins = s.pins ∧
    (noteEvent cls ix bit s).shown = s.shown ∧
    (noteEvent cls ix bit s).free = s.free ∧
    (noteEvent cls ix bit s).pending = s.pending := by
  exact ⟨rfl, rfl, rfl, rfl, rfl, rfl, rfl, rfl, rfl, rfl, rfl, rfl, rfl, rfl, rfl, rfl, rfl, rfl, rfl⟩

theorem sendReport_keeps (cls ix bit : Nat) (s : State) :
    (sendReport cls ix bit s).bell = s.bell ∧
    (sendReport cls ix bit s).frame = s.frame ∧
    (sendReport cls ix bit s).ports = s.ports ∧
    (sendReport cls ix bit s).rings = s.rings ∧
    (sendReport cls ix bit s).gn8s = s.gn8s ∧
    (sendReport cls ix bit s).heads = s.heads ∧
    (sendReport cls ix bit s).man = s.man ∧
    (sendReport cls ix bit s).engs = s.engs ∧
    (sendReport cls ix bit s).sup = s.sup ∧
    (sendReport cls ix bit s).saf = s.saf ∧
    (sendReport cls ix bit s).ha = s.ha ∧
    (sendReport cls ix bit s).hb = s.hb ∧
    (sendReport cls ix bit s).pmc = s.pmc ∧
    (sendReport cls ix bit s).dev = s.dev ∧
    (sendReport cls ix bit s).img = s.img ∧
    (sendReport cls ix bit s).pins = s.pins ∧
    (sendReport cls ix bit s).shown = s.shown ∧
    (sendReport cls ix bit s).free = s.free ∧
    (sendReport cls ix bit s).pending = s.pending := by
  exact ⟨rfl, rfl, rfl, rfl, rfl, rfl, rfl, rfl, rfl, rfl, rfl, rfl, rfl, rfl, rfl, rfl, rfl, rfl, rfl⟩

theorem deliver_keeps (s : State) :
    (deliver s).bell = s.bell ∧
    (deliver s).frame = s.frame ∧
    (deliver s).ports = s.ports ∧
    (deliver s).rings = s.rings ∧
    (deliver s).gn8s = s.gn8s ∧
    (deliver s).heads = s.heads ∧
    (deliver s).man = s.man ∧
    (deliver s).engs = s.engs ∧
    (deliver s).sup = s.sup ∧
    (deliver s).saf = s.saf ∧
    (deliver s).ha = s.ha ∧
    (deliver s).hb = s.hb ∧
    (deliver s).pmc = s.pmc ∧
    (deliver s).dev = s.dev ∧
    (deliver s).img = s.img ∧
    (deliver s).pins = s.pins ∧
    (deliver s).shown = s.shown ∧
    (deliver s).free = s.free ∧
    (deliver s).pending = s.pending := by
  exact ⟨rfl, rfl, rfl, rfl, rfl, rfl, rfl, rfl, rfl, rfl, rfl, rfl, rfl, rfl, rfl, rfl, rfl, rfl, rfl⟩

theorem settle_keeps (s : State) :
    (settle s).bell = s.bell ∧
    (settle s).frame = s.frame ∧
    (settle s).ports = s.ports ∧
    (settle s).rings = s.rings ∧
    (settle s).gn8s = s.gn8s ∧
    (settle s).heads = s.heads ∧
    (settle s).man = s.man ∧
    (settle s).engs = s.engs ∧
    (settle s).sup = s.sup ∧
    (settle s).saf = s.saf ∧
    (settle s).ha = s.ha ∧
    (settle s).hb = s.hb ∧
    (settle s).pmc = s.pmc ∧
    (settle s).dev = s.dev ∧
    (settle s).img = s.img ∧
    (settle s).pins = s.pins ∧
    (settle s).shown = s.shown ∧
    (settle s).free = s.free ∧
    (settle s).pending = s.pending := by
  exact ⟨rfl, rfl, rfl, rfl, rfl, rfl, rfl, rfl, rfl, rfl, rfl, rfl, rfl, rfl, rfl, rfl, rfl, rfl, rfl⟩

theorem raiseAt_keeps (p : HostId) (v : Nat) (s : State) :
    (raiseAt p v s).bell = s.bell ∧
    (raiseAt p v s).frame = s.frame ∧
    (raiseAt p v s).ports = s.ports ∧
    (raiseAt p v s).rings = s.rings ∧
    (raiseAt p v s).gn8s = s.gn8s ∧
    (raiseAt p v s).heads = s.heads ∧
    (raiseAt p v s).man = s.man ∧
    (raiseAt p v s).engs = s.engs ∧
    (raiseAt p v s).sup = s.sup ∧
    (raiseAt p v s).saf = s.saf ∧
    (raiseAt p v s).pmc = s.pmc ∧
    (raiseAt p v s).dev = s.dev ∧
    (raiseAt p v s).img = s.img ∧
    (raiseAt p v s).pins = s.pins ∧
    (raiseAt p v s).shown = s.shown ∧
    (raiseAt p v s).free = s.free ∧
    (raiseAt p v s).pending = s.pending := by
  unfold raiseAt
  simp [sendReport_keeps, noteEvent_keeps, setHost_keeps]

theorem raiseBoth_keeps (v : Nat) (s : State) :
    (raiseBoth v s).bell = s.bell ∧
    (raiseBoth v s).frame = s.frame ∧
    (raiseBoth v s).ports = s.ports ∧
    (raiseBoth v s).rings = s.rings ∧
    (raiseBoth v s).gn8s = s.gn8s ∧
    (raiseBoth v s).heads = s.heads ∧
    (raiseBoth v s).man = s.man ∧
    (raiseBoth v s).engs = s.engs ∧
    (raiseBoth v s).sup = s.sup ∧
    (raiseBoth v s).saf = s.saf ∧
    (raiseBoth v s).pmc = s.pmc ∧
    (raiseBoth v s).dev = s.dev ∧
    (raiseBoth v s).img = s.img ∧
    (raiseBoth v s).pins = s.pins ∧
    (raiseBoth v s).shown = s.shown ∧
    (raiseBoth v s).free = s.free ∧
    (raiseBoth v s).pending = s.pending := by
  unfold raiseBoth
  simp [raiseAt_keeps]

theorem sticky_keeps (cls ix bit : Nat) (s : State) :
    (sticky cls ix bit s).bell = s.bell ∧
    (sticky cls ix bit s).frame = s.frame ∧
    (sticky cls ix bit s).ports = s.ports ∧
    (sticky cls ix bit s).rings = s.rings ∧
    (sticky cls ix bit s).gn8s = s.gn8s ∧
    (sticky cls ix bit s).heads = s.heads ∧
    (sticky cls ix bit s).man = s.man ∧
    (sticky cls ix bit s).engs = s.engs ∧
    (sticky cls ix bit s).sup = s.sup ∧
    (sticky cls ix bit s).saf = s.saf ∧
    (sticky cls ix bit s).pmc = s.pmc ∧
    (sticky cls ix bit s).dev = s.dev ∧
    (sticky cls ix bit s).img = s.img ∧
    (sticky cls ix bit s).pins = s.pins ∧
    (sticky cls ix bit s).shown = s.shown ∧
    (sticky cls ix bit s).free = s.free ∧
    (sticky cls ix bit s).pending = s.pending := by
  unfold sticky
  simp [setFltReg_keeps, sendReport_keeps, raiseBoth_keeps, noteEvent_keeps]

theorem stickyIf_keeps (c : Bool) (cls ix bit : Nat) (s : State) :
    (stickyIf c cls ix bit s).bell = s.bell ∧
    (stickyIf c cls ix bit s).frame = s.frame ∧
    (stickyIf c cls ix bit s).ports = s.ports ∧
    (stickyIf c cls ix bit s).rings = s.rings ∧
    (stickyIf c cls ix bit s).gn8s = s.gn8s ∧
    (stickyIf c cls ix bit s).heads = s.heads ∧
    (stickyIf c cls ix bit s).man = s.man ∧
    (stickyIf c cls ix bit s).engs = s.engs ∧
    (stickyIf c cls ix bit s).sup = s.sup ∧
    (stickyIf c cls ix bit s).saf = s.saf ∧
    (stickyIf c cls ix bit s).pmc = s.pmc ∧
    (stickyIf c cls ix bit s).dev = s.dev ∧
    (stickyIf c cls ix bit s).img = s.img ∧
    (stickyIf c cls ix bit s).pins = s.pins ∧
    (stickyIf c cls ix bit s).shown = s.shown ∧
    (stickyIf c cls ix bit s).free = s.free ∧
    (stickyIf c cls ix bit s).pending = s.pending := by
  unfold stickyIf
  simp [sticky_keeps]

theorem drawFree_keeps (s : State) :
    (drawFree s).bell = s.bell ∧
    (drawFree s).frame = s.frame ∧
    (drawFree s).ports = s.ports ∧
    (drawFree s).rings = s.rings ∧
    (drawFree s).gn8s = s.gn8s ∧
    (drawFree s).heads = s.heads ∧
    (drawFree s).man = s.man ∧
    (drawFree s).engs = s.engs ∧
    (drawFree s).sup = s.sup ∧
    (drawFree s).saf = s.saf ∧
    (drawFree s).ha = s.ha ∧
    (drawFree s).hb = s.hb ∧
    (drawFree s).pmc = s.pmc ∧
    (drawFree s).dev = s.dev ∧
    (drawFree s).img = s.img ∧
    (drawFree s).flt = s.flt ∧
    (drawFree s).pins = s.pins ∧
    (drawFree s).shown = s.shown ∧
    (drawFree s).pending = s.pending := by
  exact ⟨rfl, rfl, rfl, rfl, rfl, rfl, rfl, rfl, rfl, rfl, rfl, rfl, rfl, rfl, rfl, rfl, rfl, rfl, rfl⟩

theorem lockGroup_keeps (g : Nat) (bits : List Nat) (s : State) :
    (lockGroup g bits s).bell = s.bell ∧
    (lockGroup g bits s).frame = s.frame ∧
    (lockGroup g bits s).ports = s.ports ∧
    (lockGroup g bits s).rings = s.rings ∧
    (lockGroup g bits s).gn8s = s.gn8s ∧
    (lockGroup g bits s).heads = s.heads ∧
    (lockGroup g bits s).man = s.man ∧
    (lockGroup g bits s).engs = s.engs ∧
    (lockGroup g bits s).sup = s.sup ∧
    (lockGroup g bits s).pmc = s.pmc ∧
    (lockGroup g bits s).dev = s.dev ∧
    (lockGroup g bits s).img = s.img ∧
    (lockGroup g bits s).pins = s.pins ∧
    (lockGroup g bits s).shown = s.shown ∧
    (lockGroup g bits s).free = s.free ∧
    (lockGroup g bits s).pending = s.pending := by
  unfold lockGroup
  simp [sticky_keeps, modGrp_keeps]

theorem lockAll_keeps (bits : List Nat) (s : State) :
    (lockAll bits s).bell = s.bell ∧
    (lockAll bits s).frame = s.frame ∧
    (lockAll bits s).ports = s.ports ∧
    (lockAll bits s).rings = s.rings ∧
    (lockAll bits s).gn8s = s.gn8s ∧
    (lockAll bits s).heads = s.heads ∧
    (lockAll bits s).man = s.man ∧
    (lockAll bits s).engs = s.engs ∧
    (lockAll bits s).sup = s.sup ∧
    (lockAll bits s).pmc = s.pmc ∧
    (lockAll bits s).dev = s.dev ∧
    (lockAll bits s).img = s.img ∧
    (lockAll bits s).pins = s.pins ∧
    (lockAll bits s).shown = s.shown ∧
    (lockAll bits s).free = s.free ∧
    (lockAll bits s).pending = s.pending := by
  unfold lockAll
  simp [lockGroup_keeps]

theorem lateReports_keeps (now : Bell) (s : State) :
    (lateReports now s).bell = s.bell ∧
    (lateReports now s).frame = s.frame ∧
    (lateReports now s).ports = s.ports ∧
    (lateReports now s).rings = s.rings ∧
    (lateReports now s).gn8s = s.gn8s ∧
    (lateReports now s).heads = s.heads ∧
    (lateReports now s).man = s.man ∧
    (lateReports now s).engs = s.engs ∧
    (lateReports now s).sup = s.sup ∧
    (lateReports now s).saf = s.saf ∧
    (lateReports now s).ha = s.ha ∧
    (lateReports now s).hb = s.hb ∧
    (lateReports now s).pmc = s.pmc ∧
    (lateReports now s).dev = s.dev ∧
    (lateReports now s).img = s.img ∧
    (lateReports now s).pins = s.pins ∧
    (lateReports now s).shown = s.shown ∧
    (lateReports now s).free = s.free ∧
    (lateReports now s).pending = s.pending := by
  exact ⟨rfl, rfl, rfl, rfl, rfl, rfl, rfl, rfl, rfl, rfl, rfl, rfl, rfl, rfl, rfl, rfl, rfl, rfl, rfl⟩

theorem enterSafe_keeps (cause : Nat) (s : State) :
    (enterSafe cause s).bell = s.bell ∧
    (enterSafe cause s).frame = s.frame ∧
    (enterSafe cause s).rings = s.rings ∧
    (enterSafe cause s).gn8s = s.gn8s ∧
    (enterSafe cause s).heads = s.heads ∧
    (enterSafe cause s).man = s.man ∧
    (enterSafe cause s).engs = s.engs ∧
    (enterSafe cause s).sup = s.sup ∧
    (enterSafe cause s).pmc = s.pmc ∧
    (enterSafe cause s).img = s.img ∧
    (enterSafe cause s).pins = s.pins ∧
    (enterSafe cause s).shown = s.shown ∧
    (enterSafe cause s).free = s.free ∧
    (enterSafe cause s).pending = s.pending := by
  unfold enterSafe
  simp [setPort_keeps, lockAll_keeps, lateReports_keeps, sticky_keeps, deliver_keeps]

theorem setMode_keeps (m : Mode) (s : State) :
    (setMode m s).bell = s.bell ∧
    (setMode m s).frame = s.frame ∧
    (setMode m s).ports = s.ports ∧
    (setMode m s).rings = s.rings ∧
    (setMode m s).gn8s = s.gn8s ∧
    (setMode m s).heads = s.heads ∧
    (setMode m s).man = s.man ∧
    (setMode m s).engs = s.engs ∧
    (setMode m s).sup = s.sup ∧
    (setMode m s).saf = s.saf ∧
    (setMode m s).pmc = s.pmc ∧
    (setMode m s).img = s.img ∧
    (setMode m s).pins = s.pins ∧
    (setMode m s).shown = s.shown ∧
    (setMode m s).free = s.free ∧
    (setMode m s).pending = s.pending := by
  unfold setMode
  simp [raiseBoth_keeps]

theorem enterLockout_keeps (s : State) :
    (enterLockout s).bell = s.bell ∧
    (enterLockout s).frame = s.frame ∧
    (enterLockout s).ports = s.ports ∧
    (enterLockout s).rings = s.rings ∧
    (enterLockout s).gn8s = s.gn8s ∧
    (enterLockout s).heads = s.heads ∧
    (enterLockout s).man = s.man ∧
    (enterLockout s).engs = s.engs ∧
    (enterLockout s).sup = s.sup ∧
    (enterLockout s).pmc = s.pmc ∧
    (enterLockout s).img = s.img ∧
    (enterLockout s).pins = s.pins ∧
    (enterLockout s).shown = s.shown ∧
    (enterLockout s).free = s.free ∧
    (enterLockout s).pending = s.pending := by
  unfold enterLockout
  (repeat' split) <;> simp [setMode_keeps, sticky_keeps, lockAll_keeps]

end Sys2Proof.Machine
end

