-- ==== Sys2Proof/Laws/FrameShadow.lean ====
section
/-! SUPPORT. What each operation of Shadow.lean leaves unchanged. -/

namespace Sys2Proof.Machine



end Sys2Proof.Machine
end

