-- ==== Sys2Proof/Laws/FrameBell.lean ====
section
/-! SUPPORT. What each operation of Bell.lean (bell) leaves unchanged. -/

namespace Sys2Proof.Machine

theorem startSsTimer_keeps (s : State) :
    (startSsTimer s).frame = s.frame ∧
    (startSsTimer s).ports = s.ports ∧
    (startSsTimer s).rings = s.rings ∧
    (startSsTimer s).gn8s = s.gn8s ∧
    (startSsTimer s).heads = s.heads ∧
    (startSsTimer s).man = s.man ∧
    (startSsTimer s).engs = s.engs ∧
    (startSsTimer s).sup = s.sup ∧
    (startSsTimer s).saf = s.saf ∧
    (startSsTimer s).ha = s.ha ∧
    (startSsTimer s).hb = s.hb ∧
    (startSsTimer s).pmc = s.pmc ∧
    (startSsTimer s).dev = s.dev ∧
    (startSsTimer s).img = s.img ∧
    (startSsTimer s).flt = s.flt ∧
    (startSsTimer s).pins = s.pins ∧
    (startSsTimer s).shown = s.shown ∧
    (startSsTimer s).free = s.free ∧
    (startSsTimer s).pending = s.pending := by
  unfold startSsTimer
  (repeat' split) <;> simp []

theorem clearSsTimer_keeps (s : State) :
    (clearSsTimer s).frame = s.frame ∧
    (clearSsTimer s).ports = s.ports ∧
    (clearSsTimer s).rings = s.rings ∧
    (clearSsTimer s).gn8s = s.gn8s ∧
    (clearSsTimer s).heads = s.heads ∧
    (clearSsTimer s).man = s.man ∧
    (clearSsTimer s).engs = s.engs ∧
    (clearSsTimer s).sup = s.sup ∧
    (clearSsTimer s).saf = s.saf ∧
    (clearSsTimer s).ha = s.ha ∧
    (clearSsTimer s).hb = s.hb ∧
    (clearSsTimer s).pmc = s.pmc ∧
    (clearSsTimer s).dev = s.dev ∧
    (clearSsTimer s).img = s.img ∧
    (clearSsTimer s).flt = s.flt ∧
    (clearSsTimer s).pins = s.pins ∧
    (clearSsTimer s).shown = s.shown ∧
    (clearSsTimer s).free = s.free ∧
    (clearSsTimer s).pending = s.pending := by
  unfold clearSsTimer
  simp []

theorem shiftRefs_keeps (δ : Bell) (s : State) :
    (shiftRefs δ s).frame = s.frame ∧
    (shiftRefs δ s).ports = s.ports ∧
    (shiftRefs δ s).rings = s.rings ∧
    (shiftRefs δ s).gn8s = s.gn8s ∧
    (shiftRefs δ s).heads = s.heads ∧
    (shiftRefs δ s).man = s.man ∧
    (shiftRefs δ s).engs = s.engs ∧
    (shiftRefs δ s).sup = s.sup ∧
    (shiftRefs δ s).ha = s.ha ∧
    (shiftRefs δ s).hb = s.hb ∧
    (shiftRefs δ s).dev = s.dev ∧
    (shiftRefs δ s).flt = s.flt ∧
    (shiftRefs δ s).pins = s.pins ∧
    (shiftRefs δ s).shown = s.shown ∧
    (shiftRefs δ s).free = s.free ∧
    (shiftRefs δ s).pending = s.pending := by
  exact ⟨rfl, rfl, rfl, rfl, rfl, rfl, rfl, rfl, rfl, rfl, rfl, rfl, rfl, rfl, rfl, rfl⟩

theorem takePreset_keeps (pps : Bool) (s : State) :
    (takePreset pps s).frame = s.frame ∧
    (takePreset pps s).ports = s.ports ∧
    (takePreset pps s).rings = s.rings ∧
    (takePreset pps s).gn8s = s.gn8s ∧
    (takePreset pps s).heads = s.heads ∧
    (takePreset pps s).man = s.man ∧
    (takePreset pps s).engs = s.engs ∧
    (takePreset pps s).sup = s.sup ∧
    (takePreset pps s).ha = s.ha ∧
    (takePreset pps s).hb = s.hb ∧
    (takePreset pps s).dev = s.dev ∧
    (takePreset pps s).flt = s.flt ∧
    (takePreset pps s).pins = s.pins ∧
    (takePreset pps s).shown = s.shown ∧
    (takePreset pps s).free = s.free ∧
    (takePreset pps s).pending = s.pending := by
  exact ⟨rfl, rfl, rfl, rfl, rfl, rfl, rfl, rfl, rfl, rfl, rfl, rfl, rfl, rfl, rfl, rfl⟩

theorem execRefMeasure_keeps (t : Side) (dev : Int) (missing : Bool) (s : State) (u : State)
  (h : execRefMeasure t dev missing s = .next u) :
    u.frame = s.frame ∧
    u.ports = s.ports ∧
    u.rings = s.rings ∧
    u.gn8s = s.gn8s ∧
    u.heads = s.heads ∧
    u.man = s.man ∧
    u.engs = s.engs ∧
    u.sup = s.sup ∧
    u.saf = s.saf ∧
    u.pmc = s.pmc ∧
    u.dev = s.dev ∧
    u.img = s.img ∧
    u.pins = s.pins ∧
    u.shown = s.shown ∧
    u.pending = s.pending := by
  unfold execRefMeasure at h
  (repeat' split at h) <;> (injection h with h; subst h; simp [drawFree_keeps, stickyIf_keeps])

theorem addTicks_keeps (n : Nat) (s0 : State) :
    (addTicks n s0).frame = s0.frame ∧
    (addTicks n s0).rings = s0.rings ∧
    (addTicks n s0).gn8s = s0.gn8s ∧
    (addTicks n s0).heads = s0.heads ∧
    (addTicks n s0).man = s0.man ∧
    (addTicks n s0).engs = s0.engs ∧
    (addTicks n s0).sup = s0.sup ∧
    (addTicks n s0).saf = s0.saf ∧
    (addTicks n s0).ha = s0.ha ∧
    (addTicks n s0).hb = s0.hb ∧
    (addTicks n s0).pmc = s0.pmc ∧
    (addTicks n s0).dev = s0.dev ∧
    (addTicks n s0).img = s0.img ∧
    (addTicks n s0).pins = s0.pins ∧
    (addTicks n s0).shown = s0.shown ∧
    (addTicks n s0).free = s0.free ∧
    (addTicks n s0).pending = s0.pending := by
  unfold addTicks
  simp [settle_keeps]

theorem enterHoldover_keeps (s : State) :
    (enterHoldover s).frame = s.frame ∧
    (enterHoldover s).ports = s.ports ∧
    (enterHoldover s).rings = s.rings ∧
    (enterHoldover s).gn8s = s.gn8s ∧
    (enterHoldover s).heads = s.heads ∧
    (enterHoldover s).man = s.man ∧
    (enterHoldover s).engs = s.engs ∧
    (enterHoldover s).sup = s.sup ∧
    (enterHoldover s).saf = s.saf ∧
    (enterHoldover s).pmc = s.pmc ∧
    (enterHoldover s).dev = s.dev ∧
    (enterHoldover s).img = s.img ∧
    (enterHoldover s).pins = s.pins ∧
    (enterHoldover s).shown = s.shown ∧
    (enterHoldover s).free = s.free ∧
    (enterHoldover s).pending = s.pending := by
  unfold enterHoldover
  simp [sticky_keeps, startSsTimer_keeps]

theorem execHoldoverExit_keeps (s : State) (u : State) (h : execHoldoverExit s = .next u) :
    u.frame = s.frame ∧
    u.ports = s.ports ∧
    u.rings = s.rings ∧
    u.gn8s = s.gn8s ∧
    u.heads = s.heads ∧
    u.man = s.man ∧
    u.engs = s.engs ∧
    u.sup = s.sup ∧
    u.saf = s.saf ∧
    u.ha = s.ha ∧
    u.hb = s.hb ∧
    u.pmc = s.pmc ∧
    u.dev = s.dev ∧
    u.img = s.img ∧
    u.flt = s.flt ∧
    u.pins = s.pins ∧
    u.shown = s.shown ∧
    u.free = s.free ∧
    u.pending = s.pending := by
  unfold execHoldoverExit at h
  (repeat' split at h) <;> (injection h with h; subst h; simp [startSsTimer_keeps])

theorem holdoverExitTick_keeps (s : State) :
    (holdoverExitTick s).frame = s.frame ∧
    (holdoverExitTick s).ports = s.ports ∧
    (holdoverExitTick s).rings = s.rings ∧
    (holdoverExitTick s).gn8s = s.gn8s ∧
    (holdoverExitTick s).heads = s.heads ∧
    (holdoverExitTick s).man = s.man ∧
    (holdoverExitTick s).engs = s.engs ∧
    (holdoverExitTick s).sup = s.sup ∧
    (holdoverExitTick s).saf = s.saf ∧
    (holdoverExitTick s).ha = s.ha ∧
    (holdoverExitTick s).hb = s.hb ∧
    (holdoverExitTick s).pmc = s.pmc ∧
    (holdoverExitTick s).dev = s.dev ∧
    (holdoverExitTick s).img = s.img ∧
    (holdoverExitTick s).flt = s.flt ∧
    (holdoverExitTick s).pins = s.pins ∧
    (holdoverExitTick s).shown = s.shown ∧
    (holdoverExitTick s).free = s.free ∧
    (holdoverExitTick s).pending = s.pending := by
  unfold holdoverExitTick
  simp [clearSsTimer_keeps]

theorem execSafeStopTimerExpiry_keeps (s : State) (u : State) (h : execSafeStopTimerExpiry s = .next u) :
    u.frame = s.frame ∧
    u.ports = s.ports ∧
    u.rings = s.rings ∧
    u.gn8s = s.gn8s ∧
    u.heads = s.heads ∧
    u.man = s.man ∧
    u.engs = s.engs ∧
    u.sup = s.sup ∧
    u.saf = s.saf ∧
    u.pmc = s.pmc ∧
    u.dev = s.dev ∧
    u.img = s.img ∧
    u.pins = s.pins ∧
    u.shown = s.shown ∧
    u.free = s.free ∧
    u.pending = s.pending := by
  unfold execSafeStopTimerExpiry at h
  (repeat' split at h) <;> (injection h with h; subst h; simp [sticky_keeps])

theorem singleTree_keeps (s : State) :
    (singleTree s).frame = s.frame ∧
    (singleTree s).ports = s.ports ∧
    (singleTree s).rings = s.rings ∧
    (singleTree s).gn8s = s.gn8s ∧
    (singleTree s).heads = s.heads ∧
    (singleTree s).man = s.man ∧
    (singleTree s).engs = s.engs ∧
    (singleTree s).sup = s.sup ∧
    (singleTree s).saf = s.saf ∧
    (singleTree s).ha = s.ha ∧
    (singleTree s).hb = s.hb ∧
    (singleTree s).pmc = s.pmc ∧
    (singleTree s).dev = s.dev ∧
    (singleTree s).img = s.img ∧
    (singleTree s).flt = s.flt ∧
    (singleTree s).pins = s.pins ∧
    (singleTree s).shown = s.shown ∧
    (singleTree s).free = s.free ∧
    (singleTree s).pending = s.pending := by
  unfold singleTree
  simp [startSsTimer_keeps]

theorem treeOut_keeps (t : Side) (s : State) :
    (treeOut t s).frame = s.frame ∧
    (treeOut t s).ports = s.ports ∧
    (treeOut t s).rings = s.rings ∧
    (treeOut t s).gn8s = s.gn8s ∧
    (treeOut t s).heads = s.heads ∧
    (treeOut t s).man = s.man ∧
    (treeOut t s).engs = s.engs ∧
    (treeOut t s).sup = s.sup ∧
    (treeOut t s).saf = s.saf ∧
    (treeOut t s).pmc = s.pmc ∧
    (treeOut t s).dev = s.dev ∧
    (treeOut t s).img = s.img ∧
    (treeOut t s).pins = s.pins ∧
    (treeOut t s).shown = s.shown ∧
    (treeOut t s).free = s.free ∧
    (treeOut t s).pending = s.pending := by
  unfold treeOut
  dsimp only
  (repeat' split) <;> simp [sticky_keeps, singleTree_keeps]

theorem treeDecision_keeps (aFault bFault : Bool) (s : State) :
    (treeDecision aFault bFault s).frame = s.frame ∧
    (treeDecision aFault bFault s).rings = s.rings ∧
    (treeDecision aFault bFault s).gn8s = s.gn8s ∧
    (treeDecision aFault bFault s).heads = s.heads ∧
    (treeDecision aFault bFault s).man = s.man ∧
    (treeDecision aFault bFault s).engs = s.engs ∧
    (treeDecision aFault bFault s).sup = s.sup ∧
    (treeDecision aFault bFault s).pmc = s.pmc ∧
    (treeDecision aFault bFault s).img = s.img ∧
    (treeDecision aFault bFault s).pins = s.pins ∧
    (treeDecision aFault bFault s).shown = s.shown ∧
    (treeDecision aFault bFault s).free = s.free ∧
    (treeDecision aFault bFault s).pending = s.pending := by
  unfold treeDecision
  (repeat' split) <;> simp [enterSafe_keeps, treeOut_keeps]

theorem execTreeDisagreement_keeps (aFault bFault : Bool) (s : State) (u : State)
  (h : execTreeDisagreement aFault bFault s = .next u) :
    u.frame = s.frame ∧
    u.rings = s.rings ∧
    u.gn8s = s.gn8s ∧
    u.heads = s.heads ∧
    u.man = s.man ∧
    u.engs = s.engs ∧
    u.sup = s.sup ∧
    u.pmc = s.pmc ∧
    u.img = s.img ∧
    u.pins = s.pins ∧
    u.shown = s.shown ∧
    u.free = s.free ∧
    u.pending = s.pending := by
  injection h with h
  subst h
  simp [sticky_keeps, treeDecision_keeps]

theorem treeCheck_keeps (skew : Option Nat) (s : State) :
    (treeCheck skew s).frame = s.frame ∧
    (treeCheck skew s).rings = s.rings ∧
    (treeCheck skew s).gn8s = s.gn8s ∧
    (treeCheck skew s).heads = s.heads ∧
    (treeCheck skew s).man = s.man ∧
    (treeCheck skew s).engs = s.engs ∧
    (treeCheck skew s).sup = s.sup ∧
    (treeCheck skew s).pmc = s.pmc ∧
    (treeCheck skew s).img = s.img ∧
    (treeCheck skew s).pins = s.pins ∧
    (treeCheck skew s).shown = s.shown ∧
    (treeCheck skew s).free = s.free ∧
    (treeCheck skew s).pending = s.pending := by
  unfold treeCheck
  simp [sticky_keeps, treeDecision_keeps]

theorem stampPps_keeps (s : State) :
    (stampPps s).frame = s.frame ∧
    (stampPps s).ports = s.ports ∧
    (stampPps s).rings = s.rings ∧
    (stampPps s).gn8s = s.gn8s ∧
    (stampPps s).heads = s.heads ∧
    (stampPps s).man = s.man ∧
    (stampPps s).engs = s.engs ∧
    (stampPps s).sup = s.sup ∧
    (stampPps s).saf = s.saf ∧
    (stampPps s).pmc = s.pmc ∧
    (stampPps s).dev = s.dev ∧
    (stampPps s).img = s.img ∧
    (stampPps s).pins = s.pins ∧
    (stampPps s).shown = s.shown ∧
    (stampPps s).free = s.free ∧
    (stampPps s).pending = s.pending := by
  unfold stampPps
  simp [stickyIf_keeps]

theorem execPpsSeenExpiry_keeps (s : State) (u : State) (h : execPpsSeenExpiry s = .next u) :
    u.frame = s.frame ∧
    u.ports = s.ports ∧
    u.rings = s.rings ∧
    u.gn8s = s.gn8s ∧
    u.heads = s.heads ∧
    u.man = s.man ∧
    u.engs = s.engs ∧
    u.sup = s.sup ∧
    u.saf = s.saf ∧
    u.ha = s.ha ∧
    u.hb = s.hb ∧
    u.pmc = s.pmc ∧
    u.dev = s.dev ∧
    u.img = s.img ∧
    u.flt = s.flt ∧
    u.pins = s.pins ∧
    u.shown = s.shown ∧
    u.free = s.free ∧
    u.pending = s.pending := by
  unfold execPpsSeenExpiry at h
  (repeat' split at h) <;> (injection h with h; subst h; simp)

theorem setLoad_keeps (s : State) :
    (setLoad s).frame = s.frame ∧
    (setLoad s).ports = s.ports ∧
    (setLoad s).rings = s.rings ∧
    (setLoad s).gn8s = s.gn8s ∧
    (setLoad s).heads = s.heads ∧
    (setLoad s).man = s.man ∧
    (setLoad s).engs = s.engs ∧
    (setLoad s).sup = s.sup ∧
    (setLoad s).saf = s.saf ∧
    (setLoad s).ha = s.ha ∧
    (setLoad s).hb = s.hb ∧
    (setLoad s).pmc = s.pmc ∧
    (setLoad s).dev = s.dev ∧
    (setLoad s).img = s.img ∧
    (setLoad s).flt = s.flt ∧
    (setLoad s).pins = s.pins ∧
    (setLoad s).shown = s.shown ∧
    (setLoad s).free = s.free ∧
    (setLoad s).pending = s.pending := by
  exact ⟨rfl, rfl, rfl, rfl, rfl, rfl, rfl, rfl, rfl, rfl, rfl, rfl, rfl, rfl, rfl, rfl, rfl, rfl, rfl⟩

theorem setLoadPps_keeps (s : State) :
    (setLoadPps s).frame = s.frame ∧
    (setLoadPps s).ports = s.ports ∧
    (setLoadPps s).rings = s.rings ∧
    (setLoadPps s).gn8s = s.gn8s ∧
    (setLoadPps s).heads = s.heads ∧
    (setLoadPps s).man = s.man ∧
    (setLoadPps s).engs = s.engs ∧
    (setLoadPps s).sup = s.sup ∧
    (setLoadPps s).saf = s.saf ∧
    (setLoadPps s).ha = s.ha ∧
    (setLoadPps s).hb = s.hb ∧
    (setLoadPps s).pmc = s.pmc ∧
    (setLoadPps s).dev = s.dev ∧
    (setLoadPps s).img = s.img ∧
    (setLoadPps s).flt = s.flt ∧
    (setLoadPps s).pins = s.pins ∧
    (setLoadPps s).shown = s.shown ∧
    (setLoadPps s).free = s.free ∧
    (setLoadPps s).pending = s.pending := by
  exact ⟨rfl, rfl, rfl, rfl, rfl, rfl, rfl, rfl, rfl, rfl, rfl, rfl, rfl, rfl, rfl, rfl, rfl, rfl, rfl⟩

theorem writeBellCtl_keeps (v : Word) (s : State) :
    (writeBellCtl v s).frame = s.frame ∧
    (writeBellCtl v s).ports = s.ports ∧
    (writeBellCtl v s).rings = s.rings ∧
    (writeBellCtl v s).gn8s = s.gn8s ∧
    (writeBellCtl v s).heads = s.heads ∧
    (writeBellCtl v s).man = s.man ∧
    (writeBellCtl v s).engs = s.engs ∧
    (writeBellCtl v s).sup = s.sup ∧
    (writeBellCtl v s).saf = s.saf ∧
    (writeBellCtl v s).ha = s.ha ∧
    (writeBellCtl v s).hb = s.hb ∧
    (writeBellCtl v s).pmc = s.pmc ∧
    (writeBellCtl v s).dev = s.dev ∧
    (writeBellCtl v s).img = s.img ∧
    (writeBellCtl v s).flt = s.flt ∧
    (writeBellCtl v s).pins = s.pins ∧
    (writeBellCtl v s).shown = s.shown ∧
    (writeBellCtl v s).free = s.free ∧
    (writeBellCtl v s).pending = s.pending := by
  unfold writeBellCtl
  simp [setLoadPps_keeps, setLoad_keeps]

theorem writePeriod_keeps (v : Word) (s : State) :
    (writePeriod v s).frame = s.frame ∧
    (writePeriod v s).ports = s.ports ∧
    (writePeriod v s).rings = s.rings ∧
    (writePeriod v s).gn8s = s.gn8s ∧
    (writePeriod v s).heads = s.heads ∧
    (writePeriod v s).man = s.man ∧
    (writePeriod v s).engs = s.engs ∧
    (writePeriod v s).sup = s.sup ∧
    (writePeriod v s).saf = s.saf ∧
    (writePeriod v s).pmc = s.pmc ∧
    (writePeriod v s).dev = s.dev ∧
    (writePeriod v s).img = s.img ∧
    (writePeriod v s).pins = s.pins ∧
    (writePeriod v s).shown = s.shown ∧
    (writePeriod v s).free = s.free ∧
    (writePeriod v s).pending = s.pending := by
  unfold writePeriod
  simp [sticky_keeps]

theorem bellRwl_keeps (off : Nat) (v : Word) (s : State) :
    (bellRwl off v s).frame = s.frame ∧
    (bellRwl off v s).ports = s.ports ∧
    (bellRwl off v s).rings = s.rings ∧
    (bellRwl off v s).gn8s = s.gn8s ∧
    (bellRwl off v s).heads = s.heads ∧
    (bellRwl off v s).man = s.man ∧
    (bellRwl off v s).engs = s.engs ∧
    (bellRwl off v s).sup = s.sup ∧
    (bellRwl off v s).saf = s.saf ∧
    (bellRwl off v s).pmc = s.pmc ∧
    (bellRwl off v s).dev = s.dev ∧
    (bellRwl off v s).img = s.img ∧
    (bellRwl off v s).pins = s.pins ∧
    (bellRwl off v s).shown = s.shown ∧
    (bellRwl off v s).free = s.free ∧
    (bellRwl off v s).pending = s.pending := by
  unfold bellRwl
  dsimp only
  (repeat' split) <;> simp [writePeriod_keeps, writeBellCtl_keeps]

theorem bellTake_keeps (off : Nat) (v : Word) (s : State) :
    (bellTake off v s).frame = s.frame ∧
    (bellTake off v s).ports = s.ports ∧
    (bellTake off v s).rings = s.rings ∧
    (bellTake off v s).gn8s = s.gn8s ∧
    (bellTake off v s).heads = s.heads ∧
    (bellTake off v s).man = s.man ∧
    (bellTake off v s).engs = s.engs ∧
    (bellTake off v s).sup = s.sup ∧
    (bellTake off v s).saf = s.saf ∧
    (bellTake off v s).pmc = s.pmc ∧
    (bellTake off v s).dev = s.dev ∧
    (bellTake off v s).img = s.img ∧
    (bellTake off v s).pins = s.pins ∧
    (bellTake off v s).shown = s.shown ∧
    (bellTake off v s).free = s.free ∧
    (bellTake off v s).pending = s.pending := by
  unfold bellTake
  simp [bellRwl_keeps]

theorem takeWaits_keeps (s : State) :
    (takeWaits s).frame = s.frame ∧
    (takeWaits s).ports = s.ports ∧
    (takeWaits s).rings = s.rings ∧
    (takeWaits s).gn8s = s.gn8s ∧
    (takeWaits s).heads = s.heads ∧
    (takeWaits s).man = s.man ∧
    (takeWaits s).engs = s.engs ∧
    (takeWaits s).sup = s.sup ∧
    (takeWaits s).saf = s.saf ∧
    (takeWaits s).pmc = s.pmc ∧
    (takeWaits s).dev = s.dev ∧
    (takeWaits s).img = s.img ∧
    (takeWaits s).pins = s.pins ∧
    (takeWaits s).shown = s.shown ∧
    (takeWaits s).free = s.free ∧
    (takeWaits s).pending = s.pending := by
  unfold takeWaits
  dsimp only
  refine ⟨?_, ?_, ?_, ?_, ?_, ?_, ?_, ?_, ?_, ?_, ?_, ?_, ?_, ?_, ?_, ?_⟩ <;> try rfl
  all_goals (try (simp [bellRwl_keeps]; done))
  all_goals ((repeat' split) <;> simp [bellRwl_keeps])

theorem execBellLoad_keeps (p : HostId) (s : State) (u : State) (h : execBellLoad p s = .next u) :
    u.frame = s.frame ∧
    u.ports = s.ports ∧
    u.rings = s.rings ∧
    u.gn8s = s.gn8s ∧
    u.heads = s.heads ∧
    u.man = s.man ∧
    u.engs = s.engs ∧
    u.sup = s.sup ∧
    u.saf = s.saf ∧
    u.pmc = s.pmc ∧
    u.dev = s.dev ∧
    u.img = s.img ∧
    u.pins = s.pins ∧
    u.shown = s.shown ∧
    u.free = s.free ∧
    u.pending = s.pending := by
  injection h with h
  subst h
  simp [bellTake_keeps]

theorem execBellLoadPps_keeps (p : HostId) (s : State) (u : State) (h : execBellLoadPps p s = .next u) :
    u.frame = s.frame ∧
    u.ports = s.ports ∧
    u.rings = s.rings ∧
    u.gn8s = s.gn8s ∧
    u.heads = s.heads ∧
    u.man = s.man ∧
    u.engs = s.engs ∧
    u.sup = s.sup ∧
    u.saf = s.saf ∧
    u.pmc = s.pmc ∧
    u.dev = s.dev ∧
    u.img = s.img ∧
    u.pins = s.pins ∧
    u.shown = s.shown ∧
    u.free = s.free ∧
    u.pending = s.pending := by
  injection h with h
  subst h
  simp [bellTake_keeps]

theorem execBellPeriodWrite_keeps (p : HostId) (v : Word) (s : State) (u : State) (h : execBellPeriodWrite p v s =
  .next u) :
    u.frame = s.frame ∧
    u.ports = s.ports ∧
    u.rings = s.rings ∧
    u.gn8s = s.gn8s ∧
    u.heads = s.heads ∧
    u.man = s.man ∧
    u.engs = s.engs ∧
    u.sup = s.sup ∧
    u.saf = s.saf ∧
    u.pmc = s.pmc ∧
    u.dev = s.dev ∧
    u.img = s.img ∧
    u.pins = s.pins ∧
    u.shown = s.shown ∧
    u.free = s.free ∧
    u.pending = s.pending := by
  injection h with h
  subst h
  simp [bellTake_keeps]

theorem readTimeLo_keeps (p : HostId) (s : State) :
    (readTimeLo p s).bell = s.bell ∧
    (readTimeLo p s).frame = s.frame ∧
    (readTimeLo p s).ports = s.ports ∧
    (readTimeLo p s).rings = s.rings ∧
    (readTimeLo p s).gn8s = s.gn8s ∧
    (readTimeLo p s).heads = s.heads ∧
    (readTimeLo p s).man = s.man ∧
    (readTimeLo p s).engs = s.engs ∧
    (readTimeLo p s).sup = s.sup ∧
    (readTimeLo p s).saf = s.saf ∧
    (readTimeLo p s).pmc = s.pmc ∧
    (readTimeLo p s).dev = s.dev ∧
    (readTimeLo p s).img = s.img ∧
    (readTimeLo p s).flt = s.flt ∧
    (readTimeLo p s).pins = s.pins ∧
    (readTimeLo p s).shown = s.shown ∧
    (readTimeLo p s).free = s.free ∧
    (readTimeLo p s).pending = s.pending := by
  unfold readTimeLo
  simp [modHost_keeps]

theorem execBellTimeLoRead_keeps (p : HostId) (s : State) (u : State) (h : execBellTimeLoRead p s = .next u) :
    u.bell = s.bell ∧
    u.frame = s.frame ∧
    u.ports = s.ports ∧
    u.rings = s.rings ∧
    u.gn8s = s.gn8s ∧
    u.heads = s.heads ∧
    u.man = s.man ∧
    u.engs = s.engs ∧
    u.sup = s.sup ∧
    u.saf = s.saf ∧
    u.pmc = s.pmc ∧
    u.dev = s.dev ∧
    u.img = s.img ∧
    u.flt = s.flt ∧
    u.pins = s.pins ∧
    u.shown = s.shown ∧
    u.free = s.free ∧
    u.pending = s.pending := by
  injection h with h
  subst h
  simp [modHost_keeps, readTimeLo_keeps]

theorem readPpsLo_keeps (p : HostId) (s : State) :
    (readPpsLo p s).bell = s.bell ∧
    (readPpsLo p s).frame = s.frame ∧
    (readPpsLo p s).ports = s.ports ∧
    (readPpsLo p s).rings = s.rings ∧
    (readPpsLo p s).gn8s = s.gn8s ∧
    (readPpsLo p s).heads = s.heads ∧
    (readPpsLo p s).man = s.man ∧
    (readPpsLo p s).engs = s.engs ∧
    (readPpsLo p s).sup = s.sup ∧
    (readPpsLo p s).saf = s.saf ∧
    (readPpsLo p s).pmc = s.pmc ∧
    (readPpsLo p s).dev = s.dev ∧
    (readPpsLo p s).img = s.img ∧
    (readPpsLo p s).flt = s.flt ∧
    (readPpsLo p s).pins = s.pins ∧
    (readPpsLo p s).shown = s.shown ∧
    (readPpsLo p s).free = s.free ∧
    (readPpsLo p s).pending = s.pending := by
  unfold readPpsLo
  simp [modHost_keeps]

theorem execBellPpsLoRead_keeps (p : HostId) (s : State) (u : State) (h : execBellPpsLoRead p s = .next u) :
    u.bell = s.bell ∧
    u.frame = s.frame ∧
    u.ports = s.ports ∧
    u.rings = s.rings ∧
    u.gn8s = s.gn8s ∧
    u.heads = s.heads ∧
    u.man = s.man ∧
    u.engs = s.engs ∧
    u.sup = s.sup ∧
    u.saf = s.saf ∧
    u.pmc = s.pmc ∧
    u.dev = s.dev ∧
    u.img = s.img ∧
    u.flt = s.flt ∧
    u.pins = s.pins ∧
    u.shown = s.shown ∧
    u.free = s.free ∧
    u.pending = s.pending := by
  injection h with h
  subst h
  simp [modHost_keeps, readPpsLo_keeps]

end Sys2Proof.Machine
end

