-- ==== Sys2Proof/Laws/FrameStream.lean ====
section
/-! SUPPORT. What each operation of Stream.lean (streams) leaves unchanged. -/

namespace Sys2Proof.Machine

theorem recordCode_keeps (e : Nat) (headCtx : Bool) (code : Nat) (s : State) :
    (recordCode e headCtx code s).bell = s.bell ∧
    (recordCode e headCtx code s).frame = s.frame ∧
    (recordCode e headCtx code s).ports = s.ports ∧
    (recordCode e headCtx code s).rings = s.rings ∧
    (recordCode e headCtx code s).gn8s = s.gn8s ∧
    (recordCode e headCtx code s).heads = s.heads ∧
    (recordCode e headCtx code s).man = s.man ∧
    (recordCode e headCtx code s).sup = s.sup ∧
    (recordCode e headCtx code s).saf = s.saf ∧
    (recordCode e headCtx code s).pmc = s.pmc ∧
    (recordCode e headCtx code s).dev = s.dev ∧
    (recordCode e headCtx code s).img = s.img ∧
    (recordCode e headCtx code s).pins = s.pins ∧
    (recordCode e headCtx code s).shown = s.shown ∧
    (recordCode e headCtx code s).free = s.free ∧
    (recordCode e headCtx code s).pending = s.pending := by
  unfold recordCode
  simp [modEng_keeps, sticky_keeps, stickyIf_keeps]

theorem noteFailed_keeps (failed : Bool) (e : Nat) (s : State) :
    (noteFailed failed e s).bell = s.bell ∧
    (noteFailed failed e s).frame = s.frame ∧
    (noteFailed failed e s).ports = s.ports ∧
    (noteFailed failed e s).rings = s.rings ∧
    (noteFailed failed e s).gn8s = s.gn8s ∧
    (noteFailed failed e s).heads = s.heads ∧
    (noteFailed failed e s).man = s.man ∧
    (noteFailed failed e s).engs = s.engs ∧
    (noteFailed failed e s).sup = s.sup ∧
    (noteFailed failed e s).saf = s.saf ∧
    (noteFailed failed e s).pmc = s.pmc ∧
    (noteFailed failed e s).dev = s.dev ∧
    (noteFailed failed e s).img = s.img ∧
    (noteFailed failed e s).pins = s.pins ∧
    (noteFailed failed e s).shown = s.shown ∧
    (noteFailed failed e s).free = s.free ∧
    (noteFailed failed e s).pending = s.pending := by
  unfold noteFailed
  simp [stickyIf_keeps]

theorem removeEngine_keeps (e : Nat) (cause : Nat) (bits : List Nat) (s : State) :
    (removeEngine e cause bits s).bell = s.bell ∧
    (removeEngine e cause bits s).ports = s.ports ∧
    (removeEngine e cause bits s).rings = s.rings ∧
    (removeEngine e cause bits s).gn8s = s.gn8s ∧
    (removeEngine e cause bits s).heads = s.heads ∧
    (removeEngine e cause bits s).man = s.man ∧
    (removeEngine e cause bits s).sup = s.sup ∧
    (removeEngine e cause bits s).saf = s.saf ∧
    (removeEngine e cause bits s).pmc = s.pmc ∧
    (removeEngine e cause bits s).dev = s.dev ∧
    (removeEngine e cause bits s).img = s.img ∧
    (removeEngine e cause bits s).pins = s.pins ∧
    (removeEngine e cause bits s).shown = s.shown ∧
    (removeEngine e cause bits s).free = s.free ∧
    (removeEngine e cause bits s).pending = s.pending := by
  unfold removeEngine
  simp [noteFailed_keeps, sticky_keeps, setEng_keeps]

theorem noteUnforced_keeps (e : Nat) (s : State) :
    (noteUnforced e s).bell = s.bell ∧
    (noteUnforced e s).frame = s.frame ∧
    (noteUnforced e s).ports = s.ports ∧
    (noteUnforced e s).rings = s.rings ∧
    (noteUnforced e s).gn8s = s.gn8s ∧
    (noteUnforced e s).heads = s.heads ∧
    (noteUnforced e s).man = s.man ∧
    (noteUnforced e s).sup = s.sup ∧
    (noteUnforced e s).saf = s.saf ∧
    (noteUnforced e s).ha = s.ha ∧
    (noteUnforced e s).hb = s.hb ∧
    (noteUnforced e s).pmc = s.pmc ∧
    (noteUnforced e s).dev = s.dev ∧
    (noteUnforced e s).img = s.img ∧
    (noteUnforced e s).flt = s.flt ∧
    (noteUnforced e s).pins = s.pins ∧
    (noteUnforced e s).shown = s.shown ∧
    (noteUnforced e s).free = s.free ∧
    (noteUnforced e s).pending = s.pending := by
  exact ⟨rfl, rfl, rfl, rfl, rfl, rfl, rfl, rfl, rfl, rfl, rfl, rfl, rfl, rfl, rfl, rfl, rfl, rfl, rfl⟩

theorem failCheck_keeps (failed : Bool) (e : Nat) (s : State) :
    (failCheck failed e s).bell = s.bell ∧
    (failCheck failed e s).ports = s.ports ∧
    (failCheck failed e s).rings = s.rings ∧
    (failCheck failed e s).gn8s = s.gn8s ∧
    (failCheck failed e s).heads = s.heads ∧
    (failCheck failed e s).man = s.man ∧
    (failCheck failed e s).sup = s.sup ∧
    (failCheck failed e s).saf = s.saf ∧
    (failCheck failed e s).pmc = s.pmc ∧
    (failCheck failed e s).dev = s.dev ∧
    (failCheck failed e s).img = s.img ∧
    (failCheck failed e s).pins = s.pins ∧
    (failCheck failed e s).shown = s.shown ∧
    (failCheck failed e s).free = s.free ∧
    (failCheck failed e s).pending = s.pending := by
  unfold failCheck
  simp [noteFailed_keeps, noteUnforced_keeps, removeEngine_keeps]

theorem laneCheck_keeps (e : Nat) (s : State) :
    (laneCheck e s).bell = s.bell ∧
    (laneCheck e s).ports = s.ports ∧
    (laneCheck e s).rings = s.rings ∧
    (laneCheck e s).gn8s = s.gn8s ∧
    (laneCheck e s).heads = s.heads ∧
    (laneCheck e s).man = s.man ∧
    (laneCheck e s).sup = s.sup ∧
    (laneCheck e s).saf = s.saf ∧
    (laneCheck e s).pmc = s.pmc ∧
    (laneCheck e s).dev = s.dev ∧
    (laneCheck e s).img = s.img ∧
    (laneCheck e s).pins = s.pins ∧
    (laneCheck e s).shown = s.shown ∧
    (laneCheck e s).free = s.free ∧
    (laneCheck e s).pending = s.pending := by
  unfold laneCheck
  dsimp only
  (repeat' split) <;> simp [noteUnforced_keeps, removeEngine_keeps]

theorem setCore_keeps (e : Nat) (f : Core → Core) (s : State) :
    (setCore e f s).bell = s.bell ∧
    (setCore e f s).ports = s.ports ∧
    (setCore e f s).rings = s.rings ∧
    (setCore e f s).gn8s = s.gn8s ∧
    (setCore e f s).heads = s.heads ∧
    (setCore e f s).man = s.man ∧
    (setCore e f s).sup = s.sup ∧
    (setCore e f s).saf = s.saf ∧
    (setCore e f s).pmc = s.pmc ∧
    (setCore e f s).dev = s.dev ∧
    (setCore e f s).img = s.img ∧
    (setCore e f s).pins = s.pins ∧
    (setCore e f s).shown = s.shown ∧
    (setCore e f s).free = s.free ∧
    (setCore e f s).pending = s.pending := by
  unfold setCore
  simp [laneCheck_keeps, modEng_keeps, stickyIf_keeps]

theorem catchUpAt_keeps (e : Nat) (s : State) :
    (catchUpAt e s).bell = s.bell ∧
    (catchUpAt e s).ports = s.ports ∧
    (catchUpAt e s).rings = s.rings ∧
    (catchUpAt e s).gn8s = s.gn8s ∧
    (catchUpAt e s).heads = s.heads ∧
    (catchUpAt e s).man = s.man ∧
    (catchUpAt e s).sup = s.sup ∧
    (catchUpAt e s).saf = s.saf ∧
    (catchUpAt e s).pmc = s.pmc ∧
    (catchUpAt e s).dev = s.dev ∧
    (catchUpAt e s).img = s.img ∧
    (catchUpAt e s).pins = s.pins ∧
    (catchUpAt e s).shown = s.shown ∧
    (catchUpAt e s).free = s.free ∧
    (catchUpAt e s).pending = s.pending := by
  unfold catchUpAt
  simp [modEng_keeps, laneCheck_keeps]

theorem writeEntry_keeps (e slot : Nat) (x : Entry) (s : State) :
    (writeEntry e slot x s).bell = s.bell ∧
    (writeEntry e slot x s).ports = s.ports ∧
    (writeEntry e slot x s).rings = s.rings ∧
    (writeEntry e slot x s).gn8s = s.gn8s ∧
    (writeEntry e slot x s).heads = s.heads ∧
    (writeEntry e slot x s).man = s.man ∧
    (writeEntry e slot x s).sup = s.sup ∧
    (writeEntry e slot x s).saf = s.saf ∧
    (writeEntry e slot x s).pmc = s.pmc ∧
    (writeEntry e slot x s).dev = s.dev ∧
    (writeEntry e slot x s).img = s.img ∧
    (writeEntry e slot x s).pins = s.pins ∧
    (writeEntry e slot x s).shown = s.shown ∧
    (writeEntry e slot x s).free = s.free ∧
    (writeEntry e slot x s).pending = s.pending := by
  unfold writeEntry
  simp [modEng_keeps, setCore_keeps, recordCode_keeps, noteFailed_keeps]

theorem headEntry_keeps (h : Nat) (x : Entry) (s : State) :
    (headEntry h x s).bell = s.bell ∧
    (headEntry h x s).ports = s.ports ∧
    (headEntry h x s).rings = s.rings ∧
    (headEntry h x s).gn8s = s.gn8s ∧
    (headEntry h x s).man = s.man ∧
    (headEntry h x s).sup = s.sup ∧
    (headEntry h x s).saf = s.saf ∧
    (headEntry h x s).pmc = s.pmc ∧
    (headEntry h x s).dev = s.dev ∧
    (headEntry h x s).img = s.img ∧
    (headEntry h x s).pins = s.pins ∧
    (headEntry h x s).shown = s.shown ∧
    (headEntry h x s).free = s.free ∧
    (headEntry h x s).pending = s.pending := by
  unfold headEntry
  dsimp only
  (repeat' split) <;> simp [writeEntry_keeps, setHead_keeps]

end Sys2Proof.Machine
end

