-- ==== Sys2Proof/Laws/FrameRing.lean ====
section
/-! SUPPORT. What each operation of Ring.lean (rings) leaves unchanged. -/

namespace Sys2Proof.Machine

theorem popFrame_some (p ty : Nat) (s : State) (f : List Byte) (u : State) (h : popFrame p ty s = some (f, u)) :
    ∃ g, u = modPort p g s := by
  unfold popFrame at h
  (repeat' split at h) <;> simp at h
  exact ⟨_, h.2.symm⟩

theorem onFrame_cases (p ty : Nat) (act : Nat → List Byte → State → State) (s : State) :
    onFrame p ty act s = s ∨ ∃ g, onFrame p ty act s = modPort p g s ∨
      ∃ k f, onFrame p ty act s = act k f (modPort p g s) := by
  unfold onFrame
  split
  · split
    · rename_i h _
      obtain ⟨g, rfl⟩ := popFrame_some _ _ _ _ _ h
      exact .inr ⟨g, .inr ⟨_, _, rfl⟩⟩
    · rename_i h _
      obtain ⟨g, rfl⟩ := popFrame_some _ _ _ _ _ h
      exact .inr ⟨g, .inl rfl⟩
    · exact .inl rfl
  · exact .inl rfl

theorem modPort_keeps (p : Nat) (f : RPort → RPort) (s : State) :
    (modPort p f s).bell = s.bell ∧
    (modPort p f s).frame = s.frame ∧
    (modPort p f s).rings = s.rings ∧
    (modPort p f s).gn8s = s.gn8s ∧
    (modPort p f s).heads = s.heads ∧
    (modPort p f s).man = s.man ∧
    (modPort p f s).engs = s.engs ∧
    (modPort p f s).sup = s.sup ∧
    (modPort p f s).saf = s.saf ∧
    (modPort p f s).ha = s.ha ∧
    (modPort p f s).hb = s.hb ∧
    (modPort p f s).pmc = s.pmc ∧
    (modPort p f s).dev = s.dev ∧
    (modPort p f s).img = s.img ∧
    (modPort p f s).flt = s.flt ∧
    (modPort p f s).pins = s.pins ∧
    (modPort p f s).shown = s.shown ∧
    (modPort p f s).free = s.free ∧
    (modPort p f s).pending = s.pending := by
  exact ⟨rfl, rfl, rfl, rfl, rfl, rfl, rfl, rfl, rfl, rfl, rfl, rfl, rfl, rfl, rfl, rfl, rfl, rfl, rfl⟩

theorem modRing_keeps (k : Nat) (f : Ring → Ring) (s : State) :
    (modRing k f s).bell = s.bell ∧
    (modRing k f s).frame = s.frame ∧
    (modRing k f s).ports = s.ports ∧
    (modRing k f s).gn8s = s.gn8s ∧
    (modRing k f s).heads = s.heads ∧
    (modRing k f s).man = s.man ∧
    (modRing k f s).engs = s.engs ∧
    (modRing k f s).sup = s.sup ∧
    (modRing k f s).saf = s.saf ∧
    (modRing k f s).ha = s.ha ∧
    (modRing k f s).hb = s.hb ∧
    (modRing k f s).pmc = s.pmc ∧
    (modRing k f s).dev = s.dev ∧
    (modRing k f s).img = s.img ∧
    (modRing k f s).flt = s.flt ∧
    (modRing k f s).pins = s.pins ∧
    (modRing k f s).shown = s.shown ∧
    (modRing k f s).free = s.free ∧
    (modRing k f s).pending = s.pending := by
  exact ⟨rfl, rfl, rfl, rfl, rfl, rfl, rfl, rfl, rfl, rfl, rfl, rfl, rfl, rfl, rfl, rfl, rfl, rfl, rfl⟩

theorem modGn8_keeps (i : Nat) (f : Gn8 → Gn8) (s : State) :
    (modGn8 i f s).bell = s.bell ∧
    (modGn8 i f s).frame = s.frame ∧
    (modGn8 i f s).ports = s.ports ∧
    (modGn8 i f s).rings = s.rings ∧
    (modGn8 i f s).heads = s.heads ∧
    (modGn8 i f s).man = s.man ∧
    (modGn8 i f s).engs = s.engs ∧
    (modGn8 i f s).sup = s.sup ∧
    (modGn8 i f s).saf = s.saf ∧
    (modGn8 i f s).ha = s.ha ∧
    (modGn8 i f s).hb = s.hb ∧
    (modGn8 i f s).pmc = s.pmc ∧
    (modGn8 i f s).dev = s.dev ∧
    (modGn8 i f s).img = s.img ∧
    (modGn8 i f s).flt = s.flt ∧
    (modGn8 i f s).pins = s.pins ∧
    (modGn8 i f s).shown = s.shown ∧
    (modGn8 i f s).free = s.free ∧
    (modGn8 i f s).pending = s.pending := by
  exact ⟨rfl, rfl, rfl, rfl, rfl, rfl, rfl, rfl, rfl, rfl, rfl, rfl, rfl, rfl, rfl, rfl, rfl, rfl, rfl⟩

theorem sendFrame_keeps (p ty : Nat) (payload : List Byte) (s : State) :
    (sendFrame p ty payload s).bell = s.bell ∧
    (sendFrame p ty payload s).frame = s.frame ∧
    (sendFrame p ty payload s).rings = s.rings ∧
    (sendFrame p ty payload s).gn8s = s.gn8s ∧
    (sendFrame p ty payload s).heads = s.heads ∧
    (sendFrame p ty payload s).man = s.man ∧
    (sendFrame p ty payload s).engs = s.engs ∧
    (sendFrame p ty payload s).sup = s.sup ∧
    (sendFrame p ty payload s).saf = s.saf ∧
    (sendFrame p ty payload s).ha = s.ha ∧
    (sendFrame p ty payload s).hb = s.hb ∧
    (sendFrame p ty payload s).pmc = s.pmc ∧
    (sendFrame p ty payload s).img = s.img ∧
    (sendFrame p ty payload s).flt = s.flt ∧
    (sendFrame p ty payload s).pins = s.pins ∧
    (sendFrame p ty payload s).shown = s.shown ∧
    (sendFrame p ty payload s).free = s.free ∧
    (sendFrame p ty payload s).pending = s.pending := by
  unfold sendFrame
  simp [setPort_keeps]

theorem relayFrame_keeps (p : Nat) (f : List Byte) (s : State) :
    (relayFrame p f s).bell = s.bell ∧
    (relayFrame p f s).frame = s.frame ∧
    (relayFrame p f s).rings = s.rings ∧
    (relayFrame p f s).gn8s = s.gn8s ∧
    (relayFrame p f s).heads = s.heads ∧
    (relayFrame p f s).man = s.man ∧
    (relayFrame p f s).engs = s.engs ∧
    (relayFrame p f s).sup = s.sup ∧
    (relayFrame p f s).saf = s.saf ∧
    (relayFrame p f s).ha = s.ha ∧
    (relayFrame p f s).hb = s.hb ∧
    (relayFrame p f s).pmc = s.pmc ∧
    (relayFrame p f s).dev = s.dev ∧
    (relayFrame p f s).img = s.img ∧
    (relayFrame p f s).flt = s.flt ∧
    (relayFrame p f s).pins = s.pins ∧
    (relayFrame p f s).shown = s.shown ∧
    (relayFrame p f s).free = s.free ∧
    (relayFrame p f s).pending = s.pending := by
  unfold relayFrame
  simp [setPort_keeps]

theorem sendCommandAs_keeps (digest : Bool) (k p target op addr : Nat) (data : Word) (s : State) :
    (sendCommandAs digest k p target op addr data s).bell = s.bell ∧
    (sendCommandAs digest k p target op addr data s).frame = s.frame ∧
    (sendCommandAs digest k p target op addr data s).gn8s = s.gn8s ∧
    (sendCommandAs digest k p target op addr data s).heads = s.heads ∧
    (sendCommandAs digest k p target op addr data s).man = s.man ∧
    (sendCommandAs digest k p target op addr data s).engs = s.engs ∧
    (sendCommandAs digest k p target op addr data s).sup = s.sup ∧
    (sendCommandAs digest k p target op addr data s).saf = s.saf ∧
    (sendCommandAs digest k p target op addr data s).ha = s.ha ∧
    (sendCommandAs digest k p target op addr data s).hb = s.hb ∧
    (sendCommandAs digest k p target op addr data s).pmc = s.pmc ∧
    (sendCommandAs digest k p target op addr data s).img = s.img ∧
    (sendCommandAs digest k p target op addr data s).flt = s.flt ∧
    (sendCommandAs digest k p target op addr data s).pins = s.pins ∧
    (sendCommandAs digest k p target op addr data s).shown = s.shown ∧
    (sendCommandAs digest k p target op addr data s).free = s.free ∧
    (sendCommandAs digest k p target op addr data s).pending = s.pending := by
  unfold sendCommandAs
  simp [sendFrame_keeps, setRing_keeps]

theorem sendCommand_keeps (k p target op addr : Nat) (data : Word) (s : State) :
    (sendCommand k p target op addr data s).bell = s.bell ∧
    (sendCommand k p target op addr data s).frame = s.frame ∧
    (sendCommand k p target op addr data s).gn8s = s.gn8s ∧
    (sendCommand k p target op addr data s).heads = s.heads ∧
    (sendCommand k p target op addr data s).man = s.man ∧
    (sendCommand k p target op addr data s).engs = s.engs ∧
    (sendCommand k p target op addr data s).sup = s.sup ∧
    (sendCommand k p target op addr data s).saf = s.saf ∧
    (sendCommand k p target op addr data s).ha = s.ha ∧
    (sendCommand k p target op addr data s).hb = s.hb ∧
    (sendCommand k p target op addr data s).pmc = s.pmc ∧
    (sendCommand k p target op addr data s).img = s.img ∧
    (sendCommand k p target op addr data s).flt = s.flt ∧
    (sendCommand k p target op addr data s).pins = s.pins ∧
    (sendCommand k p target op addr data s).shown = s.shown ∧
    (sendCommand k p target op addr data s).free = s.free ∧
    (sendCommand k p target op addr data s).pending = s.pending := by
  unfold sendCommand
  simp [sendCommandAs_keeps]

theorem linkDownAt_keeps (p : Nat) (los : Bool) (s : State) :
    (linkDownAt p los s).bell = s.bell ∧
    (linkDownAt p los s).frame = s.frame ∧
    (linkDownAt p los s).rings = s.rings ∧
    (linkDownAt p los s).gn8s = s.gn8s ∧
    (linkDownAt p los s).heads = s.heads ∧
    (linkDownAt p los s).man = s.man ∧
    (linkDownAt p los s).engs = s.engs ∧
    (linkDownAt p los s).sup = s.sup ∧
    (linkDownAt p los s).saf = s.saf ∧
    (linkDownAt p los s).pmc = s.pmc ∧
    (linkDownAt p los s).dev = s.dev ∧
    (linkDownAt p los s).img = s.img ∧
    (linkDownAt p los s).pins = s.pins ∧
    (linkDownAt p los s).shown = s.shown ∧
    (linkDownAt p los s).free = s.free ∧
    (linkDownAt p los s).pending = s.pending := by
  unfold linkDownAt
  simp [stickyIf_keeps, setPort_keeps]

theorem codeViolationAt_keeps (p n : Nat) (s : State) :
    (codeViolationAt p n s).bell = s.bell ∧
    (codeViolationAt p n s).frame = s.frame ∧
    (codeViolationAt p n s).rings = s.rings ∧
    (codeViolationAt p n s).gn8s = s.gn8s ∧
    (codeViolationAt p n s).heads = s.heads ∧
    (codeViolationAt p n s).man = s.man ∧
    (codeViolationAt p n s).engs = s.engs ∧
    (codeViolationAt p n s).sup = s.sup ∧
    (codeViolationAt p n s).saf = s.saf ∧
    (codeViolationAt p n s).pmc = s.pmc ∧
    (codeViolationAt p n s).dev = s.dev ∧
    (codeViolationAt p n s).img = s.img ∧
    (codeViolationAt p n s).pins = s.pins ∧
    (codeViolationAt p n s).shown = s.shown ∧
    (codeViolationAt p n s).free = s.free ∧
    (codeViolationAt p n s).pending = s.pending := by
  unfold codeViolationAt
  dsimp only
  (repeat' split) <;> simp [linkDownAt_keeps, sticky_keeps, modPort_keeps]

theorem execCodeViolation_keeps (p : PortIx) (chars : Nat) (s : State) (u : State)
  (h : execCodeViolation p chars s = .next u) :
    u.bell = s.bell ∧
    u.frame = s.frame ∧
    u.rings = s.rings ∧
    u.gn8s = s.gn8s ∧
    u.heads = s.heads ∧
    u.man = s.man ∧
    u.engs = s.engs ∧
    u.sup = s.sup ∧
    u.saf = s.saf ∧
    u.pmc = s.pmc ∧
    u.dev = s.dev ∧
    u.img = s.img ∧
    u.pins = s.pins ∧
    u.shown = s.shown ∧
    u.free = s.free ∧
    u.pending = s.pending := by
  injection h with h
  subst h
  simp [codeViolationAt_keeps]

theorem flushBubble_keeps (contOut : Bool) (h : Nat) (s : State) :
    (flushBubble contOut h s).bell = s.bell ∧
    (flushBubble contOut h s).ports = s.ports ∧
    (flushBubble contOut h s).gn8s = s.gn8s ∧
    (flushBubble contOut h s).man = s.man ∧
    (flushBubble contOut h s).sup = s.sup ∧
    (flushBubble contOut h s).saf = s.saf ∧
    (flushBubble contOut h s).pmc = s.pmc ∧
    (flushBubble contOut h s).dev = s.dev ∧
    (flushBubble contOut h s).img = s.img ∧
    (flushBubble contOut h s).pins = s.pins ∧
    (flushBubble contOut h s).shown = s.shown ∧
    (flushBubble contOut h s).free = s.free ∧
    (flushBubble contOut h s).pending = s.pending := by
  unfold flushBubble
  dsimp only
  (repeat' split) <;> simp [modRing_keeps, sticky_keeps, setHead_keeps, headEntry_keeps]

theorem writeSample_keeps (x : Inst) (hc : Nat × Nat) (s : State) :
    (writeSample x hc s).bell = s.bell ∧
    (writeSample x hc s).ports = s.ports ∧
    (writeSample x hc s).gn8s = s.gn8s ∧
    (writeSample x hc s).man = s.man ∧
    (writeSample x hc s).sup = s.sup ∧
    (writeSample x hc s).saf = s.saf ∧
    (writeSample x hc s).pmc = s.pmc ∧
    (writeSample x hc s).dev = s.dev ∧
    (writeSample x hc s).img = s.img ∧
    (writeSample x hc s).pins = s.pins ∧
    (writeSample x hc s).shown = s.shown ∧
    (writeSample x hc s).free = s.free ∧
    (writeSample x hc s).pending = s.pending := by
  unfold writeSample
  simp [setHead_keeps, headEntry_keeps, flushBubble_keeps]

theorem missOne_keeps (t : Bell) (cause : Nat) (h : Nat) (s : State) :
    (missOne t cause h s).bell = s.bell ∧
    (missOne t cause h s).ports = s.ports ∧
    (missOne t cause h s).gn8s = s.gn8s ∧
    (missOne t cause h s).man = s.man ∧
    (missOne t cause h s).sup = s.sup ∧
    (missOne t cause h s).saf = s.saf ∧
    (missOne t cause h s).pmc = s.pmc ∧
    (missOne t cause h s).dev = s.dev ∧
    (missOne t cause h s).img = s.img ∧
    (missOne t cause h s).pins = s.pins ∧
    (missOne t cause h s).shown = s.shown ∧
    (missOne t cause h s).free = s.free ∧
    (missOne t cause h s).pending = s.pending := by
  unfold missOne
  simp [flushBubble_keeps, setHead_keeps]

theorem writeInstant_keeps (i : Nat) (x : Recent) (s : State) :
    (writeInstant i x s).bell = s.bell ∧
    (writeInstant i x s).ports = s.ports ∧
    (writeInstant i x s).man = s.man ∧
    (writeInstant i x s).sup = s.sup ∧
    (writeInstant i x s).saf = s.saf ∧
    (writeInstant i x s).pmc = s.pmc ∧
    (writeInstant i x s).dev = s.dev ∧
    (writeInstant i x s).img = s.img ∧
    (writeInstant i x s).pins = s.pins ∧
    (writeInstant i x s).shown = s.shown ∧
    (writeInstant i x s).free = s.free ∧
    (writeInstant i x s).pending = s.pending := by
  unfold writeInstant
  simp [writeSample_keeps, modGn8_keeps]

theorem judgeRecent_keeps (i : Nat) (s : State) :
    (judgeRecent i s).bell = s.bell ∧
    (judgeRecent i s).frame = s.frame ∧
    (judgeRecent i s).ports = s.ports ∧
    (judgeRecent i s).rings = s.rings ∧
    (judgeRecent i s).heads = s.heads ∧
    (judgeRecent i s).man = s.man ∧
    (judgeRecent i s).engs = s.engs ∧
    (judgeRecent i s).sup = s.sup ∧
    (judgeRecent i s).saf = s.saf ∧
    (judgeRecent i s).ha = s.ha ∧
    (judgeRecent i s).hb = s.hb ∧
    (judgeRecent i s).pmc = s.pmc ∧
    (judgeRecent i s).dev = s.dev ∧
    (judgeRecent i s).img = s.img ∧
    (judgeRecent i s).flt = s.flt ∧
    (judgeRecent i s).pins = s.pins ∧
    (judgeRecent i s).shown = s.shown ∧
    (judgeRecent i s).free = s.free ∧
    (judgeRecent i s).pending = s.pending := by
  exact ⟨rfl, rfl, rfl, rfl, rfl, rfl, rfl, rfl, rfl, rfl, rfl, rfl, rfl, rfl, rfl, rfl, rfl, rfl, rfl⟩

theorem missInstant_keeps (i : Nat) (t : Bell) (s : State) :
    (missInstant i t s).bell = s.bell ∧
    (missInstant i t s).ports = s.ports ∧
    (missInstant i t s).man = s.man ∧
    (missInstant i t s).sup = s.sup ∧
    (missInstant i t s).saf = s.saf ∧
    (missInstant i t s).pmc = s.pmc ∧
    (missInstant i t s).dev = s.dev ∧
    (missInstant i t s).img = s.img ∧
    (missInstant i t s).pins = s.pins ∧
    (missInstant i t s).shown = s.shown ∧
    (missInstant i t s).free = s.free ∧
    (missInstant i t s).pending = s.pending := by
  unfold missInstant
  simp [missOne_keeps, modGn8_keeps, judgeRecent_keeps]

theorem advanceMerge_keeps (i : Nat) (n : Nat) (s : State) :
    (advanceMerge i n s).bell = s.bell ∧
    (advanceMerge i n s).ports = s.ports ∧
    (advanceMerge i n s).man = s.man ∧
    (advanceMerge i n s).sup = s.sup ∧
    (advanceMerge i n s).saf = s.saf ∧
    (advanceMerge i n s).pmc = s.pmc ∧
    (advanceMerge i n s).dev = s.dev ∧
    (advanceMerge i n s).img = s.img ∧
    (advanceMerge i n s).pins = s.pins ∧
    (advanceMerge i n s).shown = s.shown ∧
    (advanceMerge i n s).free = s.free ∧
    (advanceMerge i n s).pending = s.pending := by
  induction n generalizing s with
  | zero => simp [advanceMerge]
  | succ n ih =>
    unfold advanceMerge
    (repeat' split) <;> simp [ih, missInstant_keeps, modGn8_keeps, writeInstant_keeps]

theorem mergeGn8_keeps (i : Nat) (s : State) :
    (mergeGn8 i s).bell = s.bell ∧
    (mergeGn8 i s).ports = s.ports ∧
    (mergeGn8 i s).man = s.man ∧
    (mergeGn8 i s).sup = s.sup ∧
    (mergeGn8 i s).saf = s.saf ∧
    (mergeGn8 i s).pmc = s.pmc ∧
    (mergeGn8 i s).dev = s.dev ∧
    (mergeGn8 i s).img = s.img ∧
    (mergeGn8 i s).pins = s.pins ∧
    (mergeGn8 i s).shown = s.shown ∧
    (mergeGn8 i s).free = s.free ∧
    (mergeGn8 i s).pending = s.pending := by
  unfold mergeGn8
  simp [advanceMerge_keeps, judgeRecent_keeps]

theorem execInstantMissing_keeps (g : Gn8Ix) (s : State) (u : State) (h : execInstantMissing g s = .next u) :
    u.bell = s.bell ∧
    u.ports = s.ports ∧
    u.man = s.man ∧
    u.sup = s.sup ∧
    u.saf = s.saf ∧
    u.pmc = s.pmc ∧
    u.dev = s.dev ∧
    u.img = s.img ∧
    u.pins = s.pins ∧
    u.shown = s.shown ∧
    u.free = s.free ∧
    u.pending = s.pending := by
  injection h with h
  subst h
  simp [mergeGn8_keeps]

theorem takeOut_keeps (i : Nat) (s : State) :
    (takeOut i s).bell = s.bell ∧
    (takeOut i s).frame = s.frame ∧
    (takeOut i s).ports = s.ports ∧
    (takeOut i s).rings = s.rings ∧
    (takeOut i s).heads = s.heads ∧
    (takeOut i s).man = s.man ∧
    (takeOut i s).engs = s.engs ∧
    (takeOut i s).sup = s.sup ∧
    (takeOut i s).saf = s.saf ∧
    (takeOut i s).ha = s.ha ∧
    (takeOut i s).hb = s.hb ∧
    (takeOut i s).pmc = s.pmc ∧
    (takeOut i s).dev = s.dev ∧
    (takeOut i s).img = s.img ∧
    (takeOut i s).flt = s.flt ∧
    (takeOut i s).pins = s.pins ∧
    (takeOut i s).shown = s.shown ∧
    (takeOut i s).free = s.free ∧
    (takeOut i s).pending = s.pending := by
  exact ⟨rfl, rfl, rfl, rfl, rfl, rfl, rfl, rfl, rfl, rfl, rfl, rfl, rfl, rfl, rfl, rfl, rfl, rfl, rfl⟩

theorem mergeCopy_keeps (i : Nat) (x : Recent) (s : State) :
    (mergeCopy i x s).bell = s.bell ∧
    (mergeCopy i x s).frame = s.frame ∧
    (mergeCopy i x s).ports = s.ports ∧
    (mergeCopy i x s).heads = s.heads ∧
    (mergeCopy i x s).man = s.man ∧
    (mergeCopy i x s).engs = s.engs ∧
    (mergeCopy i x s).sup = s.sup ∧
    (mergeCopy i x s).saf = s.saf ∧
    (mergeCopy i x s).pmc = s.pmc ∧
    (mergeCopy i x s).dev = s.dev ∧
    (mergeCopy i x s).img = s.img ∧
    (mergeCopy i x s).pins = s.pins ∧
    (mergeCopy i x s).shown = s.shown ∧
    (mergeCopy i x s).free = s.free ∧
    (mergeCopy i x s).pending = s.pending := by
  unfold mergeCopy
  dsimp only
  (repeat' split) <;> simp [modRing_keeps, sticky_keeps, takeOut_keeps, modGn8_keeps]

theorem noteDiscard_keeps (i : Nat) (s : State) :
    (noteDiscard i s).bell = s.bell ∧
    (noteDiscard i s).ports = s.ports ∧
    (noteDiscard i s).man = s.man ∧
    (noteDiscard i s).sup = s.sup ∧
    (noteDiscard i s).saf = s.saf ∧
    (noteDiscard i s).pmc = s.pmc ∧
    (noteDiscard i s).dev = s.dev ∧
    (noteDiscard i s).img = s.img ∧
    (noteDiscard i s).pins = s.pins ∧
    (noteDiscard i s).shown = s.shown ∧
    (noteDiscard i s).free = s.free ∧
    (noteDiscard i s).pending = s.pending := by
  unfold noteDiscard
  simp [mergeGn8_keeps, modGn8_keeps]

theorem discardFrame_keeps (p bit : Nat) (s : State) :
    (discardFrame p bit s).bell = s.bell ∧
    (discardFrame p bit s).man = s.man ∧
    (discardFrame p bit s).sup = s.sup ∧
    (discardFrame p bit s).saf = s.saf ∧
    (discardFrame p bit s).pmc = s.pmc ∧
    (discardFrame p bit s).dev = s.dev ∧
    (discardFrame p bit s).img = s.img ∧
    (discardFrame p bit s).pins = s.pins ∧
    (discardFrame p bit s).shown = s.shown ∧
    (discardFrame p bit s).free = s.free ∧
    (discardFrame p bit s).pending = s.pending := by
  unfold discardFrame
  dsimp only
  (repeat' split) <;> simp [sticky_keeps, noteDiscard_keeps, modPort_keeps]

theorem discardReserved_keeps (p : Nat) (s : State) :
    (discardReserved p s).bell = s.bell ∧
    (discardReserved p s).frame = s.frame ∧
    (discardReserved p s).rings = s.rings ∧
    (discardReserved p s).gn8s = s.gn8s ∧
    (discardReserved p s).heads = s.heads ∧
    (discardReserved p s).man = s.man ∧
    (discardReserved p s).engs = s.engs ∧
    (discardReserved p s).sup = s.sup ∧
    (discardReserved p s).saf = s.saf ∧
    (discardReserved p s).pmc = s.pmc ∧
    (discardReserved p s).dev = s.dev ∧
    (discardReserved p s).img = s.img ∧
    (discardReserved p s).pins = s.pins ∧
    (discardReserved p s).shown = s.shown ∧
    (discardReserved p s).free = s.free ∧
    (discardReserved p s).pending = s.pending := by
  unfold discardReserved
  simp [modPort_keeps, sticky_keeps]

theorem overflowFrame_keeps (p : Nat) (f : List Byte) (s : State) :
    (overflowFrame p f s).bell = s.bell ∧
    (overflowFrame p f s).ports = s.ports ∧
    (overflowFrame p f s).man = s.man ∧
    (overflowFrame p f s).sup = s.sup ∧
    (overflowFrame p f s).saf = s.saf ∧
    (overflowFrame p f s).pmc = s.pmc ∧
    (overflowFrame p f s).dev = s.dev ∧
    (overflowFrame p f s).img = s.img ∧
    (overflowFrame p f s).pins = s.pins ∧
    (overflowFrame p f s).shown = s.shown ∧
    (overflowFrame p f s).free = s.free ∧
    (overflowFrame p f s).pending = s.pending := by
  unfold overflowFrame
  dsimp only
  (repeat' split) <;> simp [sticky_keeps, noteDiscard_keeps]

theorem frameViolation_keeps (p n : Nat) (s : State) :
    (frameViolation p n s).bell = s.bell ∧
    (frameViolation p n s).frame = s.frame ∧
    (frameViolation p n s).rings = s.rings ∧
    (frameViolation p n s).gn8s = s.gn8s ∧
    (frameViolation p n s).heads = s.heads ∧
    (frameViolation p n s).man = s.man ∧
    (frameViolation p n s).engs = s.engs ∧
    (frameViolation p n s).sup = s.sup ∧
    (frameViolation p n s).saf = s.saf ∧
    (frameViolation p n s).pmc = s.pmc ∧
    (frameViolation p n s).dev = s.dev ∧
    (frameViolation p n s).img = s.img ∧
    (frameViolation p n s).pins = s.pins ∧
    (frameViolation p n s).shown = s.shown ∧
    (frameViolation p n s).free = s.free ∧
    (frameViolation p n s).pending = s.pending := by
  unfold frameViolation
  simp [codeViolationAt_keeps]

theorem receiveChars_keeps (p : Nat) (chars : List LineChar) (gap : Nat) (s : State) :
    (receiveChars p chars gap s).bell = s.bell ∧
    (receiveChars p chars gap s).man = s.man ∧
    (receiveChars p chars gap s).sup = s.sup ∧
    (receiveChars p chars gap s).saf = s.saf ∧
    (receiveChars p chars gap s).pmc = s.pmc ∧
    (receiveChars p chars gap s).dev = s.dev ∧
    (receiveChars p chars gap s).img = s.img ∧
    (receiveChars p chars gap s).pins = s.pins ∧
    (receiveChars p chars gap s).shown = s.shown ∧
    (receiveChars p chars gap s).free = s.free ∧
    (receiveChars p chars gap s).pending = s.pending := by
  unfold receiveChars
  (repeat' split) <;> simp [frameViolation_keeps, modPort_keeps, overflowFrame_keeps, discardReserved_keeps,
    discardFrame_keeps]

theorem receiveFrame_keeps (p : Nat) (groups : List (BitVec 10)) (gap : Nat) (s : State) :
    (receiveFrame p groups gap s).bell = s.bell ∧
    (receiveFrame p groups gap s).man = s.man ∧
    (receiveFrame p groups gap s).sup = s.sup ∧
    (receiveFrame p groups gap s).saf = s.saf ∧
    (receiveFrame p groups gap s).pmc = s.pmc ∧
    (receiveFrame p groups gap s).dev = s.dev ∧
    (receiveFrame p groups gap s).img = s.img ∧
    (receiveFrame p groups gap s).pins = s.pins ∧
    (receiveFrame p groups gap s).shown = s.shown ∧
    (receiveFrame p groups gap s).free = s.free ∧
    (receiveFrame p groups gap s).pending = s.pending := by
  unfold receiveFrame
  (repeat' split) <;> simp [modPort_keeps, receiveChars_keeps]

theorem execFrameReceive_keeps (p : PortIx) (groups : List (BitVec 10)) (gap : Nat) (s : State) (u : State) (h :
  execFrameReceive p groups gap s = .next u) :
    u.bell = s.bell ∧
    u.man = s.man ∧
    u.sup = s.sup ∧
    u.saf = s.saf ∧
    u.pmc = s.pmc ∧
    u.dev = s.dev ∧
    u.img = s.img ∧
    u.pins = s.pins ∧
    u.shown = s.shown ∧
    u.free = s.free ∧
    u.pending = s.pending := by
  injection h with h
  subst h
  simp [receiveFrame_keeps]

theorem expectRing_keeps (k : Nat) (s : State) :
    (expectRing k s).bell = s.bell ∧
    (expectRing k s).frame = s.frame ∧
    (expectRing k s).ports = s.ports ∧
    (expectRing k s).rings = s.rings ∧
    (expectRing k s).heads = s.heads ∧
    (expectRing k s).man = s.man ∧
    (expectRing k s).engs = s.engs ∧
    (expectRing k s).sup = s.sup ∧
    (expectRing k s).saf = s.saf ∧
    (expectRing k s).ha = s.ha ∧
    (expectRing k s).hb = s.hb ∧
    (expectRing k s).pmc = s.pmc ∧
    (expectRing k s).dev = s.dev ∧
    (expectRing k s).img = s.img ∧
    (expectRing k s).flt = s.flt ∧
    (expectRing k s).pins = s.pins ∧
    (expectRing k s).shown = s.shown ∧
    (expectRing k s).free = s.free ∧
    (expectRing k s).pending = s.pending := by
  unfold expectRing
  simp [modGn8_keeps]

theorem failRing_keeps (k derr : Nat) (s : State) :
    (failRing k derr s).bell = s.bell ∧
    (failRing k derr s).frame = s.frame ∧
    (failRing k derr s).ports = s.ports ∧
    (failRing k derr s).heads = s.heads ∧
    (failRing k derr s).man = s.man ∧
    (failRing k derr s).engs = s.engs ∧
    (failRing k derr s).sup = s.sup ∧
    (failRing k derr s).saf = s.saf ∧
    (failRing k derr s).pmc = s.pmc ∧
    (failRing k derr s).dev = s.dev ∧
    (failRing k derr s).img = s.img ∧
    (failRing k derr s).pins = s.pins ∧
    (failRing k derr s).shown = s.shown ∧
    (failRing k derr s).free = s.free ∧
    (failRing k derr s).pending = s.pending := by
  unfold failRing
  simp [modRing_keeps, expectRing_keeps, sticky_keeps]

theorem toStep_keeps (k n : Nat) (s : State) :
    (toStep k n s).bell = s.bell ∧
    (toStep k n s).frame = s.frame ∧
    (toStep k n s).ports = s.ports ∧
    (toStep k n s).gn8s = s.gn8s ∧
    (toStep k n s).heads = s.heads ∧
    (toStep k n s).man = s.man ∧
    (toStep k n s).engs = s.engs ∧
    (toStep k n s).sup = s.sup ∧
    (toStep k n s).saf = s.saf ∧
    (toStep k n s).ha = s.ha ∧
    (toStep k n s).hb = s.hb ∧
    (toStep k n s).pmc = s.pmc ∧
    (toStep k n s).dev = s.dev ∧
    (toStep k n s).img = s.img ∧
    (toStep k n s).flt = s.flt ∧
    (toStep k n s).pins = s.pins ∧
    (toStep k n s).shown = s.shown ∧
    (toStep k n s).free = s.free ∧
    (toStep k n s).pending = s.pending := by
  exact ⟨rfl, rfl, rfl, rfl, rfl, rfl, rfl, rfl, rfl, rfl, rfl, rfl, rfl, rfl, rfl, rfl, rfl, rfl, rfl⟩

theorem sendSetup_keeps (k : Nat) (s : State) :
    (sendSetup k s).bell = s.bell ∧
    (sendSetup k s).frame = s.frame ∧
    (sendSetup k s).gn8s = s.gn8s ∧
    (sendSetup k s).heads = s.heads ∧
    (sendSetup k s).man = s.man ∧
    (sendSetup k s).engs = s.engs ∧
    (sendSetup k s).sup = s.sup ∧
    (sendSetup k s).saf = s.saf ∧
    (sendSetup k s).ha = s.ha ∧
    (sendSetup k s).hb = s.hb ∧
    (sendSetup k s).pmc = s.pmc ∧
    (sendSetup k s).img = s.img ∧
    (sendSetup k s).flt = s.flt ∧
    (sendSetup k s).pins = s.pins ∧
    (sendSetup k s).shown = s.shown ∧
    (sendSetup k s).free = s.free ∧
    (sendSetup k s).pending = s.pending := by
  unfold sendSetup
  dsimp only
  (repeat' split) <;> simp [toStep_keeps, sendCommand_keeps]

theorem startSetup_keeps (k : Nat) (s : State) :
    (startSetup k s).bell = s.bell ∧
    (startSetup k s).frame = s.frame ∧
    (startSetup k s).gn8s = s.gn8s ∧
    (startSetup k s).heads = s.heads ∧
    (startSetup k s).man = s.man ∧
    (startSetup k s).engs = s.engs ∧
    (startSetup k s).sup = s.sup ∧
    (startSetup k s).saf = s.saf ∧
    (startSetup k s).ha = s.ha ∧
    (startSetup k s).hb = s.hb ∧
    (startSetup k s).pmc = s.pmc ∧
    (startSetup k s).img = s.img ∧
    (startSetup k s).flt = s.flt ∧
    (startSetup k s).pins = s.pins ∧
    (startSetup k s).shown = s.shown ∧
    (startSetup k s).free = s.free ∧
    (startSetup k s).pending = s.pending := by
  unfold startSetup
  simp [toStep_keeps, modRing_keeps, sendSetup_keeps]

theorem startEcho_keeps (k : Nat) (s : State) :
    (startEcho k s).bell = s.bell ∧
    (startEcho k s).frame = s.frame ∧
    (startEcho k s).gn8s = s.gn8s ∧
    (startEcho k s).heads = s.heads ∧
    (startEcho k s).man = s.man ∧
    (startEcho k s).engs = s.engs ∧
    (startEcho k s).sup = s.sup ∧
    (startEcho k s).saf = s.saf ∧
    (startEcho k s).ha = s.ha ∧
    (startEcho k s).hb = s.hb ∧
    (startEcho k s).pmc = s.pmc ∧
    (startEcho k s).img = s.img ∧
    (startEcho k s).flt = s.flt ∧
    (startEcho k s).pins = s.pins ∧
    (startEcho k s).shown = s.shown ∧
    (startEcho k s).free = s.free ∧
    (startEcho k s).pending = s.pending := by
  unfold startEcho
  simp [sendCommand_keeps, toStep_keeps, modRing_keeps]

theorem checkIdentities_keeps (k : Nat) (s : State) :
    (checkIdentities k s).bell = s.bell ∧
    (checkIdentities k s).frame = s.frame ∧
    (checkIdentities k s).heads = s.heads ∧
    (checkIdentities k s).man = s.man ∧
    (checkIdentities k s).engs = s.engs ∧
    (checkIdentities k s).sup = s.sup ∧
    (checkIdentities k s).saf = s.saf ∧
    (checkIdentities k s).pmc = s.pmc ∧
    (checkIdentities k s).img = s.img ∧
    (checkIdentities k s).pins = s.pins ∧
    (checkIdentities k s).shown = s.shown ∧
    (checkIdentities k s).free = s.free ∧
    (checkIdentities k s).pending = s.pending := by
  unfold checkIdentities
  simp [startEcho_keeps, failRing_keeps]

theorem checkPositions_keeps (k : Nat) (s : State) :
    (checkPositions k s).bell = s.bell ∧
    (checkPositions k s).frame = s.frame ∧
    (checkPositions k s).heads = s.heads ∧
    (checkPositions k s).man = s.man ∧
    (checkPositions k s).engs = s.engs ∧
    (checkPositions k s).sup = s.sup ∧
    (checkPositions k s).saf = s.saf ∧
    (checkPositions k s).pmc = s.pmc ∧
    (checkPositions k s).img = s.img ∧
    (checkPositions k s).pins = s.pins ∧
    (checkPositions k s).shown = s.shown ∧
    (checkPositions k s).free = s.free ∧
    (checkPositions k s).pending = s.pending := by
  unfold checkPositions
  simp [failRing_keeps, checkIdentities_keeps]

theorem discoverProgress_keeps (k : Nat) (s : State) :
    (discoverProgress k s).bell = s.bell ∧
    (discoverProgress k s).frame = s.frame ∧
    (discoverProgress k s).heads = s.heads ∧
    (discoverProgress k s).man = s.man ∧
    (discoverProgress k s).engs = s.engs ∧
    (discoverProgress k s).sup = s.sup ∧
    (discoverProgress k s).saf = s.saf ∧
    (discoverProgress k s).pmc = s.pmc ∧
    (discoverProgress k s).img = s.img ∧
    (discoverProgress k s).pins = s.pins ∧
    (discoverProgress k s).shown = s.shown ∧
    (discoverProgress k s).free = s.free ∧
    (discoverProgress k s).pending = s.pending := by
  unfold discoverProgress
  dsimp only
  (repeat' split) <;> simp [checkPositions_keeps, failRing_keeps, toStep_keeps, sendCommand_keeps,
    checkIdentities_keeps]

theorem checkStep8_keeps (k : Nat) (s : State) :
    (checkStep8 k s).bell = s.bell ∧
    (checkStep8 k s).frame = s.frame ∧
    (checkStep8 k s).ports = s.ports ∧
    (checkStep8 k s).heads = s.heads ∧
    (checkStep8 k s).man = s.man ∧
    (checkStep8 k s).engs = s.engs ∧
    (checkStep8 k s).sup = s.sup ∧
    (checkStep8 k s).saf = s.saf ∧
    (checkStep8 k s).ha = s.ha ∧
    (checkStep8 k s).hb = s.hb ∧
    (checkStep8 k s).pmc = s.pmc ∧
    (checkStep8 k s).dev = s.dev ∧
    (checkStep8 k s).img = s.img ∧
    (checkStep8 k s).flt = s.flt ∧
    (checkStep8 k s).pins = s.pins ∧
    (checkStep8 k s).shown = s.shown ∧
    (checkStep8 k s).free = s.free ∧
    (checkStep8 k s).pending = s.pending := by
  unfold checkStep8
  simp [modRing_keeps, modGn8_keeps]

theorem takeSample_keeps (k p : Nat) (f : List Byte) (s : State) :
    (takeSample k p f s).bell = s.bell ∧
    (takeSample k p f s).man = s.man ∧
    (takeSample k p f s).sup = s.sup ∧
    (takeSample k p f s).saf = s.saf ∧
    (takeSample k p f s).pmc = s.pmc ∧
    (takeSample k p f s).dev = s.dev ∧
    (takeSample k p f s).img = s.img ∧
    (takeSample k p f s).pins = s.pins ∧
    (takeSample k p f s).shown = s.shown ∧
    (takeSample k p f s).free = s.free ∧
    (takeSample k p f s).pending = s.pending := by
  unfold takeSample
  dsimp only
  (repeat' split) <;> simp [mergeCopy_keeps, checkStep8_keeps, mergeGn8_keeps, modGn8_keeps, sticky_keeps,
    relayFrame_keeps]

theorem execSampleFrame_keeps (p : PortIx) (s : State) (u : State) (h : execSampleFrame p s = .next u) :
    u.bell = s.bell ∧
    u.man = s.man ∧
    u.sup = s.sup ∧
    u.saf = s.saf ∧
    u.pmc = s.pmc ∧
    u.dev = s.dev ∧
    u.img = s.img ∧
    u.pins = s.pins ∧
    u.shown = s.shown ∧
    u.free = s.free ∧
    u.pending = s.pending := by
  injection h with h
  subst h
  rcases onFrame_cases _ _ _ _ with hf | ⟨g, hf | ⟨k, f, hf⟩⟩ <;> rw [hf] <;> simp [modPort_keeps, takeSample_keeps]

theorem takeMarker_keeps (k p : Nat) (f : List Byte) (s : State) :
    (takeMarker k p f s).bell = s.bell ∧
    (takeMarker k p f s).frame = s.frame ∧
    (takeMarker k p f s).ports = s.ports ∧
    (takeMarker k p f s).gn8s = s.gn8s ∧
    (takeMarker k p f s).heads = s.heads ∧
    (takeMarker k p f s).man = s.man ∧
    (takeMarker k p f s).engs = s.engs ∧
    (takeMarker k p f s).sup = s.sup ∧
    (takeMarker k p f s).saf = s.saf ∧
    (takeMarker k p f s).pmc = s.pmc ∧
    (takeMarker k p f s).dev = s.dev ∧
    (takeMarker k p f s).img = s.img ∧
    (takeMarker k p f s).pins = s.pins ∧
    (takeMarker k p f s).shown = s.shown ∧
    (takeMarker k p f s).free = s.free ∧
    (takeMarker k p f s).pending = s.pending := by
  unfold takeMarker
  dsimp only
  (repeat' split) <;> simp [sticky_keeps, setRing_keeps]

theorem execMarkerFrame_keeps (p : PortIx) (s : State) (u : State) (h : execMarkerFrame p s = .next u) :
    u.bell = s.bell ∧
    u.frame = s.frame ∧
    u.gn8s = s.gn8s ∧
    u.heads = s.heads ∧
    u.man = s.man ∧
    u.engs = s.engs ∧
    u.sup = s.sup ∧
    u.saf = s.saf ∧
    u.pmc = s.pmc ∧
    u.dev = s.dev ∧
    u.img = s.img ∧
    u.pins = s.pins ∧
    u.shown = s.shown ∧
    u.free = s.free ∧
    u.pending = s.pending := by
  injection h with h
  subst h
  rcases onFrame_cases _ _ _ _ with hf | ⟨g, hf | ⟨k, f, hf⟩⟩ <;> rw [hf] <;> simp [modPort_keeps, takeMarker_keeps]

theorem discoverReply_keeps (k slot hop : Nat) (ident : Word) (s : State) :
    (discoverReply k slot hop ident s).bell = s.bell ∧
    (discoverReply k slot hop ident s).frame = s.frame ∧
    (discoverReply k slot hop ident s).heads = s.heads ∧
    (discoverReply k slot hop ident s).man = s.man ∧
    (discoverReply k slot hop ident s).engs = s.engs ∧
    (discoverReply k slot hop ident s).sup = s.sup ∧
    (discoverReply k slot hop ident s).saf = s.saf ∧
    (discoverReply k slot hop ident s).pmc = s.pmc ∧
    (discoverReply k slot hop ident s).img = s.img ∧
    (discoverReply k slot hop ident s).pins = s.pins ∧
    (discoverReply k slot hop ident s).shown = s.shown ∧
    (discoverReply k slot hop ident s).free = s.free ∧
    (discoverReply k slot hop ident s).pending = s.pending := by
  unfold discoverReply
  dsimp only
  (repeat' split) <;> simp [modGn8_keeps, setRing_keeps, discoverProgress_keeps]

theorem dropCmd_keeps (k : Nat) (c : RCmd) (s : State) :
    (dropCmd k c s).bell = s.bell ∧
    (dropCmd k c s).frame = s.frame ∧
    (dropCmd k c s).ports = s.ports ∧
    (dropCmd k c s).gn8s = s.gn8s ∧
    (dropCmd k c s).heads = s.heads ∧
    (dropCmd k c s).man = s.man ∧
    (dropCmd k c s).engs = s.engs ∧
    (dropCmd k c s).sup = s.sup ∧
    (dropCmd k c s).saf = s.saf ∧
    (dropCmd k c s).ha = s.ha ∧
    (dropCmd k c s).hb = s.hb ∧
    (dropCmd k c s).pmc = s.pmc ∧
    (dropCmd k c s).dev = s.dev ∧
    (dropCmd k c s).img = s.img ∧
    (dropCmd k c s).flt = s.flt ∧
    (dropCmd k c s).pins = s.pins ∧
    (dropCmd k c s).shown = s.shown ∧
    (dropCmd k c s).free = s.free ∧
    (dropCmd k c s).pending = s.pending := by
  exact ⟨rfl, rfl, rfl, rfl, rfl, rfl, rfl, rfl, rfl, rfl, rfl, rfl, rfl, rfl, rfl, rfl, rfl, rfl, rfl⟩

theorem echoReply_keeps (k slot : Nat) (c : RCmd) (s : State) :
    (echoReply k slot c s).bell = s.bell ∧
    (echoReply k slot c s).frame = s.frame ∧
    (echoReply k slot c s).heads = s.heads ∧
    (echoReply k slot c s).man = s.man ∧
    (echoReply k slot c s).engs = s.engs ∧
    (echoReply k slot c s).sup = s.sup ∧
    (echoReply k slot c s).saf = s.saf ∧
    (echoReply k slot c s).pmc = s.pmc ∧
    (echoReply k slot c s).img = s.img ∧
    (echoReply k slot c s).pins = s.pins ∧
    (echoReply k slot c s).shown = s.shown ∧
    (echoReply k slot c s).pending = s.pending := by
  unfold echoReply
  simp [dropCmd_keeps, sendCommand_keeps, failRing_keeps, modPort_keeps, drawFree_keeps]

theorem echoWritten_keeps (k : Nat) (c : RCmd) (s : State) :
    (echoWritten k c s).bell = s.bell ∧
    (echoWritten k c s).frame = s.frame ∧
    (echoWritten k c s).gn8s = s.gn8s ∧
    (echoWritten k c s).heads = s.heads ∧
    (echoWritten k c s).man = s.man ∧
    (echoWritten k c s).engs = s.engs ∧
    (echoWritten k c s).sup = s.sup ∧
    (echoWritten k c s).saf = s.saf ∧
    (echoWritten k c s).ha = s.ha ∧
    (echoWritten k c s).hb = s.hb ∧
    (echoWritten k c s).pmc = s.pmc ∧
    (echoWritten k c s).img = s.img ∧
    (echoWritten k c s).flt = s.flt ∧
    (echoWritten k c s).pins = s.pins ∧
    (echoWritten k c s).shown = s.shown ∧
    (echoWritten k c s).free = s.free ∧
    (echoWritten k c s).pending = s.pending := by
  unfold echoWritten
  simp [startSetup_keeps, dropCmd_keeps, modRing_keeps]

theorem startMerge_keeps (k : Nat) (s : State) :
    (startMerge k s).bell = s.bell ∧
    (startMerge k s).frame = s.frame ∧
    (startMerge k s).ports = s.ports ∧
    (startMerge k s).heads = s.heads ∧
    (startMerge k s).man = s.man ∧
    (startMerge k s).engs = s.engs ∧
    (startMerge k s).sup = s.sup ∧
    (startMerge k s).saf = s.saf ∧
    (startMerge k s).ha = s.ha ∧
    (startMerge k s).hb = s.hb ∧
    (startMerge k s).pmc = s.pmc ∧
    (startMerge k s).dev = s.dev ∧
    (startMerge k s).img = s.img ∧
    (startMerge k s).flt = s.flt ∧
    (startMerge k s).pins = s.pins ∧
    (startMerge k s).shown = s.shown ∧
    (startMerge k s).free = s.free ∧
    (startMerge k s).pending = s.pending := by
  unfold startMerge
  simp [modRing_keeps, expectRing_keeps]

theorem setupReply_keeps (k op result : Nat) (data : Word) (c : RCmd) (s : State) :
    (setupReply k op result data c s).bell = s.bell ∧
    (setupReply k op result data c s).frame = s.frame ∧
    (setupReply k op result data c s).heads = s.heads ∧
    (setupReply k op result data c s).man = s.man ∧
    (setupReply k op result data c s).engs = s.engs ∧
    (setupReply k op result data c s).sup = s.sup ∧
    (setupReply k op result data c s).saf = s.saf ∧
    (setupReply k op result data c s).pmc = s.pmc ∧
    (setupReply k op result data c s).img = s.img ∧
    (setupReply k op result data c s).pins = s.pins ∧
    (setupReply k op result data c s).shown = s.shown ∧
    (setupReply k op result data c s).free = s.free ∧
    (setupReply k op result data c s).pending = s.pending := by
  unfold setupReply
  simp [modRing_keeps, sendSetup_keeps, sendCommand_keeps, failRing_keeps, dropCmd_keeps]

theorem takeStatus_keeps (k : Nat) (f : List Byte) (s : State) :
    (takeStatus k f s).bell = s.bell ∧
    (takeStatus k f s).frame = s.frame ∧
    (takeStatus k f s).heads = s.heads ∧
    (takeStatus k f s).man = s.man ∧
    (takeStatus k f s).engs = s.engs ∧
    (takeStatus k f s).sup = s.sup ∧
    (takeStatus k f s).saf = s.saf ∧
    (takeStatus k f s).pmc = s.pmc ∧
    (takeStatus k f s).img = s.img ∧
    (takeStatus k f s).pins = s.pins ∧
    (takeStatus k f s).shown = s.shown ∧
    (takeStatus k f s).pending = s.pending := by
  unfold takeStatus
  dsimp only
  (repeat' split) <;> simp [dropCmd_keeps, startMerge_keeps, setupReply_keeps, echoWritten_keeps, echoReply_keeps,
    discoverReply_keeps, modRing_keeps, modGn8_keeps, stickyIf_keeps]

theorem execStatusFrame_keeps (p : PortIx) (s : State) (u : State) (h : execStatusFrame p s = .next u) :
    u.bell = s.bell ∧
    u.frame = s.frame ∧
    u.heads = s.heads ∧
    u.man = s.man ∧
    u.engs = s.engs ∧
    u.sup = s.sup ∧
    u.saf = s.saf ∧
    u.pmc = s.pmc ∧
    u.img = s.img ∧
    u.pins = s.pins ∧
    u.shown = s.shown ∧
    u.pending = s.pending := by
  injection h with h
  subst h
  rcases onFrame_cases _ _ _ _ with hf | ⟨g, hf | ⟨k, f, hf⟩⟩ <;> rw [hf] <;> simp [modPort_keeps, takeStatus_keeps]

theorem sendMarker_keeps (p : Nat) (s : State) :
    (sendMarker p s).bell = s.bell ∧
    (sendMarker p s).frame = s.frame ∧
    (sendMarker p s).rings = s.rings ∧
    (sendMarker p s).gn8s = s.gn8s ∧
    (sendMarker p s).heads = s.heads ∧
    (sendMarker p s).man = s.man ∧
    (sendMarker p s).engs = s.engs ∧
    (sendMarker p s).sup = s.sup ∧
    (sendMarker p s).saf = s.saf ∧
    (sendMarker p s).ha = s.ha ∧
    (sendMarker p s).hb = s.hb ∧
    (sendMarker p s).pmc = s.pmc ∧
    (sendMarker p s).img = s.img ∧
    (sendMarker p s).flt = s.flt ∧
    (sendMarker p s).pins = s.pins ∧
    (sendMarker p s).shown = s.shown ∧
    (sendMarker p s).free = s.free ∧
    (sendMarker p s).pending = s.pending := by
  unfold sendMarker
  simp [sendFrame_keeps]

theorem takeCommand_keeps (k p : Nat) (f : List Byte) (s : State) :
    (takeCommand k p f s).bell = s.bell ∧
    (takeCommand k p f s).frame = s.frame ∧
    (takeCommand k p f s).heads = s.heads ∧
    (takeCommand k p f s).man = s.man ∧
    (takeCommand k p f s).engs = s.engs ∧
    (takeCommand k p f s).sup = s.sup ∧
    (takeCommand k p f s).saf = s.saf ∧
    (takeCommand k p f s).pmc = s.pmc ∧
    (takeCommand k p f s).img = s.img ∧
    (takeCommand k p f s).pins = s.pins ∧
    (takeCommand k p f s).shown = s.shown ∧
    (takeCommand k p f s).free = s.free ∧
    (takeCommand k p f s).pending = s.pending := by
  unfold takeCommand
  dsimp only
  (repeat' split) <;> simp [setRing_keeps, discoverProgress_keeps, sendFrame_keeps]

theorem execCommandFrame_keeps (p : PortIx) (s : State) (u : State) (h : execCommandFrame p s = .next u) :
    u.bell = s.bell ∧
    u.frame = s.frame ∧
    u.heads = s.heads ∧
    u.man = s.man ∧
    u.engs = s.engs ∧
    u.sup = s.sup ∧
    u.saf = s.saf ∧
    u.pmc = s.pmc ∧
    u.img = s.img ∧
    u.pins = s.pins ∧
    u.shown = s.shown ∧
    u.free = s.free ∧
    u.pending = s.pending := by
  injection h with h
  subst h
  rcases onFrame_cases _ _ _ _ with hf | ⟨g, hf | ⟨k, f, hf⟩⟩ <;> rw [hf] <;> simp [modPort_keeps, takeCommand_keeps]

theorem execMarkerSend_keeps (s : State) (u : State) (h : execMarkerSend s = .next u) :
    u.bell = s.bell ∧
    u.frame = s.frame ∧
    u.rings = s.rings ∧
    u.gn8s = s.gn8s ∧
    u.heads = s.heads ∧
    u.man = s.man ∧
    u.engs = s.engs ∧
    u.sup = s.sup ∧
    u.saf = s.saf ∧
    u.ha = s.ha ∧
    u.hb = s.hb ∧
    u.pmc = s.pmc ∧
    u.img = s.img ∧
    u.flt = s.flt ∧
    u.pins = s.pins ∧
    u.shown = s.shown ∧
    u.free = s.free ∧
    u.pending = s.pending := by
  unfold execMarkerSend at h
  (repeat' split at h) <;> (injection h with h; subst h; simp [sendMarker_keeps])

theorem resendCommand_keeps (k : Nat) (c : RCmd) (s : State) :
    (resendCommand k c s).bell = s.bell ∧
    (resendCommand k c s).frame = s.frame ∧
    (resendCommand k c s).gn8s = s.gn8s ∧
    (resendCommand k c s).heads = s.heads ∧
    (resendCommand k c s).man = s.man ∧
    (resendCommand k c s).engs = s.engs ∧
    (resendCommand k c s).sup = s.sup ∧
    (resendCommand k c s).saf = s.saf ∧
    (resendCommand k c s).ha = s.ha ∧
    (resendCommand k c s).hb = s.hb ∧
    (resendCommand k c s).pmc = s.pmc ∧
    (resendCommand k c s).img = s.img ∧
    (resendCommand k c s).flt = s.flt ∧
    (resendCommand k c s).pins = s.pins ∧
    (resendCommand k c s).shown = s.shown ∧
    (resendCommand k c s).free = s.free ∧
    (resendCommand k c s).pending = s.pending := by
  unfold resendCommand
  simp [sendFrame_keeps, modRing_keeps]

theorem execCommandRetry_keeps (k : RingIx) (s : State) (u : State) (h : execCommandRetry k s = .next u) :
    u.bell = s.bell ∧
    u.frame = s.frame ∧
    u.gn8s = s.gn8s ∧
    u.heads = s.heads ∧
    u.man = s.man ∧
    u.engs = s.engs ∧
    u.sup = s.sup ∧
    u.saf = s.saf ∧
    u.ha = s.ha ∧
    u.hb = s.hb ∧
    u.pmc = s.pmc ∧
    u.img = s.img ∧
    u.flt = s.flt ∧
    u.pins = s.pins ∧
    u.shown = s.shown ∧
    u.free = s.free ∧
    u.pending = s.pending := by
  unfold execCommandRetry at h
  (repeat' split at h) <;> (injection h with h; subst h; simp [resendCommand_keeps])

theorem execDiscoveryTimeout_keeps (k : RingIx) (s : State) (u : State) (h : execDiscoveryTimeout k s = .next u) :
    u.bell = s.bell ∧
    u.frame = s.frame ∧
    u.ports = s.ports ∧
    u.heads = s.heads ∧
    u.man = s.man ∧
    u.engs = s.engs ∧
    u.sup = s.sup ∧
    u.saf = s.saf ∧
    u.pmc = s.pmc ∧
    u.dev = s.dev ∧
    u.img = s.img ∧
    u.pins = s.pins ∧
    u.shown = s.shown ∧
    u.free = s.free ∧
    u.pending = s.pending := by
  unfold execDiscoveryTimeout at h
  (repeat' split at h) <;> (injection h with h; subst h; simp [failRing_keeps])

theorem execDirectionLoss_keeps (g : Gn8Ix) (s : State) (u : State) (h : execDirectionLoss g s = .next u) :
    u.bell = s.bell ∧
    u.frame = s.frame ∧
    u.ports = s.ports ∧
    u.heads = s.heads ∧
    u.man = s.man ∧
    u.engs = s.engs ∧
    u.sup = s.sup ∧
    u.saf = s.saf ∧
    u.pmc = s.pmc ∧
    u.dev = s.dev ∧
    u.img = s.img ∧
    u.pins = s.pins ∧
    u.shown = s.shown ∧
    u.free = s.free ∧
    u.pending = s.pending := by
  unfold execDirectionLoss at h
  dsimp only at h
  (repeat' split at h) <;> (injection h with h; subst h; simp [setGn8_keeps, modRing_keeps, sticky_keeps])

theorem execDirectionRegain_keeps (g : Gn8Ix) (s : State) (u : State) (h : execDirectionRegain g s = .next u) :
    u.bell = s.bell ∧
    u.frame = s.frame ∧
    u.ports = s.ports ∧
    u.heads = s.heads ∧
    u.man = s.man ∧
    u.engs = s.engs ∧
    u.sup = s.sup ∧
    u.saf = s.saf ∧
    u.ha = s.ha ∧
    u.hb = s.hb ∧
    u.pmc = s.pmc ∧
    u.dev = s.dev ∧
    u.img = s.img ∧
    u.flt = s.flt ∧
    u.pins = s.pins ∧
    u.shown = s.shown ∧
    u.free = s.free ∧
    u.pending = s.pending := by
  unfold execDirectionRegain at h
  dsimp only at h
  (repeat' split at h) <;> (injection h with h; subst h; simp [modRing_keeps, setGn8_keeps])

theorem execGn8OutTimeout_keeps (g : Gn8Ix) (s : State) (u : State) (h : execGn8OutTimeout g s = .next u) :
    u.bell = s.bell ∧
    u.frame = s.frame ∧
    u.ports = s.ports ∧
    u.rings = s.rings ∧
    u.heads = s.heads ∧
    u.man = s.man ∧
    u.engs = s.engs ∧
    u.sup = s.sup ∧
    u.saf = s.saf ∧
    u.ha = s.ha ∧
    u.hb = s.hb ∧
    u.pmc = s.pmc ∧
    u.dev = s.dev ∧
    u.img = s.img ∧
    u.flt = s.flt ∧
    u.pins = s.pins ∧
    u.shown = s.shown ∧
    u.free = s.free ∧
    u.pending = s.pending := by
  unfold execGn8OutTimeout at h
  dsimp only at h
  (repeat' split at h) <;> (injection h with h; subst h; simp [takeOut_keeps])

theorem sendDigestRead_keeps (k slot : Nat) (s : State) :
    (sendDigestRead k slot s).bell = s.bell ∧
    (sendDigestRead k slot s).frame = s.frame ∧
    (sendDigestRead k slot s).gn8s = s.gn8s ∧
    (sendDigestRead k slot s).heads = s.heads ∧
    (sendDigestRead k slot s).man = s.man ∧
    (sendDigestRead k slot s).engs = s.engs ∧
    (sendDigestRead k slot s).sup = s.sup ∧
    (sendDigestRead k slot s).saf = s.saf ∧
    (sendDigestRead k slot s).ha = s.ha ∧
    (sendDigestRead k slot s).hb = s.hb ∧
    (sendDigestRead k slot s).pmc = s.pmc ∧
    (sendDigestRead k slot s).img = s.img ∧
    (sendDigestRead k slot s).flt = s.flt ∧
    (sendDigestRead k slot s).pins = s.pins ∧
    (sendDigestRead k slot s).shown = s.shown ∧
    (sendDigestRead k slot s).free = s.free ∧
    (sendDigestRead k slot s).pending = s.pending := by
  unfold sendDigestRead
  simp [sendCommandAs_keeps]

theorem execDigestCheck_keeps (g : Gn8Ix) (digest : Word) (s : State) (u : State) (h : execDigestCheck g digest s
  = .next u) :
    u.bell = s.bell ∧
    u.frame = s.frame ∧
    u.heads = s.heads ∧
    u.man = s.man ∧
    u.engs = s.engs ∧
    u.sup = s.sup ∧
    u.saf = s.saf ∧
    u.ha = s.ha ∧
    u.hb = s.hb ∧
    u.pmc = s.pmc ∧
    u.img = s.img ∧
    u.flt = s.flt ∧
    u.pins = s.pins ∧
    u.shown = s.shown ∧
    u.free = s.free ∧
    u.pending = s.pending := by
  unfold execDigestCheck at h
  try dsimp only at h
  (repeat' split at h) <;> (injection h with h; subst h; simp [takeOut_keeps, modGn8_keeps, sendDigestRead_keeps])

theorem execCommaAlignment_keeps (p : PortIx) (s : State) (u : State) (h : execCommaAlignment p s = .next u) :
    u.bell = s.bell ∧
    u.frame = s.frame ∧
    u.rings = s.rings ∧
    u.gn8s = s.gn8s ∧
    u.heads = s.heads ∧
    u.man = s.man ∧
    u.engs = s.engs ∧
    u.sup = s.sup ∧
    u.saf = s.saf ∧
    u.ha = s.ha ∧
    u.hb = s.hb ∧
    u.pmc = s.pmc ∧
    u.dev = s.dev ∧
    u.img = s.img ∧
    u.flt = s.flt ∧
    u.pins = s.pins ∧
    u.shown = s.shown ∧
    u.free = s.free ∧
    u.pending = s.pending := by
  unfold execCommaAlignment at h
  (repeat' split at h) <;> (injection h with h; subst h; simp [modPort_keeps])

theorem execLinkUp_keeps (p : PortIx) (s : State) (u : State) (h : execLinkUp p s = .next u) :
    u.bell = s.bell ∧
    u.frame = s.frame ∧
    u.gn8s = s.gn8s ∧
    u.heads = s.heads ∧
    u.man = s.man ∧
    u.engs = s.engs ∧
    u.sup = s.sup ∧
    u.saf = s.saf ∧
    u.ha = s.ha ∧
    u.hb = s.hb ∧
    u.pmc = s.pmc ∧
    u.img = s.img ∧
    u.flt = s.flt ∧
    u.pins = s.pins ∧
    u.shown = s.shown ∧
    u.free = s.free ∧
    u.pending = s.pending := by
  unfold execLinkUp at h
  try dsimp only at h
  (repeat' split at h) <;> (injection h with h; subst h; simp [toStep_keeps, modRing_keeps, sendCommand_keeps,
    modPort_keeps])

theorem execLinkDown_keeps (p : PortIx) (why : LinkLoss) (s : State) (u : State)
  (h : execLinkDown p why s = .next u) :
    u.bell = s.bell ∧
    u.frame = s.frame ∧
    u.rings = s.rings ∧
    u.gn8s = s.gn8s ∧
    u.heads = s.heads ∧
    u.man = s.man ∧
    u.engs = s.engs ∧
    u.sup = s.sup ∧
    u.saf = s.saf ∧
    u.pmc = s.pmc ∧
    u.dev = s.dev ∧
    u.img = s.img ∧
    u.pins = s.pins ∧
    u.shown = s.shown ∧
    u.free = s.free ∧
    u.pending = s.pending := by
  unfold execLinkDown at h
  (repeat' split at h) <;> (injection h with h; subst h; simp [modPort_keeps, linkDownAt_keeps])

theorem execDecimationGridChange_keeps (g : Gn8Ix) (s : State) (u : State) (h : execDecimationGridChange g s =
  .next u) :
    u.bell = s.bell ∧
    u.ports = s.ports ∧
    u.man = s.man ∧
    u.sup = s.sup ∧
    u.saf = s.saf ∧
    u.pmc = s.pmc ∧
    u.dev = s.dev ∧
    u.img = s.img ∧
    u.pins = s.pins ∧
    u.shown = s.shown ∧
    u.free = s.free ∧
    u.pending = s.pending := by
  unfold execDecimationGridChange at h
  (repeat' split at h) <;> (injection h with h; subst h; simp [mergeGn8_keeps])

theorem driveRing_keeps (k : Nat) (s : State) :
    (driveRing k s).bell = s.bell ∧
    (driveRing k s).frame = s.frame ∧
    (driveRing k s).rings = s.rings ∧
    (driveRing k s).gn8s = s.gn8s ∧
    (driveRing k s).heads = s.heads ∧
    (driveRing k s).man = s.man ∧
    (driveRing k s).engs = s.engs ∧
    (driveRing k s).sup = s.sup ∧
    (driveRing k s).saf = s.saf ∧
    (driveRing k s).ha = s.ha ∧
    (driveRing k s).hb = s.hb ∧
    (driveRing k s).pmc = s.pmc ∧
    (driveRing k s).dev = s.dev ∧
    (driveRing k s).img = s.img ∧
    (driveRing k s).flt = s.flt ∧
    (driveRing k s).pins = s.pins ∧
    (driveRing k s).shown = s.shown ∧
    (driveRing k s).free = s.free ∧
    (driveRing k s).pending = s.pending := by
  unfold driveRing
  simp [modPort_keeps]

theorem startRings_keeps (s : State) :
    (startRings s).bell = s.bell ∧
    (startRings s).frame = s.frame ∧
    (startRings s).gn8s = s.gn8s ∧
    (startRings s).heads = s.heads ∧
    (startRings s).man = s.man ∧
    (startRings s).engs = s.engs ∧
    (startRings s).sup = s.sup ∧
    (startRings s).saf = s.saf ∧
    (startRings s).ha = s.ha ∧
    (startRings s).hb = s.hb ∧
    (startRings s).pmc = s.pmc ∧
    (startRings s).dev = s.dev ∧
    (startRings s).img = s.img ∧
    (startRings s).flt = s.flt ∧
    (startRings s).pins = s.pins ∧
    (startRings s).shown = s.shown ∧
    (startRings s).free = s.free ∧
    (startRings s).pending = s.pending := by
  unfold startRings
  simp [setRing_keeps, driveRing_keeps]

theorem orderGrid_keeps (d : Bool) (i : Nat) (s : State) :
    (orderGrid d i s).bell = s.bell ∧
    (orderGrid d i s).frame = s.frame ∧
    (orderGrid d i s).heads = s.heads ∧
    (orderGrid d i s).man = s.man ∧
    (orderGrid d i s).engs = s.engs ∧
    (orderGrid d i s).sup = s.sup ∧
    (orderGrid d i s).saf = s.saf ∧
    (orderGrid d i s).ha = s.ha ∧
    (orderGrid d i s).hb = s.hb ∧
    (orderGrid d i s).pmc = s.pmc ∧
    (orderGrid d i s).img = s.img ∧
    (orderGrid d i s).flt = s.flt ∧
    (orderGrid d i s).pins = s.pins ∧
    (orderGrid d i s).shown = s.shown ∧
    (orderGrid d i s).free = s.free ∧
    (orderGrid d i s).pending = s.pending := by
  unfold orderGrid
  simp [modGn8_keeps, sendCommand_keeps]

theorem ringsTick_keeps (s : State) :
    (ringsTick s).bell = s.bell ∧
    (ringsTick s).ports = s.ports ∧
    (ringsTick s).man = s.man ∧
    (ringsTick s).sup = s.sup ∧
    (ringsTick s).saf = s.saf ∧
    (ringsTick s).pmc = s.pmc ∧
    (ringsTick s).dev = s.dev ∧
    (ringsTick s).img = s.img ∧
    (ringsTick s).pins = s.pins ∧
    (ringsTick s).shown = s.shown ∧
    (ringsTick s).free = s.free ∧
    (ringsTick s).pending = s.pending := by
  unfold ringsTick
  simp [mergeGn8_keeps]

end Sys2Proof.Machine
end

