-- ==== Sys2Proof/Laws/FrameOperands.lean ====
section
/-! SUPPORT. What each operation of Operands.lean (Dyhar issue) leaves unchanged. -/

namespace Sys2Proof.Machine

theorem ctxFault_keeps (e : Nat) (c : Ctx) (code : Nat) (s : State) :
    (ctxFault e c code s).bell = s.bell ∧
    (ctxFault e c code s).ports = s.ports ∧
    (ctxFault e c code s).rings = s.rings ∧
    (ctxFault e c code s).gn8s = s.gn8s ∧
    (ctxFault e c code s).heads = s.heads ∧
    (ctxFault e c code s).man = s.man ∧
    (ctxFault e c code s).sup = s.sup ∧
    (ctxFault e c code s).saf = s.saf ∧
    (ctxFault e c code s).pmc = s.pmc ∧
    (ctxFault e c code s).dev = s.dev ∧
    (ctxFault e c code s).img = s.img ∧
    (ctxFault e c code s).pins = s.pins ∧
    (ctxFault e c code s).shown = s.shown ∧
    (ctxFault e c code s).free = s.free ∧
    (ctxFault e c code s).pending = s.pending := by
  unfold ctxFault
  simp [recordCode_keeps, noteFailed_keeps, setCore_keeps]

theorem faultAt_keeps (e : Nat) (c : Ctx) (code : Nat) (s : State) :
    (faultAt e c code s).bell = s.bell ∧
    (faultAt e c code s).ports = s.ports ∧
    (faultAt e c code s).rings = s.rings ∧
    (faultAt e c code s).gn8s = s.gn8s ∧
    (faultAt e c code s).heads = s.heads ∧
    (faultAt e c code s).man = s.man ∧
    (faultAt e c code s).sup = s.sup ∧
    (faultAt e c code s).saf = s.saf ∧
    (faultAt e c code s).pmc = s.pmc ∧
    (faultAt e c code s).dev = s.dev ∧
    (faultAt e c code s).img = s.img ∧
    (faultAt e c code s).pins = s.pins ∧
    (faultAt e c code s).shown = s.shown ∧
    (faultAt e c code s).free = s.free ∧
    (faultAt e c code s).pending = s.pending := by
  unfold faultAt
  simp [ctxFault_keeps, setCore_keeps]

theorem fetched_keeps (e : Nat) (c : Ctx) (s : State) :
    (fetched e c s).bell = s.bell ∧
    (fetched e c s).ports = s.ports ∧
    (fetched e c s).rings = s.rings ∧
    (fetched e c s).gn8s = s.gn8s ∧
    (fetched e c s).heads = s.heads ∧
    (fetched e c s).man = s.man ∧
    (fetched e c s).sup = s.sup ∧
    (fetched e c s).saf = s.saf ∧
    (fetched e c s).pmc = s.pmc ∧
    (fetched e c s).dev = s.dev ∧
    (fetched e c s).img = s.img ∧
    (fetched e c s).pins = s.pins ∧
    (fetched e c s).shown = s.shown ∧
    (fetched e c s).free = s.free ∧
    (fetched e c s).pending = s.pending := by
  unfold fetched
  simp [setCore_keeps]

theorem carryOut_keeps (e : Nat) (c : Ctx) (regs : List Nat) (act : Core → Issue) (s : State) :
    (carryOut e c regs act s).bell = s.bell ∧
    (carryOut e c regs act s).ports = s.ports ∧
    (carryOut e c regs act s).rings = s.rings ∧
    (carryOut e c regs act s).gn8s = s.gn8s ∧
    (carryOut e c regs act s).heads = s.heads ∧
    (carryOut e c regs act s).man = s.man ∧
    (carryOut e c regs act s).sup = s.sup ∧
    (carryOut e c regs act s).saf = s.saf ∧
    (carryOut e c regs act s).pmc = s.pmc ∧
    (carryOut e c regs act s).dev = s.dev ∧
    (carryOut e c regs act s).img = s.img ∧
    (carryOut e c regs act s).pins = s.pins ∧
    (carryOut e c regs act s).shown = s.shown ∧
    (carryOut e c regs act s).free = s.free ∧
    (carryOut e c regs act s).pending = s.pending := by
  unfold carryOut
  dsimp only
  (repeat' split) <;> simp [faultAt_keeps, setCore_keeps]

theorem issue_keeps (e : Nat) (c : Ctx) (specOk : Bool) (regs : List Nat) (act : Core → Issue) (s : State) :
    (issue e c specOk regs act s).bell = s.bell ∧
    (issue e c specOk regs act s).ports = s.ports ∧
    (issue e c specOk regs act s).rings = s.rings ∧
    (issue e c specOk regs act s).gn8s = s.gn8s ∧
    (issue e c specOk regs act s).heads = s.heads ∧
    (issue e c specOk regs act s).man = s.man ∧
    (issue e c specOk regs act s).sup = s.sup ∧
    (issue e c specOk regs act s).saf = s.saf ∧
    (issue e c specOk regs act s).pmc = s.pmc ∧
    (issue e c specOk regs act s).dev = s.dev ∧
    (issue e c specOk regs act s).img = s.img ∧
    (issue e c specOk regs act s).pins = s.pins ∧
    (issue e c specOk regs act s).shown = s.shown ∧
    (issue e c specOk regs act s).free = s.free ∧
    (issue e c specOk regs act s).pending = s.pending := by
  unfold issue
  simp [fetched_keeps, carryOut_keeps, faultAt_keeps, ctxFault_keeps, setCore_keeps]

theorem formR_keeps (e : Nat) (c : Ctx) (rd rs1 rs2 : Nat) (f : Word → Word → Word) (s : State) :
    (formR e c rd rs1 rs2 f s).bell = s.bell ∧
    (formR e c rd rs1 rs2 f s).ports = s.ports ∧
    (formR e c rd rs1 rs2 f s).rings = s.rings ∧
    (formR e c rd rs1 rs2 f s).gn8s = s.gn8s ∧
    (formR e c rd rs1 rs2 f s).heads = s.heads ∧
    (formR e c rd rs1 rs2 f s).man = s.man ∧
    (formR e c rd rs1 rs2 f s).sup = s.sup ∧
    (formR e c rd rs1 rs2 f s).saf = s.saf ∧
    (formR e c rd rs1 rs2 f s).pmc = s.pmc ∧
    (formR e c rd rs1 rs2 f s).dev = s.dev ∧
    (formR e c rd rs1 rs2 f s).img = s.img ∧
    (formR e c rd rs1 rs2 f s).pins = s.pins ∧
    (formR e c rd rs1 rs2 f s).shown = s.shown ∧
    (formR e c rd rs1 rs2 f s).free = s.free ∧
    (formR e c rd rs1 rs2 f s).pending = s.pending := by
  unfold formR
  simp [issue_keeps]

theorem formI_keeps (e : Nat) (c : Ctx) (rd rs1 : Nat) (f : Word → Word) (s : State) :
    (formI e c rd rs1 f s).bell = s.bell ∧
    (formI e c rd rs1 f s).ports = s.ports ∧
    (formI e c rd rs1 f s).rings = s.rings ∧
    (formI e c rd rs1 f s).gn8s = s.gn8s ∧
    (formI e c rd rs1 f s).heads = s.heads ∧
    (formI e c rd rs1 f s).man = s.man ∧
    (formI e c rd rs1 f s).sup = s.sup ∧
    (formI e c rd rs1 f s).saf = s.saf ∧
    (formI e c rd rs1 f s).pmc = s.pmc ∧
    (formI e c rd rs1 f s).dev = s.dev ∧
    (formI e c rd rs1 f s).img = s.img ∧
    (formI e c rd rs1 f s).pins = s.pins ∧
    (formI e c rd rs1 f s).shown = s.shown ∧
    (formI e c rd rs1 f s).free = s.free ∧
    (formI e c rd rs1 f s).pending = s.pending := by
  unfold formI
  simp [issue_keeps]

theorem formLoad_keeps (e : Nat) (c : Ctx) (rd rs1 : Nat) (off : BitVec 16) (n : Nat) (sx : Bool) (s : State) :
    (formLoad e c rd rs1 off n sx s).bell = s.bell ∧
    (formLoad e c rd rs1 off n sx s).ports = s.ports ∧
    (formLoad e c rd rs1 off n sx s).rings = s.rings ∧
    (formLoad e c rd rs1 off n sx s).gn8s = s.gn8s ∧
    (formLoad e c rd rs1 off n sx s).heads = s.heads ∧
    (formLoad e c rd rs1 off n sx s).man = s.man ∧
    (formLoad e c rd rs1 off n sx s).sup = s.sup ∧
    (formLoad e c rd rs1 off n sx s).saf = s.saf ∧
    (formLoad e c rd rs1 off n sx s).pmc = s.pmc ∧
    (formLoad e c rd rs1 off n sx s).dev = s.dev ∧
    (formLoad e c rd rs1 off n sx s).img = s.img ∧
    (formLoad e c rd rs1 off n sx s).pins = s.pins ∧
    (formLoad e c rd rs1 off n sx s).shown = s.shown ∧
    (formLoad e c rd rs1 off n sx s).free = s.free ∧
    (formLoad e c rd rs1 off n sx s).pending = s.pending := by
  unfold formLoad
  simp [issue_keeps]

theorem formStore_keeps (e : Nat) (c : Ctx) (rs2 rs1 : Nat) (off : BitVec 16) (n : Nat) (s : State) :
    (formStore e c rs2 rs1 off n s).bell = s.bell ∧
    (formStore e c rs2 rs1 off n s).ports = s.ports ∧
    (formStore e c rs2 rs1 off n s).rings = s.rings ∧
    (formStore e c rs2 rs1 off n s).gn8s = s.gn8s ∧
    (formStore e c rs2 rs1 off n s).heads = s.heads ∧
    (formStore e c rs2 rs1 off n s).man = s.man ∧
    (formStore e c rs2 rs1 off n s).sup = s.sup ∧
    (formStore e c rs2 rs1 off n s).saf = s.saf ∧
    (formStore e c rs2 rs1 off n s).pmc = s.pmc ∧
    (formStore e c rs2 rs1 off n s).dev = s.dev ∧
    (formStore e c rs2 rs1 off n s).img = s.img ∧
    (formStore e c rs2 rs1 off n s).pins = s.pins ∧
    (formStore e c rs2 rs1 off n s).shown = s.shown ∧
    (formStore e c rs2 rs1 off n s).free = s.free ∧
    (formStore e c rs2 rs1 off n s).pending = s.pending := by
  unfold formStore
  simp [issue_keeps]

end Sys2Proof.Machine
end

