-- ==== Sys2Proof/Laws/FrameAlu.lean ====
section
/-! SUPPORT. What each operation of Alu.lean (Dyhar branches and loads) leaves unchanged. -/

namespace Sys2Proof.Machine

theorem execAdd_keeps (e : EngIx) (c : Ctx) (rd rs1 rs2 : GReg) (s : State) (u : State) (h : execAdd e c rd rs1
  rs2 s = .next u) :
    u.bell = s.bell ∧
    u.ports = s.ports ∧
    u.rings = s.rings ∧
    u.gn8s = s.gn8s ∧
    u.heads = s.heads ∧
    u.man = s.man ∧
    u.sup = s.sup ∧
    u.saf = s.saf ∧
    u.pmc = s.pmc ∧
    u.dev = s.dev ∧
    u.img = s.img ∧
    u.pins = s.pins ∧
    u.shown = s.shown ∧
    u.free = s.free ∧
    u.pending = s.pending := by
  injection h with h
  subst h
  simp [formR_keeps]

theorem execSub_keeps (e : EngIx) (c : Ctx) (rd rs1 rs2 : GReg) (s : State) (u : State) (h : execSub e c rd rs1
  rs2 s = .next u) :
    u.bell = s.bell ∧
    u.ports = s.ports ∧
    u.rings = s.rings ∧
    u.gn8s = s.gn8s ∧
    u.heads = s.heads ∧
    u.man = s.man ∧
    u.sup = s.sup ∧
    u.saf = s.saf ∧
    u.pmc = s.pmc ∧
    u.dev = s.dev ∧
    u.img = s.img ∧
    u.pins = s.pins ∧
    u.shown = s.shown ∧
    u.free = s.free ∧
    u.pending = s.pending := by
  injection h with h
  subst h
  simp [formR_keeps]

theorem execAnd_keeps (e : EngIx) (c : Ctx) (rd rs1 rs2 : GReg) (s : State) (u : State) (h : execAnd e c rd rs1
  rs2 s = .next u) :
    u.bell = s.bell ∧
    u.ports = s.ports ∧
    u.rings = s.rings ∧
    u.gn8s = s.gn8s ∧
    u.heads = s.heads ∧
    u.man = s.man ∧
    u.sup = s.sup ∧
    u.saf = s.saf ∧
    u.pmc = s.pmc ∧
    u.dev = s.dev ∧
    u.img = s.img ∧
    u.pins = s.pins ∧
    u.shown = s.shown ∧
    u.free = s.free ∧
    u.pending = s.pending := by
  injection h with h
  subst h
  simp [formR_keeps]

theorem execOr_keeps (e : EngIx) (c : Ctx) (rd rs1 rs2 : GReg) (s : State) (u : State) (h : execOr e c rd rs1 rs2
  s = .next u) :
    u.bell = s.bell ∧
    u.ports = s.ports ∧
    u.rings = s.rings ∧
    u.gn8s = s.gn8s ∧
    u.heads = s.heads ∧
    u.man = s.man ∧
    u.sup = s.sup ∧
    u.saf = s.saf ∧
    u.pmc = s.pmc ∧
    u.dev = s.dev ∧
    u.img = s.img ∧
    u.pins = s.pins ∧
    u.shown = s.shown ∧
    u.free = s.free ∧
    u.pending = s.pending := by
  injection h with h
  subst h
  simp [formR_keeps]

theorem execXor_keeps (e : EngIx) (c : Ctx) (rd rs1 rs2 : GReg) (s : State) (u : State) (h : execXor e c rd rs1
  rs2 s = .next u) :
    u.bell = s.bell ∧
    u.ports = s.ports ∧
    u.rings = s.rings ∧
    u.gn8s = s.gn8s ∧
    u.heads = s.heads ∧
    u.man = s.man ∧
    u.sup = s.sup ∧
    u.saf = s.saf ∧
    u.pmc = s.pmc ∧
    u.dev = s.dev ∧
    u.img = s.img ∧
    u.pins = s.pins ∧
    u.shown = s.shown ∧
    u.free = s.free ∧
    u.pending = s.pending := by
  injection h with h
  subst h
  simp [formR_keeps]

theorem execSll_keeps (e : EngIx) (c : Ctx) (rd rs1 rs2 : GReg) (s : State) (u : State) (h : execSll e c rd rs1
  rs2 s = .next u) :
    u.bell = s.bell ∧
    u.ports = s.ports ∧
    u.rings = s.rings ∧
    u.gn8s = s.gn8s ∧
    u.heads = s.heads ∧
    u.man = s.man ∧
    u.sup = s.sup ∧
    u.saf = s.saf ∧
    u.pmc = s.pmc ∧
    u.dev = s.dev ∧
    u.img = s.img ∧
    u.pins = s.pins ∧
    u.shown = s.shown ∧
    u.free = s.free ∧
    u.pending = s.pending := by
  injection h with h
  subst h
  simp [formR_keeps]

theorem execSrl_keeps (e : EngIx) (c : Ctx) (rd rs1 rs2 : GReg) (s : State) (u : State) (h : execSrl e c rd rs1
  rs2 s = .next u) :
    u.bell = s.bell ∧
    u.ports = s.ports ∧
    u.rings = s.rings ∧
    u.gn8s = s.gn8s ∧
    u.heads = s.heads ∧
    u.man = s.man ∧
    u.sup = s.sup ∧
    u.saf = s.saf ∧
    u.pmc = s.pmc ∧
    u.dev = s.dev ∧
    u.img = s.img ∧
    u.pins = s.pins ∧
    u.shown = s.shown ∧
    u.free = s.free ∧
    u.pending = s.pending := by
  injection h with h
  subst h
  simp [formR_keeps]

theorem execSra_keeps (e : EngIx) (c : Ctx) (rd rs1 rs2 : GReg) (s : State) (u : State) (h : execSra e c rd rs1
  rs2 s = .next u) :
    u.bell = s.bell ∧
    u.ports = s.ports ∧
    u.rings = s.rings ∧
    u.gn8s = s.gn8s ∧
    u.heads = s.heads ∧
    u.man = s.man ∧
    u.sup = s.sup ∧
    u.saf = s.saf ∧
    u.pmc = s.pmc ∧
    u.dev = s.dev ∧
    u.img = s.img ∧
    u.pins = s.pins ∧
    u.shown = s.shown ∧
    u.free = s.free ∧
    u.pending = s.pending := by
  injection h with h
  subst h
  simp [formR_keeps]

theorem execSlt_keeps (e : EngIx) (c : Ctx) (rd rs1 rs2 : GReg) (s : State) (u : State) (h : execSlt e c rd rs1
  rs2 s = .next u) :
    u.bell = s.bell ∧
    u.ports = s.ports ∧
    u.rings = s.rings ∧
    u.gn8s = s.gn8s ∧
    u.heads = s.heads ∧
    u.man = s.man ∧
    u.sup = s.sup ∧
    u.saf = s.saf ∧
    u.pmc = s.pmc ∧
    u.dev = s.dev ∧
    u.img = s.img ∧
    u.pins = s.pins ∧
    u.shown = s.shown ∧
    u.free = s.free ∧
    u.pending = s.pending := by
  injection h with h
  subst h
  simp [formR_keeps]

theorem execSltu_keeps (e : EngIx) (c : Ctx) (rd rs1 rs2 : GReg) (s : State) (u : State) (h : execSltu e c rd rs1
  rs2 s = .next u) :
    u.bell = s.bell ∧
    u.ports = s.ports ∧
    u.rings = s.rings ∧
    u.gn8s = s.gn8s ∧
    u.heads = s.heads ∧
    u.man = s.man ∧
    u.sup = s.sup ∧
    u.saf = s.saf ∧
    u.pmc = s.pmc ∧
    u.dev = s.dev ∧
    u.img = s.img ∧
    u.pins = s.pins ∧
    u.shown = s.shown ∧
    u.free = s.free ∧
    u.pending = s.pending := by
  injection h with h
  subst h
  simp [formR_keeps]

theorem execMul_keeps (e : EngIx) (c : Ctx) (rd rs1 rs2 : GReg) (s : State) (u : State) (h : execMul e c rd rs1
  rs2 s = .next u) :
    u.bell = s.bell ∧
    u.ports = s.ports ∧
    u.rings = s.rings ∧
    u.gn8s = s.gn8s ∧
    u.heads = s.heads ∧
    u.man = s.man ∧
    u.sup = s.sup ∧
    u.saf = s.saf ∧
    u.pmc = s.pmc ∧
    u.dev = s.dev ∧
    u.img = s.img ∧
    u.pins = s.pins ∧
    u.shown = s.shown ∧
    u.free = s.free ∧
    u.pending = s.pending := by
  injection h with h
  subst h
  simp [formR_keeps]

theorem execMulh_keeps (e : EngIx) (c : Ctx) (rd rs1 rs2 : GReg) (s : State) (u : State) (h : execMulh e c rd rs1
  rs2 s = .next u) :
    u.bell = s.bell ∧
    u.ports = s.ports ∧
    u.rings = s.rings ∧
    u.gn8s = s.gn8s ∧
    u.heads = s.heads ∧
    u.man = s.man ∧
    u.sup = s.sup ∧
    u.saf = s.saf ∧
    u.pmc = s.pmc ∧
    u.dev = s.dev ∧
    u.img = s.img ∧
    u.pins = s.pins ∧
    u.shown = s.shown ∧
    u.free = s.free ∧
    u.pending = s.pending := by
  injection h with h
  subst h
  simp [formR_keeps]

theorem execMulhu_keeps (e : EngIx) (c : Ctx) (rd rs1 rs2 : GReg) (s : State) (u : State) (h : execMulhu e c rd
  rs1 rs2 s = .next u) :
    u.bell = s.bell ∧
    u.ports = s.ports ∧
    u.rings = s.rings ∧
    u.gn8s = s.gn8s ∧
    u.heads = s.heads ∧
    u.man = s.man ∧
    u.sup = s.sup ∧
    u.saf = s.saf ∧
    u.pmc = s.pmc ∧
    u.dev = s.dev ∧
    u.img = s.img ∧
    u.pins = s.pins ∧
    u.shown = s.shown ∧
    u.free = s.free ∧
    u.pending = s.pending := by
  injection h with h
  subst h
  simp [formR_keeps]

theorem execMin_keeps (e : EngIx) (c : Ctx) (rd rs1 rs2 : GReg) (s : State) (u : State) (h : execMin e c rd rs1
  rs2 s = .next u) :
    u.bell = s.bell ∧
    u.ports = s.ports ∧
    u.rings = s.rings ∧
    u.gn8s = s.gn8s ∧
    u.heads = s.heads ∧
    u.man = s.man ∧
    u.sup = s.sup ∧
    u.saf = s.saf ∧
    u.pmc = s.pmc ∧
    u.dev = s.dev ∧
    u.img = s.img ∧
    u.pins = s.pins ∧
    u.shown = s.shown ∧
    u.free = s.free ∧
    u.pending = s.pending := by
  injection h with h
  subst h
  simp [formR_keeps]

theorem execMax_keeps (e : EngIx) (c : Ctx) (rd rs1 rs2 : GReg) (s : State) (u : State) (h : execMax e c rd rs1
  rs2 s = .next u) :
    u.bell = s.bell ∧
    u.ports = s.ports ∧
    u.rings = s.rings ∧
    u.gn8s = s.gn8s ∧
    u.heads = s.heads ∧
    u.man = s.man ∧
    u.sup = s.sup ∧
    u.saf = s.saf ∧
    u.pmc = s.pmc ∧
    u.dev = s.dev ∧
    u.img = s.img ∧
    u.pins = s.pins ∧
    u.shown = s.shown ∧
    u.free = s.free ∧
    u.pending = s.pending := by
  injection h with h
  subst h
  simp [formR_keeps]

theorem execMinu_keeps (e : EngIx) (c : Ctx) (rd rs1 rs2 : GReg) (s : State) (u : State) (h : execMinu e c rd rs1
  rs2 s = .next u) :
    u.bell = s.bell ∧
    u.ports = s.ports ∧
    u.rings = s.rings ∧
    u.gn8s = s.gn8s ∧
    u.heads = s.heads ∧
    u.man = s.man ∧
    u.sup = s.sup ∧
    u.saf = s.saf ∧
    u.pmc = s.pmc ∧
    u.dev = s.dev ∧
    u.img = s.img ∧
    u.pins = s.pins ∧
    u.shown = s.shown ∧
    u.free = s.free ∧
    u.pending = s.pending := by
  injection h with h
  subst h
  simp [formR_keeps]

theorem execMaxu_keeps (e : EngIx) (c : Ctx) (rd rs1 rs2 : GReg) (s : State) (u : State) (h : execMaxu e c rd rs1
  rs2 s = .next u) :
    u.bell = s.bell ∧
    u.ports = s.ports ∧
    u.rings = s.rings ∧
    u.gn8s = s.gn8s ∧
    u.heads = s.heads ∧
    u.man = s.man ∧
    u.sup = s.sup ∧
    u.saf = s.saf ∧
    u.pmc = s.pmc ∧
    u.dev = s.dev ∧
    u.img = s.img ∧
    u.pins = s.pins ∧
    u.shown = s.shown ∧
    u.free = s.free ∧
    u.pending = s.pending := by
  injection h with h
  subst h
  simp [formR_keeps]

theorem execAbs_keeps (e : EngIx) (c : Ctx) (rd rs1 : GReg) (s : State) (u : State) (h : execAbs e c rd rs1 s =
  .next u) :
    u.bell = s.bell ∧
    u.ports = s.ports ∧
    u.rings = s.rings ∧
    u.gn8s = s.gn8s ∧
    u.heads = s.heads ∧
    u.man = s.man ∧
    u.sup = s.sup ∧
    u.saf = s.saf ∧
    u.pmc = s.pmc ∧
    u.dev = s.dev ∧
    u.img = s.img ∧
    u.pins = s.pins ∧
    u.shown = s.shown ∧
    u.free = s.free ∧
    u.pending = s.pending := by
  injection h with h
  subst h
  simp [formI_keeps]

theorem execClz_keeps (e : EngIx) (c : Ctx) (rd rs1 : GReg) (s : State) (u : State) (h : execClz e c rd rs1 s =
  .next u) :
    u.bell = s.bell ∧
    u.ports = s.ports ∧
    u.rings = s.rings ∧
    u.gn8s = s.gn8s ∧
    u.heads = s.heads ∧
    u.man = s.man ∧
    u.sup = s.sup ∧
    u.saf = s.saf ∧
    u.pmc = s.pmc ∧
    u.dev = s.dev ∧
    u.img = s.img ∧
    u.pins = s.pins ∧
    u.shown = s.shown ∧
    u.free = s.free ∧
    u.pending = s.pending := by
  injection h with h
  subst h
  simp [formI_keeps]

theorem execAddi_keeps (e : EngIx) (c : Ctx) (rd rs1 : GReg) (imm : BitVec 16) (s : State) (u : State) (h :
  execAddi e c rd rs1 imm s = .next u) :
    u.bell = s.bell ∧
    u.ports = s.ports ∧
    u.rings = s.rings ∧
    u.gn8s = s.gn8s ∧
    u.heads = s.heads ∧
    u.man = s.man ∧
    u.sup = s.sup ∧
    u.saf = s.saf ∧
    u.pmc = s.pmc ∧
    u.dev = s.dev ∧
    u.img = s.img ∧
    u.pins = s.pins ∧
    u.shown = s.shown ∧
    u.free = s.free ∧
    u.pending = s.pending := by
  injection h with h
  subst h
  simp [formI_keeps]

theorem execAndi_keeps (e : EngIx) (c : Ctx) (rd rs1 : GReg) (imm : BitVec 16) (s : State) (u : State) (h :
  execAndi e c rd rs1 imm s = .next u) :
    u.bell = s.bell ∧
    u.ports = s.ports ∧
    u.rings = s.rings ∧
    u.gn8s = s.gn8s ∧
    u.heads = s.heads ∧
    u.man = s.man ∧
    u.sup = s.sup ∧
    u.saf = s.saf ∧
    u.pmc = s.pmc ∧
    u.dev = s.dev ∧
    u.img = s.img ∧
    u.pins = s.pins ∧
    u.shown = s.shown ∧
    u.free = s.free ∧
    u.pending = s.pending := by
  injection h with h
  subst h
  simp [formI_keeps]

theorem execOri_keeps (e : EngIx) (c : Ctx) (rd rs1 : GReg) (imm : BitVec 16) (s : State) (u : State) (h : execOri
  e c rd rs1 imm s = .next u) :
    u.bell = s.bell ∧
    u.ports = s.ports ∧
    u.rings = s.rings ∧
    u.gn8s = s.gn8s ∧
    u.heads = s.heads ∧
    u.man = s.man ∧
    u.sup = s.sup ∧
    u.saf = s.saf ∧
    u.pmc = s.pmc ∧
    u.dev = s.dev ∧
    u.img = s.img ∧
    u.pins = s.pins ∧
    u.shown = s.shown ∧
    u.free = s.free ∧
    u.pending = s.pending := by
  injection h with h
  subst h
  simp [formI_keeps]

theorem execXori_keeps (e : EngIx) (c : Ctx) (rd rs1 : GReg) (imm : BitVec 16) (s : State) (u : State) (h :
  execXori e c rd rs1 imm s = .next u) :
    u.bell = s.bell ∧
    u.ports = s.ports ∧
    u.rings = s.rings ∧
    u.gn8s = s.gn8s ∧
    u.heads = s.heads ∧
    u.man = s.man ∧
    u.sup = s.sup ∧
    u.saf = s.saf ∧
    u.pmc = s.pmc ∧
    u.dev = s.dev ∧
    u.img = s.img ∧
    u.pins = s.pins ∧
    u.shown = s.shown ∧
    u.free = s.free ∧
    u.pending = s.pending := by
  injection h with h
  subst h
  simp [formI_keeps]

theorem execSlti_keeps (e : EngIx) (c : Ctx) (rd rs1 : GReg) (imm : BitVec 16) (s : State) (u : State) (h :
  execSlti e c rd rs1 imm s = .next u) :
    u.bell = s.bell ∧
    u.ports = s.ports ∧
    u.rings = s.rings ∧
    u.gn8s = s.gn8s ∧
    u.heads = s.heads ∧
    u.man = s.man ∧
    u.sup = s.sup ∧
    u.saf = s.saf ∧
    u.pmc = s.pmc ∧
    u.dev = s.dev ∧
    u.img = s.img ∧
    u.pins = s.pins ∧
    u.shown = s.shown ∧
    u.free = s.free ∧
    u.pending = s.pending := by
  injection h with h
  subst h
  simp [formI_keeps]

theorem execSltiu_keeps (e : EngIx) (c : Ctx) (rd rs1 : GReg) (imm : BitVec 16) (s : State) (u : State) (h :
  execSltiu e c rd rs1 imm s = .next u) :
    u.bell = s.bell ∧
    u.ports = s.ports ∧
    u.rings = s.rings ∧
    u.gn8s = s.gn8s ∧
    u.heads = s.heads ∧
    u.man = s.man ∧
    u.sup = s.sup ∧
    u.saf = s.saf ∧
    u.pmc = s.pmc ∧
    u.dev = s.dev ∧
    u.img = s.img ∧
    u.pins = s.pins ∧
    u.shown = s.shown ∧
    u.free = s.free ∧
    u.pending = s.pending := by
  injection h with h
  subst h
  simp [formI_keeps]

theorem execShi_keeps (e : EngIx) (c : Ctx) (rd rs1 : GReg) (kind : Fin 4) (sh : BitVec 5) (s : State) (u : State)
  (h : execShi e c rd rs1 kind sh s = .next u) :
    u.bell = s.bell ∧
    u.ports = s.ports ∧
    u.rings = s.rings ∧
    u.gn8s = s.gn8s ∧
    u.heads = s.heads ∧
    u.man = s.man ∧
    u.sup = s.sup ∧
    u.saf = s.saf ∧
    u.pmc = s.pmc ∧
    u.dev = s.dev ∧
    u.img = s.img ∧
    u.pins = s.pins ∧
    u.shown = s.shown ∧
    u.free = s.free ∧
    u.pending = s.pending := by
  unfold execShi at h
  (repeat' split at h) <;> (injection h with h; subst h; simp [formI_keeps, issue_keeps])

theorem execLui_keeps (e : EngIx) (c : Ctx) (rd : GReg) (imm : BitVec 16) (s : State) (u : State) (h : execLui e c
  rd imm s = .next u) :
    u.bell = s.bell ∧
    u.ports = s.ports ∧
    u.rings = s.rings ∧
    u.gn8s = s.gn8s ∧
    u.heads = s.heads ∧
    u.man = s.man ∧
    u.sup = s.sup ∧
    u.saf = s.saf ∧
    u.pmc = s.pmc ∧
    u.dev = s.dev ∧
    u.img = s.img ∧
    u.pins = s.pins ∧
    u.shown = s.shown ∧
    u.free = s.free ∧
    u.pending = s.pending := by
  injection h with h
  subst h
  simp [formI_keeps]

theorem execLw_keeps (e : EngIx) (c : Ctx) (rd rs1 : GReg) (off : BitVec 16) (s : State) (u : State) (h : execLw e
  c rd rs1 off s = .next u) :
    u.bell = s.bell ∧
    u.ports = s.ports ∧
    u.rings = s.rings ∧
    u.gn8s = s.gn8s ∧
    u.heads = s.heads ∧
    u.man = s.man ∧
    u.sup = s.sup ∧
    u.saf = s.saf ∧
    u.pmc = s.pmc ∧
    u.dev = s.dev ∧
    u.img = s.img ∧
    u.pins = s.pins ∧
    u.shown = s.shown ∧
    u.free = s.free ∧
    u.pending = s.pending := by
  injection h with h
  subst h
  simp [formLoad_keeps]

theorem execLh_keeps (e : EngIx) (c : Ctx) (rd rs1 : GReg) (off : BitVec 16) (s : State) (u : State) (h : execLh e
  c rd rs1 off s = .next u) :
    u.bell = s.bell ∧
    u.ports = s.ports ∧
    u.rings = s.rings ∧
    u.gn8s = s.gn8s ∧
    u.heads = s.heads ∧
    u.man = s.man ∧
    u.sup = s.sup ∧
    u.saf = s.saf ∧
    u.pmc = s.pmc ∧
    u.dev = s.dev ∧
    u.img = s.img ∧
    u.pins = s.pins ∧
    u.shown = s.shown ∧
    u.free = s.free ∧
    u.pending = s.pending := by
  injection h with h
  subst h
  simp [formLoad_keeps]

theorem execLhu_keeps (e : EngIx) (c : Ctx) (rd rs1 : GReg) (off : BitVec 16) (s : State) (u : State) (h : execLhu
  e c rd rs1 off s = .next u) :
    u.bell = s.bell ∧
    u.ports = s.ports ∧
    u.rings = s.rings ∧
    u.gn8s = s.gn8s ∧
    u.heads = s.heads ∧
    u.man = s.man ∧
    u.sup = s.sup ∧
    u.saf = s.saf ∧
    u.pmc = s.pmc ∧
    u.dev = s.dev ∧
    u.img = s.img ∧
    u.pins = s.pins ∧
    u.shown = s.shown ∧
    u.free = s.free ∧
    u.pending = s.pending := by
  injection h with h
  subst h
  simp [formLoad_keeps]

theorem execLb_keeps (e : EngIx) (c : Ctx) (rd rs1 : GReg) (off : BitVec 16) (s : State) (u : State) (h : execLb e
  c rd rs1 off s = .next u) :
    u.bell = s.bell ∧
    u.ports = s.ports ∧
    u.rings = s.rings ∧
    u.gn8s = s.gn8s ∧
    u.heads = s.heads ∧
    u.man = s.man ∧
    u.sup = s.sup ∧
    u.saf = s.saf ∧
    u.pmc = s.pmc ∧
    u.dev = s.dev ∧
    u.img = s.img ∧
    u.pins = s.pins ∧
    u.shown = s.shown ∧
    u.free = s.free ∧
    u.pending = s.pending := by
  injection h with h
  subst h
  simp [formLoad_keeps]

theorem execLbu_keeps (e : EngIx) (c : Ctx) (rd rs1 : GReg) (off : BitVec 16) (s : State) (u : State) (h : execLbu
  e c rd rs1 off s = .next u) :
    u.bell = s.bell ∧
    u.ports = s.ports ∧
    u.rings = s.rings ∧
    u.gn8s = s.gn8s ∧
    u.heads = s.heads ∧
    u.man = s.man ∧
    u.sup = s.sup ∧
    u.saf = s.saf ∧
    u.pmc = s.pmc ∧
    u.dev = s.dev ∧
    u.img = s.img ∧
    u.pins = s.pins ∧
    u.shown = s.shown ∧
    u.free = s.free ∧
    u.pending = s.pending := by
  injection h with h
  subst h
  simp [formLoad_keeps]

theorem execSw_keeps (e : EngIx) (c : Ctx) (rs2 rs1 : GReg) (off : BitVec 16) (s : State) (u : State) (h : execSw
  e c rs2 rs1 off s = .next u) :
    u.bell = s.bell ∧
    u.ports = s.ports ∧
    u.rings = s.rings ∧
    u.gn8s = s.gn8s ∧
    u.heads = s.heads ∧
    u.man = s.man ∧
    u.sup = s.sup ∧
    u.saf = s.saf ∧
    u.pmc = s.pmc ∧
    u.dev = s.dev ∧
    u.img = s.img ∧
    u.pins = s.pins ∧
    u.shown = s.shown ∧
    u.free = s.free ∧
    u.pending = s.pending := by
  injection h with h
  subst h
  simp [formStore_keeps]

theorem execSh_keeps (e : EngIx) (c : Ctx) (rs2 rs1 : GReg) (off : BitVec 16) (s : State) (u : State) (h : execSh
  e c rs2 rs1 off s = .next u) :
    u.bell = s.bell ∧
    u.ports = s.ports ∧
    u.rings = s.rings ∧
    u.gn8s = s.gn8s ∧
    u.heads = s.heads ∧
    u.man = s.man ∧
    u.sup = s.sup ∧
    u.saf = s.saf ∧
    u.pmc = s.pmc ∧
    u.dev = s.dev ∧
    u.img = s.img ∧
    u.pins = s.pins ∧
    u.shown = s.shown ∧
    u.free = s.free ∧
    u.pending = s.pending := by
  injection h with h
  subst h
  simp [formStore_keeps]

theorem execSb_keeps (e : EngIx) (c : Ctx) (rs2 rs1 : GReg) (off : BitVec 16) (s : State) (u : State) (h : execSb
  e c rs2 rs1 off s = .next u) :
    u.bell = s.bell ∧
    u.ports = s.ports ∧
    u.rings = s.rings ∧
    u.gn8s = s.gn8s ∧
    u.heads = s.heads ∧
    u.man = s.man ∧
    u.sup = s.sup ∧
    u.saf = s.saf ∧
    u.pmc = s.pmc ∧
    u.dev = s.dev ∧
    u.img = s.img ∧
    u.pins = s.pins ∧
    u.shown = s.shown ∧
    u.free = s.free ∧
    u.pending = s.pending := by
  injection h with h
  subst h
  simp [formStore_keeps]

theorem sharedDone_keeps (e : Nat) (c : Ctx) (o : SharedOp) (s : State) :
    (sharedDone e c o s).bell = s.bell ∧
    (sharedDone e c o s).ports = s.ports ∧
    (sharedDone e c o s).rings = s.rings ∧
    (sharedDone e c o s).gn8s = s.gn8s ∧
    (sharedDone e c o s).heads = s.heads ∧
    (sharedDone e c o s).man = s.man ∧
    (sharedDone e c o s).sup = s.sup ∧
    (sharedDone e c o s).saf = s.saf ∧
    (sharedDone e c o s).pmc = s.pmc ∧
    (sharedDone e c o s).dev = s.dev ∧
    (sharedDone e c o s).img = s.img ∧
    (sharedDone e c o s).pins = s.pins ∧
    (sharedDone e c o s).shown = s.shown ∧
    (sharedDone e c o s).free = s.free ∧
    (sharedDone e c o s).pending = s.pending := by
  unfold sharedDone
  simp [setCore_keeps]

theorem execSharedLoadComplete_keeps (e : EngIx) (c : Ctx) (t : Fin 8) (s : State) (u : State) (h :
  execSharedLoadComplete e c t s = .next u) :
    u.bell = s.bell ∧
    u.ports = s.ports ∧
    u.rings = s.rings ∧
    u.gn8s = s.gn8s ∧
    u.heads = s.heads ∧
    u.man = s.man ∧
    u.sup = s.sup ∧
    u.saf = s.saf ∧
    u.pmc = s.pmc ∧
    u.dev = s.dev ∧
    u.img = s.img ∧
    u.pins = s.pins ∧
    u.shown = s.shown ∧
    u.free = s.free ∧
    u.pending = s.pending := by
  unfold execSharedLoadComplete at h
  (repeat' split at h) <;> (injection h with h; subst h; simp [sharedDone_keeps])

theorem formBranch_keeps (e : Nat) (c : Ctx) (cond : Cond) (rs1 rs2 : Nat) (off : BitVec 16) (s : State) :
    (formBranch e c cond rs1 rs2 off s).bell = s.bell ∧
    (formBranch e c cond rs1 rs2 off s).ports = s.ports ∧
    (formBranch e c cond rs1 rs2 off s).rings = s.rings ∧
    (formBranch e c cond rs1 rs2 off s).gn8s = s.gn8s ∧
    (formBranch e c cond rs1 rs2 off s).heads = s.heads ∧
    (formBranch e c cond rs1 rs2 off s).man = s.man ∧
    (formBranch e c cond rs1 rs2 off s).sup = s.sup ∧
    (formBranch e c cond rs1 rs2 off s).saf = s.saf ∧
    (formBranch e c cond rs1 rs2 off s).pmc = s.pmc ∧
    (formBranch e c cond rs1 rs2 off s).dev = s.dev ∧
    (formBranch e c cond rs1 rs2 off s).img = s.img ∧
    (formBranch e c cond rs1 rs2 off s).pins = s.pins ∧
    (formBranch e c cond rs1 rs2 off s).shown = s.shown ∧
    (formBranch e c cond rs1 rs2 off s).free = s.free ∧
    (formBranch e c cond rs1 rs2 off s).pending = s.pending := by
  unfold formBranch
  simp [issue_keeps]

theorem execBeq_keeps (e : EngIx) (c : Ctx) (rs1 rs2 : GReg) (off : BitVec 16) (s : State) (u : State) (h :
  execBeq e c rs1 rs2 off s = .next u) :
    u.bell = s.bell ∧
    u.ports = s.ports ∧
    u.rings = s.rings ∧
    u.gn8s = s.gn8s ∧
    u.heads = s.heads ∧
    u.man = s.man ∧
    u.sup = s.sup ∧
    u.saf = s.saf ∧
    u.pmc = s.pmc ∧
    u.dev = s.dev ∧
    u.img = s.img ∧
    u.pins = s.pins ∧
    u.shown = s.shown ∧
    u.free = s.free ∧
    u.pending = s.pending := by
  injection h with h
  subst h
  simp [formBranch_keeps]

theorem execBne_keeps (e : EngIx) (c : Ctx) (rs1 rs2 : GReg) (off : BitVec 16) (s : State) (u : State) (h :
  execBne e c rs1 rs2 off s = .next u) :
    u.bell = s.bell ∧
    u.ports = s.ports ∧
    u.rings = s.rings ∧
    u.gn8s = s.gn8s ∧
    u.heads = s.heads ∧
    u.man = s.man ∧
    u.sup = s.sup ∧
    u.saf = s.saf ∧
    u.pmc = s.pmc ∧
    u.dev = s.dev ∧
    u.img = s.img ∧
    u.pins = s.pins ∧
    u.shown = s.shown ∧
    u.free = s.free ∧
    u.pending = s.pending := by
  injection h with h
  subst h
  simp [formBranch_keeps]

theorem execBlt_keeps (e : EngIx) (c : Ctx) (rs1 rs2 : GReg) (off : BitVec 16) (s : State) (u : State) (h :
  execBlt e c rs1 rs2 off s = .next u) :
    u.bell = s.bell ∧
    u.ports = s.ports ∧
    u.rings = s.rings ∧
    u.gn8s = s.gn8s ∧
    u.heads = s.heads ∧
    u.man = s.man ∧
    u.sup = s.sup ∧
    u.saf = s.saf ∧
    u.pmc = s.pmc ∧
    u.dev = s.dev ∧
    u.img = s.img ∧
    u.pins = s.pins ∧
    u.shown = s.shown ∧
    u.free = s.free ∧
    u.pending = s.pending := by
  injection h with h
  subst h
  simp [formBranch_keeps]

theorem execBge_keeps (e : EngIx) (c : Ctx) (rs1 rs2 : GReg) (off : BitVec 16) (s : State) (u : State) (h :
  execBge e c rs1 rs2 off s = .next u) :
    u.bell = s.bell ∧
    u.ports = s.ports ∧
    u.rings = s.rings ∧
    u.gn8s = s.gn8s ∧
    u.heads = s.heads ∧
    u.man = s.man ∧
    u.sup = s.sup ∧
    u.saf = s.saf ∧
    u.pmc = s.pmc ∧
    u.dev = s.dev ∧
    u.img = s.img ∧
    u.pins = s.pins ∧
    u.shown = s.shown ∧
    u.free = s.free ∧
    u.pending = s.pending := by
  injection h with h
  subst h
  simp [formBranch_keeps]

theorem execBltu_keeps (e : EngIx) (c : Ctx) (rs1 rs2 : GReg) (off : BitVec 16) (s : State) (u : State) (h :
  execBltu e c rs1 rs2 off s = .next u) :
    u.bell = s.bell ∧
    u.ports = s.ports ∧
    u.rings = s.rings ∧
    u.gn8s = s.gn8s ∧
    u.heads = s.heads ∧
    u.man = s.man ∧
    u.sup = s.sup ∧
    u.saf = s.saf ∧
    u.pmc = s.pmc ∧
    u.dev = s.dev ∧
    u.img = s.img ∧
    u.pins = s.pins ∧
    u.shown = s.shown ∧
    u.free = s.free ∧
    u.pending = s.pending := by
  injection h with h
  subst h
  simp [formBranch_keeps]

theorem execBgeu_keeps (e : EngIx) (c : Ctx) (rs1 rs2 : GReg) (off : BitVec 16) (s : State) (u : State) (h :
  execBgeu e c rs1 rs2 off s = .next u) :
    u.bell = s.bell ∧
    u.ports = s.ports ∧
    u.rings = s.rings ∧
    u.gn8s = s.gn8s ∧
    u.heads = s.heads ∧
    u.man = s.man ∧
    u.sup = s.sup ∧
    u.saf = s.saf ∧
    u.pmc = s.pmc ∧
    u.dev = s.dev ∧
    u.img = s.img ∧
    u.pins = s.pins ∧
    u.shown = s.shown ∧
    u.free = s.free ∧
    u.pending = s.pending := by
  injection h with h
  subst h
  simp [formBranch_keeps]

theorem execJal_keeps (e : EngIx) (c : Ctx) (off : BitVec 26) (s : State) (u : State) (h : execJal e c off s =
  .next u) :
    u.bell = s.bell ∧
    u.ports = s.ports ∧
    u.rings = s.rings ∧
    u.gn8s = s.gn8s ∧
    u.heads = s.heads ∧
    u.man = s.man ∧
    u.sup = s.sup ∧
    u.saf = s.saf ∧
    u.pmc = s.pmc ∧
    u.dev = s.dev ∧
    u.img = s.img ∧
    u.pins = s.pins ∧
    u.shown = s.shown ∧
    u.free = s.free ∧
    u.pending = s.pending := by
  injection h with h
  subst h
  simp [issue_keeps]

theorem execJalr_keeps (e : EngIx) (c : Ctx) (rd rs1 : GReg) (imm : BitVec 16) (s : State) (u : State) (h :
  execJalr e c rd rs1 imm s = .next u) :
    u.bell = s.bell ∧
    u.ports = s.ports ∧
    u.rings = s.rings ∧
    u.gn8s = s.gn8s ∧
    u.heads = s.heads ∧
    u.man = s.man ∧
    u.sup = s.sup ∧
    u.saf = s.saf ∧
    u.pmc = s.pmc ∧
    u.dev = s.dev ∧
    u.img = s.img ∧
    u.pins = s.pins ∧
    u.shown = s.shown ∧
    u.free = s.free ∧
    u.pending = s.pending := by
  injection h with h
  subst h
  simp [issue_keeps]

theorem resolveBranch_keeps (e : Nat) (c : Ctx) (sp : Spec) (s : State) :
    (resolveBranch e c sp s).bell = s.bell ∧
    (resolveBranch e c sp s).ports = s.ports ∧
    (resolveBranch e c sp s).rings = s.rings ∧
    (resolveBranch e c sp s).gn8s = s.gn8s ∧
    (resolveBranch e c sp s).heads = s.heads ∧
    (resolveBranch e c sp s).man = s.man ∧
    (resolveBranch e c sp s).sup = s.sup ∧
    (resolveBranch e c sp s).saf = s.saf ∧
    (resolveBranch e c sp s).pmc = s.pmc ∧
    (resolveBranch e c sp s).dev = s.dev ∧
    (resolveBranch e c sp s).img = s.img ∧
    (resolveBranch e c sp s).pins = s.pins ∧
    (resolveBranch e c sp s).shown = s.shown ∧
    (resolveBranch e c sp s).free = s.free ∧
    (resolveBranch e c sp s).pending = s.pending := by
  unfold resolveBranch
  dsimp only
  (repeat' split) <;> simp [ctxFault_keeps, failCheck_keeps, setCore_keeps]

theorem execBranchResolve_keeps (e : EngIx) (c : Ctx) (s : State) (u : State) (h : execBranchResolve e c s = .next
  u) :
    u.bell = s.bell ∧
    u.ports = s.ports ∧
    u.rings = s.rings ∧
    u.gn8s = s.gn8s ∧
    u.heads = s.heads ∧
    u.man = s.man ∧
    u.sup = s.sup ∧
    u.saf = s.saf ∧
    u.pmc = s.pmc ∧
    u.dev = s.dev ∧
    u.img = s.img ∧
    u.pins = s.pins ∧
    u.shown = s.shown ∧
    u.free = s.free ∧
    u.pending = s.pending := by
  unfold execBranchResolve at h
  dsimp only at h
  (repeat' split at h) <;> (injection h with h; subst h; first | (simp [resolveBranch_keeps]; done) | ((repeat'
    split) <;> simp [resolveBranch_keeps]))

end Sys2Proof.Machine
end

