-- ==== Sys2Proof/Laws/FrameCop.lean ====
section
/-! SUPPORT. What each operation of Cop.lean (coprocessor) leaves unchanged. -/

namespace Sys2Proof.Machine

theorem dispatch_keeps (e : Nat) (c : Ctx) (kind : CopKind) (t vd va vb gs mode : Nat) (s : State) :
    (dispatch e c kind t vd va vb gs mode s).bell = s.bell ∧
    (dispatch e c kind t vd va vb gs mode s).ports = s.ports ∧
    (dispatch e c kind t vd va vb gs mode s).rings = s.rings ∧
    (dispatch e c kind t vd va vb gs mode s).gn8s = s.gn8s ∧
    (dispatch e c kind t vd va vb gs mode s).heads = s.heads ∧
    (dispatch e c kind t vd va vb gs mode s).man = s.man ∧
    (dispatch e c kind t vd va vb gs mode s).sup = s.sup ∧
    (dispatch e c kind t vd va vb gs mode s).saf = s.saf ∧
    (dispatch e c kind t vd va vb gs mode s).pmc = s.pmc ∧
    (dispatch e c kind t vd va vb gs mode s).dev = s.dev ∧
    (dispatch e c kind t vd va vb gs mode s).img = s.img ∧
    (dispatch e c kind t vd va vb gs mode s).pins = s.pins ∧
    (dispatch e c kind t vd va vb gs mode s).shown = s.shown ∧
    (dispatch e c kind t vd va vb gs mode s).free = s.free ∧
    (dispatch e c kind t vd va vb gs mode s).pending = s.pending := by
  unfold dispatch
  simp [issue_keeps]

theorem execVld_keeps (e : EngIx) (c : Ctx) (t : BitVec 5) (vd : VReg) (gs : GReg) (m : BitVec 4) (s : State) (u :
  State) (h : execVld e c t vd gs m s = .next u) :
    u.bell = s.bell ∧
    u.ports = s.ports ∧
    u.rings = s.rings ∧
    u.gn8s = s.gn8s ∧
    u.heads = s.heads ∧
    u.man = s.man ∧
    u.sup = s.sup ∧
    u.saf = s.saf ∧
    u.pmc = s.pmc ∧
    u.dev = s.dev ∧
    u.img = s.img ∧
    u.pins = s.pins ∧
    u.shown = s.shown ∧
    u.free = s.free ∧
    u.pending = s.pending := by
  injection h with h
  subst h
  simp [dispatch_keeps]

theorem execVst_keeps (e : EngIx) (c : Ctx) (t : BitVec 5) (va : VReg) (gs : GReg) (m : BitVec 4) (s : State) (u :
  State) (h : execVst e c t va gs m s = .next u) :
    u.bell = s.bell ∧
    u.ports = s.ports ∧
    u.rings = s.rings ∧
    u.gn8s = s.gn8s ∧
    u.heads = s.heads ∧
    u.man = s.man ∧
    u.sup = s.sup ∧
    u.saf = s.saf ∧
    u.pmc = s.pmc ∧
    u.dev = s.dev ∧
    u.img = s.img ∧
    u.pins = s.pins ∧
    u.shown = s.shown ∧
    u.free = s.free ∧
    u.pending = s.pending := by
  injection h with h
  subst h
  simp [dispatch_keeps]

theorem execVfir_keeps (e : EngIx) (c : Ctx) (t : BitVec 5) (vd va vb : VReg) (gs : GReg) (m : BitVec 4) (s :
  State) (u : State) (h : execVfir e c t vd va vb gs m s = .next u) :
    u.bell = s.bell ∧
    u.ports = s.ports ∧
    u.rings = s.rings ∧
    u.gn8s = s.gn8s ∧
    u.heads = s.heads ∧
    u.man = s.man ∧
    u.sup = s.sup ∧
    u.saf = s.saf ∧
    u.pmc = s.pmc ∧
    u.dev = s.dev ∧
    u.img = s.img ∧
    u.pins = s.pins ∧
    u.shown = s.shown ∧
    u.free = s.free ∧
    u.pending = s.pending := by
  injection h with h
  subst h
  simp [dispatch_keeps]

theorem execVmac_keeps (e : EngIx) (c : Ctx) (t : BitVec 5) (vd va vb : VReg) (m : BitVec 4) (s : State) (u :
  State) (h : execVmac e c t vd va vb m s = .next u) :
    u.bell = s.bell ∧
    u.ports = s.ports ∧
    u.rings = s.rings ∧
    u.gn8s = s.gn8s ∧
    u.heads = s.heads ∧
    u.man = s.man ∧
    u.sup = s.sup ∧
    u.saf = s.saf ∧
    u.pmc = s.pmc ∧
    u.dev = s.dev ∧
    u.img = s.img ∧
    u.pins = s.pins ∧
    u.shown = s.shown ∧
    u.free = s.free ∧
    u.pending = s.pending := by
  injection h with h
  subst h
  simp [dispatch_keeps]

theorem execVcorr_keeps (e : EngIx) (c : Ctx) (t : BitVec 5) (vd va vb : VReg) (m : BitVec 4) (s : State) (u :
  State) (h : execVcorr e c t vd va vb m s = .next u) :
    u.bell = s.bell ∧
    u.ports = s.ports ∧
    u.rings = s.rings ∧
    u.gn8s = s.gn8s ∧
    u.heads = s.heads ∧
    u.man = s.man ∧
    u.sup = s.sup ∧
    u.saf = s.saf ∧
    u.pmc = s.pmc ∧
    u.dev = s.dev ∧
    u.img = s.img ∧
    u.pins = s.pins ∧
    u.shown = s.shown ∧
    u.free = s.free ∧
    u.pending = s.pending := by
  injection h with h
  subst h
  simp [dispatch_keeps]

theorem execVmag_keeps (e : EngIx) (c : Ctx) (t : BitVec 5) (vd va vb : VReg) (m : BitVec 4) (s : State) (u :
  State) (h : execVmag e c t vd va vb m s = .next u) :
    u.bell = s.bell ∧
    u.ports = s.ports ∧
    u.rings = s.rings ∧
    u.gn8s = s.gn8s ∧
    u.heads = s.heads ∧
    u.man = s.man ∧
    u.sup = s.sup ∧
    u.saf = s.saf ∧
    u.pmc = s.pmc ∧
    u.dev = s.dev ∧
    u.img = s.img ∧
    u.pins = s.pins ∧
    u.shown = s.shown ∧
    u.free = s.free ∧
    u.pending = s.pending := by
  injection h with h
  subst h
  simp [dispatch_keeps]

theorem execVnorm_keeps (e : EngIx) (c : Ctx) (t : BitVec 5) (vd va : VReg) (m : BitVec 4) (s : State) (u : State)
  (h : execVnorm e c t vd va m s = .next u) :
    u.bell = s.bell ∧
    u.ports = s.ports ∧
    u.rings = s.rings ∧
    u.gn8s = s.gn8s ∧
    u.heads = s.heads ∧
    u.man = s.man ∧
    u.sup = s.sup ∧
    u.saf = s.saf ∧
    u.pmc = s.pmc ∧
    u.dev = s.dev ∧
    u.img = s.img ∧
    u.pins = s.pins ∧
    u.shown = s.shown ∧
    u.free = s.free ∧
    u.pending = s.pending := by
  injection h with h
  subst h
  simp [dispatch_keeps]

theorem execVadd_keeps (e : EngIx) (c : Ctx) (t : BitVec 5) (vd va vb : VReg) (m : BitVec 4) (s : State) (u :
  State) (h : execVadd e c t vd va vb m s = .next u) :
    u.bell = s.bell ∧
    u.ports = s.ports ∧
    u.rings = s.rings ∧
    u.gn8s = s.gn8s ∧
    u.heads = s.heads ∧
    u.man = s.man ∧
    u.sup = s.sup ∧
    u.saf = s.saf ∧
    u.pmc = s.pmc ∧
    u.dev = s.dev ∧
    u.img = s.img ∧
    u.pins = s.pins ∧
    u.shown = s.shown ∧
    u.free = s.free ∧
    u.pending = s.pending := by
  injection h with h
  subst h
  simp [dispatch_keeps]

theorem execVscale_keeps (e : EngIx) (c : Ctx) (t : BitVec 5) (vd va : VReg) (gs : GReg) (m : BitVec 4) (s :
  State) (u : State) (h : execVscale e c t vd va gs m s = .next u) :
    u.bell = s.bell ∧
    u.ports = s.ports ∧
    u.rings = s.rings ∧
    u.gn8s = s.gn8s ∧
    u.heads = s.heads ∧
    u.man = s.man ∧
    u.sup = s.sup ∧
    u.saf = s.saf ∧
    u.pmc = s.pmc ∧
    u.dev = s.dev ∧
    u.img = s.img ∧
    u.pins = s.pins ∧
    u.shown = s.shown ∧
    u.free = s.free ∧
    u.pending = s.pending := by
  injection h with h
  subst h
  simp [dispatch_keeps]

theorem execVmax_keeps (e : EngIx) (c : Ctx) (t : BitVec 5) (vd va vb : VReg) (m : BitVec 4) (s : State) (u :
  State) (h : execVmax e c t vd va vb m s = .next u) :
    u.bell = s.bell ∧
    u.ports = s.ports ∧
    u.rings = s.rings ∧
    u.gn8s = s.gn8s ∧
    u.heads = s.heads ∧
    u.man = s.man ∧
    u.sup = s.sup ∧
    u.saf = s.saf ∧
    u.pmc = s.pmc ∧
    u.dev = s.dev ∧
    u.img = s.img ∧
    u.pins = s.pins ∧
    u.shown = s.shown ∧
    u.free = s.free ∧
    u.pending = s.pending := by
  injection h with h
  subst h
  simp [dispatch_keeps]

theorem execVred_keeps (e : EngIx) (c : Ctx) (t : BitVec 5) (vd va : VReg) (m : BitVec 4) (s : State) (u : State)
  (h : execVred e c t vd va m s = .next u) :
    u.bell = s.bell ∧
    u.ports = s.ports ∧
    u.rings = s.rings ∧
    u.gn8s = s.gn8s ∧
    u.heads = s.heads ∧
    u.man = s.man ∧
    u.sup = s.sup ∧
    u.saf = s.saf ∧
    u.pmc = s.pmc ∧
    u.dev = s.dev ∧
    u.img = s.img ∧
    u.pins = s.pins ∧
    u.shown = s.shown ∧
    u.free = s.free ∧
    u.pending = s.pending := by
  injection h with h
  subst h
  simp [dispatch_keeps]

theorem execVwait_keeps (e : EngIx) (c : Ctx) (mask : BitVec 24) (s : State) (u : State) (h : execVwait e c mask s
  = .next u) :
    u.bell = s.bell ∧
    u.ports = s.ports ∧
    u.rings = s.rings ∧
    u.gn8s = s.gn8s ∧
    u.heads = s.heads ∧
    u.man = s.man ∧
    u.sup = s.sup ∧
    u.saf = s.saf ∧
    u.pmc = s.pmc ∧
    u.dev = s.dev ∧
    u.img = s.img ∧
    u.pins = s.pins ∧
    u.shown = s.shown ∧
    u.free = s.free ∧
    u.pending = s.pending := by
  injection h with h
  subst h
  simp [issue_keeps]

theorem execVwaitResume_keeps (e : EngIx) (c : Ctx) (s : State) (u : State) (h : execVwaitResume e c s = .next u)
  :
    u.bell = s.bell ∧
    u.ports = s.ports ∧
    u.rings = s.rings ∧
    u.gn8s = s.gn8s ∧
    u.heads = s.heads ∧
    u.man = s.man ∧
    u.sup = s.sup ∧
    u.saf = s.saf ∧
    u.pmc = s.pmc ∧
    u.dev = s.dev ∧
    u.img = s.img ∧
    u.pins = s.pins ∧
    u.shown = s.shown ∧
    u.free = s.free ∧
    u.pending = s.pending := by
  unfold execVwaitResume at h
  try dsimp only at h
  (repeat' split at h) <;> (injection h with h; subst h; simp [setCore_keeps, ctxFault_keeps])

theorem execCopOpStart_keeps (e : EngIx) (t : TagIx) (s : State) (u : State) (h : execCopOpStart e t s = .next u)
  :
    u.bell = s.bell ∧
    u.ports = s.ports ∧
    u.rings = s.rings ∧
    u.gn8s = s.gn8s ∧
    u.heads = s.heads ∧
    u.man = s.man ∧
    u.sup = s.sup ∧
    u.saf = s.saf ∧
    u.pmc = s.pmc ∧
    u.dev = s.dev ∧
    u.img = s.img ∧
    u.pins = s.pins ∧
    u.shown = s.shown ∧
    u.pending = s.pending := by
  unfold execCopOpStart at h
  try dsimp only at h
  (repeat' split at h) <;> (injection h with h; subst h; simp [setCore_keeps, drawFree_keeps])

theorem meetWland_keeps (e : Nat) (s : State) :
    (meetWland e s).bell = s.bell ∧
    (meetWland e s).ports = s.ports ∧
    (meetWland e s).rings = s.rings ∧
    (meetWland e s).gn8s = s.gn8s ∧
    (meetWland e s).heads = s.heads ∧
    (meetWland e s).man = s.man ∧
    (meetWland e s).sup = s.sup ∧
    (meetWland e s).saf = s.saf ∧
    (meetWland e s).pmc = s.pmc ∧
    (meetWland e s).dev = s.dev ∧
    (meetWland e s).img = s.img ∧
    (meetWland e s).pins = s.pins ∧
    (meetWland e s).shown = s.shown ∧
    (meetWland e s).free = s.free ∧
    (meetWland e s).pending = s.pending := by
  unfold meetWland
  (repeat' split) <;> simp [ctxFault_keeps]

theorem execCopComplete_keeps (e : EngIx) (t : TagIx) (s : State) (u : State) (h : execCopComplete e t s = .next
  u) :
    u.bell = s.bell ∧
    u.ports = s.ports ∧
    u.rings = s.rings ∧
    u.gn8s = s.gn8s ∧
    u.heads = s.heads ∧
    u.man = s.man ∧
    u.sup = s.sup ∧
    u.saf = s.saf ∧
    u.pmc = s.pmc ∧
    u.dev = s.dev ∧
    u.img = s.img ∧
    u.pins = s.pins ∧
    u.shown = s.shown ∧
    u.free = s.free ∧
    u.pending = s.pending := by
  unfold execCopComplete at h
  try dsimp only at h
  (repeat' split at h) <;> (injection h with h; subst h; simp [setCore_keeps, meetWland_keeps])

end Sys2Proof.Machine
end

