-- ==== Sys2Proof/Laws/FrameSys.lean ====
section
/-! SUPPORT. What each operation of Sys.lean (stream and system instructions) leaves unchanged. -/

namespace Sys2Proof.Machine

theorem execPull_keeps (e : EngIx) (c : Ctx) (rd rs1 : GReg) (slot : Fin 8) (s : State) (u : State) (h : execPull
  e c rd rs1 slot s = .next u) :
    u.bell = s.bell ∧
    u.ports = s.ports ∧
    u.rings = s.rings ∧
    u.gn8s = s.gn8s ∧
    u.heads = s.heads ∧
    u.man = s.man ∧
    u.sup = s.sup ∧
    u.saf = s.saf ∧
    u.pmc = s.pmc ∧
    u.dev = s.dev ∧
    u.img = s.img ∧
    u.pins = s.pins ∧
    u.shown = s.shown ∧
    u.free = s.free ∧
    u.pending = s.pending := by
  injection h with h
  subst h
  simp [issue_keeps]

theorem execPullComplete_keeps (e : EngIx) (s : State) (u : State) (h : execPullComplete e s = .next u) :
    u.bell = s.bell ∧
    u.ports = s.ports ∧
    u.rings = s.rings ∧
    u.gn8s = s.gn8s ∧
    u.heads = s.heads ∧
    u.man = s.man ∧
    u.sup = s.sup ∧
    u.saf = s.saf ∧
    u.pmc = s.pmc ∧
    u.dev = s.dev ∧
    u.img = s.img ∧
    u.pins = s.pins ∧
    u.shown = s.shown ∧
    u.free = s.free ∧
    u.pending = s.pending := by
  unfold execPullComplete at h
  try dsimp only at h
  (repeat' split at h) <;> (injection h with h; subst h; simp [setCore_keeps, ctxFault_keeps])

theorem execPeek_keeps (e : EngIx) (c : Ctx) (rd : GReg) (slot : Fin 8) (w : Fin 4) (n : Bool) (s : State) (u :
  State) (h : execPeek e c rd slot w n s = .next u) :
    u.bell = s.bell ∧
    u.ports = s.ports ∧
    u.rings = s.rings ∧
    u.gn8s = s.gn8s ∧
    u.heads = s.heads ∧
    u.man = s.man ∧
    u.sup = s.sup ∧
    u.saf = s.saf ∧
    u.pmc = s.pmc ∧
    u.dev = s.dev ∧
    u.img = s.img ∧
    u.pins = s.pins ∧
    u.shown = s.shown ∧
    u.free = s.free ∧
    u.pending = s.pending := by
  injection h with h
  subst h
  simp [issue_keeps]

theorem execPeekResume_keeps (e : EngIx) (s : State) (u : State) (h : execPeekResume e s = .next u) :
    u.bell = s.bell ∧
    u.ports = s.ports ∧
    u.rings = s.rings ∧
    u.gn8s = s.gn8s ∧
    u.heads = s.heads ∧
    u.man = s.man ∧
    u.sup = s.sup ∧
    u.saf = s.saf ∧
    u.pmc = s.pmc ∧
    u.dev = s.dev ∧
    u.img = s.img ∧
    u.pins = s.pins ∧
    u.shown = s.shown ∧
    u.free = s.free ∧
    u.pending = s.pending := by
  unfold execPeekResume at h
  try dsimp only at h
  (repeat' split at h) <;> (injection h with h; subst h; simp [setCore_keeps, ctxFault_keeps])

theorem execBubq_keeps (e : EngIx) (c : Ctx) (rd : GReg) (slot : Fin 8) (sel : Fin 4) (clr : Bool) (s : State) (u
  : State) (h : execBubq e c rd slot sel clr s = .next u) :
    u.bell = s.bell ∧
    u.ports = s.ports ∧
    u.rings = s.rings ∧
    u.gn8s = s.gn8s ∧
    u.heads = s.heads ∧
    u.man = s.man ∧
    u.sup = s.sup ∧
    u.saf = s.saf ∧
    u.pmc = s.pmc ∧
    u.dev = s.dev ∧
    u.img = s.img ∧
    u.pins = s.pins ∧
    u.shown = s.shown ∧
    u.free = s.free ∧
    u.pending = s.pending := by
  injection h with h
  subst h
  simp [issue_keeps]

theorem execBubqResume_keeps (e : EngIx) (s : State) (u : State) (h : execBubqResume e s = .next u) :
    u.bell = s.bell ∧
    u.ports = s.ports ∧
    u.rings = s.rings ∧
    u.gn8s = s.gn8s ∧
    u.heads = s.heads ∧
    u.man = s.man ∧
    u.sup = s.sup ∧
    u.saf = s.saf ∧
    u.pmc = s.pmc ∧
    u.dev = s.dev ∧
    u.img = s.img ∧
    u.pins = s.pins ∧
    u.shown = s.shown ∧
    u.free = s.free ∧
    u.pending = s.pending := by
  unfold execBubqResume at h
  try dsimp only at h
  (repeat' split at h) <;> (injection h with h; subst h; simp [setCore_keeps])

theorem execPost_keeps (e : EngIx) (c : Ctx) (rs1 : GReg) (kind : Fin 4) (s : State) (u : State) (h : execPost e c
  rs1 kind s = .next u) :
    u.bell = s.bell ∧
    u.ports = s.ports ∧
    u.rings = s.rings ∧
    u.gn8s = s.gn8s ∧
    u.heads = s.heads ∧
    u.man = s.man ∧
    u.sup = s.sup ∧
    u.saf = s.saf ∧
    u.pmc = s.pmc ∧
    u.dev = s.dev ∧
    u.img = s.img ∧
    u.pins = s.pins ∧
    u.shown = s.shown ∧
    u.free = s.free ∧
    u.pending = s.pending := by
  injection h with h
  subst h
  simp [issue_keeps]

theorem takePost_keeps (e : Nat) (s0 : State) :
    (takePost e s0).bell = s0.bell ∧
    (takePost e s0).ports = s0.ports ∧
    (takePost e s0).rings = s0.rings ∧
    (takePost e s0).gn8s = s0.gn8s ∧
    (takePost e s0).heads = s0.heads ∧
    (takePost e s0).man = s0.man ∧
    (takePost e s0).sup = s0.sup ∧
    (takePost e s0).saf = s0.saf ∧
    (takePost e s0).pmc = s0.pmc ∧
    (takePost e s0).dev = s0.dev ∧
    (takePost e s0).img = s0.img ∧
    (takePost e s0).pins = s0.pins ∧
    (takePost e s0).shown = s0.shown ∧
    (takePost e s0).free = s0.free ∧
    (takePost e s0).pending = s0.pending := by
  unfold takePost
  dsimp only
  (repeat' split) <;> simp [ctxFault_keeps, setCore_keeps, catchUpAt_keeps]

theorem takePosts_keeps (e : Nat) (n : Nat) (s : State) :
    (takePosts e n s).bell = s.bell ∧
    (takePosts e n s).ports = s.ports ∧
    (takePosts e n s).rings = s.rings ∧
    (takePosts e n s).gn8s = s.gn8s ∧
    (takePosts e n s).heads = s.heads ∧
    (takePosts e n s).man = s.man ∧
    (takePosts e n s).sup = s.sup ∧
    (takePosts e n s).saf = s.saf ∧
    (takePosts e n s).pmc = s.pmc ∧
    (takePosts e n s).dev = s.dev ∧
    (takePosts e n s).img = s.img ∧
    (takePosts e n s).pins = s.pins ∧
    (takePosts e n s).shown = s.shown ∧
    (takePosts e n s).free = s.free ∧
    (takePosts e n s).pending = s.pending := by
  induction n generalizing s with
  | zero => simp [takePosts]
  | succ n ih =>
    first | (simp [takePosts, ih, takePost_keeps]; done) | (unfold takePosts; (repeat' split) <;> simp [ih,
      takePost_keeps])

theorem execPostEventPort_keeps (e : EngIx) (s : State) (u : State) (h : execPostEventPort e s = .next u) :
    u.bell = s.bell ∧
    u.ports = s.ports ∧
    u.rings = s.rings ∧
    u.gn8s = s.gn8s ∧
    u.heads = s.heads ∧
    u.man = s.man ∧
    u.sup = s.sup ∧
    u.saf = s.saf ∧
    u.pmc = s.pmc ∧
    u.dev = s.dev ∧
    u.img = s.img ∧
    u.pins = s.pins ∧
    u.shown = s.shown ∧
    u.free = s.free ∧
    u.pending = s.pending := by
  injection h with h
  subst h
  simp [takePost_keeps]

theorem execBell_keeps (e : EngIx) (c : Ctx) (rd : GReg) (sel : Fin 4) (s : State) (u : State) (h : execBell e c
  rd sel s = .next u) :
    u.bell = s.bell ∧
    u.ports = s.ports ∧
    u.rings = s.rings ∧
    u.gn8s = s.gn8s ∧
    u.heads = s.heads ∧
    u.man = s.man ∧
    u.sup = s.sup ∧
    u.saf = s.saf ∧
    u.pmc = s.pmc ∧
    u.dev = s.dev ∧
    u.img = s.img ∧
    u.pins = s.pins ∧
    u.shown = s.shown ∧
    u.free = s.free ∧
    u.pending = s.pending := by
  injection h with h
  subst h
  simp [issue_keeps]

theorem execLand_keeps (e : EngIx) (c : Ctx) (rd : GReg) (s : State) (u : State) (h : execLand e c rd s = .next u)
  :
    u.bell = s.bell ∧
    u.ports = s.ports ∧
    u.rings = s.rings ∧
    u.gn8s = s.gn8s ∧
    u.heads = s.heads ∧
    u.man = s.man ∧
    u.sup = s.sup ∧
    u.saf = s.saf ∧
    u.pmc = s.pmc ∧
    u.dev = s.dev ∧
    u.img = s.img ∧
    u.pins = s.pins ∧
    u.shown = s.shown ∧
    u.free = s.free ∧
    u.pending = s.pending := by
  injection h with h
  subst h
  simp [issue_keeps]

theorem execMfs_keeps (e : EngIx) (c : Ctx) (rd : GReg) (sel : Fin 8) (s : State) (u : State) (h : execMfs e c rd
  sel s = .next u) :
    u.bell = s.bell ∧
    u.ports = s.ports ∧
    u.rings = s.rings ∧
    u.gn8s = s.gn8s ∧
    u.heads = s.heads ∧
    u.man = s.man ∧
    u.sup = s.sup ∧
    u.saf = s.saf ∧
    u.pmc = s.pmc ∧
    u.dev = s.dev ∧
    u.img = s.img ∧
    u.pins = s.pins ∧
    u.shown = s.shown ∧
    u.free = s.free ∧
    u.pending = s.pending := by
  injection h with h
  subst h
  simp [issue_keeps]

theorem execMts_keeps (e : EngIx) (c : Ctx) (rs1 : GReg) (sel : Fin 8) (s : State) (u : State) (h : execMts e c
  rs1 sel s = .next u) :
    u.bell = s.bell ∧
    u.ports = s.ports ∧
    u.rings = s.rings ∧
    u.gn8s = s.gn8s ∧
    u.heads = s.heads ∧
    u.man = s.man ∧
    u.sup = s.sup ∧
    u.saf = s.saf ∧
    u.pmc = s.pmc ∧
    u.dev = s.dev ∧
    u.img = s.img ∧
    u.pins = s.pins ∧
    u.shown = s.shown ∧
    u.free = s.free ∧
    u.pending = s.pending := by
  injection h with h
  subst h
  simp [issue_keeps]

theorem execWland_keeps (e : EngIx) (c : Ctx) (rd : GReg) (s : State) (u : State) (h : execWland e c rd s = .next
  u) :
    u.bell = s.bell ∧
    u.ports = s.ports ∧
    u.rings = s.rings ∧
    u.gn8s = s.gn8s ∧
    u.heads = s.heads ∧
    u.man = s.man ∧
    u.sup = s.sup ∧
    u.saf = s.saf ∧
    u.pmc = s.pmc ∧
    u.dev = s.dev ∧
    u.img = s.img ∧
    u.pins = s.pins ∧
    u.shown = s.shown ∧
    u.free = s.free ∧
    u.pending = s.pending := by
  injection h with h
  subst h
  simp [issue_keeps]

theorem execTrap_keeps (e : EngIx) (c : Ctx) (code : BitVec 16) (s : State) (u : State) (h : execTrap e c code s =
  .next u) :
    u.bell = s.bell ∧
    u.ports = s.ports ∧
    u.rings = s.rings ∧
    u.gn8s = s.gn8s ∧
    u.heads = s.heads ∧
    u.man = s.man ∧
    u.sup = s.sup ∧
    u.saf = s.saf ∧
    u.pmc = s.pmc ∧
    u.dev = s.dev ∧
    u.img = s.img ∧
    u.pins = s.pins ∧
    u.shown = s.shown ∧
    u.free = s.free ∧
    u.pending = s.pending := by
  injection h with h
  subst h
  simp [modEng_keeps, issue_keeps]

theorem execHalt_keeps (e : EngIx) (c : Ctx) (s : State) (u : State) (h : execHalt e c s = .next u) :
    u.bell = s.bell ∧
    u.ports = s.ports ∧
    u.rings = s.rings ∧
    u.gn8s = s.gn8s ∧
    u.heads = s.heads ∧
    u.man = s.man ∧
    u.sup = s.sup ∧
    u.saf = s.saf ∧
    u.pmc = s.pmc ∧
    u.dev = s.dev ∧
    u.img = s.img ∧
    u.pins = s.pins ∧
    u.shown = s.shown ∧
    u.free = s.free ∧
    u.pending = s.pending := by
  injection h with h
  subst h
  simp [modEng_keeps, issue_keeps]

theorem execEcallYield_keeps (e : EngIx) (c : Ctx) (s : State) (u : State) (h : execEcallYield e c s = .next u) :
    u.bell = s.bell ∧
    u.ports = s.ports ∧
    u.rings = s.rings ∧
    u.gn8s = s.gn8s ∧
    u.heads = s.heads ∧
    u.man = s.man ∧
    u.sup = s.sup ∧
    u.saf = s.saf ∧
    u.pmc = s.pmc ∧
    u.dev = s.dev ∧
    u.img = s.img ∧
    u.pins = s.pins ∧
    u.shown = s.shown ∧
    u.free = s.free ∧
    u.pending = s.pending := by
  injection h with h
  subst h
  simp [issue_keeps]

theorem execEcallDiag_keeps (e : EngIx) (c : Ctx) (s : State) (u : State) (h : execEcallDiag e c s = .next u) :
    u.bell = s.bell ∧
    u.ports = s.ports ∧
    u.rings = s.rings ∧
    u.gn8s = s.gn8s ∧
    u.heads = s.heads ∧
    u.man = s.man ∧
    u.sup = s.sup ∧
    u.saf = s.saf ∧
    u.pmc = s.pmc ∧
    u.dev = s.dev ∧
    u.img = s.img ∧
    u.pins = s.pins ∧
    u.shown = s.shown ∧
    u.free = s.free ∧
    u.pending = s.pending := by
  injection h with h
  subst h
  simp [issue_keeps]

theorem execEcallHrec_keeps (e : EngIx) (c : Ctx) (s : State) (u : State) (h : execEcallHrec e c s = .next u) :
    u.bell = s.bell ∧
    u.ports = s.ports ∧
    u.rings = s.rings ∧
    u.gn8s = s.gn8s ∧
    u.heads = s.heads ∧
    u.man = s.man ∧
    u.sup = s.sup ∧
    u.saf = s.saf ∧
    u.pmc = s.pmc ∧
    u.dev = s.dev ∧
    u.img = s.img ∧
    u.pins = s.pins ∧
    u.shown = s.shown ∧
    u.free = s.free ∧
    u.pending = s.pending := by
  injection h with h
  subst h
  simp [issue_keeps]

theorem execCopOpEnd_keeps (e : EngIx) (t : TagIx) (checkFail : Bool) (s : State) (u : State) (h : execCopOpEnd e
  t checkFail s = .next u) :
    u.bell = s.bell ∧
    u.ports = s.ports ∧
    u.rings = s.rings ∧
    u.gn8s = s.gn8s ∧
    u.heads = s.heads ∧
    u.man = s.man ∧
    u.sup = s.sup ∧
    u.saf = s.saf ∧
    u.pmc = s.pmc ∧
    u.dev = s.dev ∧
    u.img = s.img ∧
    u.pins = s.pins ∧
    u.shown = s.shown ∧
    u.free = s.free ∧
    u.pending = s.pending := by
  unfold execCopOpEnd at h
  dsimp only at h
  (repeat' split at h) <;> (injection h with h; subst h; first | (simp [setCore_keeps, failCheck_keeps]; done) |
    ((repeat' split) <;> simp [setCore_keeps, failCheck_keeps]))

end Sys2Proof.Machine
end

