-- ==== Sys2Proof/Laws/FrameHead.lean ====
section
/-! SUPPORT. What each operation of Head.lean (heads) leaves unchanged. -/

namespace Sys2Proof.Machine

theorem portTakes_keeps (e : Nat) (out : List Event) (s0 : State) :
    (portTakes e out s0).bell = s0.bell ∧
    (portTakes e out s0).ports = s0.ports ∧
    (portTakes e out s0).rings = s0.rings ∧
    (portTakes e out s0).gn8s = s0.gn8s ∧
    (portTakes e out s0).heads = s0.heads ∧
    (portTakes e out s0).man = s0.man ∧
    (portTakes e out s0).sup = s0.sup ∧
    (portTakes e out s0).saf = s0.saf ∧
    (portTakes e out s0).pmc = s0.pmc ∧
    (portTakes e out s0).dev = s0.dev ∧
    (portTakes e out s0).img = s0.img ∧
    (portTakes e out s0).pins = s0.pins ∧
    (portTakes e out s0).shown = s0.shown ∧
    (portTakes e out s0).free = s0.free ∧
    (portTakes e out s0).pending = s0.pending := by
  unfold portTakes
  simp [modEng_keeps, catchUpAt_keeps]

theorem putStep_keeps (h e slot : Nat) (en : Entry) (rest : List Entry) (x : HStep) (s : State) :
    (putStep h e slot en rest x s).bell = s.bell ∧
    (putStep h e slot en rest x s).ports = s.ports ∧
    (putStep h e slot en rest x s).rings = s.rings ∧
    (putStep h e slot en rest x s).gn8s = s.gn8s ∧
    (putStep h e slot en rest x s).man = s.man ∧
    (putStep h e slot en rest x s).sup = s.sup ∧
    (putStep h e slot en rest x s).saf = s.saf ∧
    (putStep h e slot en rest x s).pmc = s.pmc ∧
    (putStep h e slot en rest x s).dev = s.dev ∧
    (putStep h e slot en rest x s).img = s.img ∧
    (putStep h e slot en rest x s).pins = s.pins ∧
    (putStep h e slot en rest x s).shown = s.shown ∧
    (putStep h e slot en rest x s).pending = s.pending := by
  unfold putStep
  simp [setHead_keeps, portTakes_keeps, setCore_keeps, takePosts_keeps]

theorem runHead_keeps (kind : Nat) (act : Entry → HStep → HStep) (when_ : Eval → Eval → Bool) (h : Nat) (s :
  State) :
    (runHead kind act when_ h s).bell = s.bell ∧
    (runHead kind act when_ h s).ports = s.ports ∧
    (runHead kind act when_ h s).rings = s.rings ∧
    (runHead kind act when_ h s).gn8s = s.gn8s ∧
    (runHead kind act when_ h s).man = s.man ∧
    (runHead kind act when_ h s).sup = s.sup ∧
    (runHead kind act when_ h s).saf = s.saf ∧
    (runHead kind act when_ h s).pmc = s.pmc ∧
    (runHead kind act when_ h s).dev = s.dev ∧
    (runHead kind act when_ h s).img = s.img ∧
    (runHead kind act when_ h s).pins = s.pins ∧
    (runHead kind act when_ h s).shown = s.shown ∧
    (runHead kind act when_ h s).pending = s.pending := by
  unfold runHead
  dsimp only
  (repeat' split) <;> simp [putStep_keeps, ctxFault_keeps]

theorem execSampleEvaluate_keeps (h : HeadIx) (s : State) (u : State) (h : execSampleEvaluate h s = .next u) :
    u.bell = s.bell ∧
    u.ports = s.ports ∧
    u.rings = s.rings ∧
    u.gn8s = s.gn8s ∧
    u.man = s.man ∧
    u.sup = s.sup ∧
    u.saf = s.saf ∧
    u.pmc = s.pmc ∧
    u.dev = s.dev ∧
    u.img = s.img ∧
    u.pins = s.pins ∧
    u.shown = s.shown ∧
    u.pending = s.pending := by
  injection h with h
  subst h
  simp [runHead_keeps]

theorem execBubbleRead_keeps (h : HeadIx) (s : State) (u : State) (h : execBubbleRead h s = .next u) :
    u.bell = s.bell ∧
    u.ports = s.ports ∧
    u.rings = s.rings ∧
    u.gn8s = s.gn8s ∧
    u.man = s.man ∧
    u.sup = s.sup ∧
    u.saf = s.saf ∧
    u.pmc = s.pmc ∧
    u.dev = s.dev ∧
    u.img = s.img ∧
    u.pins = s.pins ∧
    u.shown = s.shown ∧
    u.pending = s.pending := by
  injection h with h
  subst h
  simp [runHead_keeps]

theorem execSysokFault_keeps (h : HeadIx) (s : State) (u : State) (h : execSysokFault h s = .next u) :
    u.bell = s.bell ∧
    u.ports = s.ports ∧
    u.rings = s.rings ∧
    u.gn8s = s.gn8s ∧
    u.man = s.man ∧
    u.sup = s.sup ∧
    u.saf = s.saf ∧
    u.pmc = s.pmc ∧
    u.dev = s.dev ∧
    u.img = s.img ∧
    u.pins = s.pins ∧
    u.shown = s.shown ∧
    u.pending = s.pending := by
  injection h with h
  subst h
  simp [runHead_keeps]

theorem execStandingEntry_keeps (h : HeadIx) (s : State) (u : State) (h : execStandingEntry h s = .next u) :
    u.bell = s.bell ∧
    u.ports = s.ports ∧
    u.rings = s.rings ∧
    u.gn8s = s.gn8s ∧
    u.man = s.man ∧
    u.sup = s.sup ∧
    u.saf = s.saf ∧
    u.pmc = s.pmc ∧
    u.dev = s.dev ∧
    u.img = s.img ∧
    u.pins = s.pins ∧
    u.shown = s.shown ∧
    u.pending = s.pending := by
  injection h with h
  subst h
  simp [runHead_keeps]

theorem execSuspectExit_keeps (h : HeadIx) (s : State) (u : State) (h : execSuspectExit h s = .next u) :
    u.bell = s.bell ∧
    u.ports = s.ports ∧
    u.rings = s.rings ∧
    u.gn8s = s.gn8s ∧
    u.man = s.man ∧
    u.sup = s.sup ∧
    u.saf = s.saf ∧
    u.pmc = s.pmc ∧
    u.dev = s.dev ∧
    u.img = s.img ∧
    u.pins = s.pins ∧
    u.shown = s.shown ∧
    u.pending = s.pending := by
  injection h with h
  subst h
  simp [runHead_keeps]

theorem execSysokFaultExit_keeps (h : HeadIx) (s : State) (u : State) (h : execSysokFaultExit h s = .next u) :
    u.bell = s.bell ∧
    u.ports = s.ports ∧
    u.rings = s.rings ∧
    u.gn8s = s.gn8s ∧
    u.man = s.man ∧
    u.sup = s.sup ∧
    u.saf = s.saf ∧
    u.pmc = s.pmc ∧
    u.dev = s.dev ∧
    u.img = s.img ∧
    u.pins = s.pins ∧
    u.shown = s.shown ∧
    u.pending = s.pending := by
  injection h with h
  subst h
  simp [runHead_keeps]

theorem execLearningWindowJudge_keeps (h : HeadIx) (s : State) (u : State) (h : execLearningWindowJudge h s =
  .next u) :
    u.bell = s.bell ∧
    u.ports = s.ports ∧
    u.rings = s.rings ∧
    u.gn8s = s.gn8s ∧
    u.man = s.man ∧
    u.sup = s.sup ∧
    u.saf = s.saf ∧
    u.pmc = s.pmc ∧
    u.dev = s.dev ∧
    u.img = s.img ∧
    u.pins = s.pins ∧
    u.shown = s.shown ∧
    u.pending = s.pending := by
  injection h with h
  subst h
  simp [runHead_keeps]

theorem execBaselineTrack_keeps (h : HeadIx) (s : State) (u : State) (h : execBaselineTrack h s = .next u) :
    u.bell = s.bell ∧
    u.ports = s.ports ∧
    u.rings = s.rings ∧
    u.gn8s = s.gn8s ∧
    u.man = s.man ∧
    u.sup = s.sup ∧
    u.saf = s.saf ∧
    u.pmc = s.pmc ∧
    u.dev = s.dev ∧
    u.img = s.img ∧
    u.pins = s.pins ∧
    u.shown = s.shown ∧
    u.pending = s.pending := by
  injection h with h
  subst h
  simp [runHead_keeps]

end Sys2Proof.Machine
end

