-- ==== Sys2Proof/Laws/FrameEngine.lean ====
section
/-! SUPPORT. What each operation of Engine.lean (engines) leaves unchanged. -/

namespace Sys2Proof.Machine

theorem startWindow_keeps (e : Nat) (s : State) :
    (startWindow e s).bell = s.bell ∧
    (startWindow e s).frame = s.frame ∧
    (startWindow e s).ports = s.ports ∧
    (startWindow e s).rings = s.rings ∧
    (startWindow e s).gn8s = s.gn8s ∧
    (startWindow e s).heads = s.heads ∧
    (startWindow e s).man = s.man ∧
    (startWindow e s).sup = s.sup ∧
    (startWindow e s).saf = s.saf ∧
    (startWindow e s).ha = s.ha ∧
    (startWindow e s).hb = s.hb ∧
    (startWindow e s).pmc = s.pmc ∧
    (startWindow e s).dev = s.dev ∧
    (startWindow e s).img = s.img ∧
    (startWindow e s).flt = s.flt ∧
    (startWindow e s).pins = s.pins ∧
    (startWindow e s).shown = s.shown ∧
    (startWindow e s).free = s.free ∧
    (startWindow e s).pending = s.pending := by
  exact ⟨rfl, rfl, rfl, rfl, rfl, rfl, rfl, rfl, rfl, rfl, rfl, rfl, rfl, rfl, rfl, rfl, rfl, rfl, rfl⟩

theorem endWindow_keeps (e : Nat) (pass : Bool) (s : State) :
    (endWindow e pass s).bell = s.bell ∧
    (endWindow e pass s).frame = s.frame ∧
    (endWindow e pass s).ports = s.ports ∧
    (endWindow e pass s).rings = s.rings ∧
    (endWindow e pass s).gn8s = s.gn8s ∧
    (endWindow e pass s).heads = s.heads ∧
    (endWindow e pass s).man = s.man ∧
    (endWindow e pass s).sup = s.sup ∧
    (endWindow e pass s).saf = s.saf ∧
    (endWindow e pass s).ha = s.ha ∧
    (endWindow e pass s).hb = s.hb ∧
    (endWindow e pass s).pmc = s.pmc ∧
    (endWindow e pass s).dev = s.dev ∧
    (endWindow e pass s).img = s.img ∧
    (endWindow e pass s).flt = s.flt ∧
    (endWindow e pass s).pins = s.pins ∧
    (endWindow e pass s).shown = s.shown ∧
    (endWindow e pass s).free = s.free ∧
    (endWindow e pass s).pending = s.pending := by
  exact ⟨rfl, rfl, rfl, rfl, rfl, rfl, rfl, rfl, rfl, rfl, rfl, rfl, rfl, rfl, rfl, rfl, rfl, rfl, rfl⟩

theorem execFullingWindowEnd_keeps (e : EngIx) (w : WindowIn) (s0 : State) (u : State) (h : execFullingWindowEnd e
  w s0 = .next u) :
    u.bell = s0.bell ∧
    u.ports = s0.ports ∧
    u.rings = s0.rings ∧
    u.gn8s = s0.gn8s ∧
    u.heads = s0.heads ∧
    u.man = s0.man ∧
    u.sup = s0.sup ∧
    u.saf = s0.saf ∧
    u.pmc = s0.pmc ∧
    u.dev = s0.dev ∧
    u.img = s0.img ∧
    u.pins = s0.pins ∧
    u.shown = s0.shown ∧
    u.free = s0.free ∧
    u.pending = s0.pending := by
  unfold execFullingWindowEnd at h
  try dsimp only at h
  (repeat' split at h) <;> (injection h with h; subst h; simp [setEng_keeps, endWindow_keeps, catchUpAt_keeps])

theorem execFullingWindowTimeout_keeps (e : EngIx) (s : State) (u : State)
  (h : execFullingWindowTimeout e s = .next u) :
    u.bell = s.bell ∧
    u.frame = s.frame ∧
    u.ports = s.ports ∧
    u.rings = s.rings ∧
    u.gn8s = s.gn8s ∧
    u.heads = s.heads ∧
    u.man = s.man ∧
    u.sup = s.sup ∧
    u.saf = s.saf ∧
    u.ha = s.ha ∧
    u.hb = s.hb ∧
    u.pmc = s.pmc ∧
    u.dev = s.dev ∧
    u.img = s.img ∧
    u.flt = s.flt ∧
    u.pins = s.pins ∧
    u.shown = s.shown ∧
    u.free = s.free ∧
    u.pending = s.pending := by
  unfold execFullingWindowTimeout at h
  dsimp only at h
  (repeat' split at h) <;> (injection h with h; subst h; simp [endWindow_keeps])

theorem retire__keeps (e : Nat) (s : State) :
    (retire_ e s).bell = s.bell ∧
    (retire_ e s).frame = s.frame ∧
    (retire_ e s).ports = s.ports ∧
    (retire_ e s).rings = s.rings ∧
    (retire_ e s).gn8s = s.gn8s ∧
    (retire_ e s).heads = s.heads ∧
    (retire_ e s).man = s.man ∧
    (retire_ e s).sup = s.sup ∧
    (retire_ e s).saf = s.saf ∧
    (retire_ e s).pmc = s.pmc ∧
    (retire_ e s).dev = s.dev ∧
    (retire_ e s).img = s.img ∧
    (retire_ e s).pins = s.pins ∧
    (retire_ e s).shown = s.shown ∧
    (retire_ e s).free = s.free ∧
    (retire_ e s).pending = s.pending := by
  unfold retire_
  simp [modEng_keeps, sticky_keeps]

theorem execShadowMismatch_keeps (e : EngIx) (l : Lane) (s : State) (u : State) (h : execShadowMismatch e l s =
  .next u) :
    u.bell = s.bell ∧
    u.ports = s.ports ∧
    u.rings = s.rings ∧
    u.gn8s = s.gn8s ∧
    u.heads = s.heads ∧
    u.man = s.man ∧
    u.sup = s.sup ∧
    u.saf = s.saf ∧
    u.pmc = s.pmc ∧
    u.dev = s.dev ∧
    u.img = s.img ∧
    u.pins = s.pins ∧
    u.shown = s.shown ∧
    u.free = s.free ∧
    u.pending = s.pending := by
  injection h with h
  subst h
  simp [noteUnforced_keeps, removeEngine_keeps]

theorem execLaneLag_keeps (e : EngIx) (l : Lag) (s : State) (u : State) (h : execLaneLag e l s = .next u) :
    u.bell = s.bell ∧
    u.ports = s.ports ∧
    u.rings = s.rings ∧
    u.gn8s = s.gn8s ∧
    u.heads = s.heads ∧
    u.man = s.man ∧
    u.sup = s.sup ∧
    u.saf = s.saf ∧
    u.pmc = s.pmc ∧
    u.dev = s.dev ∧
    u.img = s.img ∧
    u.pins = s.pins ∧
    u.shown = s.shown ∧
    u.free = s.free ∧
    u.pending = s.pending := by
  injection h with h
  subst h
  cases l <;> dsimp only <;> (try split) <;> simp [modEng_keeps, noteUnforced_keeps, removeEngine_keeps]

theorem execIllegalInstruction_keeps (e : EngIx) (c : Ctx) (w : Word) (s : State) (u : State) (h :
  execIllegalInstruction e c w s = .next u) :
    u.bell = s.bell ∧
    u.ports = s.ports ∧
    u.rings = s.rings ∧
    u.gn8s = s.gn8s ∧
    u.heads = s.heads ∧
    u.man = s.man ∧
    u.sup = s.sup ∧
    u.saf = s.saf ∧
    u.pmc = s.pmc ∧
    u.dev = s.dev ∧
    u.img = s.img ∧
    u.pins = s.pins ∧
    u.shown = s.shown ∧
    u.free = s.free ∧
    u.pending = s.pending := by
  unfold execIllegalInstruction at h
  (repeat' split at h) <;> (injection h with h; subst h; simp [issue_keeps])

theorem preemptEng_keeps (e : Nat) (s : State) :
    (preemptEng e s).bell = s.bell ∧
    (preemptEng e s).ports = s.ports ∧
    (preemptEng e s).rings = s.rings ∧
    (preemptEng e s).gn8s = s.gn8s ∧
    (preemptEng e s).heads = s.heads ∧
    (preemptEng e s).man = s.man ∧
    (preemptEng e s).sup = s.sup ∧
    (preemptEng e s).saf = s.saf ∧
    (preemptEng e s).pmc = s.pmc ∧
    (preemptEng e s).dev = s.dev ∧
    (preemptEng e s).img = s.img ∧
    (preemptEng e s).pins = s.pins ∧
    (preemptEng e s).shown = s.shown ∧
    (preemptEng e s).free = s.free ∧
    (preemptEng e s).pending = s.pending := by
  unfold preemptEng
  simp [modEng_keeps, setCore_keeps, catchUpAt_keeps, failCheck_keeps]

theorem drainCompleteAt_keeps (d : Nat) (s : State) :
    (drainCompleteAt d s).ports = s.ports ∧
    (drainCompleteAt d s).rings = s.rings ∧
    (drainCompleteAt d s).gn8s = s.gn8s ∧
    (drainCompleteAt d s).heads = s.heads ∧
    (drainCompleteAt d s).man = s.man ∧
    (drainCompleteAt d s).sup = s.sup ∧
    (drainCompleteAt d s).saf = s.saf ∧
    (drainCompleteAt d s).pmc = s.pmc ∧
    (drainCompleteAt d s).dev = s.dev ∧
    (drainCompleteAt d s).img = s.img ∧
    (drainCompleteAt d s).pins = s.pins ∧
    (drainCompleteAt d s).shown = s.shown ∧
    (drainCompleteAt d s).free = s.free ∧
    (drainCompleteAt d s).pending = s.pending := by
  unfold drainCompleteAt
  simp [preemptEng_keeps]

theorem drainComplete_keeps (s : State) :
    (drainComplete s).ports = s.ports ∧
    (drainComplete s).rings = s.rings ∧
    (drainComplete s).gn8s = s.gn8s ∧
    (drainComplete s).heads = s.heads ∧
    (drainComplete s).man = s.man ∧
    (drainComplete s).sup = s.sup ∧
    (drainComplete s).saf = s.saf ∧
    (drainComplete s).pmc = s.pmc ∧
    (drainComplete s).dev = s.dev ∧
    (drainComplete s).img = s.img ∧
    (drainComplete s).pins = s.pins ∧
    (drainComplete s).shown = s.shown ∧
    (drainComplete s).free = s.free ∧
    (drainComplete s).pending = s.pending := by
  unfold drainComplete
  simp [drainCompleteAt_keeps]

theorem markLate_keeps (l : List Nat) (s : State) :
    (markLate l s).ports = s.ports ∧
    (markLate l s).rings = s.rings ∧
    (markLate l s).gn8s = s.gn8s ∧
    (markLate l s).heads = s.heads ∧
    (markLate l s).man = s.man ∧
    (markLate l s).engs = s.engs ∧
    (markLate l s).sup = s.sup ∧
    (markLate l s).saf = s.saf ∧
    (markLate l s).pmc = s.pmc ∧
    (markLate l s).dev = s.dev ∧
    (markLate l s).img = s.img ∧
    (markLate l s).pins = s.pins ∧
    (markLate l s).shown = s.shown ∧
    (markLate l s).free = s.free ∧
    (markLate l s).pending = s.pending := by
  unfold markLate
  dsimp only
  (repeat' split) <;> simp [sticky_keeps]

theorem drainDeadline_keeps (s : State) :
    (drainDeadline s).ports = s.ports ∧
    (drainDeadline s).rings = s.rings ∧
    (drainDeadline s).gn8s = s.gn8s ∧
    (drainDeadline s).heads = s.heads ∧
    (drainDeadline s).man = s.man ∧
    (drainDeadline s).sup = s.sup ∧
    (drainDeadline s).saf = s.saf ∧
    (drainDeadline s).pmc = s.pmc ∧
    (drainDeadline s).dev = s.dev ∧
    (drainDeadline s).img = s.img ∧
    (drainDeadline s).pins = s.pins ∧
    (drainDeadline s).shown = s.shown ∧
    (drainDeadline s).free = s.free ∧
    (drainDeadline s).pending = s.pending := by
  unfold drainDeadline
  simp [markLate_keeps, drainCompleteAt_keeps]

theorem passDeadline_keeps (s : State) :
    (passDeadline s).ports = s.ports ∧
    (passDeadline s).rings = s.rings ∧
    (passDeadline s).gn8s = s.gn8s ∧
    (passDeadline s).heads = s.heads ∧
    (passDeadline s).man = s.man ∧
    (passDeadline s).sup = s.sup ∧
    (passDeadline s).saf = s.saf ∧
    (passDeadline s).pmc = s.pmc ∧
    (passDeadline s).dev = s.dev ∧
    (passDeadline s).img = s.img ∧
    (passDeadline s).pins = s.pins ∧
    (passDeadline s).shown = s.shown ∧
    (passDeadline s).free = s.free ∧
    (passDeadline s).pending = s.pending := by
  unfold passDeadline
  simp [drainDeadline_keeps]

theorem execDrainDeadline_keeps (s : State) (u : State) (h : execDrainDeadline s = .next u) :
    u.rings = s.rings ∧
    u.gn8s = s.gn8s ∧
    u.heads = s.heads ∧
    u.man = s.man ∧
    u.sup = s.sup ∧
    u.saf = s.saf ∧
    u.pmc = s.pmc ∧
    u.dev = s.dev ∧
    u.img = s.img ∧
    u.pins = s.pins ∧
    u.shown = s.shown ∧
    u.free = s.free ∧
    u.pending = s.pending := by
  injection h with h
  subst h
  simp [addTicks_keeps, drainDeadline_keeps]

theorem execWlandDrained_keeps (e : EngIx) (s0 : State) (u : State) (h : execWlandDrained e s0 = .next u) :
    u.ports = s0.ports ∧
    u.rings = s0.rings ∧
    u.gn8s = s0.gn8s ∧
    u.heads = s0.heads ∧
    u.man = s0.man ∧
    u.sup = s0.sup ∧
    u.saf = s0.saf ∧
    u.pmc = s0.pmc ∧
    u.dev = s0.dev ∧
    u.img = s0.img ∧
    u.pins = s0.pins ∧
    u.shown = s0.shown ∧
    u.free = s0.free ∧
    u.pending = s0.pending := by
  unfold execWlandDrained at h
  try dsimp only at h
  (repeat' split at h) <;> (injection h with h; subst h; simp [drainComplete_keeps, setEng_keeps,
    passDeadline_keeps, catchUpAt_keeps])

theorem modMoves_keeps (f : List Move → List Move) (s : State) :
    (modMoves f s).bell = s.bell ∧
    (modMoves f s).frame = s.frame ∧
    (modMoves f s).ports = s.ports ∧
    (modMoves f s).rings = s.rings ∧
    (modMoves f s).gn8s = s.gn8s ∧
    (modMoves f s).heads = s.heads ∧
    (modMoves f s).man = s.man ∧
    (modMoves f s).engs = s.engs ∧
    (modMoves f s).saf = s.saf ∧
    (modMoves f s).ha = s.ha ∧
    (modMoves f s).hb = s.hb ∧
    (modMoves f s).pmc = s.pmc ∧
    (modMoves f s).dev = s.dev ∧
    (modMoves f s).img = s.img ∧
    (modMoves f s).flt = s.flt ∧
    (modMoves f s).pins = s.pins ∧
    (modMoves f s).shown = s.shown ∧
    (modMoves f s).free = s.free ∧
    (modMoves f s).pending = s.pending := by
  exact ⟨rfl, rfl, rfl, rfl, rfl, rfl, rfl, rfl, rfl, rfl, rfl, rfl, rfl, rfl, rfl, rfl, rfl, rfl, rfl⟩

theorem setRot_keeps (r : Option Nat) (s : State) :
    (setRot r s).bell = s.bell ∧
    (setRot r s).frame = s.frame ∧
    (setRot r s).ports = s.ports ∧
    (setRot r s).rings = s.rings ∧
    (setRot r s).gn8s = s.gn8s ∧
    (setRot r s).heads = s.heads ∧
    (setRot r s).man = s.man ∧
    (setRot r s).engs = s.engs ∧
    (setRot r s).saf = s.saf ∧
    (setRot r s).ha = s.ha ∧
    (setRot r s).hb = s.hb ∧
    (setRot r s).pmc = s.pmc ∧
    (setRot r s).dev = s.dev ∧
    (setRot r s).img = s.img ∧
    (setRot r s).flt = s.flt ∧
    (setRot r s).pins = s.pins ∧
    (setRot r s).shown = s.shown ∧
    (setRot r s).free = s.free ∧
    (setRot r s).pending = s.pending := by
  exact ⟨rfl, rfl, rfl, rfl, rfl, rfl, rfl, rfl, rfl, rfl, rfl, rfl, rfl, rfl, rfl, rfl, rfl, rfl, rfl⟩

theorem putMove_keeps (m : Move) (s : State) :
    (putMove m s).bell = s.bell ∧
    (putMove m s).frame = s.frame ∧
    (putMove m s).ports = s.ports ∧
    (putMove m s).rings = s.rings ∧
    (putMove m s).gn8s = s.gn8s ∧
    (putMove m s).heads = s.heads ∧
    (putMove m s).man = s.man ∧
    (putMove m s).engs = s.engs ∧
    (putMove m s).saf = s.saf ∧
    (putMove m s).ha = s.ha ∧
    (putMove m s).hb = s.hb ∧
    (putMove m s).pmc = s.pmc ∧
    (putMove m s).dev = s.dev ∧
    (putMove m s).img = s.img ∧
    (putMove m s).flt = s.flt ∧
    (putMove m s).pins = s.pins ∧
    (putMove m s).shown = s.shown ∧
    (putMove m s).free = s.free ∧
    (putMove m s).pending = s.pending := by
  exact ⟨rfl, rfl, rfl, rfl, rfl, rfl, rfl, rfl, rfl, rfl, rfl, rfl, rfl, rfl, rfl, rfl, rfl, rfl, rfl⟩

theorem dropMove_keeps (h : Nat) (s : State) :
    (dropMove h s).bell = s.bell ∧
    (dropMove h s).frame = s.frame ∧
    (dropMove h s).ports = s.ports ∧
    (dropMove h s).rings = s.rings ∧
    (dropMove h s).gn8s = s.gn8s ∧
    (dropMove h s).heads = s.heads ∧
    (dropMove h s).man = s.man ∧
    (dropMove h s).engs = s.engs ∧
    (dropMove h s).saf = s.saf ∧
    (dropMove h s).ha = s.ha ∧
    (dropMove h s).hb = s.hb ∧
    (dropMove h s).pmc = s.pmc ∧
    (dropMove h s).dev = s.dev ∧
    (dropMove h s).img = s.img ∧
    (dropMove h s).flt = s.flt ∧
    (dropMove h s).pins = s.pins ∧
    (dropMove h s).shown = s.shown ∧
    (dropMove h s).free = s.free ∧
    (dropMove h s).pending = s.pending := by
  exact ⟨rfl, rfl, rfl, rfl, rfl, rfl, rfl, rfl, rfl, rfl, rfl, rfl, rfl, rfl, rfl, rfl, rfl, rfl, rfl⟩

theorem waitMove_keeps (h src kind : Nat) (s : State) :
    (waitMove h src kind s).bell = s.bell ∧
    (waitMove h src kind s).frame = s.frame ∧
    (waitMove h src kind s).ports = s.ports ∧
    (waitMove h src kind s).rings = s.rings ∧
    (waitMove h src kind s).gn8s = s.gn8s ∧
    (waitMove h src kind s).heads = s.heads ∧
    (waitMove h src kind s).man = s.man ∧
    (waitMove h src kind s).engs = s.engs ∧
    (waitMove h src kind s).saf = s.saf ∧
    (waitMove h src kind s).ha = s.ha ∧
    (waitMove h src kind s).hb = s.hb ∧
    (waitMove h src kind s).pmc = s.pmc ∧
    (waitMove h src kind s).dev = s.dev ∧
    (waitMove h src kind s).img = s.img ∧
    (waitMove h src kind s).flt = s.flt ∧
    (waitMove h src kind s).pins = s.pins ∧
    (waitMove h src kind s).shown = s.shown ∧
    (waitMove h src kind s).free = s.free ∧
    (waitMove h src kind s).pending = s.pending := by
  exact ⟨rfl, rfl, rfl, rfl, rfl, rfl, rfl, rfl, rfl, rfl, rfl, rfl, rfl, rfl, rfl, rfl, rfl, rfl, rfl⟩

theorem orderHandover_keeps (h src dst kind : Nat) (s : State) :
    (orderHandover h src dst kind s).bell = s.bell ∧
    (orderHandover h src dst kind s).frame = s.frame ∧
    (orderHandover h src dst kind s).ports = s.ports ∧
    (orderHandover h src dst kind s).rings = s.rings ∧
    (orderHandover h src dst kind s).gn8s = s.gn8s ∧
    (orderHandover h src dst kind s).heads = s.heads ∧
    (orderHandover h src dst kind s).man = s.man ∧
    (orderHandover h src dst kind s).engs = s.engs ∧
    (orderHandover h src dst kind s).saf = s.saf ∧
    (orderHandover h src dst kind s).ha = s.ha ∧
    (orderHandover h src dst kind s).hb = s.hb ∧
    (orderHandover h src dst kind s).pmc = s.pmc ∧
    (orderHandover h src dst kind s).dev = s.dev ∧
    (orderHandover h src dst kind s).img = s.img ∧
    (orderHandover h src dst kind s).flt = s.flt ∧
    (orderHandover h src dst kind s).pins = s.pins ∧
    (orderHandover h src dst kind s).shown = s.shown ∧
    (orderHandover h src dst kind s).free = s.free ∧
    (orderHandover h src dst kind s).pending = s.pending := by
  exact ⟨rfl, rfl, rfl, rfl, rfl, rfl, rfl, rfl, rfl, rfl, rfl, rfl, rfl, rfl, rfl, rfl, rfl, rfl, rfl⟩

theorem choose_keeps (m : Move) (s : State) :
    (choose m s).bell = s.bell ∧
    (choose m s).frame = s.frame ∧
    (choose m s).ports = s.ports ∧
    (choose m s).rings = s.rings ∧
    (choose m s).gn8s = s.gn8s ∧
    (choose m s).heads = s.heads ∧
    (choose m s).man = s.man ∧
    (choose m s).engs = s.engs ∧
    (choose m s).saf = s.saf ∧
    (choose m s).pmc = s.pmc ∧
    (choose m s).dev = s.dev ∧
    (choose m s).img = s.img ∧
    (choose m s).pins = s.pins ∧
    (choose m s).shown = s.shown ∧
    (choose m s).free = s.free ∧
    (choose m s).pending = s.pending := by
  unfold choose
  dsimp only
  (repeat' split) <;> simp [stickyIf_keeps, putMove_keeps]

theorem chooseMoves_keeps (s : State) :
    (chooseMoves s).bell = s.bell ∧
    (chooseMoves s).frame = s.frame ∧
    (chooseMoves s).ports = s.ports ∧
    (chooseMoves s).rings = s.rings ∧
    (chooseMoves s).gn8s = s.gn8s ∧
    (chooseMoves s).heads = s.heads ∧
    (chooseMoves s).man = s.man ∧
    (chooseMoves s).engs = s.engs ∧
    (chooseMoves s).saf = s.saf ∧
    (chooseMoves s).pmc = s.pmc ∧
    (chooseMoves s).dev = s.dev ∧
    (chooseMoves s).img = s.img ∧
    (chooseMoves s).pins = s.pins ∧
    (chooseMoves s).shown = s.shown ∧
    (chooseMoves s).free = s.free ∧
    (chooseMoves s).pending = s.pending := by
  unfold chooseMoves
  simp [choose_keeps]

theorem agreeMoves_keeps (s : State) :
    (agreeMoves s).bell = s.bell ∧
    (agreeMoves s).frame = s.frame ∧
    (agreeMoves s).ports = s.ports ∧
    (agreeMoves s).rings = s.rings ∧
    (agreeMoves s).gn8s = s.gn8s ∧
    (agreeMoves s).heads = s.heads ∧
    (agreeMoves s).man = s.man ∧
    (agreeMoves s).engs = s.engs ∧
    (agreeMoves s).saf = s.saf ∧
    (agreeMoves s).ha = s.ha ∧
    (agreeMoves s).hb = s.hb ∧
    (agreeMoves s).pmc = s.pmc ∧
    (agreeMoves s).dev = s.dev ∧
    (agreeMoves s).img = s.img ∧
    (agreeMoves s).flt = s.flt ∧
    (agreeMoves s).pins = s.pins ∧
    (agreeMoves s).shown = s.shown ∧
    (agreeMoves s).free = s.free ∧
    (agreeMoves s).pending = s.pending := by
  exact ⟨rfl, rfl, rfl, rfl, rfl, rfl, rfl, rfl, rfl, rfl, rfl, rfl, rfl, rfl, rfl, rfl, rfl, rfl, rfl⟩

theorem switchMove_keeps (m : Move) (s : State) :
    (switchMove m s).bell = s.bell ∧
    (switchMove m s).frame = s.frame ∧
    (switchMove m s).ports = s.ports ∧
    (switchMove m s).rings = s.rings ∧
    (switchMove m s).gn8s = s.gn8s ∧
    (switchMove m s).man = s.man ∧
    (switchMove m s).saf = s.saf ∧
    (switchMove m s).ha = s.ha ∧
    (switchMove m s).hb = s.hb ∧
    (switchMove m s).pmc = s.pmc ∧
    (switchMove m s).dev = s.dev ∧
    (switchMove m s).img = s.img ∧
    (switchMove m s).flt = s.flt ∧
    (switchMove m s).pins = s.pins ∧
    (switchMove m s).shown = s.shown ∧
    (switchMove m s).free = s.free ∧
    (switchMove m s).pending = s.pending := by
  unfold switchMove
  simp [modEng_keeps, putMove_keeps, setHead_keeps, dropMove_keeps, waitMove_keeps]

theorem switchMoves_keeps (s : State) :
    (switchMoves s).bell = s.bell ∧
    (switchMoves s).frame = s.frame ∧
    (switchMoves s).ports = s.ports ∧
    (switchMoves s).rings = s.rings ∧
    (switchMoves s).gn8s = s.gn8s ∧
    (switchMoves s).man = s.man ∧
    (switchMoves s).saf = s.saf ∧
    (switchMoves s).ha = s.ha ∧
    (switchMoves s).hb = s.hb ∧
    (switchMoves s).pmc = s.pmc ∧
    (switchMoves s).dev = s.dev ∧
    (switchMoves s).img = s.img ∧
    (switchMoves s).flt = s.flt ∧
    (switchMoves s).pins = s.pins ∧
    (switchMoves s).shown = s.shown ∧
    (switchMoves s).free = s.free ∧
    (switchMoves s).pending = s.pending := by
  unfold switchMoves
  simp [switchMove_keeps]

theorem clearDest_keeps (h : Nat) (s : State) :
    (clearDest h s).bell = s.bell ∧
    (clearDest h s).frame = s.frame ∧
    (clearDest h s).ports = s.ports ∧
    (clearDest h s).rings = s.rings ∧
    (clearDest h s).gn8s = s.gn8s ∧
    (clearDest h s).heads = s.heads ∧
    (clearDest h s).man = s.man ∧
    (clearDest h s).sup = s.sup ∧
    (clearDest h s).saf = s.saf ∧
    (clearDest h s).ha = s.ha ∧
    (clearDest h s).hb = s.hb ∧
    (clearDest h s).pmc = s.pmc ∧
    (clearDest h s).dev = s.dev ∧
    (clearDest h s).img = s.img ∧
    (clearDest h s).flt = s.flt ∧
    (clearDest h s).pins = s.pins ∧
    (clearDest h s).shown = s.shown ∧
    (clearDest h s).free = s.free ∧
    (clearDest h s).pending = s.pending := by
  unfold clearDest
  (repeat' split) <;> simp [modEng_keeps]

theorem withdrawHead_keeps (src h : Nat) (s0 : State) :
    (withdrawHead src h s0).bell = s0.bell ∧
    (withdrawHead src h s0).frame = s0.frame ∧
    (withdrawHead src h s0).ports = s0.ports ∧
    (withdrawHead src h s0).rings = s0.rings ∧
    (withdrawHead src h s0).gn8s = s0.gn8s ∧
    (withdrawHead src h s0).man = s0.man ∧
    (withdrawHead src h s0).saf = s0.saf ∧
    (withdrawHead src h s0).ha = s0.ha ∧
    (withdrawHead src h s0).hb = s0.hb ∧
    (withdrawHead src h s0).pmc = s0.pmc ∧
    (withdrawHead src h s0).dev = s0.dev ∧
    (withdrawHead src h s0).img = s0.img ∧
    (withdrawHead src h s0).flt = s0.flt ∧
    (withdrawHead src h s0).pins = s0.pins ∧
    (withdrawHead src h s0).shown = s0.shown ∧
    (withdrawHead src h s0).free = s0.free ∧
    (withdrawHead src h s0).pending = s0.pending := by
  unfold withdrawHead
  simp [waitMove_keeps, setHead_keeps, clearDest_keeps]

theorem withdrawEng_keeps (e : Nat) (s : State) :
    (withdrawEng e s).bell = s.bell ∧
    (withdrawEng e s).ports = s.ports ∧
    (withdrawEng e s).rings = s.rings ∧
    (withdrawEng e s).gn8s = s.gn8s ∧
    (withdrawEng e s).man = s.man ∧
    (withdrawEng e s).saf = s.saf ∧
    (withdrawEng e s).ha = s.ha ∧
    (withdrawEng e s).hb = s.hb ∧
    (withdrawEng e s).pmc = s.pmc ∧
    (withdrawEng e s).dev = s.dev ∧
    (withdrawEng e s).img = s.img ∧
    (withdrawEng e s).flt = s.flt ∧
    (withdrawEng e s).pins = s.pins ∧
    (withdrawEng e s).shown = s.shown ∧
    (withdrawEng e s).free = s.free ∧
    (withdrawEng e s).pending = s.pending := by
  unfold withdrawEng
  simp [withdrawHead_keeps, setEng_keeps]

theorem offEng_keeps (e : Nat) (s : State) :
    (offEng e s).bell = s.bell ∧
    (offEng e s).frame = s.frame ∧
    (offEng e s).ports = s.ports ∧
    (offEng e s).rings = s.rings ∧
    (offEng e s).gn8s = s.gn8s ∧
    (offEng e s).heads = s.heads ∧
    (offEng e s).man = s.man ∧
    (offEng e s).sup = s.sup ∧
    (offEng e s).saf = s.saf ∧
    (offEng e s).ha = s.ha ∧
    (offEng e s).hb = s.hb ∧
    (offEng e s).pmc = s.pmc ∧
    (offEng e s).dev = s.dev ∧
    (offEng e s).img = s.img ∧
    (offEng e s).flt = s.flt ∧
    (offEng e s).pins = s.pins ∧
    (offEng e s).shown = s.shown ∧
    (offEng e s).free = s.free ∧
    (offEng e s).pending = s.pending := by
  unfold offEng
  simp [setEng_keeps]

theorem loseDest_keeps (k : Nat) (m : Move) (s : State) :
    (loseDest k m s).bell = s.bell ∧
    (loseDest k m s).frame = s.frame ∧
    (loseDest k m s).ports = s.ports ∧
    (loseDest k m s).rings = s.rings ∧
    (loseDest k m s).gn8s = s.gn8s ∧
    (loseDest k m s).man = s.man ∧
    (loseDest k m s).saf = s.saf ∧
    (loseDest k m s).ha = s.ha ∧
    (loseDest k m s).hb = s.hb ∧
    (loseDest k m s).pmc = s.pmc ∧
    (loseDest k m s).dev = s.dev ∧
    (loseDest k m s).img = s.img ∧
    (loseDest k m s).flt = s.flt ∧
    (loseDest k m s).pins = s.pins ∧
    (loseDest k m s).shown = s.shown ∧
    (loseDest k m s).free = s.free ∧
    (loseDest k m s).pending = s.pending := by
  unfold loseDest
  simp [dropMove_keeps, withdrawHead_keeps, waitMove_keeps, setHead_keeps]

theorem loseEngDom_keeps (k : Nat) (s : State) :
    (loseEngDom k s).ports = s.ports ∧
    (loseEngDom k s).rings = s.rings ∧
    (loseEngDom k s).gn8s = s.gn8s ∧
    (loseEngDom k s).man = s.man ∧
    (loseEngDom k s).saf = s.saf ∧
    (loseEngDom k s).pmc = s.pmc ∧
    (loseEngDom k s).dev = s.dev ∧
    (loseEngDom k s).img = s.img ∧
    (loseEngDom k s).pins = s.pins ∧
    (loseEngDom k s).shown = s.shown ∧
    (loseEngDom k s).free = s.free ∧
    (loseEngDom k s).pending = s.pending := by
  unfold loseEngDom
  simp [setRot_keeps, loseDest_keeps, offEng_keeps, withdrawEng_keeps, modEng_keeps, markLate_keeps]

theorem rotateOut_keeps (e : Nat) (s : State) :
    (rotateOut e s).bell = s.bell ∧
    (rotateOut e s).frame = s.frame ∧
    (rotateOut e s).ports = s.ports ∧
    (rotateOut e s).rings = s.rings ∧
    (rotateOut e s).gn8s = s.gn8s ∧
    (rotateOut e s).heads = s.heads ∧
    (rotateOut e s).man = s.man ∧
    (rotateOut e s).engs = s.engs ∧
    (rotateOut e s).saf = s.saf ∧
    (rotateOut e s).ha = s.ha ∧
    (rotateOut e s).hb = s.hb ∧
    (rotateOut e s).pmc = s.pmc ∧
    (rotateOut e s).dev = s.dev ∧
    (rotateOut e s).img = s.img ∧
    (rotateOut e s).flt = s.flt ∧
    (rotateOut e s).pins = s.pins ∧
    (rotateOut e s).shown = s.shown ∧
    (rotateOut e s).free = s.free ∧
    (rotateOut e s).pending = s.pending := by
  unfold rotateOut
  (repeat' split) <;> simp [orderHandover_keeps, setRot_keeps]

theorem rotate_keeps (s : State) :
    (rotate s).bell = s.bell ∧
    (rotate s).frame = s.frame ∧
    (rotate s).ports = s.ports ∧
    (rotate s).rings = s.rings ∧
    (rotate s).gn8s = s.gn8s ∧
    (rotate s).heads = s.heads ∧
    (rotate s).man = s.man ∧
    (rotate s).saf = s.saf ∧
    (rotate s).ha = s.ha ∧
    (rotate s).hb = s.hb ∧
    (rotate s).pmc = s.pmc ∧
    (rotate s).dev = s.dev ∧
    (rotate s).img = s.img ∧
    (rotate s).flt = s.flt ∧
    (rotate s).pins = s.pins ∧
    (rotate s).shown = s.shown ∧
    (rotate s).free = s.free ∧
    (rotate s).pending = s.pending := by
  unfold rotate
  (repeat' split) <;> simp [rotateOut_keeps, startWindow_keeps, setRot_keeps]

theorem execRotationDue_keeps (s : State) (u : State) (h : execRotationDue s = .next u) :
    u.bell = s.bell ∧
    u.frame = s.frame ∧
    u.ports = s.ports ∧
    u.rings = s.rings ∧
    u.gn8s = s.gn8s ∧
    u.heads = s.heads ∧
    u.man = s.man ∧
    u.saf = s.saf ∧
    u.pmc = s.pmc ∧
    u.dev = s.dev ∧
    u.img = s.img ∧
    u.pins = s.pins ∧
    u.shown = s.shown ∧
    u.free = s.free ∧
    u.pending = s.pending := by
  unfold execRotationDue at h
  (repeat' split at h) <;> (injection h with h; subst h; simp [rotate_keeps, stickyIf_keeps])

theorem startHead_keeps (m : Move) (valid : Bool) (s : State) :
    (startHead m valid s).bell = s.bell ∧
    (startHead m valid s).frame = s.frame ∧
    (startHead m valid s).ports = s.ports ∧
    (startHead m valid s).rings = s.rings ∧
    (startHead m valid s).gn8s = s.gn8s ∧
    (startHead m valid s).man = s.man ∧
    (startHead m valid s).saf = s.saf ∧
    (startHead m valid s).ha = s.ha ∧
    (startHead m valid s).hb = s.hb ∧
    (startHead m valid s).pmc = s.pmc ∧
    (startHead m valid s).dev = s.dev ∧
    (startHead m valid s).img = s.img ∧
    (startHead m valid s).flt = s.flt ∧
    (startHead m valid s).pins = s.pins ∧
    (startHead m valid s).shown = s.shown ∧
    (startHead m valid s).free = s.free ∧
    (startHead m valid s).pending = s.pending := by
  unfold startHead
  simp [dropMove_keeps, modEng_keeps, setHead_keeps]

end Sys2Proof.Machine
end

