-- ==== Sys2Proof/Laws/FrameBoot.lean ====
section
/-! SUPPORT. What each operation of Boot.lean (return to BOOT) leaves unchanged. -/

namespace Sys2Proof.Machine

theorem returnToBoot_keeps (s : State) :
    (returnToBoot s).pins = s.pins ∧
    (returnToBoot s).free = s.free ∧
    (returnToBoot s).pending = s.pending := by
  unfold returnToBoot
  simp [raiseBoth_keeps]

end Sys2Proof.Machine
end

