-- ==== Sys2Proof/Laws/FrameCmd.lean ====
section
/-! SUPPORT. What each operation of Cmd.lean (mailbox commands) leaves unchanged. -/

namespace Sys2Proof.Machine

/-! A check list, a restoration and a result keep whatever their effect keeps. -/

@[simp] theorem ite_out_bell (c : Prop) [Decidable c] (a b : CmdOut) :
    (if c then a else b).2.2.bell = if c then a.2.2.bell else b.2.2.bell := by
  split <;> rfl

@[simp] theorem checks_bell (l : List (Bool × Nat)) (ok : State → CmdOut) (s : State)
    (h : ∀ s, (ok s).2.2.bell = s.bell) : (checks l ok s).2.2.bell = s.bell := by
  unfold checks
  split
  · rfl
  · exact h s

@[simp] theorem restoration_bell (b : Bool) (f : MbFields) (ok : State → CmdOut) (s : State)
    (h : ∀ s, (ok s).2.2.bell = s.bell) : (restoration b f ok s).2.2.bell = s.bell := by
  unfold restoration
  dsimp only
  split
  · rfl
  · split
    · rfl
    · rw [h]; rfl

@[simp] theorem addResult_bell (p : HostId) (i : Nat) (t : Word) (r : CmdOut) :
    (addResult p i t r).bell = r.2.2.bell := by
  rfl

@[simp] theorem ite_out_frame (c : Prop) [Decidable c] (a b : CmdOut) :
    (if c then a else b).2.2.frame = if c then a.2.2.frame else b.2.2.frame := by
  split <;> rfl

@[simp] theorem checks_frame (l : List (Bool × Nat)) (ok : State → CmdOut) (s : State)
    (h : ∀ s, (ok s).2.2.frame = s.frame) : (checks l ok s).2.2.frame = s.frame := by
  unfold checks
  split
  · rfl
  · exact h s

@[simp] theorem restoration_frame (b : Bool) (f : MbFields) (ok : State → CmdOut) (s : State)
    (h : ∀ s, (ok s).2.2.frame = s.frame) : (restoration b f ok s).2.2.frame = s.frame := by
  unfold restoration
  dsimp only
  split
  · rfl
  · split
    · rfl
    · rw [h]; rfl

@[simp] theorem addResult_frame (p : HostId) (i : Nat) (t : Word) (r : CmdOut) :
    (addResult p i t r).frame = r.2.2.frame := by
  rfl

@[simp] theorem ite_out_ports (c : Prop) [Decidable c] (a b : CmdOut) :
    (if c then a else b).2.2.ports = if c then a.2.2.ports else b.2.2.ports := by
  split <;> rfl

@[simp] theorem checks_ports (l : List (Bool × Nat)) (ok : State → CmdOut) (s : State)
    (h : ∀ s, (ok s).2.2.ports = s.ports) : (checks l ok s).2.2.ports = s.ports := by
  unfold checks
  split
  · rfl
  · exact h s

@[simp] theorem restoration_ports (b : Bool) (f : MbFields) (ok : State → CmdOut) (s : State)
    (h : ∀ s, (ok s).2.2.ports = s.ports) : (restoration b f ok s).2.2.ports = s.ports := by
  unfold restoration
  dsimp only
  split
  · rfl
  · split
    · rfl
    · rw [h]; rfl

@[simp] theorem addResult_ports (p : HostId) (i : Nat) (t : Word) (r : CmdOut) :
    (addResult p i t r).ports = r.2.2.ports := by
  rfl

@[simp] theorem ite_out_rings (c : Prop) [Decidable c] (a b : CmdOut) :
    (if c then a else b).2.2.rings = if c then a.2.2.rings else b.2.2.rings := by
  split <;> rfl

@[simp] theorem checks_rings (l : List (Bool × Nat)) (ok : State → CmdOut) (s : State)
    (h : ∀ s, (ok s).2.2.rings = s.rings) : (checks l ok s).2.2.rings = s.rings := by
  unfold checks
  split
  · rfl
  · exact h s

@[simp] theorem restoration_rings (b : Bool) (f : MbFields) (ok : State → CmdOut) (s : State)
    (h : ∀ s, (ok s).2.2.rings = s.rings) : (restoration b f ok s).2.2.rings = s.rings := by
  unfold restoration
  dsimp only
  split
  · rfl
  · split
    · rfl
    · rw [h]; rfl

@[simp] theorem addResult_rings (p : HostId) (i : Nat) (t : Word) (r : CmdOut) :
    (addResult p i t r).rings = r.2.2.rings := by
  rfl

@[simp] theorem ite_out_gn8s (c : Prop) [Decidable c] (a b : CmdOut) :
    (if c then a else b).2.2.gn8s = if c then a.2.2.gn8s else b.2.2.gn8s := by
  split <;> rfl

@[simp] theorem checks_gn8s (l : List (Bool × Nat)) (ok : State → CmdOut) (s : State)
    (h : ∀ s, (ok s).2.2.gn8s = s.gn8s) : (checks l ok s).2.2.gn8s = s.gn8s := by
  unfold checks
  split
  · rfl
  · exact h s

@[simp] theorem restoration_gn8s (b : Bool) (f : MbFields) (ok : State → CmdOut) (s : State)
    (h : ∀ s, (ok s).2.2.gn8s = s.gn8s) : (restoration b f ok s).2.2.gn8s = s.gn8s := by
  unfold restoration
  dsimp only
  split
  · rfl
  · split
    · rfl
    · rw [h]; rfl

@[simp] theorem addResult_gn8s (p : HostId) (i : Nat) (t : Word) (r : CmdOut) :
    (addResult p i t r).gn8s = r.2.2.gn8s := by
  rfl

@[simp] theorem ite_out_heads (c : Prop) [Decidable c] (a b : CmdOut) :
    (if c then a else b).2.2.heads = if c then a.2.2.heads else b.2.2.heads := by
  split <;> rfl

@[simp] theorem checks_heads (l : List (Bool × Nat)) (ok : State → CmdOut) (s : State)
    (h : ∀ s, (ok s).2.2.heads = s.heads) : (checks l ok s).2.2.heads = s.heads := by
  unfold checks
  split
  · rfl
  · exact h s

@[simp] theorem restoration_heads (b : Bool) (f : MbFields) (ok : State → CmdOut) (s : State)
    (h : ∀ s, (ok s).2.2.heads = s.heads) : (restoration b f ok s).2.2.heads = s.heads := by
  unfold restoration
  dsimp only
  split
  · rfl
  · split
    · rfl
    · rw [h]; rfl

@[simp] theorem addResult_heads (p : HostId) (i : Nat) (t : Word) (r : CmdOut) :
    (addResult p i t r).heads = r.2.2.heads := by
  rfl

@[simp] theorem ite_out_man (c : Prop) [Decidable c] (a b : CmdOut) :
    (if c then a else b).2.2.man = if c then a.2.2.man else b.2.2.man := by
  split <;> rfl

@[simp] theorem checks_man (l : List (Bool × Nat)) (ok : State → CmdOut) (s : State)
    (h : ∀ s, (ok s).2.2.man = s.man) : (checks l ok s).2.2.man = s.man := by
  unfold checks
  split
  · rfl
  · exact h s

@[simp] theorem restoration_man (b : Bool) (f : MbFields) (ok : State → CmdOut) (s : State)
    (h : ∀ s, (ok s).2.2.man = s.man) : (restoration b f ok s).2.2.man = s.man := by
  unfold restoration
  dsimp only
  split
  · rfl
  · split
    · rfl
    · rw [h]; rfl

@[simp] theorem addResult_man (p : HostId) (i : Nat) (t : Word) (r : CmdOut) :
    (addResult p i t r).man = r.2.2.man := by
  rfl

@[simp] theorem ite_out_engs (c : Prop) [Decidable c] (a b : CmdOut) :
    (if c then a else b).2.2.engs = if c then a.2.2.engs else b.2.2.engs := by
  split <;> rfl

@[simp] theorem checks_engs (l : List (Bool × Nat)) (ok : State → CmdOut) (s : State)
    (h : ∀ s, (ok s).2.2.engs = s.engs) : (checks l ok s).2.2.engs = s.engs := by
  unfold checks
  split
  · rfl
  · exact h s

@[simp] theorem restoration_engs (b : Bool) (f : MbFields) (ok : State → CmdOut) (s : State)
    (h : ∀ s, (ok s).2.2.engs = s.engs) : (restoration b f ok s).2.2.engs = s.engs := by
  unfold restoration
  dsimp only
  split
  · rfl
  · split
    · rfl
    · rw [h]; rfl

@[simp] theorem addResult_engs (p : HostId) (i : Nat) (t : Word) (r : CmdOut) :
    (addResult p i t r).engs = r.2.2.engs := by
  rfl

@[simp] theorem ite_out_sup (c : Prop) [Decidable c] (a b : CmdOut) :
    (if c then a else b).2.2.sup = if c then a.2.2.sup else b.2.2.sup := by
  split <;> rfl

@[simp] theorem checks_sup (l : List (Bool × Nat)) (ok : State → CmdOut) (s : State)
    (h : ∀ s, (ok s).2.2.sup = s.sup) : (checks l ok s).2.2.sup = s.sup := by
  unfold checks
  split
  · rfl
  · exact h s

@[simp] theorem ite_out_saf (c : Prop) [Decidable c] (a b : CmdOut) :
    (if c then a else b).2.2.saf = if c then a.2.2.saf else b.2.2.saf := by
  split <;> rfl

@[simp] theorem checks_saf (l : List (Bool × Nat)) (ok : State → CmdOut) (s : State)
    (h : ∀ s, (ok s).2.2.saf = s.saf) : (checks l ok s).2.2.saf = s.saf := by
  unfold checks
  split
  · rfl
  · exact h s

@[simp] theorem restoration_saf (b : Bool) (f : MbFields) (ok : State → CmdOut) (s : State)
    (h : ∀ s, (ok s).2.2.saf = s.saf) : (restoration b f ok s).2.2.saf = s.saf := by
  unfold restoration
  dsimp only
  split
  · rfl
  · split
    · rfl
    · rw [h]; rfl

@[simp] theorem addResult_saf (p : HostId) (i : Nat) (t : Word) (r : CmdOut) :
    (addResult p i t r).saf = r.2.2.saf := by
  rfl

@[simp] theorem ite_out_ha (c : Prop) [Decidable c] (a b : CmdOut) :
    (if c then a else b).2.2.ha = if c then a.2.2.ha else b.2.2.ha := by
  split <;> rfl

@[simp] theorem checks_ha (l : List (Bool × Nat)) (ok : State → CmdOut) (s : State)
    (h : ∀ s, (ok s).2.2.ha = s.ha) : (checks l ok s).2.2.ha = s.ha := by
  unfold checks
  split
  · rfl
  · exact h s

@[simp] theorem restoration_ha (b : Bool) (f : MbFields) (ok : State → CmdOut) (s : State)
    (h : ∀ s, (ok s).2.2.ha = s.ha) : (restoration b f ok s).2.2.ha = s.ha := by
  unfold restoration
  dsimp only
  split
  · rfl
  · split
    · rfl
    · rw [h]; rfl

@[simp] theorem addResult_ha (p : HostId) (i : Nat) (t : Word) (r : CmdOut) :
    (addResult p i t r).ha = r.2.2.ha := by
  rfl

@[simp] theorem ite_out_hb (c : Prop) [Decidable c] (a b : CmdOut) :
    (if c then a else b).2.2.hb = if c then a.2.2.hb else b.2.2.hb := by
  split <;> rfl

@[simp] theorem checks_hb (l : List (Bool × Nat)) (ok : State → CmdOut) (s : State)
    (h : ∀ s, (ok s).2.2.hb = s.hb) : (checks l ok s).2.2.hb = s.hb := by
  unfold checks
  split
  · rfl
  · exact h s

@[simp] theorem restoration_hb (b : Bool) (f : MbFields) (ok : State → CmdOut) (s : State)
    (h : ∀ s, (ok s).2.2.hb = s.hb) : (restoration b f ok s).2.2.hb = s.hb := by
  unfold restoration
  dsimp only
  split
  · rfl
  · split
    · rfl
    · rw [h]; rfl

@[simp] theorem addResult_hb (p : HostId) (i : Nat) (t : Word) (r : CmdOut) :
    (addResult p i t r).hb = r.2.2.hb := by
  rfl

@[simp] theorem ite_out_pmc (c : Prop) [Decidable c] (a b : CmdOut) :
    (if c then a else b).2.2.pmc = if c then a.2.2.pmc else b.2.2.pmc := by
  split <;> rfl

@[simp] theorem checks_pmc (l : List (Bool × Nat)) (ok : State → CmdOut) (s : State)
    (h : ∀ s, (ok s).2.2.pmc = s.pmc) : (checks l ok s).2.2.pmc = s.pmc := by
  unfold checks
  split
  · rfl
  · exact h s

@[simp] theorem restoration_pmc (b : Bool) (f : MbFields) (ok : State → CmdOut) (s : State)
    (h : ∀ s, (ok s).2.2.pmc = s.pmc) : (restoration b f ok s).2.2.pmc = s.pmc := by
  unfold restoration
  dsimp only
  split
  · rfl
  · split
    · rfl
    · rw [h]; rfl

@[simp] theorem addResult_pmc (p : HostId) (i : Nat) (t : Word) (r : CmdOut) :
    (addResult p i t r).pmc = r.2.2.pmc := by
  rfl

@[simp] theorem ite_out_dev (c : Prop) [Decidable c] (a b : CmdOut) :
    (if c then a else b).2.2.dev = if c then a.2.2.dev else b.2.2.dev := by
  split <;> rfl

@[simp] theorem checks_dev (l : List (Bool × Nat)) (ok : State → CmdOut) (s : State)
    (h : ∀ s, (ok s).2.2.dev = s.dev) : (checks l ok s).2.2.dev = s.dev := by
  unfold checks
  split
  · rfl
  · exact h s

@[simp] theorem restoration_dev (b : Bool) (f : MbFields) (ok : State → CmdOut) (s : State)
    (h : ∀ s, (ok s).2.2.dev = s.dev) : (restoration b f ok s).2.2.dev = s.dev := by
  unfold restoration
  dsimp only
  split
  · rfl
  · split
    · rfl
    · rw [h]; rfl

@[simp] theorem addResult_dev (p : HostId) (i : Nat) (t : Word) (r : CmdOut) :
    (addResult p i t r).dev = r.2.2.dev := by
  rfl

@[simp] theorem ite_out_img (c : Prop) [Decidable c] (a b : CmdOut) :
    (if c then a else b).2.2.img = if c then a.2.2.img else b.2.2.img := by
  split <;> rfl

@[simp] theorem checks_img (l : List (Bool × Nat)) (ok : State → CmdOut) (s : State)
    (h : ∀ s, (ok s).2.2.img = s.img) : (checks l ok s).2.2.img = s.img := by
  unfold checks
  split
  · rfl
  · exact h s

@[simp] theorem restoration_img (b : Bool) (f : MbFields) (ok : State → CmdOut) (s : State)
    (h : ∀ s, (ok s).2.2.img = s.img) : (restoration b f ok s).2.2.img = s.img := by
  unfold restoration
  dsimp only
  split
  · rfl
  · split
    · rfl
    · rw [h]; rfl

@[simp] theorem addResult_img (p : HostId) (i : Nat) (t : Word) (r : CmdOut) :
    (addResult p i t r).img = r.2.2.img := by
  rfl

@[simp] theorem ite_out_flt (c : Prop) [Decidable c] (a b : CmdOut) :
    (if c then a else b).2.2.flt = if c then a.2.2.flt else b.2.2.flt := by
  split <;> rfl

@[simp] theorem checks_flt (l : List (Bool × Nat)) (ok : State → CmdOut) (s : State)
    (h : ∀ s, (ok s).2.2.flt = s.flt) : (checks l ok s).2.2.flt = s.flt := by
  unfold checks
  split
  · rfl
  · exact h s

@[simp] theorem restoration_flt (b : Bool) (f : MbFields) (ok : State → CmdOut) (s : State)
    (h : ∀ s, (ok s).2.2.flt = s.flt) : (restoration b f ok s).2.2.flt = s.flt := by
  unfold restoration
  dsimp only
  split
  · rfl
  · split
    · rfl
    · rw [h]; rfl

@[simp] theorem addResult_flt (p : HostId) (i : Nat) (t : Word) (r : CmdOut) :
    (addResult p i t r).flt = r.2.2.flt := by
  rfl

@[simp] theorem ite_out_pins (c : Prop) [Decidable c] (a b : CmdOut) :
    (if c then a else b).2.2.pins = if c then a.2.2.pins else b.2.2.pins := by
  split <;> rfl

@[simp] theorem checks_pins (l : List (Bool × Nat)) (ok : State → CmdOut) (s : State)
    (h : ∀ s, (ok s).2.2.pins = s.pins) : (checks l ok s).2.2.pins = s.pins := by
  unfold checks
  split
  · rfl
  · exact h s

@[simp] theorem restoration_pins (b : Bool) (f : MbFields) (ok : State → CmdOut) (s : State)
    (h : ∀ s, (ok s).2.2.pins = s.pins) : (restoration b f ok s).2.2.pins = s.pins := by
  unfold restoration
  dsimp only
  split
  · rfl
  · split
    · rfl
    · rw [h]; rfl

@[simp] theorem addResult_pins (p : HostId) (i : Nat) (t : Word) (r : CmdOut) :
    (addResult p i t r).pins = r.2.2.pins := by
  rfl

@[simp] theorem ite_out_shown (c : Prop) [Decidable c] (a b : CmdOut) :
    (if c then a else b).2.2.shown = if c then a.2.2.shown else b.2.2.shown := by
  split <;> rfl

@[simp] theorem checks_shown (l : List (Bool × Nat)) (ok : State → CmdOut) (s : State)
    (h : ∀ s, (ok s).2.2.shown = s.shown) : (checks l ok s).2.2.shown = s.shown := by
  unfold checks
  split
  · rfl
  · exact h s

@[simp] theorem restoration_shown (b : Bool) (f : MbFields) (ok : State → CmdOut) (s : State)
    (h : ∀ s, (ok s).2.2.shown = s.shown) : (restoration b f ok s).2.2.shown = s.shown := by
  unfold restoration
  dsimp only
  split
  · rfl
  · split
    · rfl
    · rw [h]; rfl

@[simp] theorem addResult_shown (p : HostId) (i : Nat) (t : Word) (r : CmdOut) :
    (addResult p i t r).shown = r.2.2.shown := by
  rfl

@[simp] theorem ite_out_free (c : Prop) [Decidable c] (a b : CmdOut) :
    (if c then a else b).2.2.free = if c then a.2.2.free else b.2.2.free := by
  split <;> rfl

@[simp] theorem checks_free (l : List (Bool × Nat)) (ok : State → CmdOut) (s : State)
    (h : ∀ s, (ok s).2.2.free = s.free) : (checks l ok s).2.2.free = s.free := by
  unfold checks
  split
  · rfl
  · exact h s

@[simp] theorem restoration_free (b : Bool) (f : MbFields) (ok : State → CmdOut) (s : State)
    (h : ∀ s, (ok s).2.2.free = s.free) : (restoration b f ok s).2.2.free = s.free := by
  unfold restoration
  dsimp only
  split
  · rfl
  · split
    · rfl
    · rw [h]; rfl

@[simp] theorem addResult_free (p : HostId) (i : Nat) (t : Word) (r : CmdOut) :
    (addResult p i t r).free = r.2.2.free := by
  rfl

@[simp] theorem ite_out_pending (c : Prop) [Decidable c] (a b : CmdOut) :
    (if c then a else b).2.2.pending = if c then a.2.2.pending else b.2.2.pending := by
  split <;> rfl

@[simp] theorem checks_pending (l : List (Bool × Nat)) (ok : State → CmdOut) (s : State)
    (h : ∀ s, (ok s).2.2.pending = s.pending) : (checks l ok s).2.2.pending = s.pending := by
  unfold checks
  split
  · rfl
  · exact h s

@[simp] theorem restoration_pending (b : Bool) (f : MbFields) (ok : State → CmdOut) (s : State)
    (h : ∀ s, (ok s).2.2.pending = s.pending) : (restoration b f ok s).2.2.pending = s.pending := by
  unfold restoration
  dsimp only
  split
  · rfl
  · split
    · rfl
    · rw [h]; rfl

@[simp] theorem addResult_pending (p : HostId) (i : Nat) (t : Word) (r : CmdOut) :
    (addResult p i t r).pending = r.2.2.pending := by
  rfl

theorem refuse_keeps (code : Nat) (s : State) :
    (refuse code s).2.2.bell = s.bell ∧
    (refuse code s).2.2.frame = s.frame ∧
    (refuse code s).2.2.ports = s.ports ∧
    (refuse code s).2.2.rings = s.rings ∧
    (refuse code s).2.2.gn8s = s.gn8s ∧
    (refuse code s).2.2.heads = s.heads ∧
    (refuse code s).2.2.man = s.man ∧
    (refuse code s).2.2.engs = s.engs ∧
    (refuse code s).2.2.sup = s.sup ∧
    (refuse code s).2.2.saf = s.saf ∧
    (refuse code s).2.2.ha = s.ha ∧
    (refuse code s).2.2.hb = s.hb ∧
    (refuse code s).2.2.pmc = s.pmc ∧
    (refuse code s).2.2.dev = s.dev ∧
    (refuse code s).2.2.img = s.img ∧
    (refuse code s).2.2.flt = s.flt ∧
    (refuse code s).2.2.pins = s.pins ∧
    (refuse code s).2.2.shown = s.shown ∧
    (refuse code s).2.2.free = s.free ∧
    (refuse code s).2.2.pending = s.pending := by
  exact ⟨rfl, rfl, rfl, rfl, rfl, rfl, rfl, rfl, rfl, rfl, rfl, rfl, rfl, rfl, rfl, rfl, rfl, rfl, rfl, rfl⟩

theorem modPend_keeps (f : List Dreq → List Dreq) (s : State) :
    (modPend f s).bell = s.bell ∧
    (modPend f s).frame = s.frame ∧
    (modPend f s).ports = s.ports ∧
    (modPend f s).rings = s.rings ∧
    (modPend f s).gn8s = s.gn8s ∧
    (modPend f s).heads = s.heads ∧
    (modPend f s).man = s.man ∧
    (modPend f s).engs = s.engs ∧
    (modPend f s).saf = s.saf ∧
    (modPend f s).ha = s.ha ∧
    (modPend f s).hb = s.hb ∧
    (modPend f s).pmc = s.pmc ∧
    (modPend f s).dev = s.dev ∧
    (modPend f s).img = s.img ∧
    (modPend f s).flt = s.flt ∧
    (modPend f s).pins = s.pins ∧
    (modPend f s).shown = s.shown ∧
    (modPend f s).free = s.free ∧
    (modPend f s).pending = s.pending := by
  exact ⟨rfl, rfl, rfl, rfl, rfl, rfl, rfl, rfl, rfl, rfl, rfl, rfl, rfl, rfl, rfl, rfl, rfl, rfl, rfl⟩

theorem dropAged_keeps (s : State) :
    (dropAged s).bell = s.bell ∧
    (dropAged s).frame = s.frame ∧
    (dropAged s).ports = s.ports ∧
    (dropAged s).rings = s.rings ∧
    (dropAged s).gn8s = s.gn8s ∧
    (dropAged s).heads = s.heads ∧
    (dropAged s).man = s.man ∧
    (dropAged s).engs = s.engs ∧
    (dropAged s).saf = s.saf ∧
    (dropAged s).ha = s.ha ∧
    (dropAged s).hb = s.hb ∧
    (dropAged s).pmc = s.pmc ∧
    (dropAged s).dev = s.dev ∧
    (dropAged s).img = s.img ∧
    (dropAged s).flt = s.flt ∧
    (dropAged s).pins = s.pins ∧
    (dropAged s).shown = s.shown ∧
    (dropAged s).free = s.free ∧
    (dropAged s).pending = s.pending := by
  exact ⟨rfl, rfl, rfl, rfl, rfl, rfl, rfl, rfl, rfl, rfl, rfl, rfl, rfl, rfl, rfl, rfl, rfl, rfl, rfl⟩

theorem cancelReqs_keeps (s : State) :
    (cancelReqs s).bell = s.bell ∧
    (cancelReqs s).frame = s.frame ∧
    (cancelReqs s).ports = s.ports ∧
    (cancelReqs s).rings = s.rings ∧
    (cancelReqs s).gn8s = s.gn8s ∧
    (cancelReqs s).heads = s.heads ∧
    (cancelReqs s).man = s.man ∧
    (cancelReqs s).engs = s.engs ∧
    (cancelReqs s).saf = s.saf ∧
    (cancelReqs s).ha = s.ha ∧
    (cancelReqs s).hb = s.hb ∧
    (cancelReqs s).pmc = s.pmc ∧
    (cancelReqs s).dev = s.dev ∧
    (cancelReqs s).img = s.img ∧
    (cancelReqs s).flt = s.flt ∧
    (cancelReqs s).pins = s.pins ∧
    (cancelReqs s).shown = s.shown ∧
    (cancelReqs s).free = s.free ∧
    (cancelReqs s).pending = s.pending := by
  exact ⟨rfl, rfl, rfl, rfl, rfl, rfl, rfl, rfl, rfl, rfl, rfl, rfl, rfl, rfl, rfl, rfl, rfl, rfl, rfl⟩

theorem dropReq_keeps (n : Nat) (s : State) :
    (dropReq n s).bell = s.bell ∧
    (dropReq n s).frame = s.frame ∧
    (dropReq n s).ports = s.ports ∧
    (dropReq n s).rings = s.rings ∧
    (dropReq n s).gn8s = s.gn8s ∧
    (dropReq n s).heads = s.heads ∧
    (dropReq n s).man = s.man ∧
    (dropReq n s).engs = s.engs ∧
    (dropReq n s).saf = s.saf ∧
    (dropReq n s).ha = s.ha ∧
    (dropReq n s).hb = s.hb ∧
    (dropReq n s).pmc = s.pmc ∧
    (dropReq n s).dev = s.dev ∧
    (dropReq n s).img = s.img ∧
    (dropReq n s).flt = s.flt ∧
    (dropReq n s).pins = s.pins ∧
    (dropReq n s).shown = s.shown ∧
    (dropReq n s).free = s.free ∧
    (dropReq n s).pending = s.pending := by
  exact ⟨rfl, rfl, rfl, rfl, rfl, rfl, rfl, rfl, rfl, rfl, rfl, rfl, rfl, rfl, rfl, rfl, rfl, rfl, rfl⟩

theorem sweepEffect_keeps (n : Nat) (s : State) :
    (sweepEffect n s).bell = s.bell ∧
    (sweepEffect n s).frame = s.frame ∧
    (sweepEffect n s).ports = s.ports ∧
    (sweepEffect n s).rings = s.rings ∧
    (sweepEffect n s).gn8s = s.gn8s ∧
    (sweepEffect n s).heads = s.heads ∧
    (sweepEffect n s).engs = s.engs ∧
    (sweepEffect n s).saf = s.saf ∧
    (sweepEffect n s).ha = s.ha ∧
    (sweepEffect n s).hb = s.hb ∧
    (sweepEffect n s).pmc = s.pmc ∧
    (sweepEffect n s).dev = s.dev ∧
    (sweepEffect n s).img = s.img ∧
    (sweepEffect n s).flt = s.flt ∧
    (sweepEffect n s).pins = s.pins ∧
    (sweepEffect n s).shown = s.shown ∧
    (sweepEffect n s).free = s.free ∧
    (sweepEffect n s).pending = s.pending := by
  exact ⟨rfl, rfl, rfl, rfl, rfl, rfl, rfl, rfl, rfl, rfl, rfl, rfl, rfl, rfl, rfl, rfl, rfl, rfl⟩

theorem rstSweep_keeps (f : MbFields) (s : State) :
    (rstSweep f s).2.2.bell = s.bell ∧
    (rstSweep f s).2.2.frame = s.frame ∧
    (rstSweep f s).2.2.ports = s.ports ∧
    (rstSweep f s).2.2.rings = s.rings ∧
    (rstSweep f s).2.2.gn8s = s.gn8s ∧
    (rstSweep f s).2.2.heads = s.heads ∧
    (rstSweep f s).2.2.engs = s.engs ∧
    (rstSweep f s).2.2.saf = s.saf ∧
    (rstSweep f s).2.2.ha = s.ha ∧
    (rstSweep f s).2.2.hb = s.hb ∧
    (rstSweep f s).2.2.pmc = s.pmc ∧
    (rstSweep f s).2.2.dev = s.dev ∧
    (rstSweep f s).2.2.img = s.img ∧
    (rstSweep f s).2.2.flt = s.flt ∧
    (rstSweep f s).2.2.pins = s.pins ∧
    (rstSweep f s).2.2.shown = s.shown ∧
    (rstSweep f s).2.2.free = s.free ∧
    (rstSweep f s).2.2.pending = s.pending := by
  unfold rstSweep
  simp [sweepEffect_keeps]

theorem dreqEffect_keeps (p : HostId) (i : Nat) (f : MbFields) (s : State) :
    (dreqEffect p i f s).bell = s.bell ∧
    (dreqEffect p i f s).frame = s.frame ∧
    (dreqEffect p i f s).ports = s.ports ∧
    (dreqEffect p i f s).rings = s.rings ∧
    (dreqEffect p i f s).gn8s = s.gn8s ∧
    (dreqEffect p i f s).heads = s.heads ∧
    (dreqEffect p i f s).man = s.man ∧
    (dreqEffect p i f s).engs = s.engs ∧
    (dreqEffect p i f s).saf = s.saf ∧
    (dreqEffect p i f s).ha = s.ha ∧
    (dreqEffect p i f s).hb = s.hb ∧
    (dreqEffect p i f s).pmc = s.pmc ∧
    (dreqEffect p i f s).dev = s.dev ∧
    (dreqEffect p i f s).img = s.img ∧
    (dreqEffect p i f s).flt = s.flt ∧
    (dreqEffect p i f s).pins = s.pins ∧
    (dreqEffect p i f s).shown = s.shown ∧
    (dreqEffect p i f s).pending = s.pending := by
  exact ⟨rfl, rfl, rfl, rfl, rfl, rfl, rfl, rfl, rfl, rfl, rfl, rfl, rfl, rfl, rfl, rfl, rfl, rfl⟩

theorem rstDreq_keeps (p : HostId) (i : Nat) (f : MbFields) (s : State) :
    (rstDreq p i f s).2.2.bell = s.bell ∧
    (rstDreq p i f s).2.2.frame = s.frame ∧
    (rstDreq p i f s).2.2.ports = s.ports ∧
    (rstDreq p i f s).2.2.rings = s.rings ∧
    (rstDreq p i f s).2.2.gn8s = s.gn8s ∧
    (rstDreq p i f s).2.2.heads = s.heads ∧
    (rstDreq p i f s).2.2.man = s.man ∧
    (rstDreq p i f s).2.2.engs = s.engs ∧
    (rstDreq p i f s).2.2.saf = s.saf ∧
    (rstDreq p i f s).2.2.ha = s.ha ∧
    (rstDreq p i f s).2.2.hb = s.hb ∧
    (rstDreq p i f s).2.2.pmc = s.pmc ∧
    (rstDreq p i f s).2.2.dev = s.dev ∧
    (rstDreq p i f s).2.2.img = s.img ∧
    (rstDreq p i f s).2.2.flt = s.flt ∧
    (rstDreq p i f s).2.2.pins = s.pins ∧
    (rstDreq p i f s).2.2.shown = s.shown ∧
    (rstDreq p i f s).2.2.pending = s.pending := by
  unfold rstDreq
  simp [dreqEffect_keeps]

theorem dconfEffect_keeps (n count : Nat) (s : State) :
    (dconfEffect n count s).bell = s.bell ∧
    (dconfEffect n count s).frame = s.frame ∧
    (dconfEffect n count s).ports = s.ports ∧
    (dconfEffect n count s).rings = s.rings ∧
    (dconfEffect n count s).gn8s = s.gn8s ∧
    (dconfEffect n count s).heads = s.heads ∧
    (dconfEffect n count s).engs = s.engs ∧
    (dconfEffect n count s).saf = s.saf ∧
    (dconfEffect n count s).ha = s.ha ∧
    (dconfEffect n count s).hb = s.hb ∧
    (dconfEffect n count s).pmc = s.pmc ∧
    (dconfEffect n count s).dev = s.dev ∧
    (dconfEffect n count s).img = s.img ∧
    (dconfEffect n count s).flt = s.flt ∧
    (dconfEffect n count s).pins = s.pins ∧
    (dconfEffect n count s).shown = s.shown ∧
    (dconfEffect n count s).free = s.free ∧
    (dconfEffect n count s).pending = s.pending := by
  exact ⟨rfl, rfl, rfl, rfl, rfl, rfl, rfl, rfl, rfl, rfl, rfl, rfl, rfl, rfl, rfl, rfl, rfl, rfl⟩

theorem rstDconf_keeps (f : MbFields) (s : State) :
    (rstDconf f s).2.2.bell = s.bell ∧
    (rstDconf f s).2.2.frame = s.frame ∧
    (rstDconf f s).2.2.ports = s.ports ∧
    (rstDconf f s).2.2.rings = s.rings ∧
    (rstDconf f s).2.2.gn8s = s.gn8s ∧
    (rstDconf f s).2.2.heads = s.heads ∧
    (rstDconf f s).2.2.engs = s.engs ∧
    (rstDconf f s).2.2.saf = s.saf ∧
    (rstDconf f s).2.2.ha = s.ha ∧
    (rstDconf f s).2.2.hb = s.hb ∧
    (rstDconf f s).2.2.pmc = s.pmc ∧
    (rstDconf f s).2.2.dev = s.dev ∧
    (rstDconf f s).2.2.img = s.img ∧
    (rstDconf f s).2.2.flt = s.flt ∧
    (rstDconf f s).2.2.pins = s.pins ∧
    (rstDconf f s).2.2.shown = s.shown ∧
    (rstDconf f s).2.2.free = s.free ∧
    (rstDconf f s).2.2.pending = s.pending := by
  unfold rstDconf
  dsimp only
  refine ⟨?_, ?_, ?_, ?_, ?_, ?_, ?_, ?_, ?_, ?_, ?_, ?_, ?_, ?_, ?_, ?_, ?_, ?_⟩
  · exact checks_bell _ _ _ fun s => by (repeat' split) <;> simp [dconfEffect_keeps, dropReq_keeps, refuse_keeps,
    refuse]
  · exact checks_frame _ _ _ fun s => by (repeat' split) <;> simp [dconfEffect_keeps, dropReq_keeps, refuse_keeps,
    refuse]
  · exact checks_ports _ _ _ fun s => by (repeat' split) <;> simp [dconfEffect_keeps, dropReq_keeps, refuse_keeps,
    refuse]
  · exact checks_rings _ _ _ fun s => by (repeat' split) <;> simp [dconfEffect_keeps, dropReq_keeps, refuse_keeps,
    refuse]
  · exact checks_gn8s _ _ _ fun s => by (repeat' split) <;> simp [dconfEffect_keeps, dropReq_keeps, refuse_keeps,
    refuse]
  · exact checks_heads _ _ _ fun s => by (repeat' split) <;> simp [dconfEffect_keeps, dropReq_keeps, refuse_keeps,
    refuse]
  · exact checks_engs _ _ _ fun s => by (repeat' split) <;> simp [dconfEffect_keeps, dropReq_keeps, refuse_keeps,
    refuse]
  · exact checks_saf _ _ _ fun s => by (repeat' split) <;> simp [dconfEffect_keeps, dropReq_keeps, refuse_keeps,
    refuse]
  · exact checks_ha _ _ _ fun s => by (repeat' split) <;> simp [dconfEffect_keeps, dropReq_keeps, refuse_keeps,
    refuse]
  · exact checks_hb _ _ _ fun s => by (repeat' split) <;> simp [dconfEffect_keeps, dropReq_keeps, refuse_keeps,
    refuse]
  · exact checks_pmc _ _ _ fun s => by (repeat' split) <;> simp [dconfEffect_keeps, dropReq_keeps, refuse_keeps,
    refuse]
  · exact checks_dev _ _ _ fun s => by (repeat' split) <;> simp [dconfEffect_keeps, dropReq_keeps, refuse_keeps,
    refuse]
  · exact checks_img _ _ _ fun s => by (repeat' split) <;> simp [dconfEffect_keeps, dropReq_keeps, refuse_keeps,
    refuse]
  · exact checks_flt _ _ _ fun s => by (repeat' split) <;> simp [dconfEffect_keeps, dropReq_keeps, refuse_keeps,
    refuse]
  · exact checks_pins _ _ _ fun s => by (repeat' split) <;> simp [dconfEffect_keeps, dropReq_keeps, refuse_keeps,
    refuse]
  · exact checks_shown _ _ _ fun s => by (repeat' split) <;> simp [dconfEffect_keeps, dropReq_keeps, refuse_keeps,
    refuse]
  · exact checks_free _ _ _ fun s => by (repeat' split) <;> simp [dconfEffect_keeps, dropReq_keeps, refuse_keeps,
    refuse]
  · exact checks_pending _ _ _ fun s => by (repeat' split) <;> simp [dconfEffect_keeps, dropReq_keeps,
    refuse_keeps, refuse]

theorem modOrder_keeps (g : Nat) (f : GrpOrder → GrpOrder) (s : State) :
    (modOrder g f s).bell = s.bell ∧
    (modOrder g f s).frame = s.frame ∧
    (modOrder g f s).ports = s.ports ∧
    (modOrder g f s).rings = s.rings ∧
    (modOrder g f s).gn8s = s.gn8s ∧
    (modOrder g f s).heads = s.heads ∧
    (modOrder g f s).man = s.man ∧
    (modOrder g f s).engs = s.engs ∧
    (modOrder g f s).saf = s.saf ∧
    (modOrder g f s).ha = s.ha ∧
    (modOrder g f s).hb = s.hb ∧
    (modOrder g f s).pmc = s.pmc ∧
    (modOrder g f s).dev = s.dev ∧
    (modOrder g f s).img = s.img ∧
    (modOrder g f s).flt = s.flt ∧
    (modOrder g f s).pins = s.pins ∧
    (modOrder g f s).shown = s.shown ∧
    (modOrder g f s).free = s.free ∧
    (modOrder g f s).pending = s.pending := by
  exact ⟨rfl, rfl, rfl, rfl, rfl, rfl, rfl, rfl, rfl, rfl, rfl, rfl, rfl, rfl, rfl, rfl, rfl, rfl, rfl⟩

theorem sgEnable_keeps (f : MbFields) (s : State) :
    (sgEnable f s).2.2.bell = s.bell ∧
    (sgEnable f s).2.2.frame = s.frame ∧
    (sgEnable f s).2.2.ports = s.ports ∧
    (sgEnable f s).2.2.rings = s.rings ∧
    (sgEnable f s).2.2.gn8s = s.gn8s ∧
    (sgEnable f s).2.2.heads = s.heads ∧
    (sgEnable f s).2.2.man = s.man ∧
    (sgEnable f s).2.2.engs = s.engs ∧
    (sgEnable f s).2.2.saf = s.saf ∧
    (sgEnable f s).2.2.ha = s.ha ∧
    (sgEnable f s).2.2.hb = s.hb ∧
    (sgEnable f s).2.2.pmc = s.pmc ∧
    (sgEnable f s).2.2.dev = s.dev ∧
    (sgEnable f s).2.2.img = s.img ∧
    (sgEnable f s).2.2.flt = s.flt ∧
    (sgEnable f s).2.2.pins = s.pins ∧
    (sgEnable f s).2.2.shown = s.shown ∧
    (sgEnable f s).2.2.free = s.free ∧
    (sgEnable f s).2.2.pending = s.pending := by
  unfold sgEnable
  simp [modOrder_keeps]

theorem sgStop_keeps (f : MbFields) (s : State) :
    (sgStop f s).2.2.bell = s.bell ∧
    (sgStop f s).2.2.frame = s.frame ∧
    (sgStop f s).2.2.ports = s.ports ∧
    (sgStop f s).2.2.rings = s.rings ∧
    (sgStop f s).2.2.gn8s = s.gn8s ∧
    (sgStop f s).2.2.heads = s.heads ∧
    (sgStop f s).2.2.man = s.man ∧
    (sgStop f s).2.2.engs = s.engs ∧
    (sgStop f s).2.2.saf = s.saf ∧
    (sgStop f s).2.2.ha = s.ha ∧
    (sgStop f s).2.2.hb = s.hb ∧
    (sgStop f s).2.2.pmc = s.pmc ∧
    (sgStop f s).2.2.dev = s.dev ∧
    (sgStop f s).2.2.img = s.img ∧
    (sgStop f s).2.2.flt = s.flt ∧
    (sgStop f s).2.2.pins = s.pins ∧
    (sgStop f s).2.2.shown = s.shown ∧
    (sgStop f s).2.2.free = s.free ∧
    (sgStop f s).2.2.pending = s.pending := by
  unfold sgStop
  simp [modOrder_keeps]

theorem sgProfile_keeps (f : MbFields) (s : State) :
    (sgProfile f s).2.2.bell = s.bell ∧
    (sgProfile f s).2.2.frame = s.frame ∧
    (sgProfile f s).2.2.ports = s.ports ∧
    (sgProfile f s).2.2.rings = s.rings ∧
    (sgProfile f s).2.2.gn8s = s.gn8s ∧
    (sgProfile f s).2.2.heads = s.heads ∧
    (sgProfile f s).2.2.man = s.man ∧
    (sgProfile f s).2.2.engs = s.engs ∧
    (sgProfile f s).2.2.saf = s.saf ∧
    (sgProfile f s).2.2.ha = s.ha ∧
    (sgProfile f s).2.2.hb = s.hb ∧
    (sgProfile f s).2.2.pmc = s.pmc ∧
    (sgProfile f s).2.2.dev = s.dev ∧
    (sgProfile f s).2.2.img = s.img ∧
    (sgProfile f s).2.2.flt = s.flt ∧
    (sgProfile f s).2.2.pins = s.pins ∧
    (sgProfile f s).2.2.shown = s.shown ∧
    (sgProfile f s).2.2.free = s.free ∧
    (sgProfile f s).2.2.pending = s.pending := by
  unfold sgProfile
  simp [modOrder_keeps]

theorem sgReset_keeps (f : MbFields) (s : State) :
    (sgReset f s).2.2.bell = s.bell ∧
    (sgReset f s).2.2.frame = s.frame ∧
    (sgReset f s).2.2.ports = s.ports ∧
    (sgReset f s).2.2.rings = s.rings ∧
    (sgReset f s).2.2.gn8s = s.gn8s ∧
    (sgReset f s).2.2.heads = s.heads ∧
    (sgReset f s).2.2.man = s.man ∧
    (sgReset f s).2.2.engs = s.engs ∧
    (sgReset f s).2.2.saf = s.saf ∧
    (sgReset f s).2.2.ha = s.ha ∧
    (sgReset f s).2.2.hb = s.hb ∧
    (sgReset f s).2.2.pmc = s.pmc ∧
    (sgReset f s).2.2.dev = s.dev ∧
    (sgReset f s).2.2.img = s.img ∧
    (sgReset f s).2.2.flt = s.flt ∧
    (sgReset f s).2.2.pins = s.pins ∧
    (sgReset f s).2.2.shown = s.shown ∧
    (sgReset f s).2.2.free = s.free ∧
    (sgReset f s).2.2.pending = s.pending := by
  unfold sgReset
  simp [modOrder_keeps]

theorem refuseMode_keeps (req bits : Nat) (s : State) :
    (refuseMode req bits s).2.2.bell = s.bell ∧
    (refuseMode req bits s).2.2.frame = s.frame ∧
    (refuseMode req bits s).2.2.ports = s.ports ∧
    (refuseMode req bits s).2.2.rings = s.rings ∧
    (refuseMode req bits s).2.2.gn8s = s.gn8s ∧
    (refuseMode req bits s).2.2.heads = s.heads ∧
    (refuseMode req bits s).2.2.man = s.man ∧
    (refuseMode req bits s).2.2.engs = s.engs ∧
    (refuseMode req bits s).2.2.sup = s.sup ∧
    (refuseMode req bits s).2.2.saf = s.saf ∧
    (refuseMode req bits s).2.2.ha = s.ha ∧
    (refuseMode req bits s).2.2.hb = s.hb ∧
    (refuseMode req bits s).2.2.pmc = s.pmc ∧
    (refuseMode req bits s).2.2.img = s.img ∧
    (refuseMode req bits s).2.2.flt = s.flt ∧
    (refuseMode req bits s).2.2.pins = s.pins ∧
    (refuseMode req bits s).2.2.shown = s.shown ∧
    (refuseMode req bits s).2.2.free = s.free ∧
    (refuseMode req bits s).2.2.pending = s.pending := by
  exact ⟨rfl, rfl, rfl, rfl, rfl, rfl, rfl, rfl, rfl, rfl, rfl, rfl, rfl, rfl, rfl, rfl, rfl, rfl, rfl⟩

theorem leaveForces_keeps (s : State) :
    (leaveForces s).bell = s.bell ∧
    (leaveForces s).frame = s.frame ∧
    (leaveForces s).ports = s.ports ∧
    (leaveForces s).rings = s.rings ∧
    (leaveForces s).gn8s = s.gn8s ∧
    (leaveForces s).heads = s.heads ∧
    (leaveForces s).man = s.man ∧
    (leaveForces s).engs = s.engs ∧
    (leaveForces s).saf = s.saf ∧
    (leaveForces s).ha = s.ha ∧
    (leaveForces s).hb = s.hb ∧
    (leaveForces s).pmc = s.pmc ∧
    (leaveForces s).dev = s.dev ∧
    (leaveForces s).img = s.img ∧
    (leaveForces s).flt = s.flt ∧
    (leaveForces s).pins = s.pins ∧
    (leaveForces s).shown = s.shown ∧
    (leaveForces s).free = s.free ∧
    (leaveForces s).pending = s.pending := by
  unfold leaveForces
  simp []

theorem modeEffect_keeps (target : Mode) (s : State) :
    (modeEffect target s).pins = s.pins ∧
    (modeEffect target s).free = s.free ∧
    (modeEffect target s).pending = s.pending := by
  unfold modeEffect
  (repeat' split) <;> simp [setMode_keeps, enterLockout_keeps, leaveForces_keeps, returnToBoot_keeps]

theorem modeReq_keeps (target : Mode) (f : MbFields) (s : State) :
    (modeReq target f s).2.2.pins = s.pins ∧
    (modeReq target f s).2.2.free = s.free ∧
    (modeReq target f s).2.2.pending = s.pending := by
  unfold modeReq
  simp [modeEffect_keeps, refuseMode_keeps]

theorem modeReqOther_keeps (f : MbFields) (s : State) :
    (modeReqOther f s).2.2.bell = s.bell ∧
    (modeReqOther f s).2.2.frame = s.frame ∧
    (modeReqOther f s).2.2.ports = s.ports ∧
    (modeReqOther f s).2.2.rings = s.rings ∧
    (modeReqOther f s).2.2.gn8s = s.gn8s ∧
    (modeReqOther f s).2.2.heads = s.heads ∧
    (modeReqOther f s).2.2.man = s.man ∧
    (modeReqOther f s).2.2.engs = s.engs ∧
    (modeReqOther f s).2.2.saf = s.saf ∧
    (modeReqOther f s).2.2.ha = s.ha ∧
    (modeReqOther f s).2.2.hb = s.hb ∧
    (modeReqOther f s).2.2.pmc = s.pmc ∧
    (modeReqOther f s).2.2.img = s.img ∧
    (modeReqOther f s).2.2.flt = s.flt ∧
    (modeReqOther f s).2.2.pins = s.pins ∧
    (modeReqOther f s).2.2.shown = s.shown ∧
    (modeReqOther f s).2.2.free = s.free ∧
    (modeReqOther f s).2.2.pending = s.pending := by
  unfold modeReqOther
  simp [refuseMode_keeps]

theorem devReset_keeps (f : MbFields) (s : State) :
    (devReset f s).2.2.bell = s.bell ∧
    (devReset f s).2.2.frame = s.frame ∧
    (devReset f s).2.2.ports = s.ports ∧
    (devReset f s).2.2.rings = s.rings ∧
    (devReset f s).2.2.gn8s = s.gn8s ∧
    (devReset f s).2.2.heads = s.heads ∧
    (devReset f s).2.2.man = s.man ∧
    (devReset f s).2.2.engs = s.engs ∧
    (devReset f s).2.2.saf = s.saf ∧
    (devReset f s).2.2.ha = s.ha ∧
    (devReset f s).2.2.hb = s.hb ∧
    (devReset f s).2.2.pmc = s.pmc ∧
    (devReset f s).2.2.img = s.img ∧
    (devReset f s).2.2.flt = s.flt ∧
    (devReset f s).2.2.pins = s.pins ∧
    (devReset f s).2.2.shown = s.shown ∧
    (devReset f s).2.2.free = s.free ∧
    (devReset f s).2.2.pending = s.pending := by
  unfold devReset
  simp [refuseMode_keeps]

theorem paramRefuse_keeps (code bit : Nat) (s : State) :
    (paramRefuse code bit s).2.2.bell = s.bell ∧
    (paramRefuse code bit s).2.2.frame = s.frame ∧
    (paramRefuse code bit s).2.2.ports = s.ports ∧
    (paramRefuse code bit s).2.2.rings = s.rings ∧
    (paramRefuse code bit s).2.2.gn8s = s.gn8s ∧
    (paramRefuse code bit s).2.2.heads = s.heads ∧
    (paramRefuse code bit s).2.2.man = s.man ∧
    (paramRefuse code bit s).2.2.engs = s.engs ∧
    (paramRefuse code bit s).2.2.sup = s.sup ∧
    (paramRefuse code bit s).2.2.saf = s.saf ∧
    (paramRefuse code bit s).2.2.pmc = s.pmc ∧
    (paramRefuse code bit s).2.2.dev = s.dev ∧
    (paramRefuse code bit s).2.2.img = s.img ∧
    (paramRefuse code bit s).2.2.pins = s.pins ∧
    (paramRefuse code bit s).2.2.shown = s.shown ∧
    (paramRefuse code bit s).2.2.free = s.free ∧
    (paramRefuse code bit s).2.2.pending = s.pending := by
  unfold paramRefuse
  simp [sticky_keeps, refuse_keeps]

theorem paramSet_keeps (f : MbFields) (s : State) :
    (paramSet f s).2.2.bell = s.bell ∧
    (paramSet f s).2.2.frame = s.frame ∧
    (paramSet f s).2.2.ports = s.ports ∧
    (paramSet f s).2.2.rings = s.rings ∧
    (paramSet f s).2.2.gn8s = s.gn8s ∧
    (paramSet f s).2.2.heads = s.heads ∧
    (paramSet f s).2.2.man = s.man ∧
    (paramSet f s).2.2.engs = s.engs ∧
    (paramSet f s).2.2.saf = s.saf ∧
    (paramSet f s).2.2.pmc = s.pmc ∧
    (paramSet f s).2.2.dev = s.dev ∧
    (paramSet f s).2.2.img = s.img ∧
    (paramSet f s).2.2.pins = s.pins ∧
    (paramSet f s).2.2.shown = s.shown ∧
    (paramSet f s).2.2.free = s.free ∧
    (paramSet f s).2.2.pending = s.pending := by
  unfold paramSet
  dsimp only
  refine ⟨?_, ?_, ?_, ?_, ?_, ?_, ?_, ?_, ?_, ?_, ?_, ?_, ?_, ?_, ?_, ?_⟩
  · exact checks_bell _ _ _ fun s => by (repeat' split) <;> simp [paramRefuse_keeps, refuse]
  · exact checks_frame _ _ _ fun s => by (repeat' split) <;> simp [paramRefuse_keeps, refuse]
  · exact checks_ports _ _ _ fun s => by (repeat' split) <;> simp [paramRefuse_keeps, refuse]
  · exact checks_rings _ _ _ fun s => by (repeat' split) <;> simp [paramRefuse_keeps, refuse]
  · exact checks_gn8s _ _ _ fun s => by (repeat' split) <;> simp [paramRefuse_keeps, refuse]
  · exact checks_heads _ _ _ fun s => by (repeat' split) <;> simp [paramRefuse_keeps, refuse]
  · exact checks_man _ _ _ fun s => by (repeat' split) <;> simp [paramRefuse_keeps, refuse]
  · exact checks_engs _ _ _ fun s => by (repeat' split) <;> simp [paramRefuse_keeps, refuse]
  · exact checks_saf _ _ _ fun s => by (repeat' split) <;> simp [paramRefuse_keeps, refuse]
  · exact checks_pmc _ _ _ fun s => by (repeat' split) <;> simp [paramRefuse_keeps, refuse]
  · exact checks_dev _ _ _ fun s => by (repeat' split) <;> simp [paramRefuse_keeps, refuse]
  · exact checks_img _ _ _ fun s => by (repeat' split) <;> simp [paramRefuse_keeps, refuse]
  · exact checks_pins _ _ _ fun s => by (repeat' split) <;> simp [paramRefuse_keeps, refuse]
  · exact checks_shown _ _ _ fun s => by (repeat' split) <;> simp [paramRefuse_keeps, refuse]
  · exact checks_free _ _ _ fun s => by (repeat' split) <;> simp [paramRefuse_keeps, refuse]
  · exact checks_pending _ _ _ fun s => by (repeat' split) <;> simp [paramRefuse_keeps, refuse]

theorem forceSet_keeps (f : MbFields) (s : State) :
    (forceSet f s).2.2.bell = s.bell ∧
    (forceSet f s).2.2.frame = s.frame ∧
    (forceSet f s).2.2.ports = s.ports ∧
    (forceSet f s).2.2.rings = s.rings ∧
    (forceSet f s).2.2.gn8s = s.gn8s ∧
    (forceSet f s).2.2.heads = s.heads ∧
    (forceSet f s).2.2.man = s.man ∧
    (forceSet f s).2.2.engs = s.engs ∧
    (forceSet f s).2.2.saf = s.saf ∧
    (forceSet f s).2.2.ha = s.ha ∧
    (forceSet f s).2.2.hb = s.hb ∧
    (forceSet f s).2.2.pmc = s.pmc ∧
    (forceSet f s).2.2.dev = s.dev ∧
    (forceSet f s).2.2.img = s.img ∧
    (forceSet f s).2.2.flt = s.flt ∧
    (forceSet f s).2.2.pins = s.pins ∧
    (forceSet f s).2.2.shown = s.shown ∧
    (forceSet f s).2.2.free = s.free ∧
    (forceSet f s).2.2.pending = s.pending := by
  unfold forceSet
  simp []

theorem forceClr_keeps (f : MbFields) (s : State) :
    (forceClr f s).2.2.bell = s.bell ∧
    (forceClr f s).2.2.frame = s.frame ∧
    (forceClr f s).2.2.ports = s.ports ∧
    (forceClr f s).2.2.rings = s.rings ∧
    (forceClr f s).2.2.gn8s = s.gn8s ∧
    (forceClr f s).2.2.heads = s.heads ∧
    (forceClr f s).2.2.man = s.man ∧
    (forceClr f s).2.2.engs = s.engs ∧
    (forceClr f s).2.2.saf = s.saf ∧
    (forceClr f s).2.2.ha = s.ha ∧
    (forceClr f s).2.2.hb = s.hb ∧
    (forceClr f s).2.2.pmc = s.pmc ∧
    (forceClr f s).2.2.dev = s.dev ∧
    (forceClr f s).2.2.img = s.img ∧
    (forceClr f s).2.2.flt = s.flt ∧
    (forceClr f s).2.2.pins = s.pins ∧
    (forceClr f s).2.2.shown = s.shown ∧
    (forceClr f s).2.2.free = s.free ∧
    (forceClr f s).2.2.pending = s.pending := by
  unfold forceClr
  simp []

theorem forceClrAll_keeps (f : MbFields) (s : State) :
    (forceClrAll f s).2.2.bell = s.bell ∧
    (forceClrAll f s).2.2.frame = s.frame ∧
    (forceClrAll f s).2.2.ports = s.ports ∧
    (forceClrAll f s).2.2.rings = s.rings ∧
    (forceClrAll f s).2.2.gn8s = s.gn8s ∧
    (forceClrAll f s).2.2.heads = s.heads ∧
    (forceClrAll f s).2.2.man = s.man ∧
    (forceClrAll f s).2.2.engs = s.engs ∧
    (forceClrAll f s).2.2.saf = s.saf ∧
    (forceClrAll f s).2.2.ha = s.ha ∧
    (forceClrAll f s).2.2.hb = s.hb ∧
    (forceClrAll f s).2.2.pmc = s.pmc ∧
    (forceClrAll f s).2.2.dev = s.dev ∧
    (forceClrAll f s).2.2.img = s.img ∧
    (forceClrAll f s).2.2.flt = s.flt ∧
    (forceClrAll f s).2.2.pins = s.pins ∧
    (forceClrAll f s).2.2.shown = s.shown ∧
    (forceClrAll f s).2.2.free = s.free ∧
    (forceClrAll f s).2.2.pending = s.pending := by
  unfold forceClrAll
  simp []

theorem headWd_keeps (f : MbFields) (s : State) :
    (headWd f s).2.2.bell = s.bell ∧
    (headWd f s).2.2.frame = s.frame ∧
    (headWd f s).2.2.ports = s.ports ∧
    (headWd f s).2.2.rings = s.rings ∧
    (headWd f s).2.2.gn8s = s.gn8s ∧
    (headWd f s).2.2.heads = s.heads ∧
    (headWd f s).2.2.man = s.man ∧
    (headWd f s).2.2.engs = s.engs ∧
    (headWd f s).2.2.saf = s.saf ∧
    (headWd f s).2.2.ha = s.ha ∧
    (headWd f s).2.2.hb = s.hb ∧
    (headWd f s).2.2.pmc = s.pmc ∧
    (headWd f s).2.2.dev = s.dev ∧
    (headWd f s).2.2.img = s.img ∧
    (headWd f s).2.2.flt = s.flt ∧
    (headWd f s).2.2.pins = s.pins ∧
    (headWd f s).2.2.shown = s.shown ∧
    (headWd f s).2.2.free = s.free ∧
    (headWd f s).2.2.pending = s.pending := by
  unfold headWd
  dsimp only
  refine ⟨?_, ?_, ?_, ?_, ?_, ?_, ?_, ?_, ?_, ?_, ?_, ?_, ?_, ?_, ?_, ?_, ?_, ?_, ?_⟩
  · exact checks_bell _ _ _ fun s => by (repeat' split) <;> simp [orderHandover_keeps, refuse_keeps, refuse]
  · exact checks_frame _ _ _ fun s => by (repeat' split) <;> simp [orderHandover_keeps, refuse_keeps, refuse]
  · exact checks_ports _ _ _ fun s => by (repeat' split) <;> simp [orderHandover_keeps, refuse_keeps, refuse]
  · exact checks_rings _ _ _ fun s => by (repeat' split) <;> simp [orderHandover_keeps, refuse_keeps, refuse]
  · exact checks_gn8s _ _ _ fun s => by (repeat' split) <;> simp [orderHandover_keeps, refuse_keeps, refuse]
  · exact checks_heads _ _ _ fun s => by (repeat' split) <;> simp [orderHandover_keeps, refuse_keeps, refuse]
  · exact checks_man _ _ _ fun s => by (repeat' split) <;> simp [orderHandover_keeps, refuse_keeps, refuse]
  · exact checks_engs _ _ _ fun s => by (repeat' split) <;> simp [orderHandover_keeps, refuse_keeps, refuse]
  · exact checks_saf _ _ _ fun s => by (repeat' split) <;> simp [orderHandover_keeps, refuse_keeps, refuse]
  · exact checks_ha _ _ _ fun s => by (repeat' split) <;> simp [orderHandover_keeps, refuse_keeps, refuse]
  · exact checks_hb _ _ _ fun s => by (repeat' split) <;> simp [orderHandover_keeps, refuse_keeps, refuse]
  · exact checks_pmc _ _ _ fun s => by (repeat' split) <;> simp [orderHandover_keeps, refuse_keeps, refuse]
  · exact checks_dev _ _ _ fun s => by (repeat' split) <;> simp [orderHandover_keeps, refuse_keeps, refuse]
  · exact checks_img _ _ _ fun s => by (repeat' split) <;> simp [orderHandover_keeps, refuse_keeps, refuse]
  · exact checks_flt _ _ _ fun s => by (repeat' split) <;> simp [orderHandover_keeps, refuse_keeps, refuse]
  · exact checks_pins _ _ _ fun s => by (repeat' split) <;> simp [orderHandover_keeps, refuse_keeps, refuse]
  · exact checks_shown _ _ _ fun s => by (repeat' split) <;> simp [orderHandover_keeps, refuse_keeps, refuse]
  · exact checks_free _ _ _ fun s => by (repeat' split) <;> simp [orderHandover_keeps, refuse_keeps, refuse]
  · exact checks_pending _ _ _ fun s => by (repeat' split) <;> simp [orderHandover_keeps, refuse_keeps, refuse]

theorem swapLead_keeps (q : HostId) (s : State) :
    (swapLead q s).bell = s.bell ∧
    (swapLead q s).frame = s.frame ∧
    (swapLead q s).ports = s.ports ∧
    (swapLead q s).rings = s.rings ∧
    (swapLead q s).gn8s = s.gn8s ∧
    (swapLead q s).heads = s.heads ∧
    (swapLead q s).man = s.man ∧
    (swapLead q s).engs = s.engs ∧
    (swapLead q s).sup = s.sup ∧
    (swapLead q s).saf = s.saf ∧
    (swapLead q s).pmc = s.pmc ∧
    (swapLead q s).img = s.img ∧
    (swapLead q s).pins = s.pins ∧
    (swapLead q s).shown = s.shown ∧
    (swapLead q s).free = s.free ∧
    (swapLead q s).pending = s.pending := by
  unfold swapLead
  simp [raiseBoth_keeps, modHost_keeps]

theorem leadTake_keeps (p : HostId) (s : State) :
    (leadTake p s).2.2.bell = s.bell ∧
    (leadTake p s).2.2.frame = s.frame ∧
    (leadTake p s).2.2.ports = s.ports ∧
    (leadTake p s).2.2.rings = s.rings ∧
    (leadTake p s).2.2.gn8s = s.gn8s ∧
    (leadTake p s).2.2.heads = s.heads ∧
    (leadTake p s).2.2.man = s.man ∧
    (leadTake p s).2.2.engs = s.engs ∧
    (leadTake p s).2.2.sup = s.sup ∧
    (leadTake p s).2.2.saf = s.saf ∧
    (leadTake p s).2.2.pmc = s.pmc ∧
    (leadTake p s).2.2.img = s.img ∧
    (leadTake p s).2.2.pins = s.pins ∧
    (leadTake p s).2.2.shown = s.shown ∧
    (leadTake p s).2.2.free = s.free ∧
    (leadTake p s).2.2.pending = s.pending := by
  unfold leadTake
  simp [swapLead_keeps]

theorem leadYield_keeps (p : HostId) (s : State) :
    (leadYield p s).2.2.bell = s.bell ∧
    (leadYield p s).2.2.frame = s.frame ∧
    (leadYield p s).2.2.ports = s.ports ∧
    (leadYield p s).2.2.rings = s.rings ∧
    (leadYield p s).2.2.gn8s = s.gn8s ∧
    (leadYield p s).2.2.heads = s.heads ∧
    (leadYield p s).2.2.man = s.man ∧
    (leadYield p s).2.2.engs = s.engs ∧
    (leadYield p s).2.2.sup = s.sup ∧
    (leadYield p s).2.2.saf = s.saf ∧
    (leadYield p s).2.2.pmc = s.pmc ∧
    (leadYield p s).2.2.img = s.img ∧
    (leadYield p s).2.2.pins = s.pins ∧
    (leadYield p s).2.2.shown = s.shown ∧
    (leadYield p s).2.2.free = s.free ∧
    (leadYield p s).2.2.pending = s.pending := by
  unfold leadYield
  simp [swapLead_keeps]

theorem noteParam_keeps (op : Nat) (f : MbFields) (s : State) :
    (noteParam op f s).bell = s.bell ∧
    (noteParam op f s).frame = s.frame ∧
    (noteParam op f s).ports = s.ports ∧
    (noteParam op f s).rings = s.rings ∧
    (noteParam op f s).gn8s = s.gn8s ∧
    (noteParam op f s).heads = s.heads ∧
    (noteParam op f s).man = s.man ∧
    (noteParam op f s).engs = s.engs ∧
    (noteParam op f s).saf = s.saf ∧
    (noteParam op f s).ha = s.ha ∧
    (noteParam op f s).hb = s.hb ∧
    (noteParam op f s).pmc = s.pmc ∧
    (noteParam op f s).dev = s.dev ∧
    (noteParam op f s).img = s.img ∧
    (noteParam op f s).flt = s.flt ∧
    (noteParam op f s).pins = s.pins ∧
    (noteParam op f s).shown = s.shown ∧
    (noteParam op f s).free = s.free ∧
    (noteParam op f s).pending = s.pending := by
  unfold noteParam
  simp

theorem runOp_keeps (p : HostId) (i : Nat) (op : Nat) (f : MbFields) (cpFail keyen : Bool) (s : State) :
    (runOp p i op f cpFail keyen s).2.2.pins = s.pins ∧
    (runOp p i op f cpFail keyen s).2.2.pending = s.pending := by
  unfold runOp
  (repeat' split) <;> simp [leadYield_keeps, leadTake_keeps, headWd_keeps, forceClr_keeps, forceClrAll_keeps,
    forceSet_keeps, paramSet_keeps, modeReqOther_keeps, modeReq_keeps, devReset_keeps, sgReset_keeps,
    sgProfile_keeps, sgStop_keeps, sgEnable_keeps, noteParam_keeps, rstDconf_keeps, rstDreq_keeps, refuse_keeps,
    rstSweep_keeps]

theorem applyEntry_keeps (p : HostId) (i : Nat) (op : Byte) (f : MbFields) (cpFail keyen : Bool) (s : State) :
    (applyEntry p i op f cpFail keyen s).pins = s.pins ∧
    (applyEntry p i op f cpFail keyen s).pending = s.pending := by
  unfold applyEntry
  first
    | (simp [runOp_keeps, refuse_keeps]; done)
    | ((repeat' split) <;> simp [runOp_keeps, refuse_keeps]; done)
    | (dsimp only; (repeat' split) <;> simp [runOp_keeps, refuse_keeps]; done)
    | (simp [runOp_keeps, refuse_keeps]; (repeat' split) <;> simp [runOp_keeps, refuse_keeps]; done)

theorem takeEntry_keeps (p : HostId) (i : Nat) (op : Byte) (f : MbFields) (s : State) :
    (takeEntry p i op f s).pins = s.pins ∧
    (takeEntry p i op f s).pending = s.pending := by
  unfold takeEntry
  simp [sticky_keeps, applyEntry_keeps]

theorem execNop_keeps (p : HostId) (i : Fin 127) (f : MbFields) (s : State) (u : State)
  (h : execNop p i f s = .next u) :
    u.pins = s.pins ∧
    u.pending = s.pending := by
  injection h with h
  subst h
  simp [takeEntry_keeps]

theorem execRstSweep_keeps (p : HostId) (i : Fin 127) (f : MbFields) (s : State) (u : State)
  (h : execRstSweep p i f s = .next u) :
    u.pins = s.pins ∧
    u.pending = s.pending := by
  injection h with h
  subst h
  simp [takeEntry_keeps]

theorem execRstDreq_keeps (p : HostId) (i : Fin 127) (f : MbFields) (s : State) (u : State)
  (h : execRstDreq p i f s = .next u) :
    u.pins = s.pins ∧
    u.pending = s.pending := by
  injection h with h
  subst h
  simp [takeEntry_keeps]

theorem execRstDconf_keeps (p : HostId) (i : Fin 127) (f : MbFields) (s : State) (u : State)
  (h : execRstDconf p i f s = .next u) :
    u.pins = s.pins ∧
    u.pending = s.pending := by
  injection h with h
  subst h
  simp [takeEntry_keeps]

theorem execSgEnable_keeps (p : HostId) (i : Fin 127) (f : MbFields) (s : State) (u : State)
  (h : execSgEnable p i f s = .next u) :
    u.pins = s.pins ∧
    u.pending = s.pending := by
  injection h with h
  subst h
  simp [takeEntry_keeps]

theorem execSgStop_keeps (p : HostId) (i : Fin 127) (f : MbFields) (s : State) (u : State)
  (h : execSgStop p i f s = .next u) :
    u.pins = s.pins ∧
    u.pending = s.pending := by
  injection h with h
  subst h
  simp [takeEntry_keeps]

theorem execSgProfile_keeps (p : HostId) (i : Fin 127) (f : MbFields) (s : State) (u : State)
  (h : execSgProfile p i f s = .next u) :
    u.pins = s.pins ∧
    u.pending = s.pending := by
  injection h with h
  subst h
  simp [takeEntry_keeps]

theorem execSgReset_keeps (p : HostId) (i : Fin 127) (f : MbFields) (s : State) (u : State)
  (h : execSgReset p i f s = .next u) :
    u.pins = s.pins ∧
    u.pending = s.pending := by
  injection h with h
  subst h
  simp [takeEntry_keeps]

theorem execDevReset_keeps (p : HostId) (i : Fin 127) (f : MbFields) (s : State) (u : State)
  (h : execDevReset p i f s = .next u) :
    u.pins = s.pins ∧
    u.pending = s.pending := by
  injection h with h
  subst h
  simp [takeEntry_keeps]

theorem modeRow_keeps (p : HostId) (i : Nat) (f : MbFields) (ok : Nat → Bool) (s : State) :
    (modeRow p i f ok s).pins = s.pins ∧
    (modeRow p i f ok s).pending = s.pending := by
  unfold modeRow
  first
    | (simp [takeEntry_keeps]; done)
    | ((repeat' split) <;> simp [takeEntry_keeps]; done)
    | (dsimp only; (repeat' split) <;> simp [takeEntry_keeps]; done)
    | (simp [takeEntry_keeps]; (repeat' split) <;> simp [takeEntry_keeps]; done)

theorem execModeReqCommission_keeps (p : HostId) (i : Fin 127) (f : MbFields) (s : State) (u : State)
  (h : execModeReqCommission p i f s = .next u) :
    u.pins = s.pins ∧
    u.pending = s.pending := by
  injection h with h
  subst h
  simp [modeRow_keeps]

theorem execModeReqRun_keeps (p : HostId) (i : Fin 127) (f : MbFields) (s : State) (u : State)
  (h : execModeReqRun p i f s = .next u) :
    u.pins = s.pins ∧
    u.pending = s.pending := by
  injection h with h
  subst h
  simp [modeRow_keeps]

theorem execModeReqHarbour_keeps (p : HostId) (i : Fin 127) (f : MbFields) (s : State) (u : State)
  (h : execModeReqHarbour p i f s = .next u) :
    u.pins = s.pins ∧
    u.pending = s.pending := by
  injection h with h
  subst h
  simp [modeRow_keeps]

theorem execModeReqLockout_keeps (p : HostId) (i : Fin 127) (f : MbFields) (s : State) (u : State)
  (h : execModeReqLockout p i f s = .next u) :
    u.pins = s.pins ∧
    u.pending = s.pending := by
  injection h with h
  subst h
  simp [modeRow_keeps]

theorem execModeReqBoot_keeps (p : HostId) (i : Fin 127) (f : MbFields) (s : State) (u : State)
  (h : execModeReqBoot p i f s = .next u) :
    u.pins = s.pins ∧
    u.pending = s.pending := by
  injection h with h
  subst h
  simp [modeRow_keeps]

theorem execModeReqOtherTarget_keeps (p : HostId) (i : Fin 127) (f : MbFields) (s : State) (u : State)
  (h : execModeReqOtherTarget p i f s = .next u) :
    u.pins = s.pins ∧
    u.pending = s.pending := by
  injection h with h
  subst h
  simp [modeRow_keeps]

theorem execParamSet_keeps (p : HostId) (i : Fin 127) (f : MbFields) (s : State) (u : State)
  (h : execParamSet p i f s = .next u) :
    u.pins = s.pins ∧
    u.pending = s.pending := by
  injection h with h
  subst h
  simp [takeEntry_keeps]

theorem execForceSet_keeps (p : HostId) (i : Fin 127) (f : MbFields) (s : State) (u : State)
  (h : execForceSet p i f s = .next u) :
    u.pins = s.pins ∧
    u.pending = s.pending := by
  injection h with h
  subst h
  simp [takeEntry_keeps]

theorem execForceClr_keeps (p : HostId) (i : Fin 127) (f : MbFields) (s : State) (u : State)
  (h : execForceClr p i f s = .next u) :
    u.pins = s.pins ∧
    u.pending = s.pending := by
  injection h with h
  subst h
  simp [takeEntry_keeps]

theorem execForceClrAll_keeps (p : HostId) (i : Fin 127) (f : MbFields) (s : State) (u : State)
  (h : execForceClrAll p i f s = .next u) :
    u.pins = s.pins ∧
    u.pending = s.pending := by
  injection h with h
  subst h
  simp [takeEntry_keeps]

theorem execHeadWd_keeps (p : HostId) (i : Fin 127) (f : MbFields) (s : State) (u : State)
  (h : execHeadWd p i f s = .next u) :
    u.pins = s.pins ∧
    u.pending = s.pending := by
  injection h with h
  subst h
  simp [takeEntry_keeps]

theorem execLeadTake_keeps (p : HostId) (i : Fin 127) (f : MbFields) (s : State) (u : State)
  (h : execLeadTake p i f s = .next u) :
    u.pins = s.pins ∧
    u.pending = s.pending := by
  injection h with h
  subst h
  simp [takeEntry_keeps]

theorem execLeadYield_keeps (p : HostId) (i : Fin 127) (f : MbFields) (s : State) (u : State)
  (h : execLeadYield p i f s = .next u) :
    u.pins = s.pins ∧
    u.pending = s.pending := by
  injection h with h
  subst h
  simp [takeEntry_keeps]

theorem execUnlistedOp_keeps (p : HostId) (i : Fin 127) (op : Byte) (f : MbFields) (s : State) (u : State)
  (h : execUnlistedOp p i op f s = .next u) :
    u.pins = s.pins ∧
    u.pending = s.pending := by
  injection h with h
  subst h
  simp [takeEntry_keeps]

theorem execDreqExpiry_keeps (n : SecIx) (s : State) (u : State) (h : execDreqExpiry n s = .next u) :
    u.bell = s.bell ∧
    u.frame = s.frame ∧
    u.ports = s.ports ∧
    u.rings = s.rings ∧
    u.gn8s = s.gn8s ∧
    u.heads = s.heads ∧
    u.man = s.man ∧
    u.engs = s.engs ∧
    u.saf = s.saf ∧
    u.ha = s.ha ∧
    u.hb = s.hb ∧
    u.pmc = s.pmc ∧
    u.dev = s.dev ∧
    u.img = s.img ∧
    u.flt = s.flt ∧
    u.pins = s.pins ∧
    u.shown = s.shown ∧
    u.free = s.free ∧
    u.pending = s.pending := by
  unfold execDreqExpiry at h
  (repeat' split at h) <;> (injection h with h; subst h; simp [dropReq_keeps])

end Sys2Proof.Machine
end

