-- ==== Sys2Proof/Laws/FrameSafio.lean ====
section
/-! SUPPORT. What each operation of Safio.lean (stop groups) leaves unchanged. -/

namespace Sys2Proof.Machine

theorem stopGroup_keeps (g : Nat) (s : State) :
    (stopGroup g s).bell = s.bell ∧
    (stopGroup g s).frame = s.frame ∧
    (stopGroup g s).ports = s.ports ∧
    (stopGroup g s).rings = s.rings ∧
    (stopGroup g s).gn8s = s.gn8s ∧
    (stopGroup g s).heads = s.heads ∧
    (stopGroup g s).man = s.man ∧
    (stopGroup g s).engs = s.engs ∧
    (stopGroup g s).sup = s.sup ∧
    (stopGroup g s).pmc = s.pmc ∧
    (stopGroup g s).dev = s.dev ∧
    (stopGroup g s).img = s.img ∧
    (stopGroup g s).pins = s.pins ∧
    (stopGroup g s).shown = s.shown ∧
    (stopGroup g s).free = s.free ∧
    (stopGroup g s).pending = s.pending := by
  unfold stopGroup
  (repeat' split) <;> simp [lockGroup_keeps, modGrp_keeps]

theorem feedbackStep_keeps (g : Nat) (s : State) :
    (feedbackStep g s).bell = s.bell ∧
    (feedbackStep g s).frame = s.frame ∧
    (feedbackStep g s).ports = s.ports ∧
    (feedbackStep g s).rings = s.rings ∧
    (feedbackStep g s).gn8s = s.gn8s ∧
    (feedbackStep g s).heads = s.heads ∧
    (feedbackStep g s).man = s.man ∧
    (feedbackStep g s).engs = s.engs ∧
    (feedbackStep g s).sup = s.sup ∧
    (feedbackStep g s).pmc = s.pmc ∧
    (feedbackStep g s).dev = s.dev ∧
    (feedbackStep g s).img = s.img ∧
    (feedbackStep g s).pins = s.pins ∧
    (feedbackStep g s).shown = s.shown ∧
    (feedbackStep g s).free = s.free ∧
    (feedbackStep g s).pending = s.pending := by
  unfold feedbackStep
  dsimp only
  (repeat' split) <;> simp [lockGroup_keeps, modGrp_keeps]

theorem execFeedbackChange_keeps (g : GrpIx) (ch : Side) (level : Bool) (s : State) (u : State)
  (h : execFeedbackChange g ch level s = .next u) :
    u.bell = s.bell ∧
    u.frame = s.frame ∧
    u.ports = s.ports ∧
    u.rings = s.rings ∧
    u.gn8s = s.gn8s ∧
    u.heads = s.heads ∧
    u.man = s.man ∧
    u.engs = s.engs ∧
    u.sup = s.sup ∧
    u.pmc = s.pmc ∧
    u.dev = s.dev ∧
    u.img = s.img ∧
    u.pins = s.pins ∧
    u.shown = s.shown ∧
    u.free = s.free ∧
    u.pending = s.pending := by
  injection h with h
  subst h
  simp [modGrp_keeps, feedbackStep_keeps]

theorem execFbWindowExpiry_keeps (g : GrpIx) (s : State) (u : State) (h : execFbWindowExpiry g s = .next u) :
    u.bell = s.bell ∧
    u.frame = s.frame ∧
    u.ports = s.ports ∧
    u.rings = s.rings ∧
    u.gn8s = s.gn8s ∧
    u.heads = s.heads ∧
    u.man = s.man ∧
    u.engs = s.engs ∧
    u.sup = s.sup ∧
    u.pmc = s.pmc ∧
    u.dev = s.dev ∧
    u.img = s.img ∧
    u.pins = s.pins ∧
    u.shown = s.shown ∧
    u.free = s.free ∧
    u.pending = s.pending := by
  unfold execFbWindowExpiry at h
  (repeat' split at h) <;> (injection h with h; subst h; simp [lockGroup_keeps])

theorem execGuardChange_keeps (g : GrpIx) (ch : Side) (level : Bool) (s : State) (u : State)
  (h : execGuardChange g ch level s = .next u) :
    u.bell = s.bell ∧
    u.frame = s.frame ∧
    u.ports = s.ports ∧
    u.rings = s.rings ∧
    u.gn8s = s.gn8s ∧
    u.heads = s.heads ∧
    u.man = s.man ∧
    u.engs = s.engs ∧
    u.sup = s.sup ∧
    u.ha = s.ha ∧
    u.hb = s.hb ∧
    u.pmc = s.pmc ∧
    u.dev = s.dev ∧
    u.img = s.img ∧
    u.flt = s.flt ∧
    u.pins = s.pins ∧
    u.shown = s.shown ∧
    u.free = s.free ∧
    u.pending = s.pending := by
  injection h with h
  subst h
  simp [modGrp_keeps]

theorem execGuardDiscrepancyTimeout_keeps (g : GrpIx) (s : State) (u : State)
  (h : execGuardDiscrepancyTimeout g s = .next u) :
    u.bell = s.bell ∧
    u.frame = s.frame ∧
    u.ports = s.ports ∧
    u.rings = s.rings ∧
    u.gn8s = s.gn8s ∧
    u.heads = s.heads ∧
    u.man = s.man ∧
    u.engs = s.engs ∧
    u.sup = s.sup ∧
    u.pmc = s.pmc ∧
    u.dev = s.dev ∧
    u.img = s.img ∧
    u.pins = s.pins ∧
    u.shown = s.shown ∧
    u.free = s.free ∧
    u.pending = s.pending := by
  injection h with h
  subst h
  simp [lockGroup_keeps]

theorem lrstRise_keeps (g : Nat) (s : State) :
    (lrstRise g s).bell = s.bell ∧
    (lrstRise g s).frame = s.frame ∧
    (lrstRise g s).ports = s.ports ∧
    (lrstRise g s).rings = s.rings ∧
    (lrstRise g s).gn8s = s.gn8s ∧
    (lrstRise g s).heads = s.heads ∧
    (lrstRise g s).man = s.man ∧
    (lrstRise g s).engs = s.engs ∧
    (lrstRise g s).sup = s.sup ∧
    (lrstRise g s).ha = s.ha ∧
    (lrstRise g s).hb = s.hb ∧
    (lrstRise g s).pmc = s.pmc ∧
    (lrstRise g s).dev = s.dev ∧
    (lrstRise g s).img = s.img ∧
    (lrstRise g s).flt = s.flt ∧
    (lrstRise g s).pins = s.pins ∧
    (lrstRise g s).shown = s.shown ∧
    (lrstRise g s).free = s.free ∧
    (lrstRise g s).pending = s.pending := by
  unfold lrstRise
  simp [modGrp_keeps]

theorem lrstFall_keeps (g : Nat) (s : State) :
    (lrstFall g s).bell = s.bell ∧
    (lrstFall g s).frame = s.frame ∧
    (lrstFall g s).ports = s.ports ∧
    (lrstFall g s).rings = s.rings ∧
    (lrstFall g s).gn8s = s.gn8s ∧
    (lrstFall g s).heads = s.heads ∧
    (lrstFall g s).man = s.man ∧
    (lrstFall g s).engs = s.engs ∧
    (lrstFall g s).sup = s.sup ∧
    (lrstFall g s).pmc = s.pmc ∧
    (lrstFall g s).img = s.img ∧
    (lrstFall g s).pins = s.pins ∧
    (lrstFall g s).shown = s.shown ∧
    (lrstFall g s).free = s.free ∧
    (lrstFall g s).pending = s.pending := by
  unfold lrstFall
  simp [stickyIf_keeps, modGrp_keeps]

theorem execLrstChange_keeps (g : GrpIx) (level : Bool) (s : State) (u : State) (h : execLrstChange g level s =
  .next u) :
    u.bell = s.bell ∧
    u.frame = s.frame ∧
    u.ports = s.ports ∧
    u.rings = s.rings ∧
    u.gn8s = s.gn8s ∧
    u.heads = s.heads ∧
    u.man = s.man ∧
    u.engs = s.engs ∧
    u.sup = s.sup ∧
    u.pmc = s.pmc ∧
    u.img = s.img ∧
    u.pins = s.pins ∧
    u.shown = s.shown ∧
    u.free = s.free ∧
    u.pending = s.pending := by
  injection h with h
  subst h
  simp [lrstFall_keeps, lrstRise_keeps]

theorem execResetWindowExpiry_keeps (g : GrpIx) (s : State) (u : State) (h : execResetWindowExpiry g s = .next u)
  :
    u.bell = s.bell ∧
    u.frame = s.frame ∧
    u.ports = s.ports ∧
    u.rings = s.rings ∧
    u.gn8s = s.gn8s ∧
    u.heads = s.heads ∧
    u.man = s.man ∧
    u.engs = s.engs ∧
    u.sup = s.sup ∧
    u.pmc = s.pmc ∧
    u.img = s.img ∧
    u.pins = s.pins ∧
    u.shown = s.shown ∧
    u.free = s.free ∧
    u.pending = s.pending := by
  unfold execResetWindowExpiry at h
  try dsimp only at h
  (repeat' split at h) <;> (injection h with h; subst h; simp [sticky_keeps, modGrp_keeps])

theorem execLrstStuck_keeps (g : GrpIx) (s : State) (u : State) (h : execLrstStuck g s = .next u) :
    u.bell = s.bell ∧
    u.frame = s.frame ∧
    u.ports = s.ports ∧
    u.rings = s.rings ∧
    u.gn8s = s.gn8s ∧
    u.heads = s.heads ∧
    u.man = s.man ∧
    u.engs = s.engs ∧
    u.sup = s.sup ∧
    u.pmc = s.pmc ∧
    u.dev = s.dev ∧
    u.img = s.img ∧
    u.pins = s.pins ∧
    u.shown = s.shown ∧
    u.free = s.free ∧
    u.pending = s.pending := by
  unfold execLrstStuck at h
  dsimp only at h
  (repeat' split at h) <;> (injection h with h; subst h; simp [sticky_keeps, modGrp_keeps])

theorem execEncoderEdge_keeps (g : GrpIx) (la lb : Bool) (s : State) (u : State)
  (h : execEncoderEdge g la lb s = .next u) :
    u.bell = s.bell ∧
    u.frame = s.frame ∧
    u.ports = s.ports ∧
    u.rings = s.rings ∧
    u.gn8s = s.gn8s ∧
    u.heads = s.heads ∧
    u.man = s.man ∧
    u.engs = s.engs ∧
    u.sup = s.sup ∧
    u.pmc = s.pmc ∧
    u.dev = s.dev ∧
    u.img = s.img ∧
    u.pins = s.pins ∧
    u.shown = s.shown ∧
    u.free = s.free ∧
    u.pending = s.pending := by
  unfold execEncoderEdge at h
  dsimp only at h
  (repeat' split at h) <;> (injection h with h; subst h; simp [lockGroup_keeps, modGrp_keeps])

theorem driveCheck_keeps (g : Nat) (s : State) :
    (driveCheck g s).bell = s.bell ∧
    (driveCheck g s).frame = s.frame ∧
    (driveCheck g s).ports = s.ports ∧
    (driveCheck g s).rings = s.rings ∧
    (driveCheck g s).gn8s = s.gn8s ∧
    (driveCheck g s).heads = s.heads ∧
    (driveCheck g s).man = s.man ∧
    (driveCheck g s).engs = s.engs ∧
    (driveCheck g s).sup = s.sup ∧
    (driveCheck g s).pmc = s.pmc ∧
    (driveCheck g s).dev = s.dev ∧
    (driveCheck g s).img = s.img ∧
    (driveCheck g s).pins = s.pins ∧
    (driveCheck g s).shown = s.shown ∧
    (driveCheck g s).free = s.free ∧
    (driveCheck g s).pending = s.pending := by
  unfold driveCheck
  simp [lockGroup_keeps]

theorem execReadbackFault_keeps (g : GrpIx) (_o : SgOut) (s : State) (u : State)
  (h : execReadbackFault g _o s = .next u) :
    u.bell = s.bell ∧
    u.frame = s.frame ∧
    u.ports = s.ports ∧
    u.rings = s.rings ∧
    u.gn8s = s.gn8s ∧
    u.heads = s.heads ∧
    u.man = s.man ∧
    u.engs = s.engs ∧
    u.sup = s.sup ∧
    u.pmc = s.pmc ∧
    u.dev = s.dev ∧
    u.img = s.img ∧
    u.pins = s.pins ∧
    u.shown = s.shown ∧
    u.free = s.free ∧
    u.pending = s.pending := by
  injection h with h
  subst h
  simp [lockGroup_keeps]

theorem execSs1Standstill_keeps (g : GrpIx) (s : State) (u : State) (h : execSs1Standstill g s = .next u) :
    u.bell = s.bell ∧
    u.frame = s.frame ∧
    u.ports = s.ports ∧
    u.rings = s.rings ∧
    u.gn8s = s.gn8s ∧
    u.heads = s.heads ∧
    u.man = s.man ∧
    u.engs = s.engs ∧
    u.sup = s.sup ∧
    u.ha = s.ha ∧
    u.hb = s.hb ∧
    u.pmc = s.pmc ∧
    u.dev = s.dev ∧
    u.img = s.img ∧
    u.flt = s.flt ∧
    u.pins = s.pins ∧
    u.shown = s.shown ∧
    u.free = s.free ∧
    u.pending = s.pending := by
  injection h with h
  subst h
  simp [modGrp_keeps]

theorem execSs1Timeout_keeps (g : GrpIx) (s : State) (u : State) (h : execSs1Timeout g s = .next u) :
    u.bell = s.bell ∧
    u.frame = s.frame ∧
    u.ports = s.ports ∧
    u.rings = s.rings ∧
    u.gn8s = s.gn8s ∧
    u.heads = s.heads ∧
    u.man = s.man ∧
    u.engs = s.engs ∧
    u.sup = s.sup ∧
    u.pmc = s.pmc ∧
    u.dev = s.dev ∧
    u.img = s.img ∧
    u.pins = s.pins ∧
    u.shown = s.shown ∧
    u.free = s.free ∧
    u.pending = s.pending := by
  unfold execSs1Timeout at h
  (repeat' split at h) <;> (injection h with h; subst h; simp [modGrp_keeps, stickyIf_keeps])

theorem grpTick_keeps (g : Nat) (s : State) :
    (grpTick g s).bell = s.bell ∧
    (grpTick g s).frame = s.frame ∧
    (grpTick g s).ports = s.ports ∧
    (grpTick g s).rings = s.rings ∧
    (grpTick g s).gn8s = s.gn8s ∧
    (grpTick g s).heads = s.heads ∧
    (grpTick g s).man = s.man ∧
    (grpTick g s).engs = s.engs ∧
    (grpTick g s).sup = s.sup ∧
    (grpTick g s).pmc = s.pmc ∧
    (grpTick g s).dev = s.dev ∧
    (grpTick g s).img = s.img ∧
    (grpTick g s).pins = s.pins ∧
    (grpTick g s).shown = s.shown ∧
    (grpTick g s).free = s.free ∧
    (grpTick g s).pending = s.pending := by
  unfold grpTick
  simp [lockGroup_keeps, setGrp_keeps]

theorem deadman_keeps (s : State) :
    (deadman s).bell = s.bell ∧
    (deadman s).frame = s.frame ∧
    (deadman s).ports = s.ports ∧
    (deadman s).rings = s.rings ∧
    (deadman s).gn8s = s.gn8s ∧
    (deadman s).heads = s.heads ∧
    (deadman s).man = s.man ∧
    (deadman s).engs = s.engs ∧
    (deadman s).sup = s.sup ∧
    (deadman s).pmc = s.pmc ∧
    (deadman s).dev = s.dev ∧
    (deadman s).img = s.img ∧
    (deadman s).pins = s.pins ∧
    (deadman s).shown = s.shown ∧
    (deadman s).free = s.free ∧
    (deadman s).pending = s.pending := by
  unfold deadman
  simp [sticky_keeps, lockAll_keeps]

theorem tokenTick_keeps (prev : Word) (s : State) :
    (tokenTick prev s).bell = s.bell ∧
    (tokenTick prev s).frame = s.frame ∧
    (tokenTick prev s).ports = s.ports ∧
    (tokenTick prev s).rings = s.rings ∧
    (tokenTick prev s).gn8s = s.gn8s ∧
    (tokenTick prev s).heads = s.heads ∧
    (tokenTick prev s).man = s.man ∧
    (tokenTick prev s).engs = s.engs ∧
    (tokenTick prev s).sup = s.sup ∧
    (tokenTick prev s).pmc = s.pmc ∧
    (tokenTick prev s).dev = s.dev ∧
    (tokenTick prev s).img = s.img ∧
    (tokenTick prev s).pins = s.pins ∧
    (tokenTick prev s).shown = s.shown ∧
    (tokenTick prev s).free = s.free ∧
    (tokenTick prev s).pending = s.pending := by
  unfold tokenTick
  simp [stopGroup_keeps, deadman_keeps, sticky_keeps]

theorem safioTick_keeps (prev : Word) (s : State) :
    (safioTick prev s).bell = s.bell ∧
    (safioTick prev s).frame = s.frame ∧
    (safioTick prev s).ports = s.ports ∧
    (safioTick prev s).rings = s.rings ∧
    (safioTick prev s).gn8s = s.gn8s ∧
    (safioTick prev s).heads = s.heads ∧
    (safioTick prev s).man = s.man ∧
    (safioTick prev s).engs = s.engs ∧
    (safioTick prev s).sup = s.sup ∧
    (safioTick prev s).pmc = s.pmc ∧
    (safioTick prev s).dev = s.dev ∧
    (safioTick prev s).img = s.img ∧
    (safioTick prev s).pins = s.pins ∧
    (safioTick prev s).shown = s.shown ∧
    (safioTick prev s).free = s.free ∧
    (safioTick prev s).pending = s.pending := by
  unfold safioTick
  simp [grpTick_keeps, tokenTick_keeps]

theorem execNotickTimeout_keeps (s : State) (u : State) (h : execNotickTimeout s = .next u) :
    u.bell = s.bell ∧
    u.frame = s.frame ∧
    u.ports = s.ports ∧
    u.rings = s.rings ∧
    u.gn8s = s.gn8s ∧
    u.heads = s.heads ∧
    u.man = s.man ∧
    u.engs = s.engs ∧
    u.sup = s.sup ∧
    u.pmc = s.pmc ∧
    u.dev = s.dev ∧
    u.img = s.img ∧
    u.pins = s.pins ∧
    u.shown = s.shown ∧
    u.free = s.free ∧
    u.pending = s.pending := by
  injection h with h
  subst h
  simp [sticky_keeps, deadman_keeps]

theorem applyOrder_keeps (g : Nat) (o : GrpOrder) (s : State) :
    (applyOrder g o s).bell = s.bell ∧
    (applyOrder g o s).frame = s.frame ∧
    (applyOrder g o s).ports = s.ports ∧
    (applyOrder g o s).rings = s.rings ∧
    (applyOrder g o s).gn8s = s.gn8s ∧
    (applyOrder g o s).heads = s.heads ∧
    (applyOrder g o s).man = s.man ∧
    (applyOrder g o s).engs = s.engs ∧
    (applyOrder g o s).sup = s.sup ∧
    (applyOrder g o s).pmc = s.pmc ∧
    (applyOrder g o s).dev = s.dev ∧
    (applyOrder g o s).img = s.img ∧
    (applyOrder g o s).pins = s.pins ∧
    (applyOrder g o s).shown = s.shown ∧
    (applyOrder g o s).free = s.free ∧
    (applyOrder g o s).pending = s.pending := by
  unfold applyOrder
  dsimp only
  (repeat' split) <;> simp [stopGroup_keeps, driveCheck_keeps, feedbackStep_keeps, modGrp_keeps]

theorem devResetGroups_keeps (s : State) :
    (devResetGroups s).bell = s.bell ∧
    (devResetGroups s).frame = s.frame ∧
    (devResetGroups s).ports = s.ports ∧
    (devResetGroups s).rings = s.rings ∧
    (devResetGroups s).gn8s = s.gn8s ∧
    (devResetGroups s).heads = s.heads ∧
    (devResetGroups s).man = s.man ∧
    (devResetGroups s).engs = s.engs ∧
    (devResetGroups s).sup = s.sup ∧
    (devResetGroups s).ha = s.ha ∧
    (devResetGroups s).hb = s.hb ∧
    (devResetGroups s).pmc = s.pmc ∧
    (devResetGroups s).dev = s.dev ∧
    (devResetGroups s).img = s.img ∧
    (devResetGroups s).flt = s.flt ∧
    (devResetGroups s).pins = s.pins ∧
    (devResetGroups s).shown = s.shown ∧
    (devResetGroups s).free = s.free ∧
    (devResetGroups s).pending = s.pending := by
  unfold devResetGroups
  simp [modGrp_keeps]

theorem applyOrders_keeps (o : Orders) (s : State) :
    (applyOrders o s).bell = s.bell ∧
    (applyOrders o s).frame = s.frame ∧
    (applyOrders o s).ports = s.ports ∧
    (applyOrders o s).rings = s.rings ∧
    (applyOrders o s).gn8s = s.gn8s ∧
    (applyOrders o s).heads = s.heads ∧
    (applyOrders o s).man = s.man ∧
    (applyOrders o s).engs = s.engs ∧
    (applyOrders o s).sup = s.sup ∧
    (applyOrders o s).pmc = s.pmc ∧
    (applyOrders o s).dev = s.dev ∧
    (applyOrders o s).img = s.img ∧
    (applyOrders o s).pins = s.pins ∧
    (applyOrders o s).shown = s.shown ∧
    (applyOrders o s).free = s.free ∧
    (applyOrders o s).pending = s.pending := by
  unfold applyOrders
  simp [applyOrder_keeps, devResetGroups_keeps]

theorem execTokenPair_keeps (errA errB errLandA errLandB : Word) (same : Bool) (s : State) (u : State) (h :
  execTokenPair errA errB errLandA errLandB same s = .next u) :
    u.bell = s.bell ∧
    u.frame = s.frame ∧
    u.ports = s.ports ∧
    u.rings = s.rings ∧
    u.gn8s = s.gn8s ∧
    u.heads = s.heads ∧
    u.man = s.man ∧
    u.engs = s.engs ∧
    u.pmc = s.pmc ∧
    u.dev = s.dev ∧
    u.img = s.img ∧
    u.pins = s.pins ∧
    u.shown = s.shown ∧
    u.free = s.free ∧
    u.pending = s.pending := by
  unfold execTokenPair at h
  (repeat' split at h) <;> (injection h with h; subst h; simp [stickyIf_keeps, applyOrders_keeps])

theorem noteSeal_keeps (bits : BitVec 40) (s : State) :
    (noteSeal bits s).bell = s.bell ∧
    (noteSeal bits s).frame = s.frame ∧
    (noteSeal bits s).ports = s.ports ∧
    (noteSeal bits s).rings = s.rings ∧
    (noteSeal bits s).gn8s = s.gn8s ∧
    (noteSeal bits s).heads = s.heads ∧
    (noteSeal bits s).man = s.man ∧
    (noteSeal bits s).engs = s.engs ∧
    (noteSeal bits s).sup = s.sup ∧
    (noteSeal bits s).ha = s.ha ∧
    (noteSeal bits s).hb = s.hb ∧
    (noteSeal bits s).pmc = s.pmc ∧
    (noteSeal bits s).dev = s.dev ∧
    (noteSeal bits s).img = s.img ∧
    (noteSeal bits s).flt = s.flt ∧
    (noteSeal bits s).pins = s.pins ∧
    (noteSeal bits s).shown = s.shown ∧
    (noteSeal bits s).free = s.free ∧
    (noteSeal bits s).pending = s.pending := by
  exact ⟨rfl, rfl, rfl, rfl, rfl, rfl, rfl, rfl, rfl, rfl, rfl, rfl, rfl, rfl, rfl, rfl, rfl, rfl, rfl⟩

theorem execSealRead_keeps (s : State) (u : State) (h : execSealRead s = .next u) :
    u.bell = s.bell ∧
    u.frame = s.frame ∧
    u.ports = s.ports ∧
    u.rings = s.rings ∧
    u.gn8s = s.gn8s ∧
    u.heads = s.heads ∧
    u.man = s.man ∧
    u.engs = s.engs ∧
    u.sup = s.sup ∧
    u.ha = s.ha ∧
    u.hb = s.hb ∧
    u.pmc = s.pmc ∧
    u.dev = s.dev ∧
    u.img = s.img ∧
    u.flt = s.flt ∧
    u.pins = s.pins ∧
    u.shown = s.shown ∧
    u.free = s.free ∧
    u.pending = s.pending := by
  unfold execSealRead at h
  (repeat' split at h) <;> (injection h with h; subst h; simp)

theorem judgeSeal_keeps (bits : BitVec 40) (s : State) :
    (judgeSeal bits s).bell = s.bell ∧
    (judgeSeal bits s).frame = s.frame ∧
    (judgeSeal bits s).ports = s.ports ∧
    (judgeSeal bits s).rings = s.rings ∧
    (judgeSeal bits s).gn8s = s.gn8s ∧
    (judgeSeal bits s).heads = s.heads ∧
    (judgeSeal bits s).man = s.man ∧
    (judgeSeal bits s).engs = s.engs ∧
    (judgeSeal bits s).pmc = s.pmc ∧
    (judgeSeal bits s).dev = s.dev ∧
    (judgeSeal bits s).img = s.img ∧
    (judgeSeal bits s).pins = s.pins ∧
    (judgeSeal bits s).shown = s.shown ∧
    (judgeSeal bits s).free = s.free ∧
    (judgeSeal bits s).pending = s.pending := by
  unfold judgeSeal
  simp [sticky_keeps, stickyIf_keeps]

theorem execSealReadDone_keeps (bits : BitVec 40) (s : State) (u : State) (h : execSealReadDone bits s = .next u) :
    u.bell = s.bell ∧
    u.frame = s.frame ∧
    u.ports = s.ports ∧
    u.rings = s.rings ∧
    u.gn8s = s.gn8s ∧
    u.heads = s.heads ∧
    u.man = s.man ∧
    u.engs = s.engs ∧
    u.pmc = s.pmc ∧
    u.dev = s.dev ∧
    u.img = s.img ∧
    u.pins = s.pins ∧
    u.shown = s.shown ∧
    u.free = s.free ∧
    u.pending = s.pending := by
  injection h with h
  subst h
  simp [noteSeal_keeps, judgeSeal_keeps]

end Sys2Proof.Machine
end

