-- ==== Sys2Proof/Laws/FrameViews.lean ====
section
/-! SUPPORT. What each operation of Views.lean (committed registers) leaves unchanged. -/

namespace Sys2Proof.Machine

theorem atTick_keeps (s : State) :
    (atTick s).frame = s.frame ∧
    (atTick s).ports = s.ports ∧
    (atTick s).rings = s.rings ∧
    (atTick s).gn8s = s.gn8s ∧
    (atTick s).heads = s.heads ∧
    (atTick s).man = s.man ∧
    (atTick s).engs = s.engs ∧
    (atTick s).sup = s.sup ∧
    (atTick s).saf = s.saf ∧
    (atTick s).ha = s.ha ∧
    (atTick s).hb = s.hb ∧
    (atTick s).dev = s.dev ∧
    (atTick s).img = s.img ∧
    (atTick s).flt = s.flt ∧
    (atTick s).pins = s.pins ∧
    (atTick s).shown = s.shown ∧
    (atTick s).free = s.free ∧
    (atTick s).pending = s.pending := by
  exact ⟨rfl, rfl, rfl, rfl, rfl, rfl, rfl, rfl, rfl, rfl, rfl, rfl, rfl, rfl, rfl, rfl, rfl, rfl⟩

theorem seeTick_keeps (s : State) :
    (seeTick s).bell = s.bell ∧
    (seeTick s).frame = s.frame ∧
    (seeTick s).ports = s.ports ∧
    (seeTick s).rings = s.rings ∧
    (seeTick s).gn8s = s.gn8s ∧
    (seeTick s).heads = s.heads ∧
    (seeTick s).man = s.man ∧
    (seeTick s).engs = s.engs ∧
    (seeTick s).sup = s.sup ∧
    (seeTick s).saf = s.saf ∧
    (seeTick s).ha = s.ha ∧
    (seeTick s).hb = s.hb ∧
    (seeTick s).dev = s.dev ∧
    (seeTick s).img = s.img ∧
    (seeTick s).flt = s.flt ∧
    (seeTick s).pins = s.pins ∧
    (seeTick s).shown = s.shown ∧
    (seeTick s).free = s.free ∧
    (seeTick s).pending = s.pending := by
  exact ⟨rfl, rfl, rfl, rfl, rfl, rfl, rfl, rfl, rfl, rfl, rfl, rfl, rfl, rfl, rfl, rfl, rfl, rfl, rfl⟩

theorem seenCfg_keeps (s : State) :
    (seenCfg s).bell = s.bell ∧
    (seenCfg s).frame = s.frame ∧
    (seenCfg s).ports = s.ports ∧
    (seenCfg s).rings = s.rings ∧
    (seenCfg s).gn8s = s.gn8s ∧
    (seenCfg s).heads = s.heads ∧
    (seenCfg s).man = s.man ∧
    (seenCfg s).engs = s.engs ∧
    (seenCfg s).sup = s.sup ∧
    (seenCfg s).saf = s.saf ∧
    (seenCfg s).ha = s.ha ∧
    (seenCfg s).hb = s.hb ∧
    (seenCfg s).pmc = s.pmc ∧
    (seenCfg s).dev = s.dev ∧
    (seenCfg s).flt = s.flt ∧
    (seenCfg s).pins = s.pins ∧
    (seenCfg s).shown = s.shown ∧
    (seenCfg s).free = s.free ∧
    (seenCfg s).pending = s.pending := by
  unfold seenCfg
  simp

theorem switchShown_keeps (s : State) :
    (switchShown s).bell = s.bell ∧
    (switchShown s).frame = s.frame ∧
    (switchShown s).ports = s.ports ∧
    (switchShown s).rings = s.rings ∧
    (switchShown s).gn8s = s.gn8s ∧
    (switchShown s).heads = s.heads ∧
    (switchShown s).man = s.man ∧
    (switchShown s).sup = s.sup ∧
    (switchShown s).saf = s.saf ∧
    (switchShown s).pmc = s.pmc ∧
    (switchShown s).dev = s.dev ∧
    (switchShown s).img = s.img ∧
    (switchShown s).flt = s.flt ∧
    (switchShown s).pins = s.pins ∧
    (switchShown s).free = s.free ∧
    (switchShown s).pending = s.pending := by
  exact ⟨rfl, rfl, rfl, rfl, rfl, rfl, rfl, rfl, rfl, rfl, rfl, rfl, rfl, rfl, rfl, rfl⟩

end Sys2Proof.Machine
end

