-- ==== Sys2Proof/Laws/FrameHost.lean ====
section
/-! SUPPORT. What each operation of Host.lean (host ports) leaves unchanged. -/

namespace Sys2Proof.Machine

theorem writeBody_keeps (p : HostId) (s : State) :
    (writeBody p s).bell = s.bell ∧
    (writeBody p s).frame = s.frame ∧
    (writeBody p s).ports = s.ports ∧
    (writeBody p s).rings = s.rings ∧
    (writeBody p s).gn8s = s.gn8s ∧
    (writeBody p s).heads = s.heads ∧
    (writeBody p s).man = s.man ∧
    (writeBody p s).engs = s.engs ∧
    (writeBody p s).sup = s.sup ∧
    (writeBody p s).saf = s.saf ∧
    (writeBody p s).pmc = s.pmc ∧
    (writeBody p s).dev = s.dev ∧
    (writeBody p s).img = s.img ∧
    (writeBody p s).flt = s.flt ∧
    (writeBody p s).pins = s.pins ∧
    (writeBody p s).shown = s.shown ∧
    (writeBody p s).free = s.free ∧
    (writeBody p s).pending = s.pending := by
  unfold writeBody
  simp [modHost_keeps]

theorem writeKeys_keeps (p : HostId) (s : State) :
    (writeKeys p s).bell = s.bell ∧
    (writeKeys p s).frame = s.frame ∧
    (writeKeys p s).ports = s.ports ∧
    (writeKeys p s).rings = s.rings ∧
    (writeKeys p s).gn8s = s.gn8s ∧
    (writeKeys p s).heads = s.heads ∧
    (writeKeys p s).man = s.man ∧
    (writeKeys p s).engs = s.engs ∧
    (writeKeys p s).sup = s.sup ∧
    (writeKeys p s).saf = s.saf ∧
    (writeKeys p s).pmc = s.pmc ∧
    (writeKeys p s).dev = s.dev ∧
    (writeKeys p s).img = s.img ∧
    (writeKeys p s).flt = s.flt ∧
    (writeKeys p s).pins = s.pins ∧
    (writeKeys p s).shown = s.shown ∧
    (writeKeys p s).free = s.free ∧
    (writeKeys p s).pending = s.pending := by
  unfold writeKeys
  simp [modHost_keeps]

theorem completeImage_keeps (p : HostId) (s : State) :
    (completeImage p s).bell = s.bell ∧
    (completeImage p s).frame = s.frame ∧
    (completeImage p s).ports = s.ports ∧
    (completeImage p s).rings = s.rings ∧
    (completeImage p s).gn8s = s.gn8s ∧
    (completeImage p s).heads = s.heads ∧
    (completeImage p s).man = s.man ∧
    (completeImage p s).engs = s.engs ∧
    (completeImage p s).sup = s.sup ∧
    (completeImage p s).saf = s.saf ∧
    (completeImage p s).pmc = s.pmc ∧
    (completeImage p s).dev = s.dev ∧
    (completeImage p s).img = s.img ∧
    (completeImage p s).pins = s.pins ∧
    (completeImage p s).shown = s.shown ∧
    (completeImage p s).free = s.free ∧
    (completeImage p s).pending = s.pending := by
  unfold completeImage
  simp [raiseAt_keeps, writeKeys_keeps, modHost_keeps]

theorem releaseResults_keeps (p : HostId) (s : State) :
    (releaseResults p s).bell = s.bell ∧
    (releaseResults p s).frame = s.frame ∧
    (releaseResults p s).ports = s.ports ∧
    (releaseResults p s).rings = s.rings ∧
    (releaseResults p s).gn8s = s.gn8s ∧
    (releaseResults p s).heads = s.heads ∧
    (releaseResults p s).man = s.man ∧
    (releaseResults p s).engs = s.engs ∧
    (releaseResults p s).saf = s.saf ∧
    (releaseResults p s).pmc = s.pmc ∧
    (releaseResults p s).dev = s.dev ∧
    (releaseResults p s).img = s.img ∧
    (releaseResults p s).flt = s.flt ∧
    (releaseResults p s).pins = s.pins ∧
    (releaseResults p s).shown = s.shown ∧
    (releaseResults p s).free = s.free ∧
    (releaseResults p s).pending = s.pending := by
  unfold releaseResults
  simp [modSups_keeps, modHost_keeps]

theorem publishCommit_keeps (p : HostId) (s : State) :
    (publishCommit p s).bell = s.bell ∧
    (publishCommit p s).frame = s.frame ∧
    (publishCommit p s).ports = s.ports ∧
    (publishCommit p s).rings = s.rings ∧
    (publishCommit p s).gn8s = s.gn8s ∧
    (publishCommit p s).heads = s.heads ∧
    (publishCommit p s).man = s.man ∧
    (publishCommit p s).engs = s.engs ∧
    (publishCommit p s).sup = s.sup ∧
    (publishCommit p s).saf = s.saf ∧
    (publishCommit p s).pmc = s.pmc ∧
    (publishCommit p s).dev = s.dev ∧
    (publishCommit p s).img = s.img ∧
    (publishCommit p s).flt = s.flt ∧
    (publishCommit p s).pins = s.pins ∧
    (publishCommit p s).shown = s.shown ∧
    (publishCommit p s).free = s.free ∧
    (publishCommit p s).pending = s.pending := by
  unfold publishCommit
  simp [writeBody_keeps, modHost_keeps]

theorem publishPassed_keeps (p : HostId) (s : State) :
    (publishPassed p s).bell = s.bell ∧
    (publishPassed p s).frame = s.frame ∧
    (publishPassed p s).ports = s.ports ∧
    (publishPassed p s).rings = s.rings ∧
    (publishPassed p s).gn8s = s.gn8s ∧
    (publishPassed p s).heads = s.heads ∧
    (publishPassed p s).man = s.man ∧
    (publishPassed p s).engs = s.engs ∧
    (publishPassed p s).saf = s.saf ∧
    (publishPassed p s).pmc = s.pmc ∧
    (publishPassed p s).dev = s.dev ∧
    (publishPassed p s).img = s.img ∧
    (publishPassed p s).pins = s.pins ∧
    (publishPassed p s).shown = s.shown ∧
    (publishPassed p s).free = s.free ∧
    (publishPassed p s).pending = s.pending := by
  unfold publishPassed
  simp [completeImage_keeps, releaseResults_keeps, modHost_keeps]

theorem writeRecords_keeps (p : HostId) (l : List WheelRec) (s : State) :
    (writeRecords p l s).bell = s.bell ∧
    (writeRecords p l s).frame = s.frame ∧
    (writeRecords p l s).ports = s.ports ∧
    (writeRecords p l s).rings = s.rings ∧
    (writeRecords p l s).gn8s = s.gn8s ∧
    (writeRecords p l s).heads = s.heads ∧
    (writeRecords p l s).man = s.man ∧
    (writeRecords p l s).engs = s.engs ∧
    (writeRecords p l s).sup = s.sup ∧
    (writeRecords p l s).saf = s.saf ∧
    (writeRecords p l s).pmc = s.pmc ∧
    (writeRecords p l s).img = s.img ∧
    (writeRecords p l s).pins = s.pins ∧
    (writeRecords p l s).shown = s.shown ∧
    (writeRecords p l s).pending = s.pending := by
  unfold writeRecords
  simp [raiseAt_keeps, stickyIf_keeps, modHost_keeps]

theorem leadRecords_keeps (l : List WheelRec) (s : State) :
    (leadRecords l s).bell = s.bell ∧
    (leadRecords l s).frame = s.frame ∧
    (leadRecords l s).ports = s.ports ∧
    (leadRecords l s).rings = s.rings ∧
    (leadRecords l s).gn8s = s.gn8s ∧
    (leadRecords l s).heads = s.heads ∧
    (leadRecords l s).man = s.man ∧
    (leadRecords l s).engs = s.engs ∧
    (leadRecords l s).sup = s.sup ∧
    (leadRecords l s).saf = s.saf ∧
    (leadRecords l s).pmc = s.pmc ∧
    (leadRecords l s).img = s.img ∧
    (leadRecords l s).pins = s.pins ∧
    (leadRecords l s).shown = s.shown ∧
    (leadRecords l s).pending = s.pending := by
  unfold leadRecords
  simp [writeRecords_keeps]

theorem formDeck_keeps (s : State) :
    (formDeck s).bell = s.bell ∧
    (formDeck s).frame = s.frame ∧
    (formDeck s).ports = s.ports ∧
    (formDeck s).rings = s.rings ∧
    (formDeck s).gn8s = s.gn8s ∧
    (formDeck s).heads = s.heads ∧
    (formDeck s).man = s.man ∧
    (formDeck s).engs = s.engs ∧
    (formDeck s).saf = s.saf ∧
    (formDeck s).ha = s.ha ∧
    (formDeck s).hb = s.hb ∧
    (formDeck s).pmc = s.pmc ∧
    (formDeck s).dev = s.dev ∧
    (formDeck s).img = s.img ∧
    (formDeck s).flt = s.flt ∧
    (formDeck s).pins = s.pins ∧
    (formDeck s).shown = s.shown ∧
    (formDeck s).free = s.free ∧
    (formDeck s).pending = s.pending := by
  exact ⟨rfl, rfl, rfl, rfl, rfl, rfl, rfl, rfl, rfl, rfl, rfl, rfl, rfl, rfl, rfl, rfl, rfl, rfl, rfl⟩

theorem writeDeck_keeps (p : HostId) (s : State) :
    (writeDeck p s).bell = s.bell ∧
    (writeDeck p s).frame = s.frame ∧
    (writeDeck p s).ports = s.ports ∧
    (writeDeck p s).rings = s.rings ∧
    (writeDeck p s).gn8s = s.gn8s ∧
    (writeDeck p s).heads = s.heads ∧
    (writeDeck p s).man = s.man ∧
    (writeDeck p s).engs = s.engs ∧
    (writeDeck p s).sup = s.sup ∧
    (writeDeck p s).saf = s.saf ∧
    (writeDeck p s).pmc = s.pmc ∧
    (writeDeck p s).dev = s.dev ∧
    (writeDeck p s).img = s.img ∧
    (writeDeck p s).pins = s.pins ∧
    (writeDeck p s).shown = s.shown ∧
    (writeDeck p s).free = s.free ∧
    (writeDeck p s).pending = s.pending := by
  unfold writeDeck
  simp [modHost_keeps, raiseAt_keeps]

theorem takeMailbox_keeps (p : HostId) (s : State) :
    (takeMailbox p s).bell = s.bell ∧
    (takeMailbox p s).frame = s.frame ∧
    (takeMailbox p s).ports = s.ports ∧
    (takeMailbox p s).rings = s.rings ∧
    (takeMailbox p s).gn8s = s.gn8s ∧
    (takeMailbox p s).heads = s.heads ∧
    (takeMailbox p s).man = s.man ∧
    (takeMailbox p s).engs = s.engs ∧
    (takeMailbox p s).saf = s.saf ∧
    (takeMailbox p s).pmc = s.pmc ∧
    (takeMailbox p s).dev = s.dev ∧
    (takeMailbox p s).img = s.img ∧
    (takeMailbox p s).pins = s.pins ∧
    (takeMailbox p s).shown = s.shown ∧
    (takeMailbox p s).free = s.free ∧
    (takeMailbox p s).pending = s.pending := by
  unfold takeMailbox
  simp [sticky_keeps, modHost_keeps]

theorem copyMailbox_keeps (p : HostId) (s : State) :
    (copyMailbox p s).bell = s.bell ∧
    (copyMailbox p s).frame = s.frame ∧
    (copyMailbox p s).ports = s.ports ∧
    (copyMailbox p s).rings = s.rings ∧
    (copyMailbox p s).gn8s = s.gn8s ∧
    (copyMailbox p s).heads = s.heads ∧
    (copyMailbox p s).man = s.man ∧
    (copyMailbox p s).engs = s.engs ∧
    (copyMailbox p s).saf = s.saf ∧
    (copyMailbox p s).pmc = s.pmc ∧
    (copyMailbox p s).dev = s.dev ∧
    (copyMailbox p s).img = s.img ∧
    (copyMailbox p s).pins = s.pins ∧
    (copyMailbox p s).shown = s.shown ∧
    (copyMailbox p s).free = s.free ∧
    (copyMailbox p s).pending = s.pending := by
  unfold copyMailbox
  simp [takeMailbox_keeps, modHost_keeps]

theorem linkLost_keeps (p : HostId) (s : State) :
    (linkLost p s).bell = s.bell ∧
    (linkLost p s).frame = s.frame ∧
    (linkLost p s).ports = s.ports ∧
    (linkLost p s).rings = s.rings ∧
    (linkLost p s).gn8s = s.gn8s ∧
    (linkLost p s).heads = s.heads ∧
    (linkLost p s).man = s.man ∧
    (linkLost p s).engs = s.engs ∧
    (linkLost p s).sup = s.sup ∧
    (linkLost p s).saf = s.saf ∧
    (linkLost p s).pmc = s.pmc ∧
    (linkLost p s).dev = s.dev ∧
    (linkLost p s).img = s.img ∧
    (linkLost p s).pins = s.pins ∧
    (linkLost p s).shown = s.shown ∧
    (linkLost p s).free = s.free ∧
    (linkLost p s).pending = s.pending := by
  unfold linkLost
  simp [clearFlt_keeps, raiseAt_keeps, modHost_keeps]

theorem dropLink_keeps (p : HostId) (s : State) :
    (dropLink p s).bell = s.bell ∧
    (dropLink p s).frame = s.frame ∧
    (dropLink p s).ports = s.ports ∧
    (dropLink p s).rings = s.rings ∧
    (dropLink p s).gn8s = s.gn8s ∧
    (dropLink p s).heads = s.heads ∧
    (dropLink p s).man = s.man ∧
    (dropLink p s).engs = s.engs ∧
    (dropLink p s).sup = s.sup ∧
    (dropLink p s).saf = s.saf ∧
    (dropLink p s).pmc = s.pmc ∧
    (dropLink p s).dev = s.dev ∧
    (dropLink p s).img = s.img ∧
    (dropLink p s).pins = s.pins ∧
    (dropLink p s).shown = s.shown ∧
    (dropLink p s).free = s.free ∧
    (dropLink p s).pending = s.pending := by
  unfold dropLink
  simp [linkLost_keeps]

theorem execHostLinkDown_keeps (p : HostId) (s : State) (u : State) (h : execHostLinkDown p s = .next u) :
    u.bell = s.bell ∧
    u.frame = s.frame ∧
    u.ports = s.ports ∧
    u.rings = s.rings ∧
    u.gn8s = s.gn8s ∧
    u.heads = s.heads ∧
    u.man = s.man ∧
    u.engs = s.engs ∧
    u.sup = s.sup ∧
    u.saf = s.saf ∧
    u.pmc = s.pmc ∧
    u.dev = s.dev ∧
    u.img = s.img ∧
    u.pins = s.pins ∧
    u.shown = s.shown ∧
    u.free = s.free ∧
    u.pending = s.pending := by
  injection h with h
  subst h
  simp [dropLink_keeps]

theorem execPerstAssert_keeps (p : HostId) (s : State) (u : State) (h : execPerstAssert p s = .next u) :
    u.bell = s.bell ∧
    u.frame = s.frame ∧
    u.ports = s.ports ∧
    u.rings = s.rings ∧
    u.gn8s = s.gn8s ∧
    u.heads = s.heads ∧
    u.man = s.man ∧
    u.engs = s.engs ∧
    u.sup = s.sup ∧
    u.saf = s.saf ∧
    u.pmc = s.pmc ∧
    u.dev = s.dev ∧
    u.img = s.img ∧
    u.pins = s.pins ∧
    u.shown = s.shown ∧
    u.free = s.free ∧
    u.pending = s.pending := by
  injection h with h
  subst h
  simp [linkLost_keeps, modHost_keeps]

theorem execD3hotEntry_keeps (p : HostId) (s : State) (u : State) (h : execD3hotEntry p s = .next u) :
    u.bell = s.bell ∧
    u.frame = s.frame ∧
    u.ports = s.ports ∧
    u.rings = s.rings ∧
    u.gn8s = s.gn8s ∧
    u.heads = s.heads ∧
    u.man = s.man ∧
    u.engs = s.engs ∧
    u.sup = s.sup ∧
    u.saf = s.saf ∧
    u.pmc = s.pmc ∧
    u.dev = s.dev ∧
    u.img = s.img ∧
    u.pins = s.pins ∧
    u.shown = s.shown ∧
    u.free = s.free ∧
    u.pending = s.pending := by
  injection h with h
  subst h
  simp [linkLost_keeps, modHost_keeps]

theorem linkActive_keeps (p : HostId) (up : LinkUp) (s : State) :
    (linkActive p up s).bell = s.bell ∧
    (linkActive p up s).frame = s.frame ∧
    (linkActive p up s).ports = s.ports ∧
    (linkActive p up s).rings = s.rings ∧
    (linkActive p up s).gn8s = s.gn8s ∧
    (linkActive p up s).heads = s.heads ∧
    (linkActive p up s).man = s.man ∧
    (linkActive p up s).engs = s.engs ∧
    (linkActive p up s).sup = s.sup ∧
    (linkActive p up s).saf = s.saf ∧
    (linkActive p up s).pmc = s.pmc ∧
    (linkActive p up s).dev = s.dev ∧
    (linkActive p up s).img = s.img ∧
    (linkActive p up s).pins = s.pins ∧
    (linkActive p up s).shown = s.shown ∧
    (linkActive p up s).free = s.free ∧
    (linkActive p up s).pending = s.pending := by
  unfold linkActive
  simp [stickyIf_keeps, raiseAt_keeps, modHost_keeps]

theorem execHostLinkUp_keeps (p : HostId) (up : LinkUp) (s : State) (u : State) (h : execHostLinkUp p up s = .next u) :
    u.bell = s.bell ∧
    u.frame = s.frame ∧
    u.ports = s.ports ∧
    u.rings = s.rings ∧
    u.gn8s = s.gn8s ∧
    u.heads = s.heads ∧
    u.man = s.man ∧
    u.engs = s.engs ∧
    u.sup = s.sup ∧
    u.saf = s.saf ∧
    u.pmc = s.pmc ∧
    u.dev = s.dev ∧
    u.img = s.img ∧
    u.pins = s.pins ∧
    u.shown = s.shown ∧
    u.free = s.free ∧
    u.pending = s.pending := by
  injection h with h
  subst h
  simp [linkActive_keeps]

theorem portLost_keeps (p : HostId) (s : State) :
    (portLost p s).bell = s.bell ∧
    (portLost p s).frame = s.frame ∧
    (portLost p s).ports = s.ports ∧
    (portLost p s).rings = s.rings ∧
    (portLost p s).gn8s = s.gn8s ∧
    (portLost p s).heads = s.heads ∧
    (portLost p s).man = s.man ∧
    (portLost p s).engs = s.engs ∧
    (portLost p s).sup = s.sup ∧
    (portLost p s).saf = s.saf ∧
    (portLost p s).pmc = s.pmc ∧
    (portLost p s).dev = s.dev ∧
    (portLost p s).img = s.img ∧
    (portLost p s).pins = s.pins ∧
    (portLost p s).shown = s.shown ∧
    (portLost p s).free = s.free ∧
    (portLost p s).pending = s.pending := by
  unfold portLost
  simp [linkLost_keeps, modHost_keeps]

theorem execHostHbeat_keeps (p : HostId) (s : State) (u : State) (h : execHostHbeat p s = .next u) :
    u.bell = s.bell ∧
    u.frame = s.frame ∧
    u.ports = s.ports ∧
    u.rings = s.rings ∧
    u.gn8s = s.gn8s ∧
    u.heads = s.heads ∧
    u.man = s.man ∧
    u.engs = s.engs ∧
    u.sup = s.sup ∧
    u.saf = s.saf ∧
    u.pmc = s.pmc ∧
    u.dev = s.dev ∧
    u.img = s.img ∧
    u.flt = s.flt ∧
    u.pins = s.pins ∧
    u.shown = s.shown ∧
    u.free = s.free ∧
    u.pending = s.pending := by
  injection h with h
  subst h
  simp [modHost_keeps]

theorem silentTick_keeps (p : HostId) (s : State) :
    (silentTick p s).bell = s.bell ∧
    (silentTick p s).frame = s.frame ∧
    (silentTick p s).ports = s.ports ∧
    (silentTick p s).rings = s.rings ∧
    (silentTick p s).gn8s = s.gn8s ∧
    (silentTick p s).heads = s.heads ∧
    (silentTick p s).man = s.man ∧
    (silentTick p s).engs = s.engs ∧
    (silentTick p s).sup = s.sup ∧
    (silentTick p s).saf = s.saf ∧
    (silentTick p s).pmc = s.pmc ∧
    (silentTick p s).dev = s.dev ∧
    (silentTick p s).img = s.img ∧
    (silentTick p s).pins = s.pins ∧
    (silentTick p s).shown = s.shown ∧
    (silentTick p s).free = s.free ∧
    (silentTick p s).pending = s.pending := by
  unfold silentTick
  simp [sticky_keeps, raiseAt_keeps, modHost_keeps]

theorem execHostSilentTimeout_keeps (p : HostId) (s : State) (u : State) (h : execHostSilentTimeout p s = .next u) :
    u.bell = s.bell ∧
    u.frame = s.frame ∧
    u.ports = s.ports ∧
    u.rings = s.rings ∧
    u.gn8s = s.gn8s ∧
    u.heads = s.heads ∧
    u.man = s.man ∧
    u.engs = s.engs ∧
    u.sup = s.sup ∧
    u.saf = s.saf ∧
    u.pmc = s.pmc ∧
    u.dev = s.dev ∧
    u.img = s.img ∧
    u.pins = s.pins ∧
    u.shown = s.shown ∧
    u.free = s.free ∧
    u.pending = s.pending := by
  injection h with h
  subst h
  simp [sticky_keeps, raiseAt_keeps]

theorem writePub_keeps (p : HostId) (v : Word) (s : State) :
    (writePub p v s).bell = s.bell ∧
    (writePub p v s).frame = s.frame ∧
    (writePub p v s).ports = s.ports ∧
    (writePub p v s).rings = s.rings ∧
    (writePub p v s).gn8s = s.gn8s ∧
    (writePub p v s).heads = s.heads ∧
    (writePub p v s).man = s.man ∧
    (writePub p v s).engs = s.engs ∧
    (writePub p v s).sup = s.sup ∧
    (writePub p v s).saf = s.saf ∧
    (writePub p v s).pmc = s.pmc ∧
    (writePub p v s).dev = s.dev ∧
    (writePub p v s).img = s.img ∧
    (writePub p v s).pins = s.pins ∧
    (writePub p v s).shown = s.shown ∧
    (writePub p v s).free = s.free ∧
    (writePub p v s).pending = s.pending := by
  unfold writePub
  simp [sticky_keeps, modHost_keeps]

theorem execHostPubWrite_keeps (p : HostId) (v : Word) (s : State) (u : State)
  (h : execHostPubWrite p v s = .next u) :
    u.bell = s.bell ∧
    u.frame = s.frame ∧
    u.ports = s.ports ∧
    u.rings = s.rings ∧
    u.gn8s = s.gn8s ∧
    u.heads = s.heads ∧
    u.man = s.man ∧
    u.engs = s.engs ∧
    u.sup = s.sup ∧
    u.saf = s.saf ∧
    u.pmc = s.pmc ∧
    u.dev = s.dev ∧
    u.img = s.img ∧
    u.pins = s.pins ∧
    u.shown = s.shown ∧
    u.free = s.free ∧
    u.pending = s.pending := by
  injection h with h
  subst h
  simp [writePub_keeps]

theorem gatedWrite_keeps (p : HostId) (enabled : PortSt → Bool) (f : PortSt → PortSt) (s : State) :
    (gatedWrite p enabled f s).bell = s.bell ∧
    (gatedWrite p enabled f s).frame = s.frame ∧
    (gatedWrite p enabled f s).ports = s.ports ∧
    (gatedWrite p enabled f s).rings = s.rings ∧
    (gatedWrite p enabled f s).gn8s = s.gn8s ∧
    (gatedWrite p enabled f s).heads = s.heads ∧
    (gatedWrite p enabled f s).man = s.man ∧
    (gatedWrite p enabled f s).engs = s.engs ∧
    (gatedWrite p enabled f s).sup = s.sup ∧
    (gatedWrite p enabled f s).saf = s.saf ∧
    (gatedWrite p enabled f s).pmc = s.pmc ∧
    (gatedWrite p enabled f s).dev = s.dev ∧
    (gatedWrite p enabled f s).img = s.img ∧
    (gatedWrite p enabled f s).pins = s.pins ∧
    (gatedWrite p enabled f s).shown = s.shown ∧
    (gatedWrite p enabled f s).free = s.free ∧
    (gatedWrite p enabled f s).pending = s.pending := by
  unfold gatedWrite
  simp [modHost_keeps, sticky_keeps]

theorem writeRidx_keeps (p : HostId) (v : Word) (s : State) :
    (writeRidx p v s).bell = s.bell ∧
    (writeRidx p v s).frame = s.frame ∧
    (writeRidx p v s).ports = s.ports ∧
    (writeRidx p v s).rings = s.rings ∧
    (writeRidx p v s).gn8s = s.gn8s ∧
    (writeRidx p v s).heads = s.heads ∧
    (writeRidx p v s).man = s.man ∧
    (writeRidx p v s).engs = s.engs ∧
    (writeRidx p v s).sup = s.sup ∧
    (writeRidx p v s).saf = s.saf ∧
    (writeRidx p v s).pmc = s.pmc ∧
    (writeRidx p v s).dev = s.dev ∧
    (writeRidx p v s).img = s.img ∧
    (writeRidx p v s).pins = s.pins ∧
    (writeRidx p v s).shown = s.shown ∧
    (writeRidx p v s).free = s.free ∧
    (writeRidx p v s).pending = s.pending := by
  unfold writeRidx
  simp [gatedWrite_keeps]

theorem execHostWrridxWrite_keeps (p : HostId) (v : Word) (s : State) (u : State) (h : execHostWrridxWrite p v s =
  .next u) :
    u.bell = s.bell ∧
    u.frame = s.frame ∧
    u.ports = s.ports ∧
    u.rings = s.rings ∧
    u.gn8s = s.gn8s ∧
    u.heads = s.heads ∧
    u.man = s.man ∧
    u.engs = s.engs ∧
    u.sup = s.sup ∧
    u.saf = s.saf ∧
    u.pmc = s.pmc ∧
    u.dev = s.dev ∧
    u.img = s.img ∧
    u.pins = s.pins ∧
    u.shown = s.shown ∧
    u.free = s.free ∧
    u.pending = s.pending := by
  injection h with h
  subst h
  simp [writeRidx_keeps]

theorem execMsixTableWrite_keeps (p : HostId) (i : Fin 32) (v : Word) (s : State) (u : State)
  (h : execMsixTableWrite p i v s = .next u) :
    u.bell = s.bell ∧
    u.frame = s.frame ∧
    u.ports = s.ports ∧
    u.rings = s.rings ∧
    u.gn8s = s.gn8s ∧
    u.heads = s.heads ∧
    u.man = s.man ∧
    u.engs = s.engs ∧
    u.sup = s.sup ∧
    u.saf = s.saf ∧
    u.pmc = s.pmc ∧
    u.dev = s.dev ∧
    u.img = s.img ∧
    u.flt = s.flt ∧
    u.pins = s.pins ∧
    u.shown = s.shown ∧
    u.free = s.free ∧
    u.pending = s.pending := by
  injection h with h
  subst h
  simp [modHost_keeps]

theorem pushRx_keeps (p : HostId) (w : Nat × List (Option Byte)) (s : State) :
    (pushRx p w s).bell = s.bell ∧
    (pushRx p w s).frame = s.frame ∧
    (pushRx p w s).ports = s.ports ∧
    (pushRx p w s).rings = s.rings ∧
    (pushRx p w s).gn8s = s.gn8s ∧
    (pushRx p w s).heads = s.heads ∧
    (pushRx p w s).man = s.man ∧
    (pushRx p w s).engs = s.engs ∧
    (pushRx p w s).sup = s.sup ∧
    (pushRx p w s).saf = s.saf ∧
    (pushRx p w s).pmc = s.pmc ∧
    (pushRx p w s).dev = s.dev ∧
    (pushRx p w s).img = s.img ∧
    (pushRx p w s).flt = s.flt ∧
    (pushRx p w s).pins = s.pins ∧
    (pushRx p w s).shown = s.shown ∧
    (pushRx p w s).free = s.free ∧
    (pushRx p w s).pending = s.pending := by
  unfold pushRx
  simp [modHost_keeps]

theorem popRx_keeps (p : HostId) (s : State) :
    (popRx p s).bell = s.bell ∧
    (popRx p s).frame = s.frame ∧
    (popRx p s).ports = s.ports ∧
    (popRx p s).rings = s.rings ∧
    (popRx p s).gn8s = s.gn8s ∧
    (popRx p s).heads = s.heads ∧
    (popRx p s).man = s.man ∧
    (popRx p s).engs = s.engs ∧
    (popRx p s).sup = s.sup ∧
    (popRx p s).saf = s.saf ∧
    (popRx p s).pmc = s.pmc ∧
    (popRx p s).dev = s.dev ∧
    (popRx p s).img = s.img ∧
    (popRx p s).flt = s.flt ∧
    (popRx p s).pins = s.pins ∧
    (popRx p s).shown = s.shown ∧
    (popRx p s).free = s.free ∧
    (popRx p s).pending = s.pending := by
  unfold popRx
  simp [modHost_keeps]

theorem unsupported_keeps (p : HostId) (s : State) :
    (unsupported p s).bell = s.bell ∧
    (unsupported p s).frame = s.frame ∧
    (unsupported p s).ports = s.ports ∧
    (unsupported p s).rings = s.rings ∧
    (unsupported p s).gn8s = s.gn8s ∧
    (unsupported p s).heads = s.heads ∧
    (unsupported p s).man = s.man ∧
    (unsupported p s).engs = s.engs ∧
    (unsupported p s).sup = s.sup ∧
    (unsupported p s).saf = s.saf ∧
    (unsupported p s).pmc = s.pmc ∧
    (unsupported p s).dev = s.dev ∧
    (unsupported p s).img = s.img ∧
    (unsupported p s).flt = s.flt ∧
    (unsupported p s).pins = s.pins ∧
    (unsupported p s).shown = s.shown ∧
    (unsupported p s).free = s.free ∧
    (unsupported p s).pending = s.pending := by
  unfold unsupported
  simp [modHost_keeps]

theorem poisonedReq_keeps (p : HostId) (s : State) :
    (poisonedReq p s).bell = s.bell ∧
    (poisonedReq p s).frame = s.frame ∧
    (poisonedReq p s).ports = s.ports ∧
    (poisonedReq p s).rings = s.rings ∧
    (poisonedReq p s).gn8s = s.gn8s ∧
    (poisonedReq p s).heads = s.heads ∧
    (poisonedReq p s).man = s.man ∧
    (poisonedReq p s).engs = s.engs ∧
    (poisonedReq p s).sup = s.sup ∧
    (poisonedReq p s).saf = s.saf ∧
    (poisonedReq p s).pmc = s.pmc ∧
    (poisonedReq p s).dev = s.dev ∧
    (poisonedReq p s).img = s.img ∧
    (poisonedReq p s).flt = s.flt ∧
    (poisonedReq p s).pins = s.pins ∧
    (poisonedReq p s).shown = s.shown ∧
    (poisonedReq p s).free = s.free ∧
    (poisonedReq p s).pending = s.pending := by
  unfold poisonedReq
  simp [modHost_keeps]

theorem bar2Store_keeps (p : HostId) (off : Nat) (data : List (Option Byte)) (s : State) :
    (bar2Store p off data s).bell = s.bell ∧
    (bar2Store p off data s).frame = s.frame ∧
    (bar2Store p off data s).ports = s.ports ∧
    (bar2Store p off data s).rings = s.rings ∧
    (bar2Store p off data s).gn8s = s.gn8s ∧
    (bar2Store p off data s).heads = s.heads ∧
    (bar2Store p off data s).man = s.man ∧
    (bar2Store p off data s).engs = s.engs ∧
    (bar2Store p off data s).sup = s.sup ∧
    (bar2Store p off data s).saf = s.saf ∧
    (bar2Store p off data s).pmc = s.pmc ∧
    (bar2Store p off data s).dev = s.dev ∧
    (bar2Store p off data s).img = s.img ∧
    (bar2Store p off data s).pins = s.pins ∧
    (bar2Store p off data s).shown = s.shown ∧
    (bar2Store p off data s).free = s.free ∧
    (bar2Store p off data s).pending = s.pending := by
  unfold bar2Store
  simp [modHost_keeps, sticky_keeps]

theorem bar2Write_keeps (p : HostId) (off : Nat) (data : List (Option Byte)) (poisoned : Bool) (s : State) :
    (bar2Write p off data poisoned s).bell = s.bell ∧
    (bar2Write p off data poisoned s).frame = s.frame ∧
    (bar2Write p off data poisoned s).ports = s.ports ∧
    (bar2Write p off data poisoned s).rings = s.rings ∧
    (bar2Write p off data poisoned s).gn8s = s.gn8s ∧
    (bar2Write p off data poisoned s).heads = s.heads ∧
    (bar2Write p off data poisoned s).man = s.man ∧
    (bar2Write p off data poisoned s).engs = s.engs ∧
    (bar2Write p off data poisoned s).sup = s.sup ∧
    (bar2Write p off data poisoned s).saf = s.saf ∧
    (bar2Write p off data poisoned s).pmc = s.pmc ∧
    (bar2Write p off data poisoned s).dev = s.dev ∧
    (bar2Write p off data poisoned s).img = s.img ∧
    (bar2Write p off data poisoned s).pins = s.pins ∧
    (bar2Write p off data poisoned s).shown = s.shown ∧
    (bar2Write p off data poisoned s).free = s.free ∧
    (bar2Write p off data poisoned s).pending = s.pending := by
  unfold bar2Write
  simp [bar2Store_keeps, poisonedReq_keeps, sticky_keeps, unsupported_keeps, pushRx_keeps, popRx_keeps]

theorem execImageWindowWrite_keeps (p : HostId) (off : BitVec 23) (data : List (Option Byte)) (poisoned : Bool) (s
  : State) (u : State) (h : execImageWindowWrite p off data poisoned s = .next u) :
    u.bell = s.bell ∧
    u.frame = s.frame ∧
    u.ports = s.ports ∧
    u.rings = s.rings ∧
    u.gn8s = s.gn8s ∧
    u.heads = s.heads ∧
    u.man = s.man ∧
    u.engs = s.engs ∧
    u.sup = s.sup ∧
    u.saf = s.saf ∧
    u.pmc = s.pmc ∧
    u.dev = s.dev ∧
    u.img = s.img ∧
    u.pins = s.pins ∧
    u.shown = s.shown ∧
    u.free = s.free ∧
    u.pending = s.pending := by
  injection h with h
  subst h
  simp [bar2Write_keeps]

theorem execMailboxWrite_keeps (p : HostId) (off : BitVec 12) (data : List (Option Byte)) (poisoned : Bool) (s :
  State) (u : State) (h : execMailboxWrite p off data poisoned s = .next u) :
    u.bell = s.bell ∧
    u.frame = s.frame ∧
    u.ports = s.ports ∧
    u.rings = s.rings ∧
    u.gn8s = s.gn8s ∧
    u.heads = s.heads ∧
    u.man = s.man ∧
    u.engs = s.engs ∧
    u.sup = s.sup ∧
    u.saf = s.saf ∧
    u.pmc = s.pmc ∧
    u.dev = s.dev ∧
    u.img = s.img ∧
    u.pins = s.pins ∧
    u.shown = s.shown ∧
    u.free = s.free ∧
    u.pending = s.pending := by
  injection h with h
  subst h
  simp [bar2Write_keeps]

end Sys2Proof.Machine
end

