-- ==== Sys2Proof/Laws/FramePower.lean ====
section
/-! SUPPORT. What each operation of Power.lean (power) leaves unchanged. -/

namespace Sys2Proof.Machine

theorem ringPortLost_keeps (p : Nat) (s : State) :
    (ringPortLost p s).bell = s.bell ∧
    (ringPortLost p s).frame = s.frame ∧
    (ringPortLost p s).rings = s.rings ∧
    (ringPortLost p s).gn8s = s.gn8s ∧
    (ringPortLost p s).heads = s.heads ∧
    (ringPortLost p s).man = s.man ∧
    (ringPortLost p s).engs = s.engs ∧
    (ringPortLost p s).sup = s.sup ∧
    (ringPortLost p s).saf = s.saf ∧
    (ringPortLost p s).pmc = s.pmc ∧
    (ringPortLost p s).dev = s.dev ∧
    (ringPortLost p s).img = s.img ∧
    (ringPortLost p s).pins = s.pins ∧
    (ringPortLost p s).shown = s.shown ∧
    (ringPortLost p s).free = s.free ∧
    (ringPortLost p s).pending = s.pending := by
  unfold ringPortLost
  simp [setPort_keeps, linkDownAt_keeps]

theorem lossEffect_keeps (d : Nat) (s : State) :
    (lossEffect d s).rings = s.rings ∧
    (lossEffect d s).gn8s = s.gn8s ∧
    (lossEffect d s).img = s.img ∧
    (lossEffect d s).pins = s.pins ∧
    (lossEffect d s).shown = s.shown ∧
    (lossEffect d s).free = s.free ∧
    (lossEffect d s).pending = s.pending := by
  unfold lossEffect
  (repeat' split) <;> simp [loseEngDom_keeps, sticky_keeps, ringPortLost_keeps, portLost_keeps, treeDecision_keeps,
    enterSafe_keeps]

theorem loseDomain_keeps (d : Nat) (s : State) :
    (loseDomain d s).rings = s.rings ∧
    (loseDomain d s).gn8s = s.gn8s ∧
    (loseDomain d s).img = s.img ∧
    (loseDomain d s).pins = s.pins ∧
    (loseDomain d s).shown = s.shown ∧
    (loseDomain d s).free = s.free ∧
    (loseDomain d s).pending = s.pending := by
  unfold loseDomain
  simp [modDom_keeps, sticky_keeps, lossEffect_keeps]

theorem startDom_keeps (d : Nat) (s : State) :
    (startDom d s).bell = s.bell ∧
    (startDom d s).frame = s.frame ∧
    (startDom d s).ports = s.ports ∧
    (startDom d s).rings = s.rings ∧
    (startDom d s).gn8s = s.gn8s ∧
    (startDom d s).heads = s.heads ∧
    (startDom d s).man = s.man ∧
    (startDom d s).engs = s.engs ∧
    (startDom d s).sup = s.sup ∧
    (startDom d s).saf = s.saf ∧
    (startDom d s).ha = s.ha ∧
    (startDom d s).hb = s.hb ∧
    (startDom d s).dev = s.dev ∧
    (startDom d s).img = s.img ∧
    (startDom d s).flt = s.flt ∧
    (startDom d s).pins = s.pins ∧
    (startDom d s).shown = s.shown ∧
    (startDom d s).free = s.free ∧
    (startDom d s).pending = s.pending := by
  exact ⟨rfl, rfl, rfl, rfl, rfl, rfl, rfl, rfl, rfl, rfl, rfl, rfl, rfl, rfl, rfl, rfl, rfl, rfl, rfl⟩

theorem startDoms_keeps (l : List Nat) (s : State) :
    (startDoms l s).bell = s.bell ∧
    (startDoms l s).frame = s.frame ∧
    (startDoms l s).ports = s.ports ∧
    (startDoms l s).rings = s.rings ∧
    (startDoms l s).gn8s = s.gn8s ∧
    (startDoms l s).heads = s.heads ∧
    (startDoms l s).man = s.man ∧
    (startDoms l s).engs = s.engs ∧
    (startDoms l s).sup = s.sup ∧
    (startDoms l s).saf = s.saf ∧
    (startDoms l s).ha = s.ha ∧
    (startDoms l s).hb = s.hb ∧
    (startDoms l s).dev = s.dev ∧
    (startDoms l s).img = s.img ∧
    (startDoms l s).flt = s.flt ∧
    (startDoms l s).pins = s.pins ∧
    (startDoms l s).shown = s.shown ∧
    (startDoms l s).free = s.free ∧
    (startDoms l s).pending = s.pending := by
  unfold startDoms
  simp [startDom_keeps]

theorem startStep2_keeps (s : State) :
    (startStep2 s).bell = s.bell ∧
    (startStep2 s).frame = s.frame ∧
    (startStep2 s).ports = s.ports ∧
    (startStep2 s).rings = s.rings ∧
    (startStep2 s).gn8s = s.gn8s ∧
    (startStep2 s).heads = s.heads ∧
    (startStep2 s).man = s.man ∧
    (startStep2 s).engs = s.engs ∧
    (startStep2 s).sup = s.sup ∧
    (startStep2 s).saf = s.saf ∧
    (startStep2 s).ha = s.ha ∧
    (startStep2 s).hb = s.hb ∧
    (startStep2 s).dev = s.dev ∧
    (startStep2 s).img = s.img ∧
    (startStep2 s).flt = s.flt ∧
    (startStep2 s).pins = s.pins ∧
    (startStep2 s).shown = s.shown ∧
    (startStep2 s).free = s.free ∧
    (startStep2 s).pending = s.pending := by
  unfold startStep2
  simp [startDom_keeps]

theorem nextStep3_keeps (sub : Nat) (s : State) :
    (nextStep3 sub s).bell = s.bell ∧
    (nextStep3 sub s).frame = s.frame ∧
    (nextStep3 sub s).ports = s.ports ∧
    (nextStep3 sub s).rings = s.rings ∧
    (nextStep3 sub s).gn8s = s.gn8s ∧
    (nextStep3 sub s).heads = s.heads ∧
    (nextStep3 sub s).man = s.man ∧
    (nextStep3 sub s).engs = s.engs ∧
    (nextStep3 sub s).sup = s.sup ∧
    (nextStep3 sub s).saf = s.saf ∧
    (nextStep3 sub s).ha = s.ha ∧
    (nextStep3 sub s).hb = s.hb ∧
    (nextStep3 sub s).dev = s.dev ∧
    (nextStep3 sub s).img = s.img ∧
    (nextStep3 sub s).flt = s.flt ∧
    (nextStep3 sub s).pins = s.pins ∧
    (nextStep3 sub s).shown = s.shown ∧
    (nextStep3 sub s).free = s.free ∧
    (nextStep3 sub s).pending = s.pending := by
  unfold nextStep3
  (repeat' split) <;> simp [startDoms_keeps]

theorem afterStart_keeps (d : Nat) (s : State) :
    (afterStart d s).bell = s.bell ∧
    (afterStart d s).frame = s.frame ∧
    (afterStart d s).ports = s.ports ∧
    (afterStart d s).rings = s.rings ∧
    (afterStart d s).gn8s = s.gn8s ∧
    (afterStart d s).heads = s.heads ∧
    (afterStart d s).man = s.man ∧
    (afterStart d s).engs = s.engs ∧
    (afterStart d s).sup = s.sup ∧
    (afterStart d s).saf = s.saf ∧
    (afterStart d s).ha = s.ha ∧
    (afterStart d s).hb = s.hb ∧
    (afterStart d s).dev = s.dev ∧
    (afterStart d s).img = s.img ∧
    (afterStart d s).flt = s.flt ∧
    (afterStart d s).pins = s.pins ∧
    (afterStart d s).shown = s.shown ∧
    (afterStart d s).free = s.free ∧
    (afterStart d s).pending = s.pending := by
  unfold afterStart
  (repeat' split) <;> simp [nextStep3_keeps, startStep2_keeps]

theorem proveDom_keeps (k : Nat) (s : State) :
    (proveDom k s).bell = s.bell ∧
    (proveDom k s).frame = s.frame ∧
    (proveDom k s).ports = s.ports ∧
    (proveDom k s).rings = s.rings ∧
    (proveDom k s).gn8s = s.gn8s ∧
    (proveDom k s).heads = s.heads ∧
    (proveDom k s).man = s.man ∧
    (proveDom k s).sup = s.sup ∧
    (proveDom k s).saf = s.saf ∧
    (proveDom k s).ha = s.ha ∧
    (proveDom k s).hb = s.hb ∧
    (proveDom k s).pmc = s.pmc ∧
    (proveDom k s).dev = s.dev ∧
    (proveDom k s).img = s.img ∧
    (proveDom k s).flt = s.flt ∧
    (proveDom k s).pins = s.pins ∧
    (proveDom k s).shown = s.shown ∧
    (proveDom k s).free = s.free ∧
    (proveDom k s).pending = s.pending := by
  unfold proveDom
  refine ⟨?_, ?_, ?_, ?_, ?_, ?_, ?_, ?_, ?_, ?_, ?_, ?_, ?_, ?_, ?_, ?_, ?_, ?_, ?_⟩
  · exact forEach_bell _ _ _ fun e s => by (repeat' split) <;> simp [startWindow_keeps]
  · exact forEach_frame _ _ _ fun e s => by (repeat' split) <;> simp [startWindow_keeps]
  · exact forEach_ports _ _ _ fun e s => by (repeat' split) <;> simp [startWindow_keeps]
  · exact forEach_rings _ _ _ fun e s => by (repeat' split) <;> simp [startWindow_keeps]
  · exact forEach_gn8s _ _ _ fun e s => by (repeat' split) <;> simp [startWindow_keeps]
  · exact forEach_heads _ _ _ fun e s => by (repeat' split) <;> simp [startWindow_keeps]
  · exact forEach_man _ _ _ fun e s => by (repeat' split) <;> simp [startWindow_keeps]
  · exact forEach_sup _ _ _ fun e s => by (repeat' split) <;> simp [startWindow_keeps]
  · exact forEach_saf _ _ _ fun e s => by (repeat' split) <;> simp [startWindow_keeps]
  · exact forEach_ha _ _ _ fun e s => by (repeat' split) <;> simp [startWindow_keeps]
  · exact forEach_hb _ _ _ fun e s => by (repeat' split) <;> simp [startWindow_keeps]
  · exact forEach_pmc _ _ _ fun e s => by (repeat' split) <;> simp [startWindow_keeps]
  · exact forEach_dev _ _ _ fun e s => by (repeat' split) <;> simp [startWindow_keeps]
  · exact forEach_img _ _ _ fun e s => by (repeat' split) <;> simp [startWindow_keeps]
  · exact forEach_flt _ _ _ fun e s => by (repeat' split) <;> simp [startWindow_keeps]
  · exact forEach_pins _ _ _ fun e s => by (repeat' split) <;> simp [startWindow_keeps]
  · exact forEach_shown _ _ _ fun e s => by (repeat' split) <;> simp [startWindow_keeps]
  · exact forEach_free _ _ _ fun e s => by (repeat' split) <;> simp [startWindow_keeps]
  · exact forEach_pending _ _ _ fun e s => by (repeat' split) <;> simp [startWindow_keeps]

theorem execDomainInService_keeps (d : DomIx) (s : State) (u : State) (h : execDomainInService d s = .next u) :
    u.rings = s.rings ∧
    u.gn8s = s.gn8s ∧
    u.img = s.img ∧
    u.pins = s.pins ∧
    u.shown = s.shown ∧
    u.free = s.free ∧
    u.pending = s.pending := by
  unfold execDomainInService at h
  (repeat' split at h) <;> (injection h with h; subst h; simp [afterStart_keeps, proveDom_keeps, loseDomain_keeps,
    modDom_keeps])

theorem execPowerUp_keeps (s : State) (u : State) (h : execPowerUp s = .next u) :
    u.bell = s.bell ∧
    u.frame = s.frame ∧
    u.ports = s.ports ∧
    u.rings = s.rings ∧
    u.gn8s = s.gn8s ∧
    u.heads = s.heads ∧
    u.man = s.man ∧
    u.engs = s.engs ∧
    u.sup = s.sup ∧
    u.saf = s.saf ∧
    u.dev = s.dev ∧
    u.img = s.img ∧
    u.shown = s.shown ∧
    u.free = s.free ∧
    u.pending = s.pending := by
  unfold execPowerUp at h
  (repeat' split at h) <;> (injection h with h; subst h; simp [stickyIf_keeps, startDom_keeps])

theorem execVtrkInRange_keeps (s : State) (u : State) (h : execVtrkInRange s = .next u) :
    u.bell = s.bell ∧
    u.frame = s.frame ∧
    u.ports = s.ports ∧
    u.rings = s.rings ∧
    u.gn8s = s.gn8s ∧
    u.heads = s.heads ∧
    u.man = s.man ∧
    u.engs = s.engs ∧
    u.sup = s.sup ∧
    u.saf = s.saf ∧
    u.ha = s.ha ∧
    u.hb = s.hb ∧
    u.dev = s.dev ∧
    u.img = s.img ∧
    u.flt = s.flt ∧
    u.shown = s.shown ∧
    u.free = s.free ∧
    u.pending = s.pending := by
  injection h with h
  subst h
  simp [startStep2_keeps]

theorem execDomainStartTimeout_keeps (d : DomIx) (s : State) (u : State) (h : execDomainStartTimeout d s = .next u) :
    u.bell = s.bell ∧
    u.frame = s.frame ∧
    u.rings = s.rings ∧
    u.gn8s = s.gn8s ∧
    u.heads = s.heads ∧
    u.man = s.man ∧
    u.engs = s.engs ∧
    u.sup = s.sup ∧
    u.img = s.img ∧
    u.pins = s.pins ∧
    u.shown = s.shown ∧
    u.free = s.free ∧
    u.pending = s.pending := by
  unfold execDomainStartTimeout at h
  dsimp only at h
  (repeat' split at h) <;> (injection h with h; subst h; simp [sticky_keeps, enterSafe_keeps])

theorem execEngDomainStart_keeps (s : State) (u : State) (h : execEngDomainStart s = .next u) :
    u.bell = s.bell ∧
    u.frame = s.frame ∧
    u.ports = s.ports ∧
    u.rings = s.rings ∧
    u.gn8s = s.gn8s ∧
    u.heads = s.heads ∧
    u.man = s.man ∧
    u.engs = s.engs ∧
    u.sup = s.sup ∧
    u.saf = s.saf ∧
    u.ha = s.ha ∧
    u.hb = s.hb ∧
    u.dev = s.dev ∧
    u.img = s.img ∧
    u.flt = s.flt ∧
    u.pins = s.pins ∧
    u.shown = s.shown ∧
    u.free = s.free ∧
    u.pending = s.pending := by
  unfold execEngDomainStart at h
  dsimp only at h
  (repeat' split at h) <;> (injection h with h; subst h; simp [startDom_keeps])

theorem riseReset_keeps (s : State) :
    (riseReset s).bell = s.bell ∧
    (riseReset s).frame = s.frame ∧
    (riseReset s).ports = s.ports ∧
    (riseReset s).rings = s.rings ∧
    (riseReset s).gn8s = s.gn8s ∧
    (riseReset s).heads = s.heads ∧
    (riseReset s).man = s.man ∧
    (riseReset s).engs = s.engs ∧
    (riseReset s).sup = s.sup ∧
    (riseReset s).saf = s.saf ∧
    (riseReset s).ha = s.ha ∧
    (riseReset s).hb = s.hb ∧
    (riseReset s).dev = s.dev ∧
    (riseReset s).img = s.img ∧
    (riseReset s).flt = s.flt ∧
    (riseReset s).shown = s.shown ∧
    (riseReset s).free = s.free ∧
    (riseReset s).pending = s.pending := by
  unfold riseReset
  simp [startStep2_keeps]

theorem execResetNRelease_keeps (s : State) (u : State) (h : execResetNRelease s = .next u) : u.pending = s.pending := by
  injection h with h
  subst h
  (repeat' split) <;> simp [riseReset_keeps, deviceReset, drawFree_keeps]

theorem execEngDomainLoss_keeps (k : Fin 16) (s : State) (u : State) (h : execEngDomainLoss k s = .next u) :
    u.rings = s.rings ∧
    u.gn8s = s.gn8s ∧
    u.img = s.img ∧
    u.pins = s.pins ∧
    u.shown = s.shown ∧
    u.free = s.free ∧
    u.pending = s.pending := by
  injection h with h
  subst h
  simp [loseDomain_keeps]

theorem execTrunkFault_keeps (x : Excursion) (s : State) (u : State) (h : execTrunkFault x s = .next u) :
    u.bell = s.bell ∧
    u.frame = s.frame ∧
    u.rings = s.rings ∧
    u.gn8s = s.gn8s ∧
    u.heads = s.heads ∧
    u.man = s.man ∧
    u.engs = s.engs ∧
    u.sup = s.sup ∧
    u.pmc = s.pmc ∧
    u.img = s.img ∧
    u.shown = s.shown ∧
    u.free = s.free ∧
    u.pending = s.pending := by
  unfold execTrunkFault at h
  (repeat' split at h) <;> (injection h with h; subst h; simp [sticky_keeps, enterSafe_keeps])

theorem execVio33Loss_keeps (s : State) (u : State) (h : execVio33Loss s = .next u) :
    u.bell = s.bell ∧
    u.frame = s.frame ∧
    u.ports = s.ports ∧
    u.rings = s.rings ∧
    u.gn8s = s.gn8s ∧
    u.heads = s.heads ∧
    u.man = s.man ∧
    u.engs = s.engs ∧
    u.sup = s.sup ∧
    u.pmc = s.pmc ∧
    u.dev = s.dev ∧
    u.img = s.img ∧
    u.shown = s.shown ∧
    u.free = s.free ∧
    u.pending = s.pending := by
  injection h with h
  subst h
  simp [driveCheck_keeps]

theorem unpowerPort_keeps (p : Nat) (s : State) :
    (unpowerPort p s).bell = s.bell ∧
    (unpowerPort p s).frame = s.frame ∧
    (unpowerPort p s).rings = s.rings ∧
    (unpowerPort p s).gn8s = s.gn8s ∧
    (unpowerPort p s).heads = s.heads ∧
    (unpowerPort p s).man = s.man ∧
    (unpowerPort p s).engs = s.engs ∧
    (unpowerPort p s).sup = s.sup ∧
    (unpowerPort p s).saf = s.saf ∧
    (unpowerPort p s).pmc = s.pmc ∧
    (unpowerPort p s).dev = s.dev ∧
    (unpowerPort p s).img = s.img ∧
    (unpowerPort p s).pins = s.pins ∧
    (unpowerPort p s).shown = s.shown ∧
    (unpowerPort p s).free = s.free ∧
    (unpowerPort p s).pending = s.pending := by
  unfold unpowerPort
  simp [linkDownAt_keeps, modPort_keeps]

theorem execVlnkLoss_keeps (s : State) (u : State) (h : execVlnkLoss s = .next u) :
    u.bell = s.bell ∧
    u.frame = s.frame ∧
    u.rings = s.rings ∧
    u.gn8s = s.gn8s ∧
    u.heads = s.heads ∧
    u.man = s.man ∧
    u.engs = s.engs ∧
    u.sup = s.sup ∧
    u.saf = s.saf ∧
    u.pmc = s.pmc ∧
    u.dev = s.dev ∧
    u.img = s.img ∧
    u.shown = s.shown ∧
    u.free = s.free ∧
    u.pending = s.pending := by
  injection h with h
  subst h
  simp [driveRing_keeps, unpowerPort_keeps]

theorem execVpciLoss_keeps (vph18 : Bool) (s : State) (u : State) (h : execVpciLoss vph18 s = .next u) :
    u.bell = s.bell ∧
    u.frame = s.frame ∧
    u.ports = s.ports ∧
    u.rings = s.rings ∧
    u.gn8s = s.gn8s ∧
    u.heads = s.heads ∧
    u.man = s.man ∧
    u.engs = s.engs ∧
    u.sup = s.sup ∧
    u.saf = s.saf ∧
    u.pmc = s.pmc ∧
    u.dev = s.dev ∧
    u.img = s.img ∧
    u.shown = s.shown ∧
    u.free = s.free ∧
    u.pending = s.pending := by
  injection h with h
  subst h
  (repeat' split) <;> simp [dropLink_keeps]

theorem failMonitor_keeps (d : Nat) (m : Side) (s : State) :
    (failMonitor d m s).rings = s.rings ∧
    (failMonitor d m s).gn8s = s.gn8s ∧
    (failMonitor d m s).img = s.img ∧
    (failMonitor d m s).pins = s.pins ∧
    (failMonitor d m s).shown = s.shown ∧
    (failMonitor d m s).free = s.free ∧
    (failMonitor d m s).pending = s.pending := by
  unfold failMonitor
  simp [loseDomain_keeps, modDom_keeps]

theorem execMonitorExcursion_keeps (d : DomIx) (m : Side) (x : Option Excursion) (s : State) (u : State) (h :
  execMonitorExcursion d m x s = .next u) :
    u.rings = s.rings ∧
    u.gn8s = s.gn8s ∧
    u.img = s.img ∧
    u.pins = s.pins ∧
    u.shown = s.shown ∧
    u.free = s.free ∧
    u.pending = s.pending := by
  unfold execMonitorExcursion at h
  (repeat' split at h) <;> (injection h with h; subst h; simp [sticky_keeps, loseDomain_keeps, modDom_keeps])

theorem execMonitorDisagreement_keeps (d : DomIx) (m : Side) (s : State) (u : State)
  (h : execMonitorDisagreement d m s = .next u) :
    u.rings = s.rings ∧
    u.gn8s = s.gn8s ∧
    u.img = s.img ∧
    u.pins = s.pins ∧
    u.shown = s.shown ∧
    u.free = s.free ∧
    u.pending = s.pending := by
  injection h with h
  subst h
  simp [sticky_keeps, failMonitor_keeps]

theorem execTieTest_keeps (s : State) (u : State) (h : execTieTest s = .next u) :
    u.bell = s.bell ∧
    u.frame = s.frame ∧
    u.ports = s.ports ∧
    u.rings = s.rings ∧
    u.gn8s = s.gn8s ∧
    u.heads = s.heads ∧
    u.man = s.man ∧
    u.engs = s.engs ∧
    u.sup = s.sup ∧
    u.saf = s.saf ∧
    u.ha = s.ha ∧
    u.hb = s.hb ∧
    u.dev = s.dev ∧
    u.img = s.img ∧
    u.flt = s.flt ∧
    u.pins = s.pins ∧
    u.shown = s.shown ∧
    u.free = s.free ∧
    u.pending = s.pending := by
  unfold execTieTest at h
  (repeat' split at h) <;> (injection h with h; subst h; simp)

theorem execTieTestEnd_keeps (pass : Bool) (s : State) (u : State) (h : execTieTestEnd pass s = .next u) :
    u.rings = s.rings ∧
    u.gn8s = s.gn8s ∧
    u.img = s.img ∧
    u.pins = s.pins ∧
    u.shown = s.shown ∧
    u.free = s.free ∧
    u.pending = s.pending := by
  unfold execTieTestEnd at h
  (repeat' split at h) <;> (injection h with h; subst h; simp [sticky_keeps, failMonitor_keeps])

theorem dacTick_keeps (bad : Bool) (s : State) :
    (dacTick bad s).rings = s.rings ∧
    (dacTick bad s).gn8s = s.gn8s ∧
    (dacTick bad s).img = s.img ∧
    (dacTick bad s).pins = s.pins ∧
    (dacTick bad s).shown = s.shown ∧
    (dacTick bad s).free = s.free ∧
    (dacTick bad s).pending = s.pending := by
  unfold dacTick
  simp [sticky_keeps, failMonitor_keeps]

theorem disablePhase_keeps (d p : Nat) (s : State) :
    (disablePhase d p s).rings = s.rings ∧
    (disablePhase d p s).gn8s = s.gn8s ∧
    (disablePhase d p s).img = s.img ∧
    (disablePhase d p s).pins = s.pins ∧
    (disablePhase d p s).shown = s.shown ∧
    (disablePhase d p s).free = s.free ∧
    (disablePhase d p s).pending = s.pending := by
  unfold disablePhase
  simp [loseDomain_keeps, sticky_keeps, modDom_keeps]

theorem execInterlockEvent_keeps (d : DomIx) (ph : Fin 4) (s : State) (u : State)
  (h : execInterlockEvent d ph s = .next u) :
    u.rings = s.rings ∧
    u.gn8s = s.gn8s ∧
    u.img = s.img ∧
    u.pins = s.pins ∧
    u.shown = s.shown ∧
    u.free = s.free ∧
    u.pending = s.pending := by
  unfold execInterlockEvent at h
  (repeat' split at h) <;> (injection h with h; subst h; simp [disablePhase_keeps, modDom_keeps, sticky_keeps])

theorem execPhaseIlim_keeps (d : DomIx) (ph : Fin 4) (s : State) (u : State) (h : execPhaseIlim d ph s = .next u) :
    u.bell = s.bell ∧
    u.frame = s.frame ∧
    u.ports = s.ports ∧
    u.rings = s.rings ∧
    u.gn8s = s.gn8s ∧
    u.heads = s.heads ∧
    u.man = s.man ∧
    u.engs = s.engs ∧
    u.sup = s.sup ∧
    u.saf = s.saf ∧
    u.pmc = s.pmc ∧
    u.dev = s.dev ∧
    u.img = s.img ∧
    u.pins = s.pins ∧
    u.shown = s.shown ∧
    u.free = s.free ∧
    u.pending = s.pending := by
  injection h with h
  subst h
  simp [stickyIf_keeps]

theorem oscTick_keeps (l : List (Nat × Nat)) (s : State) :
    (oscTick l s).rings = s.rings ∧
    (oscTick l s).gn8s = s.gn8s ∧
    (oscTick l s).img = s.img ∧
    (oscTick l s).pins = s.pins ∧
    (oscTick l s).shown = s.shown ∧
    (oscTick l s).free = s.free ∧
    (oscTick l s).pending = s.pending := by
  unfold oscTick
  simp [sticky_keeps, disablePhase_keeps]

theorem governDom_keeps (k : Nat) (l : List Nat) (s : State) :
    (governDom k l s).bell = s.bell ∧
    (governDom k l s).frame = s.frame ∧
    (governDom k l s).ports = s.ports ∧
    (governDom k l s).rings = s.rings ∧
    (governDom k l s).gn8s = s.gn8s ∧
    (governDom k l s).heads = s.heads ∧
    (governDom k l s).man = s.man ∧
    (governDom k l s).engs = s.engs ∧
    (governDom k l s).sup = s.sup ∧
    (governDom k l s).saf = s.saf ∧
    (governDom k l s).dev = s.dev ∧
    (governDom k l s).img = s.img ∧
    (governDom k l s).pins = s.pins ∧
    (governDom k l s).shown = s.shown ∧
    (governDom k l s).free = s.free ∧
    (governDom k l s).pending = s.pending := by
  unfold governDom
  simp [setDom_keeps, sticky_keeps, modDom_keeps]

theorem governAll_keeps (serving : List Nat) (s : State) :
    (governAll serving s).bell = s.bell ∧
    (governAll serving s).frame = s.frame ∧
    (governAll serving s).ports = s.ports ∧
    (governAll serving s).rings = s.rings ∧
    (governAll serving s).gn8s = s.gn8s ∧
    (governAll serving s).heads = s.heads ∧
    (governAll serving s).man = s.man ∧
    (governAll serving s).engs = s.engs ∧
    (governAll serving s).sup = s.sup ∧
    (governAll serving s).saf = s.saf ∧
    (governAll serving s).dev = s.dev ∧
    (governAll serving s).img = s.img ∧
    (governAll serving s).pins = s.pins ∧
    (governAll serving s).shown = s.shown ∧
    (governAll serving s).free = s.free ∧
    (governAll serving s).pending = s.pending := by
  unfold governAll
  simp [governDom_keeps]

theorem enterTherm_keeps (t : ThermState) (s : State) :
    (enterTherm t s).bell = s.bell ∧
    (enterTherm t s).frame = s.frame ∧
    (enterTherm t s).rings = s.rings ∧
    (enterTherm t s).gn8s = s.gn8s ∧
    (enterTherm t s).heads = s.heads ∧
    (enterTherm t s).man = s.man ∧
    (enterTherm t s).engs = s.engs ∧
    (enterTherm t s).sup = s.sup ∧
    (enterTherm t s).pmc = s.pmc ∧
    (enterTherm t s).img = s.img ∧
    (enterTherm t s).pins = s.pins ∧
    (enterTherm t s).shown = s.shown ∧
    (enterTherm t s).free = s.free ∧
    (enterTherm t s).pending = s.pending := by
  unfold enterTherm
  (repeat' split) <;> simp [enterSafe_keeps, sticky_keeps]

theorem thermTransition_keeps (t : ThermState) (s : State) :
    (thermTransition t s).bell = s.bell ∧
    (thermTransition t s).frame = s.frame ∧
    (thermTransition t s).rings = s.rings ∧
    (thermTransition t s).gn8s = s.gn8s ∧
    (thermTransition t s).heads = s.heads ∧
    (thermTransition t s).man = s.man ∧
    (thermTransition t s).engs = s.engs ∧
    (thermTransition t s).sup = s.sup ∧
    (thermTransition t s).img = s.img ∧
    (thermTransition t s).pins = s.pins ∧
    (thermTransition t s).shown = s.shown ∧
    (thermTransition t s).free = s.free ∧
    (thermTransition t s).pending = s.pending := by
  unfold thermTransition
  simp [enterTherm_keeps, stickyIf_keeps]

theorem seeTherm_keeps (s : State) :
    (seeTherm s).bell = s.bell ∧
    (seeTherm s).frame = s.frame ∧
    (seeTherm s).ports = s.ports ∧
    (seeTherm s).rings = s.rings ∧
    (seeTherm s).gn8s = s.gn8s ∧
    (seeTherm s).heads = s.heads ∧
    (seeTherm s).man = s.man ∧
    (seeTherm s).engs = s.engs ∧
    (seeTherm s).sup = s.sup ∧
    (seeTherm s).saf = s.saf ∧
    (seeTherm s).ha = s.ha ∧
    (seeTherm s).hb = s.hb ∧
    (seeTherm s).dev = s.dev ∧
    (seeTherm s).img = s.img ∧
    (seeTherm s).flt = s.flt ∧
    (seeTherm s).pins = s.pins ∧
    (seeTherm s).shown = s.shown ∧
    (seeTherm s).free = s.free ∧
    (seeTherm s).pending = s.pending := by
  exact ⟨rfl, rfl, rfl, rfl, rfl, rfl, rfl, rfl, rfl, rfl, rfl, rfl, rfl, rfl, rfl, rfl, rfl, rfl, rfl⟩

theorem execThermalStateChange_keeps (s : State) (u : State) (h : execThermalStateChange s = .next u) :
    u.bell = s.bell ∧
    u.frame = s.frame ∧
    u.rings = s.rings ∧
    u.gn8s = s.gn8s ∧
    u.heads = s.heads ∧
    u.man = s.man ∧
    u.engs = s.engs ∧
    u.sup = s.sup ∧
    u.img = s.img ∧
    u.pins = s.pins ∧
    u.shown = s.shown ∧
    u.free = s.free ∧
    u.pending = s.pending := by
  injection h with h
  subst h
  simp [thermTransition_keeps, seeTherm_keeps]

theorem thermTick_keeps (temps : List Int) (s : State) :
    (thermTick temps s).bell = s.bell ∧
    (thermTick temps s).frame = s.frame ∧
    (thermTick temps s).rings = s.rings ∧
    (thermTick temps s).gn8s = s.gn8s ∧
    (thermTick temps s).heads = s.heads ∧
    (thermTick temps s).man = s.man ∧
    (thermTick temps s).engs = s.engs ∧
    (thermTick temps s).sup = s.sup ∧
    (thermTick temps s).img = s.img ∧
    (thermTick temps s).pins = s.pins ∧
    (thermTick temps s).shown = s.shown ∧
    (thermTick temps s).free = s.free ∧
    (thermTick temps s).pending = s.pending := by
  unfold thermTick
  simp [enterSafe_keeps, thermTransition_keeps, stickyIf_keeps]

theorem clearHover_keeps (s : State) :
    (clearHover s).bell = s.bell ∧
    (clearHover s).frame = s.frame ∧
    (clearHover s).ports = s.ports ∧
    (clearHover s).rings = s.rings ∧
    (clearHover s).gn8s = s.gn8s ∧
    (clearHover s).heads = s.heads ∧
    (clearHover s).man = s.man ∧
    (clearHover s).engs = s.engs ∧
    (clearHover s).sup = s.sup ∧
    (clearHover s).saf = s.saf ∧
    (clearHover s).ha = s.ha ∧
    (clearHover s).hb = s.hb ∧
    (clearHover s).dev = s.dev ∧
    (clearHover s).img = s.img ∧
    (clearHover s).flt = s.flt ∧
    (clearHover s).pins = s.pins ∧
    (clearHover s).shown = s.shown ∧
    (clearHover s).free = s.free ∧
    (clearHover s).pending = s.pending := by
  exact ⟨rfl, rfl, rfl, rfl, rfl, rfl, rfl, rfl, rfl, rfl, rfl, rfl, rfl, rfl, rfl, rfl, rfl, rfl, rfl⟩

theorem measureTick_keeps (w : TickIn) (s : State) :
    (measureTick w s).bell = s.bell ∧
    (measureTick w s).frame = s.frame ∧
    (measureTick w s).ports = s.ports ∧
    (measureTick w s).rings = s.rings ∧
    (measureTick w s).gn8s = s.gn8s ∧
    (measureTick w s).heads = s.heads ∧
    (measureTick w s).man = s.man ∧
    (measureTick w s).engs = s.engs ∧
    (measureTick w s).sup = s.sup ∧
    (measureTick w s).saf = s.saf ∧
    (measureTick w s).ha = s.ha ∧
    (measureTick w s).hb = s.hb ∧
    (measureTick w s).dev = s.dev ∧
    (measureTick w s).img = s.img ∧
    (measureTick w s).flt = s.flt ∧
    (measureTick w s).pins = s.pins ∧
    (measureTick w s).shown = s.shown ∧
    (measureTick w s).free = s.free ∧
    (measureTick w s).pending = s.pending := by
  unfold measureTick
  (repeat' split) <;> simp [modDom_keeps]

theorem pmcTick_keeps (w : TickIn) (s : State) :
    (pmcTick w s).rings = s.rings ∧
    (pmcTick w s).gn8s = s.gn8s ∧
    (pmcTick w s).img = s.img ∧
    (pmcTick w s).pins = s.pins ∧
    (pmcTick w s).shown = s.shown ∧
    (pmcTick w s).free = s.free ∧
    (pmcTick w s).pending = s.pending := by
  unfold pmcTick
  simp [measureTick_keeps, oscTick_keeps, dacTick_keeps, thermTick_keeps, seeTick_keeps]

end Sys2Proof.Machine
end

