-- ==== Sys2Proof/Laws/FrameImage.lean ====
section
/-! SUPPORT. What each operation of Image.lean (image load) leaves unchanged. -/

namespace Sys2Proof.Machine

theorem refuseLoad_keeps (code : Nat) (s : State) :
    (refuseLoad code s).bell = s.bell ∧
    (refuseLoad code s).frame = s.frame ∧
    (refuseLoad code s).ports = s.ports ∧
    (refuseLoad code s).rings = s.rings ∧
    (refuseLoad code s).gn8s = s.gn8s ∧
    (refuseLoad code s).heads = s.heads ∧
    (refuseLoad code s).man = s.man ∧
    (refuseLoad code s).engs = s.engs ∧
    (refuseLoad code s).sup = s.sup ∧
    (refuseLoad code s).saf = s.saf ∧
    (refuseLoad code s).pmc = s.pmc ∧
    (refuseLoad code s).dev = s.dev ∧
    (refuseLoad code s).pins = s.pins ∧
    (refuseLoad code s).shown = s.shown ∧
    (refuseLoad code s).free = s.free ∧
    (refuseLoad code s).pending = s.pending := by
  unfold refuseLoad
  simp [sticky_keeps]

theorem loadWrite_keeps (p : HostId) (s : State) :
    (loadWrite p s).bell = s.bell ∧
    (loadWrite p s).frame = s.frame ∧
    (loadWrite p s).ports = s.ports ∧
    (loadWrite p s).rings = s.rings ∧
    (loadWrite p s).gn8s = s.gn8s ∧
    (loadWrite p s).heads = s.heads ∧
    (loadWrite p s).man = s.man ∧
    (loadWrite p s).engs = s.engs ∧
    (loadWrite p s).sup = s.sup ∧
    (loadWrite p s).saf = s.saf ∧
    (loadWrite p s).pmc = s.pmc ∧
    (loadWrite p s).dev = s.dev ∧
    (loadWrite p s).pins = s.pins ∧
    (loadWrite p s).shown = s.shown ∧
    (loadWrite p s).free = s.free ∧
    (loadWrite p s).pending = s.pending := by
  unfold loadWrite
  simp [refuseLoad_keeps]

theorem execImgLoad_keeps (p : HostId) (s : State) (u : State) (h : execImgLoad p s = .next u) :
    u.bell = s.bell ∧
    u.frame = s.frame ∧
    u.ports = s.ports ∧
    u.rings = s.rings ∧
    u.gn8s = s.gn8s ∧
    u.heads = s.heads ∧
    u.man = s.man ∧
    u.engs = s.engs ∧
    u.sup = s.sup ∧
    u.saf = s.saf ∧
    u.pmc = s.pmc ∧
    u.dev = s.dev ∧
    u.pins = s.pins ∧
    u.shown = s.shown ∧
    u.free = s.free ∧
    u.pending = s.pending := by
  injection h with h
  subst h
  simp [loadWrite_keeps]

theorem failLoad_keeps (code : Nat) (s : State) :
    (failLoad code s).bell = s.bell ∧
    (failLoad code s).frame = s.frame ∧
    (failLoad code s).ports = s.ports ∧
    (failLoad code s).rings = s.rings ∧
    (failLoad code s).gn8s = s.gn8s ∧
    (failLoad code s).heads = s.heads ∧
    (failLoad code s).man = s.man ∧
    (failLoad code s).engs = s.engs ∧
    (failLoad code s).saf = s.saf ∧
    (failLoad code s).pmc = s.pmc ∧
    (failLoad code s).dev = s.dev ∧
    (failLoad code s).pins = s.pins ∧
    (failLoad code s).shown = s.shown ∧
    (failLoad code s).free = s.free ∧
    (failLoad code s).pending = s.pending := by
  unfold failLoad
  simp [sticky_keeps, raiseBoth_keeps]

theorem execImageCheckComplete_keeps (s : State) (u : State) (h : execImageCheckComplete s = .next u) :
    u.bell = s.bell ∧
    u.frame = s.frame ∧
    u.ports = s.ports ∧
    u.rings = s.rings ∧
    u.gn8s = s.gn8s ∧
    u.heads = s.heads ∧
    u.man = s.man ∧
    u.engs = s.engs ∧
    u.saf = s.saf ∧
    u.pmc = s.pmc ∧
    u.dev = s.dev ∧
    u.pins = s.pins ∧
    u.shown = s.shown ∧
    u.free = s.free ∧
    u.pending = s.pending := by
  unfold execImageCheckComplete at h
  (repeat' split at h) <;> (injection h with h; subst h; simp [failLoad_keeps])

theorem execImageDistributionComplete_keeps (mismatch : Bool) (s : State) (u : State) (h :
  execImageDistributionComplete mismatch s = .next u) :
    u.bell = s.bell ∧
    u.frame = s.frame ∧
    u.ports = s.ports ∧
    u.rings = s.rings ∧
    u.gn8s = s.gn8s ∧
    u.heads = s.heads ∧
    u.man = s.man ∧
    u.engs = s.engs ∧
    u.saf = s.saf ∧
    u.pmc = s.pmc ∧
    u.dev = s.dev ∧
    u.pins = s.pins ∧
    u.shown = s.shown ∧
    u.free = s.free ∧
    u.pending = s.pending := by
  unfold execImageDistributionComplete at h
  (repeat' split at h) <;> (injection h with h; subst h; simp [raiseBoth_keeps, failLoad_keeps])

end Sys2Proof.Machine
end

