-- ==== Sys2Proof/Laws/FrameFault.lean ====
section
/-! SUPPORT. What each operation of Fault.lean (fault record) leaves unchanged. -/

namespace Sys2Proof.Machine

theorem parityReport_keeps (r : Fin 18 × Fin 512 × Fin 32) (s : State) :
    (parityReport r s).bell = s.bell ∧
    (parityReport r s).frame = s.frame ∧
    (parityReport r s).ports = s.ports ∧
    (parityReport r s).rings = s.rings ∧
    (parityReport r s).gn8s = s.gn8s ∧
    (parityReport r s).heads = s.heads ∧
    (parityReport r s).man = s.man ∧
    (parityReport r s).engs = s.engs ∧
    (parityReport r s).sup = s.sup ∧
    (parityReport r s).saf = s.saf ∧
    (parityReport r s).pmc = s.pmc ∧
    (parityReport r s).dev = s.dev ∧
    (parityReport r s).img = s.img ∧
    (parityReport r s).pins = s.pins ∧
    (parityReport r s).shown = s.shown ∧
    (parityReport r s).free = s.free ∧
    (parityReport r s).pending = s.pending := by
  unfold parityReport
  simp [sendReport_keeps, sticky_keeps]

theorem reportTick_keeps (r : Option (Fin 18 × Fin 512 × Fin 32)) (s : State) :
    (reportTick r s).bell = s.bell ∧
    (reportTick r s).frame = s.frame ∧
    (reportTick r s).ports = s.ports ∧
    (reportTick r s).rings = s.rings ∧
    (reportTick r s).gn8s = s.gn8s ∧
    (reportTick r s).heads = s.heads ∧
    (reportTick r s).man = s.man ∧
    (reportTick r s).engs = s.engs ∧
    (reportTick r s).sup = s.sup ∧
    (reportTick r s).saf = s.saf ∧
    (reportTick r s).pmc = s.pmc ∧
    (reportTick r s).dev = s.dev ∧
    (reportTick r s).img = s.img ∧
    (reportTick r s).pins = s.pins ∧
    (reportTick r s).shown = s.shown ∧
    (reportTick r s).free = s.free ∧
    (reportTick r s).pending = s.pending := by
  unfold reportTick
  cases r <;> simp [parityReport_keeps]

theorem execFaultReport_keeps (s : State) (u : State) (h : execFaultReport s = .next u) :
    u.bell = s.bell ∧
    u.frame = s.frame ∧
    u.ports = s.ports ∧
    u.rings = s.rings ∧
    u.gn8s = s.gn8s ∧
    u.heads = s.heads ∧
    u.man = s.man ∧
    u.engs = s.engs ∧
    u.sup = s.sup ∧
    u.saf = s.saf ∧
    u.pmc = s.pmc ∧
    u.dev = s.dev ∧
    u.img = s.img ∧
    u.pins = s.pins ∧
    u.shown = s.shown ∧
    u.free = s.free ∧
    u.pending = s.pending := by
  injection h with h
  subst h
  split <;> simp [deliver_keeps]

theorem clearFirst_keeps (s : State) :
    (clearFirst s).bell = s.bell ∧
    (clearFirst s).frame = s.frame ∧
    (clearFirst s).ports = s.ports ∧
    (clearFirst s).rings = s.rings ∧
    (clearFirst s).gn8s = s.gn8s ∧
    (clearFirst s).heads = s.heads ∧
    (clearFirst s).man = s.man ∧
    (clearFirst s).engs = s.engs ∧
    (clearFirst s).sup = s.sup ∧
    (clearFirst s).saf = s.saf ∧
    (clearFirst s).ha = s.ha ∧
    (clearFirst s).hb = s.hb ∧
    (clearFirst s).pmc = s.pmc ∧
    (clearFirst s).dev = s.dev ∧
    (clearFirst s).img = s.img ∧
    (clearFirst s).pins = s.pins ∧
    (clearFirst s).shown = s.shown ∧
    (clearFirst s).free = s.free ∧
    (clearFirst s).pending = s.pending := by
  exact ⟨rfl, rfl, rfl, rfl, rfl, rfl, rfl, rfl, rfl, rfl, rfl, rfl, rfl, rfl, rfl, rfl, rfl, rfl, rfl⟩

theorem execClrfirst_keeps (p : HostId) (s : State) (u : State) (h : execClrfirst p s = .next u) :
    u.bell = s.bell ∧
    u.frame = s.frame ∧
    u.ports = s.ports ∧
    u.rings = s.rings ∧
    u.gn8s = s.gn8s ∧
    u.heads = s.heads ∧
    u.man = s.man ∧
    u.engs = s.engs ∧
    u.sup = s.sup ∧
    u.saf = s.saf ∧
    u.ha = s.ha ∧
    u.hb = s.hb ∧
    u.pmc = s.pmc ∧
    u.dev = s.dev ∧
    u.img = s.img ∧
    u.pins = s.pins ∧
    u.shown = s.shown ∧
    u.free = s.free ∧
    u.pending = s.pending := by
  injection h with h
  subst h
  simp [clearFirst_keeps]

theorem sideClear_keeps (cls : Nat) (mask : Word) (s : State) :
    (sideClear cls mask s).frame = s.frame ∧
    (sideClear cls mask s).ports = s.ports ∧
    (sideClear cls mask s).rings = s.rings ∧
    (sideClear cls mask s).gn8s = s.gn8s ∧
    (sideClear cls mask s).heads = s.heads ∧
    (sideClear cls mask s).man = s.man ∧
    (sideClear cls mask s).engs = s.engs ∧
    (sideClear cls mask s).sup = s.sup ∧
    (sideClear cls mask s).saf = s.saf ∧
    (sideClear cls mask s).ha = s.ha ∧
    (sideClear cls mask s).hb = s.hb ∧
    (sideClear cls mask s).dev = s.dev ∧
    (sideClear cls mask s).img = s.img ∧
    (sideClear cls mask s).flt = s.flt ∧
    (sideClear cls mask s).pins = s.pins ∧
    (sideClear cls mask s).shown = s.shown ∧
    (sideClear cls mask s).free = s.free ∧
    (sideClear cls mask s).pending = s.pending := by
  unfold sideClear
  simp [clearHover_keeps]

theorem persist_keeps (s : State) :
    (persist s).bell = s.bell ∧
    (persist s).frame = s.frame ∧
    (persist s).ports = s.ports ∧
    (persist s).rings = s.rings ∧
    (persist s).gn8s = s.gn8s ∧
    (persist s).heads = s.heads ∧
    (persist s).man = s.man ∧
    (persist s).engs = s.engs ∧
    (persist s).sup = s.sup ∧
    (persist s).saf = s.saf ∧
    (persist s).pmc = s.pmc ∧
    (persist s).dev = s.dev ∧
    (persist s).img = s.img ∧
    (persist s).pins = s.pins ∧
    (persist s).shown = s.shown ∧
    (persist s).free = s.free ∧
    (persist s).pending = s.pending := by
  unfold persist
  simp [stickyIf_keeps, sticky_keeps]

theorem w1c_keeps (p : HostId) (cls ix : Nat) (mask : Word) (s : State) :
    (w1c p cls ix mask s).frame = s.frame ∧
    (w1c p cls ix mask s).ports = s.ports ∧
    (w1c p cls ix mask s).rings = s.rings ∧
    (w1c p cls ix mask s).gn8s = s.gn8s ∧
    (w1c p cls ix mask s).heads = s.heads ∧
    (w1c p cls ix mask s).man = s.man ∧
    (w1c p cls ix mask s).engs = s.engs ∧
    (w1c p cls ix mask s).sup = s.sup ∧
    (w1c p cls ix mask s).saf = s.saf ∧
    (w1c p cls ix mask s).dev = s.dev ∧
    (w1c p cls ix mask s).img = s.img ∧
    (w1c p cls ix mask s).pins = s.pins ∧
    (w1c p cls ix mask s).shown = s.shown ∧
    (w1c p cls ix mask s).free = s.free ∧
    (w1c p cls ix mask s).pending = s.pending := by
  unfold w1c
  simp [persist_keeps, clearFlt_keeps, sideClear_keeps]

theorem execW1cClear_keeps (p : HostId) (cls : Fin 18) (ix : Fin 512) (mask : Word) (s : State) (u : State) (h :
  execW1cClear p cls ix mask s = .next u) :
    u.frame = s.frame ∧
    u.ports = s.ports ∧
    u.rings = s.rings ∧
    u.gn8s = s.gn8s ∧
    u.heads = s.heads ∧
    u.man = s.man ∧
    u.engs = s.engs ∧
    u.sup = s.sup ∧
    u.saf = s.saf ∧
    u.dev = s.dev ∧
    u.img = s.img ∧
    u.pins = s.pins ∧
    u.shown = s.shown ∧
    u.free = s.free ∧
    u.pending = s.pending := by
  injection h with h
  subst h
  simp [w1c_keeps]

theorem execThermHoverClear_keeps (p : HostId) (s : State) (u : State) (h : execThermHoverClear p s = .next u) :
    u.frame = s.frame ∧
    u.ports = s.ports ∧
    u.rings = s.rings ∧
    u.gn8s = s.gn8s ∧
    u.heads = s.heads ∧
    u.man = s.man ∧
    u.engs = s.engs ∧
    u.sup = s.sup ∧
    u.saf = s.saf ∧
    u.dev = s.dev ∧
    u.img = s.img ∧
    u.pins = s.pins ∧
    u.shown = s.shown ∧
    u.free = s.free ∧
    u.pending = s.pending := by
  injection h with h
  subst h
  simp [w1c_keeps]

theorem releaseFaultN_keeps (s : State) :
    (releaseFaultN s).bell = s.bell ∧
    (releaseFaultN s).frame = s.frame ∧
    (releaseFaultN s).ports = s.ports ∧
    (releaseFaultN s).rings = s.rings ∧
    (releaseFaultN s).gn8s = s.gn8s ∧
    (releaseFaultN s).heads = s.heads ∧
    (releaseFaultN s).man = s.man ∧
    (releaseFaultN s).engs = s.engs ∧
    (releaseFaultN s).sup = s.sup ∧
    (releaseFaultN s).saf = s.saf ∧
    (releaseFaultN s).ha = s.ha ∧
    (releaseFaultN s).hb = s.hb ∧
    (releaseFaultN s).pmc = s.pmc ∧
    (releaseFaultN s).dev = s.dev ∧
    (releaseFaultN s).img = s.img ∧
    (releaseFaultN s).pins = s.pins ∧
    (releaseFaultN s).shown = s.shown ∧
    (releaseFaultN s).free = s.free ∧
    (releaseFaultN s).pending = s.pending := by
  exact ⟨rfl, rfl, rfl, rfl, rfl, rfl, rfl, rfl, rfl, rfl, rfl, rfl, rfl, rfl, rfl, rfl, rfl, rfl, rfl⟩

theorem execTestEnChange_keeps (level : Bool) (s : State) (u : State) (h : execTestEnChange level s = .next u) :
    u.bell = s.bell ∧
    u.frame = s.frame ∧
    u.ports = s.ports ∧
    u.rings = s.rings ∧
    u.gn8s = s.gn8s ∧
    u.heads = s.heads ∧
    u.man = s.man ∧
    u.engs = s.engs ∧
    u.sup = s.sup ∧
    u.saf = s.saf ∧
    u.pmc = s.pmc ∧
    u.dev = s.dev ∧
    u.img = s.img ∧
    u.shown = s.shown ∧
    u.free = s.free ∧
    u.pending = s.pending := by
  injection h with h
  subst h
  simp [stickyIf_keeps]

theorem setJtag_keeps (j : Jtag) (s : State) :
    (setJtag j s).bell = s.bell ∧
    (setJtag j s).frame = s.frame ∧
    (setJtag j s).ports = s.ports ∧
    (setJtag j s).rings = s.rings ∧
    (setJtag j s).gn8s = s.gn8s ∧
    (setJtag j s).heads = s.heads ∧
    (setJtag j s).man = s.man ∧
    (setJtag j s).engs = s.engs ∧
    (setJtag j s).sup = s.sup ∧
    (setJtag j s).saf = s.saf ∧
    (setJtag j s).ha = s.ha ∧
    (setJtag j s).hb = s.hb ∧
    (setJtag j s).pmc = s.pmc ∧
    (setJtag j s).dev = s.dev ∧
    (setJtag j s).img = s.img ∧
    (setJtag j s).flt = s.flt ∧
    (setJtag j s).shown = s.shown ∧
    (setJtag j s).free = s.free ∧
    (setJtag j s).pending = s.pending := by
  unfold setJtag
  simp

theorem execBypass_keeps (s : State) (u : State) (h : execBypass s = .next u) :
    u.bell = s.bell ∧
    u.frame = s.frame ∧
    u.ports = s.ports ∧
    u.rings = s.rings ∧
    u.gn8s = s.gn8s ∧
    u.heads = s.heads ∧
    u.man = s.man ∧
    u.engs = s.engs ∧
    u.sup = s.sup ∧
    u.saf = s.saf ∧
    u.ha = s.ha ∧
    u.hb = s.hb ∧
    u.pmc = s.pmc ∧
    u.dev = s.dev ∧
    u.img = s.img ∧
    u.flt = s.flt ∧
    u.shown = s.shown ∧
    u.free = s.free ∧
    u.pending = s.pending := by
  injection h with h
  subst h
  simp [setJtag_keeps]

theorem execIdcode_keeps (s : State) (u : State) (h : execIdcode s = .next u) :
    u.bell = s.bell ∧
    u.frame = s.frame ∧
    u.ports = s.ports ∧
    u.rings = s.rings ∧
    u.gn8s = s.gn8s ∧
    u.heads = s.heads ∧
    u.man = s.man ∧
    u.engs = s.engs ∧
    u.sup = s.sup ∧
    u.saf = s.saf ∧
    u.ha = s.ha ∧
    u.hb = s.hb ∧
    u.pmc = s.pmc ∧
    u.dev = s.dev ∧
    u.img = s.img ∧
    u.flt = s.flt ∧
    u.shown = s.shown ∧
    u.free = s.free ∧
    u.pending = s.pending := by
  injection h with h
  subst h
  simp [setJtag_keeps]

theorem execSamplePreload_keeps (s : State) (u : State) (h : execSamplePreload s = .next u) :
    u.bell = s.bell ∧
    u.frame = s.frame ∧
    u.ports = s.ports ∧
    u.rings = s.rings ∧
    u.gn8s = s.gn8s ∧
    u.heads = s.heads ∧
    u.man = s.man ∧
    u.engs = s.engs ∧
    u.sup = s.sup ∧
    u.saf = s.saf ∧
    u.ha = s.ha ∧
    u.hb = s.hb ∧
    u.pmc = s.pmc ∧
    u.dev = s.dev ∧
    u.img = s.img ∧
    u.flt = s.flt ∧
    u.shown = s.shown ∧
    u.free = s.free ∧
    u.pending = s.pending := by
  injection h with h
  subst h
  simp [setJtag_keeps]

theorem execExtest_keeps (s : State) (u : State) (h : execExtest s = .next u) :
    u.bell = s.bell ∧
    u.frame = s.frame ∧
    u.ports = s.ports ∧
    u.rings = s.rings ∧
    u.gn8s = s.gn8s ∧
    u.heads = s.heads ∧
    u.man = s.man ∧
    u.engs = s.engs ∧
    u.sup = s.sup ∧
    u.saf = s.saf ∧
    u.ha = s.ha ∧
    u.hb = s.hb ∧
    u.pmc = s.pmc ∧
    u.dev = s.dev ∧
    u.img = s.img ∧
    u.flt = s.flt ∧
    u.shown = s.shown ∧
    u.free = s.free ∧
    u.pending = s.pending := by
  injection h with h
  subst h
  simp [setJtag_keeps]

theorem execIntest_keeps (s : State) (u : State) (h : execIntest s = .next u) :
    u.bell = s.bell ∧
    u.frame = s.frame ∧
    u.ports = s.ports ∧
    u.rings = s.rings ∧
    u.gn8s = s.gn8s ∧
    u.heads = s.heads ∧
    u.man = s.man ∧
    u.engs = s.engs ∧
    u.sup = s.sup ∧
    u.saf = s.saf ∧
    u.ha = s.ha ∧
    u.hb = s.hb ∧
    u.pmc = s.pmc ∧
    u.dev = s.dev ∧
    u.img = s.img ∧
    u.flt = s.flt ∧
    u.shown = s.shown ∧
    u.free = s.free ∧
    u.pending = s.pending := by
  injection h with h
  subst h
  simp [setJtag_keeps]

theorem execClamp_keeps (s : State) (u : State) (h : execClamp s = .next u) :
    u.bell = s.bell ∧
    u.frame = s.frame ∧
    u.ports = s.ports ∧
    u.rings = s.rings ∧
    u.gn8s = s.gn8s ∧
    u.heads = s.heads ∧
    u.man = s.man ∧
    u.engs = s.engs ∧
    u.sup = s.sup ∧
    u.saf = s.saf ∧
    u.ha = s.ha ∧
    u.hb = s.hb ∧
    u.pmc = s.pmc ∧
    u.dev = s.dev ∧
    u.img = s.img ∧
    u.flt = s.flt ∧
    u.shown = s.shown ∧
    u.free = s.free ∧
    u.pending = s.pending := by
  injection h with h
  subst h
  simp [setJtag_keeps]

end Sys2Proof.Machine
end

