-- ==== Sys2Proof/Laws/FrameMode.lean ====
section
/-! SUPPORT. What each operation of Mode.lean (mode changes) leaves unchanged. -/

namespace Sys2Proof.Machine

theorem requestStart_keeps (s : State) :
    (requestStart s).bell = s.bell ∧
    (requestStart s).frame = s.frame ∧
    (requestStart s).ports = s.ports ∧
    (requestStart s).rings = s.rings ∧
    (requestStart s).gn8s = s.gn8s ∧
    (requestStart s).heads = s.heads ∧
    (requestStart s).man = s.man ∧
    (requestStart s).engs = s.engs ∧
    (requestStart s).sup = s.sup ∧
    (requestStart s).saf = s.saf ∧
    (requestStart s).ha = s.ha ∧
    (requestStart s).hb = s.hb ∧
    (requestStart s).pmc = s.pmc ∧
    (requestStart s).img = s.img ∧
    (requestStart s).flt = s.flt ∧
    (requestStart s).pins = s.pins ∧
    (requestStart s).shown = s.shown ∧
    (requestStart s).free = s.free ∧
    (requestStart s).pending = s.pending := by
  unfold requestStart
  simp []

theorem execStart_keeps (p : HostId) (s : State) (u : State) (h : execStart p s = .next u) :
    u.bell = s.bell ∧
    u.frame = s.frame ∧
    u.ports = s.ports ∧
    u.rings = s.rings ∧
    u.gn8s = s.gn8s ∧
    u.heads = s.heads ∧
    u.man = s.man ∧
    u.engs = s.engs ∧
    u.sup = s.sup ∧
    u.saf = s.saf ∧
    u.ha = s.ha ∧
    u.hb = s.hb ∧
    u.pmc = s.pmc ∧
    u.img = s.img ∧
    u.flt = s.flt ∧
    u.pins = s.pins ∧
    u.shown = s.shown ∧
    u.free = s.free ∧
    u.pending = s.pending := by
  injection h with h
  subst h
  simp [requestStart_keeps]

theorem refuseStart_keeps (bits : Nat) (s : State) :
    (refuseStart bits s).frame = s.frame ∧
    (refuseStart bits s).ports = s.ports ∧
    (refuseStart bits s).rings = s.rings ∧
    (refuseStart bits s).gn8s = s.gn8s ∧
    (refuseStart bits s).heads = s.heads ∧
    (refuseStart bits s).man = s.man ∧
    (refuseStart bits s).engs = s.engs ∧
    (refuseStart bits s).sup = s.sup ∧
    (refuseStart bits s).saf = s.saf ∧
    (refuseStart bits s).pmc = s.pmc ∧
    (refuseStart bits s).img = s.img ∧
    (refuseStart bits s).pins = s.pins ∧
    (refuseStart bits s).shown = s.shown ∧
    (refuseStart bits s).free = s.free ∧
    (refuseStart bits s).pending = s.pending := by
  unfold refuseStart
  simp [sticky_keeps, takeWaits_keeps]

theorem lockBell_keeps (s : State) :
    (lockBell s).frame = s.frame ∧
    (lockBell s).ports = s.ports ∧
    (lockBell s).rings = s.rings ∧
    (lockBell s).gn8s = s.gn8s ∧
    (lockBell s).heads = s.heads ∧
    (lockBell s).man = s.man ∧
    (lockBell s).engs = s.engs ∧
    (lockBell s).sup = s.sup ∧
    (lockBell s).saf = s.saf ∧
    (lockBell s).pmc = s.pmc ∧
    (lockBell s).dev = s.dev ∧
    (lockBell s).img = s.img ∧
    (lockBell s).pins = s.pins ∧
    (lockBell s).shown = s.shown ∧
    (lockBell s).free = s.free ∧
    (lockBell s).pending = s.pending := by
  unfold lockBell
  simp [stickyIf_keeps]

theorem startGroup_keeps (g : Nat) (s : State) :
    (startGroup g s).bell = s.bell ∧
    (startGroup g s).frame = s.frame ∧
    (startGroup g s).ports = s.ports ∧
    (startGroup g s).rings = s.rings ∧
    (startGroup g s).gn8s = s.gn8s ∧
    (startGroup g s).heads = s.heads ∧
    (startGroup g s).man = s.man ∧
    (startGroup g s).engs = s.engs ∧
    (startGroup g s).sup = s.sup ∧
    (startGroup g s).ha = s.ha ∧
    (startGroup g s).hb = s.hb ∧
    (startGroup g s).pmc = s.pmc ∧
    (startGroup g s).dev = s.dev ∧
    (startGroup g s).img = s.img ∧
    (startGroup g s).flt = s.flt ∧
    (startGroup g s).pins = s.pins ∧
    (startGroup g s).shown = s.shown ∧
    (startGroup g s).free = s.free ∧
    (startGroup g s).pending = s.pending := by
  exact ⟨rfl, rfl, rfl, rfl, rfl, rfl, rfl, rfl, rfl, rfl, rfl, rfl, rfl, rfl, rfl, rfl, rfl, rfl, rfl⟩

theorem startSup_keeps (s : State) :
    (startSup s).bell = s.bell ∧
    (startSup s).frame = s.frame ∧
    (startSup s).ports = s.ports ∧
    (startSup s).rings = s.rings ∧
    (startSup s).gn8s = s.gn8s ∧
    (startSup s).heads = s.heads ∧
    (startSup s).man = s.man ∧
    (startSup s).engs = s.engs ∧
    (startSup s).saf = s.saf ∧
    (startSup s).ha = s.ha ∧
    (startSup s).hb = s.hb ∧
    (startSup s).pmc = s.pmc ∧
    (startSup s).dev = s.dev ∧
    (startSup s).img = s.img ∧
    (startSup s).flt = s.flt ∧
    (startSup s).pins = s.pins ∧
    (startSup s).shown = s.shown ∧
    (startSup s).free = s.free ∧
    (startSup s).pending = s.pending := by
  exact ⟨rfl, rfl, rfl, rfl, rfl, rfl, rfl, rfl, rfl, rfl, rfl, rfl, rfl, rfl, rfl, rfl, rfl, rfl, rfl⟩

theorem setRoles_keeps (s : State) :
    (setRoles s).bell = s.bell ∧
    (setRoles s).frame = s.frame ∧
    (setRoles s).ports = s.ports ∧
    (setRoles s).rings = s.rings ∧
    (setRoles s).gn8s = s.gn8s ∧
    (setRoles s).heads = s.heads ∧
    (setRoles s).man = s.man ∧
    (setRoles s).engs = s.engs ∧
    (setRoles s).sup = s.sup ∧
    (setRoles s).saf = s.saf ∧
    (setRoles s).pmc = s.pmc ∧
    (setRoles s).img = s.img ∧
    (setRoles s).pins = s.pins ∧
    (setRoles s).shown = s.shown ∧
    (setRoles s).free = s.free ∧
    (setRoles s).pending = s.pending := by
  unfold setRoles
  simp [raiseBoth_keeps]

theorem showMode_keeps (s : State) :
    (showMode s).bell = s.bell ∧
    (showMode s).frame = s.frame ∧
    (showMode s).ports = s.ports ∧
    (showMode s).rings = s.rings ∧
    (showMode s).gn8s = s.gn8s ∧
    (showMode s).heads = s.heads ∧
    (showMode s).man = s.man ∧
    (showMode s).engs = s.engs ∧
    (showMode s).sup = s.sup ∧
    (showMode s).saf = s.saf ∧
    (showMode s).ha = s.ha ∧
    (showMode s).hb = s.hb ∧
    (showMode s).pmc = s.pmc ∧
    (showMode s).dev = s.dev ∧
    (showMode s).img = s.img ∧
    (showMode s).flt = s.flt ∧
    (showMode s).pins = s.pins ∧
    (showMode s).free = s.free ∧
    (showMode s).pending = s.pending := by
  exact ⟨rfl, rfl, rfl, rfl, rfl, rfl, rfl, rfl, rfl, rfl, rfl, rfl, rfl, rfl, rfl, rfl, rfl, rfl, rfl⟩

theorem toProve_keeps (s : State) :
    (toProve s).gn8s = s.gn8s ∧
    (toProve s).heads = s.heads ∧
    (toProve s).img = s.img ∧
    (toProve s).pins = s.pins ∧
    (toProve s).free = s.free ∧
    (toProve s).pending = s.pending := by
  unfold toProve
  simp [setMode_keeps, showMode_keeps, startRings_keeps, startGroup_keeps, switchShown_keeps, setRoles_keeps,
    lockBell_keeps, startSup_keeps]

theorem startRead_keeps (bits : BitVec 40) (s : State) :
    (startRead bits s).bell = s.bell ∧
    (startRead bits s).frame = s.frame ∧
    (startRead bits s).ports = s.ports ∧
    (startRead bits s).rings = s.rings ∧
    (startRead bits s).gn8s = s.gn8s ∧
    (startRead bits s).heads = s.heads ∧
    (startRead bits s).man = s.man ∧
    (startRead bits s).engs = s.engs ∧
    (startRead bits s).sup = s.sup ∧
    (startRead bits s).ha = s.ha ∧
    (startRead bits s).hb = s.hb ∧
    (startRead bits s).pmc = s.pmc ∧
    (startRead bits s).dev = s.dev ∧
    (startRead bits s).img = s.img ∧
    (startRead bits s).flt = s.flt ∧
    (startRead bits s).pins = s.pins ∧
    (startRead bits s).shown = s.shown ∧
    (startRead bits s).free = s.free ∧
    (startRead bits s).pending = s.pending := by
  unfold startRead
  simp [noteSeal_keeps]

theorem execStartTransition_keeps (bits : BitVec 40) (s : State) (u : State) (h : execStartTransition bits s =
  .next u) :
    u.gn8s = s.gn8s ∧
    u.heads = s.heads ∧
    u.img = s.img ∧
    u.pins = s.pins ∧
    u.free = s.free ∧
    u.pending = s.pending := by
  unfold execStartTransition at h
  (repeat' split at h) <;> (injection h with h; subst h; simp [refuseStart_keeps, toProve_keeps, startRead_keeps])

theorem failTest_keeps (x : DomIx × Option Side) (s : State) :
    (failTest x s).rings = s.rings ∧
    (failTest x s).gn8s = s.gn8s ∧
    (failTest x s).img = s.img ∧
    (failTest x s).pins = s.pins ∧
    (failTest x s).shown = s.shown ∧
    (failTest x s).free = s.free ∧
    (failTest x s).pending = s.pending := by
  unfold failTest
  (repeat' split) <;> simp [sticky_keeps, failMonitor_keeps, loseDomain_keeps]

theorem execSelftestComplete_keeps (failed : List (DomIx × Option Side)) (s : State) (u : State) (h :
  execSelftestComplete failed s = .next u) :
    u.rings = s.rings ∧
    u.gn8s = s.gn8s ∧
    u.img = s.img ∧
    u.pins = s.pins ∧
    u.shown = s.shown ∧
    u.free = s.free ∧
    u.pending = s.pending := by
  unfold execSelftestComplete at h
  (repeat' split at h) <;> (injection h with h; subst h; simp [failTest_keeps])

theorem proveTimeout_keeps (s : State) :
    (proveTimeout s).bell = s.bell ∧
    (proveTimeout s).frame = s.frame ∧
    (proveTimeout s).ports = s.ports ∧
    (proveTimeout s).rings = s.rings ∧
    (proveTimeout s).gn8s = s.gn8s ∧
    (proveTimeout s).heads = s.heads ∧
    (proveTimeout s).man = s.man ∧
    (proveTimeout s).engs = s.engs ∧
    (proveTimeout s).sup = s.sup ∧
    (proveTimeout s).saf = s.saf ∧
    (proveTimeout s).pmc = s.pmc ∧
    (proveTimeout s).img = s.img ∧
    (proveTimeout s).pins = s.pins ∧
    (proveTimeout s).shown = s.shown ∧
    (proveTimeout s).free = s.free ∧
    (proveTimeout s).pending = s.pending := by
  unfold proveTimeout
  simp [sticky_keeps]

theorem execProveTimeout_keeps (s : State) (u : State) (h : execProveTimeout s = .next u) :
    u.bell = s.bell ∧
    u.frame = s.frame ∧
    u.ports = s.ports ∧
    u.rings = s.rings ∧
    u.gn8s = s.gn8s ∧
    u.heads = s.heads ∧
    u.man = s.man ∧
    u.engs = s.engs ∧
    u.sup = s.sup ∧
    u.saf = s.saf ∧
    u.pmc = s.pmc ∧
    u.img = s.img ∧
    u.pins = s.pins ∧
    u.shown = s.shown ∧
    u.free = s.free ∧
    u.pending = s.pending := by
  injection h with h
  subst h
  simp [proveTimeout_keeps]

theorem gather_keeps (i : Nat) (s : State) :
    (gather i s).bell = s.bell ∧
    (gather i s).frame = s.frame ∧
    (gather i s).ports = s.ports ∧
    (gather i s).rings = s.rings ∧
    (gather i s).gn8s = s.gn8s ∧
    (gather i s).heads = s.heads ∧
    (gather i s).man = s.man ∧
    (gather i s).engs = s.engs ∧
    (gather i s).saf = s.saf ∧
    (gather i s).ha = s.ha ∧
    (gather i s).hb = s.hb ∧
    (gather i s).pmc = s.pmc ∧
    (gather i s).dev = s.dev ∧
    (gather i s).img = s.img ∧
    (gather i s).flt = s.flt ∧
    (gather i s).pins = s.pins ∧
    (gather i s).shown = s.shown ∧
    (gather i s).free = s.free ∧
    (gather i s).pending = s.pending := by
  unfold gather
  (repeat' split) <;> simp [orderHandover_keeps]

theorem disperse_keeps (i : Nat) (s : State) :
    (disperse i s).bell = s.bell ∧
    (disperse i s).frame = s.frame ∧
    (disperse i s).ports = s.ports ∧
    (disperse i s).rings = s.rings ∧
    (disperse i s).gn8s = s.gn8s ∧
    (disperse i s).heads = s.heads ∧
    (disperse i s).man = s.man ∧
    (disperse i s).engs = s.engs ∧
    (disperse i s).saf = s.saf ∧
    (disperse i s).ha = s.ha ∧
    (disperse i s).hb = s.hb ∧
    (disperse i s).pmc = s.pmc ∧
    (disperse i s).dev = s.dev ∧
    (disperse i s).img = s.img ∧
    (disperse i s).flt = s.flt ∧
    (disperse i s).pins = s.pins ∧
    (disperse i s).shown = s.shown ∧
    (disperse i s).free = s.free ∧
    (disperse i s).pending = s.pending := by
  unfold disperse
  dsimp only
  (repeat' split) <;> simp [orderHandover_keeps]

theorem execHarbourDispersalStart_keeps (g : Gn8Ix) (s : State) (u : State)
  (h : execHarbourDispersalStart g s = .next u) :
    u.bell = s.bell ∧
    u.frame = s.frame ∧
    u.ports = s.ports ∧
    u.rings = s.rings ∧
    u.gn8s = s.gn8s ∧
    u.heads = s.heads ∧
    u.man = s.man ∧
    u.engs = s.engs ∧
    u.saf = s.saf ∧
    u.ha = s.ha ∧
    u.hb = s.hb ∧
    u.pmc = s.pmc ∧
    u.dev = s.dev ∧
    u.img = s.img ∧
    u.flt = s.flt ∧
    u.pins = s.pins ∧
    u.shown = s.shown ∧
    u.free = s.free ∧
    u.pending = s.pending := by
  injection h with h
  subst h
  simp [disperse_keeps]

theorem gateDom_keeps (k : Nat) (s : State) :
    (gateDom k s).bell = s.bell ∧
    (gateDom k s).frame = s.frame ∧
    (gateDom k s).ports = s.ports ∧
    (gateDom k s).rings = s.rings ∧
    (gateDom k s).gn8s = s.gn8s ∧
    (gateDom k s).heads = s.heads ∧
    (gateDom k s).man = s.man ∧
    (gateDom k s).sup = s.sup ∧
    (gateDom k s).saf = s.saf ∧
    (gateDom k s).ha = s.ha ∧
    (gateDom k s).hb = s.hb ∧
    (gateDom k s).dev = s.dev ∧
    (gateDom k s).img = s.img ∧
    (gateDom k s).flt = s.flt ∧
    (gateDom k s).pins = s.pins ∧
    (gateDom k s).shown = s.shown ∧
    (gateDom k s).free = s.free ∧
    (gateDom k s).pending = s.pending := by
  unfold gateDom
  simp [modEng_keeps, modDom_keeps]

theorem harbourEntry_keeps (s : State) :
    (harbourEntry s).bell = s.bell ∧
    (harbourEntry s).frame = s.frame ∧
    (harbourEntry s).ports = s.ports ∧
    (harbourEntry s).rings = s.rings ∧
    (harbourEntry s).gn8s = s.gn8s ∧
    (harbourEntry s).heads = s.heads ∧
    (harbourEntry s).man = s.man ∧
    (harbourEntry s).saf = s.saf ∧
    (harbourEntry s).ha = s.ha ∧
    (harbourEntry s).hb = s.hb ∧
    (harbourEntry s).img = s.img ∧
    (harbourEntry s).flt = s.flt ∧
    (harbourEntry s).pins = s.pins ∧
    (harbourEntry s).shown = s.shown ∧
    (harbourEntry s).free = s.free ∧
    (harbourEntry s).pending = s.pending := by
  unfold harbourEntry
  simp [gather_keeps, gateDom_keeps]

theorem ungate_keeps (s : State) :
    (ungate s).bell = s.bell ∧
    (ungate s).frame = s.frame ∧
    (ungate s).ports = s.ports ∧
    (ungate s).rings = s.rings ∧
    (ungate s).gn8s = s.gn8s ∧
    (ungate s).heads = s.heads ∧
    (ungate s).man = s.man ∧
    (ungate s).engs = s.engs ∧
    (ungate s).sup = s.sup ∧
    (ungate s).saf = s.saf ∧
    (ungate s).ha = s.ha ∧
    (ungate s).hb = s.hb ∧
    (ungate s).dev = s.dev ∧
    (ungate s).img = s.img ∧
    (ungate s).flt = s.flt ∧
    (ungate s).pins = s.pins ∧
    (ungate s).shown = s.shown ∧
    (ungate s).free = s.free ∧
    (ungate s).pending = s.pending := by
  exact ⟨rfl, rfl, rfl, rfl, rfl, rfl, rfl, rfl, rfl, rfl, rfl, rfl, rfl, rfl, rfl, rfl, rfl, rfl, rfl⟩

theorem harbourExit_keeps (s : State) :
    (harbourExit s).bell = s.bell ∧
    (harbourExit s).frame = s.frame ∧
    (harbourExit s).ports = s.ports ∧
    (harbourExit s).rings = s.rings ∧
    (harbourExit s).gn8s = s.gn8s ∧
    (harbourExit s).heads = s.heads ∧
    (harbourExit s).man = s.man ∧
    (harbourExit s).engs = s.engs ∧
    (harbourExit s).saf = s.saf ∧
    (harbourExit s).img = s.img ∧
    (harbourExit s).pins = s.pins ∧
    (harbourExit s).shown = s.shown ∧
    (harbourExit s).free = s.free ∧
    (harbourExit s).pending = s.pending := by
  unfold harbourExit
  simp [disperse_keeps, setMode_keeps, ungate_keeps]

theorem harbourTick_keeps (s : State) :
    (harbourTick s).bell = s.bell ∧
    (harbourTick s).frame = s.frame ∧
    (harbourTick s).heads = s.heads ∧
    (harbourTick s).man = s.man ∧
    (harbourTick s).engs = s.engs ∧
    (harbourTick s).sup = s.sup ∧
    (harbourTick s).saf = s.saf ∧
    (harbourTick s).ha = s.ha ∧
    (harbourTick s).hb = s.hb ∧
    (harbourTick s).pmc = s.pmc ∧
    (harbourTick s).img = s.img ∧
    (harbourTick s).flt = s.flt ∧
    (harbourTick s).pins = s.pins ∧
    (harbourTick s).shown = s.shown ∧
    (harbourTick s).free = s.free ∧
    (harbourTick s).pending = s.pending := by
  unfold harbourTick
  simp [orderGrid_keeps]

end Sys2Proof.Machine
end

