-- ==== Sys2Proof/Laws/FrameCommit.lean ====
section
/-! SUPPORT. What each operation of Commit.lean (commit) leaves unchanged. -/

namespace Sys2Proof.Machine

theorem applyState_keeps (e : StateEv) (x : State × List Nat) :
    (applyState e x).1.bell = x.1.bell ∧
    (applyState e x).1.frame = x.1.frame ∧
    (applyState e x).1.ports = x.1.ports ∧
    (applyState e x).1.rings = x.1.rings ∧
    (applyState e x).1.gn8s = x.1.gn8s ∧
    (applyState e x).1.man = x.1.man ∧
    (applyState e x).1.engs = x.1.engs ∧
    (applyState e x).1.sup = x.1.sup ∧
    (applyState e x).1.saf = x.1.saf ∧
    (applyState e x).1.pmc = x.1.pmc ∧
    (applyState e x).1.dev = x.1.dev ∧
    (applyState e x).1.img = x.1.img ∧
    (applyState e x).1.pins = x.1.pins ∧
    (applyState e x).1.shown = x.1.shown ∧
    (applyState e x).1.free = x.1.free ∧
    (applyState e x).1.pending = x.1.pending := by
  unfold applyState
  simp [sticky_keeps, setHead_keeps]

theorem applyPass_keeps (r : WheelRec) (s : State) :
    (applyPass r s).bell = s.bell ∧
    (applyPass r s).frame = s.frame ∧
    (applyPass r s).ports = s.ports ∧
    (applyPass r s).rings = s.rings ∧
    (applyPass r s).gn8s = s.gn8s ∧
    (applyPass r s).man = s.man ∧
    (applyPass r s).engs = s.engs ∧
    (applyPass r s).sup = s.sup ∧
    (applyPass r s).saf = s.saf ∧
    (applyPass r s).pmc = s.pmc ∧
    (applyPass r s).dev = s.dev ∧
    (applyPass r s).img = s.img ∧
    (applyPass r s).pins = s.pins ∧
    (applyPass r s).shown = s.shown ∧
    (applyPass r s).free = s.free ∧
    (applyPass r s).pending = s.pending := by
  unfold applyPass
  simp [stickyIf_keeps, setHead_keeps]

theorem applyEvents_keeps (l : List (Nat × Event)) (s : State) :
    (applyEvents l s).1.bell = s.bell ∧
    (applyEvents l s).1.frame = s.frame ∧
    (applyEvents l s).1.ports = s.ports ∧
    (applyEvents l s).1.rings = s.rings ∧
    (applyEvents l s).1.gn8s = s.gn8s ∧
    (applyEvents l s).1.man = s.man ∧
    (applyEvents l s).1.engs = s.engs ∧
    (applyEvents l s).1.sup = s.sup ∧
    (applyEvents l s).1.saf = s.saf ∧
    (applyEvents l s).1.pmc = s.pmc ∧
    (applyEvents l s).1.dev = s.dev ∧
    (applyEvents l s).1.img = s.img ∧
    (applyEvents l s).1.pins = s.pins ∧
    (applyEvents l s).1.shown = s.shown ∧
    (applyEvents l s).1.free = s.free ∧
    (applyEvents l s).1.pending = s.pending := by
  unfold applyEvents
  generalize ([] : List Nat) = m
  induction l generalizing s m with
  | nil => simp
  | cons v l ih =>
    obtain ⟨e, v⟩ := v
    rw [List.foldl_cons]
    cases v with
    | state x => simpa [applyState_keeps] using ih (applyState x (s, m)).1 (applyState x (s, m)).2
    | pass r => simpa [applyPass_keeps] using ih (applyPass r s) m

theorem applyHeadFlt_keeps (s : State) :
    (applyHeadFlt s).bell = s.bell ∧
    (applyHeadFlt s).frame = s.frame ∧
    (applyHeadFlt s).ports = s.ports ∧
    (applyHeadFlt s).rings = s.rings ∧
    (applyHeadFlt s).gn8s = s.gn8s ∧
    (applyHeadFlt s).heads = s.heads ∧
    (applyHeadFlt s).man = s.man ∧
    (applyHeadFlt s).engs = s.engs ∧
    (applyHeadFlt s).sup = s.sup ∧
    (applyHeadFlt s).saf = s.saf ∧
    (applyHeadFlt s).pmc = s.pmc ∧
    (applyHeadFlt s).dev = s.dev ∧
    (applyHeadFlt s).img = s.img ∧
    (applyHeadFlt s).pins = s.pins ∧
    (applyHeadFlt s).shown = s.shown ∧
    (applyHeadFlt s).free = s.free ∧
    (applyHeadFlt s).pending = s.pending := by
  unfold applyHeadFlt
  simp [sticky_keeps]

theorem failHead_keeps (cause h : Nat) (s : State) :
    (failHead cause h s).bell = s.bell ∧
    (failHead cause h s).frame = s.frame ∧
    (failHead cause h s).ports = s.ports ∧
    (failHead cause h s).rings = s.rings ∧
    (failHead cause h s).gn8s = s.gn8s ∧
    (failHead cause h s).man = s.man ∧
    (failHead cause h s).engs = s.engs ∧
    (failHead cause h s).saf = s.saf ∧
    (failHead cause h s).pmc = s.pmc ∧
    (failHead cause h s).dev = s.dev ∧
    (failHead cause h s).img = s.img ∧
    (failHead cause h s).pins = s.pins ∧
    (failHead cause h s).shown = s.shown ∧
    (failHead cause h s).free = s.free ∧
    (failHead cause h s).pending = s.pending := by
  unfold failHead
  dsimp only
  (repeat' split) <;> simp [waitMove_keeps, setHead_keeps, sticky_keeps]

theorem outLate_keeps (e : Nat) (s : State) :
    (outLate e s).bell = s.bell ∧
    (outLate e s).frame = s.frame ∧
    (outLate e s).ports = s.ports ∧
    (outLate e s).rings = s.rings ∧
    (outLate e s).gn8s = s.gn8s ∧
    (outLate e s).heads = s.heads ∧
    (outLate e s).man = s.man ∧
    (outLate e s).sup = s.sup ∧
    (outLate e s).saf = s.saf ∧
    (outLate e s).pmc = s.pmc ∧
    (outLate e s).dev = s.dev ∧
    (outLate e s).img = s.img ∧
    (outLate e s).pins = s.pins ∧
    (outLate e s).shown = s.shown ∧
    (outLate e s).free = s.free ∧
    (outLate e s).pending = s.pending := by
  unfold outLate
  simp [modEng_keeps, noteFailed_keeps]

theorem emptySlots_keeps (e : Nat) (s : State) :
    (emptySlots e s).bell = s.bell ∧
    (emptySlots e s).frame = s.frame ∧
    (emptySlots e s).ports = s.ports ∧
    (emptySlots e s).rings = s.rings ∧
    (emptySlots e s).gn8s = s.gn8s ∧
    (emptySlots e s).heads = s.heads ∧
    (emptySlots e s).man = s.man ∧
    (emptySlots e s).sup = s.sup ∧
    (emptySlots e s).saf = s.saf ∧
    (emptySlots e s).ha = s.ha ∧
    (emptySlots e s).hb = s.hb ∧
    (emptySlots e s).pmc = s.pmc ∧
    (emptySlots e s).dev = s.dev ∧
    (emptySlots e s).img = s.img ∧
    (emptySlots e s).flt = s.flt ∧
    (emptySlots e s).pins = s.pins ∧
    (emptySlots e s).shown = s.shown ∧
    (emptySlots e s).free = s.free ∧
    (emptySlots e s).pending = s.pending := by
  exact ⟨rfl, rfl, rfl, rfl, rfl, rfl, rfl, rfl, rfl, rfl, rfl, rfl, rfl, rfl, rfl, rfl, rfl, rfl, rfl⟩

theorem noteServed_keeps (e : Nat) (s : State) :
    (noteServed e s).bell = s.bell ∧
    (noteServed e s).frame = s.frame ∧
    (noteServed e s).ports = s.ports ∧
    (noteServed e s).rings = s.rings ∧
    (noteServed e s).gn8s = s.gn8s ∧
    (noteServed e s).man = s.man ∧
    (noteServed e s).sup = s.sup ∧
    (noteServed e s).saf = s.saf ∧
    (noteServed e s).ha = s.ha ∧
    (noteServed e s).hb = s.hb ∧
    (noteServed e s).pmc = s.pmc ∧
    (noteServed e s).dev = s.dev ∧
    (noteServed e s).img = s.img ∧
    (noteServed e s).flt = s.flt ∧
    (noteServed e s).pins = s.pins ∧
    (noteServed e s).shown = s.shown ∧
    (noteServed e s).free = s.free ∧
    (noteServed e s).pending = s.pending := by
  unfold noteServed
  simp [setHead_keeps, setEng_keeps]

theorem stepGen_keeps (h : Nat) (s : State) :
    (stepGen h s).bell = s.bell ∧
    (stepGen h s).frame = s.frame ∧
    (stepGen h s).ports = s.ports ∧
    (stepGen h s).rings = s.rings ∧
    (stepGen h s).gn8s = s.gn8s ∧
    (stepGen h s).man = s.man ∧
    (stepGen h s).engs = s.engs ∧
    (stepGen h s).sup = s.sup ∧
    (stepGen h s).saf = s.saf ∧
    (stepGen h s).ha = s.ha ∧
    (stepGen h s).hb = s.hb ∧
    (stepGen h s).pmc = s.pmc ∧
    (stepGen h s).dev = s.dev ∧
    (stepGen h s).img = s.img ∧
    (stepGen h s).flt = s.flt ∧
    (stepGen h s).pins = s.pins ∧
    (stepGen h s).shown = s.shown ∧
    (stepGen h s).free = s.free ∧
    (stepGen h s).pending = s.pending := by
  exact ⟨rfl, rfl, rfl, rfl, rfl, rfl, rfl, rfl, rfl, rfl, rfl, rfl, rfl, rfl, rfl, rfl, rfl, rfl, rfl⟩

theorem firstHead_keeps (h : Nat) (s : State) :
    (firstHead h s).bell = s.bell ∧
    (firstHead h s).frame = s.frame ∧
    (firstHead h s).ports = s.ports ∧
    (firstHead h s).rings = s.rings ∧
    (firstHead h s).gn8s = s.gn8s ∧
    (firstHead h s).man = s.man ∧
    (firstHead h s).engs = s.engs ∧
    (firstHead h s).sup = s.sup ∧
    (firstHead h s).saf = s.saf ∧
    (firstHead h s).ha = s.ha ∧
    (firstHead h s).hb = s.hb ∧
    (firstHead h s).pmc = s.pmc ∧
    (firstHead h s).dev = s.dev ∧
    (firstHead h s).img = s.img ∧
    (firstHead h s).flt = s.flt ∧
    (firstHead h s).pins = s.pins ∧
    (firstHead h s).shown = s.shown ∧
    (firstHead h s).free = s.free ∧
    (firstHead h s).pending = s.pending := by
  exact ⟨rfl, rfl, rfl, rfl, rfl, rfl, rfl, rfl, rfl, rfl, rfl, rfl, rfl, rfl, rfl, rfl, rfl, rfl, rfl⟩

theorem deriveSec_keeps (l : List WheelRec) (late entered : List Nat) (failing : Bool) (n : Nat) (s : State) :
    (deriveSec l late entered failing n s).bell = s.bell ∧
    (deriveSec l late entered failing n s).frame = s.frame ∧
    (deriveSec l late entered failing n s).ports = s.ports ∧
    (deriveSec l late entered failing n s).rings = s.rings ∧
    (deriveSec l late entered failing n s).gn8s = s.gn8s ∧
    (deriveSec l late entered failing n s).heads = s.heads ∧
    (deriveSec l late entered failing n s).engs = s.engs ∧
    (deriveSec l late entered failing n s).sup = s.sup ∧
    (deriveSec l late entered failing n s).saf = s.saf ∧
    (deriveSec l late entered failing n s).pmc = s.pmc ∧
    (deriveSec l late entered failing n s).dev = s.dev ∧
    (deriveSec l late entered failing n s).img = s.img ∧
    (deriveSec l late entered failing n s).pins = s.pins ∧
    (deriveSec l late entered failing n s).shown = s.shown ∧
    (deriveSec l late entered failing n s).free = s.free ∧
    (deriveSec l late entered failing n s).pending = s.pending := by
  unfold deriveSec
  simp [sticky_keeps, setPair_keeps]

theorem deriveAll_keeps (l : List WheelRec) (late entered : List Nat) (s : State) :
    (deriveAll l late entered s).bell = s.bell ∧
    (deriveAll l late entered s).frame = s.frame ∧
    (deriveAll l late entered s).ports = s.ports ∧
    (deriveAll l late entered s).rings = s.rings ∧
    (deriveAll l late entered s).gn8s = s.gn8s ∧
    (deriveAll l late entered s).heads = s.heads ∧
    (deriveAll l late entered s).engs = s.engs ∧
    (deriveAll l late entered s).saf = s.saf ∧
    (deriveAll l late entered s).pmc = s.pmc ∧
    (deriveAll l late entered s).dev = s.dev ∧
    (deriveAll l late entered s).img = s.img ∧
    (deriveAll l late entered s).pins = s.pins ∧
    (deriveAll l late entered s).shown = s.shown ∧
    (deriveAll l late entered s).free = s.free ∧
    (deriveAll l late entered s).pending = s.pending := by
  unfold deriveAll
  simp [cancelReqs_keeps, deriveSec_keeps]

theorem replaceSec_keeps (f : Word → Sec → Sec → Sec) (n : Nat) (s : State) :
    (replaceSec f n s).bell = s.bell ∧
    (replaceSec f n s).frame = s.frame ∧
    (replaceSec f n s).ports = s.ports ∧
    (replaceSec f n s).rings = s.rings ∧
    (replaceSec f n s).gn8s = s.gn8s ∧
    (replaceSec f n s).heads = s.heads ∧
    (replaceSec f n s).engs = s.engs ∧
    (replaceSec f n s).sup = s.sup ∧
    (replaceSec f n s).saf = s.saf ∧
    (replaceSec f n s).pmc = s.pmc ∧
    (replaceSec f n s).dev = s.dev ∧
    (replaceSec f n s).img = s.img ∧
    (replaceSec f n s).pins = s.pins ∧
    (replaceSec f n s).shown = s.shown ∧
    (replaceSec f n s).free = s.free ∧
    (replaceSec f n s).pending = s.pending := by
  unfold replaceSec
  simp [setPair_keeps, sticky_keeps]

theorem compareSecs_keeps (w : CommitIn) (mism : List Nat) (s : State) :
    (compareSecs w mism s).bell = s.bell ∧
    (compareSecs w mism s).frame = s.frame ∧
    (compareSecs w mism s).ports = s.ports ∧
    (compareSecs w mism s).rings = s.rings ∧
    (compareSecs w mism s).gn8s = s.gn8s ∧
    (compareSecs w mism s).heads = s.heads ∧
    (compareSecs w mism s).engs = s.engs ∧
    (compareSecs w mism s).saf = s.saf ∧
    (compareSecs w mism s).pmc = s.pmc ∧
    (compareSecs w mism s).dev = s.dev ∧
    (compareSecs w mism s).img = s.img ∧
    (compareSecs w mism s).pins = s.pins ∧
    (compareSecs w mism s).shown = s.shown ∧
    (compareSecs w mism s).free = s.free ∧
    (compareSecs w mism s).pending = s.pending := by
  unfold compareSecs
  simp [replaceSec_keeps, cancelReqs_keeps, sticky_keeps]

theorem reviseResults_keeps (l : List Taken) (p : Taken → Result → Bool) (code value : Nat) (s : State) :
    (reviseResults l p code value s).bell = s.bell ∧
    (reviseResults l p code value s).frame = s.frame ∧
    (reviseResults l p code value s).ports = s.ports ∧
    (reviseResults l p code value s).rings = s.rings ∧
    (reviseResults l p code value s).gn8s = s.gn8s ∧
    (reviseResults l p code value s).heads = s.heads ∧
    (reviseResults l p code value s).man = s.man ∧
    (reviseResults l p code value s).engs = s.engs ∧
    (reviseResults l p code value s).saf = s.saf ∧
    (reviseResults l p code value s).ha = s.ha ∧
    (reviseResults l p code value s).hb = s.hb ∧
    (reviseResults l p code value s).pmc = s.pmc ∧
    (reviseResults l p code value s).dev = s.dev ∧
    (reviseResults l p code value s).img = s.img ∧
    (reviseResults l p code value s).flt = s.flt ∧
    (reviseResults l p code value s).pins = s.pins ∧
    (reviseResults l p code value s).shown = s.shown ∧
    (reviseResults l p code value s).free = s.free ∧
    (reviseResults l p code value s).pending = s.pending := by
  exact ⟨rfl, rfl, rfl, rfl, rfl, rfl, rfl, rfl, rfl, rfl, rfl, rfl, rfl, rfl, rfl, rfl, rfl, rfl, rfl⟩

theorem refuseRestored_keeps (l : List Taken) (secs : List Nat) (s : State) :
    (refuseRestored l secs s).bell = s.bell ∧
    (refuseRestored l secs s).frame = s.frame ∧
    (refuseRestored l secs s).ports = s.ports ∧
    (refuseRestored l secs s).rings = s.rings ∧
    (refuseRestored l secs s).gn8s = s.gn8s ∧
    (refuseRestored l secs s).heads = s.heads ∧
    (refuseRestored l secs s).man = s.man ∧
    (refuseRestored l secs s).engs = s.engs ∧
    (refuseRestored l secs s).saf = s.saf ∧
    (refuseRestored l secs s).ha = s.ha ∧
    (refuseRestored l secs s).hb = s.hb ∧
    (refuseRestored l secs s).pmc = s.pmc ∧
    (refuseRestored l secs s).dev = s.dev ∧
    (refuseRestored l secs s).img = s.img ∧
    (refuseRestored l secs s).flt = s.flt ∧
    (refuseRestored l secs s).pins = s.pins ∧
    (refuseRestored l secs s).shown = s.shown ∧
    (refuseRestored l secs s).free = s.free ∧
    (refuseRestored l secs s).pending = s.pending := by
  exact ⟨rfl, rfl, rfl, rfl, rfl, rfl, rfl, rfl, rfl, rfl, rfl, rfl, rfl, rfl, rfl, rfl, rfl, rfl, rfl⟩

theorem applyTaken_keeps (t : Taken) (s : State) :
    (applyTaken t s).pins = s.pins ∧
    (applyTaken t s).pending = s.pending := by
  unfold applyTaken
  first
    | (simp [applyEntry_keeps]; done)
    | ((repeat' split) <;> simp [applyEntry_keeps]; done)
    | (dsimp only; (repeat' split) <;> simp [applyEntry_keeps]; done)
    | (simp [applyEntry_keeps]; (repeat' split) <;> simp [applyEntry_keeps]; done)

theorem runCommands_keeps (l : List Taken) (s : State) :
    (runCommands l s).pins = s.pins ∧
    (runCommands l s).pending = s.pending := by
  unfold runCommands
  simp [applyTaken_keeps]

theorem allCommands_keeps (was : Mode) (s : State) :
    (allCommands was s).pins = s.pins ∧
    (allCommands was s).pending = s.pending := by
  unfold allCommands
  simp [reviseResults_keeps, runCommands_keeps]

theorem openCommit_keeps (s : State) :
    (openCommit s).bell = s.bell ∧
    (openCommit s).frame = s.frame ∧
    (openCommit s).ports = s.ports ∧
    (openCommit s).rings = s.rings ∧
    (openCommit s).gn8s = s.gn8s ∧
    (openCommit s).heads = s.heads ∧
    (openCommit s).man = s.man ∧
    (openCommit s).engs = s.engs ∧
    (openCommit s).saf = s.saf ∧
    (openCommit s).ha = s.ha ∧
    (openCommit s).hb = s.hb ∧
    (openCommit s).pmc = s.pmc ∧
    (openCommit s).dev = s.dev ∧
    (openCommit s).img = s.img ∧
    (openCommit s).flt = s.flt ∧
    (openCommit s).pins = s.pins ∧
    (openCommit s).shown = s.shown ∧
    (openCommit s).free = s.free ∧
    (openCommit s).pending = s.pending := by
  exact ⟨rfl, rfl, rfl, rfl, rfl, rfl, rfl, rfl, rfl, rfl, rfl, rfl, rfl, rfl, rfl, rfl, rfl, rfl, rfl⟩

theorem lockStep_keeps (s : State) :
    (lockStep s).bell = s.bell ∧
    (lockStep s).frame = s.frame ∧
    (lockStep s).ports = s.ports ∧
    (lockStep s).rings = s.rings ∧
    (lockStep s).gn8s = s.gn8s ∧
    (lockStep s).heads = s.heads ∧
    (lockStep s).man = s.man ∧
    (lockStep s).engs = s.engs ∧
    (lockStep s).pmc = s.pmc ∧
    (lockStep s).img = s.img ∧
    (lockStep s).pins = s.pins ∧
    (lockStep s).shown = s.shown ∧
    (lockStep s).free = s.free ∧
    (lockStep s).pending = s.pending := by
  unfold lockStep
  simp [enterLockout_keeps, leaveForces_keeps]

theorem devResetStep_keeps (s : State) :
    (devResetStep s).bell = s.bell ∧
    (devResetStep s).frame = s.frame ∧
    (devResetStep s).ports = s.ports ∧
    (devResetStep s).rings = s.rings ∧
    (devResetStep s).gn8s = s.gn8s ∧
    (devResetStep s).heads = s.heads ∧
    (devResetStep s).man = s.man ∧
    (devResetStep s).engs = s.engs ∧
    (devResetStep s).pmc = s.pmc ∧
    (devResetStep s).img = s.img ∧
    (devResetStep s).pins = s.pins ∧
    (devResetStep s).shown = s.shown ∧
    (devResetStep s).free = s.free ∧
    (devResetStep s).pending = s.pending := by
  unfold devResetStep
  dsimp only
  (repeat' split) <;> simp [setMode_keeps]

theorem recordVerdict_keeps (e : Nat) (s : State) :
    (recordVerdict e s).bell = s.bell ∧
    (recordVerdict e s).frame = s.frame ∧
    (recordVerdict e s).ports = s.ports ∧
    (recordVerdict e s).rings = s.rings ∧
    (recordVerdict e s).gn8s = s.gn8s ∧
    (recordVerdict e s).heads = s.heads ∧
    (recordVerdict e s).man = s.man ∧
    (recordVerdict e s).sup = s.sup ∧
    (recordVerdict e s).saf = s.saf ∧
    (recordVerdict e s).pmc = s.pmc ∧
    (recordVerdict e s).dev = s.dev ∧
    (recordVerdict e s).img = s.img ∧
    (recordVerdict e s).pins = s.pins ∧
    (recordVerdict e s).shown = s.shown ∧
    (recordVerdict e s).free = s.free ∧
    (recordVerdict e s).pending = s.pending := by
  unfold recordVerdict
  dsimp only
  (repeat' split) <;> simp [sticky_keeps, retire__keeps, setEng_keeps]

theorem endRotation_keeps (s : State) :
    (endRotation s).bell = s.bell ∧
    (endRotation s).frame = s.frame ∧
    (endRotation s).ports = s.ports ∧
    (endRotation s).rings = s.rings ∧
    (endRotation s).gn8s = s.gn8s ∧
    (endRotation s).heads = s.heads ∧
    (endRotation s).man = s.man ∧
    (endRotation s).engs = s.engs ∧
    (endRotation s).saf = s.saf ∧
    (endRotation s).ha = s.ha ∧
    (endRotation s).hb = s.hb ∧
    (endRotation s).pmc = s.pmc ∧
    (endRotation s).dev = s.dev ∧
    (endRotation s).img = s.img ∧
    (endRotation s).flt = s.flt ∧
    (endRotation s).pins = s.pins ∧
    (endRotation s).shown = s.shown ∧
    (endRotation s).free = s.free ∧
    (endRotation s).pending = s.pending := by
  unfold endRotation
  dsimp only
  (repeat' split) <;> simp [rotateOut_keeps]

theorem proveStep_keeps (s : State) :
    (proveStep s).bell = s.bell ∧
    (proveStep s).frame = s.frame ∧
    (proveStep s).ports = s.ports ∧
    (proveStep s).gn8s = s.gn8s ∧
    (proveStep s).heads = s.heads ∧
    (proveStep s).man = s.man ∧
    (proveStep s).engs = s.engs ∧
    (proveStep s).saf = s.saf ∧
    (proveStep s).pmc = s.pmc ∧
    (proveStep s).img = s.img ∧
    (proveStep s).pins = s.pins ∧
    (proveStep s).shown = s.shown ∧
    (proveStep s).free = s.free ∧
    (proveStep s).pending = s.pending := by
  unfold proveStep
  simp [proveTimeout_keeps, stickyIf_keeps]

theorem groupStep_keeps (g : Nat) (s : State) :
    (groupStep g s).bell = s.bell ∧
    (groupStep g s).frame = s.frame ∧
    (groupStep g s).ports = s.ports ∧
    (groupStep g s).rings = s.rings ∧
    (groupStep g s).gn8s = s.gn8s ∧
    (groupStep g s).heads = s.heads ∧
    (groupStep g s).man = s.man ∧
    (groupStep g s).engs = s.engs ∧
    (groupStep g s).ha = s.ha ∧
    (groupStep g s).hb = s.hb ∧
    (groupStep g s).pmc = s.pmc ∧
    (groupStep g s).dev = s.dev ∧
    (groupStep g s).img = s.img ∧
    (groupStep g s).flt = s.flt ∧
    (groupStep g s).pins = s.pins ∧
    (groupStep g s).shown = s.shown ∧
    (groupStep g s).free = s.free ∧
    (groupStep g s).pending = s.pending := by
  unfold groupStep
  simp [modOrder_keeps, setGrp_keeps]

theorem resetStep_keeps (g : Nat) (s : State) :
    (resetStep g s).bell = s.bell ∧
    (resetStep g s).frame = s.frame ∧
    (resetStep g s).ports = s.ports ∧
    (resetStep g s).rings = s.rings ∧
    (resetStep g s).gn8s = s.gn8s ∧
    (resetStep g s).heads = s.heads ∧
    (resetStep g s).man = s.man ∧
    (resetStep g s).engs = s.engs ∧
    (resetStep g s).saf = s.saf ∧
    (resetStep g s).ha = s.ha ∧
    (resetStep g s).hb = s.hb ∧
    (resetStep g s).pmc = s.pmc ∧
    (resetStep g s).dev = s.dev ∧
    (resetStep g s).img = s.img ∧
    (resetStep g s).flt = s.flt ∧
    (resetStep g s).pins = s.pins ∧
    (resetStep g s).shown = s.shown ∧
    (resetStep g s).free = s.free ∧
    (resetStep g s).pending = s.pending := by
  unfold resetStep
  simp [modOrder_keeps]

end Sys2Proof.Machine
end

