-- ==== Sys2Proof/Laws/FrameRelease.lean ====
section
/-! SUPPORT. What each operation of Release.lean (release) leaves unchanged. -/

namespace Sys2Proof.Machine

theorem judgeMoves_keeps (s : State) :
    (judgeMoves s).bell = s.bell ∧
    (judgeMoves s).frame = s.frame ∧
    (judgeMoves s).ports = s.ports ∧
    (judgeMoves s).rings = s.rings ∧
    (judgeMoves s).gn8s = s.gn8s ∧
    (judgeMoves s).heads = s.heads ∧
    (judgeMoves s).man = s.man ∧
    (judgeMoves s).engs = s.engs ∧
    (judgeMoves s).saf = s.saf ∧
    (judgeMoves s).pmc = s.pmc ∧
    (judgeMoves s).dev = s.dev ∧
    (judgeMoves s).img = s.img ∧
    (judgeMoves s).pins = s.pins ∧
    (judgeMoves s).shown = s.shown ∧
    (judgeMoves s).free = s.free ∧
    (judgeMoves s).pending = s.pending := by
  unfold judgeMoves
  simp [stickyIf_keeps]

theorem leaveSource_keeps (m : Move) (s : State) :
    (leaveSource m s).bell = s.bell ∧
    (leaveSource m s).frame = s.frame ∧
    (leaveSource m s).ports = s.ports ∧
    (leaveSource m s).rings = s.rings ∧
    (leaveSource m s).gn8s = s.gn8s ∧
    (leaveSource m s).heads = s.heads ∧
    (leaveSource m s).man = s.man ∧
    (leaveSource m s).sup = s.sup ∧
    (leaveSource m s).saf = s.saf ∧
    (leaveSource m s).ha = s.ha ∧
    (leaveSource m s).hb = s.hb ∧
    (leaveSource m s).pmc = s.pmc ∧
    (leaveSource m s).dev = s.dev ∧
    (leaveSource m s).img = s.img ∧
    (leaveSource m s).flt = s.flt ∧
    (leaveSource m s).pins = s.pins ∧
    (leaveSource m s).shown = s.shown ∧
    (leaveSource m s).free = s.free ∧
    (leaveSource m s).pending = s.pending := by
  unfold leaveSource
  dsimp only
  (repeat' split) <;> simp [startWindow_keeps, setEng_keeps]

theorem finishMove_keeps (stepped : List Nat) (m : Move) (s : State) :
    (finishMove stepped m s).bell = s.bell ∧
    (finishMove stepped m s).frame = s.frame ∧
    (finishMove stepped m s).ports = s.ports ∧
    (finishMove stepped m s).rings = s.rings ∧
    (finishMove stepped m s).gn8s = s.gn8s ∧
    (finishMove stepped m s).man = s.man ∧
    (finishMove stepped m s).saf = s.saf ∧
    (finishMove stepped m s).ha = s.ha ∧
    (finishMove stepped m s).hb = s.hb ∧
    (finishMove stepped m s).pmc = s.pmc ∧
    (finishMove stepped m s).dev = s.dev ∧
    (finishMove stepped m s).img = s.img ∧
    (finishMove stepped m s).flt = s.flt ∧
    (finishMove stepped m s).pins = s.pins ∧
    (finishMove stepped m s).shown = s.shown ∧
    (finishMove stepped m s).free = s.free ∧
    (finishMove stepped m s).pending = s.pending := by
  unfold finishMove
  simp [setHead_keeps, leaveSource_keeps, startHead_keeps]

theorem placeOwn_keeps (m : Move) (s : State) :
    (placeOwn m s).bell = s.bell ∧
    (placeOwn m s).frame = s.frame ∧
    (placeOwn m s).ports = s.ports ∧
    (placeOwn m s).rings = s.rings ∧
    (placeOwn m s).gn8s = s.gn8s ∧
    (placeOwn m s).man = s.man ∧
    (placeOwn m s).saf = s.saf ∧
    (placeOwn m s).ha = s.ha ∧
    (placeOwn m s).hb = s.hb ∧
    (placeOwn m s).pmc = s.pmc ∧
    (placeOwn m s).dev = s.dev ∧
    (placeOwn m s).img = s.img ∧
    (placeOwn m s).flt = s.flt ∧
    (placeOwn m s).pins = s.pins ∧
    (placeOwn m s).shown = s.shown ∧
    (placeOwn m s).free = s.free ∧
    (placeOwn m s).pending = s.pending := by
  unfold placeOwn
  simp [startHead_keeps]

theorem requestMove_keeps (m : Move) (s : State) :
    (requestMove m s).bell = s.bell ∧
    (requestMove m s).frame = s.frame ∧
    (requestMove m s).ports = s.ports ∧
    (requestMove m s).rings = s.rings ∧
    (requestMove m s).gn8s = s.gn8s ∧
    (requestMove m s).heads = s.heads ∧
    (requestMove m s).man = s.man ∧
    (requestMove m s).engs = s.engs ∧
    (requestMove m s).saf = s.saf ∧
    (requestMove m s).ha = s.ha ∧
    (requestMove m s).hb = s.hb ∧
    (requestMove m s).pmc = s.pmc ∧
    (requestMove m s).dev = s.dev ∧
    (requestMove m s).img = s.img ∧
    (requestMove m s).flt = s.flt ∧
    (requestMove m s).pins = s.pins ∧
    (requestMove m s).shown = s.shown ∧
    (requestMove m s).free = s.free ∧
    (requestMove m s).pending = s.pending := by
  unfold requestMove
  simp [dropMove_keeps, putMove_keeps]

theorem examine_keeps (e : Nat) (s : State) :
    (examine e s).bell = s.bell ∧
    (examine e s).frame = s.frame ∧
    (examine e s).ports = s.ports ∧
    (examine e s).rings = s.rings ∧
    (examine e s).gn8s = s.gn8s ∧
    (examine e s).heads = s.heads ∧
    (examine e s).man = s.man ∧
    (examine e s).sup = s.sup ∧
    (examine e s).saf = s.saf ∧
    (examine e s).pmc = s.pmc ∧
    (examine e s).dev = s.dev ∧
    (examine e s).img = s.img ∧
    (examine e s).pins = s.pins ∧
    (examine e s).shown = s.shown ∧
    (examine e s).free = s.free ∧
    (examine e s).pending = s.pending := by
  unfold examine
  simp [startWindow_keeps, retire__keeps]

theorem rejoin_keeps (s : State) :
    (rejoin s).bell = s.bell ∧
    (rejoin s).frame = s.frame ∧
    (rejoin s).ports = s.ports ∧
    (rejoin s).rings = s.rings ∧
    (rejoin s).gn8s = s.gn8s ∧
    (rejoin s).heads = s.heads ∧
    (rejoin s).man = s.man ∧
    (rejoin s).sup = s.sup ∧
    (rejoin s).saf = s.saf ∧
    (rejoin s).ha = s.ha ∧
    (rejoin s).hb = s.hb ∧
    (rejoin s).pmc = s.pmc ∧
    (rejoin s).dev = s.dev ∧
    (rejoin s).img = s.img ∧
    (rejoin s).flt = s.flt ∧
    (rejoin s).pins = s.pins ∧
    (rejoin s).shown = s.shown ∧
    (rejoin s).free = s.free ∧
    (rejoin s).pending = s.pending := by
  unfold rejoin
  first
    | (simp [proveDom_keeps]; done)
    | ((repeat' split) <;> simp [proveDom_keeps]; done)
    | (dsimp only; (repeat' split) <;> simp [proveDom_keeps]; done)
    | (simp [proveDom_keeps]; (repeat' split) <;> simp [proveDom_keeps]; done)

theorem releaseEng_keeps (offers : List (Nat × Nat × List Byte)) (e : Nat) (s : State) :
    (releaseEng offers e s).bell = s.bell ∧
    (releaseEng offers e s).ports = s.ports ∧
    (releaseEng offers e s).rings = s.rings ∧
    (releaseEng offers e s).gn8s = s.gn8s ∧
    (releaseEng offers e s).man = s.man ∧
    (releaseEng offers e s).sup = s.sup ∧
    (releaseEng offers e s).saf = s.saf ∧
    (releaseEng offers e s).pmc = s.pmc ∧
    (releaseEng offers e s).dev = s.dev ∧
    (releaseEng offers e s).img = s.img ∧
    (releaseEng offers e s).pins = s.pins ∧
    (releaseEng offers e s).shown = s.shown ∧
    (releaseEng offers e s).free = s.free ∧
    (releaseEng offers e s).pending = s.pending := by
  unfold releaseEng
  simp [removeEngine_keeps, setHead_keeps, setCore_keeps]

theorem forgetKept_keeps (s : State) :
    (forgetKept s).bell = s.bell ∧
    (forgetKept s).frame = s.frame ∧
    (forgetKept s).ports = s.ports ∧
    (forgetKept s).rings = s.rings ∧
    (forgetKept s).gn8s = s.gn8s ∧
    (forgetKept s).man = s.man ∧
    (forgetKept s).engs = s.engs ∧
    (forgetKept s).sup = s.sup ∧
    (forgetKept s).saf = s.saf ∧
    (forgetKept s).ha = s.ha ∧
    (forgetKept s).hb = s.hb ∧
    (forgetKept s).pmc = s.pmc ∧
    (forgetKept s).dev = s.dev ∧
    (forgetKept s).img = s.img ∧
    (forgetKept s).flt = s.flt ∧
    (forgetKept s).pins = s.pins ∧
    (forgetKept s).shown = s.shown ∧
    (forgetKept s).free = s.free ∧
    (forgetKept s).pending = s.pending := by
  exact ⟨rfl, rfl, rfl, rfl, rfl, rfl, rfl, rfl, rfl, rfl, rfl, rfl, rfl, rfl, rfl, rfl, rfl, rfl, rfl⟩

theorem release_keeps (stepped : List Nat) (s : State) :
    (release stepped s).bell = s.bell ∧
    (release stepped s).ports = s.ports ∧
    (release stepped s).rings = s.rings ∧
    (release stepped s).gn8s = s.gn8s ∧
    (release stepped s).man = s.man ∧
    (release stepped s).saf = s.saf ∧
    (release stepped s).img = s.img ∧
    (release stepped s).pins = s.pins ∧
    (release stepped s).shown = s.shown ∧
    (release stepped s).free = s.free ∧
    (release stepped s).pending = s.pending := by
  unfold release
  first
    | (simp [forgetKept_keeps, releaseEng_keeps, chooseMoves_keeps, harbourEntry_keeps, harbourExit_keeps,
      endRotation_keeps, requestMove_keeps, placeOwn_keeps, rejoin_keeps, examine_keeps, finishMove_keeps,
      judgeMoves_keeps]; done)
    | ((repeat' split) <;> simp [forgetKept_keeps, releaseEng_keeps, chooseMoves_keeps, harbourEntry_keeps,
      harbourExit_keeps, endRotation_keeps, requestMove_keeps, placeOwn_keeps, rejoin_keeps, examine_keeps,
      finishMove_keeps, judgeMoves_keeps]; done)
    | (dsimp only; (repeat' split) <;> simp [forgetKept_keeps, releaseEng_keeps, chooseMoves_keeps,
      harbourEntry_keeps, harbourExit_keeps, endRotation_keeps, requestMove_keeps, placeOwn_keeps, rejoin_keeps,
      examine_keeps, finishMove_keeps, judgeMoves_keeps]; done)
    | (simp [forgetKept_keeps, releaseEng_keeps, chooseMoves_keeps, harbourEntry_keeps, harbourExit_keeps,
      endRotation_keeps, requestMove_keeps, placeOwn_keeps, rejoin_keeps, examine_keeps, finishMove_keeps,
      judgeMoves_keeps]; (repeat' split) <;> simp [forgetKept_keeps, releaseEng_keeps, chooseMoves_keeps,
      harbourEntry_keeps, harbourExit_keeps, endRotation_keeps, requestMove_keeps, placeOwn_keeps, rejoin_keeps,
      examine_keeps, finishMove_keeps, judgeMoves_keeps]; done)

theorem commitHeads_keeps (s : State) :
    (commitHeads s).1.bell = s.bell ∧
    (commitHeads s).1.frame = s.frame ∧
    (commitHeads s).1.ports = s.ports ∧
    (commitHeads s).1.rings = s.rings ∧
    (commitHeads s).1.gn8s = s.gn8s ∧
    (commitHeads s).1.man = s.man ∧
    (commitHeads s).1.saf = s.saf ∧
    (commitHeads s).1.pmc = s.pmc ∧
    (commitHeads s).1.dev = s.dev ∧
    (commitHeads s).1.img = s.img ∧
    (commitHeads s).1.pins = s.pins ∧
    (commitHeads s).1.shown = s.shown ∧
    (commitHeads s).1.free = s.free ∧
    (commitHeads s).1.pending = s.pending := by
  unfold commitHeads
  first
    | (simp [stepGen_keeps, failHead_keeps, noteServed_keeps, applyHeadFlt_keeps, applyEvents_keeps,
      firstHead_keeps]; done)
    | ((repeat' split) <;> simp [stepGen_keeps, failHead_keeps, noteServed_keeps, applyHeadFlt_keeps,
      applyEvents_keeps, firstHead_keeps]; done)
    | (dsimp only; (repeat' split) <;> simp [stepGen_keeps, failHead_keeps, noteServed_keeps, applyHeadFlt_keeps,
      applyEvents_keeps, firstHead_keeps]; done)
    | (simp [stepGen_keeps, failHead_keeps, noteServed_keeps, applyHeadFlt_keeps, applyEvents_keeps,
      firstHead_keeps]; (repeat' split) <;> simp [stepGen_keeps, failHead_keeps, noteServed_keeps,
      applyHeadFlt_keeps, applyEvents_keeps, firstHead_keeps]; done)

theorem commitActions_keeps (s : State) :
    (commitActions s).pins = s.pins ∧
    (commitActions s).pending = s.pending := by
  unfold commitActions
  simp [allCommands_keeps, resetStep_keeps, lockStep_keeps, devResetStep_keeps]

theorem commitShow_keeps (serving : List Nat) (l : List WheelRec) (s : State) :
    (commitShow serving l s).bell = s.bell ∧
    (commitShow serving l s).frame = s.frame ∧
    (commitShow serving l s).ports = s.ports ∧
    (commitShow serving l s).rings = s.rings ∧
    (commitShow serving l s).gn8s = s.gn8s ∧
    (commitShow serving l s).heads = s.heads ∧
    (commitShow serving l s).man = s.man ∧
    (commitShow serving l s).engs = s.engs ∧
    (commitShow serving l s).img = s.img ∧
    (commitShow serving l s).pins = s.pins ∧
    (commitShow serving l s).shown = s.shown ∧
    (commitShow serving l s).pending = s.pending := by
  unfold commitShow
  simp [leadRecords_keeps, formDeck_keeps, governAll_keeps, groupStep_keeps]

theorem rejudge_keeps (l : List Taken) (g : Nat) (s : State) :
    (rejudge l g s).bell = s.bell ∧
    (rejudge l g s).frame = s.frame ∧
    (rejudge l g s).ports = s.ports ∧
    (rejudge l g s).rings = s.rings ∧
    (rejudge l g s).gn8s = s.gn8s ∧
    (rejudge l g s).heads = s.heads ∧
    (rejudge l g s).man = s.man ∧
    (rejudge l g s).engs = s.engs ∧
    (rejudge l g s).saf = s.saf ∧
    (rejudge l g s).ha = s.ha ∧
    (rejudge l g s).hb = s.hb ∧
    (rejudge l g s).pmc = s.pmc ∧
    (rejudge l g s).dev = s.dev ∧
    (rejudge l g s).img = s.img ∧
    (rejudge l g s).flt = s.flt ∧
    (rejudge l g s).pins = s.pins ∧
    (rejudge l g s).shown = s.shown ∧
    (rejudge l g s).free = s.free ∧
    (rejudge l g s).pending = s.pending := by
  unfold rejudge
  simp [reviseResults_keeps, modOrder_keeps]

theorem commitSteps_keeps (s0 : State) :
    (commitSteps s0).1.pins = s0.pins ∧
    (commitSteps s0).1.pending = s0.pending := by
  unfold commitSteps
  simp [deriveAll_keeps, commitActions_keeps, commitHeads_keeps, openCommit_keeps]

theorem commitRest_keeps (w : CommitIn) (mism : List Nat) (s0 : State) (r : State × List Nat) :
    (commitRest w mism s0 r).bell = r.1.bell ∧
    (commitRest w mism s0 r).ports = r.1.ports ∧
    (commitRest w mism s0 r).gn8s = r.1.gn8s ∧
    (commitRest w mism s0 r).img = r.1.img ∧
    (commitRest w mism s0 r).pins = r.1.pins ∧
    (commitRest w mism s0 r).pending = r.1.pending := by
  unfold commitRest
  simp [publishCommit_keeps, switchShown_keeps, release_keeps, outLate_keeps, emptySlots_keeps, commitShow_keeps,
    proveStep_keeps, recordVerdict_keeps, switchBanks_keeps, rejudge_keeps, compareSecs_keeps, refuseRestored_keeps,
    leadRecords_keeps]

theorem refuseTaken_keeps (r : Result) (s : State) :
    (refuseTaken r s).bell = s.bell ∧
    (refuseTaken r s).frame = s.frame ∧
    (refuseTaken r s).ports = s.ports ∧
    (refuseTaken r s).rings = s.rings ∧
    (refuseTaken r s).gn8s = s.gn8s ∧
    (refuseTaken r s).heads = s.heads ∧
    (refuseTaken r s).man = s.man ∧
    (refuseTaken r s).engs = s.engs ∧
    (refuseTaken r s).saf = s.saf ∧
    (refuseTaken r s).pmc = s.pmc ∧
    (refuseTaken r s).dev = s.dev ∧
    (refuseTaken r s).img = s.img ∧
    (refuseTaken r s).pins = s.pins ∧
    (refuseTaken r s).shown = s.shown ∧
    (refuseTaken r s).free = s.free ∧
    (refuseTaken r s).pending = s.pending := by
  unfold refuseTaken
  simp [sticky_keeps]

theorem settleTaken_keeps (n : Nat) (s : State) :
    (settleTaken n s).pins = s.pins ∧
    (settleTaken n s).pending = s.pending := by
  induction n generalizing s with
  | zero => simp [settleTaken]
  | succ n ih =>
    unfold settleTaken
    (repeat' split) <;> simp [ih, refuseTaken_keeps, viewB_keeps, commitSteps_keeps]

theorem commitBody_keeps (w : CommitIn) (s : State) :
    (commitBody w s).pins = s.pins ∧
    (commitBody w s).pending = s.pending := by
  unfold commitBody
  simp [viewB_keeps, commitRest_keeps, commitSteps_keeps, settleTaken_keeps]

theorem settleDrain_keeps (s0 : State) :
    (settleDrain s0).ports = s0.ports ∧
    (settleDrain s0).rings = s0.rings ∧
    (settleDrain s0).gn8s = s0.gn8s ∧
    (settleDrain s0).heads = s0.heads ∧
    (settleDrain s0).man = s0.man ∧
    (settleDrain s0).sup = s0.sup ∧
    (settleDrain s0).saf = s0.saf ∧
    (settleDrain s0).pmc = s0.pmc ∧
    (settleDrain s0).dev = s0.dev ∧
    (settleDrain s0).img = s0.img ∧
    (settleDrain s0).pins = s0.pins ∧
    (settleDrain s0).shown = s0.shown ∧
    (settleDrain s0).free = s0.free ∧
    (settleDrain s0).pending = s0.pending := by
  unfold settleDrain
  simp [drainComplete_keeps, passDeadline_keeps]

theorem execCommit_keeps (w : CommitIn) (s : State) (u : State) (h : execCommit w s = .next u) :
    u.pins = s.pins ∧
    u.pending = s.pending := by
  injection h with h
  subst h
  simp [commitBody_keeps, settleDrain_keeps]

theorem commitTimeout_keeps (aMissed bMissed : Bool) (s : State) :
    (commitTimeout aMissed bMissed s).pins = s.pins ∧
    (commitTimeout aMissed bMissed s).pending = s.pending := by
  unfold commitTimeout
  first
    | (simp [commitBody_keeps, enterSafe_keeps, addTicks_keeps, sticky_keeps]; done)
    | ((repeat' split) <;> simp [commitBody_keeps, enterSafe_keeps, addTicks_keeps, sticky_keeps]; done)
    | (dsimp only; (repeat' split) <;> simp [commitBody_keeps, enterSafe_keeps, addTicks_keeps, sticky_keeps]; done)
    | (simp [commitBody_keeps, enterSafe_keeps, addTicks_keeps,
      sticky_keeps]; (repeat' split) <;> simp [commitBody_keeps, enterSafe_keeps, addTicks_keeps,
      sticky_keeps]; done)

theorem execCommitTimeout_keeps (aMissed bMissed : Bool) (s : State) (u : State)
  (h : execCommitTimeout aMissed bMissed s = .next u) :
    u.pins = s.pins ∧
    u.pending = s.pending := by
  injection h with h
  subst h
  simp [commitTimeout_keeps, settleDrain_keeps]

theorem execSweepTimeout_keeps (n : SecIx) (s : State) (u : State) (h : execSweepTimeout n s = .next u) :
    u.pins = s.pins ∧
    u.pending = s.pending := by
  injection h with h
  subst h
  simp [commitBody_keeps, settleDrain_keeps]

end Sys2Proof.Machine
end

