-- ==== Sys2Proof/Laws/FrameLanding.lean ====
section
/-! SUPPORT. What each operation of Landing.lean (landing tick and checkpoint) leaves unchanged. -/

namespace Sys2Proof.Machine

theorem markEngine_keeps (e : Nat) (s : State) :
    (markEngine e s).bell = s.bell ∧
    (markEngine e s).ports = s.ports ∧
    (markEngine e s).rings = s.rings ∧
    (markEngine e s).gn8s = s.gn8s ∧
    (markEngine e s).heads = s.heads ∧
    (markEngine e s).man = s.man ∧
    (markEngine e s).sup = s.sup ∧
    (markEngine e s).saf = s.saf ∧
    (markEngine e s).pmc = s.pmc ∧
    (markEngine e s).dev = s.dev ∧
    (markEngine e s).img = s.img ∧
    (markEngine e s).pins = s.pins ∧
    (markEngine e s).shown = s.shown ∧
    (markEngine e s).free = s.free ∧
    (markEngine e s).pending = s.pending := by
  unfold markEngine
  simp [writeEntry_keeps]

theorem turnKept_keeps (s : State) :
    (turnKept s).bell = s.bell ∧
    (turnKept s).frame = s.frame ∧
    (turnKept s).ports = s.ports ∧
    (turnKept s).rings = s.rings ∧
    (turnKept s).gn8s = s.gn8s ∧
    (turnKept s).man = s.man ∧
    (turnKept s).engs = s.engs ∧
    (turnKept s).sup = s.sup ∧
    (turnKept s).saf = s.saf ∧
    (turnKept s).ha = s.ha ∧
    (turnKept s).hb = s.hb ∧
    (turnKept s).pmc = s.pmc ∧
    (turnKept s).dev = s.dev ∧
    (turnKept s).img = s.img ∧
    (turnKept s).flt = s.flt ∧
    (turnKept s).pins = s.pins ∧
    (turnKept s).shown = s.shown ∧
    (turnKept s).free = s.free ∧
    (turnKept s).pending = s.pending := by
  exact ⟨rfl, rfl, rfl, rfl, rfl, rfl, rfl, rfl, rfl, rfl, rfl, rfl, rfl, rfl, rfl, rfl, rfl, rfl, rfl⟩

theorem closeStreams_keeps (s : State) :
    (closeStreams s).bell = s.bell ∧
    (closeStreams s).ports = s.ports ∧
    (closeStreams s).man = s.man ∧
    (closeStreams s).saf = s.saf ∧
    (closeStreams s).pmc = s.pmc ∧
    (closeStreams s).dev = s.dev ∧
    (closeStreams s).img = s.img ∧
    (closeStreams s).pins = s.pins ∧
    (closeStreams s).shown = s.shown ∧
    (closeStreams s).free = s.free ∧
    (closeStreams s).pending = s.pending := by
  unfold closeStreams
  simp [turnKept_keeps, switchMoves_keeps, markEngine_keeps, flushBubble_keeps, ringsTick_keeps]

theorem closeFrame_keeps (s : State) :
    (closeFrame s).ports = s.ports ∧
    (closeFrame s).rings = s.rings ∧
    (closeFrame s).gn8s = s.gn8s ∧
    (closeFrame s).heads = s.heads ∧
    (closeFrame s).man = s.man ∧
    (closeFrame s).engs = s.engs ∧
    (closeFrame s).sup = s.sup ∧
    (closeFrame s).saf = s.saf ∧
    (closeFrame s).ha = s.ha ∧
    (closeFrame s).hb = s.hb ∧
    (closeFrame s).pmc = s.pmc ∧
    (closeFrame s).dev = s.dev ∧
    (closeFrame s).img = s.img ∧
    (closeFrame s).flt = s.flt ∧
    (closeFrame s).pins = s.pins ∧
    (closeFrame s).shown = s.shown ∧
    (closeFrame s).free = s.free ∧
    (closeFrame s).pending = s.pending := by
  exact ⟨rfl, rfl, rfl, rfl, rfl, rfl, rfl, rfl, rfl, rfl, rfl, rfl, rfl, rfl, rfl, rfl, rfl, rfl⟩

theorem failCheckpoint_keeps (bits : List Nat) (s : State) :
    (failCheckpoint bits s).bell = s.bell ∧
    (failCheckpoint bits s).frame = s.frame ∧
    (failCheckpoint bits s).ports = s.ports ∧
    (failCheckpoint bits s).rings = s.rings ∧
    (failCheckpoint bits s).gn8s = s.gn8s ∧
    (failCheckpoint bits s).heads = s.heads ∧
    (failCheckpoint bits s).man = s.man ∧
    (failCheckpoint bits s).engs = s.engs ∧
    (failCheckpoint bits s).saf = s.saf ∧
    (failCheckpoint bits s).pmc = s.pmc ∧
    (failCheckpoint bits s).dev = s.dev ∧
    (failCheckpoint bits s).img = s.img ∧
    (failCheckpoint bits s).pins = s.pins ∧
    (failCheckpoint bits s).shown = s.shown ∧
    (failCheckpoint bits s).free = s.free ∧
    (failCheckpoint bits s).pending = s.pending := by
  unfold failCheckpoint
  simp [sticky_keeps]

theorem takeMailboxes_keeps (failed : Bool) (disagree : List (Bool × Nat)) (s : State) :
    (takeMailboxes failed disagree s).bell = s.bell ∧
    (takeMailboxes failed disagree s).frame = s.frame ∧
    (takeMailboxes failed disagree s).ports = s.ports ∧
    (takeMailboxes failed disagree s).rings = s.rings ∧
    (takeMailboxes failed disagree s).gn8s = s.gn8s ∧
    (takeMailboxes failed disagree s).heads = s.heads ∧
    (takeMailboxes failed disagree s).man = s.man ∧
    (takeMailboxes failed disagree s).engs = s.engs ∧
    (takeMailboxes failed disagree s).saf = s.saf ∧
    (takeMailboxes failed disagree s).pmc = s.pmc ∧
    (takeMailboxes failed disagree s).dev = s.dev ∧
    (takeMailboxes failed disagree s).img = s.img ∧
    (takeMailboxes failed disagree s).pins = s.pins ∧
    (takeMailboxes failed disagree s).shown = s.shown ∧
    (takeMailboxes failed disagree s).free = s.free ∧
    (takeMailboxes failed disagree s).pending = s.pending := by
  unfold takeMailboxes
  simp [stickyIf_keeps, copyMailbox_keeps]

theorem upsetTick_keeps (w : TickIn) (s : State) :
    (upsetTick w s).bell = s.bell ∧
    (upsetTick w s).frame = s.frame ∧
    (upsetTick w s).ports = s.ports ∧
    (upsetTick w s).rings = s.rings ∧
    (upsetTick w s).gn8s = s.gn8s ∧
    (upsetTick w s).heads = s.heads ∧
    (upsetTick w s).man = s.man ∧
    (upsetTick w s).saf = s.saf ∧
    (upsetTick w s).ha = s.ha ∧
    (upsetTick w s).hb = s.hb ∧
    (upsetTick w s).pmc = s.pmc ∧
    (upsetTick w s).dev = s.dev ∧
    (upsetTick w s).img = s.img ∧
    (upsetTick w s).flt = s.flt ∧
    (upsetTick w s).pins = s.pins ∧
    (upsetTick w s).shown = s.shown ∧
    (upsetTick w s).free = s.free ∧
    (upsetTick w s).pending = s.pending := by
  unfold upsetTick
  simp [modEng_keeps]

theorem nextLanding_keeps (preset : Bool) (s : State) :
    (nextLanding preset s).frame = s.frame ∧
    (nextLanding preset s).ports = s.ports ∧
    (nextLanding preset s).rings = s.rings ∧
    (nextLanding preset s).gn8s = s.gn8s ∧
    (nextLanding preset s).heads = s.heads ∧
    (nextLanding preset s).man = s.man ∧
    (nextLanding preset s).engs = s.engs ∧
    (nextLanding preset s).sup = s.sup ∧
    (nextLanding preset s).saf = s.saf ∧
    (nextLanding preset s).ha = s.ha ∧
    (nextLanding preset s).hb = s.hb ∧
    (nextLanding preset s).pmc = s.pmc ∧
    (nextLanding preset s).dev = s.dev ∧
    (nextLanding preset s).img = s.img ∧
    (nextLanding preset s).flt = s.flt ∧
    (nextLanding preset s).pins = s.pins ∧
    (nextLanding preset s).shown = s.shown ∧
    (nextLanding preset s).free = s.free ∧
    (nextLanding preset s).pending = s.pending := by
  unfold nextLanding
  simp []

theorem bellTick_keeps (s : State) :
    (bellTick s).frame = s.frame ∧
    (bellTick s).ports = s.ports ∧
    (bellTick s).rings = s.rings ∧
    (bellTick s).gn8s = s.gn8s ∧
    (bellTick s).heads = s.heads ∧
    (bellTick s).man = s.man ∧
    (bellTick s).engs = s.engs ∧
    (bellTick s).sup = s.sup ∧
    (bellTick s).saf = s.saf ∧
    (bellTick s).ha = s.ha ∧
    (bellTick s).hb = s.hb ∧
    (bellTick s).pmc = s.pmc ∧
    (bellTick s).dev = s.dev ∧
    (bellTick s).img = s.img ∧
    (bellTick s).flt = s.flt ∧
    (bellTick s).pins = s.pins ∧
    (bellTick s).shown = s.shown ∧
    (bellTick s).free = s.free ∧
    (bellTick s).pending = s.pending := by
  unfold bellTick
  simp [holdoverExitTick_keeps]

theorem rateCheck_keeps (bad : Bool) (s : State) :
    (rateCheck bad s).bell = s.bell ∧
    (rateCheck bad s).frame = s.frame ∧
    (rateCheck bad s).rings = s.rings ∧
    (rateCheck bad s).gn8s = s.gn8s ∧
    (rateCheck bad s).heads = s.heads ∧
    (rateCheck bad s).man = s.man ∧
    (rateCheck bad s).engs = s.engs ∧
    (rateCheck bad s).sup = s.sup ∧
    (rateCheck bad s).pmc = s.pmc ∧
    (rateCheck bad s).img = s.img ∧
    (rateCheck bad s).pins = s.pins ∧
    (rateCheck bad s).shown = s.shown ∧
    (rateCheck bad s).free = s.free ∧
    (rateCheck bad s).pending = s.pending := by
  unfold rateCheck
  simp [sticky_keeps, enterSafe_keeps]

theorem landingAt_keeps (preset : Bool) (w : TickIn) (s : State) :
    (landingAt preset w s).img = s.img ∧
    (landingAt preset w s).pins = s.pins ∧
    (landingAt preset w s).shown = s.shown ∧
    (landingAt preset w s).free = s.free ∧
    (landingAt preset w s).pending = s.pending := by
  unfold landingAt
  simp [persist_keeps, releaseFaultN_keeps, safioTick_keeps, harbourTick_keeps, upsetTick_keeps, reportTick_keeps, pmcTick_keeps,
    silentTick_keeps, treeCheck_keeps, rateCheck_keeps, closeStreams_keeps, closeFrame_keeps, nextLanding_keeps,
    bellTick_keeps, failCheckpoint_keeps, takeMailboxes_keeps, enterSafe_keeps]

theorem presetTick_keeps (w : TickIn) (s : State) :
    (presetTick w s).pins = s.pins ∧
    (presetTick w s).shown = s.shown ∧
    (presetTick w s).free = s.free ∧
    (presetTick w s).pending = s.pending := by
  unfold presetTick
  first
    | (simp [addTicks_keeps, takePreset_keeps, landingAt_keeps]; done)
    | ((repeat' split) <;> simp [addTicks_keeps, takePreset_keeps, landingAt_keeps]; done)
    | (dsimp only; (repeat' split) <;> simp [addTicks_keeps, takePreset_keeps, landingAt_keeps]; done)
    | (simp [addTicks_keeps, takePreset_keeps, landingAt_keeps]; (repeat' split) <;> simp [addTicks_keeps,
      takePreset_keeps, landingAt_keeps]; done)

theorem runToLanding_keeps (w : TickIn) (s : State) :
    (runToLanding w s).pins = s.pins ∧
    (runToLanding w s).shown = s.shown ∧
    (runToLanding w s).free = s.free ∧
    (runToLanding w s).pending = s.pending := by
  unfold runToLanding
  simp [addTicks_keeps, passDeadline_keeps, landingAt_keeps, presetTick_keeps]

theorem execLandingTick_keeps (w : TickIn) (s : State) (u : State) (h : execLandingTick w s = .next u) :
    u.pins = s.pins ∧
    u.shown = s.shown ∧
    u.free = s.free ∧
    u.pending = s.pending := by
  injection h with h
  subst h
  simp [runToLanding_keeps]

theorem bellTickOne_keeps (s : State) :
    (bellTickOne s).pins = s.pins ∧
    (bellTickOne s).shown = s.shown ∧
    (bellTickOne s).free = s.free ∧
    (bellTickOne s).pending = s.pending := by
  unfold bellTickOne
  simp [addTicks_keeps, passDeadline_keeps, runToLanding_keeps]

theorem execPresetLoad_keeps (s : State) (u : State) (h : execPresetLoad s = .next u) :
    u.pins = s.pins ∧
    u.shown = s.shown ∧
    u.free = s.free ∧
    u.pending = s.pending := by
  injection h with h
  subst h
  simp [presetTick_keeps]

theorem execBellTimeWrap_keeps (s : State) (u : State) (h : execBellTimeWrap s = .next u) :
    u.pins = s.pins ∧
    u.shown = s.shown ∧
    u.free = s.free ∧
    u.pending = s.pending := by
  injection h with h
  subst h
  simp [bellTickOne_keeps]

theorem execLandingNumberWrap_keeps (w : TickIn) (s : State) (u : State) (h : execLandingNumberWrap w s = .next u) :
    u.pins = s.pins ∧
    u.shown = s.shown ∧
    u.free = s.free ∧
    u.pending = s.pending := by
  injection h with h
  subst h
  simp [runToLanding_keeps]

theorem execHoldoverEntry_keeps (missing : Bool) (s : State) (u : State) (h : execHoldoverEntry missing s = .next u) :
    u.pins = s.pins ∧
    u.shown = s.shown ∧
    u.free = s.free ∧
    u.pending = s.pending := by
  injection h with h
  subst h
  simp [enterHoldover_keeps, bellTickOne_keeps]

theorem execBellppsEdge_keeps (s : State) (u : State) (h : execBellppsEdge s = .next u) :
    u.pins = s.pins ∧
    u.shown = s.shown ∧
    u.free = s.free ∧
    u.pending = s.pending := by
  injection h with h
  subst h
  simp [takePreset_keeps, stampPps_keeps, landingAt_keeps]

theorem expireRefs_keeps (s : State) :
    (expireRefs s).frame = s.frame ∧
    (expireRefs s).ports = s.ports ∧
    (expireRefs s).ha = s.ha ∧
    (expireRefs s).hb = s.hb ∧
    (expireRefs s).flt = s.flt ∧
    (expireRefs s).pins = s.pins ∧
    (expireRefs s).shown = s.shown ∧
    (expireRefs s).free = s.free ∧
    (expireRefs s).pending = s.pending := by
  exact ⟨rfl, rfl, rfl, rfl, rfl, rfl, rfl, rfl, rfl⟩

theorem execReferenceExpiry_keeps (s : State) (u : State) (h : execReferenceExpiry s = .next u) :
    u.frame = s.frame ∧
    u.ports = s.ports ∧
    u.ha = s.ha ∧
    u.hb = s.hb ∧
    u.flt = s.flt ∧
    u.pins = s.pins ∧
    u.shown = s.shown ∧
    u.free = s.free ∧
    u.pending = s.pending := by
  injection h with h
  subst h
  simp [expireRefs_keeps]

theorem takeDigests_keeps (errA errB : Word) (s : State) :
    (takeDigests errA errB s).bell = s.bell ∧
    (takeDigests errA errB s).frame = s.frame ∧
    (takeDigests errA errB s).ports = s.ports ∧
    (takeDigests errA errB s).rings = s.rings ∧
    (takeDigests errA errB s).gn8s = s.gn8s ∧
    (takeDigests errA errB s).heads = s.heads ∧
    (takeDigests errA errB s).man = s.man ∧
    (takeDigests errA errB s).engs = s.engs ∧
    (takeDigests errA errB s).saf = s.saf ∧
    (takeDigests errA errB s).ha = s.ha ∧
    (takeDigests errA errB s).hb = s.hb ∧
    (takeDigests errA errB s).pmc = s.pmc ∧
    (takeDigests errA errB s).dev = s.dev ∧
    (takeDigests errA errB s).img = s.img ∧
    (takeDigests errA errB s).flt = s.flt ∧
    (takeDigests errA errB s).pins = s.pins ∧
    (takeDigests errA errB s).shown = s.shown ∧
    (takeDigests errA errB s).free = s.free ∧
    (takeDigests errA errB s).pending = s.pending := by
  exact ⟨rfl, rfl, rfl, rfl, rfl, rfl, rfl, rfl, rfl, rfl, rfl, rfl, rfl, rfl, rfl, rfl, rfl, rfl, rfl⟩

theorem passCheckpoint_keeps (s : State) :
    (passCheckpoint s).bell = s.bell ∧
    (passCheckpoint s).frame = s.frame ∧
    (passCheckpoint s).ports = s.ports ∧
    (passCheckpoint s).rings = s.rings ∧
    (passCheckpoint s).gn8s = s.gn8s ∧
    (passCheckpoint s).heads = s.heads ∧
    (passCheckpoint s).man = s.man ∧
    (passCheckpoint s).engs = s.engs ∧
    (passCheckpoint s).saf = s.saf ∧
    (passCheckpoint s).pmc = s.pmc ∧
    (passCheckpoint s).dev = s.dev ∧
    (passCheckpoint s).img = s.img ∧
    (passCheckpoint s).pins = s.pins ∧
    (passCheckpoint s).shown = s.shown ∧
    (passCheckpoint s).free = s.free ∧
    (passCheckpoint s).pending = s.pending := by
  unfold passCheckpoint
  simp [writeDeck_keeps, publishPassed_keeps, agreeMoves_keeps]

theorem checkpoint_keeps (w : CheckIn) (s : State) :
    (checkpoint w s).bell = s.bell ∧
    (checkpoint w s).frame = s.frame ∧
    (checkpoint w s).ports = s.ports ∧
    (checkpoint w s).rings = s.rings ∧
    (checkpoint w s).gn8s = s.gn8s ∧
    (checkpoint w s).heads = s.heads ∧
    (checkpoint w s).man = s.man ∧
    (checkpoint w s).engs = s.engs ∧
    (checkpoint w s).saf = s.saf ∧
    (checkpoint w s).pmc = s.pmc ∧
    (checkpoint w s).dev = s.dev ∧
    (checkpoint w s).img = s.img ∧
    (checkpoint w s).pins = s.pins ∧
    (checkpoint w s).shown = s.shown ∧
    (checkpoint w s).free = s.free ∧
    (checkpoint w s).pending = s.pending := by
  unfold checkpoint
  dsimp only
  (repeat' split) <;> simp [failCheckpoint_keeps, passCheckpoint_keeps, takeMailboxes_keeps, takeDigests_keeps]

theorem execCheckpoint_keeps (w : CheckIn) (s : State) (u : State) (h : execCheckpoint w s = .next u) :
    u.bell = s.bell ∧
    u.frame = s.frame ∧
    u.ports = s.ports ∧
    u.rings = s.rings ∧
    u.gn8s = s.gn8s ∧
    u.heads = s.heads ∧
    u.man = s.man ∧
    u.engs = s.engs ∧
    u.saf = s.saf ∧
    u.pmc = s.pmc ∧
    u.dev = s.dev ∧
    u.img = s.img ∧
    u.pins = s.pins ∧
    u.shown = s.shown ∧
    u.free = s.free ∧
    u.pending = s.pending := by
  injection h with h
  subst h
  simp [checkpoint_keeps]

theorem execCheckpointDeadline_keeps (s : State) (u : State) (h : execCheckpointDeadline s = .next u) :
    u.frame = s.frame ∧
    u.rings = s.rings ∧
    u.gn8s = s.gn8s ∧
    u.heads = s.heads ∧
    u.man = s.man ∧
    u.engs = s.engs ∧
    u.saf = s.saf ∧
    u.pmc = s.pmc ∧
    u.dev = s.dev ∧
    u.img = s.img ∧
    u.pins = s.pins ∧
    u.shown = s.shown ∧
    u.free = s.free ∧
    u.pending = s.pending := by
  unfold execCheckpointDeadline at h
  (repeat' split at h) <;> (injection h with h; subst h; simp [addTicks_keeps, failCheckpoint_keeps,
    takeMailboxes_keeps])

theorem execDeadmanExpiry_keeps (s : State) (u : State) (h : execDeadmanExpiry s = .next u) :
    u.pins = s.pins ∧
    u.shown = s.shown ∧
    u.free = s.free ∧
    u.pending = s.pending := by
  injection h with h
  subst h
  simp [runToLanding_keeps]

end Sys2Proof.Machine
end

