-- ==== Sys2Proof/Laws/FrameRegs.lean ====
section
/-! SUPPORT. What each operation of Regs.lean (register writes) leaves unchanged. -/

namespace Sys2Proof.Machine

theorem arrayWrite_cases (p : HostId) (off : Nat) (v : Word) (s : State) :
    arrayWrite p off v s = none ∨ ∃ cls ix, arrayWrite p off v s = some (w1c p cls ix v s) := by
  unfold arrayWrite
  dsimp only
  (repeat' split) <;> first | exact .inl rfl | exact .inr ⟨_, _, rfl⟩

theorem clearIrq_keeps (p : HostId) (v : Word) (s : State) :
    (clearIrq p v s).bell = s.bell ∧
    (clearIrq p v s).frame = s.frame ∧
    (clearIrq p v s).ports = s.ports ∧
    (clearIrq p v s).rings = s.rings ∧
    (clearIrq p v s).gn8s = s.gn8s ∧
    (clearIrq p v s).heads = s.heads ∧
    (clearIrq p v s).man = s.man ∧
    (clearIrq p v s).engs = s.engs ∧
    (clearIrq p v s).sup = s.sup ∧
    (clearIrq p v s).saf = s.saf ∧
    (clearIrq p v s).pmc = s.pmc ∧
    (clearIrq p v s).dev = s.dev ∧
    (clearIrq p v s).img = s.img ∧
    (clearIrq p v s).pins = s.pins ∧
    (clearIrq p v s).shown = s.shown ∧
    (clearIrq p v s).free = s.free ∧
    (clearIrq p v s).pending = s.pending := by
  unfold clearIrq
  simp [modHost_keeps]

theorem hostWrite_keeps (p : HostId) (off : Nat) (v : Word) (s : State) :
    (hostWrite p off v s).frame = s.frame ∧
    (hostWrite p off v s).ports = s.ports ∧
    (hostWrite p off v s).rings = s.rings ∧
    (hostWrite p off v s).gn8s = s.gn8s ∧
    (hostWrite p off v s).heads = s.heads ∧
    (hostWrite p off v s).man = s.man ∧
    (hostWrite p off v s).engs = s.engs ∧
    (hostWrite p off v s).sup = s.sup ∧
    (hostWrite p off v s).saf = s.saf ∧
    (hostWrite p off v s).dev = s.dev ∧
    (hostWrite p off v s).img = s.img ∧
    (hostWrite p off v s).pins = s.pins ∧
    (hostWrite p off v s).shown = s.shown ∧
    (hostWrite p off v s).free = s.free ∧
    (hostWrite p off v s).pending = s.pending := by
  unfold hostWrite
  (repeat' split) <;> simp [w1c_keeps, clearIrq_keeps, writeRidx_keeps, gatedWrite_keeps, writePub_keeps,
    modHost_keeps]

theorem bellWrite_keeps (p : HostId) (off : Nat) (v : Word) (s : State) :
    (bellWrite p off v s).frame = s.frame ∧
    (bellWrite p off v s).ports = s.ports ∧
    (bellWrite p off v s).rings = s.rings ∧
    (bellWrite p off v s).gn8s = s.gn8s ∧
    (bellWrite p off v s).heads = s.heads ∧
    (bellWrite p off v s).man = s.man ∧
    (bellWrite p off v s).engs = s.engs ∧
    (bellWrite p off v s).sup = s.sup ∧
    (bellWrite p off v s).saf = s.saf ∧
    (bellWrite p off v s).dev = s.dev ∧
    (bellWrite p off v s).img = s.img ∧
    (bellWrite p off v s).pins = s.pins ∧
    (bellWrite p off v s).shown = s.shown ∧
    (bellWrite p off v s).free = s.free ∧
    (bellWrite p off v s).pending = s.pending := by
  unfold bellWrite
  simp [bellTake_keeps, w1c_keeps]

theorem writeImgLen_keeps (v : Word) (s : State) :
    (writeImgLen v s).bell = s.bell ∧
    (writeImgLen v s).frame = s.frame ∧
    (writeImgLen v s).ports = s.ports ∧
    (writeImgLen v s).rings = s.rings ∧
    (writeImgLen v s).gn8s = s.gn8s ∧
    (writeImgLen v s).heads = s.heads ∧
    (writeImgLen v s).man = s.man ∧
    (writeImgLen v s).engs = s.engs ∧
    (writeImgLen v s).sup = s.sup ∧
    (writeImgLen v s).saf = s.saf ∧
    (writeImgLen v s).ha = s.ha ∧
    (writeImgLen v s).hb = s.hb ∧
    (writeImgLen v s).pmc = s.pmc ∧
    (writeImgLen v s).dev = s.dev ∧
    (writeImgLen v s).flt = s.flt ∧
    (writeImgLen v s).pins = s.pins ∧
    (writeImgLen v s).shown = s.shown ∧
    (writeImgLen v s).free = s.free ∧
    (writeImgLen v s).pending = s.pending := by
  unfold writeImgLen
  simp []

theorem imgWrite_keeps (p : HostId) (off : Nat) (v : Word) (s : State) :
    (imgWrite p off v s).frame = s.frame ∧
    (imgWrite p off v s).ports = s.ports ∧
    (imgWrite p off v s).rings = s.rings ∧
    (imgWrite p off v s).gn8s = s.gn8s ∧
    (imgWrite p off v s).heads = s.heads ∧
    (imgWrite p off v s).man = s.man ∧
    (imgWrite p off v s).engs = s.engs ∧
    (imgWrite p off v s).sup = s.sup ∧
    (imgWrite p off v s).saf = s.saf ∧
    (imgWrite p off v s).dev = s.dev ∧
    (imgWrite p off v s).pins = s.pins ∧
    (imgWrite p off v s).shown = s.shown ∧
    (imgWrite p off v s).free = s.free ∧
    (imgWrite p off v s).pending = s.pending := by
  unfold imgWrite
  (repeat' split) <;> simp [w1c_keeps, writeImgLen_keeps, loadWrite_keeps]

theorem writeChkSel_keeps (p : HostId) (v : Word) (s : State) :
    (writeChkSel p v s).bell = s.bell ∧
    (writeChkSel p v s).frame = s.frame ∧
    (writeChkSel p v s).ports = s.ports ∧
    (writeChkSel p v s).rings = s.rings ∧
    (writeChkSel p v s).gn8s = s.gn8s ∧
    (writeChkSel p v s).heads = s.heads ∧
    (writeChkSel p v s).man = s.man ∧
    (writeChkSel p v s).engs = s.engs ∧
    (writeChkSel p v s).sup = s.sup ∧
    (writeChkSel p v s).saf = s.saf ∧
    (writeChkSel p v s).pmc = s.pmc ∧
    (writeChkSel p v s).dev = s.dev ∧
    (writeChkSel p v s).img = s.img ∧
    (writeChkSel p v s).flt = s.flt ∧
    (writeChkSel p v s).pins = s.pins ∧
    (writeChkSel p v s).shown = s.shown ∧
    (writeChkSel p v s).free = s.free ∧
    (writeChkSel p v s).pending = s.pending := by
  unfold writeChkSel
  simp [modHost_keeps]

theorem otherWrite_keeps (p : HostId) (off : Nat) (v : Word) (s : State) :
    (otherWrite p off v s).frame = s.frame ∧
    (otherWrite p off v s).ports = s.ports ∧
    (otherWrite p off v s).rings = s.rings ∧
    (otherWrite p off v s).gn8s = s.gn8s ∧
    (otherWrite p off v s).heads = s.heads ∧
    (otherWrite p off v s).man = s.man ∧
    (otherWrite p off v s).engs = s.engs ∧
    (otherWrite p off v s).sup = s.sup ∧
    (otherWrite p off v s).saf = s.saf ∧
    (otherWrite p off v s).img = s.img ∧
    (otherWrite p off v s).pins = s.pins ∧
    (otherWrite p off v s).shown = s.shown ∧
    (otherWrite p off v s).free = s.free ∧
    (otherWrite p off v s).pending = s.pending := by
  unfold otherWrite
  (repeat' split) <;> simp [modHost_keeps, clearFirst_keeps, writeChkSel_keeps, w1c_keeps, requestStart_keeps]

theorem bar0Write_keeps (p : HostId) (off : Nat) (v : Word) (s : State) :
    (bar0Write p off v s).frame = s.frame ∧
    (bar0Write p off v s).ports = s.ports ∧
    (bar0Write p off v s).rings = s.rings ∧
    (bar0Write p off v s).gn8s = s.gn8s ∧
    (bar0Write p off v s).heads = s.heads ∧
    (bar0Write p off v s).man = s.man ∧
    (bar0Write p off v s).engs = s.engs ∧
    (bar0Write p off v s).sup = s.sup ∧
    (bar0Write p off v s).saf = s.saf ∧
    (bar0Write p off v s).pins = s.pins ∧
    (bar0Write p off v s).shown = s.shown ∧
    (bar0Write p off v s).free = s.free ∧
    (bar0Write p off v s).pending = s.pending := by
  unfold bar0Write
  rcases arrayWrite_cases p off v s with h | ⟨cls, ix, h⟩ <;> rw [h] <;>
    simp [w1c_keeps, otherWrite_keeps, imgWrite_keeps, bellWrite_keeps, hostWrite_keeps]

theorem writeDw_keeps (p : HostId) (off : Nat) (v : Word) (be : BitVec 4) (s : State) :
    (writeDw p off v be s).frame = s.frame ∧
    (writeDw p off v be s).ports = s.ports ∧
    (writeDw p off v be s).rings = s.rings ∧
    (writeDw p off v be s).gn8s = s.gn8s ∧
    (writeDw p off v be s).heads = s.heads ∧
    (writeDw p off v be s).man = s.man ∧
    (writeDw p off v be s).engs = s.engs ∧
    (writeDw p off v be s).sup = s.sup ∧
    (writeDw p off v be s).saf = s.saf ∧
    (writeDw p off v be s).pins = s.pins ∧
    (writeDw p off v be s).shown = s.shown ∧
    (writeDw p off v be s).free = s.free ∧
    (writeDw p off v be s).pending = s.pending := by
  unfold writeDw
  simp [bar0Write_keeps, sticky_keeps]

theorem writeDws_keeps (p : HostId) (off : Nat) (dws : List (Word × BitVec 4)) (s : State) :
    (writeDws p off dws s).frame = s.frame ∧
    (writeDws p off dws s).ports = s.ports ∧
    (writeDws p off dws s).rings = s.rings ∧
    (writeDws p off dws s).gn8s = s.gn8s ∧
    (writeDws p off dws s).heads = s.heads ∧
    (writeDws p off dws s).man = s.man ∧
    (writeDws p off dws s).engs = s.engs ∧
    (writeDws p off dws s).sup = s.sup ∧
    (writeDws p off dws s).saf = s.saf ∧
    (writeDws p off dws s).pins = s.pins ∧
    (writeDws p off dws s).shown = s.shown ∧
    (writeDws p off dws s).free = s.free ∧
    (writeDws p off dws s).pending = s.pending := by
  unfold writeDws
  simp [writeDw_keeps]

theorem requestWrite_keeps (p : HostId) (off : BitVec 18) (dws : List (Word × BitVec 4)) (poisoned : Bool) (s : State) :
    (requestWrite p off dws poisoned s).frame = s.frame ∧
    (requestWrite p off dws poisoned s).ports = s.ports ∧
    (requestWrite p off dws poisoned s).rings = s.rings ∧
    (requestWrite p off dws poisoned s).gn8s = s.gn8s ∧
    (requestWrite p off dws poisoned s).heads = s.heads ∧
    (requestWrite p off dws poisoned s).man = s.man ∧
    (requestWrite p off dws poisoned s).engs = s.engs ∧
    (requestWrite p off dws poisoned s).sup = s.sup ∧
    (requestWrite p off dws poisoned s).saf = s.saf ∧
    (requestWrite p off dws poisoned s).pins = s.pins ∧
    (requestWrite p off dws poisoned s).shown = s.shown ∧
    (requestWrite p off dws poisoned s).free = s.free ∧
    (requestWrite p off dws poisoned s).pending = s.pending := by
  unfold requestWrite
  (repeat' split) <;> simp [writeDws_keeps, poisonedReq_keeps, unsupported_keeps, pushRx_keeps, popRx_keeps]

theorem execRegisterWrite_keeps (p : HostId) (off : BitVec 18) (dw : Word × BitVec 4) (more : List (Word × BitVec 4))
    (poisoned : Bool) (s : State) (u : State) (h : execRegisterWrite p off dw more poisoned s = .next u) :
    u.frame = s.frame ∧
    u.ports = s.ports ∧
    u.rings = s.rings ∧
    u.gn8s = s.gn8s ∧
    u.heads = s.heads ∧
    u.man = s.man ∧
    u.engs = s.engs ∧
    u.sup = s.sup ∧
    u.saf = s.saf ∧
    u.pins = s.pins ∧
    u.shown = s.shown ∧
    u.free = s.free ∧
    u.pending = s.pending := by
  injection h with h
  subst h
  simp [requestWrite_keeps]

theorem readEffect_keeps (p : HostId) (off : Nat) (s : State) :
    (readEffect p off s).bell = s.bell ∧
    (readEffect p off s).frame = s.frame ∧
    (readEffect p off s).ports = s.ports ∧
    (readEffect p off s).rings = s.rings ∧
    (readEffect p off s).gn8s = s.gn8s ∧
    (readEffect p off s).heads = s.heads ∧
    (readEffect p off s).man = s.man ∧
    (readEffect p off s).engs = s.engs ∧
    (readEffect p off s).sup = s.sup ∧
    (readEffect p off s).saf = s.saf ∧
    (readEffect p off s).pmc = s.pmc ∧
    (readEffect p off s).dev = s.dev ∧
    (readEffect p off s).img = s.img ∧
    (readEffect p off s).flt = s.flt ∧
    (readEffect p off s).pins = s.pins ∧
    (readEffect p off s).shown = s.shown ∧
    (readEffect p off s).free = s.free ∧
    (readEffect p off s).pending = s.pending := by
  unfold readEffect
  simp [readPpsLo_keeps, readTimeLo_keeps]

end Sys2Proof.Machine
end

