-- ==== Sys2Proof/Laws/Tables.lean ====
section
/-! SUPPORT. Tables and memories: what a read gives after a write, and that every operation keeps the canonical form. -/

namespace Sys2Proof.Machine

variable {α : Type}

theorem tabGet_filter_same (d : α) (t : Tab α) (k : Nat) : tabGet d (t.filter fun p => p.1 != k) k = d := by
  induction t with
  | nil => rfl
  | cons p t ih =>
    by_cases h : p.1 = k
    · simpa [List.filter_cons, h] using ih
    · have h2 : ¬k = p.1 := fun e => h e.symm
      simpa [List.filter_cons, h, h2, tabGet] using ih

theorem tabGet_filter_other (d : α) (t : Tab α) (k j : Nat) (h : j ≠ k) :
    tabGet d (t.filter fun p => p.1 != k) j = tabGet d t j := by
  induction t with
  | nil => rfl
  | cons p t ih =>
    by_cases hp : p.1 = k
    · have h2 : ¬j = p.1 := fun e => h (e.trans hp)
      simp [hp, tabGet, h, ih]
    · by_cases hj : j = p.1 <;> simp [hp, tabGet, hj, ih]

theorem tabGet_tabPut_same (d : α) (t : Tab α) (k : Nat) (v : α) : tabGet d (tabPut t k v) k = v := by
  induction t with
  | nil => simp [tabPut, tabGet]
  | cons p t ih =>
    unfold tabPut
    split
    · simp [tabGet]
    · split
      · simp [tabGet]
      · simp_all [tabGet]

theorem tabGet_tabPut_other (d : α) (t : Tab α) (k j : Nat) (v : α) (h : j ≠ k) :
    tabGet d (tabPut t k v) j = tabGet d t j := by
  induction t with
  | nil => simp [tabPut, tabGet, h]
  | cons p t ih =>
    unfold tabPut
    split
    · simp [tabGet, h]
    · split
      · simp_all [tabGet]
      · simp [tabGet, ih]

/-- A read of a table gives the value written last. -/
theorem tabGet_tabSet_same [DecidableEq α] (d : α) (t : Tab α) (k : Nat) (v : α) :
    tabGet d (tabSet d t k v) k = v := by
  unfold tabSet
  split
  · rename_i h
    rw [tabGet_filter_same, h]
  · exact tabGet_tabPut_same d t k v

/-- A write of a table leaves every other key alone. -/
theorem tabGet_tabSet_other [DecidableEq α] (d : α) (t : Tab α) (k j : Nat) (v : α) (h : j ≠ k) :
    tabGet d (tabSet d t k v) j = tabGet d t j := by
  unfold tabSet
  split
  · exact tabGet_filter_other d t k j h
  · exact tabGet_tabPut_other d t k j v h

theorem tabGet_tabSet [DecidableEq α] (d : α) (t : Tab α) (k j : Nat) (v : α) :
    tabGet d (tabSet d t k v) j = if j = k then v else tabGet d t j := by
  split
  · rename_i h
    rw [h, tabGet_tabSet_same]
  · rename_i h
    exact tabGet_tabSet_other d t k j v h

/-! ### The canonical form -/

section Wf

variable [DecidableEq α]

/-- Every key of a canonical table lies above its bound. -/
theorem tabWfFrom_keys (d : α) (lo : Nat) (t : Tab α) (h : tabWfFrom d (some lo) t = true) :
    ∀ p ∈ t, lo < p.1 := by
  induction t generalizing lo with
  | nil => simp
  | cons p t ih =>
    obtain ⟨k, v⟩ := p
    simp only [tabWfFrom, Bool.and_eq_true, decide_eq_true_eq] at h
    intro q hq
    rcases List.mem_cons.mp hq with rfl | hq
    · exact h.1.1
    · exact lt_trans h.1.1 (ih k h.2 q hq)

theorem tabWfFrom_weaken (d : α) (lo : Option Nat) (k : Nat) (t : Tab α) (h : tabWfFrom d (some k) t = true)
    (hl : ∀ l, lo = some l → l ≤ k) : tabWfFrom d lo t = true := by
  cases t with
  | nil => rfl
  | cons p t =>
    obtain ⟨k', v⟩ := p
    simp only [tabWfFrom, Bool.and_eq_true, decide_eq_true_eq] at h ⊢
    refine ⟨⟨?_, h.1.2⟩, h.2⟩
    cases lo with
    | none => rfl
    | some l => simpa using lt_of_le_of_lt (hl l rfl) h.1.1

/-- Removing entries keeps the form. -/
theorem tabWfFrom_filter (d : α) (f : Nat × α → Bool) (lo : Option Nat) (t : Tab α)
    (h : tabWfFrom d lo t = true) : tabWfFrom d lo (t.filter f) = true := by
  induction t generalizing lo with
  | nil => rfl
  | cons p t ih =>
    obtain ⟨k, v⟩ := p
    have h' := h
    simp only [tabWfFrom, Bool.and_eq_true, decide_eq_true_eq] at h
    rw [List.filter_cons]
    split
    · simp only [tabWfFrom, Bool.and_eq_true, decide_eq_true_eq]
      exact ⟨h.1, ih _ h.2⟩
    · refine tabWfFrom_weaken d lo k _ (ih _ h.2) ?_
      rintro l rfl
      have := h.1.1
      simp only [decide_eq_true_eq] at this
      exact le_of_lt this

theorem tabWfFrom_put (d : α) (lo : Option Nat) (t : Tab α) (k : Nat) (v : α) (hv : v ≠ d)
    (hk : ∀ l, lo = some l → l < k) (h : tabWfFrom d lo t = true) : tabWfFrom d lo (tabPut t k v) = true := by
  induction t generalizing lo with
  | nil => cases lo <;> simp_all [tabPut, tabWfFrom]
  | cons p t ih =>
    obtain ⟨k', v'⟩ := p
    simp only [tabWfFrom, Bool.and_eq_true, decide_eq_true_eq] at h
    unfold tabPut
    split
    · rename_i hlt
      simp only [tabWfFrom, Bool.and_eq_true, decide_eq_true_eq]
      refine ⟨⟨?_, hv⟩, ⟨hlt, h.1.2⟩, h.2⟩
      cases lo <;> simp_all
    · split
      · rename_i _ he
        subst he
        simp only [tabWfFrom, Bool.and_eq_true, decide_eq_true_eq]
        exact ⟨⟨h.1.1, hv⟩, h.2⟩
      · simp only [tabWfFrom, Bool.and_eq_true, decide_eq_true_eq]
        refine ⟨h.1, ih (some k') ?_ h.2⟩
        rintro l hl
        cases hl
        omega

/-- A write keeps the canonical form. -/
theorem tabSet_wf (d : α) (t : Tab α) (k : Nat) (v : α) (h : tabWf d t = true) : tabWf d (tabSet d t k v) = true := by
  unfold tabSet
  split
  · exact tabWfFrom_filter d _ none t h
  · rename_i hv
    exact tabWfFrom_put d none t k v hv (by simp) h

theorem tabMod_wf (d : α) (t : Tab α) (k : Nat) (f : α → α) (h : tabWf d t = true) :
    tabWf d (tabMod d t k f) = true := tabSet_wf d t k _ h

/-- A change of every entry keeps the canonical form. -/
theorem tabMap_wf (d : α) (f : Nat → α → α) (t : Tab α) (h : tabWf d t = true) : tabWf d (tabMap d f t) = true := by
  unfold tabMap tabWf at *
  generalize (none : Option Nat) = lo at *
  induction t generalizing lo with
  | nil => rfl
  | cons p t ih =>
    obtain ⟨k, v⟩ := p
    simp only [tabWfFrom, Bool.and_eq_true, decide_eq_true_eq] at h
    simp only [List.map_cons, List.filter_cons]
    split
    · rename_i hne
      simp only [tabWfFrom, Bool.and_eq_true, decide_eq_true_eq]
      exact ⟨⟨h.1.1, by simpa using hne⟩, ih _ h.2⟩
    · refine tabWfFrom_weaken d lo k _ (ih _ h.2) ?_
      rintro l rfl
      have := h.1.1
      simp only [decide_eq_true_eq] at this
      exact le_of_lt this

end Wf

/-! ### Memories -/

/-- A byte read back is the byte stored. -/
theorem memGet_memSet (m : Mem) (a b : Nat) (v : Byte) :
    memGet (memSet m a v) b = if b = a then v else memGet m b := tabGet_tabSet 0 m a b v

/-- A store keeps the canonical form. -/
theorem memSet_wf (m : Mem) (a : Nat) (v : Byte) (h : Memory.wf m = true) : Memory.wf (memSet m a v) = true :=
  tabSet_wf 0 m a v h

/-- Storing a run of bytes keeps the canonical form. -/
theorem memStore_wf (m : Mem) (a : Nat) (l : List Byte) (h : Memory.wf m = true) :
    Memory.wf (memStore m a l) = true := by
  induction l generalizing m a with
  | nil => exact h
  | cons b t ih => exact ih _ _ (memSet_wf m a b h)

/-- What a byte reads after a run of bytes was stored: the byte of the run, or the byte from before. -/
theorem memGet_memStore (m : Mem) (a : Nat) (l : List Byte) (b : Nat) :
    memGet (memStore m a l) b = if a ≤ b then l.getD (b - a) (memGet m b) else memGet m b := by
  induction l generalizing m a with
  | nil => simp [memStore]
  | cons x t ih =>
    rw [memStore, ih, memGet_memSet]
    by_cases h1 : a + 1 ≤ b
    · have h2 : ¬b = a := by omega
      have h3 : a ≤ b := by omega
      have h4 : b - a = b - (a + 1) + 1 := by omega
      simp [h1, h2, h3, h4]
    · by_cases h2 : b = a
      · subst h2
        simp
      · have h3 : ¬a ≤ b := by omega
        simp [h1, h2, h3]

/-- The tables of the state after reset are canonical. -/
theorem reset_tables_wf : tabWf .reset State.reset.pmc.doms = true ∧ tabWf 0 State.reset.ha.msix = true ∧
    tabWf 0 State.reset.hb.msix = true ∧ Memory.wf State.reset.ha.mailbox = true ∧
    Memory.wf State.reset.ha.window = true ∧ Memory.wf State.reset.hb.mailbox = true ∧
    Memory.wf State.reset.hb.window = true := by decide

end Sys2Proof.Machine
end

