-- ==== Sys2Proof/Laws/Records.lean ====
section
/-! SUPPORT. A record read back after a write of the same or of another instance. -/

namespace Sys2Proof.Machine

theorem portOf_setPort (i j : Nat) (v : RPort) (s : State) :
    portOf j (setPort i v s) = if j = i then v else portOf j s := by
  simp [portOf, tabGet_tabSet]

theorem ringOf_setRing (i j : Nat) (v : Ring) (s : State) :
    ringOf j (setRing i v s) = if j = i then v else ringOf j s := by
  simp [ringOf, tabGet_tabSet]

theorem gn8Of_setGn8 (i j : Nat) (v : Gn8) (s : State) :
    gn8Of j (setGn8 i v s) = if j = i then v else gn8Of j s := by
  simp [gn8Of, tabGet_tabSet]

theorem headOf_setHead (i j : Nat) (v : Head) (s : State) :
    headOf j (setHead i v s) = if j = i then v else headOf j s := by
  simp [headOf, tabGet_tabSet]

theorem engOf_setEng (i j : Nat) (v : Eng) (s : State) :
    engOf j (setEng i v s) = if j = i then v else engOf j s := by
  simp [engOf, tabGet_tabSet]

theorem grpOf_setGrp (i j : Nat) (v : Grp) (s : State) :
    grpOf j (setGrp i v s) = if j = i then v else grpOf j s := by
  simp [grpOf, tabGet_tabSet]

theorem domOf_setDom (i j : Nat) (v : Dom) (s : State) :
    domOf j (setDom i v s) = if j = i then v else domOf j s := by
  simp [domOf, tabGet_tabSet]

theorem fltReg_setFltReg (c i c' i' : Nat) (v : Word) (s : State) :
    fltReg c' i' (setFltReg c i v s) = if c' * 512 + i' = c * 512 + i then v else fltReg c' i' s := by
  simp [fltReg, tabGet_tabSet]

theorem secOf_setPair (n m : Nat) (r q : Sec) (s : State) :
    secOf m (setPair n r q s) = if m = n then r else secOf m s := by
  simp [secOf, tabGet_tabSet]

theorem secBOf_setPair (n m : Nat) (hn : n < 512) (hm : m < 512) (r q : Sec) (s : State) :
    secBOf m (setPair n r q s) = if m = n then codeB q else secBOf m s := by
  have h : 511 - m = 511 - n ↔ m = n := by omega
  simp [secBOf, tabGet_tabSet, h]

theorem hostOf_setHost (p q : HostId) (v : PortSt) (s : State) :
    hostOf q (setHost p v s) = if q = p then v else hostOf q s := by
  cases p <;> cases q <;> simp [hostOf, setHost]

end Sys2Proof.Machine
end

