-- ==== Sys2Proof/Laws/Sticky.lean ====
section
/-! SUPPORT. What setting a sticky bit does to the fault registers, and a repetition that keeps a property. -/

namespace Sys2Proof.Machine

/-- The state is rebuilt from another one and the fields in which they differ. -/
theorem sticky_eq (cls ix bit : Nat) (s : State) :
    sticky cls ix bit s =
      { s with flt := (sticky cls ix bit s).flt, ha := (sticky cls ix bit s).ha, hb := (sticky cls ix bit s).hb } := by
  have h := sticky_keeps cls ix bit s
  generalize sticky cls ix bit s = y at *
  cases y
  cases s
  simp at h ⊢
  simp_all

/-- A vector at a port changes nothing of the first-fault store but the events of the tick and the reports under way. -/
theorem flt_raiseAt (p : HostId) (v : Nat) (s : State) :
    (raiseAt p v s).flt = { s.flt with
      fresh := (raiseAt p v s).flt.fresh
      reports := s.flt.reports ++
        if domOn (hostDom p) s && !(hostOf p s).irqSt.getLsbD v then
          [({ cls := clsHost p, ix := 0, bit := v }, s.bell.time, s.bell.landNo)]
        else [] } := by
  unfold raiseAt
  cases domOn (hostDom p) s
  · simp
  · cases (hostOf p s).irqSt.getLsbD v <;> cases p <;> simp [sendReport, setHost, noteEvent]

theorem fltReg_raiseBoth (v c i : Nat) (s : State) : fltReg c i (raiseBoth v s) = fltReg c i s := by
  unfold raiseBoth fltReg
  rw [flt_raiseAt, flt_raiseAt]

/-- A sticky bit sets that bit of that register and touches no other (R356). -/
theorem fltReg_sticky (cls ix bit c i : Nat) (s : State) :
    fltReg c i (sticky cls ix bit s) =
      if c * 512 + i = cls * 512 + ix then fltReg c i s ||| (1#32 <<< bit) else fltReg c i s := by
  by_cases he : c * 512 + i = cls * 512 + ix
  · have hr : fltReg c i s = fltReg cls ix s := by simp [fltReg, he]
    rw [if_pos he]
    unfold sticky
    split
    · rename_i h
      show fltReg c i s = _
      rw [hr]
      ext j hj
      by_cases hb : j = bit
      · subst hb
        simp [← BitVec.getLsbD_eq_getElem, h]
      · have : (1#32 <<< bit).getLsbD j = false := by
          simp
          omega
        simp [← BitVec.getLsbD_eq_getElem, this]
    · rw [fltReg_raiseBoth]
      show fltReg c i (setFltReg cls ix (fltReg cls ix s ||| 1#32 <<< bit) (noteEvent cls ix bit s)) = _
      rw [fltReg_setFltReg, if_pos he, hr]
  · rw [if_neg he]
    unfold sticky
    split
    · rfl
    · rw [fltReg_raiseBoth]
      show fltReg c i (setFltReg cls ix (fltReg cls ix s ||| 1#32 <<< bit) (noteEvent cls ix bit s)) = _
      rw [fltReg_setFltReg, if_neg he]
      rfl

theorem sticky_bit (cls ix bit : Nat) (h : bit < 32) (s : State) :
    (fltReg cls ix (sticky cls ix bit s)).getLsbD bit = true := by
  rw [fltReg_sticky]
  simp [h]

/-- A sticky bit that is set stays set when another is set. -/
theorem sticky_mono (cls ix bit c i j : Nat) (s : State) (h : (fltReg c i s).getLsbD j = true) :
    (fltReg c i (sticky cls ix bit s)).getLsbD j = true := by
  rw [fltReg_sticky]
  split
  · rw [BitVec.getLsbD_or, h, Bool.true_or]
  · exact h

/-- What holds before a repetition and is kept by each round holds after it. -/
theorem forEach_ind {β : Type} (P : State → Prop) (l : List β) (f : β → State → State) (s : State)
    (hs : P s) (h : ∀ b ∈ l, ∀ u, P u → P (f b u)) : P (forEach l f s) := by
  unfold forEach
  induction l generalizing s with
  | nil => exact hs
  | cons a t ih =>
    rw [List.foldl_cons]
    exact ih _ (h a (List.mem_cons_self ..) s hs) fun b hb u hu => h b (List.mem_cons_of_mem _ hb) u hu

end Sys2Proof.Machine
end

