-- ==== Sys2Proof/Laws/Raises.lean ====
section
/-! SUPPORT. Setting sticky bits raises exactly those bits, one at a time or several. -/

namespace Sys2Proof.Machine

theorem vectored_zero (v : Nat) (p : HostId) (s : State) : Vectored v 0 p s s := by
  simp [Vectored]

theorem hostOf_noteEvent (q : HostId) (c i b : Nat) (s : State) : hostOf q (noteEvent c i b s) = hostOf q s := by cases q <;> rfl

theorem hostOf_sendReport (q : HostId) (c i b : Nat) (s : State) : hostOf q (sendReport c i b s) = hostOf q s := by cases q <;> rfl

theorem hostOf_setFltReg (q : HostId) (c i : Nat) (v : Word) (s : State) : hostOf q (setFltReg c i v s) = hostOf q s := by
  cases q <;> rfl

/-- Raising a vector at a port, seen from that port. -/
theorem hostOf_raiseAt (p q : HostId) (v : Nat) (s : State) :
    hostOf q (raiseAt p v s) =
      if q = p ∧ domOn (hostDom p) s = true then
        (let h := { hostOf p s with irqSt := (hostOf p s).irqSt ||| (1#8 <<< v) }
         if h.link && h.irqEn.getLsbD v then sendVector v h else h)
      else hostOf q s := by
  unfold raiseAt
  by_cases hu : domOn (hostDom p) s = true
  · simp only [hu, if_true, and_true]
    cases (hostOf p s).irqSt.getLsbD v <;>
      simp only [Bool.false_eq_true, if_false, if_true, hostOf_sendReport, hostOf_setHost, hostOf_noteEvent]
  · simp [hu]

theorem domOn_raiseAt (p : HostId) (v d : Nat) (s : State) : domOn d (raiseAt p v s) = domOn d s := by
  simp [domOn, domOf, raiseAt_keeps]

/-- The one raise of a vector, from what the port held. -/
theorem vectored_raiseBoth (v : Nat) (p : HostId) (s : State) : Vectored v 1 p s (raiseBoth v s) := by
  have h : hostOf p (raiseBoth v s) = hostOf p (raiseAt p v s) := by
    cases p <;> simp [raiseBoth, hostOf_raiseAt, domOn_raiseAt]
  unfold Vectored
  simp only [h, hostOf_raiseAt, true_and]
  cases hu : domOn (hostDom p) s
  · simp
  · cases hl : (hostOf p s).link
    · simp
    · cases he : (hostOf p s).irqEn.getLsbD v
      · simp
      · simp only [sendVector]
        cases hx : (hostOf p s).pci.msixEn
        · simp
        · cases hm : (hostOf p s).pci.msixMask <;> cases ht : (tabGet 0 (hostOf p s).msix (4 * v + 3)).getLsbD 0 <;> simp

/-- What two raises of a vector leave is what both together leave. -/
theorem vectored_trans {v m n : Nat} {p : HostId} {s u t : State} (hu : domOn (hostDom p) u = domOn (hostDom p) s)
    (h1 : Vectored v m p s u) (h2 : Vectored v n p u t) : Vectored v (m + n) p s t := by
  unfold Vectored at *
  simp only at *
  rw [h2, hu, h1]
  generalize hostOf p s = h
  cases domOn (hostDom p) s
  · simp
  · by_cases hm : m = 0
    · subst hm; simp
    · by_cases hn : n = 0
      · subst hn; simp
      · have hmn : m + n ≠ 0 := by omega
        simp only [hm, hn, hmn, Bool.true_eq_false, or_self, if_false]
        cases hl : h.link
        · simp [BitVec.or_assoc]
        · cases he : h.irqEn.getLsbD v
          · simp [he, BitVec.or_assoc]
          · cases hx : h.pci.msixEn
            · cases hq : h.pci.msiEn <;>
                simp only [Bool.true_eq_false, Bool.false_eq_true, or_self, if_false, if_true, he, hx, hq, BitVec.or_assoc,
                  BitVec.or_self, List.append_assoc, List.replicate_add]
            · by_cases hq : h.pci.msixMask = true ∨ (tabGet 0 h.msix (4 * v + 3)).getLsbD 0 = true
              · simp only [Bool.true_eq_false, or_self, if_false, if_true, he, hx, if_pos hq, BitVec.or_assoc,
                  BitVec.or_self]
              · simp only [Bool.true_eq_false, or_self, if_false, if_true, he, hx, if_neg hq, BitVec.or_assoc,
                  BitVec.or_self, List.append_assoc, List.replicate_add]

theorem clearBits_one (c i b : Nat) (s : State) :
    clearBits [(c, i, b)] s = if (fltReg c i s).getLsbD b then [] else [(c, i, b)] := by
  simp only [clearBits, List.filter_cons, List.filter_nil]
  cases h : (fltReg c i s).getLsbD b <;> simp

theorem domOn_raises {l : List FltBit} {u t : State} (h : Raises l u t) (d : Nat) : domOn d t = domOn d u := by
  rw [h.1]
  rfl

/-! ### Events of the tick -/

theorem freshReg_noteEvent (c i b c' i' : Nat) (s : State) :
    freshReg c' i' (noteEvent c i b s) =
      if c' * 512 + i' = c * 512 + i then freshReg c i s ||| (1#32 <<< b) else freshReg c' i' s := by
  simp [freshReg, noteEvent, tabGet_tabSet]

theorem freshReg_raiseAt (p : HostId) (v c i : Nat) (s : State) (h : c * 512 + i ≠ clsHost p * 512 + 1) :
    freshReg c i (raiseAt p v s) = freshReg c i s := by
  have hs : ∀ x u, freshReg c i (setHost p x u) = freshReg c i u := by intro x u; cases p <;> rfl
  unfold raiseAt
  cases domOn (hostDom p) s
  · simp
  · cases (hostOf p s).irqSt.getLsbD v
    · show freshReg c i (sendReport _ _ _ _) = _
      rw [show ∀ u, freshReg c i (sendReport (clsHost p) 0 v u) = freshReg c i u from fun u => rfl, hs, freshReg_noteEvent,
        if_neg h]
    · simp only [if_true]
      rw [hs, freshReg_noteEvent, if_neg h]

theorem freshReg_raiseBoth (v c i : Nat) (s : State) (ha : c * 512 + i ≠ clsHa * 512 + 1) (hb : c * 512 + i ≠ clsHb * 512 + 1) :
    freshReg c i (raiseBoth v s) = freshReg c i s := by
  unfold raiseBoth
  rw [freshReg_raiseAt _ _ _ _ _ (by exact hb), freshReg_raiseAt _ _ _ _ _ (by exact ha)]

/-- The reports of vector v at both ports, as they set out. -/
theorem reports_raiseBoth (v : Nat) (s : State) :
    (raiseBoth v s).flt = { s.flt with fresh := (raiseBoth v s).flt.fresh, reports := s.flt.reports ++ vectorReports v s } := by
  have hb : (raiseAt .ha v s).bell = s.bell := by simp [raiseAt_keeps]
  unfold raiseBoth
  rw [flt_raiseAt, flt_raiseAt]
  simp only [hostOf_raiseAt, domOn_raiseAt, hb, vectorReports, stamped]
  cases h1 : domOn (hostDom .ha) s <;> cases h2 : domOn (hostDom .hb) s <;> cases h3 : (hostOf .ha s).irqSt.getLsbD v <;>
    cases h4 : (hostOf .hb s).irqSt.getLsbD v <;> simp [h1, h2, h3, h4, clsHost]

/-- A vector at both ports does what VectorRaised says (R300, R356). -/
theorem vectorRaised_raiseBoth (v : Nat) (s : State) : VectorRaised v s (raiseBoth v s) := by
  refine ⟨?_, reports_raiseBoth v s, vectored_raiseBoth v .ha s, vectored_raiseBoth v .hb s⟩
  have h := raiseBoth_keeps v s
  generalize raiseBoth v s = y at *
  cases y
  cases s
  simp at h ⊢
  simp_all

/-- One sticky bit raises that bit (R300, R356, R359). -/
theorem raises_sticky (c i b : Nat) (hi : i < 512) (hb : b < 32) (s : State) : Raises [(c, i, b)] s (sticky c i b s) := by
  have key : ∀ c' i', i' < 512 → (c' * 512 + i' = c * 512 + i ↔ c' = c ∧ i' = i) := by intros; omega
  have bit : ∀ b', (1#32 <<< b).getLsbD b' = decide (b' = b) := by
    intro b'
    by_cases h : b' = b
    · subst h; simp [hb]
    · simp [h]; omega
  refine ⟨sticky_eq c i b s, ?_, ?_, ?_, ?_, ?_⟩
  · unfold reportsOf
    rw [clearBits_one]
    unfold sticky
    split
    · simp [noteEvent]
    · rw [reports_raiseBoth]
      simp only [setFltReg, sendReport, noteEvent, List.map_nil, List.append_nil]
      simp only [vectorReports, stamped, List.append_assoc, List.singleton_append]
      rfl
  · intro c' i' hi' b'
    rw [fltReg_sticky]
    split
    · rename_i h
      obtain ⟨rfl, rfl⟩ := (key c' i' hi').1 h
      simp [BitVec.getLsbD_or, bit]
    · rename_i h
      have : ¬(c' = c ∧ i' = i) := fun x => h ((key c' i' hi').2 x)
      have : ¬(c' = c ∧ i' = i ∧ b' = b) := fun x => this ⟨x.1, x.2.1⟩
      simp [this]
  · intro c' i' hi' ha' hb' b'
    have na : c' * 512 + i' ≠ clsHa * 512 + 1 := fun x => ha' (Prod.ext (by simp only; omega) (by simp only; omega))
    have nb : c' * 512 + i' ≠ clsHb * 512 + 1 := fun x => hb' (Prod.ext (by simp only; omega) (by simp only; omega))
    have hs : freshReg c' i' (sticky c i b s) = freshReg c' i' (noteEvent c i b s) := by
      unfold sticky
      split
      · rfl
      · rw [freshReg_raiseBoth _ _ _ _ na nb]; rfl
    rw [hs, freshReg_noteEvent]
    split
    · rename_i h
      obtain ⟨rfl, rfl⟩ := (key c' i' hi').1 h
      simp [BitVec.getLsbD_or, bit]
    · rename_i h
      have : ¬(c' = c ∧ i' = i) := fun x => h ((key c' i' hi').2 x)
      have : ¬(c' = c ∧ i' = i ∧ b' = b) := fun x => this ⟨x.1, x.2.1⟩
      simp [this]
  all_goals
    rw [clearBits_one]
    unfold sticky
    split
    · exact vectored_zero ..
    · exact vectored_raiseBoth 3 _
        (sendReport c i b (setFltReg c i (fltReg c i s ||| 1#32 <<< b) (noteEvent c i b s)))

/-! ### Several bits -/

theorem raises_nil (s : State) : Raises [] s s :=
  ⟨rfl, by simp [reportsOf, clearBits], by simp, by simp, vectored_zero .., vectored_zero ..⟩

theorem stamped_raises {l : List FltBit} {s u : State} (h : Raises l s u) (b : FltBit) : stamped b u = stamped b s := by
  rw [h.1]
  rfl

/-- After a first raise of a vector its HOST_IRQST bit is set at each port that takes it. -/
theorem vectorReports_again {l : List FltBit} {s u : State} (h : Raises l s u) (hl : clearBits l s ≠ []) :
    vectorReports 3 u = [] := by
  have hn : (clearBits l s).length ≠ 0 := fun x => hl (List.length_eq_zero_iff.1 x)
  have go : ∀ p, Vectored 3 (clearBits l s).length p s u → (domOn (hostDom p) u && !(hostOf p u).irqSt.getLsbD 3) = false := by
    intro p hp
    rw [domOn_raises h]
    unfold Vectored at hp
    simp only at hp
    cases hd : domOn (hostDom p) s
    · simp
    · rw [hp]
      simp only [hn, hd, Bool.true_eq_false, or_self, if_false]
      repeat' split
      all_goals simp
  have ha := go _ h.2.2.2.2.1
  have hb := go _ h.2.2.2.2.2
  simp only [vectorReports, List.filter_cons, List.filter_nil, ha, hb, Bool.false_eq_true, if_false, List.map_nil]

theorem vectorReports_none {l : List FltBit} {s u : State} (h : Raises l s u) (hl : clearBits l s = []) :
    vectorReports 3 u = vectorReports 3 s := by
  have ha := h.2.2.2.2.1
  have hb := h.2.2.2.2.2
  have hs := stamped_raises h
  rw [hl] at ha hb
  simp only [Vectored, List.length_nil, true_or, if_true] at ha hb
  unfold vectorReports
  simp only [hs, domOn_raises h, List.filter_cons, List.filter_nil, ha, hb]

/-- Raising some bits and then others raises all of them. -/
theorem raises_append {l m : List FltBit} {s u t : State} (hm : ∀ b ∈ m, b.2.1 < 512 ∧ b ∉ l)
    (h1 : Raises l s u) (h2 : Raises m u t) : Raises (l ++ m) s t := by
  have hc : clearBits m u = clearBits m s := by
    unfold clearBits
    apply List.filter_congr
    intro b hb
    rw [h1.2.2.1 b.1 b.2.1 (hm b hb).1 b.2.2]
    simp [(hm b hb).2]
  have hl : clearBits (l ++ m) s = clearBits l s ++ clearBits m u := by rw [hc]; simp [clearBits]
  have hr : reportsOf (l ++ m) s = reportsOf l s ++ reportsOf m u := by
    have hs := stamped_raises h1
    unfold reportsOf
    rw [hl]
    rcases hx : clearBits l s with _ | ⟨b, r⟩
    · rw [vectorReports_none h1 hx]
      simp [hs]
    · rw [vectorReports_again h1 (by simp [hx])]
      rcases clearBits m u with _ | ⟨b', r'⟩ <;> simp [hs]
  have hu := fun d => domOn_raises h1 d
  obtain ⟨a1, a2, a3, a4, a5, a6⟩ := h1
  obtain ⟨b1, b2, b3, b4, b5, b6⟩ := h2
  refine ⟨?_, ?_, ?_, ?_, ?_, ?_⟩
  · rw [b1, a1]
  · rw [b2, a2, hr]; simp
  · intro c i hi b
    rw [b3 c i hi b, a3 c i hi b]
    by_cases x : (c, i, b) ∈ l <;> by_cases y : (c, i, b) ∈ m <;> simp [x, y]
  · intro c i hi na nb b
    rw [b4 c i hi na nb b, a4 c i hi na nb b]
    by_cases x : (c, i, b) ∈ l <;> by_cases y : (c, i, b) ∈ m <;> simp [x, y]
  · rw [hl, List.length_append]; exact vectored_trans (hu _) a5 b5
  · rw [hl, List.length_append]; exact vectored_trans (hu _) a6 b6

/-- Setting several sticky bits raises them all. -/
theorem raises_forEach (c i : Nat) (hi : i < 512) (l : List Nat) (hl : l.Nodup) (hb : ∀ b ∈ l, b < 32) (s : State) :
    Raises (l.map fun b => (c, i, b)) s (forEach l (fun b => sticky c i b) s) := by
  induction l using List.reverseRecOn generalizing s with
  | nil => exact raises_nil s
  | append_singleton l b ih =>
    have hn := List.nodup_append.1 hl
    have e : forEach (l ++ [b]) (fun b => sticky c i b) s = sticky c i b (forEach l (fun b => sticky c i b) s) := by
      simp [forEach]
    rw [e, List.map_append]
    refine raises_append ?_ (ih hn.1 (fun x hx => hb x (by simp [hx])) s) (raises_sticky c i b hi (hb b (by simp)) _)
    intro x hx
    simp at hx
    subst hx
    refine ⟨hi, ?_⟩
    simp
    intro hmem
    exact hn.2.2 b hmem b (by simp) rfl

theorem raises_stickyIf (q : Bool) (c i b : Nat) (hi : i < 512) (hb : b < 32) (s : State) :
    Raises (if q then [(c, i, b)] else []) s (stickyIf q c i b s) := by
  unfold stickyIf
  cases q
  · exact raises_nil s
  · exact raises_sticky c i b hi hb s

end Sys2Proof.Machine
end

