-- ==== Sys2Proof/Laws/Issue.lean ====
section
/-! SUPPORT. What moving an engine's core on and issuing an instruction do, and the result of one that writes a register. -/

namespace Sys2Proof.Machine

theorem stickyIf_engs (c : Bool) (cls ix bit : Nat) (s : State) : (stickyIf c cls ix bit s).engs = s.engs := by
  unfold stickyIf
  split
  · rw [sticky_eq]
  · rfl

theorem mismatched_same (c : Cycle) (h : c.words = c.own) : mismatched c = none := by simp [mismatched, h]

/-- The cycle that two cores in step make of a move. -/
theorem cycleOf_same (f : Core → Core) (k : Core) (h : shadowView k = k) : cycleOf f k = sameCycle (f k) := by
  simp [cycleOf, sameCycle, h]

/-- A word leaves by the POST lane alone: nothing else of the core changes. -/
theorem leave_shadow (k : Core) (w : LaneWord) :
    (leave k w).shadow = k.shadow ∧ (leave k w).head = k.head ∧ (leave k w).ext = k.ext := by cases w <;> simp [leave]

theorem leaveAll_shadow (l : List LaneWord) (k : Core) :
    (l.foldl leave k).shadow = k.shadow ∧ (l.foldl leave k).head = k.head ∧ (l.foldl leave k).ext = k.ext := by
  induction l generalizing k with
  | nil => simp
  | cons a t ih =>
    rw [List.foldl_cons]
    obtain ⟨h1, h2, h3⟩ := ih (leave k a)
    obtain ⟨g1, g2, g3⟩ := leave_shadow k a
    simp [h1, h2, h3, g1, g2, g3]

/-- What the lanes have taken they need not take again. -/
theorem clearStep_leaveAll (l : List LaneWord) (k : Core) (h : clearStep k = k) : clearStep (l.foldl leave k) = l.foldl leave k := by
  have one : ∀ (k : Core) (w : LaneWord), clearStep (leave k w) = leave (clearStep k) w := by intro k w; cases w <;> rfl
  induction l generalizing k with
  | nil => simpa using h
  | cons a t ih => exact ih (leave k a) (by rw [one, h])

/-- The lanes, the shadow and the counts of an engine in step whose core makes a move (R211, R212, R217, R240). -/
theorem sealEng_spec (f : Core → Core) (g : Eng) (hd : g.core.shadow.differ = none) (hv : shadowView g.core = g.core)
    (hw : ∀ c ∈ g.core.shadow.fifo, c.words = c.own) (hs : g.core.shadow.stuck = none) :
    sealEng f g = { g with core := (sealEng f g).core, ce := min 0xFFFF (g.ce + (f g.core).ceNew), win := (sealEng f g).win } ∧
    (g.winStart = none → (sealEng f g).win = g.win) ∧
    (sealEng f g).core =
      match g.core.shadow.fifo ++ [sameCycle (f g.core)] with
      | a :: b :: c :: rest =>
        a.words.foldl leave { clearStep (f g.core) with
          shadow := { g.core.shadow with head := a.head, ext := a.ext, fifo := b :: c :: rest } }
      | l => { clearStep (f g.core) with shadow := { g.core.shadow with fifo := l } } := by
  unfold sealEng
  rw [cycleOf_same f g.core hv]
  simp only [hs, Option.isNone_none, Bool.and_true, decide_eq_true_eq]
  rcases hf : g.core.shadow.fifo with _ | ⟨a, _ | ⟨b, rest⟩⟩
  · refine ⟨by simp, ?_, by simp⟩
    intro h; simp [h]
  · refine ⟨by simp, ?_, by simp⟩
    intro h; simp [h]
  · have hm : mismatched a = none := mismatched_same a (hw a (by simp [hf]))
    have hlen : 2 < (a :: b :: rest ++ [sameCycle (f g.core)]).length := by simp
    rw [if_pos hlen]
    rcases rest with _ | ⟨c, rest⟩
    all_goals
      refine ⟨by simp [shadowStep], ?_, by simp [shadowStep, hd, hm]⟩
      intro h
      simp [shadowStep, h]

/-- A state in which an engine's cores stay in step behind a move. -/
theorem inStep_sealEng (f : Core → Core) (g : Eng) (hd : g.core.shadow.differ = none) (hv : shadowView g.core = g.core)
    (hw : ∀ c ∈ g.core.shadow.fifo, c.words = c.own) (hs : g.core.shadow.stuck = none) (hn : g.core.shadow.fifo.length ≤ 2) :
    let k := (sealEng f g).core
    clearStep k = k ∧ k.shadow.differ = none ∧ shadowView k = k ∧ (∀ c ∈ k.shadow.fifo, c.words = c.own) ∧ k.shadow.fifo.length ≤ 2 ∧
    k.shadow.stuck = none := by
  obtain ⟨-, -, h⟩ := sealEng_spec f g hd hv hw hs
  have hc : (sameCycle (f g.core)).words = (sameCycle (f g.core)).own := rfl
  have view : ∀ (k : Core) (c : Cycle), k.shadow.fifo.getLast? = some c → c.head = k.head → c.ext = k.ext → shadowView k = k := by
    intro k c h1 h2 h3
    simp [shadowView, h1, h2, h3]
  rcases hf : g.core.shadow.fifo with _ | ⟨a, _ | ⟨b, _ | ⟨c, rest⟩⟩⟩
  · rw [hf] at h
    simp only [List.nil_append] at h
    simp only [h]
    refine ⟨rfl, by simp [hd], view _ (sameCycle (f g.core)) (by simp) rfl rfl, by simp [hc], by simp, by simp [hs]⟩
  · rw [hf] at h hw
    simp only [List.cons_append, List.nil_append] at h
    simp only [h]
    refine ⟨rfl, by simp [hd], view _ (sameCycle (f g.core)) (by simp) rfl rfl, ?_, by simp, by simp [hs]⟩
    simp [hc, hw a (by simp)]
  · rw [hf] at h hw
    simp only [List.cons_append, List.nil_append] at h
    obtain ⟨l1, l2, l3⟩ := leaveAll_shadow a.words { clearStep (f g.core) with
      shadow := { g.core.shadow with head := a.head, ext := a.ext, fifo := [b, sameCycle (f g.core)] } }
    simp only [h]
    refine ⟨clearStep_leaveAll _ _ rfl, by rw [l1]; exact hd, view _ (sameCycle (f g.core)) (by rw [l1]; simp) (by rw [l2]; rfl) (by rw [l3]; rfl), ?_, ?_, ?_⟩
    · rw [l1]; simp [hc, hw b (by simp)]
    · rw [l1]; simp
    · rw [l1]; exact hs
  · simp [hf] at hn

/-- Where the two cores are in step, the comparator finds nothing. -/
theorem laneCheck_none (e : Nat) (s : State) (hd : (engOf e s).core.shadow.differ = none)
    (hs : (engOf e s).core.shadow.stuck = none) : laneCheck e s = s := by
  simp [laneCheck, hd, lagging, hs]

/-- Moving an engine's core on, where its two cores are in step, does what CoreMoves says. -/
theorem coreMoves_setCore (e : Nat) (he : e < 512) (f : Core → Core) (s : State) (hi : InStep e s) :
    CoreMoves e (f (engOf e s).core) s (setCore e f s) := by
  obtain ⟨⟨-, hd, hv, hw, hn⟩, hs⟩ := hi
  have hn := hn hs
  obtain ⟨h1, h2, h3⟩ := sealEng_spec f (engOf e s) hd hv hw hs
  obtain ⟨i0, i1, i2, i3, i4, i5⟩ := inStep_sealEng f (engOf e s) hd hv hw hs hn
  have hx : setCore e f s = stickyIf (decide (0 < (f (engOf e s).core).ceNew)) clsEng e 9 (modEng e (sealEng f) s) := by
    unfold setCore
    apply laneCheck_none
    · simpa [engOf, stickyIf_engs, modEng, tabGet_tabSet] using i1
    · simpa [engOf, stickyIf_engs, modEng, tabGet_tabSet] using i5
  have hg : ∀ e', engOf e' (setCore e f s) = if e' = e then sealEng f (engOf e s) else engOf e' s := by
    intro e'
    rw [hx]
    simp only [engOf, stickyIf_engs]
    simp [modEng, engOf, tabGet_tabSet]
  refine ⟨⟨modEng e (sealEng f) s, ?_, ?_⟩, ?_, ?_, ?_, ?_, ?_⟩
  · rw [hx]
    simpa using raises_stickyIf (decide (0 < (f (engOf e s).core).ceNew)) clsEng e 9 he (by omega) (modEng e (sealEng f) s)
  · rw [hx]; simp [stickyIf_engs, modEng, setEng]
  · intro e' hne
    simp [hg, hne]
  · simpa [hg] using h1
  · simpa [hg] using h2
  · rw [hg, if_pos rfl, h3]
    try (rcases (engOf e s).core.shadow.fifo with _ | ⟨a, _ | ⟨b, _ | ⟨c, rest⟩⟩⟩ <;> rfl)
  · unfold InStep CoresAgree
    simp only [hg, if_true]
    exact ⟨⟨i0, i1, i2, i3, fun _ => i4⟩, i5⟩

theorem ctxOf_setCtx (c : Ctx) (x : CtxSt) (k : Core) : ctxOf c (setCtx c x k) = x := by cases c <;> rfl

theorem fetched_ready (e : Nat) (c : Ctx) (s : State)
    (h : (engOf e s).core.ecc.any (fetchHit (ctxAt e c s).pc) = false) : fetched e c s = s := by
  simp only [ctxAt] at h
  simp [fetched, h]

/-- An instruction that comes to issue stalls, faults or has its effect. -/
theorem issue_ready (e : Nat) (c : Ctx) (specOk : Bool) (regs : List Nat) (act : Core → Issue) (s : State)
    (h : Ready e c specOk regs s) :
    issue e c specOk regs act s =
      match act (engOf e s).core with
      | .done _ => setCore e (fun k => doneOr k (act k)) s
      | .stall b => if b == .none then s else setCore e (setBlock c b) s
      | .fault code => faultAt e c code s := by
  obtain ⟨-, h1, h2, h3, h4, h5⟩ := h
  have hd : doubles (fetchHit (ctxAt e c s).pc) (engOf e s).core = false := by
    rw [doubles, List.any_eq_false]
    rw [List.any_eq_false] at h4
    intro x hx
    simp [h4 x hx]
  have hf := fetched_ready e c s h4
  simp only [ctxAt] at h2 h3 hd
  simp [issue, h1, h2, h3, hd, hf, carryOut, h5]
  try rfl

theorem writes_retire (rd : Nat) (v : Word) (x : CtxSt) :
    ∃ y, Writes rd v x y ∧ retire (writeReg x rd v) = passed y := by
  refine ⟨writeReg x rd v, ?_, ?_⟩
  · by_cases h0 : rd = 0
    · subst h0
      rcases hs : x.spec with _ | sp <;> cases x <;> simp_all [Writes, writeReg, readReg]
    · rcases hs : x.spec with _ | sp <;> simp [Writes, writeReg, readReg, hs, h0, fileWrite, tabGet_tabSet]
      · intro r
        by_cases hr : r = 0 <;> by_cases hr2 : r = rd <;> simp [hr, hr2, h0]
      · intro r
        by_cases hr : r = 0
        · simp [hr]
        · by_cases hr2 : r = rd
          · subst hr2; simp [hr]
          · have : (rd == r) = false := by simpa using fun e => hr2 e.symm
            simp [hr, hr2, this]
  · simp only [retire, passed]
    congr 2
    cases (writeReg x rd v).spec <;> simp

/-- An instruction that writes one register does what RegResult says. -/
theorem result_spec (e : Nat) (he : e < 512) (c : Ctx) (regs : List Nat) (rd : Nat) (v : Core → CtxSt → Word) (s : State)
    (h : Ready e c true regs s) :
    RegResult e c rd (v (engOf e s).core (ctxAt e c s)) s (issue e c true regs (result c rd v) s) := by
  rw [issue_ready _ _ _ _ _ _ h]
  obtain ⟨y, h1, h2⟩ := writes_retire rd (v (engOf e s).core (ctxAt e c s)) (ctxAt e c s)
  refine ⟨y, h1, ?_⟩
  have := coreMoves_setCore e he (fun k => doneOr k (result c rd v k)) s h.1
  unfold CtxMoves
  rw [← h2]
  simpa [result, doneOr, ctxAt] using this

end Sys2Proof.Machine
end

