-- ==== Sys2Proof/Tests/Slice0.lean ====
section
/-! SUPPORT. Tests of the model: the well-formedness checks, words of the instruction set, one step of commands of every
family, and for each statement a state and operands that meet its hypotheses, clause by clause. -/

open Sys2Proof Sys2Proof.Machine

namespace Sys2Proof.Tests

set_option Elab.async false

/-! ### Helpers -/

/-- A context with its PC and some registers. -/
def ctxWith (pc : Word) (g : Tab Word) : CtxSt := { CtxSt.reset with pc := pc, g := g }

/-- A core whose head context stands at PC 0x100 with the given registers, its extension context at 0x3000. -/
def coreWith (g : Tab Word) : Core := { Core.reset with head := ctxWith 0x100 g, ext := ctxWith 0x3000 [] }

/-- The core with a shadow that stands where it does. -/
def synced (k : Core) : Core := { k with shadow := { Shadow.reset with head := k.head, ext := k.ext } }

/-- The machine after reset but for engine 0, which serves head 3 in slot 2 with the given core. -/
def onEngine (k : Core) : State :=
  { State.reset with engs := [(0, { Eng.reset with state := .service, slots := [(2, 4)], core := synced k })] }

/-- The same with registers alone. -/
def regs (g : Tab Word) : State := onEngine (coreWith g)

/-- The state a command leads to. -/
def after (c : Instr) (s : State) : State :=
  match exec c s with
  | .next t => t
  | .fault _ => State.reset
  | .refused _ => State.reset

def reg (r : Nat) (s : State) : Word := readReg (ctxAt 0 .head s) r

/-- InStep of engine 0, as a computation. -/
def inStepB (s : State) : Bool :=
  let k := (engOf 0 s).core
  clearStep k == k && k.shadow.differ == none && shadowView k == k && k.shadow.fifo.all (fun c => c.words == c.own) &&
    decide (k.shadow.fifo.length ≤ 2) && k.shadow.stuck == none

theorem inStep_of_inStepB {s : State} (h : inStepB s = true) : InStep 0 s := by
  simp only [inStepB, Bool.and_eq_true, beq_iff_eq, List.all_eq_true, decide_eq_true_eq] at h
  obtain ⟨⟨⟨⟨⟨h1, h2⟩, h3⟩, h4⟩, h5⟩, h6⟩ := h
  exact ⟨⟨h1, h2, h3, h4, fun _ => h5⟩, h6⟩

/-- Ready, as a computation. -/
def readyB (c : Ctx) (specOk : Bool) (l : List Nat) (s : State) : Bool :=
  inStepB s && mayIssue c (engOf 0 s) && !specStalls specOk (ctxAt 0 c s) && inCode c (ctxAt 0 c s).pc &&
    !(engOf 0 s).core.ecc.any (fetchHit (ctxAt 0 c s).pc) && !l.any (regInFlight c (engOf 0 s).core)

theorem ready_of_readyB {c : Ctx} {specOk : Bool} {l : List Nat} {s : State} (h : readyB c specOk l s = true) :
    Ready 0 c specOk l s := by
  simp only [readyB, Bool.and_eq_true, and_assoc] at h
  exact ⟨inStep_of_inStepB h.1, by simpa using h.2⟩

/-! ### Well-formedness: one ill-formed command for each check -/

theorem test_wf_good : (Instr.landingTick .quiet).wf = true ∧ (Instr.commit .clean).wf = true ∧
    (Instr.checkpoint .clean).wf = true ∧ (Instr.add 0 .head 1 2 3).wf = true := by decide
theorem test_wf_tick_temps : (Instr.landingTick { TickIn.quiet with temps := [0] }).wf = false := by decide
theorem test_wf_tick_osc : (Instr.landingTick { TickIn.quiet with oscBad := [(30, 0)] }).wf = false := by decide
theorem test_wf_tick_vmeas : (Instr.landingNumberWrap { TickIn.quiet with vmeas := [(0, 4096)] }).wf = false := by decide
theorem test_wf_tick_iout : (Instr.landingTick { TickIn.quiet with iout := [(0, 65536)] }).wf = false := by decide
theorem test_wf_tick_trunk : (Instr.landingTick { TickIn.quiet with trunk := some (4096, 0) }).wf = false := by decide
theorem test_wf_commit_mismatch : (Instr.commit { CommitIn.clean with mismatch := [512] }).wf = false := by decide
theorem test_wf_commit_corrected : (Instr.commit { CommitIn.clean with corrected := [512] }).wf = false := by decide
theorem test_wf_check_entry : (Instr.checkpoint { CheckIn.clean with disagree := [(true, 127)] }).wf = false := by decide
theorem test_wf_check_passA : (Instr.checkpoint { CheckIn.clean with passA := 65536 }).wf = false := by decide
theorem test_wf_check_passB : (Instr.checkpoint { CheckIn.clean with passB := 65536 }).wf = false := by decide

/-- What a good fulling window shows. -/
def goodWindow : WindowIn := { n := 1048576, bitsP := [[], [], [], []], bitsS := [[], [], [], []], missed := 0, unforced := false }

theorem test_wf_window_good : (Instr.fullingWindowEnd 0 goodWindow).wf = true := by decide
theorem test_wf_window_sigP : (Instr.fullingWindowEnd 0 { goodWindow with bitsP := [[]] }).wf = false := by decide
theorem test_wf_window_sigS : (Instr.fullingWindowEnd 0 { goodWindow with bitsS := [] }).wf = false := by decide
theorem test_wf_window_missed : (Instr.fullingWindowEnd 0 { goodWindow with missed := 129 }).wf = false := by decide
theorem test_wf_interlock : (Instr.interlockEvent 13 2).wf = false ∧ (Instr.interlockEvent 14 3).wf = true := by decide
theorem test_wf_ilim : (Instr.phaseIlim 0 2).wf = false ∧ (Instr.phaseIlim 13 1).wf = true := by decide
theorem test_wf_window_write : (Instr.imageWindowWrite .ha 0x7FFFFF [some 0, none] false).wf = false := by decide
theorem test_wf_window_long : (Instr.imageWindowWrite .ha 0 (List.replicate 257 none) false).wf = false := by decide +kernel
theorem test_wf_mailbox_write : (Instr.mailboxWrite .ha 0xFFF [some 0, none] false).wf = false := by decide
theorem test_wf_mailbox_long : (Instr.mailboxWrite .ha 0 (List.replicate 257 none) false).wf = false := by decide +kernel
theorem test_wf_register_write : (Instr.registerWrite .ha 0 (0, 0xF) (List.replicate 64 (0, 0xF)) false).wf = false := by decide
theorem test_wf_shi : (Instr.shi 0 .head 1 1 3 0).wf = false := by decide
theorem test_wf_bubq : (Instr.bubq 0 .head 1 0 2 false).wf = false := by decide
theorem test_wf_mfs : (Instr.mfs 0 .head 1 6).wf = false ∧ (Instr.mfs 0 .head 1 5).wf = true := by decide
theorem test_wf_mts : (Instr.mts 0 .head 1 0).wf = false ∧ (Instr.mts 0 .head 1 1).wf = true := by decide
theorem test_wf_vwait_head : (Instr.vwait 0 .head 0x10000).wf = false := by decide
theorem test_wf_vwait_ext : (Instr.vwait 0 .ext 0x00FFFF).wf = false ∧ (Instr.vwait 0 .ext 0xFF0000).wf = true := by decide

/-! ### Words of the instruction set, written out from the formats (R175) and opcodes (R176) -/

theorem test_decode_alu : Dyhar.decode 0 .head 0b00000001111000010001000000000001#32 = some (.sub 0 .head 15 1 2) ∧
    Dyhar.decode 0 .head 0b00000000100001010000000000011001#32 = some (.clz 0 .head 4 5) ∧
    Dyhar.decode 0 .head 0b00011100011000100000000001011111#32 = some (.shi 0 .head 3 2 2 31) ∧
    Dyhar.decode 0 .head 0b00100000111000001010101111001101#32 = some (.lui 0 .head 7 0xABCD) := by decide
theorem test_decode_memory : Dyhar.decode 1 .ext 0b01001100011000010000000000000111#32 = some (.lb 1 .ext 3 1 7) ∧
    Dyhar.decode 1 .ext 0b01011000011000010000000000000110#32 = some (.sh 1 .ext 3 1 6) := by decide
theorem test_decode_control : Dyhar.decode 0 .head 0b01110100001000101111111111111111#32 = some (.bgeu 0 .head 1 2 0xFFFF) ∧
    Dyhar.decode 0 .head 0b01111100001000100000000000000100#32 = some (.jalr 0 .head 1 2 4) := by decide
theorem test_decode_vector : Dyhar.decode 0 .head 0b10000000001000100000000001000001#32 = some (.vld 0 .head 1 1 4 1) ∧
    Dyhar.decode 0 .head 0b10001000101000100100011001010011#32 = some (.vfir 0 .head 5 1 2 3 5 3) ∧
    Dyhar.decode 0 .head 0b10101100000000000000000000000011#32 = some (.vwait 0 .head 3) := by decide
theorem test_decode_stream : Dyhar.decode 0 .head 0b11000100001000000000000000101010#32 = some (.peek 0 .head 1 2 1 true) ∧
    Dyhar.decode 0 .head 0b11001000001000000000000000101010#32 = some (.bubq 0 .head 1 2 1 true) ∧
    Dyhar.decode 0 .head 0b11001100000000110000000000000010#32 = some (.post 0 .head 3 2) := by decide
theorem test_decode_system : Dyhar.decode 0 .head 0b11010000010000000000000000000011#32 = some (.bell 0 .head 2 3) ∧
    Dyhar.decode 0 .head 0b11011000001000000000000000000000#32 = some (.wland 0 .head 1) ∧
    Dyhar.decode 0 .head 0b11110100000000000000000000000010#32 = some (.ecallHrec 0 .head) ∧
    Dyhar.decode 0 .head 0b11110000000000000000000000101010#32 = some (.trap 0 .head 42) := by decide
theorem test_decode_reserved : Dyhar.decode 0 .head 0b11111000000000000000000000000000#32 = none ∧
    Dyhar.decode 0 .head 0b00100000111000011010101111001101#32 = none ∧
    Dyhar.decode 0 .head 0b00011100011000100000000001111111#32 = none := by decide
theorem test_encode : Dyhar.encode (.sub 0 .head 15 1 2) = some 0b00000001111000010001000000000001#32 ∧
    (Instr.sub 0 .head 15 1 2).wf = true := by decide

/-! ### The step -/

theorem test_step_front : ({ State.reset with pending := [.powerUp, .clamp] } : State).pending = .powerUp :: [.clamp] ∧
    State.reset.pending = [] := by decide
theorem test_step_idle : (match step State.reset with
    | .next t => decide (t.bell.time = 1 ∧ t.pending = [])
    | _ => false) = true := by decide
theorem test_step_takes_first : (match step { State.reset with pending := [.testEnChange true, .extest] } with
    | .next t => decide (t.pins.testEn = true ∧ t.pending = [.extest])
    | _ => false) = true := by decide

/-! ### Dyhar: integer instructions -/

theorem test_add : reg 3 (after (.add 0 .head 3 1 2) (regs [(1, 0xFFFFFFFF), (2, 2)])) = 1 := by decide
theorem test_sub_same : reg 1 (after (.sub 0 .head 1 2 1) (regs [(1, 5), (2, 3)])) = 0xFFFFFFFE := by decide
theorem test_sra : reg 3 (after (.sra 0 .head 3 1 2) (regs [(1, 0x80000000), (2, 33)])) = 0xC0000000 := by decide
theorem test_slt : reg 3 (after (.slt 0 .head 3 1 2) (regs [(1, 0xFFFFFFFF), (2, 1)])) = 1 ∧
    reg 3 (after (.sltu 0 .head 3 1 2) (regs [(1, 0xFFFFFFFF), (2, 1)])) = 0 := by decide
theorem test_mul : reg 3 (after (.mulh 0 .head 3 1 2) (regs [(1, 0xFFFFFFFF), (2, 2)])) = 0xFFFFFFFF ∧
    reg 3 (after (.mulhu 0 .head 3 1 2) (regs [(1, 0xFFFFFFFF), (2, 2)])) = 1 ∧
    reg 3 (after (.mul 0 .head 3 1 2) (regs [(1, 0xFFFFFFFF), (2, 2)])) = 0xFFFFFFFE := by decide
theorem test_abs : reg 3 (after (.abs 0 .head 3 1) (regs [(1, 0x80000000)])) = 0x80000000 := by decide
theorem test_clz : reg 3 (after (.clz 0 .head 3 1) (regs [(1, 0x00010000)])) = 15 ∧
    reg 3 (after (.clz 0 .head 3 1) (regs [])) = 32 := by decide
theorem test_g0 : reg 0 (after (.addi 0 .head 0 0 5) (regs [])) = 0 ∧
    (ctxAt 0 .head (after (.addi 0 .head 0 0 5) (regs []))).pc = 0x104 := by decide
theorem test_sltiu : reg 3 (after (.sltiu 0 .head 3 1 0xFFFF) (regs [(1, 7)])) = 1 := by decide
theorem test_lui : reg 3 (after (.lui 0 .head 3 0xABCD) (regs [])) = 0xABCD0000 := by decide

theorem test_IntegerResults : Ready 0 .head true [1, 2, 3] (regs [(1, 5)]) ∧
    Ready 0 .head true [1, 3] (regs [(1, 5)]) := ⟨ready_of_readyB (by decide), ready_of_readyB (by decide)⟩

/-- The extension context of engine 0 may issue while the head context waits at WLAND. -/
def extRuns : State := onEngine { coreWith [] with head := { ctxWith 0x100 [] with block := .wland 1 }, xEnded := false }

theorem test_ready_ext : Ready 0 .ext true [1, 2, 3] extRuns := ready_of_readyB (by decide)

/-! ### Dyhar: loads, stores and faulting forms -/

/-- Where a store or load of off 0 through g1 goes. -/
def addr (s : State) : Nat := (readReg (ctxAt 0 .head s) 1 + (0 : BitVec 16).signExtend 32).toNat

theorem test_FaultingForms_align : Ready 0 .head true [1, 3] (regs [(1, 0x10000002)]) ∧
    addr (regs [(1, 0x10000002)]) % 4 ≠ 0 ∧ addr (regs [(1, 0x10000001)]) % 2 ≠ 0 ∧
    Ready 0 .head true [1, 3] (regs [(1, 0x10000001)]) ∧ Ready 0 .head false [1, 3] (regs [(1, 0x10000001)]) :=
  ⟨ready_of_readyB (by decide), by decide, by decide, ready_of_readyB (by decide), ready_of_readyB (by decide)⟩
theorem test_FaultingForms_load : Ready 0 .head true [1, 3] (regs [(1, 0x10008000)]) ∧
    ¬IsLocal (addr (regs [(1, 0x10008000)])) ∧ ¬IsShared (addr (regs [(1, 0x10008000)])) ∧
    addr (regs [(1, 0x10008000)]) % 4 = 0 :=
  ⟨ready_of_readyB (by decide), by unfold IsLocal; decide, by unfold IsShared; decide, by decide⟩
theorem test_FaultingForms_store : Ready 0 .head false [2, 1] (regs [(1, 0x10007000)]) ∧
    addr (regs [(1, 0x10007000)]) % 4 = 0 ∧ ownData .head (addr (regs [(1, 0x10007000)])) = false :=
  ⟨ready_of_readyB (by decide), by decide, by decide⟩
theorem test_FaultingForms_illegal : Ready 0 .head true [] (regs []) ∧ Ready 0 .head true [3] (regs []) ∧
    Ready 0 .head false [1] (regs []) ∧ (6 : Nat) ≤ (6 : Fin 8).val ∧ (2 : Fin 8) ≠ 1 :=
  ⟨ready_of_readyB (by decide), ready_of_readyB (by decide), ready_of_readyB (by decide), by decide, by decide⟩

/-- Engine 0 with errors in stored words: in the word at the PC, in the first of DMEM, in the first entry of slot 0. -/
def flawed (m : MemId) (double : Bool) : State :=
  onEngine { coreWith [(1, 0x10000000)] with
    dmem := [(0, 0x2A)], ecc := [{ mem := m, word := if m = .imem then 0x40 else 0, double := double }] }

theorem test_FaultingForms_memory : Ready 0 .head true [1, 3] (flawed .dmem true) ∧ IsLocal (addr (flawed .dmem true)) ∧
    NoWriteInFlight 0 .head (addr (flawed .dmem true)) 4 (flawed .dmem true) ∧
    (engOf 0 (flawed .dmem true)).core.ecc.any (fun y => localHit (addr (flawed .dmem true)) 4 y && y.double) = true :=
  ⟨ready_of_readyB (by decide), by unfold IsLocal; decide, by unfold NoWriteInFlight; decide, by decide⟩
theorem test_FaultingForms_fetch : ∀ double : Bool, mayIssue .head (engOf 0 (flawed .imem double)) = true ∧
    (ctxAt 0 .head (flawed .imem double)).spec = none ∧ inCode .head (ctxAt 0 .head (flawed .imem double)).pc = true ∧
    (engOf 0 (flawed .imem double)).core.ecc.any (fetchHit (ctxAt 0 .head (flawed .imem double)).pc) = true ∧
    (engOf 0 (flawed .imem double)).core.ecc.any (fun y => fetchHit (ctxAt 0 .head (flawed .imem double)).pc y && y.double) =
      double := by decide
theorem test_corrected : reg 3 (after (.lw 0 .head 3 1 0) (flawed .dmem false)) = 0x2A ∧
    (engOf 0 (after (.lw 0 .head 3 1 0) (flawed .dmem false))).core.ecc = [] ∧
    (ctxAt 0 .head (after (.lw 0 .head 3 1 0) (flawed .dmem true))).halted = some 5 := by decide
theorem test_LocalLoadsAndStores_corrected : ∃ err, (engOf 0 (flawed .dmem false)).core.ecc.filter (localHit 0x10000000 4) = [err] ∧
    err.double = false ∧ (ctxAt 0 .head (flawed .dmem false)).spec = none :=
  ⟨{ mem := .dmem, word := 0, double := false }, by decide⟩
theorem test_illegal_taken : (ctxAt 0 .head (after (.shi 0 .head 1 1 3 0) (regs []))).halted = some 1 ∧
    (engOf 0 (after (.shi 0 .head 1 1 3 0) (regs []))).errCode = 1 ∧
    (fltReg clsEng 0 (after (.shi 0 .head 1 1 3 0) (regs []))) = 0x800 := by decide

theorem test_store_bytes : byteAt 0 (after (.sw 0 .head 2 1 0) (regs [(1, 0x10006FFC), (2, 0x11223344)])) 0x10006FFC = 0x44 ∧
    byteAt 0 (after (.sw 0 .head 2 1 0) (regs [(1, 0x10006FFC), (2, 0x11223344)])) 0x10006FFF = 0x11 := by decide
theorem test_load_sign : reg 3 (after (.lb 0 .head 3 1 0)
      (onEngine { coreWith [(1, 0x10000000)] with dmem := [(0, 0x80)] })) = 0xFFFFFF80 ∧
    reg 3 (after (.lhu 0 .head 3 1 0) (onEngine { coreWith [(1, 0x20000000)] with vmem := [(0, 0x80), (1, 0x90)] })) = 0x9080 := by
  decide

theorem test_LocalLoadsAndStores_load : Ready 0 .head true [1, 3] (regs [(1, 0x10007FFC)]) ∧
    IsLocal (addr (regs [(1, 0x10007FFC)])) ∧ addr (regs [(1, 0x10007FFC)]) % 4 = 0 ∧
    NoWriteInFlight 0 .head (addr (regs [(1, 0x10007FFC)])) 4 (regs [(1, 0x10007FFC)])∧
    Sound 0 (addr (regs [(1, 0x10007FFC)])) 4 (regs [(1, 0x10007FFC)]) :=
  ⟨ready_of_readyB (by decide), by unfold IsLocal; decide, by decide, by unfold NoWriteInFlight; decide, by unfold Sound; decide⟩
theorem test_LocalLoadsAndStores_half : Ready 0 .head true [1, 3] (regs [(1, 0x20003FFE)]) ∧
    IsLocal (addr (regs [(1, 0x20003FFE)])) ∧ addr (regs [(1, 0x20003FFE)]) % 2 = 0 ∧
    NoWriteInFlight 0 .head (addr (regs [(1, 0x20003FFE)])) 2 (regs [(1, 0x20003FFE)])∧
    Sound 0 (addr (regs [(1, 0x20003FFE)])) 2 (regs [(1, 0x20003FFE)]) :=
  ⟨ready_of_readyB (by decide), by unfold IsLocal; decide, by decide, by unfold NoWriteInFlight; decide, by unfold Sound; decide⟩
theorem test_LocalLoadsAndStores_byte : Ready 0 .head true [1, 3] (regs [(1, 0x10007FFF)]) ∧
    IsLocal (addr (regs [(1, 0x10007FFF)])) ∧
    NoWriteInFlight 0 .head (addr (regs [(1, 0x10007FFF)])) 1 (regs [(1, 0x10007FFF)])∧
    Sound 0 (addr (regs [(1, 0x10007FFF)])) 1 (regs [(1, 0x10007FFF)]) :=
  ⟨ready_of_readyB (by decide), by unfold IsLocal; decide, by unfold NoWriteInFlight; decide, by unfold Sound; decide⟩
theorem test_LocalLoadsAndStores_store : ∀ n ∈ [1, 2, 4],
    Ready 0 .head false [2, 1] (regs [(1, 0x10006FFC)]) ∧ ownData .head (addr (regs [(1, 0x10006FFC)])) = true ∧
    addr (regs [(1, 0x10006FFC)]) % n = 0 ∧
    NoWriteInFlight 0 .head (addr (regs [(1, 0x10006FFC)])) n (regs [(1, 0x10006FFC)]) ∧
    Sound 0 (addr (regs [(1, 0x10006FFC)])) n (regs [(1, 0x10006FFC)]) ∧
    vldOverlaps .head (engOf 0 (regs [(1, 0x10006FFC)])).core (addr (regs [(1, 0x10006FFC)])) n = false := by
  have h : Ready 0 .head false [2, 1] (regs [(1, 0x10006FFC)]) := ready_of_readyB (by decide)
  simp only [h, true_and]
  unfold NoWriteInFlight Sound
  decide

/-- A tagged load of g3 in flight. -/
def loading : State :=
  onEngine { coreWith [] with shared := [{ tag := 7, ctx := .head, rd := 3, addr := 0x40000000, size := 4, sx := false }]
                              shr := [(0, 0x2A)] }

theorem test_SharedLoads_issue : Ready 0 .head true [1, 3] (regs [(1, 0x40000FFC)]) ∧ IsShared (addr (regs [(1, 0x40000FFC)])) ∧
    addr (regs [(1, 0x40000FFC)]) % 4 = 0 ∧ (ctxAt 0 .head (regs [(1, 0x40000FFC)])).spec = none ∧
    freeSharedTag .head (engOf 0 (regs [(1, 0x40000FFC)])).core = some 0 :=
  ⟨ready_of_readyB (by decide), by unfold IsShared; decide, by decide, by decide, by decide⟩
theorem test_SharedLoads_complete : ∃ o : SharedOp,
    (engOf 0 loading).core.shared.find? (fun o => o.ctx == .head && o.tag == 7) = some o ∧ o.size = 4 ∧ o.sx = false :=
  ⟨{ tag := 7, ctx := .head, rd := 3, addr := 0x40000000, size := 4, sx := false }, by decide⟩
theorem test_shared_completes : reg 3 (after (.sharedLoadComplete 0 .head 7) loading) = 0x2A := by decide

/-! ### Dyhar: branches and jumps -/

theorem test_branch_backward : (ctxAt 0 .head (after (.beq 0 .head 1 2 0xFFFF) (regs []))).pc = 0xFC ∧
    (ctxAt 0 .head (after (.beq 0 .head 1 2 1) (regs []))).pc = 0x104 := by decide

theorem test_BranchesAndJumps : Ready 0 .head false [] (regs []) ∧ Ready 0 .head false [31] (regs []) ∧
    inCode .head ((ctxAt 0 .head (regs [])).pc + ((0x2FFFEFC / 4 : BitVec 26).signExtend 32 <<< 2)) = false ∧
    inCode .head ((ctxAt 0 .head (regs [])).pc + ((0xBBF : BitVec 26).signExtend 32 <<< 2)) = true ∧
    Ready 0 .head false [1, 3] (regs [(1, 0x2FFC)]) ∧ addr (regs [(1, 0x2FFC)]) % 4 = 0 ∧
    inCode .head (readReg (ctxAt 0 .head (regs [(1, 0x2FFC)])) 1 + (0 : BitVec 16).signExtend 32) = true :=
  ⟨ready_of_readyB (by decide), ready_of_readyB (by decide), by decide, by decide, ready_of_readyB (by decide), by decide,
    by decide⟩

/-- A backward BLT of g1 and g2 issued at 0x108, unresolved, with a result of g3 held. -/
def branching (taken : Bool) : State :=
  onEngine { coreWith [(1, if taken then 1 else 9), (2, 5)] with head := { ctxWith 0x100 [(1, if taken then 1 else 9), (2, 5)] with
    spec := some { pc := 0x108, cond := .lt, rs1 := 1, rs2 := 2, predicted := true, target := 0x100, n := 1, nv := 0
                   held := [(3, 7)], heldBell := none, tags := [], fault := none, ce := 0 } } }

theorem test_BranchResolves : ∀ w : Bool, ∃ b,
    let s := branching w
    let x := ctxAt 0 .head s
    let base := { x with spec := none }
    x.spec = some b ∧ regInFlight .head (engOf 0 s).core b.rs1 = false ∧ regInFlight .head (engOf 0 s).core b.rs2 = false ∧
    b.cond = .lt ∧ decide ((readReg base b.rs1).toInt < (readReg base b.rs2).toInt) = w ∧ inCode .head b.target = true ∧
    b.fault = none := by
  intro w
  refine ⟨{ pc := 0x108, cond := .lt, rs1 := 1, rs2 := 2, predicted := true, target := 0x100, n := 1, nv := 0
            held := [(3, 7)], heldBell := none, tags := [], fault := none, ce := 0 }, ?_⟩
  revert w
  decide
theorem test_branch_resolves : (ctxAt 0 .head (after (.branchResolve 0 .head) (branching false))).pc = 0x10C ∧
    reg 3 (after (.branchResolve 0 .head) (branching false)) = 0 ∧
    reg 3 (after (.branchResolve 0 .head) (branching true)) = 7 := by decide
theorem test_jal : reg 31 (after (.jal 0 .head 4) (regs [])) = 0x104 ∧
    (ctxAt 0 .head (after (.jal 0 .head 4) (regs []))).pc = 0x110 := by decide

/-! ### Dyhar: time, streams, events and system calls -/

theorem test_TimeAndSpecialRegisters : Ready 0 .head true [3] (regs []) ∧ Ready 0 .head false [1] (regs []) :=
  ⟨ready_of_readyB (by decide), ready_of_readyB (by decide)⟩
theorem test_bell : reg 3 (after (.bell 0 .head 3 0) { regs [] with bell := { BellSt.reset with time := 0x123456789ABC } }) =
      0x56789ABC ∧
    (ctxAt 0 .head (after (.bell 0 .head 3 0) { regs [] with bell := { BellSt.reset with time := 0x123456789ABC } })).bellHi =
      0x1234 := by decide
theorem test_tagfree : reg 3 (after (.mfs 0 .head 3 5) (regs [])) = 0x08081020 := by decide

/-- A sample entry of head 3. -/
def sampleAt (t : Word) : Entry := { w0 := t, w1 := 0x06030000, w2 := 0x00010002, w3 := 0x00030004 }

/-- A bubble token of head 3: 5 instants, cause 2, CONT_IN. -/
def tokenAt (t : Word) : Entry := { w0 := t, w1 := 0x08030000, w2 := 0x00020005, w3 := 1 }

/-- A PULL of slot 0 in flight, the first entry there as given. -/
def pulling (y : Entry) : State :=
  onEngine { coreWith [] with pulls := [{ slot := 0, rd := 3, addr := 0x10000010 }], queues := [(0, [y, sampleAt 900])] }

theorem test_PullsTakeEntries_issue : Ready 0 .head false [1, 3] (regs [(1, 0x10006FF0)]) ∧
    (0 : Fin 8).val < (engOf 0 (regs [(1, 0x10006FF0)])).slots.length ∧ 0 ∉ (engOf 0 (regs [(1, 0x10006FF0)])).core.marks ∧
    addr (regs [(1, 0x10006FF0)]) % 16 = 0 ∧ ownData .head (addr (regs [(1, 0x10006FF0)])) = true ∧
    pullsInUse (engOf 0 (regs [(1, 0x10006FF0)])).core < 32 ∧
    NoWriteInFlight 0 .head (addr (regs [(1, 0x10006FF0)])) 16 (regs [(1, 0x10006FF0)]) ∧
    vldOverlaps .head (engOf 0 (regs [(1, 0x10006FF0)])).core (addr (regs [(1, 0x10006FF0)])) 16 = false :=
  ⟨ready_of_readyB (by decide), by decide, by decide, by decide, by decide, by decide, by unfold NoWriteInFlight; decide,
    by decide⟩
theorem test_PullsTakeEntries_complete : ∃ p, ∀ y ∈ [sampleAt 800, tokenAt 800, markEntry 3 800],
    (engOf 0 (pulling y)).core.pulls.find? (fun p => (queueOf p.slot (engOf 0 (pulling y)).core).length != 0) = some p ∧
    queueOf p.slot (engOf 0 (pulling y)).core = y :: [sampleAt 900] ∧ p.slot ∉ (engOf 0 (pulling y)).core.marks ∧
    mayStore .head p.addr 16 = true := ⟨{ slot := 0, rd := 3, addr := 0x10000010 }, by decide⟩
theorem test_pull : reg 3 (after (.pullComplete 0) (pulling (sampleAt 800))) = 0x06030000 ∧
    (tabGet .reset (engOf 0 (after (.pullComplete 0) (pulling (tokenAt 800)))).core.bub 0).sum = 5 ∧
    (engOf 0 (after (.pullComplete 0) (pulling (markEntry 3 800)))).core.marks = [0] := by decide

/-- Entries in slot 0 and none claimed. -/
def queued : State := onEngine { coreWith [] with queues := [(0, [sampleAt 800])] }

/-- The head context waits at a PEEK, or at a BUBQ, of slot 0. -/
def waiting (b : Block) (q : List Entry) : State :=
  onEngine { coreWith [] with head := { ctxWith 0x100 [] with block := b }, queues := [(0, q)] }

theorem test_StreamQueries_issue : Ready 0 .head false [3] queued ∧ Ready 0 .head false [3] (regs []) ∧
    Ready 0 .head false [4] (pulling (sampleAt 8)) ∧
    (0 : Fin 8).val < (engOf 0 queued).slots.length ∧ pullsInUse (engOf 0 queued).core < 32 ∧
    0 ∉ (engOf 0 queued).core.marks ∧ (queueOf 0 (engOf 0 queued).core)[0]? = some (sampleAt 800) ∧
    (queueOf 0 (engOf 0 (regs [])).core)[0]? = none ∧
    (engOf 0 queued).core.pulls.any (fun p => p.slot == 0) = false ∧
    (engOf 0 (pulling (sampleAt 8))).core.pulls.any (fun p => p.slot == 0) = true :=
  ⟨ready_of_readyB (by decide), ready_of_readyB (by decide), ready_of_readyB (by decide), by decide⟩
theorem test_StreamQueries_resume : (ctxAt 0 .head (waiting (.peek 3 0 1) [sampleAt 8])).block = .peek 3 0 1 ∧
    (ctxAt 0 .head (waiting (.peek 3 0 1) [sampleAt 8])).spec = none ∧
    (queueOf 0 (engOf 0 (waiting (.peek 3 0 1) [sampleAt 8])).core)[0]? = some (sampleAt 8) ∧
    (ctxAt 0 .head (waiting (.bubq 3 0 1 true) [])).block = .bubq 3 0 1 true ∧
    (ctxAt 0 .head (waiting (.bubq 3 0 1 true) [])).spec = none ∧
    (engOf 0 (waiting (.bubq 3 0 1 true) [])).core.pulls.any (fun p => p.slot == 0) = false := by decide
theorem test_peek : reg 3 (after (.peek 0 .head 3 0 0 false) queued) = 800 ∧
    reg 3 (after (.peek 0 .head 3 0 0 true) queued) = 1 ∧
    reg 3 (after (.peekResume 0) (waiting (.peek 3 0 1) [sampleAt 8])) = 0x06030000 := by decide

/-- The 16 bytes of a PASS event of head 3 and of a STATE event, with their CRC. -/
def passRec : WheelRec :=
  { centre := 1000, cls := 1, dir := true, head := 3, speed := 100, spacing := 0xFFFF, conf := 90, flags := 0, rsv := 0 }

/-- A POST of the given kind in flight from an engine in the given state. -/
def posting (st : EngState) (kind : Nat) (l : List Byte) : State :=
  { State.reset with engs := [(0, { Eng.reset with
      state := st, slots := [(2, 4)], core := synced { coreWith [] with posts := [(kind, l)] } })] }

theorem test_EventOperands : passRec.cls < 16 ∧ passRec.head < 512 ∧ passRec.speed < 2 ^ 16 ∧
    passRec.spacing < 2 ^ 16 ∧ passRec.conf < 2 ^ 8 ∧ passRec.flags < 2 ^ 8 ∧ passRec.rsv < 4 := by decide

theorem test_PostedEvents_issue : Ready 0 .head false [1] (regs [(1, 0x10006FF0)]) ∧ addr (regs [(1, 0x10006FF0)]) % 16 = 0 ∧
    0x10000000 ≤ addr (regs [(1, 0x10006FF0)]) ∧ addr (regs [(1, 0x10006FF0)]) < 0x10007000 ∧
    (engOf 0 (regs [(1, 0x10006FF0)])).core.posts.length < 8 ∧
    NoWriteInFlight 0 .head (addr (regs [(1, 0x10006FF0)])) 16 (regs [(1, 0x10006FF0)]) :=
  ⟨ready_of_readyB (by decide), by decide, by decide, by decide, by decide, by unfold NoWriteInFlight; decide⟩
theorem test_PostedEvents_port : (engOf 0 (posting .proving 1 [])).core.posts = (1, []) :: [] ∧
    (engOf 0 (posting .proving 1 [])).state ≠ .service ∧
    (engOf 0 (posting .service 2 (recBytes passRec))).state = .service ∧
    (engOf 0 (posting .service 2 (recBytes passRec))).slots.any (fun p => p.2 == (parseRec (recBytes passRec)).head + 1) = true ∧
    crc16 ((recBytes passRec).take 14) = BitVec.ofNat 16 (fieldLE (recBytes passRec) 14 2) := by decide +kernel
theorem test_post : (after (.postEventPort 0) (posting .service 2 (recBytes passRec))).frame.events = [(0, .pass passRec)] ∧
    (engOf 0 (after (.postEventPort 0) (posting .service 3 (recBytes passRec)))).errCode = 0x0B := by decide +kernel

/-- The head context with g4 at the start of DMEM, HREQ as given. -/
def asking (hreq : BitVec 7) : State :=
  onEngine { coreWith [] with head := { ctxWith 0x100 [(4, 0x10006FC0)] with flags := hreq } }

theorem test_SystemCalls : Ready 0 .head false [3] (regs []) ∧ (ctxAt 0 .head (regs [])).fatal = [] ∧
    Ready 0 .head false [] (regs []) ∧ Ready 0 .head false [4, 5] (regs []) ∧ Ready 0 .head false [4, 2] (asking 0) ∧
    (ctxAt 0 .head (asking 0)).flags.getLsbD 6 = false ∧ Ready 0 .head false [4, 2] (asking 0x40) ∧
    (ctxAt 0 .head (asking 0x40)).flags.getLsbD 6 = true ∧ 0x10000000 ≤ (readReg (ctxAt 0 .head (asking 0x40)) 4).toNat ∧
    (readReg (ctxAt 0 .head (asking 0x40)) 4).toNat + 64 ≤ 0x10007000 ∧
    NoWriteInFlight 0 .head (readReg (ctxAt 0 .head (asking 0x40)) 4).toNat 64 (asking 0x40) :=
  ⟨ready_of_readyB (by decide), by decide, ready_of_readyB (by decide), ready_of_readyB (by decide),
    ready_of_readyB (by decide), by decide, ready_of_readyB (by decide), by decide, by decide, by decide,
    by unfold NoWriteInFlight; decide⟩
theorem test_hrec : reg 2 (after (.ecallHrec 0 .head) (asking 0)) = 0 ∧ reg 2 (after (.ecallHrec 0 .head) (asking 0x40)) = 1 := by
  decide

theorem test_TrapsAndHalts : Ready 0 .head false [] (regs []) ∧ Ready 0 .ext false [] extRuns ∧
    Ready 0 .head true [] (regs []) ∧ Dyhar.decode 0 .head 0xF8000000 = none :=
  ⟨ready_of_readyB (by decide), ready_of_readyB (by decide), ready_of_readyB (by decide), by decide⟩
theorem test_halt_ext : (engOf 0 (after (.halt 0 .ext) extRuns)).core.xOff = true := by decide

/-! ### The coprocessor -/

/-- An operation of engine 0 in flight. -/
def opOf (kind : CopKind) (mode : Nat) (stage : CopStage) (committed killed : Bool) : CopOp :=
  { tag := 5, ctx := .head, kind := kind, vd := 2, va := 1, vb := 0, gs := 0x10000000, mode := mode, committed := committed
    killed := killed, stage := stage, res := .zero, exc := 0, discard := false, ded := false, ce := 0 }

/-- Engine 0 with that operation alone. -/
def inCop (o : CopOp) : State := onEngine { coreWith [] with cops := [o] }

theorem test_VectorDispatches : Ready 0 .head true [4] (regs [(4, 0x10007F88)]) ∧ Ready 0 .head true [] (regs []) ∧
    Dispatchable 0 (copOpOf 0 .head .vld 15 1 0 0 4 1 (regs [(4, 0x10007F88)])) (regs [(4, 0x10007F88)]) ∧
    Dispatchable 0 (copOpOf 0 .head .vld 15 1 0 0 4 0 (regs [(4, 0x10007F88)])) (regs [(4, 0x10007F88)]) ∧
    Dispatchable 0 (copOpOf 0 .head .vst 0 0 1 0 4 0 (regs [(4, 0x10006FDC)])) (regs [(4, 0x10006FDC)]) ∧
    Dispatchable 0 (copOpOf 0 .head .vfir 0 1 2 3 4 3 (regs [(4, 0x20003FB8)])) (regs [(4, 0x20003FB8)]) ∧
    Dispatchable 0 (copOpOf 0 .head .vscale 0 1 2 0 4 1 (regs [])) (regs []) ∧
    Dispatchable 0 (copOpOf 0 .head .vred 0 1 2 0 0 2 (regs [])) (regs []) ∧
    Dispatchable 0 (copOpOf 0 .head .vmac 0 1 2 3 0 0 (regs [])) (regs []) := by
  refine ⟨ready_of_readyB (by decide), ready_of_readyB (by decide), ?_⟩
  unfold Dispatchable NoWriteInFlight Sound
  refine ⟨⟨by decide, by decide, by decide, ?_, by decide, by decide, by decide⟩,
    ⟨by decide, by decide, by decide, ?_, by decide, by decide, by decide⟩,
    ⟨by decide, by decide, by decide, ?_, by decide, by decide, by decide⟩,
    ⟨by decide, by decide, by decide, ?_, by decide, by decide, by decide⟩,
    ⟨by decide, by decide, by decide, ?_, by decide, by decide, by decide⟩,
    ⟨by decide, by decide, by decide, ?_, by decide, by decide, by decide⟩,
    ⟨by decide, by decide, by decide, ?_, by decide, by decide, by decide⟩⟩ <;>
    intro b h <;> simp [ctxAt, regs, onEngine, synced, coreWith, ctxWith, copOpOf, ctxOf, engOf, tabGet, CtxSt.reset] at h

theorem test_CoprocessorOperations :
    let ready := fun o => (engOf 0 (inCop o)).core.cops.find? (fun o => o.tag == 5) = some o
    ready (opOf .vld 1 .queued true false) ∧ copReady (opOf .vld 1 .queued true false) (engOf 0 (inCop (opOf .vld 1 .queued true false))).core = true ∧
    unitFree (unitOf (opOf .vld 1 .queued true false)) (engOf 0 (inCop (opOf .vld 1 .queued true false))).core = true ∧
    headFirst (opOf .vld 1 .queued true false) (engOf 0 (inCop (opOf .vld 1 .queued true false))).core = true ∧
    ready (opOf .vadd 0 .running true false) ∧ ready (opOf .vadd 0 .running false true) ∧
    ready (opOf .vadd 0 .computed true false) ∧ ready (opOf .vst 1 .computed true false) ∧
    mayStore .head (opOf .vst 1 .computed true false).gs.toNat 32 = true := by decide
theorem test_vld : ((engOf 0 (after (.copOpStart 0 5) (onEngine { coreWith [] with
      cops := [opOf .vld 1 .queued true false], dmem := [(0, 0x34), (1, 0x12)] }))).core.cops.map fun o => o.res.m.headD 0) =
    [0x1234] := by decide
theorem test_complete : ((ctxAt 0 .head (after (.copComplete 0 5) (inCop { opOf .vadd 0 .computed true false with
      res := { Vec.zero with e := 3 } }))).v.map fun p => (p.1, p.2.e)) = [(2, 3)] ∧
    (engOf 0 (after (.copComplete 0 5) (inCop (opOf .vadd 0 .computed true false)))).core.cops = [] := by decide

/-- The head context waits for tag 5, which is free. -/
def vwaiting : State := onEngine { coreWith [] with head := { ctxWith 0x100 [] with block := .vwait 0x20 } }

theorem test_VwaitWaitsForTags : Ready 0 .head false [] (regs []) ∧ Ready 0 .head false [] (inCop (opOf .vadd 0 .queued true false)) ∧
    (∀ t < 24, (0x20 : BitVec 24).getLsbD t = true → tagInRange .head t = true) ∧
    (∀ t < 24, tagInRange .ext t = true → tagInRange .ext t = true) ∧
    (∀ f ∈ (ctxAt 0 .head (regs [])).fatal, f.1 < 24 → ¬(0x20 : BitVec 24).getLsbD f.1 = true) ∧
    (∀ o ∈ (engOf 0 (regs [])).core.cops, o.tag < 24 → ¬(0x20 : BitVec 24).getLsbD o.tag = true) ∧
    ¬(∀ o ∈ (engOf 0 (inCop (opOf .vadd 0 .queued true false))).core.cops, o.tag < 24 → ¬(0x20 : BitVec 24).getLsbD o.tag = true) ∧
    (ctxAt 0 .head vwaiting).block = .vwait 0x20 ∧ (ctxAt 0 .head vwaiting).spec = none :=
  ⟨ready_of_readyB (by decide), ready_of_readyB (by decide), by decide⟩

theorem test_BranchResolves_more :
    let b := fun (target : Word) (fault : Option (Nat × Word)) => ({ pc := 0x108, cond := .lt, rs1 := 1, rs2 := 2, predicted := true
                                                                     target := target, n := 1, nv := 1, held := [], heldBell := none
                                                                     tags := [5], fault := fault, ce := 0 } : Spec)
    let s := fun target fault => onEngine { coreWith [(1, 1), (2, 5)] with
      head := { ctxWith 0x104 [(1, 1), (2, 5)] with spec := some (b target fault) }, cops := [opOf .vadd 0 .queued false false] }
    inCode .head 0x4000 = false ∧ inCode .head 0x100 = true ∧
    (ctxAt 0 .head (after (.branchResolve 0 .head) (s 0x4000 none))).halted = some 2 ∧
    (ctxAt 0 .head (after (.branchResolve 0 .head) (s 0x100 (some (3, 0x104))))).halted = some 3 ∧
    (engOf 0 (s 0x4000 none)).core.cops.all (fun o => o.stage != .computed) = true := by decide

/-- The head context with a fatal exception that waits on tag 5. -/
def fatal (b : Block) : State := onEngine { coreWith [] with head := { ctxWith 0x100 [] with block := b, fatal := [(5, some 2, 0x0C)] } }

theorem test_SystemCalls_fatal : Ready 0 .head false [3] (fatal .none) ∧ (ctxAt 0 .head (fatal .none)).fatal = (5, some 2, 0x0C) :: [] ∧
    (ctxAt 0 .head (after (.wland 0 .head 3) (fatal .none))).halted = some 0x0C ∧
    Sound 0 (readReg (ctxAt 0 .head (asking 0x40)) 4).toNat 64 (asking 0x40) :=
  ⟨ready_of_readyB (by decide), by decide, by decide, by unfold Sound; decide⟩
theorem test_VwaitWaitsForTags_fatal : Ready 0 .head false [] (fatal .none) ∧
    (∀ t < 24, (0x20 : BitVec 24).getLsbD t = true → tagInRange .head t = true) ∧
    (ctxAt 0 .head (fatal .none)).fatal = [] ++ (5, some 2, 0x0C) :: [] ∧ (0x20 : BitVec 24).getLsbD 5 = true ∧
    (ctxAt 0 .head (after (.vwait 0 .head 0x20) (fatal .none))).halted = some 0x0C :=
  ⟨ready_of_readyB (by decide), by decide⟩
theorem test_PullsTakeEntries_error : ∃ p : PullOp,
    let s := onEngine { coreWith [] with
      pulls := [{ slot := 0, rd := 3, addr := 0x10000010 }], queues := [(0, [sampleAt 800])]
      ecc := [{ mem := .stream, word := 3, double := true }] }
    let k := (engOf 0 s).core
    k.pulls.find? (fun p => (queueOf p.slot k).length != 0) = some p ∧ replayOf p.slot k = [] ∧ p.slot ∉ k.marks ∧
    mayStore .head p.addr 16 = true ∧ k.ecc.any (fun z => streamHit p.slot 0 3 z && z.double) = true ∧ k.head.halted = none ∧
    (ctxAt 0 .head (after (.pullComplete 0) s)).halted = some 5 := ⟨{ slot := 0, rd := 3, addr := 0x10000010 }, by decide⟩
theorem test_PullsTakeEntries_sound : replayOf 0 (engOf 0 (pulling (sampleAt 800))).core = [] ∧
    (engOf 0 (pulling (sampleAt 800))).core.ecc.any (streamHit 0 0 3) = false ∧
    (engOf 0 queued).core.ecc.any (peekHit (engOf 0 queued).core 0 0) = false := by decide
theorem test_PostedEvents_fault : (engOf 0 (posting .service 3 (recBytes passRec))).core.head.halted = none ∧
    (catchUp (engOf 0 (posting .service 3 (recBytes passRec)))).core.posts = (3, recBytes passRec) :: [] ∧
    (catchUp (engOf 0 (posting .proving 1 []))).state ≠ .service ∧ Sound 0 0x10006FF0 16 (regs []) := by
  unfold Sound
  decide +kernel

/-- A killed operation that computes, in an engine in service. -/
theorem test_CoprocessorOperations_killed : (engOf 0 (inCop (opOf .vadd 0 .running false true))).state = .service ∧
    0 ∉ (inCop (opOf .vadd 0 .running false true)).frame.late ∧ (engOf 0 (inCop (opOf .vadd 0 .running false true))).core.dead = none ∧
    (engOf 0 (after (.copOpEnd 0 5 true) (inCop (opOf .vadd 0 .running false true)))).state = .out ∧
    (engOf 0 (after (.copOpEnd 0 5 false) (inCop (opOf .vadd 0 .running false true)))).core.cops = [] := by decide
theorem test_CoprocessorOperations_discard :
    (ctxAt 0 .head (after (.copComplete 0 5) (inCop { opOf .vadd 0 .computed true false with
      discard := true, res := { Vec.zero with e := 3 } }))).v = [] ∧
    (engOf 0 (inCop (opOf .vst 1 .computed true false))).core.ecc.any (partHit 0x10000000 32) = false := by decide
theorem test_CoprocessorOperations_wland : ∃ f r,
    let s := inCop { opOf .vadd 0 .computed true false with ded := true }
    let k := (engOf 0 s).core
    let s' := onEngine { k with head := { k.head with block := .wland 1 } }
    (engOf 0 s').core.head.block = .wland 1 ∧ (engOf 0 s').core.head.halted = none ∧
    (ctxAt 0 .head (after (.copComplete 0 5) s')).fatal = f :: r ∧
    (ctxAt 0 .head (after (.copComplete 0 5) s')).halted = some 5 := ⟨(5, some 2, 5), [], by decide⟩

/-- The states above in which the two cores of the engine are in step, as the statements they witness ask. -/
theorem test_in_step : (∀ y ∈ [sampleAt 800, tokenAt 800, markEntry 3 800], inStepB (pulling y) = true) ∧
    inStepB queued = true ∧ inStepB (waiting (.peek 3 0 1) [sampleAt 8]) = true ∧ inStepB loading = true ∧
    inStepB (branching true) = true ∧ inStepB (posting .proving 1 []) = true ∧
    inStepB (posting .service 2 (recBytes passRec)) = true ∧ inStepB (inCop (opOf .vadd 0 .running false true)) = true ∧
    inStepB (inCop (opOf .vst 1 .computed true false)) = true ∧ inStepB vwaiting = true ∧ inStepB (flawed .imem true) = true := by
  decide +kernel
theorem test_CoresStayInStep : CoresAgree 0 (regs []) ∧ tabWf .reset (regs []).engs = true :=
  ⟨(inStep_of_inStepB (by decide)).1, by decide⟩

/-! ### Forms that fault, and what operations compute -/

theorem test_FaultingForms_ext : Ready 0 .ext false [1, 3] extRuns ∧ Ready 0 .ext false [3] extRuns ∧ Ready 0 .ext false [1] extRuns ∧
    Ready 0 .ext false [4, 2] extRuns ∧ (ctxAt 0 .ext (after (.pull 0 .ext 3 1 0) extRuns)).halted = some 6 :=
  ⟨ready_of_readyB (by decide), ready_of_readyB (by decide), ready_of_readyB (by decide), ready_of_readyB (by decide), by decide⟩

/-- Slot 0 has given its end-of-frame mark. -/
def marked : State := onEngine { coreWith [(1, 0x10000000)] with marks := [0] }

theorem test_FaultingForms_stream : Ready 0 .head false [1, 3] marked ∧ Ready 0 .head false [3] marked ∧
    headsServed (engOf 0 marked) ≤ (1 : Fin 8).val ∧ (0 : Fin 8).val ∈ (engOf 0 marked).core.marks ∧ 2 ≤ (2 : Fin 4).val ∧
    (ctxAt 0 .head (after (.pull 0 .head 3 1 0) marked)).halted = some 9 ∧
    (ctxAt 0 .head (after (.peek 0 .head 3 1 0 true) marked)).halted = some 9 :=
  ⟨ready_of_readyB (by decide), ready_of_readyB (by decide), by decide⟩
theorem test_FaultingForms_address : ∀ a ∈ [0x10000008, 0x10008000], Ready 0 .head false [1, 3] (regs [(1, a)]) ∧
    Ready 0 .head false [1] (regs [(1, a)]) ∧ (0 : Fin 8).val < headsServed (engOf 0 (regs [(1, a)])) ∧
    0 ∉ (engOf 0 (regs [(1, a)])).core.marks ∧ (a.toNat % 16 ≠ 0 ∨ a.toNat % 16 = 0 ∧ ownData .head a.toNat = false) := by
  intro a h
  fin_cases h
  · exact ⟨ready_of_readyB (by decide), ready_of_readyB (by decide), by decide⟩
  · exact ⟨ready_of_readyB (by decide), ready_of_readyB (by decide), by decide⟩
theorem test_FaultingForms_jump : Ready 0 .head false [31] (regs []) ∧
    inCode .head ((ctxAt 0 .head (regs [])).pc + ((0x1000 : BitVec 26).signExtend 32 <<< 2)) = false ∧
    Ready 0 .head false [1, 3] (regs [(1, 0x4000)]) ∧ Ready 0 .head false [1, 3] (regs [(1, 0x102)]) ∧
    (readReg (ctxAt 0 .head (regs [(1, 0x102)])) 1 + (0 : BitVec 16).signExtend 32).toNat % 4 ≠ 0 ∧
    inCode .head (readReg (ctxAt 0 .head (regs [(1, 0x4000)])) 1 + (0 : BitVec 16).signExtend 32) = false ∧
    (ctxAt 0 .head (after (.jal 0 .head 0x1000) (regs []))).halted = some 2 :=
  ⟨ready_of_readyB (by decide), by decide, ready_of_readyB (by decide), ready_of_readyB (by decide), by decide, by decide,
    by decide⟩
theorem test_FaultingForms_vector : let s := regs [(1, 0x10000001)]
    Ready 0 .head true [1] s ∧ tagInRange .head (5 : BitVec 5).toNat = true ∧
    (engOf 0 s).core.cops.any (fun p => p.tag == (5 : BitVec 5).toNat) = false ∧ (ctxAt 0 .head s).spec = none ∧
    (0x10000001 : Word).toNat % 2 ≠ 0 ∧ fatalHit (ctxAt 0 .head s) (copOpOf 0 .head .vld 5 2 0 0 1 0 s) = none ∧
    (ctxAt 0 .head (after (.vld 0 .head 5 2 1 0) s)).halted = some 3 :=
  ⟨ready_of_readyB (by decide), by decide⟩

/-- A register with lanes 1, 2, 3 and more zeros at exponent 15, in v1; minus those in v2. -/
def lanes : Core :=
  { coreWith [] with head := { ctxWith 0x100 [] with v :=
      [(1, { m := [1, 2, 3] ++ List.replicate 13 0, e := 15 }), (2, { m := [-1, -2, -3] ++ List.replicate 13 0, e := 15 })] } }

theorem test_OperationResults : ((copCompute { opOf .vred 0 .queued true false with va := 1 } lanes 0).1.m.headD 0,
      (copCompute { opOf .vred 0 .queued true false with va := 1 } lanes 0).1.e) = (0x6000, 3) ∧
    copCompute { opOf .vadd 0 .queued true false with va := 1, vb := 2 } lanes 0 =
      ({ m := List.replicate 16 0, e := -128 }, 0) ∧
    (copCompute { opOf .vadd 1 .queued true false with va := 1, vb := 2 } lanes 0).1.m.take 3 = [0x2000, 0x4000, 0x6000] ∧
    (copCompute { opOf .vmag 1 .queued true false with va := 2, vb := 0 } lanes 0).1.m.headD 0 = 0x8000 := by decide +kernel
theorem test_OperationResults_vfir : let byte := localByte (engOf 0 (inCop (opOf .vfir 3 .queued true false))).core
    byte 0x10000023 ++ byte 0x10000022 ++ byte 0x10000021 ++ byte 0x10000020 = (byte 0x10000020).signExtend 32 ∧
    (3 : Nat) < 4 ∧ -128 ≤ (0 : Int) + 5 ∧ ¬(-128 ≤ (127 : Int) + 5 ∧ (127 : Int) + 5 ≤ 127) := by decide

theorem test_SharedLoads_sizes : addr (regs [(1, 0x40000FFE)]) % 2 = 0 ∧ IsShared (addr (regs [(1, 0x40000FFE)])) ∧
    Ready 0 .head true [1, 3] (regs [(1, 0x40000FFE)]) ∧
    (let s := onEngine { coreWith [] with shared := [{ tag := 7, ctx := .head, rd := 3, addr := 0x40000000, size := 2, sx := true }]
                                          shr := [(0, 0x2A), (1, 0xFF)] }
     reg 3 (after (.sharedLoadComplete 0 .head 7) s) = 0xFFFFFF2A) :=
  ⟨by decide, by unfold IsShared; decide, ready_of_readyB (by decide), by decide⟩

/-! ### The bell -/

/-- Every domain in service, both host links up, the tree of domains and links as after power-up. -/
def up : State :=
  { State.reset with
    pmc := { PmcSt.reset with step := 4, doms := (List.range 30).map fun d => (d, { Dom.reset with state := .on }) }
    ha := { PortSt.reset with link := true }, hb := { PortSt.reset with link := true } }

/-- The bell of up with changes. -/
def bellUp (b : BellSt) : State := { up with bell := b }

/-- The device in RUN with a configuration. -/
def running (c : Cfg) : State := { up with dev := { DevSt.reset with mode := .run }, img := { ImgSt.reset with cfg := c } }

theorem test_reset_bell : State.reset.bell.period = 0x09C4 ∧ State.reset.bell.stat = 7 ∧ safeAsserted State.reset = true := by
  decide

theorem test_BellRegisterAccesses : hostUp .ha up = true ∧ domOn (if up.bell.outA then 3 else 2) up = true ∧
    up.bell.locked = false ∧ (bellUp { BellSt.reset with locked := true }).bell.locked = true ∧
    (1250 ≤ (1250 : Word).toNat % 2 ^ 15 ∧ (20000 : Word).toNat % 2 ^ 15 ≤ 20000) ∧ (1249 : Word).toNat % 2 ^ 15 < 1250 ∧
    20000 < (20001 : Word).toNat % 2 ^ 15 := by decide
theorem test_bell_period : (after (.bellPeriodWrite .ha 1250) up).bell.period = 1250 ∧
    (after (.bellPeriodWrite .ha 20001) up).bell.period = 2500 ∧
    fltReg clsBell 0 (after (.bellPeriodWrite .ha 20001) up) = 0x80 := by decide

theorem test_ReferenceInputs_measure : (up.bell.outA = false ∧ domOn 2 up = true) ∧ (up.bell.outB = false ∧ domOn 3 up = true) ∧
    (false = false ∧ (-1000 : Int) ≤ -1000 ∧ (1000 : Int) ≤ 1000) ∧ ¬(false = false ∧ (-1000 : Int) ≤ 1001 ∧ (1001 : Int) ≤ 1000) ∧
    ¬(true = false ∧ (-1000 : Int) ≤ 0 ∧ (0 : Int) ≤ 1000) := by decide
theorem test_ReferenceInputs_pps : (bellRuns up = true ∧ up.bell.loadPps = false) ∧
    (let s : State := { State.reset with bell := { BellSt.reset with loadPps := true, time := 3 } }
     bellRuns s = true ∧ s.bell.loadPps = true ∧ s.bell.locked = false ∧ 2 < (s.bell.time - s.bell.loadPpsAt).toNat ∧
       s.dev.mode = .boot ∧ domOn 1 s = false) ∧
    (let s := bellUp { BellSt.reset with ppsSeen := true, time := 20000000 }
     s.bell.ppsSeen = true ∧ 20000000 ≤ (s.bell.time - s.bell.ppsMark).toNat) := by decide
theorem test_references : (after (.refMeasure .a 5 false) up).bell.refA = true ∧
    (after (.refMeasure .a 5 true) (bellUp { BellSt.reset with everOk := true, refA := true })).bell.refA = false ∧
    fltReg clsBell 0 (after (.refMeasure .a 1001 false) (bellUp { BellSt.reset with everOk := true, refA := true })) = 1 ∧
    exec .ppsSeenExpiry (bellUp { BellSt.reset with ppsSeen := true, time := 20000000 }) =
      .next (bellUp { BellSt.reset with ppsSeen := false, time := 20000000 }) := ⟨by decide, by decide, by decide, rfl⟩
theorem test_pps : (after .bellppsEdge (bellUp { BellSt.reset with time := 10000000, ppsRef := true })).bell.ppsInt = 10000000 ∧
    fltReg clsBell 0 (after .bellppsEdge (bellUp { BellSt.reset with time := 9998999, ppsRef := true })) = 0x40 ∧
    fltReg clsBell 0 (after .bellppsEdge (bellUp { BellSt.reset with time := 9999000, ppsRef := true })) = 0 := by decide

/-- The bell once its reference has been good. -/
def goodBell : BellSt := { BellSt.reset with everOk := true, hold := false, refA := true, refB := true }

theorem test_HoldoverAndTrees : (goodBell.everOk = true ∧ goodBell.hold = false ∧ bellRuns (bellUp goodBell) = true ∧
      goodBell.load = false ∧ goodBell.phase + 3 < goodBell.frameLen ∧ goodBell.time.toNat + 3 < 2 ^ 48) ∧
    (up.bell.hold = true ∧ ¬(up.bell.outA = true ∧ up.bell.outB = true)) ∧
    (let s := bellUp { BellSt.reset with ssStart := some 0, time := 10000000 }
     s.bell.ssStart = some 0 ∧ s.bell.ssExpired = false ∧ 10000000 ≤ (s.bell.time - 0).toNat) ∧
    (up.bell.outA = false ∧ up.bell.outB = false ∧ up.dev.safe = false) := by decide
theorem test_holdover : (after (.holdoverEntry true) (bellUp goodBell)).bell.time = 3 ∧
    fltReg clsBell 0 (after (.holdoverEntry true) (bellUp goodBell)) = 1 := by decide
theorem test_tree : (after (.treeDisagreement true false) up).bell.outA = true ∧
    (after (.treeDisagreement true true) up).dev.safe = true := by decide

theorem test_LandingTicks : (bellRuns up = true ∧ up.bell.phase ≤ up.bell.frameLen ∧ up.bell.load = false) ∧
    (let s : State := { running .none with sup := { SupSt.reset with cpDue := true } }
     bellRuns s = true ∧ s.bell.phase ≤ s.bell.frameLen ∧ s.bell.load = false ∧ s.dev.mode ≠ .boot ∧ s.dev.safe = false ∧
       s.frame.closing = false ∧ s.sup.cpDue = true) ∧
    (let s : State := { running .none with frame := { FrameSt.reset with closing := true } }
     bellRuns s = true ∧ s.bell.load = false ∧ s.dev.mode ≠ .boot ∧ s.frame.closing = true) ∧
    (let s : State := { up with dev := { DevSt.reset with startReq := true } }
     bellRuns s = true ∧ s.bell.load = false ∧ s.dev.mode = .boot ∧ s.dev.startReq = true) ∧
    (let s := bellUp { BellSt.reset with landNo := 0xFFFFFFFF, phase := 2500 }
     bellRuns s = true ∧ s.bell.phase ≤ s.bell.frameLen ∧ s.bell.load = false ∧ s.bell.landNo = 0xFFFFFFFF) ∧
    (let s := bellUp { BellSt.reset with time := 0xFFFFFFFFFFFF, phase := 2498 }
     bellRuns s = true ∧ s.bell.load = false ∧ s.bell.time = 0xFFFFFFFFFFFF ∧ s.bell.phase + 1 < s.bell.frameLen) ∧
    (let s := bellUp { BellSt.reset with load := true }
     bellRuns s = true ∧ s.bell.phase ≤ s.bell.frameLen ∧ s.bell.load = true ∧ s.bell.locked = false) := by decide
theorem test_landing_tick : (after (.landingTick .quiet) up).bell.landNo = 1 ∧
    (after (.landingTick .quiet) up).bell.time = 2500 ∧
    (after (.landingNumberWrap .quiet) (bellUp { BellSt.reset with landNo := 0xFFFFFFFF })).bell.wrapLand = 1 ∧
    (after .presetLoad (bellUp { BellSt.reset with load := true, presetLo := 7, landPreset := 9 })).bell.landNo = 9 := by decide

/-- A head with a previous-wheel reference of the given time, and what else holds a reference. -/
def referring (t : Bell) : State :=
  { up with
    bell := { BellSt.reset with time := 0x500000000000, ppsRef := true, ppsMark := t }
    heads := [(3, { Head.reset with ev := { Eval.reset with prev := some (t, 5, true) } })]
    engs := [(0, { Eng.reset with winEnd := some t })], pmc := { up.pmc with trans := [t] } }

theorem test_ReferencesExpire : Canonical (referring 0) ∧ (headOf 3 (referring 0)).ev.prev = some (0, 5, true) ∧
    (engOf 0 (referring 0)).winEnd = some 0 ∧ 2 ^ 46 < ((referring 0).bell.time - 0).toNat ∧
    Canonical (referring 0x100000000000) ∧
    ¬2 ^ 46 < ((referring 0x100000000000).bell.time - 0x100000000000).toNat := by
  unfold Canonical; decide
theorem test_expiry : (headOf 3 (after .referenceExpiry (referring 0))).ev.prev = none ∧
    (headOf 3 (after .referenceExpiry (referring 0x100000000000))).ev.prev = some (0x100000000000, 5, true) := by decide

/-! ### Stop groups -/

/-- A group with a configuration: encoder, guard, 5 s SS1, 100 ms feedback. -/
def grpCfgOf : GrpCfg :=
  { enc := true, guard := true, trust := [], profiles := [[]], encScale := 1000, win := 1, aEnv := 100, vTol := 10, tDly := 10
    vStill := 5, tStill := 100, tSs1 := 5000, tFb := 100 }

/-- The device in RUN, group 0 configured, RSTG group 0, its record as given. -/
def grp (x : Grp) : State :=
  { running { Cfg.none with groups := [(0, grpCfgOf)] } with saf := { SafSt.reset with groups := [(0, x)], watching := true } }

/-- The same at a bell time past its last landing tick. -/
def grpAt (t : Bell) (x : Grp) : State := { grp x with bell := { goodBell with time := t, tickTime := t } }

/-- A group that runs: both feedback inputs low, guards closed. -/
def runs : Grp := { Grp.reset with state := .run, tra := true, trb := true, srq := true, gda := true, gdb := true }

theorem test_FeedbackAndGroupFaults_levels : domOn 12 (grp runs) = true ∧
    (let x := { runs with state := .energise, srq := false, fba := true }
     domOn 12 (grp x) = true ∧ (grpOf 0 (grp x)).state = .energise ∧ (grpOf 0 (grp x)).fbb = false) ∧
    (grpOf 0 (grp runs)).state = .run ∧ (grpOf 0 (grp { runs with state := .ss1, srq := false })).state = .ss1 ∧
    (let x := { Grp.reset with state := .drop, fba := true }
     (grpOf 0 (grp x)).state = .drop ∧ (grpOf 0 (grp x)).fba = true) ∧
    (grpOf 0 (grp { Grp.reset with state := .sto })).state = .sto := by decide
theorem test_feedback : (grpOf 0 (after (.feedbackChange 0 .a false)
      (grp { runs with state := .energise, srq := false, fba := true }))).state = .run ∧
    (grpOf 0 (after (.feedbackChange 0 .a true) (grp runs))).state = .locked ∧
    fltReg clsSg 0 (after (.feedbackChange 0 .a true) (grp runs)) = 0x2010 := by decide

theorem test_GuardsAndEncoders : domOn 12 (grp runs) = true ∧
    (let s := grpAt 5000000 { Grp.reset with state := .sto, gbAt := some 0, gda := true, gSeen := 1, gdb := true }
     (grpOf 0 s).state = .sto ∧ (grpOf 0 s).gbAt = some 0 ∧ (s.bell.time - 0).toNat ≤ 5000000 ∧ (grpOf 0 s).gSeen = 1 ∧
       (grpOf 0 s).gdb = true) ∧
    (grpOf 0 (grpAt 5000000 { Grp.reset with state := .sto, gbAt := some 0, gda := true })).gdb = false ∧
    ((false ≠ (grpOf 0 (grp { runs with ea := true })).ea ↔ false = (grpOf 0 (grp { runs with ea := true })).eb)) ∧
    (true ≠ (grpOf 0 (grp runs)).ea ∧ true ≠ (grpOf 0 (grp runs)).eb) ∧ (grpCfg 0 (grp runs)).enc = true := by decide
theorem test_guard : (grpOf 0 (after (.guardChange 0 .a true)
      (grpAt 5000000 { Grp.reset with state := .sto, gbAt := some 0, gSeen := 1, gdb := true }))).gtest = true ∧
    (grpOf 0 (after (.guardChange 0 .a false) (grp runs))).gOpened = true := by decide
theorem test_encoder : (grpOf 0 (after (.encoderEdge 0 true true) (grp runs))).state = .locked ∧
    (grpOf 0 (after (.encoderEdge 0 true true) (grp runs))).encErr = 1 := by decide

theorem test_FeedbackAndGroupFaults_times :
    (let s := grpAt 1000000 { Grp.reset with state := .energise, tra := true, trb := true, fba := true, since := 0 }
     domOn 12 s = true ∧ (grpOf 0 s).state = .energise ∧ 10000 * (grpCfg 0 s).tFb ≤ tickAge (grpOf 0 s).since s ∧
       ¬((grpOf 0 s).fba = false ∧ (grpOf 0 s).fbb = false)) ∧
    (let s := grpAt 1000000 { Grp.reset with state := .drop, since := 0 }
     (grpOf 0 s).state = .drop ∧ 10000 * (grpCfg 0 s).tFb ≤ tickAge (grpOf 0 s).since s ∧
       ¬((grpOf 0 s).fba = true ∧ (grpOf 0 s).fbb = true)) ∧
    (let s := grpAt 1000000 { Grp.reset with state := .sto, fbBad := some 0, fbDisc := some 0 }
     (grpOf 0 s).state = .sto ∧ (grpOf 0 s).fbBad = some 0 ∧ (grpOf 0 s).fbDisc = some 0 ∧
       10000 * (grpCfg 0 s).tFb ≤ tickAge 0 s) ∧
    (let s := grp runs
     (grpOf 0 s).state ≠ .unused ∧ (grpOf 0 s).fbDisc = none ∧ ¬10000 * (grpCfg 0 s).tFb ≤ tickAge (grpOf 0 s).since s) ∧
    (let s := grpAt 5000000 { runs with gdDisc := some 0 }
     (grpOf 0 s).state ≠ .unused ∧ (grpCfg 0 s).guard = true ∧ (grpOf 0 s).gdDisc = some 0 ∧ 5000000 ≤ tickAge 0 s) := by decide
theorem test_window : fltReg clsSg 0 (after (.fbWindowExpiry 0) (grpAt 1000000 { Grp.reset with
      state := .energise, tra := true, trb := true, fba := true, since := 0 })) = 0x2008 ∧
    fltReg clsSg 0 (after (.readbackFault 0 .tra) (grp runs)) = 0x2200 := by decide

theorem test_StopsEnd :
    (let s := grpAt 1000000 { runs with state := .ss1, srq := false, stillAt := some 0 }
     domOn 12 s = true ∧ (grpOf 0 s).state = .ss1 ∧ (grpCfg 0 s).enc = true ∧ (grpOf 0 s).stillAt = some 0 ∧
       10000 * (grpCfg 0 s).tStill ≤ tickAge 0 s) ∧
    (let s := grpAt 50000000 { runs with state := .ss1, srq := false, ss1K := 20000 }
     (grpOf 0 s).state = .ss1 ∧ (grpOf 0 s).stillAt = none ∧
       10000 * (grpCfg 0 s).tSs1 ≤ (grpOf 0 s).ss1K * s.bell.period) := by decide
theorem test_ss1 : (grpOf 0 (after (.ss1Timeout 0) (grpAt 50000000 { runs with
      state := .ss1, srq := false, ss1K := 20000 }))).state = .drop ∧
    fltReg clsSg 0 (after (.ss1Timeout 0) (grpAt 50000000 { runs with state := .ss1, srq := false, ss1K := 20000 })) = 0x800 := by
  decide

theorem test_ResetInput : (domOn 12 (grp runs) = true ∧ (grpOf 0 (grp runs)).lrst = false) ∧
    (grpOf 0 (grp { runs with lrst := true, riseLand := some 0 })).lrst = true ∧
    (let s := grpAt 100000000 { runs with winAt := some 0 }
     (grpOf 0 s).winAt = some 0 ∧ 100000000 ≤ tickAge 0 s) ∧
    (let s : State := { grpAt 100000000 runs with saf := { SafSt.reset with groups := [(0, runs)], devAt := some 0 } }
     s.img.cfg.rstg = 0 ∧ s.saf.devAt = some 0 ∧ 100000000 ≤ tickAge 0 s ∧ domOn 12 s = true) ∧
    (let s := grpAt 20000001 { runs with lrst := true, lrstAt := some 0 }
     (grpOf 0 s).lrst = true ∧ (grpOf 0 s).stuck = false ∧ (grpOf 0 s).lrstAt = some 0 ∧
       20000000 < (s.bell.time - 0).toNat) := by decide
theorem test_reset_pulse : (grpOf 0 (after (.lrstChange 0 false) { grp { runs with lrst := true, riseLand := some 0 } with
      bell := { goodBell with landNo := 800 } })).rstOk = true ∧
    (grpOf 0 (after (.lrstChange 0 false) { grp { runs with lrst := true, riseLand := some 0 } with
      bell := { goodBell with landNo := 799 } })).rstOk = false := by decide

/-- Orders for group 0 at landing 5. -/
def ordered (x : Grp) (o : GrpOrder) : State :=
  { grp x with
    bell := { goodBell with landNo := 5 }
    sup := { SupSt.reset with
      sent := some { land := 5, openDevReset := false, applyDevReset := false, groups := [(0, o)] } } }

def enableOrder : GrpOrder := { enable := true, stop := false, profile := none, openReset := false, applyReset := false }
def stopOrder : GrpOrder := { enable := false, stop := true, profile := none, openReset := false, applyReset := false }

theorem test_TokenPairs :
    (let s := ordered { Grp.reset with state := .sto, fba := true, fbb := true } enableOrder
     domOn 12 s = true ∧ s.saf.watching = true ∧ (5 : Word) = s.bell.landNo ∧
       s.sup.sent = some { land := s.bell.landNo, openDevReset := false, applyDevReset := false, groups := [(0, enableOrder)] } ∧
       enableOrder.enable = true ∧ enableOrder.stop = false ∧ (grpOf 0 s).state = .sto ∧
       ¬((grpOf 0 s).fba = false ∧ (grpOf 0 s).fbb = false)) ∧
    (let s := ordered runs stopOrder
     s.saf.watching = true ∧ stopOrder.stop = true ∧ (grpOf 0 s).state = .run) ∧
    (grpOf 0 (ordered { runs with state := .energise, srq := false } stopOrder)).state = .energise ∧
    (grp runs).sup.sent = none := by decide
theorem test_TokenPairs_formed :
    let s := ordered runs stopOrder
    let o : Orders := { land := 5, openDevReset := false, applyDevReset := false, groups := [(0, stopOrder)] }
    s.sup.sent = some o ∧ domOn 6 s = true ∧ domOn 7 s = true ∧ s.sup.digA ^^^ 0 = ~~~(~~~s.sup.digB ^^^ 0) ∧
    o.land ^^^ 0 = s.bell.landNo ∧ s.sup.outA.orders = s.sup.outB.orders ∧
    ¬s.sup.digA ^^^ 1 = ~~~(~~~s.sup.digB ^^^ 0) ∧ domOn 6 State.reset = false := by decide
theorem test_TokenPairs_device :
    let s : State := { grp runs with sup := { SupSt.reset with sent := some { land := 0, openDevReset := true, applyDevReset := false, groups := [] } } }
    exec (.tokenPair 0 0 0 0 true) s = .next (after (.tokenPair 0 0 0 0 true) s) ∧
    (after (.tokenPair 0 0 0 0 true) s).saf.devAt = some 0 := ⟨rfl, by decide⟩
theorem test_token : (grpOf 0 (after (.tokenPair 0 0 0 0 true)
      (ordered { Grp.reset with state := .sto, fba := true, fbb := true } enableOrder))).state = .energise ∧
    (grpOf 0 (after (.tokenPair 0 0 0 0 true) (ordered runs stopOrder))).state = .ss1 ∧
    (grpOf 0 (after (.tokenPair 1 0 0 0 true) (ordered runs stopOrder))).state = .run ∧
    fltReg clsSafio 0 (after (.tokenPair 0 0 0 0 false) (ordered runs stopOrder)) = 4 ∧
    fltReg clsSafio 0 (after (.tokenPair 0 0 0 0 false) (grp runs)) = 0 := by decide

theorem test_DeadmanExpires : (domOn 12 (grp runs) = true ∧ (grp runs).saf.watching = true) ∧
    (let s : State := { grp runs with saf := { (grp runs).saf with expecting := true, miss := 1 } }
     s.saf.expecting = true ∧ s.saf.miss = 1 ∧ ¬(s.saf.accepted = true ∧ s.saf.tokLand = s.bell.landNo) ∧
       bellRuns s = true ∧ (grpOf 0 s).state ≠ .unused) := by decide
theorem test_deadman : (grpOf 0 (after .notickTimeout (grp runs))).state = .locked ∧
    safeAsserted (after .notickTimeout (grp runs)) = true := by decide

/-- The seal being read, the expected word 0x12345678 in slot 7. -/
def sealing (bad : Bool) : State :=
  { grp runs with
    img := { ImgSt.reset with cfg := { Cfg.none with scHash := [0, 0, 0, 0, 0, 0, 0, 0x12345678] } }
    saf := { (grp runs).saf with reading := true, sealBad := bad, sealOk := true } }

theorem test_SealReads : (domOn 12 (grp runs) = true ∧ (grp runs).saf.watching = true ∧ (grp runs).saf.reading = false ∧
      (grp runs).bell.landNo.toNat % 256 = 0 ∧ (grp runs).bell.phase = 0 ∧ (grp runs).saf.sealAt ≠ some (grp runs).bell.time) ∧
    (let s := sealing false
     s.saf.reading = true ∧ s.pins.vio33 = true ∧ (0xA512345678 : BitVec 40) >>> 32 = 0xA5 ∧
       (0xA512345678 : BitVec 40).setWidth 32 = s.img.cfg.scHash.getD 7 0 ∧ s.saf.sealBad = false) ∧
    (sealing true).saf.sealBad = true ∧ ¬((0x5A12345678 : BitVec 40) >>> 32 = 0xA5) := by decide
theorem test_seal : (after (.sealReadDone 0xA512345678) (sealing true)).saf.sealBad = false ∧
    (after (.sealReadDone 0xA512345679) (sealing true)).saf.sealOk = false ∧
    (after (.sealReadDone 0xA512345679) (sealing true)).sup.lockNext = true := by decide

theorem test_LandingTicks_skew : ((up.bell.outA = false ∧ up.bell.outB = false) ∧ ¬up.bell.timeB ≠ ~~~up.bell.time) ∧
    fltReg clsBell 0 (after (.landingTick { TickIn.quiet with skew := some 61 }) up) = 2 ∧
    fltReg clsBell 0 (after (.landingTick { TickIn.quiet with skew := none }) up) = 2 ∧
    fltReg clsBell 0 (after (.landingTick { TickIn.quiet with skew := some 60 }) up) = 0 := by decide
theorem test_HoldoverAndTrees_more : up.bell.everOk = false ∧ inHoldover (bellUp goodBell) = false ∧
    draining (bellUp goodBell) = false ∧ up.dev.safe = false ∧ (true || up.bell.outA) = (true || up.bell.outB) ∧
    exec (.holdoverEntry false) up = .next { up with bell := { up.bell with refA := false, refB := false, exitPending := false } } :=
  ⟨by decide, by decide, by decide, by decide, by decide, rfl⟩
theorem test_StopsEnd_closed :
    let s := grpAt 1000000 { runs with state := .ss1, srq := false, stillAt := some 0, fba := true, fbb := true }
    (grpOf 0 s).state = .ss1 ∧ ((grpOf 0 s).fba = true ∧ (grpOf 0 s).fbb = true) ∧
    (grpOf 0 (after (.ss1Standstill 0) s)).state = .sto := by decide
theorem test_BellRegisterAccesses_waits : (let s : State := { up with dev := { DevSt.reset with startTick := true } }
      s.bell.locked = false ∧ s.dev.startTick = true ∧ hostUp .hb s = true ∧
      (after (.bellPeriodWrite .hb 1300) s).bell.waits = [(0x08, 1300)]) ∧
    (bellUp { BellSt.reset with loadPps := true, loadPpsAt := 0, time := 3 }).bell.loadPps = true ∧
    draining (bellUp { BellSt.reset with time := 0xFFFFFFFFFFFF, phase := 2498 }) = false ∧
    (0 < (5 : Int) ∧ 1000000 ≤ ((1000000 : Bell) - 0).toNat) := by decide

/-- VIO33 is out. -/
def noVio (s : State) : State := { s with pins := { s.pins with vio33 := false } }

theorem test_FeedbackAndGroupFaults_supply : s33On (noVio (grp runs)) = false ∧ s33On (grp runs) = true ∧
    (grpOf 0 (after (.feedbackChange 0 .a true) (noVio (grp runs)))).fba = (grpOf 0 (grp runs)).fba := by decide
theorem test_GuardsAndEncoders_edges :
    (let s := grpAt 2 { runs with edgeB := some 0 }
     domOn 12 s = true ∧ s33On s = true ∧ (s.bell.time - 0).toNat ≤ 2 ∧ (grpOf 0 s).edgeB = some 0 ∧
       (grpOf 0 (after (.encoderEdge 0 true false) s)).state = .locked) ∧
    (let s := grpAt 3 { runs with edgeB := some 0 }
     ¬(s.bell.time - 0).toNat ≤ 2 ∧ (grpOf 0 (after (.encoderEdge 0 true false) s)).state = .run) ∧
    s33On (noVio (grp runs)) = false ∧
    (let s := grpAt 5000000 { Grp.reset with state := .sto, gbAt := some 0, gSeen := 1, gdb := true }
     (grpOf 0 s).gSeen = 1 ∧ (s.bell.time - 0).toNat ≤ 5000000) := by decide

/-- Group 0 at a landing tick that is due: encoder fitted, an episode of four landings behind it, at the speed given in counts. -/
def ticking (x : Grp) (n : Int) : State :=
  let s := grp { x with live := BitVec.ofInt 32 n, hist := [0, 0] }
  { s with saf := { s.saf with expecting := false, accepted := true, tokLand := 0 }, bell := { goodBell with phase := 2499 }
           frame := { FrameSt.reset with closing := false } }

theorem test_StopsEnd_tick : (let s := ticking { runs with state := .ss1, srq := false, v0 := 100 } 0
      let t := after (.landingTick .quiet) s
      bellRuns s = true ∧ s.bell.phase ≤ s.bell.frameLen ∧ ¬(s.bell.load = true ∧ s.bell.locked = false) ∧
      TickIn.quiet.oscBad = [] ∧ TickIn.quiet.dacBad = false ∧ t.dev.safe = false ∧ tabWf .reset s.saf.groups = true ∧
      (grpOf 0 s).state ≠ .unused ∧ 0 < s.bell.period ∧ 0 < (grpCfg 0 s).encScale ∧ (grpOf 0 t).state = .ss1 ∧ (grpOf 0 t).ss1K = 1) ∧
    (grpOf 0 (after (.landingTick .quiet) (ticking { runs with state := .ss1, srq := false, v0 := 100 } (-1000000)))).state = .locked ∧
    fltReg clsSg 0 (after (.landingTick .quiet) (ticking { runs with state := .ss1, srq := false, v0 := 100 } (-1000000))) = 0x2002 ∧
    fltReg clsSg 0 (after (.landingTick .quiet) (ticking { runs with state := .ss1, srq := false, v0 := 100 } 1000000)) = 0x2001 := by
  decide +kernel
theorem test_StopsEnd_missed :
    let s := { ticking runs 0 with saf := { (ticking runs 0).saf with expecting := true, accepted := false } }
    let t := after (.landingTick .quiet) s
    s.saf.watching = true ∧ s.saf.miss = 0 ∧ ¬(s.saf.accepted = true ∧ s.saf.tokLand = s.bell.landNo) ∧ t.dev.safe = false ∧
    (grpOf 0 t).state = .ss1 ∧ t.saf.miss = 1 ∧ fltReg clsSafio 0 t = 1 := by decide +kernel
theorem test_ResetInput_fault : (grpOf 0 (grp { runs with faultLand := some 0 })).faultLand = some (grp runs).bell.landNo ∧
    (grpOf 0 (grp runs)).faultLand ≠ some (grp runs).bell.landNo ∧ s33On (grp runs) = true ∧
    (grpOf 0 (after (.lrstChange 0 false) { grp { runs with lrst := true, riseLand := some 0, faultLand := some 800 } with
      bell := { goodBell with landNo := 800 } })).rstOk = false := by decide
theorem test_TokenPairs_supply :
    let s := noVio (ordered { Grp.reset with state := .sto, fba := true, fbb := true } enableOrder)
    domOn 12 s = true ∧ s33On s = false ∧ (grpOf 0 s).state = .sto ∧
    (grpOf 0 (after (.tokenPair 0 0 0 0 true) s)).state = .locked ∧ fltReg clsSg 0 (after (.tokenPair 0 0 0 0 true) s) = 0x2200 := by
  decide
theorem test_TokenPairs_orders :
    (let q : GrpOrder := { enable := false, stop := false, profile := some 0, openReset := false, applyReset := false }
     (grpOf 0 (ordered { Grp.reset with state := .sto } q)).state = .sto ∧ q.profile = some 0) ∧
    (let q : GrpOrder := { enable := false, stop := false, profile := none, openReset := false, applyReset := true }
     (grpOf 0 (after (.tokenPair 0 0 0 0 true) (ordered { Grp.reset with state := .locked, rstOk := true } q))).state = .sto) := by decide
theorem test_SealReads_safe : (let s : State := { sealing false with dev := { DevSt.reset with safe := true } }
      s.dev.safe = true ∧ domOn 12 s = true) ∧ (grp runs).dev.safe = false ∧
    sealLd (after .sealRead (grp runs)) = false ∧ (noVio (sealing false)).pins.vio33 = false := by decide

/-! ### Drain, commit and checkpoint -/

/-- Engine 0 serves head 3 in a closing frame of RUN, with the given core. -/
def draining (k : Core) : State :=
  { running .none with
    engs := [(0, { Eng.reset with state := .service, slots := [(2, 4)], core := synced k })]
    frame := { FrameSt.reset with closing := true }, bell := { goodBell with phase := 100 } }

/-- The head context stands at WLAND with its mark pulled. -/
def landed : Core := { coreWith [] with head := { ctxWith 0x100 [] with block := .wland 1 }, marks := [2] }

theorem test_DrainReports : Canonical (draining landed) ∧ (draining landed).dev.mode ≠ .boot ∧
    (draining landed).dev.safe = false ∧ (draining landed).frame.closing = true ∧ (draining landed).frame.drained = none ∧
    engServing 0 (draining landed) = true ∧ (engOf 0 (draining landed)).core.head.block = .wland 1 ∧
    (engOf 0 (draining landed)).core.dead = none ∧ (engOf 0 (draining landed)).core.drained = none ∧
    (engOf 0 (draining landed)).core.pulls = [] ∧ (engOf 0 (draining landed)).core.posts = [] ∧
    (∀ o ∈ (engOf 0 (draining landed)).core.shared, o.ctx = .ext) ∧
    (∀ o ∈ (engOf 0 (draining landed)).core.cops, o.ctx = .ext) ∧
    (∀ p ∈ (engOf 0 (draining landed)).slots, p.1 ∈ (engOf 0 (draining landed)).core.marks) ∧
    (draining landed).bell.phase < (draining landed).bell.frameLen / 4 ∧
    (∀ o ∈ (engOf 0 (draining landed)).core.cops, o.stage = .computed → o.exc.getLsbD 6 = false) := by
  unfold Canonical; decide
theorem inStep_draining : ∀ n, InStep n (draining landed)
  | 0 => inStep_of_inStepB (by decide)
  | n + 1 => by
    have h : engOf (n + 1) (draining landed) = Eng.reset := by simp [engOf, draining, tabGet]
    refine ⟨⟨?_, ?_, ?_, ?_, ?_⟩, ?_⟩ <;> simp only [h] <;> decide
theorem test_DrainReports_steps : (∀ n, InStep n (draining landed)) ∧
    ∀ n, ∀ o ∈ (engOf n (draining landed)).core.cops, o.stage = .computed → o.exc.getLsbD 6 = false := by
  refine ⟨inStep_draining, fun n o h => ?_⟩
  have e : (engOf n (draining landed)).core.cops = [] := by
    cases n with
    | zero => decide
    | succ n => simp [engOf, draining, tabGet, Eng.reset, Core.reset]
  simp [e] at h
theorem test_DrainReports_past : let s : State := { draining landed with bell := { goodBell with phase := 700 } }
    s.bell.frameLen / 4 ≤ s.bell.phase ∧ (after (.wlandDrained 0) s).frame.late = [0] ∧
    (engOf 0 (after (.wlandDrained 0) s)).core.drained = some 700 := by decide
theorem test_DrainReports_caughtUp : let g := catchUp (engOf 0 (draining landed))
    g.core.head.block = .wland 1 ∧ g.core.dead = none ∧ g.core.drained = none ∧ g.core.pulls = [] ∧ g.core.posts = [] ∧
    g.core.shared = [] ∧ g.core.cops = [] ∧ (∀ p ∈ g.slots, p.1 ∈ g.core.marks) := by decide
theorem test_DrainReports_deadline : (draining (coreWith [])).bell.phase ≤ (draining (coreWith [])).bell.frameLen / 4 ∧
    engServing 0 (draining (coreWith [])) = true ∧ (engOf 0 (draining (coreWith []))).core.drained = none ∧
    (let s : State := { draining landed with bell := { goodBell with phase := 625 } }
     s.bell.frameLen / 4 ≤ s.bell.phase) := by decide
theorem test_drain : (after (.wlandDrained 0) (draining landed)).frame.drained = some 100 ∧
    (after .drainDeadline (draining (coreWith []))).frame.late = [0] ∧
    (after .drainDeadline (draining (coreWith []))).frame.drained = some 625 ∧
    fltReg clsBell 0 (after .drainDeadline (draining (coreWith []))) = 0x10 := by decide

/-- Section 7 with one end of each polarity; heads 3 and 4 on slot 0 of ring 0. -/
def headCfgOf (chan : Nat) : HeadCfg :=
  { ring := 0, slot := 0, chan := chan, lab := 1000, wmin := 100, dOn := 300, dOff := 200, dPeak := 400, phLo := -20, phHi := 20
    zcA := (1000, 0), zcB := (1000, 0), wCfg := 0, wThr := 0, wChk := 0 }

def world : Cfg :=
  { Cfg.none with
    secs := [(7, { pvc := false, auth := 2, ends := [(3, true), (4, false)], defCrc := 0 })]
    heads := [(3, headCfgOf 0), (4, headCfgOf 1)], auth := [11, 22, 33]
    rings := [(0, { mode := 1, pdev := false, ngn8 := 2, ids := [1, 2], setup := [] })]
    groups := [(0, grpCfgOf)], params := [(5, { signed := true, min := 0xFFFFFFF6, max := 10, dflt := 0 })]
    commok := true }

/-- A commit of RUN is due, drain complete at phase 300, section 7 as given. -/
def due (phase : Nat) (x : Sec) : State :=
  { running world with
    frame := { FrameSt.reset with closing := true, drained := some 300 }
    bell := { goodBell with phase := phase, tickTime := 9000000001 }
    man := { ManSt.reset with a := tabSet .reset [] 7 x, b := tabSet (codeB .reset) [] 504 (codeB x) } }

theorem test_CommitsComplete : CommitDue 300 (due 380 .reset) ∧ CommitDue 300 (due 300 { Sec.reset with state := .sweepPending }) ∧
    (secOf 7 (due 300 { Sec.reset with state := .sweepPending })).state = .sweepPending ∧
    (due 300 .reset).img.cfg.sweepTmo * 10000000 <
      ((due 300 .reset).bell.tickTime - (secOf 7 (due 300 { Sec.reset with state := .sweepPending })).sweepAt).toNat ∧
    domOn 4 (due 300 .reset) = true ∧ domOn 5 (due 300 .reset) = true := by
  unfold CommitDue; decide
theorem test_commit_timeout : (after (.commitTimeout true true) (due 300 .reset)).dev.safe = true := by decide +kernel

/-- A STATE event of head 3, to FAULT for cause GN8. -/
def faulted : StateEv :=
  { head := 3, state := .fault, back := false, side := true, a := true, b := false, cause := 0x20, baseA := 11, baseB := 12
    chg := true }

/-- The commit takes a STATE event from engine 0. -/
def dueEvent : State :=
  { due 300 { Sec.reset with state := .clear } with
    frame := { FrameSt.reset with closing := true, drained := some 300, events := [(0, .state faulted)] } }

theorem test_CommitsComplete_state : CommitDue 300 dueEvent ∧ Canonical dueEvent ∧
    eventsOf dueEvent = [] ++ (0, .state faulted) :: [] ∧ faulted.head ∉ lateHeads dueEvent ∧
    faulted.head ∉ removedHeads dueEvent ∧ (headOf 3 (commitSteps dueEvent).1).state = .fault ∧
    (headOf 3 (commitSteps dueEvent).1).baseB = 12 ∧ (secOf 7 (commitSteps dueEvent).1).cause = 5 := by
  unfold Canonical CommitDue; decide +kernel
theorem test_CommitsComplete_sections :
    let s : State := { due 300 { Sec.reset with state := .clear } with
      heads := [(3, { Head.reset with state := .idle }), (4, { Head.reset with state := .idle })] }
    let r := (commitSteps (settleTaken s.sup.taken.length s)).1
    let both : CommitIn := { CommitIn.clean with mismatch := [7] }
    let pair : CommitIn := { CommitIn.clean with otherWord := true }
    (cfgSecs s).Nodup ∧ (∀ n ∈ cfgSecs s, n < 512) ∧ r.dev.mode ≠ .boot ∧ r.man.failed = false ∧ 7 ∈ cfgSecs s ∧
    7 ∉ replacedSecs .clean (differing .clean r) r ∧ differing both r = [7] ∧ pairFails both [7] r = false ∧
    pairFails pair (differing pair r) r = true ∧ (secOf 7 r).state = .clear ∧
    (secOf 7 (compareSecs both [7] r)).cause = 2 ∧ (secOf 7 (compareSecs pair [] r)).cause = 1 := by
  decide +kernel
theorem test_CommitsComplete_miss : exec (.commit .clean) (due 381 .reset) = .next (due 381 .reset) ∧
    300 + 80 < (due 381 .reset).bell.phase ∧ (after (.commitTimeout true false) (due 381 .reset)).dev.safe = true ∧
    (true = true ∧ false = false ∧ domOn 5 (due 300 .reset) = true) := ⟨rfl, by decide, by decide +kernel, by decide⟩

/-- A section's view of a commit at which nothing is wrong. -/
def secIn (moves : List Move1) : SecIn :=
  { pvc := false, tolAbs := 10, tolRel := 10, moves := moves, late := false, entered := false, bad := false, active := false
    first := false, failing := false, failed := false, land := 9, tick := 1000, sweepTmo := 900 }

def pass (up : Bool) : Move1 := { up := up, cls := 1, spc := 0, endIx := 0 }

theorem test_SectionsDerived : ∀ x ∈ [secIn [], { secIn [] with active := true }, secIn [pass true], secIn [pass false],
      { secIn [pass true] with late := true }],
    x.first = false ∧ x.failing = false ∧ x.failed = false ∧ x.entered = false ∧ x.bad = false ∧ x.pvc = false ∧
    ({ Sec.reset with state := .clear } : Sec).state = .clear := by decide
theorem test_derive : (derive (secIn []) 0 { Sec.reset with state := .occupied }).1.state = .clear ∧
    sumA [pass true] { Sec.reset with count := 32766 } = 32767 ∧
    sumB [pass true] (codeB { Sec.reset with count := 32766 }) = 32767 ∧
    (derive (secIn [pass true]) 32767 { Sec.reset with state := .clear, count := 32766 }).1.count = 32767 ∧
    (derive (secIn [pass true]) 32768 { Sec.reset with state := .clear, count := 32767 }).1.cause = 0x07 ∧
    (derive (secIn [pass false]) (-1) { Sec.reset with state := .clear }).1.cause = 0x06 ∧
    (derive { secIn [] with late := true } 0 { Sec.reset with state := .clear }).1.cause = 0x04 ∧
    (derive { secIn [] with active := true } 0 { Sec.reset with state := .clear }).1.prov = true := by decide

/-- Causes with their codes: the pair fails, the first commit, LATE, HEAD, UNDER and OVER; PATTERN and the sweep's ends. -/
theorem test_SectionsDerived_causes : (derive { secIn [] with failing := true } 0 .reset).1.cause = 1 ∧
    (derive { secIn [] with first := true } 0 .reset).1.cause = 3 ∧
    (derive { secIn [] with entered := true } 0 { Sec.reset with state := .disturbed }).1.cause = 5 ∧
    (derive { secIn [] with bad := true, late := true } 0 { Sec.reset with state := .clear }).1.cause = 4 ∧
    (derive { secIn [] with bad := true } 0 { Sec.reset with state := .disturbed, cause := 9 }).1.cause = 9 ∧
    (derive { secIn [pass true] with failed := true } 3 { Sec.reset with state := .clear, cause := 7 }).1.count = 3 := by decide
theorem test_SectionsDerived_pattern :
    let a : Axle := { cls := 1, spc := 100, endIx := 0 }
    let r : Sec := { Sec.reset with state := .occupied, ep := some { Episode.empty with e := [a], x := [{ a with cls := 3 }] } }
    let q := { secIn [] with tick := 800 }
    let s : Sec := { Sec.reset with state := .sweepPending, sweepLive := true, swIn := true, swOut := true }
    (derive { secIn [] with pvc := true } 0 r).1.cause = 8 ∧ (derive (secIn []) 0 r).1.state = .clear ∧
    (derive { secIn [] with pvc := true } 0 { r with ep := some { Episode.empty with unverified := true } }).2 = [6] ∧
    (derive { q with pvc := true } 0 { s with ep := r.ep }).1.cause = 9 ∧ (derive q 0 s).1.state = .clear ∧
    (derive q 0 { s with swOut := false }).1.state = .sweepPending ∧
    (derive { q with moves := [pass true, pass false] } 0 { s with swOut := false }).1.state = .clear ∧
    (derive { secIn [] with tick := 0x1000 } 0 s).1.cause = 9 := by decide

/-- A checkpoint is due: the commit was at phase 300. -/
def checking (phase : Nat) (land : Word) : State :=
  { running world with
    frame := { FrameSt.reset with committedAt := some 300 }, bell := { goodBell with phase := phase, landNo := land }
    sup := { SupSt.reset with cpDue := true } }

theorem test_Checkpoints : (checking 1540 1).dev.mode ≠ .boot ∧ (checking 1540 1).dev.safe = false ∧
    (checking 1540 1).sup.cpDue = true ∧ domOn 6 (checking 1540 1) = true ∧ domOn 7 (checking 1540 1) = true ∧
    (∀ t, (checking 1540 1).frame.committedAt = some t → (checking 1540 1).bell.phase ≤ t + 1240) ∧
    ¬(∀ t, (checking 1541 1).frame.committedAt = some t → (checking 1541 1).bell.phase ≤ t + 1240) ∧
    ¬({ CheckIn.clean with reportA := false }.reportA = true ∧ CheckIn.clean.reportB = true) ∧
    (checking 1540 1).sup.outA = (checking 1540 1).sup.outB ∧ domOn 6 State.reset = false ∧
    (checking 1540 256).bell.landNo.toNat % 256 = 0 := by
  refine ⟨by decide, by decide, by decide, by decide, by decide, ?_, ?_, by decide, rfl, by decide, by decide⟩
  · intro t h
    cases h
    decide
  · intro h
    exact absurd (h 300 rfl) (by decide)
theorem cpFailure_clean {s : State} (h : s.sup.digA = s.sup.digB) (l : cpLate s = false) (q : testLanding s = false) :
    cpFailure .clean s = [] := by
  simp [cpFailure, cpMismatch, h, l, q, CheckIn.clean]
theorem test_checkpoint_passes : cpFailure .clean (takeDigests 0 0 (checking 1540 1)) = [] :=
  cpFailure_clean rfl (by decide) (by decide)
theorem test_checkpoint_passed : (passCheckpoint (checking 1540 1)).sup.cpokRunC = 1 ∧
    (passCheckpoint (checking 1540 1)).sup.cpDue = false := by decide
theorem test_Checkpoints_words : let s := checking 1540 256
    let o := { s.sup.outB with test := ~~~s.sup.outA.test }
    s.sup.outA.test ≠ ~~~s.sup.outB.test ∧
    ({ s with sup := { s.sup with outB := o } } : State).sup.outA.test =
      ~~~({ s with sup := { s.sup with outB := o } } : State).sup.outB.test := by decide
theorem test_checkpoint : (after (.checkpoint .clean) (checking 1541 1)).sup.lockNext = true ∧
    fltReg clsChk 0 (after (.checkpoint .clean) (checking 1541 1)) = 2 ∧
    fltReg clsChk 0 (after (.checkpoint { CheckIn.clean with testA := false }) (checking 1541 256)) = 10 ∧
    fltReg clsChk 0 (after .checkpointDeadline (checking 1540 1)) = 2 := by decide

/-! ### The mailbox -/

/-- Heard, as a computation: Manifest B decoded is A as it stands. -/
def heardB (p : HostId) (op : Byte) (f : MbFields) (s : State) : Bool :=
  !s.dev.safe && s.sup.b == memOf s.sup && decodeTab s.man.b == s.man.a && formatOk op.toNat f &&
    (op == 0x00 || op == 0x60 || !isFollower p s)

theorem supsAgree_of {s : State} (h1 : s.sup.b = memOf s.sup) (h2 : decodeTab s.man.b = s.man.a) : SupsAgree s :=
  ⟨h1, fun n => by simp only [secOf, viewB, h2]⟩

theorem heard_of_heardB {p : HostId} {op : Byte} {f : MbFields} {s : State} (h : heardB p op f s = true) : Heard p op f s := by
  simp only [heardB, Bool.and_eq_true, beq_iff_eq, Bool.not_eq_true', Bool.or_eq_true] at h
  obtain ⟨⟨⟨⟨h1, h2⟩, h3⟩, h4⟩, h5⟩ := h
  refine ⟨h1, supsAgree_of h2 h3, h4, fun a b => ?_⟩
  rcases h5 with (h5 | h5) | h5
  · exact absurd h5 a
  · exact absurd h5 b
  · exact h5

/-- Fields of an entry with an object and argument, issued at landing 0. -/
def fields (obj : BitVec 16) (arg : BitVec 96) : MbFields :=
  { z1 := 0, obj := obj, tag := 77, issue := 0, gen := 0, acode := 0, count := 0, key := 0, arg := arg }

/-- An entry that restores section 7 with a code of its authority. -/
def restore (count key : BitVec 16) : MbFields := { fields 7 0 with acode := 33, count := count, key := key }

/-- HA is the lead of a device in RUN; section 7 as given, heads 3 and 4 IDLE. -/
def commanding (x : Sec) : State :=
  { running world with
    dev := { DevSt.reset with mode := .run, hasLead := true }
    heads := [(3, { Head.reset with state := .idle }), (4, { Head.reset with state := .idle })]
    man := { ManSt.reset with a := tabSet .reset [] 7 x, b := tabSet (codeB .reset) [] 504 (codeB x) }
    ha := { up.ha with ctl := 8 } }

def disturbed : Sec := { Sec.reset with state := .disturbed, cause := 6 }

theorem test_MailboxForms : (commanding .reset).dev.safe = false ∧ formatOk 0x01 (restore 0 0) = true ∧
    formatOk 0x01 (restore 1 0) = false ∧ isFollower .hb (commanding .reset) = true ∧ Heard .ha 0x00 (fields 0 0) (commanding .reset) ∧
    (5 : Nat) ∉ [0x00, 0x01, 0x02, 0x03, 0x10, 0x11, 0x12, 0x13, 0x14, 0x20, 0x30, 0x40, 0x41, 0x50, 0x60, 0x61] ∧
    (0x62 : Nat) ∉ [0x00, 0x01, 0x02, 0x03, 0x10, 0x11, 0x12, 0x13, 0x14, 0x20, 0x30, 0x40, 0x41, 0x50, 0x60, 0x61] ∧
    (let s : State := { commanding .reset with dev := { DevSt.reset with safe := true } }
     s.dev.safe = true) := by
  repeat' first | exact heard_of_heardB (by decide) | apply And.intro | decide
/-- The supervisors' memories differ: only A forces section 7. -/
theorem test_MailboxForms_differ :
    let s : State := { commanding .reset with
      dev := { DevSt.reset with mode := .commission, hasLead := true }
      sup := { SupSt.reset with forces := (List.range 32).map fun i => (i + 8, 1, 0) } }
    ¬Concur .ha 3 0x40 (fields 7 0) s ∧ s.dev.safe = false ∧ formatOk 0x40 (fields 7 0) = true ∧ isFollower .ha s = false ∧
    (0x40 : Nat) ∉ [0x01, 0x02, 0x03, 0x30] ∧
    (after (.forceSet .ha 3 (fields 7 0)) s).sup.results.map (·.code) = [0x0F] ∧
    fltReg clsChk 0 (after (.forceSet .ha 3 (fields 7 0)) s) = 4 := by
  unfold Concur; decide +kernel
theorem test_MailboxForms_concur : Concur .ha 3 0x40 (fields 7 0) (commanding .reset) ∧
    (commanding .reset).sup.b.results = (commanding .reset).sup.results := by
  unfold Concur; decide +kernel
theorem test_forms : (after (.nop .ha 3 (fields 0 0)) (commanding .reset)).sup.results =
      [{ port := .ha, ix := 3, code := 0, value := 0, tag := 77 }] ∧
    (after (.sgStop .hb 3 (fields 0 0)) (commanding .reset)).sup.results.map (·.code) = [0x11] ∧
    (after (.rstSweep .ha 3 (restore 1 0)) (commanding disturbed)).sup.results.map (·.code) = [0x10] := by decide

/-- A direct request of section 7 for a count of 2 with key 9 waits since bell time 0. -/
def requested (t : Bell) : State :=
  { commanding disturbed with
    bell := { goodBell with time := t, tickTime := t }
    sup := { SupSt.reset with
      pend := [{ snum := 7, gen := 0, count := 2, at_ := 0, key := 9, live := true }]
      b := { memOf SupSt.reset with pend := [{ snum := 7, gen := 0, count := 2, at_ := 0, key := 9, live := true }] } } }

theorem test_Restorations : Heard .ha 0x01 (restore 0 0) (commanding disturbed) ∧
    (commanding disturbed).sup.dupSecs.contains 7 = false ∧
    ({ (commanding disturbed).sup with dupSecs := [7] } : SupSt).dupSecs.contains 7 = true ∧
    Heard .ha 0x02 (restore 2 0) (commanding disturbed) ∧ keyEnabled .ha (commanding disturbed) = true ∧
    keyEnabled .hb (commanding disturbed) = false ∧ Heard .hb 0x02 (restore 2 0) { commanding disturbed with dev := { DevSt.reset with mode := .run } } ∧
    Heard .ha 0x03 (restore 2 9) (requested 5000000) ∧
    (requested 5000000).sup.pend.find? (fun q => q.snum == 7) =
      some { snum := 7, gen := 0, count := 2, at_ := 0, key := 9, live := true } ∧
    5000000 ≤ ((requested 5000000).bell.tickTime - 0).toNat ∧ ¬5000000 ≤ ((requested 4999999).bell.tickTime - 0).toNat ∧
    300000000 ≤ ((requested 300000000).bell.time - 0).toNat := by
  repeat' first | exact heard_of_heardB (by decide) | apply And.intro | decide
theorem test_restore : (secOf 7 (after (.rstSweep .ha 0 (restore 0 0)) (commanding disturbed))).state = .sweepPending ∧
    (after (.rstSweep .ha 0 { restore 0 0 with acode := 34 }) (commanding disturbed)).sup.results.map (·.code) = [0x05] ∧
    (secOf 7 (after (.rstDconf .ha 0 (restore 2 9)) (requested 5000000))).state = .occupied ∧
    (after (.rstDconf .ha 0 (restore 2 9)) (requested 4999999)).sup.results.map (·.code) = [0x0C] ∧
    (after (.rstDreq .ha 0 (restore 2 0)) (commanding disturbed)).sup.pend.map (·.count) = [2] ∧
    (after (.dreqExpiry 7) (requested 300000000)).sup.pend = [] := by decide +kernel

/-- Group 0 in STO with every condition of R252 met. -/
def enablable : State :=
  { commanding { Sec.reset with state := .clear } with
    bell := { goodBell with stat := 8, locked := true }
    sup := { SupSt.reset with cpOkC := true }
    saf := { SafSt.reset with
      sealOk := true, accepted := true
      groups := [(0, { Grp.reset with state := .sto, lat := 0xF, gtest := true, gda := true, gdb := true })] } }

theorem test_StopGroupCommands : Heard .ha 0x10 (fields 0 0) enablable ∧ stale (fields 0 0) enablable = false ∧
    grpConfigured 0 enablable = true ∧ enblkOf 0 enablable = 0 ∧ enablable.sup.stopGrps.contains 0 = false ∧
    enblkOf 0 (commanding .reset) ≠ 0 ∧ Heard .ha 0x11 (fields 0 0) enablable ∧ ¬(enablable.dev.mode = .boot ∨ enablable.dev.mode = .prove) ∧
    Heard .ha 0x12 (fields 0 0) enablable ∧ argByte (fields 0 0) 0 < (grpCfg 0 enablable).profiles.length ∧
    grpStateNow 0 enablable = .sto ∧ firstCode [(false, 0x01), (true, 0x04)] = some 0x04 ∧
    (let s := grp { Grp.reset with state := .locked, lat := 0xF }
     Heard .ha 0x13 (fields 0 0) s ∧ grpStateNow 0 s = .locked ∧ (grpOf 0 s).lat.getLsbD 4 = false ∧
       (grpOf 0 s).lat.getLsbD 0 = true ∧ (grpOf 0 s).lat.getLsbD 1 = true) := by
  repeat' first | exact heard_of_heardB (by decide) | apply And.intro | decide
theorem test_enable : (orderOf 0 (after (.sgEnable .ha 0 (fields 0 0)) enablable)).enable = true ∧
    (after (.sgEnable .ha 0 (fields 0 0)) (commanding .reset)).sup.results.map (·.code) = [0x20] := by decide

/-- A device whose checks have passed for n checkpoints, in a mode. -/
def passing (m : Mode) (n : Nat) : State :=
  { commanding .reset with
    bell := { goodBell with stat := 8, locked := true }
    dev := { DevSt.reset with mode := m, pdone := true, hasLead := true, prior := some .run }
    sup := { SupSt.reset with cpokRunC := n }
    saf := { SafSt.reset with sealOk := true, groups := [(0, { Grp.reset with state := .locked, lat := 0xF })] } }

/-- A mode request with a target. -/
def mode (k : BitVec 96) : MbFields := fields 0 k

theorem test_ModeRequests : Heard .ha 0x20 (mode 3) (passing .prove 16) ∧ argByte (mode 3) 0 = modeCode .commission ∧
    stale (mode 3) (passing .prove 16) = false ∧ stale (mode 3) { passing .prove 16 with bell := { goodBell with landNo := 4096 } } = true ∧
    (passing .prove 16).sup.modeTaken = false ∧ condBits false (modeConds .run (passing .prove 15)) (passing .prove 15) ≠ 0 ∧
    (passing .prove 16).dev.pdone = true ∧ (bellStatNow (passing .prove 16)).getLsbD 3 = true ∧
    (passing .prove 16).saf.sealOk = true ∧ 16 ≤ (passing .prove 16).sup.cpokRunC ∧ (passing .prove 16).img.cfg.commok = true ∧
    groupsActive (passing .run 16) = false ∧
    (∀ h ∈ cfgHeads (passing .run 16), (headOf h (passing .run 16)).state ≠ .passage ∧ (headOf h (passing .run 16)).held = false) ∧
    migBusy (passing .run 16) = false ∧ (passing .run 16).sup.rot = none ∧ (passing .run 16).dev.htrans = 0 ∧
    Heard .ha 0x14 (fields 0 0) (passing .lockout 256) ∧ (passing .lockout 256).sup.lockNow = false ∧
    (passing .lockout 256).dev.prior = some .run ∧ domOn 6 (passing .lockout 256) = true ∧
    domOn 7 (passing .lockout 256) = true ∧ Heard .ha 0x20 (mode 0) (passing .run 16) ∧ Heard .ha 0x20 (mode 7) (passing .run 16) := by
  repeat' first | exact heard_of_heardB (by decide) | apply And.intro | decide
theorem test_ModeRequests_commission : Heard .ha 0x20 (mode 3) (passing .run 16) ∧ argByte (mode 3) 0 = 3 ∧
    stale (mode 3) (passing .run 16) = false ∧ (passing .run 16).sup.modeTaken = false ∧ (passing .run 16).dev.mode = .run ∧
    16 ≤ (passing .run 16).sup.cpokRunC ∧ (passing .run 16).img.cfg.commok = true ∧
    (after (.modeReqCommission .ha 0 (mode 3)) (passing .run 16)).dev.mode = .commission ∧
    (∀ h ∈ cfgHeads (passing .run 16), (headOf h (passing .run 16)).state ≠ .passage) :=
  ⟨heard_of_heardB (by decide), by decide +kernel⟩
theorem test_ModeRequests_reset :
    (let s : State := { passing .lockout 256 with saf := { SafSt.reset with
       sealOk := true, groups := [(0, { Grp.reset with state := .locked, lat := 0xF, rstOk := true })] } }
     devResetOk s = true) := by decide
theorem test_mode : (after (.modeReqRun .ha 0 (mode 4)) (passing .prove 16)).dev.mode = .run ∧
    (after (.modeReqRun .ha 0 (mode 4)) (passing .prove 15)).sup.results.map (·.code) = [0x70] ∧
    (after (.modeReqHarbour .ha 0 (mode 5)) (passing .run 16)).dev.htrans = 1 ∧
    (after (.modeReqLockout .ha 0 (mode 6)) (passing .run 16)).dev.prior = some .run ∧
    (after (.modeReqBoot .ha 0 (mode 1)) (passing .run 16)).img.state = .empty := by decide +kernel

/-- A PARAM_SET of PID 5 with its CRC, for a value and a PGEN. -/
def setParam (v pgen : Nat) : MbFields :=
  let f := fields 5 (BitVec.ofNat 96 (v + pgen * 2 ^ 32))
  { f with arg := BitVec.ofNat 96 (v + pgen * 2 ^ 32 + (crc32c ((entryImage 0x30 f).take 28)).toNat * 2 ^ 64) }

/-- The device in COMMISSION, engine 0 serving head 3 and engine 40 READY. -/
def comm : State :=
  { passing .commission 16 with
    engs := [(0, { Eng.reset with state := .service, slots := [(2, 4)] }), (40, { Eng.reset with state := .ready })]
    hb := { up.hb with silent := 64 } }

theorem test_ParametersForcesLead : Heard .ha 0x30 (setParam 10 0) comm ∧ ¬comm.dev.mode = .boot ∧ ¬comm.dev.mode = .prove ∧
    stale (setParam 10 0) comm = false ∧ comm.sup.paramTaken = false ∧
    (crc32c ((entryImage 0x30 (setParam 10 0)).take 28)).toNat = (setParam 10 0).arg.toNat / 2 ^ 64 % 2 ^ 32 ∧
    paramOf 5 comm = some { signed := true, min := 0xFFFFFFF6, max := 10, dflt := 0 } ∧ paramOf 6 comm = none ∧
    (setParam 10 0).arg.toNat / 2 ^ 32 % 2 ^ 16 = comm.sup.pgen ∧ (setParam 10 1).arg.toNat / 2 ^ 32 % 2 ^ 16 ≠ comm.sup.pgen ∧
    paramInRange { signed := true, min := 0xFFFFFFF6, max := 10, dflt := 0 } 10 = true ∧
    paramInRange { signed := true, min := 0xFFFFFFF6, max := 10, dflt := 0 } 11 = false ∧
    ¬(crc32c ((entryImage 0x30 (fields 5 10)).take 28)).toNat = (fields 5 10).arg.toNat / 2 ^ 64 % 2 ^ 32 :=
  ⟨heard_of_heardB (by decide +kernel), by decide +kernel⟩
theorem test_ParametersForcesLead_force : Heard .ha 0x40 (fields 7 1) comm ∧ comm.dev.mode = .commission ∧
    secConfigured 7 comm = true ∧ comm.sup.forces.length < 32 ∧
    (let s : State := { comm with sup := { comm.sup with forces := (List.range 32).map fun i => (i + 8, 1, 0) } }
     forced 7 s = false ∧ 32 ≤ s.sup.forces.length) ∧
    Heard .ha 0x41 (fields 7 0) comm ∧ argByte (fields 7 0) 0 ≠ 1 ∧ Heard .ha 0x41 (fields 0 1) comm ∧
    argByte (fields 0 1) 0 = 1 := by
  repeat' first | exact heard_of_heardB (by decide) | apply And.intro | decide
theorem test_ParametersForcesLead_move : Heard .ha 0x50 (fields 3 40) comm ∧ headConfigured 3 comm = true ∧
    (fields 3 40).arg.toNat % 2 ^ 16 = 40 ∧ 40 ∈ readyEngs comm ∧ engineOf 3 comm = some 0 ∧ inHandover 0 comm = false ∧
    moveOf 3 comm = none ∧ Heard .hb 0x60 (fields 0 0) (passing .run 16) ∧ (passing .run 16).dev.lead ≠ .hb ∧
    (hostOf .ha (passing .run 16)).silent < 64 ∧ 64 ≤ (hostOf .hb comm).silent ∧
    (let s : State := { passing .run 16 with ha := { up.ha with silent := 64 } }
     Heard .hb 0x60 (fields 0 0) s ∧ s.dev.hasLead = true ∧ s.dev.lead ≠ .hb ∧ 64 ≤ (hostOf (otherHost .hb) s).silent) ∧
    Heard .ha 0x61 (fields 0 0) (passing .run 16) ∧ (passing .run 16).dev.lead = .ha ∧ hostUp .hb (passing .run 16) = true := by
  repeat' first | exact heard_of_heardB (by decide) | apply And.intro | decide
theorem test_ParametersForcesLead_any : let s : State := { comm with engs := comm.engs ++ [(72, { Eng.reset with state := .ready })] }
    Canonical s ∧ Heard .ha 0x50 (fields 3 0xFFFF) s ∧ (fields 3 0xFFFF).arg.toNat % 2 ^ 16 = 0xFFFF ∧ engineOf 3 s = some 0 ∧
    readyEngs s = [40, 72] ∧ ((readyEngs s).filter fun d => d / 32 != 0) = [40, 72] ∧
    (after (.headWd .ha 0 (fields 3 0xFFFF)) s).sup.moves.map (·.dst) = [40] ∧
    ((readyEngs { comm with engs := comm.engs.take 1 }).filter fun d => d / 32 != 0) = [] := by
  refine ⟨by unfold Canonical; decide, heard_of_heardB (by decide), by decide +kernel⟩
theorem test_param : paramValue 5 (after (.paramSet .ha 0 (setParam 10 0)) comm) = 10 ∧
    (after (.paramSet .ha 0 (setParam 11 0)) comm).sup.results.map (·.code) = [0x32] ∧
    (after (.paramSet .ha 0 (setParam 10 1)) comm).sup.results.map (·.code) = [0x33] := by decide +kernel
theorem test_lead : (after (.leadYield .ha 0 (fields 0 0)) (passing .run 16)).dev.lead = .hb ∧
    (after (.leadYield .ha 0 (fields 0 0)) comm).sup.results.map (·.code) = [0x60] := by decide

theorem test_Restorations_young :
    let young := fun (s : State) (q : Dreq) => q.live && decide ((s.bell.time - q.at_).toNat < 300000000)
    ((requested 299999999).sup.pend.filter (young (requested 299999999))).map (·.snum) = [7] ∧
    (requested 300000000).sup.pend.filter (young (requested 300000000)) = [] ∧
    exec (.dreqExpiry 8) (requested 300000000) = .next (requested 300000000) ∧
    exec (.dreqExpiry 7) (requested 299999999) = .next (requested 299999999) := by
  refine ⟨by decide, by decide, rfl, rfl⟩
theorem test_Restorations_late : (after (.rstDconf .ha 0 (restore 2 9)) (requested 300000000)).sup.results.map (·.code) = [0x0A] := by
  decide +kernel
theorem test_MailboxForms_b : (after (.rstDreq .ha 3 (restore 2 0)) (commanding disturbed)).sup.b.pend.map (·.count) = [2] := by
  decide +kernel

/-! ### Rings -/

/-- The device in RUN, ring 0 of 2 GN8s with the given record, its port P00 and its GN8 in slot 0 too. -/
def ring (r : Ring) (x : RPort) (g : Gn8) : State :=
  { running world with rings := [(0, r)], ports := [(0, x)], gn8s := [(0, g)], bell := { goodBell with time := 100000 } }

def upPort : RPort := { RPort.reset with link := .up, txen := true }
def closed : Ring := { Ring.reset with state := .closed }

/-- A frame with a CRC over its bytes. -/
def framed (l : List Byte) : List Byte := l ++ leBytes 4 (crc32c l).toNat

/-- A SAMPLE frame of slot 0 with a stamp: SYSOK all ones, every pair zero. -/
def sampleOf (stamp : Nat) : List Byte :=
  framed ([0x10, 0x00, 0x00, 0x00] ++ leBytes 4 stamp ++ [0xFF, 0xFF] ++ List.replicate 64 0)

/-- A MARKER, a COMMAND and a STATUS. -/
def markerOf (t : Nat) : List Byte := framed ([0x20, 0x00, 0x00, 0x00] ++ leBytes 6 t ++ [0, 0])
def commandOf (op : Byte) : List Byte := framed ([0x30, 0x30, 0x00, 0x00, 0xFF, op, 0x34, 0x12] ++ List.replicate 6 0)
def statusOf (health : Byte) : List Byte := framed ([0x40, 0x00] ++ List.replicate 16 0 ++ [health, 0])

theorem test_frame_lengths : (sampleOf 0).length = frameLen 1 ∧ (markerOf 0).length = frameLen 2 ∧
    (commandOf 3).length = frameLen 3 ∧ (statusOf 3).length = frameLen 4 := by decide +kernel

theorem test_RingLinksAndCommands : portInUse 0 (ring closed upPort .reset) = true ∧
    (portOf 0 (ring closed upPort .reset)).link = .up ∧
    (frameLen (frameType (markerOf 5)) ≠ 0 ∧ (markerOf 5).length = frameLen (frameType (markerOf 5))) ∧
    (crc32c ((markerOf 5).take ((markerOf 5).length - 4))).toNat = fieldLE (markerOf 5) ((markerOf 5).length - 4) 4 ∧
    (portOf 0 (ring closed upPort .reset)).rx.length < 32 ∧
    32 ≤ (portOf 0 (ring closed { upPort with rx := List.replicate 32 [] } .reset)).rx.length ∧
    ¬(frameLen (frameType ([7] : List Byte)) ≠ 0 ∧ ([7] : List Byte).length = frameLen (frameType ([7] : List Byte))) ∧
    (portOf 0 (ring closed .reset .reset)).link = .down ∧ portInUse 0 (ring closed .reset .reset) = true ∧
    (let s := ring { Ring.reset with state := .down, step := 1 } { RPort.reset with link := .align } .reset
     portInUse 0 s = true ∧ (portOf 0 s).link = .align ∧ portRing 0 s = some 0 ∧ (ringOf 0 s).step = 1 ∧
       ∃ q ∈ ringPorts 0 s, (portOf q s).link ≠ .up) := by
  refine ⟨by decide, by decide, by decide +kernel, by decide +kernel, by decide, by decide, by decide, by decide, by decide,
    by decide, by decide, by decide, by decide, 16, by decide, by decide⟩
theorem test_RingLinksAndCommands_cmd :
    (let s := ring closed upPort .reset
     s.bell.time.toNat % 1000 = 0 ∧ s.dev.mode ≠ .boot ∧ portInUse 0 s = true ∧ (portOf 0 s).txen = true) ∧
    (let c : RCmd := { target := 0, op := 1, tag := 9, addr := 0, data := 0, port := 0, sentAt := 99000, retried := false, answered := false, digest := false }
     let s := ring { closed with cmds := [c] } upPort .reset
     (ringOf 0 s).cmds.find? (fun c => !c.retried && !c.answered && decide (1000 ≤ (s.bell.time - c.sentAt).toNat)) = some c) ∧
    (let s := ring { Ring.reset with state := .discovering, step := 1, stepAt := 0 } upPort .reset
     (ringOf 0 s).step = 1 ∧ 100000 ≤ (s.bell.time - (ringOf 0 s).stepAt).toNat) ∧
    (let s := ring { Ring.reset with state := .discovering, step := 1, stepAt := 1 } upPort .reset
     ¬100000 ≤ (s.bell.time - (ringOf 0 s).stepAt).toNat) := by decide

/-- The code groups of a frame from SOF to EOF; the same with a control character in place of the last octet. -/
def groupsOf (l : List Byte) : List (BitVec 10) := (frameGroups false l).1
def spoilt (c : Byte) (l : List Byte) : List (BitVec 10) :=
  let d := frameGroups false (l.take (l.length - 1))
  let x := ctlGroup (dataGroups (rdAfter false (ctlGroup false sofOctet)) (l.take (l.length - 1))).2 c
  d.1.dropLast ++ [x] ++ [ctlGroup (rdAfter (dataGroups (rdAfter false (ctlGroup false sofOctet)) (l.take (l.length - 1))).2 x) eofOctet]

theorem test_line_code : ctlGroup false 0xBC = 0b0011111010 ∧ ctlGroup true 0xBC = 0b1100000101 ∧ dataGroup false 0x50 = 0b0110110101 ∧
    decodeGroup false 0b0011111010 = .ctl 0xBC ∧ decodeGroup false 0b1111111111 = .invalid ∧
    idleGroups false = [0b0011111010, 0b1001000101] := by decide
theorem test_RingLinksAndCommands_discards : portRing 0 (ring closed upPort .reset) = some 0 ∧ upPort.rxRd = none ∧
    (frameType (sampleOf 5) = 1 ∧ ((sampleOf 5).getD 1 0).toNat % 8 < (ringCfg 0 (ring closed upPort .reset)).ngn8) ∧
    ¬frameType (markerOf 5) = 1 ∧ frameLen (frameType (framed [0x70, 0, 0, 0])) = 0 ∧ 8 ≤ (framed [0x70, 0, 0, 0]).length := by
  decide +kernel
theorem test_RingLinksAndCommands_lines : lineFrame none [] = none ∧ (lineFrame none (groupsOf [1, 2])).isSome = true ∧
    (lineFrame none (spoilt 0x1C [1, 2])).map (fun y => (y.1.filter violates).length) = some 1 ∧
    (lineFrame none (spoilt 0xBC [1, 2])).map (fun y => (y.1.any violates, (y.1.drop 1).dropLast)) =
      some (false, [.data 1, .ctl 0xBC]) := by decide +kernel
theorem test_receive : (portOf 0 (after (.frameReceive 0 (groupsOf (markerOf 5)) 9) (ring closed upPort .reset))).rx =
    [markerOf 5] := by decide +kernel
theorem test_receive_short : fltReg clsRing 0 (after (.frameReceive 0 (groupsOf [7]) 9) (ring closed upPort .reset)) = 0x200 := by
  decide +kernel
theorem test_receive_violated : (portOf 0 (after (.frameReceive 0 (spoilt 0x1C (markerOf 5)) 9) (ring closed upPort .reset))).cv = 1 ∧
    fltReg clsRing 0 (after (.frameReceive 0 (spoilt 0x1C (markerOf 5)) 9) (ring closed upPort .reset)) = 3 := by decide +kernel
theorem test_receive_overflow : (gn8Of 0 (noteDiscard 0 (ring closed upPort .reset))).lastDiscard = some 100000 ∧
    fltReg clsRing 0 (overflowFrame 0 [0x20, 0] (ring closed upPort .reset)) = 0x400 := by decide
theorem test_RingLinksAndCommands_queue : let x := { upPort with txLeft := 9, txq := [(0, [1]), (2, [2])] }
    0 < x.txLeft ∧ (queueFrame 1 [3] x).txq = [(0, [1]), (1, [3]), (2, [2])] ∧ upPort.txLeft = 0 ∧ upPort.txq = [] ∧
    (queueFrame 1 [3] upPort).txLeft = 20 := by decide

/-- The same in PROVE. -/
def proving (s : State) : State := { s with dev := { DevSt.reset with mode := .prove } }

theorem test_RingLinksAndCommands_late :
    let s := proving (ring { Ring.reset with state := .discovering, step := 1, stepAt := 0 } upPort .reset)
    s.dev.mode = .prove ∧ (ringOf 0 s).step = 1 ∧ 100000 ≤ (s.bell.time - (ringOf 0 s).stepAt).toNat ∧
    (ringOf 0 (after (.discoveryTimeout 0) s)).derr = 1 := by decide
theorem test_RingLinksAndCommands_up :
    let s : State := { proving (ring { Ring.reset with state := .down, step := 1 } .reset .reset) with
      ports := [(0, { RPort.reset with link := .align }), (16, { RPort.reset with link := .up })] }
    s.dev.mode = .prove ∧ (portOf 0 s).link = .align ∧ (∀ q ∈ ringPorts 0 s, q = 0 ∨ (portOf q s).link = .up) ∧
    (ringOf 0 (after (.linkUp 0) s)).step = 2 := by decide +kernel
theorem test_retry_answered :
    let c : RCmd := { target := 0, op := 1, tag := 9, addr := 0, data := 0, port := 0, sentAt := 0, retried := false, answered := true, digest := false }
    let s := ring { closed with cmds := [c] } upPort .reset
    (portOf 0 (after (.commandRetry 0) s)).tx = [] := by decide +kernel
theorem test_violation : (portOf 0 (after (.codeViolation 0 10) (ring closed { upPort with gaps := [100, 145] } .reset))).link =
      .down ∧
    (portOf 0 (after (.codeViolation 0 11) (ring closed { upPort with gaps := [100, 145] } .reset))).link = .up := by decide
/-- A paired device whose ring 0 has another device at its end. -/
def paired (r : Ring) (x : RPort) : State :=
  { ring r x .reset with img := { ImgSt.reset with
      cfg := { world with rings := [(0, { mode := 2, pdev := true, ngn8 := 2, ids := [1, 2], setup := [] })] } } }

/-- The bytes of a frame on the line. -/
def bytesOf (l : List (BitVec 10)) : List Byte :=
  (decodeGroups false l).1.filterMap fun c => match c with
    | .data b => some b
    | .ctl _ => none
    | .invalid => none

theorem test_RingFrames_sample (stamp : Nat) :
    let s := ring closed { upPort with rx := [sampleOf stamp] } .reset
    let g := gn8Of 0 s
    portRing 0 s = some 0 ∧ FrameWaits 0 1 (sampleOf stamp) [] s ∧ (ringCfg 0 s).mode = 1 ∧ ringMerges 0 s = true ∧
      0 < (ringCfg 0 s).ngn8 ∧ g.out = false ∧ g.next = none ∧ g.start = none ∧ g.held = [] ∧ g.recent = [] ∧ g.change = none ∧
      g.gridAt = none ∧ s.bell.time = 100000 ∧ gridOf g = 100 :=
  ⟨rfl, ⟨rfl, rfl, by simp [frameType, fieldLE, sampleOf, framed, slice, leNat]⟩, rfl, rfl, by simp [ring, running, ringCfg, world, tabGet], rfl, rfl, rfl, rfl, rfl, rfl, rfl, rfl, rfl⟩
theorem test_RingFrames_stamp : fieldLE (sampleOf 0xFFFFFFFF) 4 4 = 0xFFFFFFFF ∧ fieldLE (sampleOf 99400) 4 4 = 99400 ∧
    (extendStamp (BitVec.ofNat 32 99400) 100000).toNat % 100 = 0 ∧
    (100000 - extendStamp (BitVec.ofNat 32 99400) 100000).toNat < 660 := by decide
theorem test_RingFrames_others :
    (let s := paired { closed with offset := some 0, agree := 15 } { upPort with rx := [markerOf 100002] }
     portRing 0 s = some 0 ∧ FrameWaits 0 2 (markerOf 100002) [] s ∧ (ringCfg 0 s).mode = 2 ∧
       ((((markerOf 100002).getD 1 0).toNat / 8 % 2 == 1) != (ringCfg 0 s).pdev) = true ∧ (ringOf 0 s).offset = some 0) ∧
    (paired closed upPort).dev.mode ≠ .boot ∧ (ringOf 0 (paired closed upPort)).offset = none ∧
    (let s := ring closed { upPort with rx := [statusOf 0] } .reset
     FrameWaits 0 4 (statusOf 0) [] s ∧ 0 < (ringCfg 0 s).ngn8 ∧ (ringOf 0 s).cmds = []) ∧
    (let s := ring closed { upPort with rx := [commandOf 1] } .reset
     FrameWaits 0 3 (commandOf 1) [] s ∧ fieldLE (commandOf 1) 5 1 ≠ 3) ∧
    (let s := paired closed { upPort with rx := [commandOf 3] }
     FrameWaits 0 3 (commandOf 3) [] s ∧ fieldLE (commandOf 3) 5 1 = 3 ∧ (portOf 0 s).link = .up ∧ (portOf 0 s).txen = true) := by
  unfold FrameWaits; decide +kernel
theorem test_sample_frame : (gn8Of 0 (after (.sampleFrame 0) (ring closed { upPort with rx := [sampleOf 99400] } .reset))).next =
      some 99500 ∧
    (gn8Of 0 (after (.sampleFrame 0) (ring closed { upPort with rx := [sampleOf 0xFFFFFFFF] } .reset))).unsync = true := by
  decide +kernel
theorem test_marker : (ringOf 0 (after (.markerFrame 0)
      (paired { closed with offset := some 0, agree := 15, trusted := false } { upPort with rx := [markerOf 100002] }))).trusted = true ∧
    (ringOf 0 (after (.markerFrame 0)
      (paired { closed with offset := some 0, agree := 15 } { upPort with rx := [markerOf 100003] }))).trusted = false := by
  decide +kernel
theorem test_discover_reply : (portOf 0 (after (.commandFrame 0) (paired closed { upPort with rx := [commandOf 3] }))).tx.map
    (fun z => let y := bytesOf z; (frameType y, fieldLE y 4 2, fieldLE y 10 4)) = [(4, 0x1234, 3)] := by decide +kernel

/-- A STATUS with a tag, an operation, a result, an identity and its health, from slot 0. -/
def replyOf (tag op result health : Byte) : List Byte :=
  framed ([0x40, 0x00, 0, 0, tag, 0, op, result, 0, 0, 1, 0, 0, 0, 77, 0, 0, 0, health, 0])

/-- A command of ring 0 that waits for its reply. -/
def asked (op : Nat) (digest : Bool) : RCmd :=
  { target := if op = 3 then 0xFF else 0, op := op, tag := 9, addr := 0x10, data := 5, port := 0, sentAt := 99500
    retried := false, answered := false, digest := digest }

/-- The ring in PROVE, at a step of its discovery, with that command and a reply to it in front. -/
def answering (step op : Nat) (result health : Byte) (digest : Bool) : State :=
  proving (ring { Ring.reset with state := .discovering, step := step, cmds := [asked op digest] }
    { upPort with rx := [replyOf 9 (BitVec.ofNat 8 op) result health] } .reset)

theorem test_RingFrames_replies :
    (let s := answering 2 3 0 2 false
     FrameWaits 0 4 (replyOf 9 3 0 2) [] s ∧ 0 < (ringCfg 0 s).ngn8 ∧ (ringOf 0 s).step = 2 ∧ (ringOf 0 s).closedL = none ∧
       ((ringOf 0 s).cmds.find? fun y => y.tag == fieldLE (replyOf 9 3 0 2) 4 2 && y.op == fieldLE (replyOf 9 3 0 2) 6 1 &&
         (y.target == 0xFF || y.target == 0)) = some (asked 3 false) ∧
       (ringOf 0 (after (.statusFrame 0) s)).fromL = [(1, 0, 77)] ∧ (gn8Of 0 (after (.statusFrame 0) s)).id = 77) ∧
    (let s := answering 6 1 0 2 false
     (ringOf 0 (after (.statusFrame 0) s)).cmds.map (fun y => (y.op, y.addr)) = [(2, 0x10)]) ∧
    (ringOf 0 (after (.statusFrame 0) (answering 6 1 1 2 false))).derr = 7 ∧
    (ringOf 0 (after (.statusFrame 0) (answering 7 6 0 3 false))).aligned = [0] ∧
    (ringOf 0 (after (.statusFrame 0) (answering 7 6 0 3 false))).step = 7 ∧
    (ringOf 0 (after (.statusFrame 0) (answering 8 2 0 2 true))).cmds = [] ∧
    (ringOf 0 (after (.statusFrame 0) { answering 6 2 0 2 false with dev := { DevSt.reset with mode := .lockout } })).step = 6 ∧
    (let s := { answering 0 2 0 0 false with dev := { DevSt.reset with mode := .run } }
     (ringOf 0 s).step = 0 ∧ (ringOf 0 (after (.statusFrame 0) s)).cmds = [] ∧
       (gn8Of 0 (after (.statusFrame 0) s)).markdis = true) := by
  unfold FrameWaits; decide +kernel
theorem test_RingFrames_last : let s : State := { answering 7 6 0 3 false with
      rings := [(0, { Ring.reset with state := .discovering, step := 7, aligned := [1], cmds := [asked 6 false] })] }
    (insertKey 0 (ringOf 0 s).aligned).length = (ringCfg 0 s).ngn8 ∧ (ringOf 0 (after (.statusFrame 0) s)).step = 8 := by
  decide +kernel
theorem test_RingFrames_closed :
    let back : List Byte := framed ([0x30, 0x20, 0x00, 0x00, 0xFF, 3, 0x34, 0x12] ++ List.replicate 6 0)
    let s := { proving (ring { Ring.reset with state := .discovering, step := 2 } .reset .reset) with
      ports := [(16, { upPort with rx := [back] })] }
    portRing 16 s = some 0 ∧ FrameWaits 16 3 back [] s ∧ fieldLE back 5 1 = 3 ∧ (ringCfg 0 s).mode = 1 ∧
    (ringOf 0 s).fromL.length < (back.getD 1 0).toNat / 16 ∧ (ringOf 0 (after (.commandFrame 16) s)).closedL = some 2 := by
  unfold FrameWaits; decide +kernel
theorem test_RingFrames_first : (ringOf 0 (after (.markerFrame 0) (paired closed { upPort with rx := [markerOf 100002] }))).trusted =
    true := by decide +kernel

theorem test_MergeEvents :
    (let s := ring closed upPort { Gn8.reset with next := some 99300 }
     commits s = true ∧ (gn8Of 0 s).next = some 99300 ∧ (gn8Of 0 s).held = [] ∧ (gn8Of 0 s).recent = [] ∧
       (gn8Of 0 s).change = none ∧ 660 ≤ (s.bell.time - 99300).toNat ∧ (s.bell.time - 99300).toNat < 760) ∧
    (let s := { ring closed upPort { Gn8.reset with next := some 99300 } with img := { ImgSt.reset with
        cfg := { world with heads := [(3, headCfgOf 0)] } } }
     gn8Heads 0 s = [(3, 0)] ∧ (headOf 3 s).bubble = none ∧ commits s = true) ∧
    (let s := { ring closed upPort { Gn8.reset with next := some 99200, change := some (true, 99200) } with
        bell := { goodBell with time := 99860 } }
     (gn8Of 0 s).next = some 99200 ∧ (gn8Of 0 s).change = some (true, 99200) ∧
       660 ≤ (s.bell.time - 99200).toNat ∧ (s.bell.time - 99200).toNat < 760) ∧
    (let s := ring closed upPort { Gn8.reset with dirh := true, onlyL := 16 }
     ringMerges 0 s = true ∧ (gn8Of 0 s).dirh = true ∧ 16 ≤ (gn8Of 0 s).onlyL) ∧
    (let s := ring closed upPort { Gn8.reset with dirl := true, onlyH := 16 }
     (gn8Of 0 s).dirh = false ∧ (gn8Of 0 s).dirl = true ∧ 16 ≤ (gn8Of 0 s).onlyH) ∧
    (let s := ring closed upPort { Gn8.reset with dirl := true, both := 16 }
     16 ≤ (gn8Of 0 s).both ∧ ¬((gn8Of 0 s).dirh = true ∧ (gn8Of 0 s).dirl = true)) ∧
    (let s := { ring closed upPort { Gn8.reset with digest := some 7 } with bell := { goodBell with landNo := 256 } }
     0 % 4 < (ringCfg 0 s).ngn8 ∧ (ringOf 0 s).state = .closed ∧ (gn8Of 0 s).out = false ∧
       64 ≤ (s.bell.landNo - (gn8Of 0 s).lastValidLand).toNat ∧ (ringOf 0 s).step = 0 ∧ s.bell.landNo.toNat % 256 = 0 ∧
       (gn8Of 0 s).digest = some 7) ∧
    (let s := ring { closed with step := 6 } upPort .reset
     6 ≤ (ringOf 0 s).step ∧ (ringOf 0 s).step ≤ 8) := by decide
theorem test_missing : ((headOf 3 (after (.instantMissing 0) (ring closed upPort { Gn8.reset with next := some 99300 }))).bubble.map
      fun b => (b.first, b.count, b.cause)) = some (99300, 1, 1) ∧
    (gn8Of 0 (after (.instantMissing 0) (ring closed upPort { Gn8.reset with next := some 99300 }))).next = some 99400 := by decide
theorem test_MergeEvents_digest :
    (let s := proving (ring { Ring.reset with state := .discovering, step := 7 } upPort .reset)
     6 ≤ (ringOf 0 s).step ∧ (ringOf 0 s).step ≤ 8 ∧ s.dev.mode = .prove ∧
       (gn8Of 0 (after (.digestCheck 0 5) s)).digest = some 5 ∧
       (ringOf 0 (after (.digestCheck 0 5) s)).cmds.map (fun c => (c.op, c.digest)) = [(2, true)]) ∧
    (gn8Of 0 (after (.digestCheck 0 5) (proving (ring { Ring.reset with state := .discovering, step := 7 } upPort
      { Gn8.reset with digest := some 7 })))).digest = some 7 := by decide +kernel
theorem test_gn8_out : (gn8Of 0 (after (.digestCheck 0 8) { ring closed upPort { Gn8.reset with digest := some 7 } with
      bell := { goodBell with landNo := 256 } })).out = true ∧
    (ringOf 0 (after (.directionLoss 0) (ring closed upPort { Gn8.reset with dirh := true, onlyL := 16 }))).state = .open := by
  decide

/-! ### Heads -/

/-- Engine 0 serves head 3 in slot 2, the entry given in front of its queue, its evaluation as given. -/
def evaluating (y : Entry) (v : Eval) : State :=
  { ring closed upPort .reset with
    engs := [(0, { Eng.reset with state := .service, slots := [(2, 4)], core := synced { coreWith [] with queues := [(2, [y])] } })]
    heads := [(3, { Head.reset with route := some (0, 2), ev := v })] }

/-- A sample of head 3 with the given SYSOK bits at bell time 30000000. -/
def sample (sysok : Nat) : Entry :=
  { w0 := 30000000, w1 := entryW1 30000000 3 sysok 0 false false, w2 := 0x000003E8, w3 := 0x000003E8 }

/-- A system that has met n samples without SYSOK, its baseline (1000, 0). -/
def sys (n : Nat) : SysEval := { SysEval.reset with base := (1000, 0), bad := n }

def evalIn (st : HeadState) (cause n : Nat) : Eval := { Eval.reset with state := st, cause := cause, a := sys n, b := sys n }

theorem test_sysSample_calm (c : HeadCfg) (t : Bell) (d : Nat) (ph : Int) (x : SysEval) (h : x.run = 0) :
    (sysSample c t d ph x).2 = false := by
  unfold sysSample
  dsimp only
  repeat' split
  all_goals simp_all

theorem test_HeadEvaluation_kinds : nextEntry 3 (evaluating (sample 3) (evalIn .idle 0 0)) = some (0, 2, sample 3, []) ∧
    entryKind (sample 3) = 0 ∧
    (∃ y, nextEntry 3 (evaluating y (evalIn .idle 0 0)) = some (0, 2, y, []) ∧ entryKind y = 1 ∧
      y.w2.toNat / 2 ^ 16 % 2 ^ 8 = 4) ∧
    (∃ y, nextEntry 3 (evaluating y (evalIn .idle 0 0)) = some (0, 2, y, []) ∧ entryKind y = 2) := by
  refine ⟨by decide, by decide, ⟨{ w0 := 0, w1 := entryW1 0 3 0 1 false false, w2 := 0x00040001, w3 := 0 }, by decide⟩,
    ⟨markEntry 3 0, by decide⟩⟩
theorem test_HeadEvaluation_sysok : (evalIn .idle 0 15).state ≠ .fault ∧ (evalIn .idle 0 15).state ≠ .unassigned ∧
    (sample 2).w1.getLsbD 25 = false ∧ (sample 1).w1.getLsbD 26 = false ∧ (evalIn .idle 0 15).a.bad = 15 ∧
    (evalIn .fault 0x20 0).cause = 0x20 ∧ ((sample 3).w1.getLsbD 25 = true ∧ (sample 3).w1.getLsbD 26 = true) ∧
    tQuiet ≤ (entryTime (sample 3) - (evalIn .fault 0x20 0).quietAt).toNat ∧
    tStand ≤ (entryTime (sample 3) - (evalIn .passage 0 0).changedAt).toNat ∧ (evalIn .passage 0 0).a.conf = false ∧
    (evalIn .suspect 0x14 0).b.conf = false := by decide
theorem test_HeadEvaluation_calm :
    let x := hstepOf 3 (sample 3) (evaluating (sample 3) (evalIn .passage 0 0))
    (sysSample x.cfg 30000000 (damping 0 (vec2 (entryIq (sample 3).w2)) (sys 0).base)
      (dampPhase 0 (vec2 (entryIq (sample 3).w2)) (sys 0).base) { sys 0 with bad := 0 }).2 = false :=
  test_sysSample_calm _ _ _ _ _ rfl
theorem test_HeadEvaluation_steps : inStepB (evaluating (sample 3) (evalIn .idle 0 0)) = true ∧
    (let s := evaluating (sample 3) (evalIn .idle 0 0)
     let bad : State := { s with engs := [(0, { engOf 0 s with core := synced { (engOf 0 s).core with
       ecc := [{ mem := .stream, word := 1024, double := true }] } })] }
     inStepB bad = true ∧ doubles (streamHit 2 0 3) (engOf 0 bad).core = true ∧
       (ctxAt 0 .head (after (.sampleEvaluate 3) bad)).halted = some 5) := by decide +kernel
theorem test_sysok_fault : (headOf 3 (after (.sysokFault 3) (evaluating (sample 2) (evalIn .idle 0 15)))).ev.state = .fault := by decide +kernel

/-- A damping of an unmoved sample is at most 2, one of a zero sample at least 32 766 (R83). -/
theorem test_damping_small (n : Nat) : damping n (1000, 0) (1000, 0) ≤ 2 := by
  have h : roundSqrt (1073741824 * normSq (vecSub (1000, 0) (1000, 0)) / normSq (1000, 0)) = 0 := by decide +kernel
  have h2 : (normSq (1000, 0) = 0) = False := by simp; decide +kernel
  unfold damping
  simp only [h2, if_false, h]
  omega
theorem test_damping_large (n : Nat) : 32766 ≤ damping n (0, 0) (1000, 0) := by
  have h : roundSqrt (1073741824 * normSq (vecSub (1000, 0) (0, 0)) / normSq (1000, 0)) = 32768 := by decide +kernel
  have h2 : (normSq (1000, 0) = 0) = False := by simp; decide +kernel
  unfold damping
  simp only [h2, if_false, h]
  omega

/-- A learning window of a head in BASELINE with the given samples of each system. -/
def learning (occupied gap : Bool) (frames : Nat) (l : List (Int × Int)) : HStep :=
  { hstepOf 3 (sample 3) (evaluating (sample 3) { evalIn .baseline 0 0 with
      learn := { Learn.reset with open_ := true, frames := frames, occupied := occupied, gap := gap, samples := l.map fun z => (z, z) } })
    with cfg := headCfgOf 0, frames := 10 }

theorem test_HeadEvaluation_window : judgeWindow (learning false false 9 []) = .goesOn ∧
    judgeWindow (learning true false 1 []) = .occupied ∧ judgeWindow (learning false true 1 []) = .gap := by decide
theorem test_HeadEvaluation_drift : judgeWindow (learning false false 10 [(0, 0)]) = .drift := by
  have h := test_damping_large (learning false false 10 [(0, 0)]).free
  have hm : meanOf ((learning false false 10 [(0, 0)]).ev.learn.samples.map (·.1)) = (0, 0) := by decide +kernel
  have hz : vec2 (learning false false 10 [(0, 0)]).cfg.zcA = (1000, 0) := by decide +kernel
  have hd : driftMax < 32766 := by decide
  unfold judgeWindow
  simp only [hm, hz]
  rw [if_neg (by decide), if_neg (by decide), if_neg (by decide), if_pos]
  simp only [Bool.or_eq_true, decide_eq_true_eq]
  omega
theorem test_HeadEvaluation_good : judgeWindow (learning false false 10 [(1000, 0)]) = .good (1000, 0) (1000, 0) := by
  have h := test_damping_small
  have hm : meanOf [(1000, 0)] = (1000, 0) := by decide +kernel
  have hz : vec2 (learning false false 10 [(1000, 0)]).cfg.zcA = (1000, 0) := by decide +kernel
  have hy : vec2 (learning false false 10 [(1000, 0)]).cfg.zcB = (1000, 0) := by decide +kernel
  have hs : (learning false false 10 [(1000, 0)]).ev.learn.samples = [((1000, 0), (1000, 0))] := by decide
  have hd : 2 ≤ driftMax := by decide
  have ht : 2 ≤ dTrack := by decide
  have hv : vec2 (1000, 0) = (1000, 0) := by decide +kernel
  unfold judgeWindow
  simp only [hz, hy, hs, List.map_cons, List.map_nil, hm]
  rw [if_neg (by decide), if_neg (by decide), if_neg (by decide), if_neg, if_neg, if_neg (by decide)]
  · simp only [anyNoise, hv, Bool.or_eq_true, decide_eq_true_eq, Bool.false_eq_true, or_false, not_or, Nat.not_lt]
    exact ⟨(h _).trans ht, (h _).trans ht⟩
  · simp only [Bool.or_eq_true, decide_eq_true_eq, not_or, Nat.not_lt]
    exact ⟨(h _).trans hd, (h _).trans hd⟩
theorem test_HeadEvaluation_idle : (evalIn .idle 0 0).state = .idle ∧ (evalIn .idle 0 0).wholeIdle = true ∧
    learns (evalIn .idle 0 0).state = false ∧ learns (evalIn .baseline 0 0).state = true := by decide

/-! ### Engines -/

/-- The device in RUN with the given engines at a bell time, RES judged. -/
def engines (t : Bell) (l : Tab Eng) : State :=
  { running { world with psig := List.replicate 4 0xFFFFFFFF, rotInt := 24 } with
    engs := l, bell := { goodBell with time := t }, sup := { SupSt.reset with resJudged := true } }

/-- An engine whose fulling window opened at bell time 0. -/
def fulling : Eng := { Eng.reset with state := .proving, winStart := some 0 }

/-- A READY engine whose window ended at bell time 0. -/
def spare : Eng := { Eng.reset with state := .ready, winEnd := some 0 }

/-- An engine serving head 3 alone, its window ended at bell time 0. -/
def server : Eng := { Eng.reset with state := .service, slots := [(2, 4)], winEnd := some 0, core := synced (coreWith []) }

theorem test_crc : crc32c [0x31, 0x32, 0x33, 0x34, 0x35, 0x36, 0x37, 0x38, 0x39] = 0xE3069283 := by decide +kernel

theorem test_EngineEvents : (engOf 0 (engines 9 [(0, server)])).state = .service ∧
    (engines 9 [(0, server)]).frame.late.contains 0 = false ∧
    (engOf 0 (engines 80000 [(0, fulling)])).state = .proving ∧ (engOf 0 (engines 80000 [(0, fulling)])).winStart = some 0 ∧
    ((80000 : Bell) - 0).toNat ≤ 80000 ∧ 80000 < ((80001 : Bell) - 0).toNat ∧
    (let s := engines 864000000001 [(0, server), (40, spare)]
     s.dev.mode ≠ .boot ∧ s.dev.safe = false ∧ s.sup.rot = none ∧ s.sup.resJudged = true ∧ s.pmc.shed = false ∧
       rotReady s = some 40) ∧
    (let s := engines 864000000000 [(0, server), (40, spare)]
     rotReady s = none ∧ rotService s = some 0 ∧ pickEngine (some (0 / 32)) s = some 40) ∧
    (let s : State := { engines 9 [] with pmc := { up.pmc with shed := true } }
     ¬(s.pmc.shed = false ∧ s.sup.rot = none)) ∧
    tabWf .reset (engines 9 [(0, server)]).engs = true ∧ (domOf (14 + 0) (engines 9 [(0, server)])).state = .on := by decide
theorem test_mismatch : (engOf 0 (after (.shadowMismatch 0 .mem) (engines 9 [(0, server)]))).state = .out ∧
    fltReg clsEng 0 (after (.shadowMismatch 0 .mem) (engines 9 [(0, server)])) = 5 := by decide
theorem test_window_end : (engOf 0 (after (.fullingWindowEnd 0 goodWindow) (engines 80000 [(0, fulling)]))).verdict = some true ∧
    (engOf 0 (after (.fullingWindowEnd 0 { goodWindow with missed := 1 }) (engines 80000 [(0, fulling)]))).verdict = some false ∧
    (engOf 0 (after (.fullingWindowEnd 0 { goodWindow with n := 1048575 }) (engines 80000 [(0, fulling)]))).verdict = none ∧
    (engOf 0 (after (.fullingWindowEnd 0 { goodWindow with bitsS := [[true], [], [], []] }) (engines 80000 [(0, fulling)]))).verdict =
      some false ∧ inStepB (engines 80000 [(0, fulling)]) = true ∧
    (engOf 0 (after (.fullingWindowTimeout 0) (engines 80001 [(0, fulling)]))).verdict = some false := by decide
theorem test_rotation : (after .rotationDue (engines 864000000001 [(0, server), (40, spare)])).sup.rot = some 40 ∧
    (engOf 0 (after (.engDomainLoss 0) (engines 9 [(0, server)]))).state = .off := by decide +kernel

/-! ### Power and temperature -/

/-- A start-up in step n with domain d ramping since bell time 0, the domains of l in service. -/
def starting (n sub d : Nat) (l : List Nat) (t : Bell) : State :=
  { State.reset with
    bell := { BellSt.reset with time := t }
    pmc := { PmcSt.reset with
      step := n, sub := sub
      doms := (List.range 30).map fun i =>
        (i, { Dom.reset with state := if i = d then .ramp else if i ∈ l then .on else .off }) } }

theorem test_PowerSequence : (let s : State := { State.reset with pins := { PinSt.reset with vaon := false } }
      s.pins.vaon = false) ∧
    (let s := starting 3 1 4 [0, 1, 2, 3] 0
     (domOf 4 s).state = .ramp ∧ s.pmc.step = 3 ∧ ∃ q ∈ step3 s.pmc.sub, q ≠ 4 ∧ domOn q s = false) ∧
    (let s := starting 1 0 0 [] 0
     (domOf 0 s).state = .ramp ∧ s.pmc.step = 1 ∧ s.pmc.stopped = false ∧ s.pins.vtrk = true ∧ s.pins.resetN = true ∧
       (domOf 1 s).state = .off) ∧
    (let s := starting 2 0 1 [0] 0
     (domOf 1 s).state = .ramp ∧ s.pmc.step = 2) ∧
    (let s := starting 3 6 13 [0, 1, 2, 3, 4, 5, 6, 7, 8, 9, 10, 11, 12] 0
     s.pmc.step = 3 ∧ 13 ∈ step3 s.pmc.sub ∧ (∀ q ∈ step3 s.pmc.sub, q = 13 ∨ domOn q s = true) ∧ (domOf 13 s).state = .ramp) ∧
    (let s : State := { starting 4 0 14 [0, 1] 0 with
        dev := { DevSt.reset with mode := .prove }, engs := [(0, { Eng.reset with state := .gated })] }
     (domOf 14 s).state = .ramp ∧ 0 / 32 = 14 - 14 ∧ (engOf 0 s).state = .gated ∧ (engOf 1 s).state = .off ∧
       enginesProve s = true) ∧
    (let s := starting 2 0 1 [0] 50000
     (domOf 1 s).state = .ramp ∧ s.pmc.stopped = false ∧ 50000 ≤ (s.bell.time - (domOf 1 s).startAt).toNat ∧ s.dev.safe = false) ∧
    (let s : State := { up with bell := { BellSt.reset with time := 1000 }, pmc := { up.pmc with engQueue := [15], engAt := some 0 } }
     s.pmc.engQueue = 15 :: [] ∧ domOn 1 s = true ∧ s.pmc.engAt = some 0 ∧ 1000 ≤ (s.bell.time - 0).toNat) ∧
    (let s : State := { starting 2 0 99 [0] 0 with pins := { PinSt.reset with resetN := false } }
     s.pins.resetN = false ∧ s.pmc.step = 2 ∧ s.pmc.stopped = false ∧ domOn 0 s = true ∧ (domOf 1 s).state = .off ∧
       s.pins.vtrk = true) ∧
    (up.pins.resetN = true ∧ up.pins.vaon = true) := by decide +kernel
theorem test_power : (after (.domainInService 13) (starting 3 6 13 [0, 1, 2, 3, 4, 5, 6, 7, 8, 9, 10, 11, 12] 0)).pmc.step = 4 ∧
    (domOf 2 (after (.domainInService 1) (starting 2 0 1 [0] 0))).state = .ramp ∧
    (after (.domainStartTimeout 1) (starting 2 0 1 [0] 50000)).dev.safe = true ∧
    (after (.domainStartTimeout 1) (starting 2 0 1 [0] 49999)).dev.safe = false := by decide +kernel
theorem test_reset_n : (after .resetNAssert (running world)).dev.mode = .boot ∧
    (domOf 0 (after .resetNAssert (running world))).state = .on ∧
    (domOf 5 (after .resetNAssert (running world))).state = .off := by decide +kernel
theorem test_PowerSequence_failed : let s : State := { starting 4 0 14 [0, 1] 0 with pmc := { (starting 4 0 14 [0, 1] 0).pmc with
      doms := [(0, { Dom.reset with state := .on }), (1, { Dom.reset with state := .on }),
               (14, { Dom.reset with state := .ramp, fail2 := true })] } }
    (domOf 14 s).state = .ramp ∧ monitorsOut 14 (domOf 14 s) = true ∧ monitorsOut 4 (domOf 14 s) = false ∧
    (domOf 14 (after (.domainInService 14) s)).state = .lost := by decide +kernel

theorem test_SupplyAndHeat_supply : (domOn 1 (running world) = true ∧ (running world).dev.safe = false) ∧
    (domOn 12 (grp runs) = true ∧ (grp runs).pins.vio33 = true ∧ (grpOf 0 (grp runs)).tra = true ∧
      (grpOf 0 (grp runs)).state ≠ .unused) ∧
    ((portOf 0 (ring closed upPort .reset)).link = .up ∧ linkShows 0 (ring closed upPort .reset) = true) := by decide
theorem test_supply : (after (.trunkFault .under) (running world)).dev.safe = true ∧
    (grpOf 0 (after .vio33Loss (grp runs))).state = .locked ∧
    (portOf 0 (after .vlnkLoss (ring closed upPort .reset))).link = .down ∧
    (portOf 0 (after .vlnkLoss (ring closed upPort .reset))).txen = false ∧
    (portOf 0 (after .vlnkLoss (after .vlnkLoss (ring closed upPort .reset)))).txen = true ∧
    (after (.vpciLoss false) up).ha.link = false ∧
    (after (.vpciLoss false) (after (.vpciLoss false) up)).pins.vpci = true := by decide +kernel

/-- The device in RUN at a landing tick whose number is a multiple of 256. -/
def tied : State := { running world with pmc := { up.pmc with tieNow := some (5, .a) } }

/-- Interlock events of phase 0 of D05 two times within the second. -/
def hot : State :=
  { running world with pmc := { up.pmc with
      doms := up.pmc.doms.map fun p => (p.1, if p.1 = 5 then { p.2 with xonAt := [(0, 0), (0, 0)] } else p.2) } }

/-- A call for WARNING that has stood for n ticks, with m transitions in the second. -/
def calling (c : ThermState) (n m : Nat) : State :=
  { running world with pmc := { up.pmc with call := c, callN := n, trans := List.replicate m 0 } }

theorem test_SupplyAndHeat : (domOf 5 (running world)).state = .on ∧ (domOf 5 (running world)).fail1 = false ∧
    (running world).pmc.tieNow ≠ some (5, .a) ∧
    (let x := domOf 5 (running world)
     (5 : Nat) < 14 ∧ ¬({ x with fail1 := true }.fail1 = true ∧ { x with fail1 := true }.fail2 = true)) ∧
    (let s : State := { running world with pmc := { up.pmc with doms := [(5, { Dom.reset with state := .on, fail2 := true })] } }
     let x := domOf 5 s
     x.state = .on ∧ x.fail1 = false ∧ ({ x with fail1 := true }.fail1 = true ∧ { x with fail1 := true }.fail2 = true)) ∧
    ((running world).dev.mode ≠ .boot ∧ (running world).dev.mode ≠ .prove ∧ domOn 13 (running world) = true ∧
      (running world).pmc.tieNow = none ∧ (running world).bell.landNo.toNat % 256 = 0 ∧ (running world).bell.phase = 0) ∧
    tied.pmc.tieNow = some (5, .a) ∧ (domOf 5 tied).state = .on ∧
    phaseLive 5 0 (running world) = true ∧
    (((noteXon 0 0 (domOf 5 (running world))).xonAt.filter fun e => e.1 == 0).length < 3) ∧
    (3 ≤ ((noteXon 0 0 (domOf 5 hot)).xonAt.filter fun e => e.1 == 0).length) ∧ phaseLive 5 0 hot = true ∧
    ((calling .warning 16 0).pmc.call ≠ (calling .warning 16 0).pmc.therm ∧ (calling .warning 16 0).pmc.callN = 16 ∧ (calling .warning 16 0).bell.phase = 0 ∧
      (calling .warning 16 0).pmc.latch = false) ∧
    ((0 : Bell) :: (calling .throttle 16 8).pmc.trans.filter fun b => ((0 : Bell) - b).toNat < 10000000).length = 9 ∧
    hostUp .ha (running world) = true := by decide +kernel
theorem test_monitor : (domOf 5 (after (.monitorExcursion 5 .a (some .under)) (running world))).state = .lost ∧
    (domOf 5 (after (.monitorDisagreement 5 .a) (running world))).fail1 = true ∧
    (domOf 5 (after (.interlockEvent 5 0) hot)).disabled = 1 := by decide +kernel
theorem test_heat : (after .thermalStateChange (calling .warning 16 0)).pmc.therm = .warning ∧
    (after .thermalStateChange (calling .warning 15 0)).pmc.therm = .normal ∧
    (after .thermalStateChange (calling .throttle 16 8)).pmc.latch = true ∧
    (after (.tieTestEnd false) tied).pmc.tieNow = none := by decide +kernel

/-! ### Faults, image, host ports -/

/-- Reports that stand before AON, of one bell time: bell fault bits 3 and 2; then bit 1 a tick later. -/
def reported : State :=
  { up with flt := { FltSt.reset with reports := [({ cls := 1, ix := 0, bit := 3 }, 5, 1), ({ cls := 1, ix := 0, bit := 2 }, 5, 1),
      ({ cls := 1, ix := 0, bit := 1 }, 6, 1)] } }

theorem test_FaultRecordAndTestPort : (State.reset.pins.vaon = true ∧ State.reset.flt.first = none) ∧
    (reported.flt.first = none ∧ reported.flt.reports ≠ [] ∧ reported.flt.later ≤ 0xFFFF) ∧
    (let s : State := { reported with flt := { reported.flt with first := some ({ cls := 1, ix := 0, bit := 3 }, 0, 0) } }
     s.flt.first = some ({ cls := 1, ix := 0, bit := 3 }, 0, 0) ∧ (after .faultReport s).flt.later = 3) ∧
    hostUp .ha up = true ∧ clsReach .ha 0x01 up = true ∧ bellRuns up = true ∧
    (let s : State := { up with
        dev := { DevSt.reset with mode := .lockout }
        pmc := { up.pmc with doms := up.pmc.doms.map fun p => if p.1 = 2 ∨ p.1 = 3 then (p.1, { p.2 with state := .lost }) else p } }
     bellRuns s = false ∧ (fltReg clsDev 0 (after (.w1cClear .ha 11 0 0x8) s)).getLsbD 3 = true) ∧
    (let s : State := { up with pins := { PinSt.reset with testEn := true } }
     s.pins.testEn = true ∧ s.dev.mode = .boot ∧ s.pins.vio33 = true) ∧
    ¬({ up with pins := { PinSt.reset with vio33 := false } }.pins.vio33 = true) := by decide
theorem test_report : ((after .faultReport reported).flt.first.map fun x => (x.1.bit, x.2.1)) = some (2, 5) ∧
    (after .faultReport reported).flt.later = 2 ∧
    fltReg clsFlt 0 (reportTick (some (1, 0, 0)) reported) = 8 := by decide
theorem test_FaultRecordAndTestPort_parity : bellRuns up = true ∧
    (fltReg clsFlt 0 (after (.landingTick { TickIn.quiet with badReport := some (1, 0, 0) }) up)).getLsbD 3 = true := by decide +kernel
theorem test_SupplyAndHeat_out : (domOn 12 State.reset = false ∧ State.reset.pins.vio33 = true) ∧
    (let s : State := { up with pins := { PinSt.reset with vio33 := false, vlnk := false, vpci := false, vph18 := false } }
     s.pins.vio33 = false ∧ s.pins.vlnk = false ∧ s.pins.vpci = false ∧ s.pins.vph18 = false) := by decide
theorem test_same_tick : fltReg clsBell 0 (after (.w1cClear .ha 1 0 8) (sticky clsBell 0 3 up)) = 8 ∧
    fltReg clsBell 0 (after (.w1cClear .ha 1 0 8) { sticky clsBell 0 3 up with flt := { FltSt.reset with bits := [(512, 8)] } }) = 0 := by
  decide
theorem test_w1c : fltReg clsBell 0 (after (.w1cClear .ha 1 0 1) { up with flt := { FltSt.reset with bits := [(512, 3)] } }) = 2 ∧
    (after (.clrfirst .ha) { up with flt := { FltSt.reset with later := 7 } }).flt.later = 0 := by decide
theorem test_jtag : jtagNow (after .extest up) = .bypass ∧
    jtagNow (after .extest { up with pins := { PinSt.reset with testEn := true } }) = .extest ∧
    jtagNow (after .clamp { running .none with pins := { PinSt.reset with testEn := true } }) = .bypass ∧
    (tapRegister { up with pins := { PinSt.reset with jtag := .idcode } }).map (·.take 4) = some [true, false, true, true] := by decide

/-- A device whose image is in a phase of its load, requested at HA. -/
def loading_ (st : ImgState) : State :=
  { up with img := { ImgSt.reset with state := st, owner := if st = .empty then none else some .ha } }

/-- A device whose START is judged: image loaded, bell sound, the seal word 0x12345678. -/
def judged (ok : Bool) : State :=
  { up with
    bell := { goodBell with stat := 8, landNo := 300 }, dev := { DevSt.reset with startTick := true }
    img := { ImgSt.reset with
      state := if ok then .loaded else .empty
      cfg := { world with rotInt := 24, scHash := [0, 0, 0, 0, 0, 0, 0, 0x12345678] } } }

theorem test_ImageAndStart : (hostUp .ha up = true ∧ domOn 0 up = true ∧ up.dev.mode = .boot ∧ up.dev.safe = false) ∧
    ¬((loading_ .empty).img.state = .checking ∨ (loading_ .empty).img.state = .distributing ∨
      (loading_ .empty).img.state = .loaded ∨ (loading_ .empty).img.owner = some .hb) ∧
    (loading_ .checking).img.state = .checking ∧ (loading_ .distributing).img.state = .distributing ∧
    imageError 0 (memLoad (hostOf .ha (loading_ .checking)).window 0 (min 0x800000 0)) ≠ 0 ∧
    (judged true).dev.startTick = true ∧ (judged true).dev.safe = false ∧ (running world).dev.mode ≠ .boot ∧
    (let s : State := { running world with bell := { goodBell with time := 100000000 } }
     s.dev.pdone = false ∧ 100000000 ≤ (s.bell.time - s.dev.proveAt).toNat ∧ s.dev.st = false ∧ s.dev.stEnd = false ∧
       (domOf 5 s).state = .on) := by decide
theorem test_ImageAndStart_cond :
    let s := judged true
    let b : BitVec 40 := if s.pins.vio33 = true then 0xA512345678 else 0
    ((domOn 12 s = true ∧ b >>> 32 = 0xA5 ∧ b.setWidth 32 = s.img.cfg.scHash.getD 7 0) ∧
      (if s.img.state = .loaded then 0 else 2) + (if (bellStatNow s).getLsbD 3 = true then 0 else 4) +
        (if s.pins.testEn = true then 2048 else 0) = 0) ∧ (judged false).img.state ≠ .loaded := by decide
theorem test_start : (after (.startTransition 0xA512345678) (judged true)).dev.mode = .prove ∧
    (grpOf 0 (after (.startTransition 0xA512345678) (judged true))).state = .sto ∧
    (after (.startTransition 0xA512345678) (judged false)).dev.refCond = 2 ∧
    (after (.startTransition 0xA512345679) (judged true)).dev.refCond = 8 := by decide +kernel
theorem test_image : (after (.imgLoad .ha) up).img.state = .checking ∧
    (after .imageCheckComplete (loading_ .checking)).img.state = .failed ∧
    (after (.imageDistributionComplete false) (loading_ .distributing)).img.state = .loaded := by decide +kernel

/-- HARBOUR disperses: engine 0 serves heads 3 and 4 of GN8 0 in slots 0 and 1, engine 40 is READY. -/
def dispersing : State :=
  { running world with
    dev := { DevSt.reset with mode := .harbour, htrans := 2 }
    heads := [(3, { Head.reset with route := some (0, 0) }), (4, { Head.reset with route := some (0, 1) })]
    engs := [(0, { Eng.reset with state := .service, slots := [(0, 4), (1, 5)] }), (40, { Eng.reset with state := .ready })] }

theorem test_ImageAndStart_disperse : dispersing.dev.htrans = 2 ∧ 0 ∈ cfgGn8s dispersing ∧ crowdedEng 0 dispersing = some 0 ∧
    ordering 0 dispersing = false ∧
    1 < ((engOf 0 dispersing).slots.filter fun q => (moveOf (q.2 - 1) dispersing).isNone).length ∧
    nextSlot (engOf 0 dispersing) dispersing = some 1 ∧ pickEngine (some (0 / 32)) dispersing = some 40 := by decide
theorem test_disperse : (after (.harbourDispersalStart 0) dispersing).sup.moves.map (fun m => (m.head, m.src, m.dst, m.kind)) =
    [(4, 0, 40, 3)] := by decide

theorem test_HostPorts : hostUp .ha up = true ∧ (0x7FFFFE : BitVec 23).toNat + ([some 1, none] : List (Option Byte)).length ≤ 0x800000 ∧
    up.dev.mode = .boot ∧ windowOpenAt .ha up = true ∧ (running world).dev.mode ≠ .boot ∧ hostUp .ha (running world) = true ∧
    (0xFFE : BitVec 12).toNat + ([some 1, none] : List (Option Byte)).length ≤ 0x1000 ∧ 1 ≤ (256 : Word).toNat % 512 ∧
    (256 : Word).toNat % 512 ≤ 256 ∧ 256 < (257 : Word).toNat % 512 ∧ (512 : Word).toNat % 512 = 0 ∧
    (∀ a ∈ [0x11004, 0x1100C, 0x11024, 0x11050, 0x11054, 0x11010, 0x0E030, 0x00000, 0x01020],
      (BitVec.ofNat 18 a).toNat = a ∧ a % 4 = 0 ∧ holdOn a up = true) ∧
    up.bell.locked = false ∧ up.ha.ctl.getLsbD 0 = false ∧ up.ha.link = true ∧
    (State.reset.ha.link = false ∧ domOn (hostDom .ha) { up with ha := PortSt.reset } = true ∧ up.pins.vpci = true ∧
      up.pins.vph18 = true) ∧
    (let s : State := { up with ha := { up.ha with silent := 64 } }
     64 ≤ (hostOf .ha s).silent ∧ (fltReg (clsHost .ha) 0 s).getLsbD 5 = false) := by decide
theorem test_window_write : memGet (after (.imageWindowWrite .ha 0x7FFFFE [none, some 2] false) up).ha.window 0x7FFFFF = 2 ∧
    fltReg clsHa 0 (after (.imageWindowWrite .ha 0 [some 1] true) up) = 0x80 ∧
    fltReg clsHa 0 (after (.imageWindowWrite .ha 0 [some 1] false) (running world)) = 0x40 := by decide
theorem test_registers : (after (.registerWrite .ha 0x11004 (0x1F, 0xF) [] false) up).ha.ctl = 0xF ∧
    fltReg clsHa 0 (after (.registerWrite .ha 0x11004 (0x1F, 0x7) [] false) up) = 1 ∧
    (after (.registerWrite .ha 0x11010 (0x12345678, 0xF) [(9, 0xF)] false) up).ha.imgBase = 0x912345000 ∧
    (after (.registerWrite .ha 0x3FFFC (0, 0xF) [(0, 0xF)] false) up).ha.aerUr = true ∧
    (after (.hostPubWrite .ha 256) up).ha.pub = 256 ∧ fltReg clsHa 0 (after (.hostPubWrite .ha 257) up) = 1 := by decide
theorem test_link : (after (.hostLinkDown .ha) { up with ha := { up.ha with pub := 9 } }).ha.pub = 1 ∧
    (after (.perstAssert .ha) up).ha.link = false ∧ (after (.hostLinkUp .ha { gen2 := true, cfg := .reset }) { up with ha := PortSt.reset }).ha.gen2 = true := by
  decide
theorem test_msix : (after (.msixTableWrite .ha 3 0) { up with ha := { up.ha with
    msixPend := 1, pci := { PciCfg.reset with msixEn := true } } }).ha.sent = [0] := by decide

theorem test_HostAccessesKeepSafety : exec (.hostHbeat .ha) up = .next (after (.hostHbeat .ha) up) ∧
    (Instr.hostHbeat .ha) ∈ [Instr.hostHbeat .ha] := ⟨rfl, by decide⟩

/-! ### Wholes and invariants -/

theorem test_CountsFollowPasses :
    let s := running { world with secs := [(7, { pvc := false, auth := 2, ends := [(3, true)], defCrc := 0 }),
      (8, { pvc := false, auth := 2, ends := [(3, false)], defCrc := 0 })] }
    (secCfg 7 s).ends = [(3, true)] ∧ (secCfg 8 s).ends = [(3, false)] ∧ -32768 ≤ (secOf 7 s).count + 1 ∧
      (secOf 7 s).count + 1 ≤ 32767 ∧ netDelta (movesOf 7 [passRec] s) = 1 ∧ netDelta (movesOf 8 [passRec] s) = -1 := by decide
/-- The device in its safe state with an instruction of the test port waiting. -/
def latched : State := { running world with dev := { DevSt.reset with mode := .run, safe := true }, pending := [.clamp] }

theorem test_SafeStateLatches : latched.dev.safe = true ∧ (∃ t, step latched = .next t) ∧
    (∃ t, step { latched with pending := [.resetNAssert] } = .next t) := ⟨by decide, ⟨_, rfl⟩, ⟨_, rfl⟩⟩
theorem test_TablesStayCanonical : Canonical State.reset ∧ Canonical (referring 0) ∧ ∃ t, step (referring 0) = .next t :=
  ⟨by unfold Canonical; decide, by unfold Canonical; decide, ⟨_, rfl⟩⟩
theorem test_OutputsFollowGroupState : tabWf .reset (grp runs).saf.groups = true ∧ OutputsOf (grpOf 0 (grp runs)) ∧
    OutputsOf (grpOf 1 (grp runs)) ∧ ∃ t, step (grp runs) = .next t :=
  ⟨by decide, by unfold OutputsOf; decide, by unfold OutputsOf; decide, ⟨_, rfl⟩⟩

/-! ### Witnesses of further clauses -/

theorem test_EngineEvents_stays : (let s := engines 9 [(0, { server with core := { coreWith [] with dead := some 3 } })]
     (engOf 0 s).core.dead.isSome = true ∧ (engOf 0 (after (.shadowMismatch 0 .rf) s)).state = .service) ∧
    (let s := engines 9 [(0, fulling)]
     (engOf 0 s).state ≠ .service ∧ (engOf 0 s).winStart.isSome = true ∧
     (engOf 0 (after (.laneLag 0 (.ahead .rf)) s)).win.unforced = true) ∧
    (engOf 0 (engines 9 [(0, server)])).core.dead = none ∧
    fltReg clsEng 0 (after (.laneLag 0 (.ahead .post)) (engines 9 [(0, server)])) = 0x31 := by decide
theorem test_EngineEvents_skipped : skipped (engines 864000000001 [(0, server)]) = true ∧
    skipped (engines 864000000000 [(0, server)]) = false ∧
    fltReg clsChk 0 (after .rotationDue { engines 864000000001 [(0, server)] with
      pmc := { up.pmc with shed := true } }) = 0x80 := by decide
theorem test_SupplyAndHeat_slew : let x := domOf 5 up
    let s := setDom 5 (retarget up.bell.time 3 x) up
    x.slew = none ∧ (3 : Nat) ≠ 0 ∧ 3 ≠ x.vset ∧ x.vset = 0 ∧ domVref 5 s = (0, 3) ∧
    domVref 5 { s with bell := { s.bell with time := 22 } } = (0, 3) ∧
    domVref 5 { s with bell := { s.bell with time := 23 } } = (3, 3) := by decide
theorem test_SupplyAndHeat_lost : (after (.monitorExcursion 12 .a (some .under)) (grp { runs with gtest := true })).saf.accepted = false ∧
    (grpOf 0 (after (.monitorExcursion 12 .a (some .under)) (grp runs))).tra = false := by decide
theorem test_ImageAndStart_selftests : (running world).dev.st = false ∧ (running world).dev.stEnd = false ∧
    (let t := after (.selftestComplete [(5, none), (20, some .a)]) (running world)
     t.dev.stBad = true ∧ (domOf 5 t).state = .lost ∧ (domOf 20 t).state = .lost ∧
       (fltReg clsDom 20 t).getLsbD 6 = true ∧ (domOf 20 t).fail1 = true) ∧
    (after (.selftestComplete []) (running world)).dev.stBad = false := by decide +kernel
theorem test_ImageAndStart_seal : let s := after (.startTransition 0xA512345678) { judged true with pins := { PinSt.reset with testEn := true, vio33 := true } }
    s.dev.refCond = 2048 ∧ s.saf.sealOk = true := by decide +kernel
theorem test_HostPorts_refused :
    (0x7FFFFF : BitVec 23).toNat + ([some 1, none] : List (Option Byte)).length > 0x800000 ∧
    (0xFFF : BitVec 12).toNat + ([some 1, none] : List (Option Byte)).length > 0x1000 ∧
    (after (.imageWindowWrite .ha 0x7FFFFF [some 1, some 2] false) up).ha.aerUr = true ∧
    (after (.mailboxWrite .ha 0xFFF [some 1, some 2] true) up).ha.aerUr = true ∧
    (after (.registerWrite .ha 0x11005 (0, 0xF) [] false) up).ha.aerUr = true ∧
    (after (.registerWrite .ha 0x11004 (0, 0xF) [] true) up).ha.aerPoison = true ∧
    (let s : State := { up with ha := { up.ha with ctl := 2 } }
     s.ha.ctl.getLsbD 1 = true ∧ (after (.hostWrridxWrite .ha 5) s).ha.wrRidx = 0 ∧
     fltReg clsHa 0 (after (.hostWrridxWrite .ha 5) s) = 1) ∧
    windowOpenAt .hb (loading_ .checking) = false ∧ (loading_ .checking).dev.mode = .boot := by decide
theorem test_HostPorts_down : let s : State := { up with ha := { PortSt.reset with d3hot := true, ctl := 3 } }
    s.ha.link = false ∧ exec (.hostLinkDown .ha) s = .next s ∧ (after (.perstAssert .ha) s).ha.d3hot = false ∧
    (after (.perstAssert .ha) s).ha.ctl = 0 := ⟨by decide, rfl, by decide, by decide⟩
theorem test_CountsFollowPasses_b :
    let s := { running { world with secs := [(7, { pvc := false, auth := 2, ends := [(3, true)], defCrc := 0 })] } with
      man := { ManSt.reset with a := [(7, { Sec.reset with count := 4 })], b := [(504, codeB { Sec.reset with count := 4 })] } }
    (decodeB (secBOf 7 s)).count = 4 ∧ (decodeB (secBOf 7 (deriveSec [passRec] [] [] false 7 s))).count = 5 ∧
    (secOf 7 (deriveSec [passRec] [] [] false 7 s)).count = 5 := by decide
theorem test_ResetState : State.reset.bell.timeB = ~~~State.reset.bell.time ∧ OutputsOf (grpOf 0 State.reset) := by
  unfold OutputsOf; decide

/-! ### Publication, and what the commit counts -/

theorem test_CountsFollowPasses_commit : let s : State := { due 300 { Sec.reset with state := .clear } with
      frame := { FrameSt.reset with closing := true, drained := some 300, events := [(0, .pass { passRec with head := 3 })] }
      heads := [(3, { Head.reset with state := .idle }), (4, { Head.reset with state := .idle })] }
    let r := (commitSteps (settleTaken s.sup.taken.length s)).1
    CommitDue 300 s ∧ (cfgSecs s).Nodup ∧ (∀ m ∈ cfgSecs s, m < 512) ∧ 7 ∈ cfgSecs s ∧ r.dev.mode ≠ .boot ∧
    7 ∉ replacedSecs .clean (differing .clean r) r ∧ s.sup.taken = [] ∧ (secOf 7 r).count = (if passRec.dir then 1 else -1) := by
  unfold CommitDue; decide +kernel

/-- Port HA publishes: images, records, the deck and keys; its image lies at 4 GiB, its ring at 8 GiB. -/
def publishing (s : State) : State :=
  { s with
    dev := { s.dev with hasLead := true }
    ha := { up.ha with
      ctl := 15, publish := true, body := true, pubCtl := 15, imgBase := 0x100000000, pubImg := 0x100000000
      pubDl := 0x180000000, pubKey := 0x190000000, wrBase := 0x200000000, wrSize := 6 } }

theorem test_Publication_commit : (publishing (due 300 .reset)).ha.ctl.getLsbD 0 = true ∧
    hostUp .ha (publishing (due 300 .reset)) = true ∧ CommitDue 300 (publishing (due 300 .reset)) ∧
    (publishing (due 300 .reset)).ha.txFifo = [] ∧ (0x100000000 : BitVec 64).toNat + 0x10000 ≤ 2 ^ 64 ∧
    (publishCommit .hb (publishing (due 300 .reset))).hb.body = false := by
  unfold CommitDue; decide
theorem test_Publication_checkpoint :
    let s : State := { publishing (checking 1540 1) with sup := { (checking 1540 1).sup with keys := [(3, 77, 7, 9)] } }
    s.dev.mode ≠ .boot ∧ s.dev.safe = false ∧ s.sup.cpDue = true ∧ s.ha.txFifo = [] ∧ s.ha.publish = true ∧ s.ha.body = true ∧
    s.ha.pubCtl.getLsbD 2 = true ∧ hostUp .ha s = true ∧ isLead .ha s = true ∧ s.ha.pubCtl.getLsbD 3 = true ∧
    (s.sup.keys.map (·.1)).Nodup ∧ s.ha.pubDl.toNat + 160 ≤ 2 ^ 64 ∧
    (∀ x ∈ s.sup.keys, s.ha.pubKey.toNat + 16 * x.1 + 16 ≤ 2 ^ 64 ∧
      s.ha.pubImg.toNat + 0x10000 ≤ s.ha.pubKey.toNat + 16 * x.1) ∧
    ¬((publishing (checking 1540 1)).hb.pubCtl.getLsbD 2 = true) := by decide
theorem test_Publication_records : let s := publishing (running world)
    s.dev.hasLead = true ∧ s.dev.lead = .ha ∧ s.ha.ctl.getLsbD 1 = true ∧ hostUp .ha s = true ∧ 6 ≤ s.ha.wrSize ∧
    s.ha.wrSize ≤ 16 ∧ s.ha.wrBase.toNat + 16 * 2 ^ s.ha.wrSize ≤ 2 ^ 64 ∧ s.ha.wrDrop ≤ 0xFFFFFFFF ∧
    (leadRecords [passRec] s).dev.wrWidx = 1 ∧ memLoad (leadRecords [passRec] s).ha.host 0x200000000 16 = recBytes passRec := by
  decide +kernel
theorem test_Publication_deck : let s : State := { running { world with lines := [[7]] } with
      man := { ManSt.reset with comA := [(7, { Sec.reset with state := .occupied, count := 3 })] }
      sup := { SupSt.reset with params := [(0x100, 1000), (0x140, 1000)] } }
    (formDeck s).sup.holdMask = 0 ∧ (formDeck s).sup.lvOk = true ∧
    (formDeck { s with man := { ManSt.reset with comA := [(7, disturbed)] } }).sup.holdMask = 1 := by decide +kernel

/-! ### Lanes, monitors and supplies -/

theorem test_EngineEvents_stuck : let s := engines 9 [(0, { server with core :=
      { synced (coreWith []) with shadow := { Shadow.reset with head := ctxWith 0x100 [], ext := ctxWith 0x3000 [], stuck := some .rf } } })]
    let f := fun k : Core => { k with head := { k.head with g := [(1, 5)], wrote := [(1, 5)], done := k.head.done + 16 } }
    (engOf 0 s).core.shadow.stuck = some .rf ∧ (engOf 0 s).core.shadow.differ = none ∧ (engOf 0 s).state = .service ∧
    (f (engOf 0 s).core).dead = none ∧ (engOf 0 s).core.shadow.fifo = [] ∧
    (cycleOf f (engOf 0 s).core).words.any (fun w => wordLane w == .rf) = true ∧
    (engOf 0 (setCore 0 f s)).state = .service ∧
    (engOf 0 (setCore 0 (fun k => { k with head := { k.head with g := [(2, 5)], wrote := [(2, 5)], done := k.head.done + 16 } }) (setCore 0 f s))).state =
      .out := by decide +kernel
theorem test_EngineEvents_behind : (engOf 0 (after (.laneLag 0 (.behind .mem)) (engines 9 [(0, server)]))).core.shadow.stuck = some .mem ∧
    exec (.laneLag 1 (.behind .mem)) (engines 9 [(0, server)]) = .next (engines 9 [(0, server)]) := ⟨by decide, rfl⟩

/-- Domain D05 in a state, with a monitor marked failed or not. -/
def domain5 (st : DomState) (bad : Bool) : State :=
  { running world with pmc := { up.pmc with doms := up.pmc.doms.map fun p =>
      if p.1 = 5 then (p.1, { p.2 with state := st, fail1 := bad, uv1 := true }) else p } }

theorem test_SupplyAndHeat_flags : (domOf 5 (domain5 .ramp false)).state = .ramp ∧ (domOf 5 (domain5 .lost false)).fail1 = false ∧
    (domOf 5 (after (.monitorExcursion 5 .a (some .over)) (domain5 .ramp false))).ov1 = true ∧
    (domOf 5 (after (.monitorExcursion 5 .a (some .over)) (domain5 .ramp false))).state = .ramp ∧
    fltReg clsDom 5 (after (.monitorExcursion 5 .a (some .over)) (domain5 .lost false)) = 8 ∧
    (domOf 5 (after (.monitorExcursion 5 .a none) (domain5 .on false))).uv1 = false ∧
    (domOf 5 (after (.monitorDisagreement 5 .a) (domain5 .lost false))).fail1 = true ∧
    (domOf 5 (domain5 .on true)).fail1 = true ∧ (domOf 5 (domain5 .gated false)).state = .gated := by decide +kernel
theorem test_SupplyAndHeat_tests : let s : State := { domain5 .gated false with pmc := { (domain5 .gated false).pmc with tieNow := some (5, .a) } }
    s.pmc.tieNow = some (5, .a) ∧ (domOf 5 (after (.tieTestEnd false) s)).fail1 = true ∧
    exec (.monitorExcursion 5 .a (some .under)) s = .next s ∧ exec (.monitorDisagreement 5 .b) s = .next s :=
  ⟨by decide, by decide +kernel, rfl, rfl⟩
theorem test_SupplyAndHeat_late : exec .thermalStateChange { calling .warning 16 0 with bell := { goodBell with phase := 1 } } =
      .next { calling .warning 16 0 with bell := { goodBell with phase := 1 } } ∧
    exec .thermalStateChange (calling .warning 17 0) = .next (calling .warning 17 0) := ⟨rfl, rfl⟩
theorem test_vio33_out : let s : State := { grp { Grp.reset with state := .sto } with pins := { PinSt.reset with vio33 := false } }
    s33On s = false ∧ (grpOf 0 s).state = .sto ∧ s33Ball .sealLd s = .hiZ ∧ s33Ball .sealLd (grp .reset) = .high := by decide
end Sys2Proof.Tests
end

/-! ## O7: loads from and stores to local memory (R163, R167, R176, R178) -/

namespace Sys2Proof.Machine

/-! ### Bytes and words (R6) -/

theorem toNat_append_byte {n : Nat} (x : BitVec n) (b : Byte) : (x ++ b).toNat = 256 * x.toNat + b.toNat := by
  rw [BitVec.toNat_append, ← Nat.shiftLeft_add_eq_or_of_lt b.isLt, Nat.shiftLeft_eq, Nat.mul_comm]

/-- The number of the four bytes of a word, the lowest address least significant. -/
theorem leNat_word (b0 b1 b2 b3 : Byte) : leNat [b0, b1, b2, b3] = (b3 ++ b2 ++ b1 ++ b0).toNat := by
  simp only [leNat, toNat_append_byte]; omega

theorem leNat_half (b0 b1 : Byte) : leNat [b0, b1] = (b1 ++ b0).toNat := by
  simp only [leNat, toNat_append_byte]; omega

theorem leNat_byte (b : Byte) : leNat [b] = b.toNat := by simp [leNat]

theorem ofNat_shiftRight_byte (w : Word) (i : Nat) : BitVec.ofNat 8 (w.toNat / 256 ^ i) = (w >>> (8 * i)).setWidth 8 := by
  apply BitVec.eq_of_toNat_eq
  simp [BitVec.toNat_ushiftRight, Nat.shiftRight_eq_div_pow, pow_mul]

/-- Byte i of the bytes of a number. -/
theorem leBytes_eq_map (n x : Nat) : leBytes n x = (List.range n).map fun i => BitVec.ofNat 8 (x / 256 ^ i) := by
  induction n generalizing x with
  | zero => rfl
  | succ n ih =>
    rw [leBytes, ih, List.range_succ_eq_map, List.map_cons, List.map_map]
    simp [Function.comp_def, Nat.div_div_eq_div_mul, pow_succ, Nat.mul_comm]

/-- The bytes a store writes are the low bytes of its register. -/
theorem leBytes_eq_lowBytes (n : Nat) (w : Word) : leBytes n w.toNat = lowBytes n w := by
  rw [leBytes_eq_map, lowBytes]
  exact List.map_congr_left fun i _ => ofNat_shiftRight_byte w i

/-! ### Addresses (R167) -/

/-- A local address lies in DMEM or in VMEM. -/
theorem regionOf_local (a : Nat) (h : IsLocal a) :
    (∃ o, regionOf a = .dmem o) ∨ ∃ o, regionOf a = .vmem o := by
  unfold IsLocal at h
  unfold regionOf
  rcases h with h | h
  · exact .inl ⟨_, if_pos h⟩
  · exact .inr ⟨a - 0x20000000, by rw [if_neg (by omega), if_pos h]⟩

/-- The sizes of an access. -/
abbrev AccessSize (n : Nat) : Prop := n = 1 ∨ n = 2 ∨ n = 4

/-- An aligned store into the context's own regions lies within one of them. -/
theorem mayStore_of_ownData (c : Ctx) (a n : Nat) (hn : AccessSize n) (ha : a % n = 0) (h : ownData c a = true) :
    mayStore c a n = true := by
  cases c
  all_goals
    simp only [mayStore, ownData, Bool.and_eq_true, decide_eq_true_eq] at h ⊢
    rcases hn with rfl | rfl | rfl <;> omega

theorem isLocal_of_ownData (c : Ctx) (a : Nat) (h : ownData c a = true) : IsLocal a := by
  unfold IsLocal
  cases c <;> simp only [ownData, decide_eq_true_eq] at h <;> omega

/-! ### Errors in the words accessed (R163) -/

theorem doubles_of_sound (hit : EccErr → Bool) (k : Core) (h : k.ecc.any hit = false) : doubles hit k = false := by
  rw [doubles, List.any_eq_false]
  rw [List.any_eq_false] at h
  intro x hx
  simp [h x hx]

/-- An access to words without an error reads them as they stand. -/
theorem reading_sound (c : Ctx) (hit : EccErr → Bool) (k : Core) (act : Core → Issue) (h : k.ecc.any hit = false) :
    reading c hit k act = act k := by
  simp [reading, doubles_of_sound hit k h, readWords, h]

/-- An access that meets one corrected error, with no branch unresolved: the word is put right, and the error counted. -/
theorem reading_corrected (c : Ctx) (hit : EccErr → Bool) (k : Core) (act : Core → Issue) (err : EccErr)
    (hs : (ctxOf c k).spec = none) (hd : err.double = false) (h : k.ecc.filter hit = [err]) :
    reading c hit k act = act { k with ecc := k.ecc.filter (fun z => !hit z), ceNew := k.ceNew + 1 } := by
  have hall : ∀ x ∈ k.ecc, hit x = true → x.double = false := by
    intro x hx hh
    have : x ∈ k.ecc.filter hit := List.mem_filter.mpr ⟨hx, hh⟩
    rw [h, List.mem_singleton] at this
    exact this ▸ hd
  have hdoubles : doubles hit k = false := by
    rw [doubles, List.any_eq_false]
    intro x hx
    cases hh : hit x <;> simp [hall x hx, hh]
  have hany : k.ecc.any hit = true := by
    have : err ∈ k.ecc.filter hit := by simp [h]
    obtain ⟨hm, hh⟩ := List.mem_filter.mp this
    exact List.any_eq_true.mpr ⟨err, hm, hh⟩
  have hsingles : singles hit k = 1 := by
    have : k.ecc.filter (fun x => hit x && !x.double) = k.ecc.filter hit :=
      List.filter_congr fun x hx => by cases hh : hit x <;> simp [hall x hx, hh]
    rw [singles, this, h, List.length_singleton]
  have hmend : mend hit k = { k with ecc := k.ecc.filter fun z => !hit z } := by
    rw [mend]
    congr 1
    exact List.filter_congr fun x hx => by cases hh : hit x <;> simp [hall x hx, hh]
  have hs' : (ctxOf c (mend hit k)).spec = none := by cases c <;> exact hs
  simp only [reading, hdoubles, readWords, hany, hsingles, countCe, hs', if_true, Bool.false_eq_true, if_false]
  rw [hmend]

/-! ### What an instruction that has its effect does -/

/-- An instruction that comes to issue and has its effect moves the core on to it. -/
theorem coreMoves_issue_done (e : Nat) (he : e < 512) (c : Ctx) (specOk : Bool) (regs : List Nat) (act : Core → Issue)
    (s : State) (h : Ready e c specOk regs s) (k' : Core) (hk : act (engOf e s).core = .done k') :
    CoreMoves e k' s (issue e c specOk regs act s) := by
  rw [issue_ready _ _ _ _ _ _ h, hk]
  simpa [hk, doneOr] using coreMoves_setCore e he (fun k => doneOr k (act k)) s h.1

/-- No PULL in flight holds up an access that none concerns; the extension context waits for none (R178). -/
theorem noPullStall (c : Ctx) (k : Core) (a n : Nat) (h : c = .head → pullOverlaps k a n = false) :
    (pullOverlaps k a n && c == .head) = false := by
  cases c with
  | head => simp [h rfl]
  | ext => simp

/-! ### Loads -/

/-- The word a load of n bytes gives of the number they spell. -/
def loadedWord (n : Nat) (sx : Bool) (v : Nat) : Word :=
  if sx then (match n with
    | 1 => (BitVec.ofNat 8 v).signExtend 32
    | 2 => (BitVec.ofNat 16 v).signExtend 32
    | _ => BitVec.ofNat 32 v)
  else BitVec.ofNat 32 v

/-- An aligned load of local memory that no write in flight concerns reads its bytes into its register. -/
theorem loadAct_local (c : Ctx) (rd rs1 : Nat) (off : BitVec 16) (n : Nat) (sx : Bool) (k : Core) (a : Nat)
    (ha : a = (readReg (ctxOf c k) rs1 + off.signExtend 32).toNat) (hal : a % n = 0) (hl : IsLocal a)
    (hp : c = .head → pullOverlaps k a n = false) (hv : vstOverlaps c k a n = false) :
    loadAct c rd rs1 off n sx k =
      reading c (localHit a n) k (result c rd fun _ _ => loadedWord n sx (leNat (localBytes k a n))) := by
  unfold loadAct
  simp only [← ha, hal, noPullStall c k a n hp, hv]
  rcases regionOf_local a hl with ⟨o, ho⟩ | ⟨o, ho⟩ <;> simp [ho, loadedWord] <;> rfl

/-- A load of sound local memory writes what it read to its register. -/
theorem regResult_formLoad (e : EngIx) (c : Ctx) (rd rs1 : GReg) (off : BitVec 16) (n : Nat) (sx : Bool) (s : State) (a : Nat)
    (h : Ready e c true [rs1, rd] s) (ha : a = (readReg (ctxAt e c s) rs1 + off.signExtend 32).toNat) (hal : a % n = 0)
    (hl : IsLocal a) (hw : NoWriteInFlight e c a n s) (hs : Sound e a n s) :
    RegResult e c rd (loadedWord n sx (leNat (localBytes (engOf e s).core a n))) s (formLoad e c rd rs1 off n sx s) := by
  obtain ⟨y, hy, hp⟩ := writes_retire rd (loadedWord n sx (leNat (localBytes (engOf e s).core a n))) (ctxAt e c s)
  refine ⟨y, hy, ?_⟩
  rw [CtxMoves, ← hp]
  refine coreMoves_issue_done e e.isLt c true _ _ s h _ ?_
  rw [loadAct_local c rd rs1 off n sx _ a ha hal hl hw.1 hw.2, reading_sound c _ _ _ hs]
  rfl

/-- A load of a word with one corrected error gives the right value, and the word is put right. -/
theorem coreMoves_formLoad_corrected (e : EngIx) (c : Ctx) (rd rs1 : GReg) (off : BitVec 16) (n : Nat) (sx : Bool) (s : State)
    (a : Nat) (h : Ready e c true [rs1, rd] s) (ha : a = (readReg (ctxAt e c s) rs1 + off.signExtend 32).toNat)
    (hal : a % n = 0) (hl : IsLocal a) (hw : NoWriteInFlight e c a n s) (hspec : (ctxAt e c s).spec = none) (err : EccErr)
    (hd : err.double = false) (herr : (engOf e s).core.ecc.filter (localHit a n) = [err]) :
    let k := (engOf e s).core
    ∃ y, Writes rd (loadedWord n sx (leNat (localBytes k a n))) (ctxAt e c s) y ∧
      CoreMoves e { setCtx c (passed y) k with ecc := k.ecc.filter (fun z => !localHit a n z), ceNew := k.ceNew + 1 } s
        (formLoad e c rd rs1 off n sx s) := by
  obtain ⟨y, hy, hp⟩ := writes_retire rd (loadedWord n sx (leNat (localBytes (engOf e s).core a n))) (ctxAt e c s)
  refine ⟨y, hy, ?_⟩
  rw [← hp]
  refine coreMoves_issue_done e e.isLt c true _ _ s h _ ?_
  rw [loadAct_local c rd rs1 off n sx _ a ha hal hl hw.1 hw.2, reading_corrected c _ _ _ err hspec hd herr]
  cases c <;> rfl

/-! ### Stores -/

theorem regionOf_eq_dmem (a o : Nat) : regionOf a = .dmem o ↔ a = 0x10000000 + o ∧ o < 0x8000 := by
  unfold regionOf
  split_ifs <;> simp <;> omega

theorem regionOf_eq_vmem (a o : Nat) : regionOf a = .vmem o ↔ a = 0x20000000 + o ∧ o < 0x4000 := by
  unfold regionOf
  split_ifs <;> simp <;> omega

/-- A local address is told by where it lies. -/
theorem regionOf_inj (a b : Nat) (h : IsLocal a) (hr : regionOf b = regionOf a) : b = a := by
  rcases regionOf_local a h with ⟨o, ho⟩ | ⟨o, ho⟩ <;> rw [ho] at hr
  · rw [regionOf_eq_dmem] at ho hr; omega
  · rw [regionOf_eq_vmem] at ho hr; omega

/-- A byte read back after one was stored. -/
theorem localByte_storeLocalByte (k : Core) (a b : Nat) (v : Byte) (h : IsLocal a) :
    localByte (storeLocalByte k a v) b = if b = a then v else localByte k b := by
  split
  · rename_i hba
    subst hba
    rcases regionOf_local b h with ⟨o, ho⟩ | ⟨o, ho⟩ <;> simp [storeLocalByte, localByte, ho, memGet_memSet]
  · rename_i hne
    have hr : regionOf b ≠ regionOf a := fun hr => hne (regionOf_inj a b h hr)
    rcases regionOf_local a h with ⟨o, ho⟩ | ⟨o, ho⟩ <;> rw [ho] at hr <;> rcases hb : regionOf b with o' | o' | o' | _ <;>
      simp_all [storeLocalByte, localByte, memGet_memSet]

/-- A byte read back after a run of bytes was stored in local memory. -/
theorem localByte_storeLocal (k : Core) (a : Nat) (l : List Byte) (b : Nat) (h : ∀ i < l.length, IsLocal (a + i)) :
    localByte (storeLocal k a l) b = if a ≤ b ∧ b < a + l.length then l.getD (b - a) 0 else localByte k b := by
  induction l generalizing k a with
  | nil =>
    have : ¬(a ≤ b ∧ b < a) := by omega
    simp [storeLocal, this]
  | cons x t ih =>
    have ha : IsLocal a := h 0 (by simp)
    have ht : ∀ i < t.length, IsLocal (a + 1 + i) := fun i hi => by
      simpa [Nat.add_assoc, Nat.add_comm 1] using h (i + 1) (by simpa using hi)
    rw [storeLocal, ih _ _ ht, localByte_storeLocalByte k a b x ha]
    rcases lt_trichotomy b a with hb | rfl | hb
    · simp [show ¬a + 1 ≤ b by omega, show b ≠ a by omega, show ¬a ≤ b by omega]
    · simp
    · obtain ⟨d, rfl⟩ : ∃ d, b = a + 1 + d := ⟨b - (a + 1), by omega⟩
      rw [if_neg (by omega : a + 1 + d ≠ a), Nat.add_sub_cancel_left, show a + 1 + d - a = d + 1 by omega,
        List.getD_cons_succ]
      refine if_congr ?_ rfl rfl
      simp only [List.length_cons]
      omega

/-- A store changes DMEM and VMEM alone. -/
theorem storeLocal_eq (k : Core) (a : Nat) (l : List Byte) :
    ∃ m m', storeLocal k a l = { k with dmem := m, vmem := m' } := by
  induction l generalizing k a with
  | nil => exact ⟨k.dmem, k.vmem, rfl⟩
  | cons b t ih =>
    obtain ⟨m, m', h⟩ := ih (storeLocalByte k a b) (a + 1)
    refine ⟨m, m', ?_⟩
    rw [storeLocal, h, storeLocalByte]
    cases regionOf a <;> rfl

theorem localByte_congr (k k' : Core) (hd : k'.dmem = k.dmem) (hv : k'.vmem = k.vmem) (hs : k'.shr = k.shr) (b : Nat) :
    localByte k' b = localByte k b := by
  unfold localByte
  cases regionOf b <;> simp [hd, hv, hs]

/-- What leaves by the POST lane changes no memory. -/
theorem leaveAll_memories (l : List LaneWord) (k : Core) :
    (l.foldl leave k).dmem = k.dmem ∧ (l.foldl leave k).vmem = k.vmem ∧ (l.foldl leave k).shr = k.shr := by
  induction l generalizing k with
  | nil => simp
  | cons w t ih =>
    obtain ⟨hd, hv, hs⟩ := ih (leave k w)
    rw [List.foldl_cons, hd, hv, hs]
    cases w <;> simp [leave]

/-- The local memory of a core that has moved on. -/
theorem byteAt_coreMoves (e : Nat) (k : Core) (s t : State) (h : CoreMoves e k s t) (b : Nat) : byteAt e t b = localByte k b := by
  obtain ⟨-, -, -, -, hk, -⟩ := h
  unfold byteAt
  rw [hk]
  rcases (engOf e s).core.shadow.fifo ++ [sameCycle k] with _ | ⟨x, _ | ⟨y, _ | ⟨z, rest⟩⟩⟩
  case cons.cons.cons =>
    obtain ⟨hd, hv, hs⟩ := leaveAll_memories x.words { clearStep k with
      shadow := { (engOf e s).core.shadow with head := x.head, ext := x.ext, fifo := y :: z :: rest } }
    exact localByte_congr k _ hd hv hs b
  all_goals exact localByte_congr k _ rfl rfl rfl b

/-- The bytes of an access of the context's own regions are local. -/
theorem isLocal_of_store (c : Ctx) (a n : Nat) (hn : AccessSize n) (ha : a % n = 0) (h : ownData c a = true) (i : Nat)
    (hi : i < n) : IsLocal (a + i) := by
  have hl := isLocal_of_ownData c a h
  unfold IsLocal at hl ⊢
  rcases hn with rfl | rfl | rfl <;> omega

/-- The bytes of an aligned access lie in one memory. -/
theorem regionOf_byte (a n i : Nat) (hn : AccessSize n) (ha : a % n = 0) (hl : IsLocal a) (hi : i < n) :
    (∃ o, regionOf a = .dmem o ∧ regionOf (a + i) = .dmem (o + i)) ∨
      ∃ o, regionOf a = .vmem o ∧ regionOf (a + i) = .vmem (o + i) := by
  rcases regionOf_local a hl with ⟨o, ho⟩ | ⟨o, ho⟩
  · refine .inl ⟨o, ho, ?_⟩
    rw [regionOf_eq_dmem] at ho ⊢
    rcases hn with rfl | rfl | rfl <;> omega
  · refine .inr ⟨o, ho, ?_⟩
    rw [regionOf_eq_vmem] at ho ⊢
    rcases hn with rfl | rfl | rfl <;> omega

/-- A byte of an access lies in a word that the access touches. -/
theorem localHit_of_byte (a n i : Nat) (hn : AccessSize n) (ha : a % n = 0) (hl : IsLocal a) (hi : i < n) (x : EccErr)
    (h : localHit (a + i) 1 x = true) : localHit a n x = true := by
  rcases regionOf_byte a n i hn ha hl hi with ⟨o, ho, hb⟩ | ⟨o, ho, hb⟩
  all_goals
    simp only [localHit, ho, hb, wordHit, Bool.and_eq_true, decide_eq_true_eq] at h ⊢
    obtain ⟨⟨hm, hlo⟩, hhi⟩ := h
    exact ⟨⟨hm, by omega⟩, by omega⟩

/-- Of words without an error none is read for a store to a part of it. -/
theorem partHit_of_sound (a n : Nat) (hn : AccessSize n) (ha : a % n = 0) (hl : IsLocal a) (k : Core)
    (h : k.ecc.any (localHit a n) = false) : k.ecc.any (partHit a n) = false := by
  rw [List.any_eq_false] at h ⊢
  intro x hx hp
  have hpos : 0 < n := by omega
  simp only [partHit, Bool.or_eq_true, Bool.and_eq_true] at hp
  rcases hp with ⟨-, hp⟩ | ⟨-, hp⟩
  · exact h x hx (localHit_of_byte a n 0 hn ha hl hpos x hp)
  · rw [Nat.add_sub_assoc hpos] at hp
    exact h x hx (localHit_of_byte a n (n - 1) hn ha hl (by omega) x hp)

/-- An aligned store of a word covers no word in part. -/
theorem partHit_word (a : Nat) (ha : a % 4 = 0) (k : Core) : k.ecc.any (partHit a 4) = false := by
  rw [List.any_eq_false]
  intro x _
  simp [partHit, ha]

/-- The core behind a store that covers no erroneous word in part. -/
theorem writeWords_noPart (a n : Nat) (k : Core) (h : k.ecc.any (partHit a n) = false) :
    writeWords a n k = { k with ecc := k.ecc.filter fun y => !localHit a n y } := by
  rw [List.any_eq_false] at h
  rw [writeWords, overwrite]
  congr 1
  exact List.filter_congr fun x hx => by simp [h x hx]

/-- An aligned store into the context's own regions that no access in flight concerns writes its bytes. -/
theorem storeAct_own (c : Ctx) (rs2 rs1 : Nat) (off : BitVec 16) (n : Nat) (k : Core) (a : Nat)
    (ha : a = (readReg (ctxOf c k) rs1 + off.signExtend 32).toNat) (hn : AccessSize n) (hal : a % n = 0)
    (ho : ownData c a = true) (hp : c = .head → pullOverlaps k a n = false) (hv : vstOverlaps c k a n = false)
    (hr : vldOverlaps c k a n = false) (hpart : k.ecc.any (partHit a n) = false) :
    storeAct c rs2 rs1 off n k =
      .done (emit [.mem c a (lowBytes n (readReg (ctxOf c k) rs2))] (setCtx c (retire (ctxOf c k))
        (writeWords a n (storeLocal k a (lowBytes n (readReg (ctxOf c k) rs2)))))) := by
  unfold storeAct
  simp only [storeAddr, ← ha, hal, noPullStall c k a n hp, hv, hr, mayStore_of_ownData c a n hn hal ho, leBytes_eq_lowBytes]
  rw [reading_sound c _ _ _ hpart]
  rfl

theorem lowBytes_getD (n : Nat) (w : Word) (i : Nat) (hi : i < n) : (lowBytes n w).getD i 0 = (w >>> (8 * i)).setWidth 8 := by
  simp [lowBytes, hi]

theorem retire_eq_passed (x : CtxSt) : retire x = passed x := by
  simp [retire, passed]

/-- A store of sound or whole words does what StoreResult says. -/
theorem storeResult_formStore (e : EngIx) (c : Ctx) (rs2 rs1 : GReg) (off : BitVec 16) (n : Nat) (s : State) (a : Nat)
    (h : Ready e c false [rs2, rs1] s) (ha : a = (readReg (ctxAt e c s) rs1 + off.signExtend 32).toNat) (hn : AccessSize n)
    (hal : a % n = 0) (ho : ownData c a = true) (hw : NoWriteInFlight e c a n s)
    (hr : vldOverlaps c (engOf e s).core a n = false) (hpart : (engOf e s).core.ecc.any (partHit a n) = false) :
    StoreResult e c rs2 a n s (formStore e c rs2 rs1 off n s) := by
  obtain ⟨m, m', hm⟩ := storeLocal_eq (engOf e s).core a (lowBytes n (readReg (ctxAt e c s) rs2))
  have hmoves : CoreMoves e _ s (formStore e c rs2 rs1 off n s) := coreMoves_issue_done e e.isLt c false _ _ s h _
    (storeAct_own c rs2 rs1 off n _ a ha hn hal ho hw.1 hw.2 hr hpart)
  refine ⟨m, m', ?_, fun b => ?_⟩
  · refine cast (congrArg (CoreMoves e · s _) ?_) hmoves
    rw [← ctxAt, hm, writeWords_noPart, retire_eq_passed]
    · cases c <;> rfl
    · exact hpart
  · rw [byteAt_coreMoves e _ s _ hmoves]
    have hlen : (lowBytes n (readReg (ctxAt e c s) rs2)).length = n := by simp [lowBytes]
    have hbyte := localByte_storeLocal (engOf e s).core a (lowBytes n (readReg (ctxAt e c s) rs2)) b
      (by rw [hlen]; exact isLocal_of_store c a n hn hal ho)
    rw [hlen] at hbyte
    refine (localByte_congr _ _ ?_ ?_ ?_ b).trans (hbyte.trans ?_)
    iterate 3 cases c <;> rfl
    split
    · rename_i hb
      exact lowBytes_getD _ _ _ (by omega)
    · rfl

/-- Settles O7. A load of sound words reads its bytes, one of a word with a single error corrects it, and a store writes its bytes
alone. -/
theorem localLoadsAndStores : Obligations.LocalLoadsAndStores := by
  unfold Obligations.LocalLoadsAndStores
  refine ⟨?_, ?_⟩
  · intro e c rd rs1 off s h a m hl
    have word : leNat (localBytes (engOf e s).core a 4) = (m (a + 3) ++ m (a + 2) ++ m (a + 1) ++ m a).toNat :=
      leNat_word _ _ _ _
    have half : leNat (localBytes (engOf e s).core a 2) = (m (a + 1) ++ m a).toNat := leNat_half _ _
    have byte : leNat (localBytes (engOf e s).core a 1) = (m a).toNat := leNat_byte _
    have load := fun n sx => regResult_formLoad e c rd rs1 off n sx s a h rfl
    refine ⟨fun hal hw hs => ⟨_, rfl, ?_⟩, fun hal hw hs => ⟨⟨_, rfl, ?_⟩, _, rfl, ?_⟩,
      fun hw hs => ⟨⟨_, rfl, ?_⟩, _, rfl, ?_⟩, fun hal hw hspec err hd herr => ?_⟩
    · simpa [word, loadedWord] using load 4 false hal hl hw hs
    · simpa [half, loadedWord] using load 2 true hal hl hw hs
    · simpa [half, loadedWord] using load 2 false hal hl hw hs
    · simpa [byte, loadedWord] using load 1 true (Nat.mod_one _) hl hw hs
    · simpa [byte, loadedWord] using load 1 false (Nat.mod_one _) hl hw hs
    · obtain ⟨y, hy, hmoves⟩ := coreMoves_formLoad_corrected e c rd rs1 off 4 false s a h rfl hal hl hw hspec err hd herr
      refine ⟨_, y, rfl, ?_, hmoves⟩
      simpa [word, loadedWord] using hy
  · intro e c rs2 rs1 off s h a ho
    have hl : IsLocal a := isLocal_of_ownData c a ho
    refine ⟨fun hal hw hr => ⟨_, rfl, ?_⟩, fun hal hw hs hr => ⟨_, rfl, ?_⟩, fun hw hs hr => ⟨_, rfl, ?_⟩⟩
    · exact storeResult_formStore e c rs2 rs1 off 4 s a h rfl (.inr (.inr rfl)) hal ho hw hr (partHit_word a hal _)
    · exact storeResult_formStore e c rs2 rs1 off 2 s a h rfl (.inr (.inl rfl)) hal ho hw hr
        (partHit_of_sound a 2 (.inr (.inl rfl)) hal hl _ hs)
    · exact storeResult_formStore e c rs2 rs1 off 1 s a h rfl (.inl rfl) (Nat.mod_one _) ho hw hr
        (partHit_of_sound a 1 (.inl rfl) (Nat.mod_one _) hl _ hs)

end Sys2Proof.Machine

/-! ## O28: feedback levels and faults of a stop group (R247, R256, R257) -/

namespace Sys2Proof.Machine

/-! ### Entering LOCKED (R251) -/

theorem grpOf_modGrp (i j : Nat) (f : Grp → Grp) (s : State) :
    grpOf j (modGrp i f s) = if j = i then f (grpOf i s) else grpOf j s := grpOf_setGrp i j _ s

theorem groupBecomes_modGrp (g : Nat) (f : Grp → Grp) (s : State) : GroupBecomes g (f (grpOf g s)) s (modGrp g f s) :=
  ⟨rfl, fun j => grpOf_modGrp g j f s⟩

/-- A change of a group after another one is a change of what the first has left. -/
theorem groupBecomes_modGrp_modGrp (g : Nat) (f f' : Grp → Grp) (s : State) :
    GroupBecomes g (f' (f (grpOf g s))) s (modGrp g f' (modGrp g f s)) := by
  refine ⟨rfl, fun j => ?_⟩
  simp only [grpOf_modGrp, if_true]
  split <;> rfl

theorem saf_of_raises {l : List FltBit} {u t : State} (h : Raises l u t) : t.saf = u.saf := by rw [h.1]

/-- Locking a configured group raises the bits of the cause and LOCK (R251, R271). -/
theorem raises_lockGroup (g : Nat) (hg : g < 512) (bits : List Nat) (hd : bits.Nodup) (hb : ∀ b ∈ bits, b < 32 ∧ b ≠ 13)
    (u : State) (hu : (grpOf g u).state ≠ .unused) :
    Raises ((bits.map fun b => (clsSg, g, b)) ++ [(clsSg, g, 13)]) (modGrp g (lockedGrp u.bell.time u.bell.landNo) u)
      (lockGroup g bits u) := by
  have hx : ((grpOf g u).state == GrpState.unused) = false := by simpa using hu
  rw [lockGroup, hx]
  refine raises_append ?_ (raises_forEach clsSg g hg bits hd (fun b h => (hb b h).1) _) (raises_sticky clsSg g 13 hg (by decide) _)
  intro b hmem
  obtain rfl := List.mem_singleton.mp hmem
  refine ⟨hg, fun h => ?_⟩
  obtain ⟨b, hm, he⟩ := List.mem_map.mp h
  exact (hb b hm).2 (Prod.mk.inj (Prod.mk.inj he).2).2

/-- Locking a configured group does what Locks says. -/
theorem locks_lockGroup (g : Nat) (hg : g < 512) (bits : List Nat) (hd : bits.Nodup) (hb : ∀ b ∈ bits, b < 32 ∧ b ≠ 13)
    (u : State) (hu : (grpOf g u).state ≠ .unused) : Locks g bits u (lockGroup g bits u) := by
  have hr := raises_lockGroup g hg bits hd hb u hu
  have hsaf := saf_of_raises hr
  have hgrp : ∀ j, grpOf j (lockGroup g bits u) =
      if j = g then lockedGrp u.bell.time u.bell.landNo (grpOf g u) else grpOf j u := by
    intro j
    rw [grpOf, hsaf, ← grpOf, grpOf_modGrp]
  refine ⟨?_, ?_, fun j hj => by rw [hgrp, if_neg hj], ?_⟩
  · rw [hsaf]
    exact hr
  · rw [hsaf]
    rfl
  · rw [hgrp, if_pos rfl]
    generalize grpOf g u = x
    refine ⟨?_, fun hl => ?_, fun hl => ?_⟩
    · by_cases hl : x.state = .locked
      · simp [lockedGrp, hl]
      · by_cases hs : x.state = .ss1 <;> simp [lockedGrp, hl, endSs1, hs]
    · simp [lockedGrp, hl]
    · by_cases hs : x.state = .ss1 <;> simp [lockedGrp, hl, endSs1, hs]

/-! ### Feedback levels (R256) -/

/-- Steps of 10 us, to the nearest, an exact half to the even neighbour (R8). -/
theorem tenMicros_eq (n : Nat) :
    tenMicros n = if n % 100 < 50 ∨ (n % 100 = 50 ∧ n / 100 % 2 = 0) then n / 100 else n / 100 + 1 := by
  unfold tenMicros roundEven
  dsimp only
  split_ifs <;> omega

/-- The group behind new levels of its feedback inputs. -/
theorem takeFb_eq (ch : Side) (level : Bool) (now : Bell) (x : Grp) :
    let a := if ch = .a then level else x.fba
    let b := if ch = .b then level else x.fbb
    takeFb ch level now x = { x with
      fba := a, fbb := b, fbDisc := if a = b then none else some (x.fbDisc.getD now)
      fbBad := if (x.state = .sto ∨ x.state = .locked) ∧ ¬(a = true ∧ b = true) then some (x.fbBad.getD now) else none
      dropAt := if a = true ∧ b = true then none else x.dropAt
      stopFb := match x.dropAt with
        | some t => if a = true ∧ b = true then min 0xFFFF (tenMicros (now - t).toNat) else x.stopFb
        | none => x.stopFb } := by
  cases ch with
  | a => rcases hd : x.dropAt with _ | t <;> cases level <;> cases hb : x.fbb <;> simp [takeFb, hd, bothOut, elapsed, hb]
  | b => rcases hd : x.dropAt with _ | t <;> cases level <;> cases ha : x.fba <;> simp [takeFb, hd, bothOut, elapsed, ha]

/-- What new levels of the feedback inputs come to, in the state that has taken them (R256). -/
theorem feedbackStep_eq (g : Nat) (s : State) :
    feedbackStep g s =
      if (grpOf g s).state = .energise ∧ bothIn (grpOf g s) = true then modGrp g (toRun s.bell.time) s
      else if ((grpOf g s).state = .run ∨ (grpOf g s).state = .ss1) ∧ bothIn (grpOf g s) = false then lockGroup g [4] s
      else if (grpOf g s).state = .drop ∧ bothOut (grpOf g s) = true then modGrp g (toSto s.bell.time) s
      else s := by
  unfold feedbackStep
  cases hst : (grpOf g s).state <;> cases hin : bothIn (grpOf g s) <;> simp [hst, hin]

/-- The faults whose feedback windows have run out (R256). -/
theorem fbExpired_eq (g : Nat) (s : State) :
    let x := grpOf g s
    let fb := fun t : Bell => 10000 * (grpCfg g s).tFb ≤ tickAge t s
    fbExpired g s =
      (if x.state = .energise ∧ fb x.since ∧ ¬(x.fba = false ∧ x.fbb = false) then [3]
       else if x.state = .drop ∧ fb x.since ∧ ¬(x.fba = true ∧ x.fbb = true) then [2]
       else if (x.state = .sto ∨ x.state = .locked) ∧ (∃ t, x.fbBad = some t ∧ fb t) then [6] else []) ++
      (if ∃ t, x.fbDisc = some t ∧ fb t then [5] else []) := by
  intro x fb
  have any : ∀ o : Option Bell,
      o.any (fun t => decide (10000 * (grpCfg g s).tFb ≤ tickAge t s)) = true ↔ ∃ t, o = some t ∧ fb t := by
    intro o
    cases o <;> simp [fb]
  unfold fbExpired
  simp only [any, msTicks]
  congr 1
  cases hst : (grpOf g s).state <;> simp [x, fb, bothIn, bothOut, imp_iff_not_or]

/-- Those faults are bits of SG_FLT other than LOCK. -/
theorem fbExpired_bits (g : Nat) (s : State) : (fbExpired g s).Nodup ∧ ∀ b ∈ fbExpired g s, b < 32 ∧ b ≠ 13 := by
  rw [fbExpired_eq]
  dsimp only
  split_ifs <;> simp

theorem execFbWindowExpiry_eq (g : GrpIx) (s : State) (h12 : domOn 12 s = true) :
    execFbWindowExpiry g s = .next (if fbExpired g s = [] then s else lockGroup g (fbExpired g s) s) := by
  unfold execFbWindowExpiry
  cases fbExpired g s <;> simp [safioOn, h12]

theorem execFeedbackChange_eq (g : GrpIx) (ch : Side) (level : Bool) (s : State) (h12 : domOn 12 s = true) (h33 : s33On s = true) :
    execFeedbackChange g ch level s = .next (feedbackStep g (modGrp g (takeFb ch level s.bell.time) s)) := by
  simp [execFeedbackChange, safioOn, h12, h33]

/-- Settles O28. New levels are taken and what they come to follows the group's state; every fault goes through lockGroup. -/
theorem feedbackAndGroupFaults : Obligations.FeedbackAndGroupFaults := by
  unfold Obligations.FeedbackAndGroupFaults
  intro g s h12 x past fb bits
  have hg : g.val < 512 := by omega
  have hbits : fbExpired g s = bits := fbExpired_eq g s
  refine ⟨?_, ?_, ?_, ?_, ?_⟩
  · intro ch level a b tens taken
    refine ⟨fun h33 => ?_, fun h33 => ?_⟩
    · show execFeedbackChange g ch level s = _
      simp [execFeedbackChange, h33]
    let u := modGrp g (takeFb ch level s.bell.time) s
    let y := takeFb ch level s.bell.time x
    have hy : taken y := by
      show takeFb ch level s.bell.time x = _
      rw [takeFb_eq]
      simp only [tenMicros_eq]
      rfl
    have hgrp : grpOf g u = y := by rw [grpOf_modGrp, if_pos rfl]
    have hstate : (grpOf g u).state = x.state := by rw [hgrp, hy]
    have hfba : (grpOf g u).fba = a := by rw [hgrp, hy]
    have hfbb : (grpOf g u).fbb = b := by rw [hgrp, hy]
    have hexec : exec (.feedbackChange g ch level) s = .next (feedbackStep g u) := execFeedbackChange_eq g ch level s h12 h33
    rw [feedbackStep_eq, bothIn, bothOut, hstate, hfba, hfbb] at hexec
    refine ⟨u, y, hy, groupBecomes_modGrp g _ s, fun hx ha hb => ?_, fun hx hin => ?_, fun hx ha hb => ?_, fun hx => ?_⟩
    · refine ⟨_, hexec, ?_⟩
      simp only [hx, ha, hb]
      exact groupBecomes_modGrp_modGrp g _ (toRun s.bell.time) s
    · refine ⟨_, hexec, ?_⟩
      have hne : (grpOf g u).state ≠ .unused := by
        rw [hstate]
        rcases hx with hx | hx <;> simp [hx]
      rw [if_neg, if_pos]
      · exact locks_lockGroup g hg [4] (by simp) (by simp) u hne
      · simpa [imp_iff_not_or, hx] using hin
      · rcases hx with hx | hx <;> simp [hx]
    · refine ⟨_, hexec, ?_⟩
      simp only [hx, ha, hb]
      have hsto : toSto s.bell.time y = { y with
          state := .sto, tra := false, trb := false, srq := false, since := s.bell.time
          gAt := none, gbAt := none, gSeen := 0 } := by
        rw [hy]
        simp [toSto, hx, ha, hb]
      rw [← hsto]
      exact groupBecomes_modGrp_modGrp g _ (toSto s.bell.time) s
    · rw [hexec]
      congr 1
      rcases hx with ⟨hx, hl⟩ | ⟨hx | hx, ha, hb⟩ | ⟨hx, hl⟩ | hx | hx | hx
      · have : (!a && !b) = false := by cases ha : a <;> cases hb : b <;> simp_all
        simp [hx, this]
      · simp [hx, ha, hb]
      · simp [hx, ha, hb]
      · simp [hx, hl]
      all_goals simp [hx]
  · intro hx hne
    have h := execFbWindowExpiry_eq g s h12
    have hexp := fbExpired_bits g s
    rw [hbits] at h hexp
    rw [if_neg hne] at h
    exact ⟨_, h, locks_lockGroup g hg bits hexp.1 hexp.2 s hx⟩
  · intro hb
    have h := execFbWindowExpiry_eq g s h12
    rw [hbits, if_pos hb] at h
    exact h
  · intro b hx hguard hdisc hpast
    refine ⟨_, ?_, locks_lockGroup g hg [7] (by simp) (by simp) s hx⟩
    show execGuardDiscrepancyTimeout g s = _
    have hany : (grpOf g s).gdDisc.any (fun t => decide (5000000 ≤ tickAge t s)) = true := by
      rw [show (grpOf g s).gdDisc = some b from hdisc]
      simpa using hpast
    simp [execGuardDiscrepancyTimeout, safioOn, h12, hguard, hany]
  · intro o hx
    refine ⟨_, ?_, locks_lockGroup g hg [9] (by simp) (by simp) s hx⟩
    show execReadbackFault g o s = _
    simp [execReadbackFault, safioOn, h12]

end Sys2Proof.Machine

/-! ## O52: the image, START, PROVE and HARBOUR (R228, R309 to R316, R322, R325, R340, R380) -/

namespace Sys2Proof.Machine

/-! ### Fault bits that are set stay set (R357) -/

/-- Every fault bit that is set in s is set in t. -/
def FltMono (s t : State) : Prop := ∀ c i b, (fltReg c i s).getLsbD b = true → (fltReg c i t).getLsbD b = true

theorem FltMono.of_bits {s t : State} (h : t.flt.bits = s.flt.bits) : FltMono s t := by
  intro c i b hb
  rwa [fltReg, h]

theorem FltMono.trans {s u t : State} (h1 : FltMono s u) (h2 : FltMono u t) : FltMono s t :=
  fun c i b hb => h2 c i b (h1 c i b hb)

theorem FltMono.rfl {s : State} : FltMono s s := fun _ _ _ hb => hb

theorem fltMono_sticky (c i b : Nat) (s : State) : FltMono s (sticky c i b s) := fun c' i' b' h => sticky_mono c i b c' i' b' s h

theorem fltMono_stickyIf (q : Bool) (c i b : Nat) (s : State) : FltMono s (stickyIf q c i b s) := by
  unfold stickyIf
  split
  · exact fltMono_sticky c i b s
  · exact .rfl

theorem fltMono_forEach {β : Type} (l : List β) (f : β → State → State) (h : ∀ b u, FltMono u (f b u)) (s : State) :
    FltMono s (forEach l f s) :=
  forEach_ind (FltMono s) l f s .rfl fun b _ u hu => hu.trans (h b u)

theorem fltMono_raiseAt (p : HostId) (v : Nat) (s : State) : FltMono s (raiseAt p v s) := .of_bits (by rw [flt_raiseAt])

theorem fltMono_lockGroup (g : Nat) (bits : List Nat) (s : State) : FltMono s (lockGroup g bits s) := by
  unfold lockGroup
  split
  · exact .rfl
  · have hmod : FltMono s (modGrp g (lockedGrp s.bell.time s.bell.landNo) s) := .of_bits rfl
    exact (hmod.trans (fltMono_forEach bits _ (fun b => fltMono_sticky clsSg g b) _)).trans (fltMono_sticky clsSg g 13 _)

theorem bits_takeReports (l : List (Report × Bell × Word)) (f : FltSt) : (l.foldl takeReport f).bits = f.bits := by
  induction l generalizing f with
  | nil => rfl
  | cons r t ih =>
    rw [List.foldl_cons, ih, takeReport]
    split <;> rfl

theorem fltMono_enterSafe (cause : Nat) (s : State) : FltMono s (enterSafe cause s) := by
  unfold enterSafe
  split
  · exact .rfl
  · have hdeliver : ∀ u, FltMono u (deliver u) := fun u => .of_bits (bits_takeReports _ _)
    have hlate : ∀ now u, FltMono u (lateReports now u) := fun now u => .of_bits rfl
    have hlock : ∀ u, FltMono u (lockAll [] u) := fun u => fltMono_forEach _ _ (fun g => fltMono_lockGroup g []) u
    have hports : ∀ l u, FltMono u (forEach l (fun p s => setPort p { portOf p s with txen := false } s) u) :=
      fun l => fltMono_forEach l _ fun p u => .of_bits rfl
    refine FltMono.trans ?_ (hports _ _)
    refine FltMono.trans ?_ (hlate _ _)
    refine FltMono.trans ?_ (hlock _)
    refine FltMono.trans ?_ (hdeliver _)
    refine FltMono.trans ?_ (fltMono_sticky clsFlt 0 0 _)
    exact .of_bits rfl

theorem fltMono_treeOut (t : Side) (s : State) : FltMono s (treeOut t s) := by
  have hsingle : ∀ b u, FltMono u (singleTree (sticky clsBell 0 b u)) := fun b u =>
    (fltMono_sticky clsBell 0 b u).trans (.of_bits (by simp [singleTree_keeps]))
  unfold treeOut
  cases t <;> dsimp only <;> split
  · exact .rfl
  · refine FltMono.trans ?_ (hsingle 2 _)
    exact .of_bits rfl
  · exact .rfl
  · refine FltMono.trans ?_ (hsingle 3 _)
    exact .of_bits rfl

theorem fltMono_treeDecision (a b : Bool) (s : State) : FltMono s (treeDecision a b s) := by
  unfold treeDecision
  split
  · exact fltMono_treeOut .a s
  · exact fltMono_treeOut .b s
  · exact fltMono_enterSafe 0x04 s

theorem fltMono_modHost (p : HostId) (f : PortSt → PortSt) (s : State) : FltMono s (modHost p f s) := by
  cases p <;> exact .of_bits rfl

theorem fltMono_portLost (p : HostId) (s : State) : FltMono s (portLost p s) := by
  have hlost : FltMono s (linkLost p s) := by
    unfold linkLost
    dsimp only
    split
    · exact (fltMono_modHost p resetPort s).trans (fltMono_raiseAt _ 6 _)
    · exact fltMono_modHost p resetPort s
  exact hlost.trans (fltMono_modHost p _ _)

theorem fltMono_ringPortLost (p : Nat) (s : State) : FltMono s (ringPortLost p s) := by
  have hdown : FltMono s (linkDownAt p true s) := by
    refine FltMono.trans ?_ (fltMono_stickyIf _ clsRing 0 2 _)
    exact .of_bits rfl
  unfold ringPortLost
  dsimp only
  split
  · exact .of_bits rfl
  · exact hdown.trans (.of_bits rfl)

theorem fltMono_markLate (l : List Nat) (s : State) : FltMono s (markLate l s) := by
  unfold markLate
  split
  · exact .rfl
  · refine FltMono.trans ?_ (fltMono_sticky clsBell 0 4 _)
    exact .of_bits rfl

theorem fltMono_loseEngDom (k : Nat) (s : State) : FltMono s (loseEngDom k s) := by
  have withdrawn : ∀ l u, FltMono u (forEach l withdrawEng u) :=
    fun l => fltMono_forEach l withdrawEng fun e u => .of_bits (by simp [withdrawEng_keeps])
  have off : ∀ l u, FltMono u (forEach l offEng u) :=
    fun l => fltMono_forEach l offEng fun e u => .of_bits (by simp [offEng_keeps])
  have dests : ∀ l u, FltMono u (forEach l (loseDest k) u) :=
    fun l => fltMono_forEach l (loseDest k) fun m u => .of_bits (by simp [loseDest_keeps])
  have rot : ∀ (c : Bool) u, FltMono u (if c then setRot none u else u) :=
    fun c u => .of_bits (by cases c <;> simp [setRot_keeps])
  unfold loseEngDom
  dsimp only
  refine FltMono.trans ?_ (rot _ _)
  refine FltMono.trans ?_ (dests _ _)
  refine FltMono.trans ?_ (off _ _)
  split
  · refine FltMono.trans (fltMono_markLate _ s) (fltMono_forEach _ _ (fun e u => ?_) _)
    exact .of_bits rfl
  · exact withdrawn _ s

/-- What the loss of a domain does clears no fault bit. -/
theorem fltMono_lossEffect (d : Nat) (s : State) : FltMono s (lossEffect d s) := by
  unfold lossEffect
  split
  · exact fltMono_enterSafe _ s
  · exact fltMono_enterSafe _ s
  · exact fltMono_treeDecision _ _ s
  · exact fltMono_treeDecision _ _ s
  iterate 4 exact .of_bits rfl
  · exact fltMono_portLost _ s
  · exact fltMono_portLost _ s
  · exact fltMono_forEach _ _ fltMono_ringPortLost s
  · exact fltMono_forEach _ _ fltMono_ringPortLost s
  · exact .of_bits rfl
  · refine FltMono.trans ?_ (fltMono_sticky clsPmc 0 2 _)
    exact .of_bits rfl
  · exact fltMono_loseEngDom _ s

/-! ### Domains that are lost (R315, R338, R340) -/

/-- What the loss of a domain does moves no other domain and ends no self-test. -/
theorem lossEffect_doms_dev (d : Nat) (s : State) :
    (lossEffect d s).pmc.doms = s.pmc.doms ∧ (lossEffect d s).dev.stEnd = s.dev.stEnd ∧
      (lossEffect d s).dev.stBad = s.dev.stBad := by
  have safe : ∀ cause u, (enterSafe cause u).dev.stEnd = u.dev.stEnd ∧ (enterSafe cause u).dev.stBad = u.dev.stBad := by
    intro cause u
    unfold enterSafe
    split <;> simp [sticky_keeps, deliver_keeps, lockAll_keeps, lateReports_keeps]
  have tree : ∀ a b u, (treeDecision a b u).dev.stEnd = u.dev.stEnd ∧ (treeDecision a b u).dev.stBad = u.dev.stBad := by
    intro a b u
    unfold treeDecision
    split <;> simp [treeOut_keeps, safe]
  unfold lossEffect
  split <;> simp [enterSafe_keeps, safe, treeDecision_keeps, tree, portLost_keeps, ringPortLost_keeps, sticky_keeps,
    loseEngDom_keeps]

theorem domOf_modDom (d j : Nat) (f : Dom → Dom) (s : State) :
    domOf j (modDom d f s) = if j = d then f (domOf d s) else domOf j s := domOf_setDom d j _ s

theorem domOf_sticky (j c i b : Nat) (s : State) : domOf j (sticky c i b s) = domOf j s := by
  rw [domOf, domOf, (by simp [sticky_keeps] : (sticky c i b s).pmc = s.pmc)]

/-- From s to t domains have been lost and monitors marked, and nothing of them has come back; no fault bit has cleared, and the
self-tests have not moved. -/
structure OnlyLost (s t : State) : Prop where
  flt : FltMono s t
  on : ∀ d, (domOf d s).state = .on →
    (domOf d t).state = .on ∨ (domOf d t).state = .lost ∧ (fltReg clsDom d t).getLsbD 8 = true
  lost : ∀ d, (domOf d s).state = .lost → (domOf d t).state = .lost
  fail1 : ∀ d, (domOf d s).fail1 = true → (domOf d t).fail1 = true
  fail2 : ∀ d, (domOf d s).fail2 = true → (domOf d t).fail2 = true
  stEnd : t.dev.stEnd = s.dev.stEnd
  stBad : t.dev.stBad = s.dev.stBad

theorem OnlyLost.trans {s u t : State} (h1 : OnlyLost s u) (h2 : OnlyLost u t) : OnlyLost s t where
  flt := h1.flt.trans h2.flt
  on d hd := (h1.on d hd).elim (h2.on d) fun ⟨hl, hb⟩ => .inr ⟨h2.lost d hl, h2.flt _ _ _ hb⟩
  lost d hd := h2.lost d (h1.lost d hd)
  fail1 d hd := h2.fail1 d (h1.fail1 d hd)
  fail2 d hd := h2.fail2 d (h1.fail2 d hd)
  stEnd := h2.stEnd.trans h1.stEnd
  stBad := h2.stBad.trans h1.stBad

theorem OnlyLost.rfl {s : State} : OnlyLost s s :=
  ⟨.rfl, fun _ h => .inl h, fun _ h => h, fun _ h => h, fun _ h => h, Eq.refl _, Eq.refl _⟩

/-- Domains as they are, with the fault bits and the self-tests. -/
theorem OnlyLost.of_doms {s t : State} (hf : FltMono s t) (hd : t.pmc.doms = s.pmc.doms) (he : t.dev.stEnd = s.dev.stEnd)
    (hb : t.dev.stBad = s.dev.stBad) : OnlyLost s t := by
  have hdom : ∀ d, domOf d t = domOf d s := fun d => by rw [domOf, hd, ← domOf]
  refine ⟨hf, fun d h => .inl ?_, fun d h => ?_, fun d h => ?_, fun d h => ?_, he, hb⟩ <;> rwa [hdom]

theorem onlyLost_sticky (c i b : Nat) (s : State) : OnlyLost s (sticky c i b s) :=
  .of_doms (fltMono_sticky c i b s) (by simp [sticky_keeps]) (by simp [sticky_keeps]) (by simp [sticky_keeps])

theorem domOf_lossEffect (j d : Nat) (s : State) : domOf j (lossEffect d s) = domOf j s := by
  rw [domOf, domOf, (lossEffect_doms_dev d s).1]

/-- A rail that is lost (R338). -/
def lostRail (x : Dom) : Dom := { x with state := .lost, vset := 0, slew := none }

theorem loseDomain_supplied (d : Nat) (s : State) (h : (domOf d s).state = .on ∨ (domOf d s).state = .ramp) :
    loseDomain d s = lossEffect d (sticky clsDom d 8 (modDom d lostRail s)) := by
  have hc : ((domOf d s).state == .on || (domOf d s).state == .ramp) = true := by simpa using h
  exact if_pos hc

theorem loseDomain_unsupplied (d : Nat) (s : State) (h : ¬((domOf d s).state = .on ∨ (domOf d s).state = .ramp)) :
    loseDomain d s = s := by
  have hc : ¬((domOf d s).state == .on || (domOf d s).state == .ramp) = true := by simpa using h
  exact if_neg hc

/-- A domain as it is lost. -/
theorem domOf_loseDomain (d j : Nat) (s : State) :
    domOf j (loseDomain d s) =
      if j = d ∧ ((domOf d s).state = .on ∨ (domOf d s).state = .ramp) then lostRail (domOf d s) else domOf j s := by
  by_cases h : (domOf d s).state = .on ∨ (domOf d s).state = .ramp
  · rw [loseDomain_supplied d s h, domOf_lossEffect, domOf_sticky, domOf_modDom]
    simp [h]
  · rw [loseDomain_unsupplied d s h]
    simp [h]

/-- A domain that is lost shows LOST. -/
theorem loseDomain_shows (d : Nat) (s : State) (h : (domOf d s).state = .on ∨ (domOf d s).state = .ramp) :
    (fltReg clsDom d (loseDomain d s)).getLsbD 8 = true := by
  rw [loseDomain_supplied d s h]
  exact fltMono_lossEffect d _ _ _ _ (sticky_bit clsDom d 8 (by decide) _)

theorem fltMono_loseDomain (d : Nat) (s : State) : FltMono s (loseDomain d s) := by
  by_cases h : (domOf d s).state = .on ∨ (domOf d s).state = .ramp
  · rw [loseDomain_supplied d s h]
    refine FltMono.trans ?_ (fltMono_lossEffect d _)
    refine FltMono.trans ?_ (fltMono_sticky clsDom d 8 _)
    exact .of_bits rfl
  · rw [loseDomain_unsupplied d s h]
    exact .rfl

theorem loseDomain_selftest (d : Nat) (s : State) :
    (loseDomain d s).dev.stEnd = s.dev.stEnd ∧ (loseDomain d s).dev.stBad = s.dev.stBad := by
  by_cases h : (domOf d s).state = .on ∨ (domOf d s).state = .ramp
  · rw [loseDomain_supplied d s h]
    simp [lossEffect_doms_dev, sticky_keeps, modDom_keeps]
  · rw [loseDomain_unsupplied d s h]
    exact ⟨rfl, rfl⟩

/-- A domain that is lost shows it, and takes no other one along. -/
theorem onlyLost_loseDomain (d : Nat) (s : State) : OnlyLost s (loseDomain d s) := by
  have kept : ∀ j, domOf j (loseDomain d s) = domOf j s ∨ j = d ∧ domOf j (loseDomain d s) = lostRail (domOf j s) ∧
      (fltReg clsDom j (loseDomain d s)).getLsbD 8 = true := by
    intro j
    rw [domOf_loseDomain]
    split
    · rename_i h
      obtain ⟨rfl, hs⟩ := h
      exact .inr ⟨rfl, rfl, loseDomain_shows j s hs⟩
    · exact .inl rfl
  refine ⟨fltMono_loseDomain d s, fun j h => ?_, fun j h => ?_, fun j h => ?_, fun j h => ?_, (loseDomain_selftest d s).1,
    (loseDomain_selftest d s).2⟩ <;> rcases kept j with hj | ⟨-, hj, hb⟩ <;> simp [hj, h, lostRail]
  exact hb

/-- A domain in service that is lost. -/
theorem loseDomain_lost (d : Nat) (s : State) (h : (domOf d s).state = .on ∨ (domOf d s).state = .lost) :
    (domOf d (loseDomain d s)).state = .lost := by
  rcases h with h | h
  · rw [domOf_loseDomain, if_pos ⟨rfl, .inl h⟩, lostRail]
  · exact (onlyLost_loseDomain d s).lost d h

/-- A monitor of a rail is marked failed (R338). -/
def markedRail (m : Side) (x : Dom) : Dom :=
  match m with
  | .a => { x with fail1 := true }
  | .b => { x with fail2 := true }

theorem failMonitor_eq (d : Nat) (m : Side) (s : State) :
    failMonitor d m s =
      if monitorsOut d (markedRail m (domOf d s)) then loseDomain d (modDom d (markedRail m) s) else modDom d (markedRail m) s := by
  unfold failMonitor
  cases m <;> simp [domOf_modDom, markedRail] <;> rfl

theorem onlyLost_mark (d : Nat) (m : Side) (s : State) : OnlyLost s (modDom d (markedRail m) s) := by
  refine ⟨.of_bits rfl, fun j h => .inl ?_, fun j h => ?_, fun j h => ?_, fun j h => ?_, rfl, rfl⟩ <;> rw [domOf_modDom] <;>
    split <;> rename_i hj <;> cases m <;> simp_all [markedRail]

theorem onlyLost_failMonitor (d : Nat) (m : Side) (s : State) : OnlyLost (modDom d (markedRail m) s) (failMonitor d m s) := by
  rw [failMonitor_eq]
  split
  · exact onlyLost_loseDomain d _
  · exact .rfl

/-- A monitor that fails is marked, whatever its domain comes to. -/
theorem failMonitor_marks (d : Nat) (m : Side) (s : State) :
    (m = .a → (domOf d (failMonitor d m s)).fail1 = true) ∧ (m = .b → (domOf d (failMonitor d m s)).fail2 = true) := by
  have h := onlyLost_failMonitor d m s
  refine ⟨?_, ?_⟩ <;> rintro rfl
  · exact h.fail1 d (by simp [domOf_modDom, markedRail])
  · exact h.fail2 d (by simp [domOf_modDom, markedRail])

theorem onlyLost_failTest (x : DomIx × Option Side) (s : State) : OnlyLost s (failTest x s) := by
  unfold failTest
  split
  · rename_i m _
    exact (((onlyLost_sticky clsDom x.1 6 s).trans (onlyLost_mark x.1 m _)).trans (onlyLost_failMonitor x.1 m _)).trans
      (onlyLost_loseDomain x.1 _)
  · exact onlyLost_loseDomain x.1 s

/-- A block that has failed its self-test behaves as on loss of its domain; a tie test that has failed shows TIE, and its monitor is
marked (R315, R340). -/
def TestFailed (x : DomIx × Option Side) (s t : State) : Prop :=
  ((domOf x.1 s).state = .on → (domOf x.1 t).state = .lost ∧ (fltReg clsDom x.1 t).getLsbD 8 = true) ∧
  (x.2 = some .a → (fltReg clsDom x.1 t).getLsbD 6 = true ∧ (domOf x.1 t).fail1 = true) ∧
  (x.2 = some .b → (fltReg clsDom x.1 t).getLsbD 6 = true ∧ (domOf x.1 t).fail2 = true)

/-- What a failed test has brought stays. -/
theorem TestFailed.later {x : DomIx × Option Side} {s u t : State} (h : TestFailed x s u) (hl : OnlyLost u t) :
    TestFailed x s t := by
  obtain ⟨hlost, ha, hb⟩ := h
  exact ⟨fun h => ⟨hl.lost _ (hlost h).1, hl.flt _ _ _ (hlost h).2⟩, fun h => ⟨hl.flt _ _ _ (ha h).1, hl.fail1 _ (ha h).2⟩,
    fun h => ⟨hl.flt _ _ _ (hb h).1, hl.fail2 _ (hb h).2⟩⟩

/-- A failed test does what TestFailed says, of a domain that was in service when the tests began. -/
theorem testFailed_failTest (x : DomIx × Option Side) (s u : State) (hu : OnlyLost s u) : TestFailed x s (failTest x u) := by
  obtain ⟨d, m⟩ := x
  have lost : ∀ v, OnlyLost s v → (domOf d s).state = .on →
      (domOf d (loseDomain d v)).state = .lost ∧ (fltReg clsDom d (loseDomain d v)).getLsbD 8 = true := by
    intro v hv hon
    rcases hv.on d hon with h | ⟨h, hb⟩
    · exact ⟨loseDomain_lost d v (.inl h), loseDomain_shows d v (.inl h)⟩
    · exact ⟨loseDomain_lost d v (.inr h), fltMono_loseDomain d v _ _ _ hb⟩
  cases m with
  | none => exact ⟨lost u hu, nofun, nofun⟩
  | some m =>
    have hm := onlyLost_failMonitor d m (sticky clsDom d 6 u)
    have hl := onlyLost_loseDomain d (failMonitor d m (sticky clsDom d 6 u))
    have hv := ((hu.trans (onlyLost_sticky clsDom d 6 u)).trans (onlyLost_mark d m _)).trans hm
    have tie : (fltReg clsDom d (failTest (d, some m) u)).getLsbD 6 = true :=
      hl.flt _ _ _ (hm.flt _ _ _ ((onlyLost_mark d m _).flt _ _ _ (sticky_bit clsDom d 6 (by decide) u)))
    obtain ⟨ha, hb⟩ := failMonitor_marks d m (sticky clsDom d 6 u)
    exact ⟨lost _ hv, fun h => ⟨tie, hl.fail1 d (ha (Option.some.inj h))⟩,
      fun h => ⟨tie, hl.fail2 d (hb (Option.some.inj h))⟩⟩

/-- Each of a list of failed tests does what TestFailed says. -/
theorem testFailed_forEach (l : List (DomIx × Option Side)) (s u : State) (hu : OnlyLost s u) :
    OnlyLost s (forEach l failTest u) ∧ ∀ x ∈ l, TestFailed x s (forEach l failTest u) := by
  induction l using List.reverseRecOn with
  | nil => exact ⟨hu, nofun⟩
  | append_singleton l x ih =>
    obtain ⟨hl, hx⟩ := ih
    have e : forEach (l ++ [x]) failTest u = failTest x (forEach l failTest u) := by simp [forEach]
    rw [e]
    refine ⟨hl.trans (onlyLost_failTest x _), fun y hy => ?_⟩
    rcases List.mem_append.mp hy with hy | hy
    · exact (hx y hy).later (onlyLost_failTest x _)
    · exact List.mem_singleton.mp hy ▸ testFailed_failTest x s _ hl

end Sys2Proof.Machine

/-! ### Vectors at the ports (R300, R356) -/

namespace Sys2Proof.Machine

theorem irqSt_sendVector (v : Nat) (h : PortSt) : (sendVector v h).irqSt = h.irqSt := by
  unfold sendVector
  split_ifs <;> rfl

theorem irqSt_raiseAt (p q : HostId) (v : Nat) (s : State) :
    (hostOf q (raiseAt p v s)).irqSt =
      if q = p ∧ domOn (hostDom p) s = true then (hostOf q s).irqSt ||| (1#8 <<< v) else (hostOf q s).irqSt := by
  rw [hostOf_raiseAt]
  split
  · rename_i h
    obtain ⟨rfl, -⟩ := h
    dsimp only
    split <;> simp [irqSt_sendVector]
  · rfl

/-- A vector at both ports sets its bit at each whose domain is in service. -/
theorem irqSt_raiseBoth (q : HostId) (v : Nat) (s : State) :
    (hostOf q (raiseBoth v s)).irqSt =
      if domOn (hostDom q) s = true then (hostOf q s).irqSt ||| (1#8 <<< v) else (hostOf q s).irqSt := by
  rw [raiseBoth, irqSt_raiseAt, irqSt_raiseAt, domOn_raiseAt]
  cases q <;> simp

/-- Every HOST_IRQST bit that is set in s is set in t. -/
def IrqMono (s t : State) : Prop := ∀ q v, (hostOf q s).irqSt.getLsbD v = true → (hostOf q t).irqSt.getLsbD v = true

theorem irqMono_raiseBoth (v : Nat) (s : State) : IrqMono s (raiseBoth v s) := by
  intro q b hb
  rw [irqSt_raiseBoth]
  split
  · rw [BitVec.getLsbD_or, hb, Bool.true_or]
  · exact hb

theorem raiseBoth_tells (q : HostId) (v : Nat) (hv : v < 8) (s : State) (h : domOn (hostDom q) s = true) :
    (hostOf q (raiseBoth v s)).irqSt.getLsbD v = true := by
  rw [irqSt_raiseBoth, if_pos h]
  simp [hv]

theorem irqMono_sticky (c i b : Nat) (s : State) : IrqMono s (sticky c i b s) := by
  have same : ∀ u, IrqMono (sendReport c i b (setFltReg c i u (noteEvent c i b s))) _ := fun u => irqMono_raiseBoth 3 _
  unfold sticky
  split
  · intro q v h
    rwa [hostOf_noteEvent]
  · intro q v h
    refine same _ q v ?_
    rwa [hostOf_sendReport, hostOf_setFltReg, hostOf_noteEvent]

theorem irqMono_stickyIf (q : Bool) (c i b : Nat) (s : State) : IrqMono s (stickyIf q c i b s) := by
  unfold stickyIf
  split
  · exact irqMono_sticky c i b s
  · exact fun _ _ h => h

/-! ### Durations of a load (R8, R310) -/

theorem loadTime_eq (t0 : Bell) (s : State) :
    loadTime t0 s =
      let n := (s.bell.time - t0).toNat
      min 0xFFFF (if n % 100 < 50 ∨ (n % 100 = 50 ∧ n / 100 % 2 = 0) then n / 100 else n / 100 + 1) := by
  rw [loadTime, tenMicros_eq, elapsed]

/-! ### A load (R309, R325) -/

/-- A LOAD is refused outside BOOT, and where a load is under way or done or belongs to the other port. -/
theorem loadWrite_eq (p : HostId) (s : State) :
    loadWrite p s =
      if s.dev.mode ≠ .boot then refuseLoad 0x31 s
      else if s.img.state = .checking ∨ s.img.state = .distributing ∨ s.img.state = .loaded ∨
          s.img.owner = some (otherHost p) then
        refuseLoad 0x30 s
      else { s with img := { s.img with state := .checking, port := p, owner := some p, at_ := s.bell.time } } := by
  by_cases hm : s.dev.mode = .boot
  · rw [if_neg (not_not.mpr hm)]
    split
    · rename_i ht
      rcases ht with h | h | h | h
      iterate 3 simp [loadWrite, hm, h]
      cases p <;> simp [loadWrite, hm, h, otherHost]
    · rename_i ht
      obtain ⟨h1, h2, h3, h4⟩ : s.img.state ≠ .checking ∧ s.img.state ≠ .distributing ∧ s.img.state ≠ .loaded ∧
          s.img.owner ≠ some (otherHost p) := by simpa using ht
      have ho : s.img.owner = none ∨ s.img.owner = some p := by
        rcases ho : s.img.owner with _ | q
        · exact .inl rfl
        · cases p <;> cases q <;> simp_all [otherHost]
      rcases ho with ho | ho <;> cases hst : s.img.state <;> simp_all [loadWrite]
  · simp [loadWrite, hm]

theorem raises_refuseLoad (code : Nat) (s : State) :
    Raises [(clsImg, 0, 1)] { s with img := { s.img with err := code } } (refuseLoad code s) :=
  raises_sticky clsImg 0 1 (by decide) (by decide) _

/-- The image is discarded. -/
def imageDiscarded (code : Nat) (u : State) : State :=
  { u with
    img := { u.img with state := .failed, err := code, owner := none, cfg := .none }
    sup := { u.sup with progA := [], progB := [] } }

theorem failLoad_spec (code : Nat) (u : State) :
    ∃ v, Raises [(clsImg, 0, 0)] (imageDiscarded code u) v ∧ VectorRaised 7 v (failLoad code u) :=
  ⟨_, raises_sticky clsImg 0 0 (by decide) (by decide) _, vectorRaised_raiseBoth 7 _⟩

/-- The state with the time its checks took in IMG_TIME (R310). -/
def checkTimed (s : State) : State := { s with img := { s.img with tCheck := loadTime s.img.at_ s } }

theorem execImageCheckComplete_eq (s : State) (h : s.img.state = .checking) :
    execImageCheckComplete s =
      .next (if imageError s.img.len (windowBytes s) = 0 then
        { checkTimed s with
          img := { (checkTimed s).img with state := .distributing, at_ := s.bell.time, cfg := parseImage (windowBytes s) }
          sup := { s.sup with progA := partNamed (windowBytes s) 2 0, progB := partNamed (windowBytes s) 2 0 } }
      else failLoad (imageError s.img.len (windowBytes s)) (checkTimed s)) := by
  rw [execImageCheckComplete, if_neg (by simp [h])]
  rfl

/-! ### The transition (R27, R28, R251, R263, R279, R315) -/

theorem setMode_dev (m : Mode) (s : State) : (setMode m s).dev = { s.dev with mode := m, modeLand := s.bell.landNo } := by
  simp [setMode, raiseBoth_keeps]

theorem setRoles_dev (s : State) : (setRoles s).dev = { s.dev with lead := s.img.port, hasLead := true } := by
  simp [setRoles, raiseBoth_keeps]

theorem bellStatNow_congr (s t : State) (h : t.bell = s.bell) : bellStatNow t = bellStatNow s := by simp [bellStatNow, refOk, h]

theorem lockBell_bell (s : State) :
    (lockBell s).bell = { s.bell with
      stat := bellStatNow s, locked := true, waits := [], loadPps := false, period := s.img.cfg.period
      frameLen := s.img.cfg.period } := by
  simp [lockBell, stickyIf_keeps]

theorem toProve_dev (s : State) :
    (toProve s).dev = { s.dev with
      mode := .prove, modeLand := s.bell.landNo, startTick := false, lead := s.img.port, hasLead := true, first := true
      proveAt := s.bell.time } := by
  simp [toProve, startRings_keeps, showMode_keeps, setMode_dev, startGroup_keeps, startSup_keeps, lockBell_keeps, lockBell_bell,
    setRoles_dev, setRoles_keeps, switchShown_keeps]

theorem toProve_bell (s : State) :
    (toProve s).bell = { s.bell with
      stat := bellStatNow s, locked := true, loadPps := false, waits := [], period := s.img.cfg.period
      frameLen := s.img.cfg.period } := by
  have hstat : bellStatNow (setRoles (switchShown s)) = bellStatNow s :=
    bellStatNow_congr _ _ (by simp [setRoles_keeps, switchShown_keeps])
  simp [toProve, startRings_keeps, showMode_keeps, setMode_keeps, startGroup_keeps, startSup_keeps, lockBell_bell, setRoles_keeps,
    switchShown_keeps, hstat]

theorem toProve_frame (s : State) : (toProve s).frame = { FrameSt.reset with closing := true, drained := some 0 } := by
  simp [toProve, startRings_keeps, showMode_keeps, setMode_keeps, startGroup_keeps]

theorem toProve_man (s : State) : (toProve s).man = { ManSt.reset with failNext := s.man.failNext } := by
  simp [toProve, startRings_keeps, showMode_keeps, setMode_keeps, startGroup_keeps, startSup_keeps, lockBell_keeps, setRoles_keeps,
    switchShown_keeps]

theorem toProve_engQueue (s : State) : (toProve s).pmc.engQueue = (List.range 16).map (· + 14) := by
  simp [toProve, startRings_keeps, showMode_keeps, setMode_keeps, startGroup_keeps]

theorem toProve_sup (s : State) :
    (toProve s).sup.pgen = 1 ∧ (toProve s).sup.progA = s.sup.progA ∧ (toProve s).sup.progB = s.sup.progB := by
  simp [toProve, startRings_keeps, showMode_keeps, setMode_keeps, startGroup_keeps, startSup, lockBell_keeps, setRoles_keeps,
    switchShown_keeps]

/-- What startGroup leaves of SAFIO. -/
theorem forEach_startGroup_saf (l : List Nat) (s : State) :
    (forEach l startGroup s).saf = { s.saf with groups := (forEach l startGroup s).saf.groups } := by
  refine forEach_ind (fun t => t.saf = { s.saf with groups := t.saf.groups }) l startGroup s rfl fun g _ u hu => ?_
  rw [startGroup, modGrp, setGrp, hu]

theorem toProve_saf (s : State) :
    (toProve s).saf = { s.saf with
      watching := true, expecting := true, miss := 0, accepted := false, dm := false, sealOk := true, sealBad := false
      repeatDue := false, groups := (toProve s).saf.groups } := by
  simp only [toProve, startRings_keeps, showMode_keeps, setMode_keeps]
  rw [forEach_startGroup_saf]
  simp [startSup_keeps, lockBell_keeps, setRoles_keeps, switchShown_keeps]

/-- What each round of a repetition brings about for its own member, and none undoes for another, holds of every member after it. -/
theorem forEach_all {β : Type} (P : β → State → Prop) (l : List β) (f : β → State → State) (s : State)
    (hset : ∀ b u, P b (f b u)) (hkeep : ∀ b c u, P b u → P b (f c u)) : ∀ b ∈ l, P b (forEach l f s) := by
  induction l using List.reverseRecOn with
  | nil => exact nofun
  | append_singleton l c ih =>
    have e : forEach (l ++ [c]) f s = f c (forEach l f s) := by simp [forEach]
    intro b hb
    rw [e]
    rcases List.mem_append.mp hb with hb | hb
    · exact hkeep b c _ (ih b hb)
    · exact List.mem_singleton.mp hb ▸ hset b _

/-- A group that stands in STO with its outputs low and its guards untested (R251, R258). -/
def StandsInSto (g : Nat) (s : State) : Prop :=
  (grpOf g s).state = .sto ∧ (grpOf g s).tra = false ∧ (grpOf g s).trb = false ∧ (grpOf g s).srq = false ∧
    (grpOf g s).gtest = false

theorem standsInSto_startGroup (g : Nat) (s : State) : StandsInSto g (startGroup g s) := by
  simp [StandsInSto, startGroup, grpOf_modGrp, toSto, unusedGrp, Grp.reset]

theorem standsInSto_startGroup_other (g j : Nat) (s : State) (h : StandsInSto g s) : StandsInSto g (startGroup j s) := by
  by_cases hj : g = j
  · subst hj
    exact standsInSto_startGroup g s
  · simpa [StandsInSto, startGroup, grpOf_modGrp, hj] using h

/-- The blocks of the device as the transition finds the groups. -/
def proveBlocks (s : State) : State :=
  let u := startSup (lockBell (setRoles (switchShown s)))
  { u with
    man := { ManSt.reset with failNext := u.man.failNext }
    saf := { u.saf with watching := true, expecting := true, miss := 0, accepted := false, dm := false
                        sealOk := true, sealBad := false, repeatDue := false }
    frame := { FrameSt.reset with closing := true, drained := some 0 }
    pmc := { u.pmc with engQueue := (List.range 16).map (· + 14), engAt := none }
    dev := { u.dev with startTick := false, first := true, proveAt := u.bell.time } }

theorem proveBlocks_img (s : State) : (proveBlocks s).img = s.img := by
  simp [proveBlocks, startSup_keeps, lockBell_keeps, setRoles_keeps, switchShown_keeps]

theorem proveBlocks_doms (s : State) : (proveBlocks s).pmc.doms = s.pmc.doms := by
  simp [proveBlocks, startSup_keeps, lockBell_keeps, setRoles_keeps, switchShown_keeps]

/-- The transition: the blocks, then the groups, the mode, and the rings. -/
theorem toProve_eq (s : State) :
    toProve s = startRings (showMode (setMode .prove (forEach (cfgGroups s) startGroup (proveBlocks s)))) := by
  have hcfg : cfgGroups (proveBlocks s) = cfgGroups s := by rw [cfgGroups, proveBlocks_img, cfgGroups]
  rw [← hcfg]
  rfl

theorem toProve_groups (s : State) : ∀ g ∈ cfgGroups s, StandsInSto g (toProve s) := by
  intro g hg
  have hall := forEach_all StandsInSto (cfgGroups s) startGroup (proveBlocks s) standsInSto_startGroup
    standsInSto_startGroup_other g hg
  have hsaf : (toProve s).saf = (forEach (cfgGroups s) startGroup (proveBlocks s)).saf := by
    simp only [toProve_eq, startRings_keeps, showMode_keeps, setMode_keeps]
  rwa [StandsInSto, grpOf, hsaf, ← grpOf]

/-- A ring whose discovery begins (R68). -/
def RingStarts (k : Nat) (s : State) : Prop := (ringOf k s).state = .down ∧ (ringOf k s).step = 1

theorem ringOf_driveRing (j k : Nat) (s : State) : ringOf j (driveRing k s) = ringOf j s := by
  rw [ringOf, ringOf, (by simp [driveRing_keeps] : (driveRing k s).rings = s.rings)]

theorem startRings_starts (s : State) : ∀ k ∈ cfgRings s, RingStarts k (startRings s) := by
  refine forEach_all RingStarts (cfgRings s) _ s (fun k u => ?_) (fun k j u hu => ?_)
  · simp [RingStarts, ringOf_driveRing, ringOf_setRing]
  · by_cases hk : k = j
    · simp [RingStarts, ringOf_driveRing, ringOf_setRing, hk]
    · simpa [RingStarts, ringOf_driveRing, ringOf_setRing, hk] using hu

theorem toProve_rings (s : State) : ∀ k ∈ cfgRings s, RingStarts k (toProve s) := by
  intro k hk
  rw [toProve_eq]
  refine startRings_starts _ k ?_
  have himg : (showMode (setMode .prove (forEach (cfgGroups s) startGroup (proveBlocks s)))).img = s.img := by
    simp [showMode_keeps, setMode_keeps, startGroup_keeps, proveBlocks_img]
  rwa [cfgRings, himg]

theorem hostOf_congr (q : HostId) (s t : State) (ha : t.ha = s.ha) (hb : t.hb = s.hb) : hostOf q t = hostOf q s := by
  cases q <;> assumption

/-- Both ports hear of the change of mode, and of a change of their roles, where their domains are in service (R279, R300). -/
theorem toProve_tells (q : HostId) (s : State) (h : domOn (hostDom q) s = true) :
    (hostOf q (toProve s)).irqSt.getLsbD 5 = true ∧
      (¬(s.dev.hasLead = true ∧ s.dev.lead = s.img.port) → (hostOf q (toProve s)).irqSt.getLsbD 4 = true) := by
  have domains : ∀ u : State, u.pmc.doms = s.pmc.doms → domOn (hostDom q) u = true := fun u hu => by
    rw [domOn, domOf, hu]
    exact h
  let u := forEach (cfgGroups s) startGroup (proveBlocks s)
  have hu : hostOf q (toProve s) = hostOf q (setMode .prove u) := by
    rw [toProve_eq]
    exact hostOf_congr q _ _ (by simp only [u, startRings_keeps, showMode_keeps])
      (by simp only [u, startRings_keeps, showMode_keeps])
  rw [hu]
  refine ⟨raiseBoth_tells q 5 (by decide) _ (domains _ ?_), fun hrole => irqMono_raiseBoth 5 _ q 4 ?_⟩
  · simp [u, startGroup_keeps, proveBlocks_doms]
  · have hlock : hostOf q u = hostOf q (lockBell (setRoles (switchShown s))) :=
      hostOf_congr q _ _ (by simp [u, startGroup_keeps, proveBlocks, startSup_keeps])
        (by simp [u, startGroup_keeps, proveBlocks, startSup_keeps])
    have hkeep : ∀ v, (hostOf q v).irqSt.getLsbD 4 = true → (hostOf q (lockBell v)).irqSt.getLsbD 4 = true :=
      fun v hv => irqMono_stickyIf v.bell.loadPps clsBell 0 9 _ q 4 hv
    have hroles : (hostOf q (setRoles (switchShown s))).irqSt.getLsbD 4 = true := by
      have hno : ((switchShown s).dev.hasLead && (switchShown s).dev.lead == (switchShown s).img.port) = false := by
        simpa [switchShown_keeps] using hrole
      unfold setRoles
      dsimp only
      rw [hno]
      exact raiseBoth_tells q 4 (by decide) _ (domains _ (by simp [switchShown_keeps]))
    show (hostOf q u).irqSt.getLsbD 4 = true
    rw [hlock]
    exact hkeep _ hroles

/-! ### START refused (R314, R380) -/

/-- The lockable registers keep the lock and the writes that wait. -/
theorem bellRwl_bell (off : Nat) (v : Word) (s : State) :
    (bellRwl off v s).bell.locked = s.bell.locked ∧ (bellRwl off v s).bell.waits = s.bell.waits := by
  have ctl : (writeBellCtl v s).bell.locked = s.bell.locked ∧ (writeBellCtl v s).bell.waits = s.bell.waits := by
    unfold writeBellCtl
    dsimp only
    split_ifs <;> simp [setLoad, setLoadPps]
  have period : (writePeriod v s).bell.locked = s.bell.locked ∧ (writePeriod v s).bell.waits = s.bell.waits := by
    unfold writePeriod
    dsimp only
    split_ifs <;> simp [sticky_keeps]
  unfold bellRwl
  split
  · exact ctl
  · exact period
  all_goals exact ⟨rfl, rfl⟩

theorem fltMono_bellRwl (off : Nat) (v : Word) (s : State) : FltMono s (bellRwl off v s) := by
  have ctl : FltMono s (writeBellCtl v s) := by
    unfold writeBellCtl
    dsimp only
    split_ifs <;> exact .of_bits rfl
  have period : FltMono s (writePeriod v s) := by
    unfold writePeriod
    dsimp only
    split_ifs
    · exact .of_bits rfl
    · exact fltMono_sticky clsBell 0 7 s
  unfold bellRwl
  split
  · exact ctl
  · exact period
  all_goals exact .of_bits rfl

/-- The writes that waited are taken, with the lock as it was. -/
theorem takeWaits_bell (s : State) : (takeWaits s).bell.locked = s.bell.locked ∧ (takeWaits s).bell.waits = [] := by
  refine forEach_ind (fun t => t.bell.locked = s.bell.locked ∧ t.bell.waits = []) s.bell.waits _ _ ⟨rfl, rfl⟩ ?_
  rintro w - u ⟨hl, hw⟩
  obtain ⟨hl', hw'⟩ := bellRwl_bell w.1 w.2 u
  exact ⟨hl'.trans hl, hw'.trans hw⟩

theorem fltMono_takeWaits (s : State) : FltMono s (takeWaits s) := by
  refine FltMono.trans ?_ (fltMono_forEach s.bell.waits _ (fun w u => fltMono_bellRwl w.1 w.2 u) _)
  exact .of_bits rfl

/-- What a refused START shows, with nothing else of the device changed. -/
theorem refuseStart_spec (c : Nat) (s : State) :
    (refuseStart c s).dev = { s.dev with startTick := false, refReq := 2, refCond := c } ∧ (refuseStart c s).img = s.img ∧
      (refuseStart c s).saf = s.saf ∧ (refuseStart c s).bell.waits = [] ∧ (refuseStart c s).bell.locked = s.bell.locked ∧
      (fltReg clsDev 0 (refuseStart c s)).getLsbD 0 = true := by
  obtain ⟨hl, hw⟩ := takeWaits_bell (sticky clsDev 0 0 { s with
    dev := { s.dev with startTick := false, refReq := 2, refCond := c } })
  refine ⟨?_, ?_, ?_, hw, ?_, fltMono_takeWaits _ _ _ _ (sticky_bit clsDev 0 0 (by decide) _)⟩
  · simp [refuseStart, takeWaits_keeps, sticky_keeps]
  · simp [refuseStart, takeWaits_keeps, sticky_keeps]
  · simp [refuseStart, takeWaits_keeps, sticky_keeps]
  · rw [refuseStart, hl]
    simp [sticky_keeps]

theorem refuseStart_noWaits (c : Nat) (s : State) (h : s.bell.waits = []) : (refuseStart c s).bell = s.bell := by
  have hs : ∀ u : State, (sticky clsDev 0 0 u).bell = u.bell := fun u => by simp [sticky_keeps]
  have hw : ({ s.bell with waits := [] } : BellSt) = s.bell := by rw [← h]
  simp [refuseStart, takeWaits, hs, h, forEach, hw]

theorem refuseStart_preset (c : Nat) (v : Word) (s : State) (h : s.bell.waits = [(0x20, v)]) :
    (refuseStart c s).bell = { s.bell with waits := [], presetLo := v } := by
  have hs : ∀ u : State, (sticky clsDev 0 0 u).bell = u.bell := fun u => by simp [sticky_keeps]
  simp [refuseStart, takeWaits, hs, h, forEach, bellRwl]

/-! ### START judged (R265, R266, R314) -/

/-- The seal that a START reads fits the image. -/
abbrev SealFits (b : BitVec 40) (s : State) : Prop :=
  domOn 12 s = true ∧ b >>> 32 = 0xA5 ∧ b.setWidth 32 = s.img.cfg.scHash.getD 7 0

theorem startRead_saf (b : BitVec 40) (s : State) (h12 : domOn 12 s = true) :
    (startRead b s).saf = { s.saf with
      sealPat := (b >>> 32).setWidth 8, reads := (s.saf.reads + 1) % 65536, reading := false, sealAt := some s.bell.tickTime
      sealOk := if s.img.state = .loaded then sealPatOk b && sealWordOk b s else s.saf.sealOk } := by
  unfold startRead
  by_cases hl : s.img.state = .loaded <;> simp [safioOn, h12, noteSeal, hl, sealWordOk, sealWord]

theorem sealFits_iff (b : BitVec 40) (s : State) : SealFits b s ↔ (safioOn s && sealPatOk b && sealWordOk b s) = true := by
  simp [SealFits, safioOn, sealPatOk, sealWordOk, sealWord, and_assoc]

/-- The conditions of START, as they stand ahead of the read of the seal. -/
theorem startConds_startRead (b : BitVec 40) (s : State) :
    startConds b (startRead b s) =
      (if s.img.state = .loaded then 0 else 2) + (if (bellStatNow s).getLsbD 3 = true then 0 else 4) +
        (if s.img.state = .loaded ∧ ¬SealFits b s then 8 else 0) + (if s.pins.testEn = true then 2048 else 0) := by
  have hconds : startConds b (startRead b s) = startConds b s := by
    simp [startConds, safioOn, domOn, domOf, sealWordOk, sealWord, startRead_keeps,
      bellStatNow_congr s (startRead b s) (by simp [startRead_keeps])]
  rw [hconds, startConds]
  simp only [sealFits_iff]
  cases safioOn s && sealPatOk b && sealWordOk b s <;> cases (bellStatNow s).getLsbD 3 <;> cases s.pins.testEn <;>
    by_cases hl : s.img.state = .loaded <;> simp [hl, b2n]

/-! ### HARBOUR (R228, R322) -/

theorem mem_insertBy {α : Type} (key : α → Nat) (x y : α) (l : List α) : y ∈ insertBy key x l ↔ y = x ∨ y ∈ l := by
  induction l with
  | nil => simp [insertBy]
  | cons h t ih =>
    unfold insertBy
    split
    · simp
    · simp [ih, or_left_comm]

theorem mem_sortBy {α : Type} (key : α → Nat) (y : α) (l : List α) : y ∈ sortBy key l ↔ y ∈ l := by
  induction l with
  | nil => rfl
  | cons h t ih =>
    have e : sortBy key (h :: t) = insertBy key h (sortBy key t) := rfl
    rw [e, mem_insertBy, ih, List.mem_cons]

/-- A head's move replaces the one it had, in both supervisors' memories (R233). -/
theorem putMove_spec (m : Move) (s : State) :
    let t := putMove m s
    t = { s with sup := { s.sup with moves := t.sup.moves, b := { s.sup.b with moves := t.sup.b.moves } } } ∧
      (∀ x, x ∈ t.sup.moves ↔ x = m ∨ x ∈ s.sup.moves ∧ x.head ≠ m.head) ∧
      ∀ x, x ∈ t.sup.b.moves ↔ x = m ∨ x ∈ s.sup.b.moves ∧ x.head ≠ m.head := by
  have mem : ∀ l : List Move, ∀ x,
      x ∈ sortBy (·.head) (m :: l.filter fun x => x.head != m.head) ↔ x = m ∨ x ∈ l ∧ x.head ≠ m.head := by
    intro l x
    simp [mem_sortBy]
  exact ⟨rfl, mem s.sup.moves, mem s.sup.b.moves⟩

/-- A GN8 with a crowded engine hands its next head over (R228). -/
theorem disperse_eq (i e slot d : Nat) (s : State) (hc : crowdedEng i s = some e) (ho : ordering e s = false)
    (hl : 1 < ((engOf e s).slots.filter fun q => (moveOf (q.2 - 1) s).isNone).length)
    (hn : nextSlot (engOf e s) s = some slot) (hp : pickEngine (some (e / 32)) s = some d) :
    disperse i s = orderHandover (slotHead (engOf e s) slot) e d 3 s := by
  have hmore : ¬((engOf e s).slots.filter fun q => (moveOf (q.2 - 1) s).isNone).length ≤ 1 := by omega
  simp only [disperse, hc, ho, hn, hp, hmore]
  simp

/-! ### The commands -/

theorem execStartTransition_eq (bits : BitVec 40) (s : State) (hst : s.dev.startTick = true) (hsafe : s.dev.safe = false) :
    let b := sampledBits bits s
    let c := startConds b (startRead b s)
    execStartTransition bits s = .next (if c = 0 then toProve (startRead b s) else refuseStart c (startRead b s)) := by
  simp [execStartTransition, hst, hsafe]

/-- The seal has been read at the landing tick. -/
def SealRead (b : BitVec 40) (s t : State) : Prop :=
  domOn 12 s = true → t.saf.sealAt = some s.bell.tickTime ∧ t.saf.reading = false ∧ t.saf.reads = (s.saf.reads + 1) % 65536 ∧
    t.saf.sealPat = (b >>> 32).setWidth 8

/-- Both outcomes of START keep what the read of the seal has left. -/
theorem sealRead_toProve (b : BitVec 40) (s : State) : SealRead b s (toProve (startRead b s)) := by
  intro h12
  rw [toProve_saf, startRead_saf b s h12]
  exact ⟨rfl, rfl, rfl, rfl⟩

theorem sealRead_refuseStart (b : BitVec 40) (c : Nat) (s : State) : SealRead b s (refuseStart c (startRead b s)) := by
  intro h12
  obtain ⟨-, -, hsaf, -⟩ := refuseStart_spec c (startRead b s)
  rw [hsaf, startRead_saf b s h12]
  exact ⟨rfl, rfl, rfl, rfl⟩

theorem execImgLoad_eq (p : HostId) (s : State) (h : canAccess p 0 s = true) : execImgLoad p s = .next (loadWrite p s) := by
  rw [execImgLoad, if_pos h]

theorem execStart_eq (p : HostId) (s : State) (h : canAccess p 0 s = true) : execStart p s = .next (requestStart s) := by
  rw [execStart, if_pos h]

theorem execImageDistributionComplete_eq (bad : Bool) (s : State) (h : s.img.state = .distributing) :
    let u : State := { s with img := { s.img with tDist := loadTime s.img.at_ s } }
    execImageDistributionComplete bad s =
      .next (if bad then failLoad 0x40 u else raiseBoth 7 { u with img := { u.img with state := .loaded } }) := by
  simp [execImageDistributionComplete, h]

theorem execSelftestComplete_eq (l : List (DomIx × Option Side)) (s : State) (hm : s.dev.mode ≠ .boot) (hst : s.dev.st = false)
    (hend : s.dev.stEnd = false) :
    execSelftestComplete l s =
      .next (forEach l failTest { s with dev := { s.dev with stEnd := true, stBad := !l.isEmpty } }) := by
  simp [execSelftestComplete, inService, hm, hst, hend]

theorem execProveTimeout_eq (s : State) (hm : s.dev.mode ≠ .boot) (hp : s.dev.pdone = false)
    (ht : 100000000 ≤ (s.bell.time - s.dev.proveAt).toNat) : execProveTimeout s = .next (proveTimeout s) := by
  have hlate : proveLate s = true := by
    rw [proveLate, hp, elapsed, decide_eq_true ht]
    rfl
  simp [execProveTimeout, inService, hm, hlate]

theorem execHarbourDispersalStart_eq (g : Gn8Ix) (s : State) (hm : s.dev.mode ≠ .boot) (hsafe : s.dev.safe = false)
    (ht : s.dev.htrans = 2) (hg : g.val ∈ cfgGn8s s) : execHarbourDispersalStart g s = .next (disperse g s) := by
  simp [execHarbourDispersalStart, commits, inService, hm, hsafe, ht, hg]

/-- Settles O52. Each command's row follows from what its operation leaves: the load, the judgement of START with the transition or
its refusal, PROVE's tests, and the dispersal of a GN8. -/
theorem imageAndStart : Obligations.ImageAndStart := by
  unfold Obligations.ImageAndStart
  intro p s now tens
  have htens : ∀ t0, loadTime t0 s = tens t0 := fun t0 => loadTime_eq t0 s
  refine ⟨fun hup h0 => ?_, ?_, ?_, fun hm => ⟨fun hp ht => ?_, fun hst hend => ⟨?_, fun l hl => ?_⟩, ?_⟩⟩
  · have hacc : canAccess p 0 s = true := by simp [canAccess, hup, h0]
    have hload : exec (.imgLoad p) s = .next (loadWrite p s) := execImgLoad_eq p s hacc
    have hstart : exec (.start p) s = .next (requestStart s) := execStart_eq p s hacc
    rw [loadWrite_eq] at hload
    refine ⟨fun hm => ?_, fun hm ht => ?_, fun hm ht => ?_, fun hm hs => ?_, fun hm => ?_⟩
    · rw [if_pos hm] at hload
      exact ⟨_, hload, raises_refuseLoad 0x31 s⟩
    · rw [if_neg (not_not.mpr hm), if_pos ht] at hload
      exact ⟨_, hload, raises_refuseLoad 0x30 s⟩
    · rw [if_neg (not_not.mpr hm), if_neg ht] at hload
      exact hload
    · simpa [requestStart, hm, hs] using hstart
    · simpa [requestStart, hm] using hstart
  · intro failed
    refine ⟨fun hst => ?_, fun hst => ?_⟩
    · intro b u
      have hu : checkTimed s = u := by rw [checkTimed, htens]
      have hexec := execImageCheckComplete_eq s hst
      rw [hu, show windowBytes s = b from rfl] at hexec
      refine ⟨fun hc => ?_, fun hc => ?_⟩
      · rw [if_pos hc] at hexec
        exact hexec
      · rw [if_neg hc] at hexec
        exact ⟨_, hexec, failLoad_spec _ u⟩
    · intro u
      have hexec := fun bad => execImageDistributionComplete_eq bad s hst
      simp only [htens] at hexec
      exact ⟨⟨_, hexec true, failLoad_spec 0x40 u⟩, _, hexec false, vectorRaised_raiseBoth 7 _⟩
  · intro bits hst hsafe b fits cond read told
    have hcond : startConds b (startRead b s) = cond := startConds_startRead b s
    have hexec := execStartTransition_eq bits s hst hsafe
    dsimp only at hexec
    rw [show sampledBits bits s = b from rfl, hcond] at hexec
    have hkeep := startRead_keeps b s
    have hbell : (startRead b s).bell = s.bell := by simp only [hkeep]
    have hdev : (startRead b s).dev = s.dev := by simp only [hkeep]
    have himg : (startRead b s).img = s.img := by simp only [hkeep]
    have hsup : (startRead b s).sup = s.sup := by simp only [hkeep]
    have hpmc : (startRead b s).pmc = s.pmc := by simp only [hkeep]
    refine ⟨fun hc => ⟨_, hexec.trans (by rw [if_pos hc]), sealRead_toProve b s, ?_⟩,
      fun hc => ⟨_, hexec.trans (by rw [if_neg hc]), sealRead_refuseStart b cond s, ?_⟩⟩
    · have htell : ∀ q, domOn (hostDom q) s = true → domOn (hostDom q) (startRead b s) = true := fun q h => by
        rwa [domOn, domOf, hpmc]
      have hstat : bellStatNow (startRead b s) = bellStatNow s := bellStatNow_congr _ _ hbell
      obtain ⟨pgen, progA, progB⟩ := toProve_sup (startRead b s)
      rw [toProve_dev, toProve_bell, toProve_frame, toProve_man, toProve_saf, toProve_engQueue, progA, progB, hdev, hbell, himg,
        hstat, hsup]
      refine ⟨fun q hq => (toProve_tells q _ (htell q hq)).1, fun hrole q hq => (toProve_tells q _ (htell q hq)).2 ?_,
        rfl, rfl, rfl, rfl, rfl, rfl, rfl, pgen, rfl, rfl, rfl, rfl, fun g hg => toProve_groups _ g ?_,
        fun k hk => toProve_rings _ k ?_⟩
      · rwa [hdev, himg]
      · rwa [cfgGroups, himg]
      · rwa [cfgRings, himg]
    · obtain ⟨rdev, rimg, rsaf, rwaits, rlocked, rbit⟩ := refuseStart_spec cond (startRead b s)
      refine ⟨by rw [rdev, hdev], by rw [rimg, himg], rwaits, by rw [rlocked, hbell], fun hw => ?_, fun v hw => ?_, rbit,
        fun hl h12 => ?_⟩
      · rw [refuseStart_noWaits cond _ (by rw [hbell, hw]), hbell]
      · rw [refuseStart_preset cond v _ (by rw [hbell, hw]), hbell]
      · have hfits : fits ↔ _ := sealFits_iff b s
        rw [rsaf, startRead_saf b s h12, if_pos hl, hfits]
        simp [safioOn, h12]
  · exact ⟨_, execProveTimeout_eq s hm hp ht, raises_sticky clsDev 0 2 (by decide) (by decide) _⟩
  · exact execSelftestComplete_eq [] s hm hst hend
  · have hexec := execSelftestComplete_eq l s hm hst hend
    rw [List.isEmpty_eq_false_iff.mpr hl] at hexec
    obtain ⟨hlost, htests⟩ := testFailed_forEach l { s with dev := { s.dev with stEnd := true, stBad := true } } _ .rfl
    exact ⟨_, hexec, hlost.stEnd, hlost.stBad, htests⟩
  · intro g e d slot hsafe htrans hg hc ho hl hn hp
    have hexec := execHarbourDispersalStart_eq g s hm hsafe htrans hg
    rw [disperse_eq g e slot d s hc ho hl hn hp] at hexec
    obtain ⟨ht, ha, hb⟩ := putMove_spec
      { head := slotHead (engOf e s) slot, src := e, dst := d, slot := 0, kind := 3, record := false, stage := .chosen } s
    exact ⟨_, hexec, ht, ha, hb⟩

end Sys2Proof.Machine

/-! ## O32: the token pairs (R236, R252 to R263) -/

namespace Sys2Proof.Machine

/-- Enabling a group, and nothing else. -/
def enableOrder : GrpOrder := { enable := true, stop := false, profile := none, openReset := false, applyReset := false }

/-- Orders that enable group 512, one past those whose SG_FLT register is told apart from the next class by class x 512 + index. -/
def enable512 : Orders := { land := 0, openDevReset := false, applyDevReset := false, groups := [(512, enableOrder)] }

/-- A device whose pair comes with those orders: the domains of SAFIO and of both supervisors are in service, VIO33 is out, and
group 512 stands in STO. -/
def pairFor512 : State :=
  { State.reset with
    pmc := { PmcSt.reset with doms := [6, 7, 12].map fun d => (d, { Dom.reset with state := .on }) }
    pins := { PinSt.reset with vio33 := false }
    saf := { SafSt.reset with watching := true, groups := [(512, { Grp.reset with state := .sto })] }
    sup := { SupSt.reset with sent := some enable512 } }

/-- What a good pair leaves of that device. -/
def behind512 : State :=
  applyOrders enable512
    { pairFor512 with
      saf := { pairFor512.saf with tokLand := 0, accepted := true, miss := 0 }
      sup := { pairFor512.sup with sent := none } }

theorem exec_pairFor512 : exec (.tokenPair 0 0 0 0 true) pairFor512 = .next behind512 := by
  show execTokenPair 0 0 0 0 true pairFor512 = _
  have hon : (safioOn pairFor512 && pairFor512.saf.watching && domOn 6 pairFor512 && domOn 7 pairFor512) = true := by decide
  have hok : pairOk 0 0 0 0 true enable512.land pairFor512 = true := by decide
  have hsent : pairFor512.sup.sent = some enable512 := rfl
  simp only [execTokenPair, hsent, hon, hok]
  rfl

/-- The read-back of group 512 has set bit 9 of SG_SAFIO_FLT, the register in place 0 of the next class. -/
theorem behind512_aliases : (fltReg clsSafio 0 behind512).getLsbD 9 = true := by decide

/-- Refutes O32: it ranges over every number as a group, and the read-back fault of an enable with VIO33 out does not do what Locks
says of a group from 512 on: its bits fall into the register of another class. -/
theorem not_tokenPairs : ¬ Obligations.TokenPairs := by
  unfold Obligations.TokenPairs
  intro h
  obtain ⟨-, -, hsent⟩ := h 0 0 0 0 true pairFor512 (by decide) rfl
  obtain ⟨-, -, hvio33, -⟩ := hsent enable512 rfl (by decide) (by decide)
  obtain ⟨u, t, hexec, hu, hraises, -⟩ := hvio33 (by decide) rfl rfl (by decide) 512 (by decide) rfl
  obtain rfl : behind512 = t := Host.Outcome.next.inj (exec_pairFor512.symm.trans hexec)
  have hbit := hraises.2.2.1 clsSafio 0 (by decide) 9
  have hclear : fltReg clsSafio 0 u = 0 := by
    rw [hu]
    rfl
  have hclear' : fltReg clsSafio 0 { u with saf := behind512.saf } = 0 := hclear
  rw [behind512_aliases, hclear'] at hbit
  exact absurd hbit (by decide)

end Sys2Proof.Machine

/-! ## O50: supplies, monitors, interlocks and the thermal state (R18, R327, R334 to R347, R398 to R402) -/

namespace Sys2Proof.Machine

/-! ### States that agree field by field -/

theorem state_eq {s t : State} (bell : t.bell = s.bell) (frame : t.frame = s.frame) (ports : t.ports = s.ports)
    (rings : t.rings = s.rings) (gn8s : t.gn8s = s.gn8s) (heads : t.heads = s.heads) (man : t.man = s.man)
    (engs : t.engs = s.engs) (sup : t.sup = s.sup) (saf : t.saf = s.saf) (ha : t.ha = s.ha) (hb : t.hb = s.hb)
    (pmc : t.pmc = s.pmc) (dev : t.dev = s.dev) (img : t.img = s.img) (flt : t.flt = s.flt) (pins : t.pins = s.pins)
    (shown : t.shown = s.shown) (free : t.free = s.free) (pending : t.pending = s.pending) : t = s := by
  cases s
  cases t
  simp_all

/-! ### A change of each entry of a table in turn -/

/-- What a table reads under a key is listed with that key, unless it is the reset value. -/
theorem mem_of_tabGet {α : Type} (d : α) (t : Tab α) (k : Nat) : tabGet d t k = d ∨ (k, tabGet d t k) ∈ t := by
  induction t with
  | nil => exact .inl rfl
  | cons p t ih =>
    by_cases hk : k = p.1
    · right
      simp [tabGet, hk]
    · simp only [tabGet, hk, if_false]
      exact ih.imp id (List.mem_cons_of_mem _)

/-- A key under which a table reads something else than its reset value is listed. -/
theorem mem_keys_of_tabGet {α : Type} (d : α) (t : Tab α) (k : Nat) (h : tabGet d t k ≠ d) : k ∈ t.map (·.1) :=
  List.mem_map_of_mem (f := (·.1)) ((mem_of_tabGet d t k).resolve_left h)

/-- A repetition whose round for k changes entry k alone, by a change that made twice is made once, changes each listed
entry so. -/
theorem forEach_update {α : Type} (P : State → Prop) (get : Nat → State → α) (f : Nat → State → State) (upd : Nat → α → α)
    (twice : ∀ j x, upd j (upd j x) = upd j x) (keeps : ∀ k u, P u → P (f k u))
    (round : ∀ k u, P u → ∀ j, get j (f k u) = if j = k then upd j (get j u) else get j u) (l : List Nat) (s : State) (hs : P s) :
    P (forEach l f s) ∧ ∀ j, get j (forEach l f s) = if j ∈ l then upd j (get j s) else get j s := by
  induction l using List.reverseRecOn with
  | nil => exact ⟨hs, fun j => by simp [forEach]⟩
  | append_singleton l k ih =>
    obtain ⟨hP, hget⟩ := ih
    have e : forEach (l ++ [k]) f s = f k (forEach l f s) := by simp [forEach]
    rw [e]
    refine ⟨keeps k _ hP, fun j => ?_⟩
    rw [round k _ hP, hget]
    by_cases hk : j = k <;> by_cases hl : j ∈ l <;> simp [hk, hl]
    · simp [← hk, hl, twice]
    · simp [← hk, hl]

/-- A repetition over the keys of a table changes every entry, where the change leaves one as after reset alone. -/
theorem forEach_update_all {α : Type} (P : State → Prop) (d : α) (tab : State → Tab α) (f : Nat → State → State)
    (upd : Nat → α → α) (reset : ∀ j, upd j d = d) (twice : ∀ j x, upd j (upd j x) = upd j x) (keeps : ∀ k u, P u → P (f k u))
    (round : ∀ k u, P u → ∀ j, tabGet d (tab (f k u)) j = if j = k then upd j (tabGet d (tab u) j) else tabGet d (tab u) j)
    (s : State) (hs : P s) :
    P (forEach ((tab s).map (·.1)) f s) ∧
      ∀ j, tabGet d (tab (forEach ((tab s).map (·.1)) f s)) j = upd j (tabGet d (tab s) j) := by
  obtain ⟨hP, hget⟩ := forEach_update P (fun j u => tabGet d (tab u) j) f upd twice keeps round ((tab s).map (·.1)) s hs
  refine ⟨hP, fun j => (hget j).trans ?_⟩
  split
  · rfl
  · rename_i h
    have hd : tabGet d (tab s) j = d := by
      by_contra hne
      exact h (mem_keys_of_tabGet d (tab s) j hne)
    rw [hd, reset]

/-! ### Groups that lock (R251) -/

/-- Locking a configured group changes that group alone, of all that SAFIO holds. -/
theorem lockGroup_saf (g : Nat) (bits : List Nat) (s : State) :
    (lockGroup g bits s).saf =
      if (grpOf g s).state = .unused then s.saf else (modGrp g (lockedGrp s.bell.time s.bell.landNo) s).saf := by
  unfold lockGroup
  by_cases hu : (grpOf g s).state = .unused
  · simp [hu]
  · have hx : ((grpOf g s).state == GrpState.unused) = false := by simpa using hu
    simp [hx, hu, sticky_keeps]

/-- A configured group as it locks; an unused one does not. -/
def lockedIfUsed (now : Bell) (land : Word) (x : Grp) : Grp := if x.state = .unused then x else lockedGrp now land x

theorem grpOf_lockGroup (g j : Nat) (bits : List Nat) (s : State) :
    grpOf j (lockGroup g bits s) = if j = g then lockedIfUsed s.bell.time s.bell.landNo (grpOf j s) else grpOf j s := by
  have hsaf : grpOf j (lockGroup g bits s) =
      if (grpOf g s).state = .unused then grpOf j s else grpOf j (modGrp g (lockedGrp s.bell.time s.bell.landNo) s) := by
    rw [grpOf, lockGroup_saf]
    split <;> rfl
  rw [hsaf, grpOf_modGrp, lockedIfUsed]
  by_cases hj : j = g
  · subst hj
    simp
  · simp [hj]

theorem isLocked_lockedGrp (now : Bell) (land : Word) (x : Grp) : IsLocked (lockedGrp now land x) := by
  unfold lockedGrp
  split <;> simp_all [IsLocked]

theorem lockedGrp_twice (now : Bell) (land : Word) (x : Grp) :
    lockedGrp now land (lockedGrp now land x) = lockedGrp now land x := by
  have h : (lockedGrp now land x).state = .locked := (isLocked_lockedGrp now land x).1
  conv_lhs => rw [lockedGrp]
  rw [h]
  by_cases hx : x.state = .locked <;> simp [lockedGrp, hx]

theorem lockedIfUsed_twice (now : Bell) (land : Word) (x : Grp) :
    lockedIfUsed now land (lockedIfUsed now land x) = lockedIfUsed now land x := by
  by_cases hx : x.state = .unused
  · simp [lockedIfUsed, hx]
  · have h : (lockedGrp now land x).state = .locked := (isLocked_lockedGrp now land x).1
    simp [lockedIfUsed, hx, h, lockedGrp_twice]

/-- Locking all groups locks each that is configured. -/
theorem grpOf_lockAll (bits : List Nat) (s : State) (g : Nat) :
    grpOf g (lockAll bits s) = lockedIfUsed s.bell.time s.bell.landNo (grpOf g s) := by
  refine (forEach_update_all (fun u => u.bell = s.bell) .reset (·.saf.groups) (fun g => lockGroup g bits)
    (fun _ => lockedIfUsed s.bell.time s.bell.landNo) (fun _ => rfl) (fun _ => lockedIfUsed_twice _ _) ?_ ?_ s rfl).2 g
  · intro k u hu
    simpa [lockGroup_keeps] using hu
  · intro k u hu j
    exact hu ▸ grpOf_lockGroup k j bits u

/-! ### The safe state (R361, R362) -/

/-- A sticky bit changes of the fault record the bits, the events of the tick and the reports under way. -/
theorem sticky_flt (c i b : Nat) (s : State) :
    (sticky c i b s).flt = { s.flt with
      bits := (sticky c i b s).flt.bits, fresh := (sticky c i b s).flt.fresh, reports := (sticky c i b s).flt.reports } := by
  unfold sticky
  split
  · rfl
  · rw [reports_raiseBoth]
    rfl

/-- From s to t the fault record has taken bits, events and reports alone. -/
def OnlyTold (s t : State) : Prop :=
  t.flt = { s.flt with bits := t.flt.bits, fresh := t.flt.fresh, reports := t.flt.reports }

theorem OnlyTold.trans {s u t : State} (h1 : OnlyTold s u) (h2 : OnlyTold u t) : OnlyTold s t := by
  unfold OnlyTold at *
  rw [h2, h1]

theorem onlyTold_lockGroup (g : Nat) (bits : List Nat) (s : State) : OnlyTold s (lockGroup g bits s) := by
  have bit : ∀ b u, OnlyTold u (sticky clsSg g b u) := fun b u => sticky_flt clsSg g b u
  unfold lockGroup
  split
  · rfl
  · refine OnlyTold.trans (u := forEach bits (fun b => sticky clsSg g b) (modGrp g (lockedGrp s.bell.time s.bell.landNo) s)) ?_
      (bit 13 _)
    exact forEach_ind (OnlyTold s) bits _ _ rfl fun b _ u hu => hu.trans (bit b u)

theorem onlyTold_lockAll (bits : List Nat) (s : State) : OnlyTold s (lockAll bits s) :=
  forEach_ind (OnlyTold s) _ _ s rfl fun g _ _ hu => hu.trans (onlyTold_lockGroup g bits _)

/-- What reports change of the record depends on the capture and the count alone, and is of them alone. -/
theorem takeReports_eq (l : List (Report × Bell × Word)) (f g : FltSt) (hfirst : g.first = f.first) (hlater : g.later = f.later) :
    l.foldl takeReport g = { g with first := (l.foldl takeReport f).first, later := (l.foldl takeReport f).later } := by
  induction l generalizing f g with
  | nil => simp [← hfirst, ← hlater]
  | cons r t ih =>
    have step : ∀ h : FltSt, takeReport h r = { h with first := (takeReport h r).first, later := (takeReport h r).later } := by
      intro h
      unfold takeReport
      split <;> rfl
    have one : (takeReport g r).first = (takeReport f r).first ∧ (takeReport g r).later = (takeReport f r).later := by
      unfold takeReport
      rw [hfirst, hlater]
      split <;> simp
    rw [List.foldl_cons, List.foldl_cons, ih (takeReport f r) (takeReport g r) one.1 one.2]
    rw [step g]

end Sys2Proof.Machine

namespace Sys2Proof.Machine

/-- The device as the safe line takes it: SAFE, its cause and FAULT_N are set (R361, R364). -/
def safeLine (cause : Nat) (s : State) : State :=
  { s with dev := { s.dev with safe := true, safeCause := cause }
           flt := { s.flt with safeActive := true, safeCause := if s.flt.safeActive then s.flt.safeCause else cause, faultN := true } }

/-- That device behind the capture (R360, R362). -/
def safeCaptured (cause : Nat) (s : State) : State := deliver (sticky clsFlt 0 0 (safeLine cause s))

/-- Every port stops to transmit. -/
def portsQuiet (s : State) : State := forEach (s.ports.map (·.1)) (fun p s => setPort p { portOf p s with txen := false } s) s

theorem enterSafe_eq (cause : Nat) (s : State) (h : s.dev.safe = false) :
    enterSafe cause s = portsQuiet (lateReports s.bell.time (lockAll [] (safeCaptured cause s))) := by
  have hbell : (safeCaptured cause s).bell = s.bell := by simp [safeCaptured, deliver_keeps, sticky_keeps, safeLine]
  have hcalm : ¬(s.dev.safe = true) := by simp [h]
  rw [enterSafe, if_neg hcalm, ← show (safeCaptured cause s).bell.time = s.bell.time by rw [hbell]]
  rfl

/-- Stopping the ports changes nothing else. -/
theorem portsQuiet_spec (s : State) :
    portsQuiet s = { s with ports := (portsQuiet s).ports } ∧ ∀ p, portOf p (portsQuiet s) = { portOf p s with txen := false } := by
  obtain ⟨hkeep, hget⟩ := forEach_update_all (fun u => u = { s with ports := u.ports }) RPort.reset (·.ports)
    (fun p u => setPort p { portOf p u with txen := false } u) (fun _ r => { r with txen := false }) (fun _ => rfl) (fun _ _ => rfl)
    (fun k u hu => by rw [hu]; rfl)
    (fun k u _ j => by
      show portOf j (setPort k _ u) = _
      rw [portOf_setPort]
      by_cases hj : j = k
      · subst hj; simp [portOf]
      · simp [hj, portOf])
    s rfl
  exact ⟨hkeep, hget⟩

/-- The capture as the safe line finds it: the report of SAFE is in it, and none is under way (R359, R362). -/
theorem safeCaptured_flt (cause : Nat) (s : State) :
    (safeCaptured cause s).flt = { s.flt with
      bits := (safeCaptured cause s).flt.bits, fresh := (safeCaptured cause s).flt.fresh, reports := []
      first := ((s.flt.reports ++ reportsOf [(clsFlt, 0, 0)] s).foldl takeReport s.flt).first
      later := ((s.flt.reports ++ reportsOf [(clsFlt, 0, 0)] s).foldl takeReport s.flt).later
      safeActive := true, faultN := true
      safeCause := if s.flt.safeActive then s.flt.safeCause else cause } := by
  obtain ⟨-, hflt, -⟩ := raises_sticky clsFlt 0 0 (by decide) (by decide) (safeLine cause s)
  have hreports : (sticky clsFlt 0 0 (safeLine cause s)).flt.reports = s.flt.reports ++ reportsOf [(clsFlt, 0, 0)] s := by
    rw [hflt]
    rfl
  have hsame : (sticky clsFlt 0 0 (safeLine cause s)).flt.first = s.flt.first ∧
      (sticky clsFlt 0 0 (safeLine cause s)).flt.later = s.flt.later := by
    rw [hflt]
    exact ⟨rfl, rfl⟩
  unfold safeCaptured deliver
  dsimp only
  rw [hreports, takeReports_eq _ s.flt _ hsame.1 hsame.2, hflt]
  rfl

/-- Locking all groups changes of SAFIO the groups alone. -/
theorem lockAll_saf (bits : List Nat) (s : State) : (lockAll bits s).saf = { s.saf with groups := (lockAll bits s).saf.groups } :=
  forEach_ind (fun u => u.saf = { s.saf with groups := u.saf.groups }) _ _ s rfl fun g _ u hu => by
    rw [lockGroup_saf]
    split
    · exact hu
    · rw [modGrp, setGrp_saf, hu]

/-- Entering the safe state does what EntersSafe says (R361, R362). -/
theorem entersSafe_enterSafe (cause : Nat) (s : State) (h : s.dev.safe = false) : EntersSafe cause s (enterSafe cause s) := by
  have hmono := fltMono_enterSafe cause s
  have heq := enterSafe_eq cause s h
  obtain ⟨hquiet, hports⟩ := portsQuiet_spec (lateReports s.bell.time (lockAll [] (safeCaptured cause s)))
  rw [← heq] at hquiet hports
  have htold : OnlyTold (safeCaptured cause s) (lockAll [] (safeCaptured cause s)) := onlyTold_lockAll [] _
  have hsaf : (enterSafe cause s).saf = (lockAll [] (safeCaptured cause s)).saf := by rw [hquiet]; rfl
  have hgroups : (safeCaptured cause s).saf = s.saf := by simp [safeCaptured, deliver_keeps, sticky_keeps, safeLine]
  have hbell : (safeCaptured cause s).bell = s.bell := by simp [safeCaptured, deliver_keeps, sticky_keeps, safeLine]
  have hdev : (enterSafe cause s).dev = { s.dev with safe := true, safeCause := cause } := by
    rw [hquiet]
    simp [lateReports_keeps, lockAll_keeps, safeCaptured, deliver_keeps, sticky_keeps, safeLine]
  refine ⟨?_, ?_, ?_, ?_, hmono, ?_, fun g => ?_, fun p => ?_⟩
  · apply state_eq <;> simp [enterSafe_keeps, hdev]
  · rw [hquiet]
    dsimp only [lateReports]
    rw [htold, safeCaptured_flt]
  · intro r hr
    rw [hquiet] at hr
    obtain ⟨q, -, rfl⟩ := List.mem_map.mp hr
    split
    · simp
    · assumption
  · have hmore : FltMono (safeCaptured cause s) (lockAll [] (safeCaptured cause s)) :=
      fltMono_forEach _ _ (fun g => fltMono_lockGroup g []) _
    have hreg : fltReg clsFlt 0 (enterSafe cause s) = fltReg clsFlt 0 (lockAll [] (safeCaptured cause s)) := by
      rw [hquiet]
      rfl
    rw [hreg]
    refine hmore clsFlt 0 0 ?_
    rw [fltReg, safeCaptured, deliver, bits_takeReports, ← fltReg]
    exact sticky_bit clsFlt 0 0 (by decide) _
  · rw [hsaf, lockAll_saf, hgroups]
  · have hgrp : grpOf g (enterSafe cause s) = lockedIfUsed s.bell.time s.bell.landNo (grpOf g s) := by
      rw [grpOf, hsaf, ← grpOf, grpOf_lockAll, hbell, grpOf, hgroups, ← grpOf]
    rw [hgrp, lockedIfUsed]
    by_cases hu : (grpOf g s).state = .unused
    · rw [if_pos hu, if_pos hu]
    · rw [if_neg hu, if_neg hu]
      exact isLocked_lockedGrp ..
  · rw [hports]
    simp [portOf, lateReports_keeps, lockAll_keeps, safeCaptured, deliver_keeps, sticky_keeps, safeLine]

end Sys2Proof.Machine

namespace Sys2Proof.Machine

/-! ### A domain that is lost (R18, R338) -/

theorem enterSafe_safe (cause : Nat) (s : State) : (enterSafe cause s).dev.safe = true := by
  by_cases h : s.dev.safe = true
  · simp [enterSafe, h]
  · rw [(entersSafe_enterSafe cause s (by simpa using h)).1]

theorem treeOut_out (t : Side) (s : State) : (t = .a → (treeOut t s).bell.outA = true) ∧ (t = .b → (treeOut t s).bell.outB = true) := by
  have single : ∀ u, (singleTree u).bell.outA = u.bell.outA ∧ (singleTree u).bell.outB = u.bell.outB := by
    intro u
    unfold singleTree startSsTimer
    split
    · split <;> exact ⟨rfl, rfl⟩
    · exact ⟨rfl, rfl⟩
  cases t
  · refine ⟨fun _ => ?_, nofun⟩
    unfold treeOut
    dsimp only
    split
    · assumption
    · simp [single, sticky_keeps]
  · refine ⟨nofun, fun _ => ?_⟩
    unfold treeOut
    dsimp only
    split
    · assumption
    · simp [single, sticky_keeps]

/-- A tree whose domain is lost is out, or no tree is left (R18, R38). -/
theorem treeDecision_out (s : State) :
    ((treeDecision true false s).bell.outA = true ∨ (treeDecision true false s).dev.safe = true) ∧
    ((treeDecision false true s).bell.outB = true ∨ (treeDecision false true s).dev.safe = true) := by
  refine ⟨?_, ?_⟩
  · cases hb : s.bell.outB
    · exact .inl (by simpa [treeDecision, hb] using (treeOut_out .a s).1 rfl)
    · exact .inr (by simpa [treeDecision, hb] using enterSafe_safe 0x04 s)
  · cases ha : s.bell.outA
    · exact .inl (by simpa [treeDecision, ha] using (treeOut_out .b s).2 rfl)
    · exact .inr (by simpa [treeDecision, ha] using enterSafe_safe 0x04 s)

/-- The link of a port whose domain is lost is down (R18). -/
theorem portLost_link (p : HostId) (s : State) : (hostOf p (portLost p s)).link = false := by
  have hreset : ∀ u, (hostOf p (linkLost p u)).link = false := by
    intro u
    unfold linkLost
    dsimp only
    split
    · rw [hostOf_raiseAt, if_neg (by cases p <;> simp [otherHost]), modHost, hostOf_setHost, if_pos rfl]
      rfl
    · rw [modHost, hostOf_setHost, if_pos rfl]
      rfl
  rw [portLost, modHost, hostOf_setHost, if_pos rfl]
  exact hreset s

/-- A table whose every entry is changed reads the change, where the reset value is changed into nothing else. -/
theorem tabGet_tabMap {α : Type} [DecidableEq α] (d : α) (f : Nat → α → α) (t : Tab α) (k : Nat) (hf : f k (tabGet d t k) ≠ d)
    (hk : tabGet d t k ≠ d) : tabGet d (tabMap d f t) k = f k (tabGet d t k) := by
  induction t with
  | nil => exact absurd rfl hk
  | cons p t ih =>
    obtain ⟨j, v⟩ := p
    by_cases hj : k = j
    · subst hj
      simp only [tabGet, if_true] at hf ⊢
      simp [tabMap, tabGet, hf]
    · simp only [tabGet, hj, if_false] at hf hk ⊢
      rw [← ih hf hk]
      simp only [tabMap, List.map_cons, List.filter_cons]
      split
      · simp [tabGet, hj]
      · rfl

/-- The loss of D12 puts every configured group into STO with its outputs low (R18, log 56). -/
theorem lossEffect_groups (s : State) (g : Nat) (h : (grpOf g s).state ≠ .unused) :
    grpOf g (lossEffect 12 s) = toSto s.bell.time (grpOf g s) := by
  have hne : grpOf g s ≠ .reset := fun he => h (by rw [he]; rfl)
  have hsto : toSto s.bell.time (grpOf g s) ≠ .reset := fun he => by
    have := congrArg Grp.state he
    simp [toSto, Grp.reset] at this
  have hx : ((grpOf g s).state == GrpState.unused) = false := by simpa using h
  have hread := tabGet_tabMap Grp.reset (fun _ x => if x.state == .unused then x else toSto s.bell.time x) s.saf.groups g
  rw [← grpOf, hx] at hread
  exact hread hsto hne

theorem grpOf_sticky (j c i b : Nat) (s : State) : grpOf j (sticky c i b s) = grpOf j s := by
  rw [grpOf, grpOf, (by simp [sticky_keeps] : (sticky c i b s).saf = s.saf)]

/-- A domain in service has been lost for the reason a bit shows, with the effect R18 gives its loss; s is what the groups were in
before. -/
def DomainLost (d bit : Nat) (s t : State) : Prop :=
  (domOf d t).state = .lost ∧ (domOf d t).vset = 0 ∧ (fltReg clsDom d t).getLsbD bit = true ∧ (fltReg clsDom d t).getLsbD 8 = true ∧
  (d ≤ 1 → t.dev.safe = true) ∧ (d = 2 → t.bell.outA = true ∨ t.dev.safe = true) ∧
  (d = 3 → t.bell.outB = true ∨ t.dev.safe = true) ∧ (d = 4 ∨ d = 5 → t.man.failNext = true) ∧
  (d = 6 ∨ d = 7 → t.sup.lockNext = true) ∧ (d = 8 → t.ha.link = false) ∧ (d = 9 → t.hb.link = false) ∧
  (d = 13 → (fltReg clsPmc 0 t).getLsbD 2 = true) ∧
  (d = 12 → ∀ g, (grpOf g s).state ≠ .unused → (grpOf g t).state = .sto ∧ (grpOf g t).tra = false ∧ (grpOf g t).trb = false ∧
    (grpOf g t).srq = false) ∧
  (d = 12 → t.saf.accepted = false)

theorem domainLost_loseDomain (d bit : Nat) (s u : State) (hon : (domOf d u).state = .on)
    (hbit : (fltReg clsDom d u).getLsbD bit = true) (hsaf : u.saf = s.saf) : DomainLost d bit s (loseDomain d u) := by
  have hdom : domOf d (loseDomain d u) = lostRail (domOf d u) := by
    rw [domOf_loseDomain, if_pos ⟨rfl, .inl hon⟩]
  have hshows := loseDomain_shows d u (.inl hon)
  have hmono := fltMono_loseDomain d u clsDom d bit hbit
  have heq := loseDomain_supplied d u (.inl hon)
  have hgrp : ∀ g, grpOf g (sticky clsDom d 8 (modDom d lostRail u)) = grpOf g s := fun g => by
    rw [grpOf_sticky, grpOf, modDom, setDom_saf, hsaf, ← grpOf]
  refine ⟨by rw [hdom]; rfl, by rw [hdom]; rfl, hmono, hshows, ?_, ?_, ?_, ?_, ?_, ?_, ?_, ?_, ?_, ?_⟩ <;> rw [heq]
  · intro hd
    interval_cases d
    · exact enterSafe_safe 0x01 _
    · exact enterSafe_safe 0x02 _
  · rintro rfl
    exact (treeDecision_out _).1
  · rintro rfl
    exact (treeDecision_out _).2
  · rintro (rfl | rfl) <;> rfl
  · rintro (rfl | rfl) <;> rfl
  · rintro rfl
    exact portLost_link .ha _
  · rintro rfl
    exact portLost_link .hb _
  · rintro rfl
    exact sticky_bit clsPmc 0 2 (by decide) _
  · rintro rfl g hg
    rw [← hgrp] at hg
    rw [lossEffect_groups _ g hg]
    exact ⟨rfl, rfl, rfl, rfl⟩
  · rintro rfl
    rfl

/-! ### Monitors (R336 to R340) -/

theorem domOn_modDom (d e : Nat) (f : Dom → Dom) (hf : ∀ x, (f x).state = x.state) (s : State) :
    domOn e (modDom d f s) = domOn e s := by
  rw [domOn, domOn, domOf_modDom]
  split
  · rename_i he
    rw [hf, he]
  · rfl

theorem reportsOf_congr (l : List FltBit) {s t : State} (hflt : t.flt.bits = s.flt.bits) (hbell : t.bell = s.bell) (ha : t.ha = s.ha)
    (hb : t.hb = s.hb) (hdom : ∀ d, domOn d t = domOn d s) : reportsOf l t = reportsOf l s := by
  have hclear : clearBits l t = clearBits l s := by simp [clearBits, fltReg, hflt]
  have hstamp : ∀ b, stamped b t = stamped b s := fun b => by simp [stamped, hbell]
  have hvector : vectorReports 3 t = vectorReports 3 s := by simp [vectorReports, hdom, hostOf, ha, hb, hstamp]
  simp [reportsOf, hclear, hstamp, hvector]

/-- Bits that are set ahead of a change of a domain that leaves its state are those set behind it. -/
theorem raises_modDom {l : List FltBit} {s t : State} (d : Nat) (f : Dom → Dom) (hf : ∀ x, (f x).state = x.state)
    (h : Raises l s t) : Raises l (modDom d f s) (modDom d f t) := by
  have hdom := fun e => domOn_modDom d e f hf s
  obtain ⟨hkeep, hflt, hbits, hfresh, hva, hvb⟩ := h
  refine ⟨?_, ?_, hbits, hfresh, ?_, ?_⟩
  · conv_lhs => rw [hkeep]
    rfl
  · have hreports : reportsOf l (modDom d f s) = reportsOf l s := reportsOf_congr l rfl rfl rfl rfl hdom
    rw [hreports]
    exact hflt
  all_goals
    unfold Vectored at *
    rw [hdom]
    assumption

theorem domBecomes_modDom (d : Nat) (f : Dom → Dom) (s : State) : DomBecomes d (f (domOf d s)) s (modDom d f s) :=
  ⟨rfl, fun j => domOf_modDom d j f s⟩

theorem markedRail_state (m : Side) (x : Dom) : (markedRail m x).state = x.state := by cases m <;> rfl

/-- The domain goes on in service with the monitor marked: it is no ENG domain, and the other one is not marked (R338). -/
theorem monitorsOut_markedRail (d : Nat) (m : Side) (x : Dom) :
    monitorsOut d (markedRail m x) = false ↔
      d < 14 ∧ ¬((markedRail m x).fail1 = true ∧ (markedRail m x).fail2 = true) := by
  unfold monitorsOut
  cases m <;> by_cases hd : 14 ≤ d <;> simp [markedRail, hd] <;> omega

theorem failMonitor_marked (d : Nat) (m : Side) (s : State)
    (h : ¬((domOf d s).state = .on ∨ (domOf d s).state = .ramp) ∨ monitorsOut d (markedRail m (domOf d s)) = false) :
    failMonitor d m s = modDom d (markedRail m) s := by
  rw [failMonitor_eq]
  rcases h with h | h
  · split
    · refine loseDomain_unsupplied d _ ?_
      rwa [domOf_modDom, if_pos rfl, markedRail_state]
    · rfl
  · rw [h]
    rfl

/-- A monitor whose failure the domain survives, or meets lost, is marked, and the bit that says so is set (R337, R338, R340). -/
theorem failMonitor_survived (d : Nat) (hd : d < 512) (m : Side) (b : Nat) (hb : b < 32) (s : State)
    (h : ¬((domOf d s).state = .on ∨ (domOf d s).state = .ramp) ∨ monitorsOut d (markedRail m (domOf d s)) = false) :
    ∃ u, DomBecomes d (markedRail m (domOf d s)) s u ∧ Raises [(clsDom, d, b)] u (failMonitor d m (sticky clsDom d b s)) := by
  refine ⟨modDom d (markedRail m) s, domBecomes_modDom d _ s, ?_⟩
  rw [failMonitor_marked d m _ (by rwa [domOf_sticky])]
  exact raises_modDom d _ (markedRail_state m) (raises_sticky clsDom d b hd hb s)

/-- A monitor whose failure leaves too few loses its domain in service (R338). -/
theorem failMonitor_lost (d : Nat) (m : Side) (b : Nat) (hb : b < 32) (s : State) (hon : (domOf d s).state = .on)
    (h : monitorsOut d (markedRail m (domOf d s)) = true) : DomainLost d b s (failMonitor d m (sticky clsDom d b s)) := by
  rw [failMonitor_eq, domOf_sticky, if_pos h]
  refine domainLost_loseDomain d b s _ ?_ ?_ ?_
  · rw [domOf_modDom, if_pos rfl, markedRail_state, domOf_sticky, hon]
  · exact sticky_bit clsDom d b hb s
  · simp [modDom_keeps, sticky_keeps]

/-- What reports of a monitor come to while they are heard (R336, R338, R350). -/
theorem execMonitorExcursion_eq (d : DomIx) (m : Side) (x : Option Excursion) (s : State) (hf : monFailed m (domOf d s) = false)
    (ht : s.pmc.tieNow ≠ some (d.val, m))
    (hst : (domOf d s).state = .on ∨ (domOf d s).state = .ramp ∨ (domOf d s).state = .lost) :
    execMonitorExcursion d m x s = .next (match x with
      | none => modDom d (backInside m) s
      | some e =>
        if (domOf d s).state = .ramp then modDom d (noteExcursion m e) s
        else loseDomain d (sticky clsDom d (if e = .under then 2 else 3) (modDom d (noteExcursion m e) s))) := by
  have hheard : monitorHeard d m s = true := by
    rcases hst with h | h | h <;> simp [monitorHeard, hf, ht, h]
  unfold execMonitorExcursion
  rw [hheard]
  rcases x with _ | e
  · rfl
  · cases e <;> simp

theorem execMonitorDisagreement_eq (d : DomIx) (m : Side) (s : State) (hf : monFailed m (domOf d s) = false)
    (ht : ∀ m', s.pmc.tieNow ≠ some (d.val, m')) (hst : (domOf d s).state = .on ∨ (domOf d s).state = .lost) :
    execMonitorDisagreement d m s = .next (failMonitor d m (sticky clsDom d 4 s)) := by
  have htested : (s.pmc.tieNow.any fun t => t.1 == d.val) = false := by
    rcases hn : s.pmc.tieNow with _ | ⟨j, m'⟩
    · rfl
    · have : j ≠ d.val := fun he => ht m' (by rw [hn, he])
      simpa using this
  unfold execMonitorDisagreement
  rcases hst with h | h <;> simp [h, hf, htested]

/-! ### Interlocks (R334, R335) -/

theorem retarget_disabled (now : Bell) (v : Nat) (x : Dom) : (retarget now v x).disabled = x.disabled := by
  unfold retarget
  split <;> rfl

/-- The device behind a phase that has been switched off, ahead of what that does to its domain (R335). -/
def phaseOff (d p : Nat) (s : State) : State :=
  sticky clsDom d 1 (modDom d (fun x => { x with disabled := x.disabled ||| (1#4 <<< p) }) s)

theorem disablePhase_cases (d p : Nat) (s : State) (h : phaseLive d p s = true) :
    disablePhase d p s = loseDomain d (phaseOff d p s) ∨
    (∃ v : Dom → Nat, disablePhase d p s = modDom d (fun x => retarget (phaseOff d p s).bell.time (v x) x) (phaseOff d p s)) ∨
    disablePhase d p s = phaseOff d p s := by
  have hlive : (decide (p < domNph d) && !(domOf d s).disabled.getLsbD p) = true := by
    simp only [phaseLive, Bool.and_eq_true] at h ⊢
    exact ⟨h.1.2, h.2⟩
  unfold disablePhase
  rw [if_pos hlive]
  dsimp only
  split
  · exact .inl rfl
  · split
    · exact .inr (.inl ⟨_, rfl⟩)
    · exact .inr (.inr rfl)

/-- A live phase that is disabled stays so and shows it, and no fault bit clears (R335). -/
theorem disablePhase_spec (d p : Nat) (hp : p < 4) (s : State) (h : phaseLive d p s = true) :
    (domOf d (disablePhase d p s)).disabled.getLsbD p = true ∧ (fltReg clsDom d (disablePhase d p s)).getLsbD 1 = true ∧
      FltMono s (disablePhase d p s) := by
  have hoff : (domOf d (phaseOff d p s)).disabled.getLsbD p = true := by
    rw [phaseOff, domOf_sticky, domOf_modDom, if_pos rfl]
    simp [hp]
  have hmono : FltMono s (phaseOff d p s) := by
    refine FltMono.trans ?_ (fltMono_sticky clsDom d 1 _)
    exact .of_bits rfl
  have hbit : (fltReg clsDom d (phaseOff d p s)).getLsbD 1 = true := sticky_bit clsDom d 1 (by decide) _
  rcases disablePhase_cases d p s h with he | ⟨v, he⟩ | he <;> rw [he]
  · have hlose := fltMono_loseDomain d (phaseOff d p s)
    refine ⟨?_, hlose _ _ _ hbit, hmono.trans hlose⟩
    rw [domOf_loseDomain]
    split <;> exact hoff
  · refine ⟨?_, hbit, hmono⟩
    rw [domOf_modDom, if_pos rfl, retarget_disabled]
    exact hoff
  · exact ⟨hoff, hbit, hmono⟩

/-- The device behind an interlock event that has been counted (R334). -/
def interlocked (d p : Nat) (s : State) : State := sticky clsDom d 0 (modDom d (noteXon s.bell.time p) s)

theorem execInterlockEvent_eq (d : DomIx) (ph : Fin 4) (s : State) (h : phaseLive d ph s = true) :
    execInterlockEvent d ph s = .next (
      if 3 ≤ ((noteXon s.bell.time ph (domOf d s)).xonAt.filter fun e => e.1 == ph.val).length then
        disablePhase d ph (interlocked d ph s)
      else interlocked d ph s) := by
  have hdom : domOf d (interlocked d ph s) = noteXon s.bell.time ph (domOf d s) := by
    rw [interlocked, domOf_sticky, domOf_modDom, if_pos rfl]
  unfold execInterlockEvent
  rw [if_pos h, ← hdom]
  rfl

/-- The phase switches on behind the event. -/
theorem phaseLive_interlocked (d p : Nat) (s : State) : phaseLive d p (interlocked d p s) = phaseLive d p s := by
  unfold phaseLive
  rw [interlocked, domOf_sticky, domOf_modDom, if_pos rfl]
  rfl

end Sys2Proof.Machine

namespace Sys2Proof.Machine

/-! ### VIO33, VLNK, VPCI and VPH18 (R247, R398 to R402) -/

/-- A group that drives an output high. -/
def drivesHigh (x : Grp) : Bool := x.tra || x.trb || x.srq

/-- A group as its read-back leaves it with VIO33 out (R247, R402). -/
def readBack (now : Bell) (land : Word) (x : Grp) : Grp := if drivesHigh x then lockedIfUsed now land x else x

theorem driveCheck_out (g : Nat) (s : State) (h : s33On s = false) :
    driveCheck g s = if drivesHigh (grpOf g s) then lockGroup g [9] s else s := by
  simp [driveCheck, drivesHigh, h]

theorem grpOf_driveCheck (g j : Nat) (s : State) (h : s33On s = false) :
    grpOf j (driveCheck g s) = if j = g then readBack s.bell.time s.bell.landNo (grpOf j s) else grpOf j s := by
  rw [driveCheck_out g s h, readBack]
  by_cases hj : j = g
  · subst hj
    split <;> simp [grpOf_lockGroup]
  · split <;> simp [grpOf_lockGroup, hj]

theorem readBack_twice (now : Bell) (land : Word) (x : Grp) : readBack now land (readBack now land x) = readBack now land x := by
  unfold readBack
  by_cases hx : drivesHigh x = true
  · rw [if_pos hx]
    split
    · exact lockedIfUsed_twice now land x
    · rfl
  · rw [if_neg hx, if_neg hx]

theorem not_drivesHigh_locked {x : Grp} (h : IsLocked x) : drivesHigh x = false := by
  obtain ⟨-, ha, hb, hs⟩ := h
  simp [drivesHigh, ha, hb, hs]

theorem lockGroup_bit (g b : Nat) (hb : b < 32) (s : State) (h : (grpOf g s).state ≠ .unused) :
    (fltReg clsSg g (lockGroup g [b] s)).getLsbD b = true := by
  have hx : ((grpOf g s).state == GrpState.unused) = false := by simpa using h
  simp only [lockGroup, hx]
  exact sticky_mono clsSg g 13 clsSg g b _ (sticky_bit clsSg g b hb _)

theorem fltMono_driveCheck (g : Nat) (s : State) : FltMono s (driveCheck g s) := by
  unfold driveCheck
  dsimp only
  split
  · exact fltMono_lockGroup g [9] s
  · exact .rfl

theorem driveCheck_saf (g : Nat) (s : State) : (driveCheck g s).saf = { s.saf with groups := (driveCheck g s).saf.groups } := by
  unfold driveCheck
  dsimp only
  split
  · rw [lockGroup_saf]
    split <;> rfl
  · rfl

/-- Every group, read back in turn. -/
def driveChecks (s : State) : State := forEach (s.saf.groups.map (·.1)) driveCheck s

theorem driveChecks_keeps (s : State) : driveChecks s =
    { s with saf := { s.saf with groups := (driveChecks s).saf.groups }, flt := (driveChecks s).flt
             ha := (driveChecks s).ha, hb := (driveChecks s).hb } := by
  have hsaf : (driveChecks s).saf = { s.saf with groups := (driveChecks s).saf.groups } :=
    forEach_ind (fun u => u.saf = { s.saf with groups := u.saf.groups }) _ driveCheck s rfl fun g _ u hu => by
      rw [driveCheck_saf, hu]
  apply state_eq <;> simp [driveChecks, driveCheck_keeps]
  exact hsaf

/-- With VIO33 out every group is read back. -/
theorem grpOf_driveChecks (s : State) (h : s33On s = false) (g : Nat) :
    grpOf g (driveChecks s) = readBack s.bell.time s.bell.landNo (grpOf g s) := by
  refine (forEach_update_all (fun u => u.bell = s.bell ∧ s33On u = false) .reset (·.saf.groups) driveCheck
    (fun _ => readBack s.bell.time s.bell.landNo) (fun _ => rfl) (fun _ => readBack_twice _ _) ?_ ?_ s ⟨rfl, h⟩).2 g
  · rintro k u ⟨hbell, hpins⟩
    refine ⟨by simpa [driveCheck_keeps] using hbell, ?_⟩
    simpa [s33On, driveCheck_keeps] using hpins
  · rintro k u ⟨hbell, hpins⟩ j
    exact hbell ▸ grpOf_driveCheck k j u hpins

/-- A configured group that drives an output high shows with VIO33 out that its read-back has locked it. -/
theorem driveChecks_bit (s : State) (h : s33On s = false) (g : Nat) (hu : (grpOf g s).state ≠ .unused)
    (hg : drivesHigh (grpOf g s) = true) : (fltReg clsSg g (driveChecks s)).getLsbD 9 = true := by
  have hinv : s33On (driveChecks s) = false ∧
      (grpOf g (driveChecks s) = grpOf g s ∨ (fltReg clsSg g (driveChecks s)).getLsbD 9 = true) := by
    refine forEach_ind (fun u => s33On u = false ∧ (grpOf g u = grpOf g s ∨ (fltReg clsSg g u).getLsbD 9 = true)) _ driveCheck s
      ⟨h, .inl rfl⟩ ?_
    rintro k - u ⟨hpins, hround⟩
    refine ⟨by simpa [s33On, driveCheck_keeps] using hpins, ?_⟩
    rcases hround with hsame | hset
    · by_cases hk : g = k
      · subst hk
        right
        rw [driveCheck_out _ _ hpins, hsame, if_pos hg]
        exact lockGroup_bit g 9 (by decide) u (by rwa [hsame])
      · left
        rw [grpOf_driveCheck _ _ _ hpins, if_neg hk, hsame]
    · exact .inr (fltMono_driveCheck k u _ _ _ hset)
  refine hinv.2.resolve_left fun hsame => ?_
  have hlocked : IsLocked (grpOf g (driveChecks s)) := by
    rw [grpOf_driveChecks s h, readBack, if_pos hg, lockedIfUsed, if_neg hu]
    exact isLocked_lockedGrp ..
  rw [hsame] at hlocked
  rw [not_drivesHigh_locked hlocked] at hg
  exact absurd hg nofun

/-- A port without the supply of its lines (R398, R402). -/
def unpowered (r : RPort) : RPort :=
  if r.link = .down then { r with txen := false }
  else { r with txen := false, link := .down, los := true, gaps := [], rxRd := none }

theorem portOf_unpowerPort (p q : Nat) (s : State) :
    portOf q (unpowerPort p s) = if q = p then unpowered (portOf q s) else portOf q s := by
  have hmod : ∀ f u, portOf q (modPort p f u) = if q = p then f (portOf q u) else portOf q u := by
    intro f u
    rw [modPort, portOf_setPort]
    by_cases hq : q = p
    · subst hq; simp
    · simp [hq]
  have hsticky : ∀ (c : Bool) u, portOf q (stickyIf c clsRing 0 2 u) = portOf q u := by
    intro c u
    simp [portOf, stickyIf_keeps]
  unfold unpowerPort linkDownAt unpowered
  by_cases hq : q = p
  · subst hq
    by_cases hl : (portOf q s).link = .down
    · simp [hl, hmod]
    · have hb : ((portOf q s).link == Link.down) = false := by simpa using hl
      simp [hl, hb, hsticky, portOf_setPort, hmod]
  · by_cases hl : (portOf p s).link = .down
    · simp [hl, hmod, hq]
    · have hb : ((portOf p s).link == Link.down) = false := by simpa using hl
      simp [hb, hsticky, portOf_setPort, hmod, hq]

theorem unpowered_twice (r : RPort) : unpowered (unpowered r) = unpowered r := by
  unfold unpowered
  by_cases h : r.link = .down <;> simp [h]

theorem portOf_unpowerPorts (s : State) (p : Nat) :
    portOf p (forEach (s.ports.map (·.1)) unpowerPort s) = unpowered (portOf p s) :=
  (forEach_update_all (fun _ => True) RPort.reset (·.ports) unpowerPort (fun _ => unpowered) (fun _ => rfl)
    (fun _ => unpowered_twice) (fun _ _ _ => trivial) (fun k u _ j => portOf_unpowerPort k j u) s trivial).2 p

theorem fltMono_unpowerPort (p : Nat) (s : State) : FltMono s (unpowerPort p s) := by
  have hmod : FltMono s (modPort p (fun r => { r with txen := false }) s) := .of_bits rfl
  unfold unpowerPort
  dsimp only
  split
  · exact hmod
  · refine hmod.trans (FltMono.trans ?_ (fltMono_stickyIf _ clsRing 0 2 _))
    exact .of_bits rfl

theorem linkShows_congr (p : Nat) {s u : State} (hdev : u.dev = s.dev) (himg : u.img = s.img) : linkShows p u = linkShows p s := by
  simp [linkShows, inService, portRing, ringCfg, hdev, himg]

theorem unpowerPort_bit (p : Nat) (s : State) (hup : (portOf p s).link = .up) (hshows : linkShows p s = true) :
    (fltReg clsRing 0 (unpowerPort p s)).getLsbD 2 = true := by
  have hmod : portOf p (modPort p (fun r => { r with txen := false }) s) = { portOf p s with txen := false } := by
    rw [modPort, portOf_setPort, if_pos rfl]
  have hs : linkShows p (modPort p (fun r => { r with txen := false }) s) = true := hshows
  have hb : ((portOf p s).link == Link.down) = false := by rw [hup]; rfl
  have hq : ((portOf p s).link == Link.up && linkShows p (modPort p (fun r => { r with txen := false }) s)) = true := by
    rw [hup, hs]
    rfl
  rw [unpowerPort, hb, if_neg nofun, linkDownAt, hmod]
  dsimp only
  rw [hq, stickyIf, if_pos rfl]
  exact sticky_bit clsRing 0 2 (by decide) _

/-- A port in use whose link was up shows that VLNK has taken it down (R80). -/
theorem unpowerPorts_bit (s : State) (p : Nat) (hup : (portOf p s).link = .up) (hshows : linkShows p s = true) :
    (fltReg clsRing 0 (forEach (s.ports.map (·.1)) unpowerPort s)).getLsbD 2 = true := by
  have hinv : ∀ t, t = forEach (s.ports.map (·.1)) unpowerPort s →
      linkShows p t = true ∧ (portOf p t = portOf p s ∨ (fltReg clsRing 0 t).getLsbD 2 = true) := by
    rintro t rfl
    refine forEach_ind (fun u => linkShows p u = true ∧ (portOf p u = portOf p s ∨ (fltReg clsRing 0 u).getLsbD 2 = true)) _
      unpowerPort s ⟨hshows, .inl rfl⟩ ?_
    rintro k - u ⟨hu, hround⟩
    refine ⟨(linkShows_congr p (by simp [unpowerPort_keeps]) (by simp [unpowerPort_keeps])).trans hu, ?_⟩
    rcases hround with hsame | hset
    · by_cases hk : p = k
      · subst hk
        right
        exact unpowerPort_bit p u (by rw [hsame, hup]) hu
      · left
        rw [portOf_unpowerPort, if_neg hk, hsame]
    · exact .inr (fltMono_unpowerPort k u _ _ _ hset)
  refine (hinv _ rfl).2.resolve_left fun hsame => ?_
  rw [portOf_unpowerPorts] at hsame
  have := congrArg RPort.link hsame
  simp [unpowered, hup] at this

end Sys2Proof.Machine

namespace Sys2Proof.Machine

/-! ### The supplies that change (R398 to R402) -/

/-- The ports of a ring drive again, each of them by its own domain (R398). -/
theorem portOf_driveRing (k p : Nat) (s : State) (hv : s.pins.vlnk = true) :
    portOf p (driveRing k s) =
      if p ∈ ringPorts k s then { portOf p s with txen := domOn (portDom p) s } else portOf p s := by
  refine (forEach_update (fun _ => True) portOf
    (fun p => modPort p fun r => { r with txen := domOn (portDom p) s && s.pins.vlnk })
    (fun p r => { r with txen := domOn (portDom p) s }) (fun _ _ => rfl) (fun _ _ _ => trivial) ?_ (ringPorts k s) s trivial).2 p
  intro p u _ j
  rw [modPort, portOf_setPort, hv, Bool.and_true]
  by_cases hj : j = p
  · rw [if_pos hj, if_pos hj, hj]
  · rw [if_neg hj, if_neg hj]

/-- A ring with ports is in use. -/
theorem mem_cfgRings_of_ringPorts {k p : Nat} {s : State} (h : p ∈ ringPorts k s) : k ∈ cfgRings s := by
  have hmode : (ringCfg k s).mode ≠ 0 := by
    intro h0
    simp [ringPorts, h0] at h
  refine List.mem_map.mpr ⟨(k, ringCfg k s), List.mem_filter.mpr ⟨?_, by simpa using hmode⟩, rfl⟩
  refine (mem_of_tabGet _ s.img.cfg.rings k).resolve_left fun he => hmode ?_
  rw [ringCfg, he]

theorem driveRing_ports (k : Nat) (s : State) : driveRing k s = { s with ports := (driveRing k s).ports } := by
  apply state_eq <;> simp [driveRing_keeps]

/-- The ports of the rings in a list drive again, and no other. -/
theorem portOf_driveRings (l : List Nat) (s : State) (hv : s.pins.vlnk = true) :
    let t := forEach l driveRing s
    t = { s with ports := t.ports } ∧
      ∀ p, ((∃ k ∈ l, p ∈ ringPorts k s) → portOf p t = { portOf p s with txen := domOn (portDom p) s }) ∧
        ((¬∃ k ∈ l, p ∈ ringPorts k s) → portOf p t = portOf p s) := by
  induction l using List.reverseRecOn with
  | nil => exact ⟨rfl, fun p => ⟨nofun, fun _ => rfl⟩⟩
  | append_singleton l k ih =>
    obtain ⟨hkeep, hports⟩ := ih
    have e : forEach (l ++ [k]) driveRing s = driveRing k (forEach l driveRing s) := by simp [forEach]
    have hround : ∀ p, portOf p (driveRing k (forEach l driveRing s)) =
        if p ∈ ringPorts k s then { portOf p (forEach l driveRing s) with txen := domOn (portDom p) s }
        else portOf p (forEach l driveRing s) := by
      intro p
      rw [portOf_driveRing k p _ (by rw [hkeep]; exact hv), hkeep]
      rfl
    rw [e]
    refine ⟨by rw [driveRing_ports, hkeep], fun p => ?_⟩
    obtain ⟨hin, hout⟩ := hports p
    rw [hround]
    by_cases hk : p ∈ ringPorts k s
    · refine ⟨fun _ => ?_, fun hn => absurd ⟨k, by simp, hk⟩ hn⟩
      by_cases hl : ∃ k ∈ l, p ∈ ringPorts k s
      · simp [hk, hin hl]
      · simp [hk, hout hl]
    · have hsame : (∃ j ∈ l ++ [k], p ∈ ringPorts j s) ↔ ∃ j ∈ l, p ∈ ringPorts j s := by
        simp [or_and_right, exists_or, hk]
      rw [hsame, if_neg hk]
      exact ⟨hin, hout⟩

/-- A vector on its way changes nothing of its port but what is pending and what is sent. -/
theorem sendVector_eq (v : Nat) (h : PortSt) :
    sendVector v h = { h with msixPend := (sendVector v h).msixPend, sent := (sendVector v h).sent } := by
  unfold sendVector
  split
  · split <;> rfl
  · split <;> rfl

theorem raiseAt_link (p q : HostId) (v : Nat) (s : State) : (hostOf q (raiseAt p v s)).link = (hostOf q s).link := by
  rw [hostOf_raiseAt]
  split
  · rename_i h
    dsimp only
    rw [h.1, apply_ite PortSt.link, sendVector_eq]
    exact ite_self _
  · rfl

theorem linkLost_hosts (p q : HostId) (s : State) (h : p = q ∨ (hostOf q s).link = false) :
    (hostOf q (linkLost p s)).link = false := by
  have hreset : (hostOf q (modHost p resetPort s)).link = false := by
    rw [modHost, hostOf_setHost]
    by_cases hp : q = p
    · rw [if_pos hp]
      rfl
    · rw [if_neg hp]
      exact h.resolve_left (Ne.symm hp)
  unfold linkLost
  dsimp only
  split
  · rw [raiseAt_link, hreset]
  · exact hreset

/-- A port that drops its link, or had none, has none (R278). -/
theorem dropLink_link (p q : HostId) (s : State) (h : p = q ∨ (hostOf q s).link = false) : (hostOf q (dropLink p s)).link = false := by
  unfold dropLink
  split
  · exact linkLost_hosts p q s h
  · rename_i hdown
    rcases h with rfl | h
    · simpa using hdown
    · exact h

/-- Both links drop (R400). -/
theorem dropLinks_spec (s : State) :
    let t := dropLink .hb (dropLink .ha s)
    t.ha.link = false ∧ t.hb.link = false ∧ t.pins = s.pins ∧ t.dev = s.dev ∧ t.saf = s.saf ∧ t.man = s.man ∧ t.frame = s.frame := by
  refine ⟨?_, ?_, by simp [dropLink_keeps], by simp [dropLink_keeps], by simp [dropLink_keeps], by simp [dropLink_keeps],
    by simp [dropLink_keeps]⟩
  · exact dropLink_link .hb .ha _ (.inr (dropLink_link .ha .ha s (.inl rfl)))
  · exact dropLink_link .hb .hb _ (.inl rfl)

/-! ### What the supplies' rows come to -/

theorem execVio33Loss_drives (s : State) (hon : domOn 12 s = true) (hin : s.pins.vio33 = true) :
    execVio33Loss s = .next (driveChecks { s with pins := { s.pins with vio33 := false } }) := by
  simp [execVio33Loss, safioOn, hon, hin, driveChecks]

/-- Without VIO33 each group that drove an output high is locked, and shows its read-back; nothing else changes (R247, R402). -/
theorem execVio33Loss_spec (s : State) (hon : domOn 12 s = true) (hin : s.pins.vio33 = true) :
    let high := fun g => (grpOf g s).tra = true ∨ (grpOf g s).trb = true ∨ (grpOf g s).srq = true
    ∃ t, exec .vio33Loss s = .next t ∧ t.pins = { s.pins with vio33 := false } ∧
      (∀ g, (grpOf g s).state ≠ .unused → high g → IsLocked (grpOf g t) ∧ (fltReg clsSg g t).getLsbD 9 = true) ∧
      (∀ g, ¬high g → grpOf g t = grpOf g s) ∧
      t = { s with pins := t.pins, saf := { s.saf with groups := t.saf.groups }, flt := t.flt, ha := t.ha, hb := t.hb } := by
  intro high
  let u : State := { s with pins := { s.pins with vio33 := false } }
  have hout : s33On u = false := by simp [u, s33On]
  have hhigh : ∀ g, high g ↔ drivesHigh (grpOf g u) = true := by
    intro g
    show _ ↔ drivesHigh (grpOf g s) = true
    simp [high, drivesHigh, or_assoc]
  have hkeeps := driveChecks_keeps u
  have hgrp := grpOf_driveChecks u hout
  refine ⟨_, execVio33Loss_drives s hon hin, by rw [hkeeps], fun g hu hg => ⟨?_, ?_⟩, fun g hg => ?_, ?_⟩
  · rw [hgrp, readBack, if_pos ((hhigh g).1 hg), lockedIfUsed, if_neg (show ¬(grpOf g u).state = .unused from hu)]
    exact isLocked_lockedGrp ..
  · exact driveChecks_bit u hout g hu ((hhigh g).1 hg)
  · rw [hgrp, readBack, if_neg fun h => hg ((hhigh g).2 h)]
    rfl
  · rw [hkeeps]

/-- Without VLNK no port drives and every link is down; LINK_DOWN shows for a port in use (R80, R398). -/
theorem execVlnkLoss_lost (s : State) (hin : s.pins.vlnk = true) :
    ∃ t, exec .vlnkLoss s = .next t ∧ t.pins = { s.pins with vlnk := false } ∧ (∀ p, portOf p t = unpowered (portOf p s)) ∧
      (∀ p, (portOf p s).link = .up → linkShows p s = true → (fltReg clsRing 0 t).getLsbD 2 = true) := by
  let u : State := { s with pins := { s.pins with vlnk := false } }
  refine ⟨forEach (u.ports.map (·.1)) unpowerPort u, ?_, ?_, ?_, ?_⟩
  · simp [exec, execVlnkLoss, hin, u]
  · simp [unpowerPort_keeps, u]
  · exact portOf_unpowerPorts u
  · exact fun p => unpowerPorts_bit u p

/-- With VLNK back the configured ports drive again where commits run (R400). -/
theorem execVlnkLoss_back (s : State) (hout : s.pins.vlnk = false) :
    ∃ t, exec .vlnkLoss s = .next t ∧ t = { s with pins := { s.pins with vlnk := true }, ports := t.ports } ∧
      ∀ p : PortIx,
        let drives := commits s = true ∧ ∃ k, p.val ∈ ringPorts k s
        (drives → portOf p t = { portOf p s with txen := domOn (portDom p) s }) ∧ (¬drives → portOf p t = portOf p s) := by
  let u : State := { s with pins := { s.pins with vlnk := true } }
  cases hc : commits s
  · refine ⟨u, by simp [exec, execVlnkLoss, hout, hc, u], rfl, fun p => ⟨fun h => ?_, fun _ => rfl⟩⟩
    exact absurd h.1 nofun
  · obtain ⟨hkeep, hports⟩ := portOf_driveRings (cfgRings s) u rfl
    refine ⟨forEach (cfgRings s) driveRing u, by simp [exec, execVlnkLoss, hout, hc, u], hkeep, fun p => ?_⟩
    obtain ⟨hin, hno⟩ := hports p
    refine ⟨fun h => hin ?_, fun h => hno fun hex => h ⟨rfl, ?_⟩⟩
    · obtain ⟨-, k, hk⟩ := h
      exact ⟨k, mem_cfgRings_of_ringPorts hk, hk⟩
    · obtain ⟨k, -, hk⟩ := hex
      exact ⟨k, hk⟩

/-- Without VPCI or VPH18 both host links are down (R400). -/
theorem execVpciLoss_lost (b : Bool) (s : State) (h : (if b then s.pins.vph18 else s.pins.vpci) = true) :
    ∃ t, exec (.vpciLoss b) s = .next t ∧ t.ha.link = false ∧ t.hb.link = false ∧
      t.pins = (if b then { s.pins with vph18 := false } else { s.pins with vpci := false }) ∧ t.dev = s.dev ∧
      t.saf = s.saf ∧ t.man = s.man ∧ t.frame = s.frame := by
  cases b
  · exact ⟨_, by simp at h; simp [exec, execVpciLoss, h], dropLinks_spec { s with pins := { s.pins with vpci := false } }⟩
  · exact ⟨_, by simp at h; simp [exec, execVpciLoss, h], dropLinks_spec { s with pins := { s.pins with vph18 := false } }⟩

/-- VTRK out of range is the safe state (R330). -/
theorem execTrunkFault_spec (x : Excursion) (s : State) (hon : domOn 1 s = true) (hcalm : s.dev.safe = false) :
    ∃ u t, exec (.trunkFault x) s = .next t ∧
      Raises [(clsPmc, 0, if x = .under then 0 else 1)] { s with pins := { s.pins with vtrk := false } } u ∧
      EntersSafe 0x05 u t := by
  have enters : ∀ b : Nat, EntersSafe 0x05 (sticky clsPmc 0 b { s with pins := { s.pins with vtrk := false } })
      (enterSafe 0x05 (sticky clsPmc 0 b { s with pins := { s.pins with vtrk := false } })) := fun b =>
    entersSafe_enterSafe 0x05 _ (by simpa [sticky_keeps] using hcalm)
  cases x
  · exact ⟨_, _, by simp [exec, execTrunkFault, hon], raises_sticky clsPmc 0 0 (by decide) (by decide) _, enters 0⟩
  · exact ⟨_, _, by simp [exec, execTrunkFault, hon], raises_sticky clsPmc 0 1 (by decide) (by decide) _, enters 1⟩

end Sys2Proof.Machine

namespace Sys2Proof.Machine

/-! ### What a monitor's rows come to (R336 to R340) -/

theorem noteExcursion_state (m : Side) (e : Excursion) (x : Dom) : (noteExcursion m e x).state = x.state := by
  cases m <;> cases e <;> rfl

/-- An excursion of a domain in service loses it, with the flag of the monitor that saw it (R336, R338). -/
theorem excursion_on (d : DomIx) (m : Side) (e : Excursion) (s : State) (hf : monFailed m (domOf d s) = false)
    (ht : s.pmc.tieNow ≠ some (d.val, m)) (hon : (domOf d s).state = .on) :
    ∃ t, exec (.monitorExcursion d m (some e)) s = .next t ∧ DomainLost d (if e = .under then 2 else 3) s t ∧
      domOf d t = lostRail (noteExcursion m e (domOf d s)) := by
  have hnot : ¬(domOf d s).state = .ramp := by rw [hon]; nofun
  have hx := execMonitorExcursion_eq d m (some e) s hf ht (.inl hon)
  dsimp only at hx
  rw [if_neg hnot] at hx
  have hdom : domOf d (sticky clsDom d (if e = .under then 2 else 3) (modDom d (noteExcursion m e) s)) =
      noteExcursion m e (domOf d s) := by
    rw [domOf_sticky, domOf_modDom, if_pos rfl]
  have hstate : (domOf d (sticky clsDom d (if e = .under then 2 else 3) (modDom d (noteExcursion m e) s))).state = .on := by
    rw [hdom, noteExcursion_state, hon]
  refine ⟨_, hx, domainLost_loseDomain d _ s _ hstate ?_ ?_, ?_⟩
  · exact sticky_bit clsDom d _ (by split <;> decide) _
  · simp [modDom_keeps, sticky_keeps]
  · rw [domOf_loseDomain, if_pos ⟨rfl, .inl hstate⟩, hdom]

/-- An excursion of a domain that ramps is noted (log 131). -/
theorem excursion_ramp (d : DomIx) (m : Side) (e : Excursion) (s : State) (hf : monFailed m (domOf d s) = false)
    (ht : s.pmc.tieNow ≠ some (d.val, m)) (hramp : (domOf d s).state = .ramp) :
    ∃ t, exec (.monitorExcursion d m (some e)) s = .next t ∧ DomBecomes d (noteExcursion m e (domOf d s)) s t := by
  have hx := execMonitorExcursion_eq d m (some e) s hf ht (.inr (.inl hramp))
  dsimp only at hx
  rw [if_pos hramp] at hx
  exact ⟨_, hx, domBecomes_modDom d (noteExcursion m e) s⟩

/-- An excursion of a lost domain is noted and shown (R336). -/
theorem excursion_lost (d : DomIx) (m : Side) (e : Excursion) (s : State) (hf : monFailed m (domOf d s) = false)
    (ht : s.pmc.tieNow ≠ some (d.val, m)) (hlost : (domOf d s).state = .lost) :
    ∃ u t, exec (.monitorExcursion d m (some e)) s = .next t ∧ DomBecomes d (noteExcursion m e (domOf d s)) s u ∧
      Raises [(clsDom, d.val, if e = .under then 2 else 3)] u t := by
  have hnot : ¬(domOf d s).state = .ramp := by rw [hlost]; nofun
  have hx := execMonitorExcursion_eq d m (some e) s hf ht (.inr (.inr hlost))
  dsimp only at hx
  rw [if_neg hnot, loseDomain_unsupplied] at hx
  · have hd : d.val < 512 := Nat.lt_trans d.isLt (by decide)
    exact ⟨_, _, hx, domBecomes_modDom d (noteExcursion m e) s, raises_sticky clsDom d _ hd (by split <;> decide) _⟩
  · rw [domOf_sticky, domOf_modDom, if_pos rfl, noteExcursion_state, hlost]
    nofun

theorem excursion_inside (d : DomIx) (m : Side) (s : State) (hf : monFailed m (domOf d s) = false)
    (ht : s.pmc.tieNow ≠ some (d.val, m))
    (hst : (domOf d s).state = .on ∨ (domOf d s).state = .ramp ∨ (domOf d s).state = .lost) :
    ∃ t, exec (.monitorExcursion d m none) s = .next t ∧ DomBecomes d (backInside m (domOf d s)) s t :=
  ⟨_, execMonitorExcursion_eq d m none s hf ht hst, domBecomes_modDom d (backInside m) s⟩

/-- A report that does not count changes nothing (R338, R340). -/
theorem excursion_unheard (d : DomIx) (m : Side) (x : Option Excursion) (s : State)
    (h : monFailed m (domOf d s) = true ∨ s.pmc.tieNow = some (d.val, m) ∨ (domOf d s).state = .off ∨ (domOf d s).state = .gated) :
    exec (.monitorExcursion d m x) s = .next s := by
  have hunheard : monitorHeard d m s = false := by
    rcases h with h | h | h | h <;> simp [monitorHeard, h]
  simp [exec, execMonitorExcursion, hunheard]

/-- A monitor is marked failed in the device u by the bit that says why: the domain goes on, or, of a domain in service, too few
are left (R338). -/
theorem failMonitor_spec (d : DomIx) (m : Side) (b : Nat) (hb : b < 32) (u : State) :
    let goesOn := d.val < 14 ∧ ¬((markedRail m (domOf d u)).fail1 = true ∧ (markedRail m (domOf d u)).fail2 = true)
    let t := failMonitor d m (sticky clsDom d b u)
    ((goesOn ∨ ¬((domOf d u).state = .on ∨ (domOf d u).state = .ramp)) →
      ∃ v, DomBecomes d (markedRail m (domOf d u)) u v ∧ Raises [(clsDom, d.val, b)] v t) ∧
    ((domOf d u).state = .on → ¬goesOn → DomainLost d b u t) := by
  intro goesOn t
  have hgoes : monitorsOut d (markedRail m (domOf d u)) = false ↔ goesOn := monitorsOut_markedRail d m (domOf d u)
  refine ⟨fun h => failMonitor_survived d (Nat.lt_trans d.isLt (by decide)) m b hb u ?_, fun hon hno => ?_⟩
  · exact h.symm.imp id hgoes.2
  · exact failMonitor_lost d m b hb u hon (by simpa using fun hf => hno (hgoes.1 hf))

theorem disagreement_tested (d : DomIx) (m m' : Side) (s : State) (h : s.pmc.tieNow = some (d.val, m')) :
    exec (.monitorDisagreement d m) s = .next s := by
  simp [exec, execMonitorDisagreement, h]

/-! ### Tie tests (R340) -/

theorem tieTest_starts (s : State) (hboot : s.dev.mode ≠ .boot) (hprove : s.dev.mode ≠ .prove) (h1 : domOn 1 s = true)
    (h13 : domOn 13 s = true) (hfree : s.pmc.tieNow = none) (hland : s.bell.landNo.toNat % 256 = 0) (hphase : s.bell.phase = 0) :
    exec .tieTest s = .next { s with pmc := { s.pmc with
      tieNow := some (s.pmc.tieNext / 2, if s.pmc.tieNext % 2 = 0 then .a else .b)
      tieNext := (s.pmc.tieNext + 1) % 60 } } := by
  simp [exec, execTieTest, tieTests, inService, hboot, hprove, h1, h13, hfree, hland, hphase]

theorem tieTestEnd_eq (d : DomIx) (m : Side) (pass : Bool) (s : State) (h : s.pmc.tieNow = some (d.val, m)) :
    exec (.tieTestEnd pass) s = .next (
      if pass then { s with pmc := { s.pmc with tieNow := none } }
      else failMonitor d m (sticky clsDom d 6 { s with pmc := { s.pmc with tieNow := none } })) := by
  simp [exec, execTieTestEnd, h]

/-! ### Interlock events (R334, R335) -/

/-- An interlock event of a live phase: it is counted, and the third within a second disables the phase (R334). -/
theorem interlockEvent_spec (d : DomIx) (ph : Fin 4) (s : State) (h : phaseLive d ph s = true) :
    let y := noteXon s.bell.time ph (domOf d s)
    let n := (y.xonAt.filter fun e => e.1 == ph.val).length
    (n < 3 → ∃ u t, exec (.interlockEvent d ph) s = .next t ∧ DomBecomes d y s u ∧ Raises [(clsDom, d.val, 0)] u t) ∧
    (3 ≤ n → ∃ t, exec (.interlockEvent d ph) s = .next t ∧ (domOf d t).disabled.getLsbD ph = true ∧
      (fltReg clsDom d t).getLsbD 0 = true ∧ (fltReg clsDom d t).getLsbD 1 = true) := by
  intro y n
  have hx := execInterlockEvent_eq d ph s h
  refine ⟨fun hn => ?_, fun hn => ?_⟩
  · rw [if_neg (by simpa [n] using hn)] at hx
    exact ⟨_, _, hx, domBecomes_modDom d (noteXon s.bell.time ph) s,
      raises_sticky clsDom d 0 (Nat.lt_trans d.isLt (by decide)) (by decide) _⟩
  · rw [if_pos hn] at hx
    obtain ⟨hoff, hdis, hmono⟩ := disablePhase_spec d ph ph.isLt (interlocked d ph s) (by rwa [phaseLive_interlocked])
    exact ⟨_, hx, hoff, hmono _ _ _ (sticky_bit clsDom d 0 (by decide) _), hdis⟩

end Sys2Proof.Machine

namespace Sys2Proof.Machine

/-! ### The thermal state (R345 to R347) -/

theorem thermCode_thermOfCode (n : Nat) (h : n ≤ 3) : thermCode (thermOfCode n) = n := by
  interval_cases n <;> rfl

theorem thermCode_le (t : ThermState) : thermCode t ≤ 3 := by cases t <;> decide

/-- The transitions of the last second behind one at this tick (R347). -/
def transNow (s : State) : List Bell := s.bell.time :: s.pmc.trans.filter fun x => elapsed s.bell.time x < 10000000

/-- The thermal state that follows a call: the ninth transition within a second holds the higher of the two (R347). -/
def thermNext (c : ThermState) (s : State) : ThermState :=
  if 9 ≤ (transNow s).length then thermOfCode (max (thermCode s.pmc.therm) (thermCode c)) else c

/-- The PMC behind a transition. -/
def thermMoved (c : ThermState) (s : State) : PmcSt :=
  { s.pmc with trans := transNow s, transTotal := satInc 0xFFFF s.pmc.transTotal, therm := thermNext c s
               latch := s.pmc.latch || decide (9 ≤ (transNow s).length) }

theorem thermTransition_eq (c : ThermState) (s : State) :
    thermTransition c s =
      let u := stickyIf (decide (9 ≤ (transNow s).length)) clsTherm 0 3 { s with pmc := thermMoved c s }
      if thermNext c s = s.pmc.therm then u else enterTherm (thermNext c s) u := by
  simp only [thermTransition, thermMoved, thermNext, transNow, decide_eq_true_eq, beq_iff_eq]
  rfl

theorem enterTherm_pmc (c : ThermState) (s : State) : (enterTherm c s).pmc = s.pmc := by
  cases c <;> simp [enterTherm, sticky_keeps, enterSafe_keeps]

theorem fltMono_enterTherm (c : ThermState) (s : State) : FltMono s (enterTherm c s) := by
  cases c
  · exact .rfl
  · exact fltMono_sticky clsTherm 0 0 s
  · exact fltMono_sticky clsTherm 0 1 s
  · exact (fltMono_sticky clsTherm 0 2 s).trans (fltMono_enterSafe _ _)

/-- What a new thermal state shows (R345, R346). -/
theorem enterTherm_shows (c : ThermState) (s : State) :
    (c = .warning → (fltReg clsTherm 0 (enterTherm c s)).getLsbD 0 = true) ∧
    (c = .throttle → (fltReg clsTherm 0 (enterTherm c s)).getLsbD 1 = true) ∧
    (c = .safe → (fltReg clsTherm 0 (enterTherm c s)).getLsbD 2 = true ∧ (enterTherm c s).dev.safe = true) := by
  refine ⟨?_, ?_, ?_⟩
  · rintro rfl
    exact sticky_bit clsTherm 0 0 (by decide) s
  · rintro rfl
    exact sticky_bit clsTherm 0 1 (by decide) s
  · rintro rfl
    exact ⟨fltMono_enterSafe _ _ _ _ _ (sticky_bit clsTherm 0 2 (by decide) s), enterSafe_safe _ _⟩

theorem thermTransition_pmc (c : ThermState) (s : State) : (thermTransition c s).pmc = thermMoved c s := by
  rw [thermTransition_eq]
  dsimp only
  split <;> simp [enterTherm_pmc, stickyIf_keeps]

/-- The ninth transition shows that the state is held (R347). -/
theorem thermTransition_held (c : ThermState) (s : State) (h : 9 ≤ (transNow s).length) :
    (fltReg clsTherm 0 (thermTransition c s)).getLsbD 3 = true := by
  have hbit : ∀ u, (fltReg clsTherm 0 (stickyIf (decide (9 ≤ (transNow s).length)) clsTherm 0 3 u)).getLsbD 3 = true := by
    intro u
    rw [stickyIf, if_pos (by simpa using h)]
    exact sticky_bit clsTherm 0 3 (by decide) u
  rw [thermTransition_eq]
  dsimp only
  split
  · exact hbit _
  · exact fltMono_enterTherm _ _ _ _ _ (hbit _)

/-- A transition that is not held enters the state called for. -/
theorem thermTransition_follows (c : ThermState) (s : State) (hc : c ≠ s.pmc.therm) (h : (transNow s).length < 9) :
    ∃ u, thermTransition c s = enterTherm c u := by
  have hnext : thermNext c s = c := by rw [thermNext, if_neg (by omega)]
  rw [thermTransition_eq, hnext]
  dsimp only
  rw [if_neg hc]
  exact ⟨_, rfl⟩

/-- The thermal state follows the indicators at the 16th tick (R345 to R347). -/
theorem thermalStateChange_spec (s : State) (hon : domOn 1 s = true) (hphase : s.bell.phase = 0) (hcall : s.pmc.call ≠ s.pmc.therm)
    (hn : s.pmc.callN = 16) (hheld : ¬(s.pmc.latch = true ∧ thermCode s.pmc.call < thermCode s.pmc.therm)) :
    ∃ t, exec .thermalStateChange s = .next t ∧ t.pmc = { s.pmc with
        trans := transNow s, transTotal := min 0xFFFF (s.pmc.transTotal + 1), therm := t.pmc.therm, latch := t.pmc.latch
        statSeen := thermStat t, cntSeen := thermCnt t } ∧
      ((transNow s).length < 9 → t.pmc.therm = s.pmc.call ∧ t.pmc.latch = s.pmc.latch ∧
        (s.pmc.call = .warning → (fltReg clsTherm 0 t).getLsbD 0 = true) ∧
        (s.pmc.call = .throttle → (fltReg clsTherm 0 t).getLsbD 1 = true) ∧
        (s.pmc.call = .safe → (fltReg clsTherm 0 t).getLsbD 2 = true ∧ t.dev.safe = true)) ∧
      (9 ≤ (transNow s).length → t.pmc.latch = true ∧ (fltReg clsTherm 0 t).getLsbD 3 = true ∧
        thermCode t.pmc.therm = max (thermCode s.pmc.therm) (thermCode s.pmc.call)) := by
  have hpmc := thermTransition_pmc s.pmc.call s
  have hcount : satInc 0xFFFF s.pmc.transTotal = min 0xFFFF (s.pmc.transTotal + 1) := by
    unfold satInc
    split <;> omega
  have hrow : exec .thermalStateChange s = .next (seeTherm (thermTransition s.pmc.call s)) := by
    have hfalls : (s.pmc.latch && decide (thermCode s.pmc.call < thermCode s.pmc.therm)) = false := by
      simpa using fun hl => Nat.not_lt.1 fun hlt => hheld ⟨hl, hlt⟩
    simp [exec, execThermalStateChange, hon, hphase, hcall, hn, hfalls]
  refine ⟨_, hrow, ?_, fun h => ?_, fun h => ?_⟩
  · simp [seeTherm, hpmc, thermMoved, hcount, thermStat, thermCnt]
  · obtain ⟨u, hu⟩ := thermTransition_follows s.pmc.call s hcall h
    have hshows := enterTherm_shows s.pmc.call u
    rw [← hu] at hshows
    refine ⟨?_, ?_, hshows⟩
    · simp [seeTherm, hpmc, thermMoved, thermNext, Nat.not_le.2 h]
    · simp [seeTherm, hpmc, thermMoved, Nat.not_le.2 h]
  · refine ⟨?_, thermTransition_held s.pmc.call s h, ?_⟩
    · simp [seeTherm, hpmc, thermMoved, h]
    · have hcode := thermCode_thermOfCode (max (thermCode s.pmc.therm) (thermCode s.pmc.call))
        (max_le (thermCode_le _) (thermCode_le _))
      simpa [seeTherm, hpmc, thermMoved, thermNext, h] using hcode

theorem thermalStateChange_early (s : State) (h : s.bell.phase ≠ 0 ∨ s.pmc.callN ≠ 16) :
    exec .thermalStateChange s = .next s := by
  rcases h with h | h <;> simp [exec, execThermalStateChange, h]

/-- A write of ones to THERM_FLT.HOVER lets the state go (R347, R390). -/
theorem thermHoverClear_spec (p : HostId) (s : State) (hup : hostUp p s = true) (hon : domOn 1 s = true) (hruns : bellRuns s = true)
    (hfresh : (freshReg clsTherm 0 s).getLsbD 3 = false) :
    ∃ t, exec (.thermHoverClear p) s = .next t ∧
      t = { s with flt := { s.flt with bits := t.flt.bits, faultN := t.flt.faultN }
                   pmc := { s.pmc with latch := false, hoverTick := s.pmc.hoverTick || s.pmc.latch } } ∧
      ∀ c i, i < 512 → fltReg c i t = if c = clsTherm ∧ i = 0 then fltReg c i s &&& ~~~8#32 else fltReg c i s := by
  have hmask : ((8 : Word) &&& ~~~freshReg clsTherm 0 s) = 8 := by
    refine BitVec.eq_of_getLsbD_eq fun i hi => ?_
    rw [BitVec.getLsbD_and, BitVec.getLsbD_not]
    by_cases h3 : i = 3
    · subst h3
      rw [hfresh]
      rfl
    · have h8 : (8 : Word).getLsbD i = false := by
        interval_cases i <;> simp_all
      rw [h8, Bool.false_and]
  have hreach : clsReach p clsTherm s = true := by simpa [clsReach, clsTherm] using hon
  have hrow : exec (.thermHoverClear p) s = .next (clearHover (clearFlt clsTherm 0 8 s)) := by
    have hw : w1c p clsTherm 0 8 s = clearHover (clearFlt clsTherm 0 8 s) := by
      unfold w1c
      simp only [hup, hreach, hruns, Bool.and_self, if_true]
      rw [hmask]
      rfl
    rw [← hw]
    rfl
  refine ⟨_, hrow, rfl, fun c i hi => ?_⟩
  have hreg : fltReg c i (clearHover (clearFlt clsTherm 0 8 s)) =
      fltReg c i (setFltReg clsTherm 0 (fltReg clsTherm 0 s &&& ~~~8) s) := rfl
  rw [hreg, fltReg_setFltReg]
  by_cases hc : c = clsTherm ∧ i = 0
  · obtain ⟨rfl, rfl⟩ := hc
    simp
  · rw [if_neg hc, if_neg fun he => hc ?_]
    simp only [clsTherm] at he ⊢
    omega

/-! ### Rails that slew (R327) -/

/-- While a rail slews, and for 2 us after, its window covers the old and the new setpoint (R327). -/
theorem domVref_retarget (d v n : Nat) (s : State) (hslew : (domOf d s).slew = none) (hv : v ≠ 0) (hnew : v ≠ (domOf d s).vset)
    (hn : n < 2 ^ 48) :
    let x := domOf d s
    let dist := if x.vset ≤ v then v - x.vset else x.vset - v
    let t := setDom d (retarget s.bell.time v x) s
    (domOf d t).vset = v ∧
    domVref d { t with bell := { t.bell with time := s.bell.time + BitVec.ofNat 48 n } } =
      if n < dist + 20 then (min x.vset v, max x.vset v) else (v, v) := by
  intro x dist t
  have hdom : ∀ b : BellSt, domOf d { t with bell := b } = { x with
      vset := v, slew := some { from_ := x.vset, at_ := s.bell.time, lo := min x.vset v, hi := max x.vset v } } := by
    intro b
    have ht : domOf d t = retarget s.bell.time v x := by rw [domOf_setDom, if_pos rfl]
    rw [show domOf d { t with bell := b } = domOf d t from rfl, ht]
    have hx : x.slew = none := hslew
    simp [retarget, show v ≠ x.vset from hnew, slewOf, railOf, hx]
  have helapsed : elapsed (s.bell.time + BitVec.ofNat 48 n) s.bell.time = n := by
    have hsub : s.bell.time + BitVec.ofNat 48 n - s.bell.time = BitVec.ofNat 48 n := by bv_omega
    rw [elapsed, hsub, BitVec.toNat_ofNat, Nat.mod_eq_of_lt hn]
  refine ⟨?_, ?_⟩
  · exact congrArg Dom.vset (hdom t.bell)
  · have hfilter : ∀ (c : Bool) (w : Slew), (some w).filter (fun _ => c) = if c then some w else none := by
      intro c w
      cases c <;> rfl
    simp only [domVref, hdom, slewOf, hv, if_false]
    by_cases h : n < dist + 20
    · simp [Option.filter, helapsed, slewTicks, dist] at h ⊢
      simp [h]
    · simp [Option.filter, helapsed, slewTicks, dist] at h ⊢
      simp [Nat.not_lt.2 h]

end Sys2Proof.Machine

namespace Sys2Proof.Machine

/-! ### The clauses of the statement -/

/-- What the rows of the other supplies do (R330, R398 to R402). -/
theorem supplies (s : State) :
    let noTrk : State := { s with pins := { s.pins with vtrk := false } }
    (domOn 1 s = true → s.dev.safe = false →
      (∃ u t, exec (.trunkFault .under) s = .next t ∧ Raises [(clsPmc, 0, 0)] noTrk u ∧ EntersSafe 0x05 u t) ∧
      (∃ u t, exec (.trunkFault .over) s = .next t ∧ Raises [(clsPmc, 0, 1)] noTrk u ∧ EntersSafe 0x05 u t)) ∧
    (domOn 1 s = false → ∀ x, exec (.trunkFault x) s = .next noTrk) ∧
    (s.pins.vio33 = false → exec .vio33Loss s = .next { s with pins := { s.pins with vio33 := true } }) ∧
    (s.pins.vpci = false → exec (.vpciLoss false) s = .next { s with pins := { s.pins with vpci := true } }) ∧
    (s.pins.vph18 = false → exec (.vpciLoss true) s = .next { s with pins := { s.pins with vph18 := true } }) ∧
    (domOn 12 s = false → s.pins.vio33 = true → exec .vio33Loss s = .next { s with pins := { s.pins with vio33 := false } }) := by
  intro noTrk
  refine ⟨fun hon hcalm => ⟨execTrunkFault_spec .under s hon hcalm, execTrunkFault_spec .over s hon hcalm⟩, fun hoff x => ?_,
    fun h => ?_, fun h => ?_, fun h => ?_, fun hoff h => ?_⟩
  · simp [exec, execTrunkFault, hoff, noTrk]
  · simp [exec, execVio33Loss, h]
  · simp [exec, execVpciLoss, h]
  · simp [exec, execVpciLoss, h]
  · simp [exec, execVio33Loss, safioOn, hoff, h]

/-- Settles O50: the rows of the supplies, monitors, interlocks and the thermal state each by their own rule, the effect of a lost
domain and of the safe state by the rules of those two operations. -/
theorem supplyAndHeat : Obligations.SupplyAndHeat := by
  unfold Obligations.SupplyAndHeat
  refine ⟨fun s => ?_, fun d m s => ?_, fun d v n s hslew hv hnew hn => domVref_retarget d v n s hslew hv hnew hn⟩
  · obtain ⟨htrk, hnotrk, h33, hpci, hph, h33off⟩ := supplies s
    exact ⟨htrk, hnotrk, h33, hpci, hph, execVlnkLoss_back s, h33off, execVio33Loss_spec s,
      execVlnkLoss_lost s, fun b => execVpciLoss_lost b s⟩
  · intro x now failed mark lost goesOn flagged
    have hfailed : failed x = monFailed m x := by cases m <;> rfl
    have hmark : mark = markedRail m x := by cases m <;> rfl
    have hback : (if m = .a then { x with uv1 := false, ov1 := false } else { x with uv2 := false, ov2 := false }) =
        backInside m x := by cases m <;> rfl
    have hlost : ∀ bit t, DomainLost d bit s t → lost bit t := fun _ _ h => h
    have hgoes : goesOn = (d.val < 14 ∧ ¬((markedRail m x).fail1 = true ∧ (markedRail m x).fail2 = true)) := by
      simp only [goesOn, hmark]
    refine ⟨fun hf ht => ⟨fun hon => ⟨?_, ?_⟩, fun hramp ex => ?_, fun hl ex => ?_, fun hst => ?_⟩, fun h ex => ?_,
      fun hf ht => ⟨fun h => ?_, fun hon hno => ?_⟩, fun m' h => disagreement_tested d m m' s h,
      fun hb hp h1 h13 hn hl hph => tieTest_starts s hb hp h1 h13 hn hl hph, fun ht => ?_, fun ph hlive => ?_,
      thermalStateChange_early s, thermalStateChange_spec s, fun p => thermHoverClear_spec p s⟩
    · obtain ⟨t, hrow, hl, hdom⟩ := excursion_on d m .under s (hfailed ▸ by simpa using hf) ht hon
      exact ⟨t, hrow, hl, by rw [hdom]; cases m <;> rfl⟩
    · obtain ⟨t, hrow, hl, hdom⟩ := excursion_on d m .over s (hfailed ▸ by simpa using hf) ht hon
      exact ⟨t, hrow, hl, by rw [hdom]; cases m <;> rfl⟩
    · exact excursion_ramp d m ex s (hfailed ▸ hf) ht hramp
    · exact excursion_lost d m ex s (hfailed ▸ hf) ht hl
    · rw [hback]
      exact excursion_inside d m s (hfailed ▸ hf) ht hst
    · exact excursion_unheard d m ex s (hfailed ▸ h)
    · rw [hmark]
      have hst : x.state = .on ∨ x.state = .lost := h.imp And.left id
      have hok : goesOn ∨ ¬(x.state = .on ∨ x.state = .ramp) := by
        rcases h with ⟨-, hg⟩ | hl
        · exact .inl hg
        · exact .inr (by rw [hl]; simp)
      obtain ⟨u, hu⟩ := (failMonitor_spec d m 4 (by decide) s).1 (hgoes ▸ hok)
      exact ⟨u, _, execMonitorDisagreement_eq d m s (hfailed ▸ hf) ht hst, hu⟩
    · refine ⟨_, execMonitorDisagreement_eq d m s (hfailed ▸ hf) ht (.inl hon), ?_⟩
      exact (failMonitor_spec d m 4 (by decide) s).2 hon (hgoes ▸ hno)
    · intro free
      have hend := fun pass => tieTestEnd_eq d m pass s ht
      refine ⟨hend true, fun h => ?_, fun hon hno => ?_⟩
      · rw [hmark]
        have hok : goesOn ∨ ¬(x.state = .on ∨ x.state = .ramp) := by
          rcases h with ⟨-, hg⟩ | hst
          · exact .inl hg
          · exact .inr (by rcases hst with hst | hst | hst <;> rw [hst] <;> simp)
        obtain ⟨u, hu⟩ := (failMonitor_spec d m 6 (by decide) free).1 (hgoes ▸ hok)
        exact ⟨u, _, hend false, hu⟩
      · exact ⟨_, hend false, (failMonitor_spec d m 6 (by decide) free).2 hon (hgoes ▸ hno)⟩
    · obtain ⟨hfew, hthird⟩ := interlockEvent_spec d ph s hlive
      refine ⟨hfew, hthird, _, rfl, ?_⟩
      rw [stickyIf, if_pos hlive]
      exact raises_sticky clsDom d 7 (Nat.lt_trans d.isLt (by decide)) (by decide) s

end Sys2Proof.Machine

/-! ## O53: the writes, links and silence of a host port (R118, R274 to R283, R300 to R302, R376 to R390) -/

namespace Sys2Proof.Machine

/-! ### A port written twice -/

theorem setHost_setHost (p : HostId) (x y : PortSt) (s : State) : setHost p x (setHost p y s) = setHost p x s := by cases p <;> rfl

theorem setHost_hostOf (p : HostId) (s : State) : setHost p (hostOf p s) s = s := by cases p <;> rfl

theorem modHost_setHost (p : HostId) (f : PortSt → PortSt) (y : PortSt) (s : State) :
    modHost p f (setHost p y s) = setHost p (f y) s := by
  rw [modHost, hostOf_setHost, if_pos rfl, setHost_setHost]

/-! ### A write request passes the receive FIFO (R19, log 115) -/

/-- A port behind a write request that its receive FIFO has taken and given on; h is the port ahead of it. -/
def rxThrough (h : PortSt) (w : Nat × List (Option Byte)) (y : PortSt) : PortSt := { y with rxFifo := (h.rxFifo ++ [w]).tail }

/-- The port as it holds the request behind those ahead of it. -/
def rxHeld (h : PortSt) (w : Nat × List (Option Byte)) : PortSt := { h with rxFifo := h.rxFifo ++ [w] }

theorem pushRx_eq (p : HostId) (w : Nat × List (Option Byte)) (s : State) :
    pushRx p w s = setHost p (rxHeld (hostOf p s) w) s := rfl

theorem popRx_setHost (p : HostId) (y : PortSt) (s : State) :
    popRx p (setHost p y s) = setHost p { y with rxFifo := y.rxFifo.tail } s := modHost_setHost p _ y s

/-- A change of the port that leaves the FIFO alone, made while the request is held. -/
theorem popRx_modHost_pushRx (p : HostId) (w : Nat × List (Option Byte)) (f : PortSt → PortSt)
    (hf : ∀ (h : PortSt) (l : List (Nat × List (Option Byte))), f { h with rxFifo := l } = { f h with rxFifo := l }) (s : State) :
    popRx p (modHost p f (pushRx p w s)) = setHost p (rxThrough (hostOf p s) w (f (hostOf p s))) s := by
  rw [pushRx_eq, modHost_setHost, popRx_setHost, rxHeld, hf]
  rfl

theorem popRx_pushRx (p : HostId) (w : Nat × List (Option Byte)) (s : State) :
    popRx p (pushRx p w s) = setHost p (rxThrough (hostOf p s) w (hostOf p s)) s := by
  rw [pushRx_eq, popRx_setHost]
  rfl

/-- What a vector does at a port has nothing to do with the requests it holds. -/
theorem vectored_popRx {v n : Nat} {p q : HostId} {u t : State} (h : Vectored v n q u t) :
    Vectored v n q (popRx p u) (popRx p t) := by
  have hpop : ∀ x : State, hostOf q (popRx p x) =
      if q = p then { hostOf q x with rxFifo := (hostOf q x).rxFifo.tail } else hostOf q x := by
    intro x
    rw [popRx, modHost, hostOf_setHost]
    split
    · rename_i hq
      rw [hq]
    · rfl
  have hdom : domOn (hostDom q) (popRx p u) = domOn (hostDom q) u := by simp [domOn, domOf, popRx, modHost_keeps]
  unfold Vectored at *
  rw [hpop, hpop, hdom, h]
  by_cases hq : q = p
  · rw [if_pos hq, if_pos hq]
    dsimp only
    split
    · rfl
    · split
      · rfl
      · split
        · split <;> rfl
        · split <;> rfl
  · rw [if_neg hq, if_neg hq]

/-- Bits that are set while a request is held are those set behind it. -/
theorem raises_popRx {l : List FltBit} {p : HostId} {u t : State} (h : Raises l u t) : Raises l (popRx p u) (popRx p t) := by
  obtain ⟨hkeep, hflt, hbits, hfresh, hva, hvb⟩ := h
  have hreg : ∀ x : State, (popRx p x).flt = x.flt := fun x => by simp [popRx, modHost_keeps]
  have hclear : clearBits l (popRx p u) = clearBits l u := by simp [clearBits, fltReg, hreg]
  have hirq : ∀ q, (hostOf q (popRx p u)).irqSt = (hostOf q u).irqSt := by
    intro q
    rw [popRx, modHost, hostOf_setHost]
    split
    · rename_i hq
      rw [hq]
    · rfl
  have hstamp : ∀ b, stamped b (popRx p u) = stamped b u := fun b => by simp [stamped, popRx, modHost_keeps]
  have hdom : ∀ d, domOn d (popRx p u) = domOn d u := fun d => by simp [domOn, domOf, popRx, modHost_keeps]
  have hreports : reportsOf l (popRx p u) = reportsOf l u := by
    simp [reportsOf, hclear, hstamp, vectorReports, hdom, hirq]
  refine ⟨?_, ?_, ?_, ?_, ?_, ?_⟩
  · rw [hkeep]
    cases p <;> rfl
  · rw [hreg, hreg, hreports]
    exact hflt
  · intro c i hi b
    rw [fltReg, fltReg, hreg, hreg]
    exact hbits c i hi b
  · intro c i hi ha hb b
    rw [freshReg, freshReg, hreg, hreg]
    exact hfresh c i hi ha hb b
  · rw [hclear]
    exact vectored_popRx hva
  · rw [hclear]
    exact vectored_popRx hvb

/-- A bit of HOST_FLT that a request sets while it is held. -/
theorem raises_popRx_sticky (p : HostId) (w : Nat × List (Option Byte)) (b : Nat) (hb : b < 32) (f : PortSt → PortSt)
    (hf : ∀ (h : PortSt) (l : List (Nat × List (Option Byte))), f { h with rxFifo := l } = { f h with rxFifo := l }) (s : State) :
    Raises [(clsHost p, 0, b)] (setHost p (rxThrough (hostOf p s) w (f (hostOf p s))) s)
      (popRx p (sticky (clsHost p) 0 b (modHost p f (pushRx p w s)))) := by
  have h := raises_popRx (p := p) (raises_sticky (clsHost p) 0 b (by decide) hb (modHost p f (pushRx p w s)))
  rwa [popRx_modHost_pushRx p w f hf] at h

theorem modHost_id (p : HostId) (s : State) : modHost p (fun h => h) s = s := setHost_hostOf p s

/-! ### Bytes with their enables (R382) -/

theorem memGet_memStoreEn (m : Mem) (a : Nat) (l : List (Option Byte)) (b : Nat) :
    memGet (memStoreEn m a l) b = if a ≤ b ∧ b < a + l.length then (l.getD (b - a) none).getD (memGet m b) else memGet m b := by
  induction l generalizing m a with
  | nil => simp [memStoreEn]
  | cons x t ih =>
    obtain ⟨u, hu, hfirst⟩ : ∃ u, memStoreEn m a (x :: t) = memStoreEn u (a + 1) t ∧
        ∀ c, memGet u c = if c = a then x.getD (memGet m c) else memGet m c := by
      cases x with
      | none => exact ⟨m, rfl, fun c => by simp⟩
      | some v => exact ⟨memSet m a v, rfl, fun c => by simp [memGet_memSet]⟩
    rw [hu, ih, hfirst]
    by_cases hb : b = a
    · subst hb
      simp
    · by_cases h : a ≤ b ∧ b < a + (t.length + 1)
      · obtain ⟨k, hk⟩ : ∃ k, b - a = k + 1 := ⟨b - a - 1, by omega⟩
        have hk' : b - (a + 1) = k := by omega
        have hin : a + 1 ≤ b ∧ b < a + 1 + t.length := by omega
        rw [if_pos hin, List.length_cons, if_pos h, hk, hk', if_neg hb]
        rfl
      · have hout : ¬(a + 1 ≤ b ∧ b < a + 1 + t.length) := by omega
        rw [if_neg hout, List.length_cons, if_neg h, if_neg hb]

end Sys2Proof.Machine

namespace Sys2Proof.Machine

/-! ### BAR2 (R276, R309, R382) -/

theorem bar2Region_window {off : Nat} (h : off < 0x800000) : (bar2Region off).2 = 0x800000 := by simp [bar2Region, h]

theorem bar2Region_mailbox {off : Nat} (h : off < 0x1000) : (bar2Region (0x800000 + off)).2 = 0x801000 := by
  have hlow : ¬(0x800000 + off < 0x800000) := by omega
  have hhigh : 0x800000 + off < 0x801000 := by omega
  simp [bar2Region, hlow, hhigh]

/-- A request past the end of its region (R274, R382). -/
theorem bar2Write_past (p : HostId) (off : Nat) (data : List (Option Byte)) (bad : Bool) (s : State) (hup : hostUp p s = true)
    (h : (bar2Region off).2 < off + data.length) :
    HostBecomes p (rxThrough (hostOf p s) (off, data) { hostOf p s with aerUr := true }) s (bar2Write p off data bad s) := by
  simp only [bar2Write, hup, h, Bool.not_true, if_true, Bool.false_eq_true, if_false, unsupported]
  exact popRx_modHost_pushRx p (off, data) (fun h => { h with aerUr := true }) (fun _ _ => rfl) s

/-- Poisoned data (R303, R381). -/
theorem bar2Write_poisoned (p : HostId) (off : Nat) (data : List (Option Byte)) (s : State) (hup : hostUp p s = true)
    (h : off + data.length ≤ (bar2Region off).2) :
    Raises [(clsHost p, 0, 7)] (setHost p (rxThrough (hostOf p s) (off, data) { hostOf p s with aerPoison := true }) s)
      (bar2Write p off data true s) := by
  simp only [bar2Write, hup, Nat.not_lt.2 h, Bool.not_true, if_true, Bool.false_eq_true, if_false, poisonedReq]
  exact raises_popRx_sticky p (off, data) 7 (by decide) (fun h => { h with aerPoison := true }) (fun _ _ => rfl) s

/-- Data that is taken (R276). -/
theorem bar2Write_stores (p : HostId) (off : Nat) (data : List (Option Byte)) (s : State) (hup : hostUp p s = true)
    (h : off + data.length ≤ (bar2Region off).2) :
    bar2Write p off data false s = popRx p (bar2Store p off data (pushRx p (off, data) s)) := by
  simp only [bar2Write, hup, Nat.not_lt.2 h, Bool.not_true, Bool.false_eq_true, if_false]

theorem bar2Store_boot (p : HostId) (off : Nat) (data : List (Option Byte)) (s : State) (hoff : off < 0x800000)
    (hboot : s.dev.mode = .boot) :
    bar2Store p off data s =
      if windowOpenAt p s then modHost p (fun h => { h with window := memStoreEn h.window off data }) s else s := by
  simp [bar2Store, hoff, hboot]

theorem bar2Store_locked (p : HostId) (off : Nat) (data : List (Option Byte)) (s : State) (hoff : off < 0x800000)
    (hboot : s.dev.mode ≠ .boot) : bar2Store p off data s = sticky (clsHost p) 0 6 s := by
  simp [bar2Store, hoff, hboot]

theorem bar2Store_mailbox (p : HostId) (off : Nat) (data : List (Option Byte)) (s : State) (hoff : off < 0x1000) :
    bar2Store p (0x800000 + off) data s = modHost p (fun h => { h with mailbox := memStoreEn h.mailbox off data }) s := by
  have hlow : ¬(0x800000 + off < 0x800000) := by omega
  have hhigh : 0x800000 + off < 0x801000 := by omega
  have hsub : 0x800000 + off - 0x800000 = off := by omega
  simp only [bar2Store, hlow, hhigh, hsub, if_true, if_false]

theorem pushRx_dev (p : HostId) (w : Nat × List (Option Byte)) (s : State) : (pushRx p w s).dev = s.dev := by
  simp [pushRx, modHost_keeps]

theorem windowOpenAt_pushRx (p q : HostId) (w : Nat × List (Option Byte)) (s : State) :
    windowOpenAt q (pushRx p w s) = windowOpenAt q s := by
  simp [windowOpenAt, pushRx, modHost_keeps]

/-- Writes into the image load window (R276, R309). -/
theorem imageWindowWrite_spec (p : HostId) (s : State) (hup : hostUp p s = true) (off : BitVec 23) (data : List (Option Byte)) :
    let h := hostOf p s
    let n := off.toNat
    let thru := rxThrough h (n, data)
    (n + data.length ≤ 0x800000 →
      (s.dev.mode = .boot → windowOpenAt p s = true → ∃ t y, exec (.imageWindowWrite p off data false) s = .next t ∧
        HostBecomes p (thru { h with window := y }) s t ∧
        ∀ a, memGet y a = if n ≤ a ∧ a < n + data.length then (data.getD (a - n) none).getD (memGet h.window a)
          else memGet h.window a) ∧
      (s.dev.mode = .boot → windowOpenAt p s = false → ∃ t, exec (.imageWindowWrite p off data false) s = .next t ∧
        HostBecomes p (thru h) s t) ∧
      (s.dev.mode ≠ .boot → ∃ t, exec (.imageWindowWrite p off data false) s = .next t ∧
        Raises [(clsHost p, 0, 6)] (setHost p (thru h) s) t) ∧
      ∃ t, exec (.imageWindowWrite p off data true) s = .next t ∧
        Raises [(clsHost p, 0, 7)] (setHost p (thru { h with aerPoison := true }) s) t) ∧
    (0x800000 < n + data.length → ∀ bad, ∃ t, exec (.imageWindowWrite p off data bad) s = .next t ∧
      HostBecomes p (thru { h with aerUr := true }) s t) := by
  intro h n thru
  have hn : n < 0x800000 := off.isLt
  have hend : (bar2Region n).2 = 0x800000 := bar2Region_window hn
  refine ⟨fun hfit => ?_, fun hpast bad => ⟨_, rfl, bar2Write_past p n data bad s hup (by rw [hend]; exact hpast)⟩⟩
  have hstores := bar2Write_stores p n data s hup (by rw [hend]; exact hfit)
  refine ⟨fun hboot hopen => ⟨_, memStoreEn h.window n data, rfl, ?_, memGet_memStoreEn _ _ _⟩, fun hboot hclosed => ⟨_, rfl, ?_⟩,
    fun hmode => ⟨_, rfl, ?_⟩, ⟨_, rfl, bar2Write_poisoned p n data s hup (by rw [hend]; exact hfit)⟩⟩
  · rw [hstores, bar2Store_boot p n data _ hn (by rw [pushRx_dev, hboot]), windowOpenAt_pushRx, if_pos hopen]
    exact popRx_modHost_pushRx p _ (fun h => { h with window := memStoreEn h.window n data }) (fun _ _ => rfl) s
  · rw [hstores, bar2Store_boot p n data _ hn (by rw [pushRx_dev, hboot]), windowOpenAt_pushRx, if_neg (by simp [hclosed])]
    exact popRx_pushRx p _ s
  · rw [hstores, bar2Store_locked p n data _ hn (by rwa [pushRx_dev])]
    have hr := raises_popRx_sticky p (n, data) 6 (by decide) (fun h => h) (fun _ _ => rfl) s
    rwa [modHost_id] at hr

/-- Writes into the mailbox (R276, R288). -/
theorem mailboxWrite_spec (p : HostId) (s : State) (hup : hostUp p s = true) (off : BitVec 12) (data : List (Option Byte)) :
    let h := hostOf p s
    let thru := rxThrough h (0x800000 + off.toNat, data)
    (off.toNat + data.length ≤ 0x1000 →
      (∃ t y, exec (.mailboxWrite p off data false) s = .next t ∧ HostBecomes p (thru { h with mailbox := y }) s t ∧
        ∀ a, memGet y a = if off.toNat ≤ a ∧ a < off.toNat + data.length then
          (data.getD (a - off.toNat) none).getD (memGet h.mailbox a) else memGet h.mailbox a) ∧
      ∃ t, exec (.mailboxWrite p off data true) s = .next t ∧
        Raises [(clsHost p, 0, 7)] (setHost p (thru { h with aerPoison := true }) s) t) ∧
    (0x1000 < off.toNat + data.length → ∀ bad, ∃ t, exec (.mailboxWrite p off data bad) s = .next t ∧
      HostBecomes p (thru { h with aerUr := true }) s t) := by
  intro h thru
  have hn : off.toNat < 0x1000 := off.isLt
  have hend : (bar2Region (0x800000 + off.toNat)).2 = 0x801000 := bar2Region_mailbox hn
  refine ⟨fun hfit => ⟨⟨_, memStoreEn h.mailbox off.toNat data, rfl, ?_, memGet_memStoreEn _ _ _⟩, _, rfl, ?_⟩,
    fun hpast bad => ⟨_, rfl, bar2Write_past p _ data bad s hup (by rw [hend]; omega)⟩⟩
  · rw [bar2Write_stores p _ data s hup (by rw [hend]; omega), bar2Store_mailbox p _ data _ hn]
    exact popRx_modHost_pushRx p _ (fun h => { h with mailbox := memStoreEn h.mailbox off.toNat data }) (fun _ _ => rfl) s
  · exact bar2Write_poisoned p _ data s hup (by rw [hend]; omega)

/-! ### Registers with a row of their own (R118, R280, R283, R301, R376, R390) -/

theorem bitsNat_low9 (v : Word) : bitsNat v.toNat 0 9 = v.toNat % 512 := by simp [bitsNat]

theorem raises_setHost_same (p : HostId) (b : Nat) (hb : b < 32) (s : State) :
    Raises [(clsHost p, 0, b)] (setHost p (hostOf p s) s) (sticky (clsHost p) 0 b s) := by
  rw [setHost_hostOf]
  exact raises_sticky (clsHost p) 0 b (by decide) hb s

/-- HOST_PUB and HOST_WRRIDX (R118, R283, R301). -/
theorem hostPubWrite_spec (p : HostId) (s : State) (hup : hostUp p s = true) (v : Word) :
    let h := hostOf p s
    let n := v.toNat % 512
    (1 ≤ n → n ≤ 256 → ∃ t, exec (.hostPubWrite p v) s = .next t ∧ HostBecomes p { h with pub := n, pubLeft := 1 } s t) ∧
    (n = 0 ∨ 256 < n → ∃ t, exec (.hostPubWrite p v) s = .next t ∧ Raises [(clsHost p, 0, 0)] (setHost p h s) t) ∧
    (h.ctl.getLsbD 1 = false → ∃ t, exec (.hostWrridxWrite p v) s = .next t ∧ HostBecomes p { h with wrRidx := v } s t) ∧
    (h.ctl.getLsbD 1 = true → ∃ t, exec (.hostWrridxWrite p v) s = .next t ∧ Raises [(clsHost p, 0, 0)] (setHost p h s) t) := by
  intro h n
  have hpub : exec (.hostPubWrite p v) s = .next (writePub p v s) := by simp [exec, execHostPubWrite, hup]
  have hridx : exec (.hostWrridxWrite p v) s = .next (writeRidx p v s) := by simp [exec, execHostWrridxWrite, hup]
  refine ⟨fun h1 h2 => ⟨_, hpub, ?_⟩, fun hn => ⟨_, hpub, ?_⟩, fun hen => ⟨_, hridx, ?_⟩, fun hen => ⟨_, hridx, ?_⟩⟩
  · rw [writePub, bitsNat_low9]
    exact if_pos ⟨h1, h2⟩
  · rw [writePub, bitsNat_low9, if_neg (by omega)]
    exact raises_setHost_same p 0 (by decide) s
  · rw [writeRidx, gatedWrite, wrEn, if_neg (by simpa using hen)]
    rfl
  · rw [writeRidx, gatedWrite, wrEn, if_pos hen]
    exact raises_setHost_same p 0 (by decide) s

/-- The MSI-X table (R376, R379, R390). -/
theorem msixTableWrite_spec (p : HostId) (s : State) (hup : hostUp p s = true) (i : Fin 32) (v : Word) :
    let h := hostOf p s
    let n := i.val / 4
    let w := if i.val % 4 = 3 then v &&& 1 else v
    ∃ t y, exec (.msixTableWrite p i v) s = .next t ∧ HostBecomes p y s t ∧
      (∀ j, tabGet 0 y.msix j = if j = i.val then w else tabGet 0 h.msix j) ∧
      if i.val % 4 = 3 ∧ v.getLsbD 0 = false ∧ h.msixPend.getLsbD n = true ∧ h.pci.msixEn = true ∧ h.pci.msixMask = false then
        y = { h with msix := y.msix, msixPend := h.msixPend &&& ~~~(1#8 <<< n), sent := h.sent ++ [n] }
      else y = { h with msix := y.msix } := by
  intro h n w
  have hrow : exec (.msixTableWrite p i v) s = .next (modHost p (writeMsix i v) s) := by simp [exec, execMsixTableWrite, hup]
  refine ⟨_, writeMsix i v h, hrow, rfl, fun j => ?_, ?_⟩
  · have hmsix : (writeMsix i v h).msix = tabSet 0 h.msix i w := by
      unfold writeMsix
      dsimp only
      split <;> rfl
    rw [hmsix, tabGet_tabSet]
  · have hcond : (i.val % 4 = 3 && !v.getLsbD 0 && h.msixPend.getLsbD n && h.pci.msixEn && !h.pci.msixMask) = true ↔
        i.val % 4 = 3 ∧ v.getLsbD 0 = false ∧ h.msixPend.getLsbD n = true ∧ h.pci.msixEn = true ∧ h.pci.msixMask = false := by
      simp [and_assoc]
    unfold writeMsix
    dsimp only
    split
    · rename_i hc
      rw [if_pos (hcond.2 hc)]
      rfl
    · rename_i hc
      rw [if_neg (mt hcond.1 hc)]

end Sys2Proof.Machine

namespace Sys2Proof.Machine

/-! ### BAR0 (R301, R302, R376 to R381, R390) -/

/-- A request's bytes as its FIFO entry holds them. -/
def reqEntry (off : BitVec 18) (dws : List (Word × BitVec 4)) : Nat × List (Option Byte) :=
  (off.toNat, dws.flatMap fun d => (wordBytes d.1).map some)

theorem bar0Serves_iff (off : Nat) (dw : Word × BitVec 4) (more : List (Word × BitVec 4)) :
    bar0Serves off (dw :: more).length = true ↔
      off % 4 = 0 ∧ (dw :: more).length ≤ 16 ∧ off + 4 * (dw :: more).length ≤ 0x40000 := by
  simp [bar0Serves, and_assoc]

theorem registerWrite_unserved (p : HostId) (s : State) (hup : hostUp p s = true) (off : BitVec 18) (dw : Word × BitVec 4)
    (more : List (Word × BitVec 4)) (bad : Bool) (h : bar0Serves off.toNat (dw :: more).length = false) :
    ∃ t, exec (.registerWrite p off dw more bad) s = .next t ∧
      HostBecomes p (rxThrough (hostOf p s) (reqEntry off (dw :: more)) { hostOf p s with aerUr := true }) s t := by
  refine ⟨_, rfl, ?_⟩
  simp only [requestWrite, hup, h, Bool.not_true, Bool.not_false, if_true, Bool.false_eq_true, if_false, unsupported]
  exact popRx_modHost_pushRx p _ (fun h => { h with aerUr := true }) (fun _ _ => rfl) s

theorem registerWrite_poisoned (p : HostId) (s : State) (hup : hostUp p s = true) (off : BitVec 18) (dw : Word × BitVec 4)
    (more : List (Word × BitVec 4)) (h : bar0Serves off.toNat (dw :: more).length = true) :
    ∃ t, exec (.registerWrite p off dw more true) s = .next t ∧
      HostBecomes p (rxThrough (hostOf p s) (reqEntry off (dw :: more)) { hostOf p s with aerPoison := true }) s t := by
  refine ⟨_, rfl, ?_⟩
  simp only [requestWrite, hup, h, Bool.not_true, if_true, Bool.false_eq_true, if_false, poisonedReq]
  exact popRx_modHost_pushRx p _ (fun h => { h with aerPoison := true }) (fun _ _ => rfl) s

/-- A served request writes its DWs while the FIFO holds it. -/
theorem registerWrite_writes (p : HostId) (s : State) (hup : hostUp p s = true) (off : BitVec 18) (dw : Word × BitVec 4)
    (more : List (Word × BitVec 4)) (h : bar0Serves off.toNat (dw :: more).length = true) :
    exec (.registerWrite p off dw more false) s =
      .next (popRx p (writeDws p off.toNat (dw :: more) (pushRx p (reqEntry off (dw :: more)) s))) := by
  simp only [exec, execRegisterWrite, requestWrite, hup, h, Bool.not_true, Bool.false_eq_true, if_false]
  rfl

theorem bar0Serves_one (off : BitVec 18) (dw : Word × BitVec 4) (h : off.toNat % 4 = 0) :
    bar0Serves off.toNat [dw].length = true := by
  have hlt := off.isLt
  rw [bar0Serves_iff]
  refine ⟨h, by simp, ?_⟩
  simp only [List.length_cons, List.length_nil]
  omega

theorem holdOn_pushRx (p : HostId) (w : Nat × List (Option Byte)) (off : Nat) (s : State) :
    holdOn off (pushRx p w s) = holdOn off s := by
  have hpmc : (pushRx p w s).pmc = s.pmc := by simp [pushRx, modHost_keeps]
  have hbell : (pushRx p w s).bell = s.bell := by simp [pushRx, modHost_keeps]
  simp [holdOn, holdingDoms, bellDom, domOn, domOf, hpmc, hbell]

theorem registerWrite_one (p : HostId) (s : State) (hup : hostUp p s = true) (off : BitVec 18) (v : Word) (be : BitVec 4)
    (h : off.toNat % 4 = 0) :
    exec (.registerWrite p off (v, be) [] false) s =
      .next (popRx p (writeDw p off.toNat v be (pushRx p (reqEntry off [(v, be)]) s))) :=
  registerWrite_writes p s hup off (v, be) [] (bar0Serves_one off _ h)

/-- A DW with a byte enable clear (R379). -/
theorem registerWrite_partial (p : HostId) (s : State) (hup : hostUp p s = true) (off : BitVec 18) (v : Word) (be : BitVec 4)
    (h : off.toNat % 4 = 0) (hbe : be ≠ 0xF) :
    ∃ t, exec (.registerWrite p off (v, be) [] false) s = .next t ∧
      Raises [(clsHost p, 0, 0)] (setHost p (rxThrough (hostOf p s) (reqEntry off [(v, be)]) (hostOf p s)) s) t := by
  refine ⟨_, registerWrite_one p s hup off v be h, ?_⟩
  have hb : (be != 0xF) = true := by simpa using hbe
  rw [writeDw, if_pos hb]
  have hr := raises_popRx_sticky p (reqEntry off [(v, be)]) 0 (by decide) (fun h => h) (fun _ _ => rfl) s
  rwa [modHost_id] at hr

theorem registerWrite_out (p : HostId) (s : State) (hup : hostUp p s = true) (off : BitVec 18) (v : Word)
    (h : off.toNat % 4 = 0) (hout : holdOn off.toNat s = false) :
    ∃ t, exec (.registerWrite p off (v, 0xF) [] false) s = .next t ∧
      HostBecomes p (rxThrough (hostOf p s) (reqEntry off [(v, 0xF)]) (hostOf p s)) s t := by
  refine ⟨_, registerWrite_one p s hup off v 0xF h, ?_⟩
  rw [writeDw, if_neg (by decide), holdOn_pushRx, hout, if_neg nofun]
  exact popRx_pushRx p _ s

/-- A DW that its register takes. -/
theorem registerWrite_taken (p : HostId) (s : State) (hup : hostUp p s = true) (off : BitVec 18) (v : Word)
    (h : off.toNat % 4 = 0) (hon : holdOn off.toNat s = true) :
    exec (.registerWrite p off (v, 0xF) [] false) s =
      .next (popRx p (bar0Write p off.toNat v (pushRx p (reqEntry off [(v, 0xF)]) s))) := by
  rw [registerWrite_one p s hup off v 0xF h, writeDw, if_neg (by decide), holdOn_pushRx, if_pos hon]

/-- A register of the port alone, which the DW changes by f. -/
theorem registerWrite_port (p : HostId) (s : State) (hup : hostUp p s = true) (off : BitVec 18) (v : Word)
    (h : off.toNat % 4 = 0) (hon : holdOn off.toNat s = true) (f : PortSt → PortSt)
    (hf : ∀ (h : PortSt) (l : List (Nat × List (Option Byte))), f { h with rxFifo := l } = { f h with rxFifo := l })
    (hwrite : ∀ w, bar0Write p off.toNat v (pushRx p w s) = modHost p f (pushRx p w s)) :
    ∃ t, exec (.registerWrite p off (v, 0xF) [] false) s = .next t ∧
      HostBecomes p (rxThrough (hostOf p s) (reqEntry off [(v, 0xF)]) (f (hostOf p s))) s t :=
  ⟨_, registerWrite_taken p s hup off v h hon, by rw [hwrite]; exact popRx_modHost_pushRx p _ f hf s⟩

/-- A register that is refused while its stream is enabled (R301). -/
theorem registerWrite_refused (p : HostId) (s : State) (hup : hostUp p s = true) (off : BitVec 18) (v : Word)
    (h : off.toNat % 4 = 0) (hon : holdOn off.toNat s = true)
    (hwrite : ∀ w, bar0Write p off.toNat v (pushRx p w s) = sticky (clsHost p) 0 0 (pushRx p w s)) :
    ∃ t, exec (.registerWrite p off (v, 0xF) [] false) s = .next t ∧
      Raises [(clsHost p, 0, 0)] (setHost p (rxThrough (hostOf p s) (reqEntry off [(v, 0xF)]) (hostOf p s)) s) t := by
  refine ⟨_, registerWrite_taken p s hup off v h hon, ?_⟩
  have hr := raises_popRx_sticky p (reqEntry off [(v, 0xF)]) 0 (by decide) (fun h => h) (fun _ _ => rfl) s
  rw [hwrite]
  rwa [modHost_id] at hr

/-! #### Single registers -/

theorem bar0Write_ctl (p : HostId) (v : Word) (s : State) :
    bar0Write p 0x11004 v s = modHost p (fun h => { h with ctl := v.setWidth 4 }) s := rfl

theorem bar0Write_beat (p : HostId) (v : Word) (s : State) :
    bar0Write p 0x1100C v s = modHost p (fun h => { h with beat := true }) s := rfl

theorem bar0Write_wrSize (p : HostId) (v : Word) (s : State) :
    bar0Write p 0x11020 v s = gatedWrite p wrEn (fun h => { h with wrSize := bitsNat v.toNat 0 5 }) s := rfl

theorem bar0Write_wrRidx (p : HostId) (v : Word) (s : State) :
    bar0Write p 0x11024 v s = gatedWrite p wrEn (fun h => { h with wrRidx := v }) s := rfl

theorem bar0Write_irqEn (p : HostId) (v : Word) (s : State) :
    bar0Write p 0x11050 v s = modHost p (fun h => { h with irqEn := v.setWidth 8 }) s := rfl

theorem bar0Write_irqSt (p : HostId) (v : Word) (s : State) : bar0Write p 0x11054 v s = clearIrq p v s := rfl

theorem bar0Write_imgLo (p : HostId) (v : Word) (s : State) :
    bar0Write p 0x11010 v s = gatedWrite p imgEn (fun h => { h with imgBase := baseLo h.imgBase v }) s := rfl

theorem bar0Write_imgHi (p : HostId) (v : Word) (s : State) :
    bar0Write p 0x11014 v s = gatedWrite p imgEn (fun h => { h with imgBase := baseHi h.imgBase v }) s := rfl

theorem bar0Write_chkSel (p : HostId) (v : Word) (s : State) : bar0Write p 0x0E030 v s = writeChkSel p v s := rfl

theorem bar0Write_zero (p : HostId) (v : Word) (s : State) : bar0Write p 0x00000 v s = s := rfl

theorem bar0Write_presetLo (p : HostId) (v : Word) (s : State) : bar0Write p 0x01020 v s = bellTake 0x20 v s := rfl

theorem gatedWrite_open (p : HostId) (en : PortSt → Bool) (f : PortSt → PortSt) (s : State) (h : en (hostOf p s) = false) :
    gatedWrite p en f s = modHost p f s := by simp [gatedWrite, h]

theorem gatedWrite_closed (p : HostId) (en : PortSt → Bool) (f : PortSt → PortSt) (s : State) (h : en (hostOf p s) = true) :
    gatedWrite p en f s = sticky (clsHost p) 0 0 s := by simp [gatedWrite, h]

theorem hostOf_pushRx (p : HostId) (w : Nat × List (Option Byte)) (s : State) :
    hostOf p (pushRx p w s) = rxHeld (hostOf p s) w := by rw [pushRx_eq, hostOf_setHost, if_pos rfl]

end Sys2Proof.Machine

namespace Sys2Proof.Machine

/-- HOST_IRQST, with the bits that have no event in the same tick (R356, R390). -/
theorem registerWrite_irqSt (p : HostId) (s : State) (hup : hostUp p s = true) (off : BitVec 18) (v : Word)
    (hoff : off.toNat = 0x11054) (hon : holdOn off.toNat s = true) :
    exec (.registerWrite p off (v, 0xF) [] false) s = .next (setHost p
      (rxThrough (hostOf p s) (reqEntry off [(v, 0xF)]) { hostOf p s with
        irqSt := (hostOf p s).irqSt &&& ~~~(v.setWidth 8 &&& ~~~((freshReg (clsHost p) 1 s).setWidth 8)) })
      { s with flt := { s.flt with faultN := s.flt.faultN || fltSum s != 0 } }) := by
  rw [registerWrite_taken p s hup off v (by rw [hoff]) hon]
  have hsum : fltSum (pushRx p (reqEntry off [(v, 0xF)]) s) = fltSum s := by cases p <;> rfl
  have hfresh : ∀ w, freshReg (clsHost p) 1 (pushRx p w s) = freshReg (clsHost p) 1 s := fun w => by cases p <;> rfl
  rw [hoff, bar0Write_irqSt, clearIrq, hsum, hfresh]
  cases p <;> rfl

/-- BELL_PRESET_LO before it locks (R28, R380). -/
theorem registerWrite_presetLo (p : HostId) (s : State) (hup : hostUp p s = true) (off : BitVec 18) (v : Word)
    (hoff : off.toNat = 0x01020) (hon : holdOn off.toNat s = true) (hopen : s.bell.locked = false) :
    exec (.registerWrite p off (v, 0xF) [] false) s = .next (setHost p
      (rxThrough (hostOf p s) (reqEntry off [(v, 0xF)]) (hostOf p s)) { s with bell := if s.dev.startTick then
        { s.bell with waits := s.bell.waits ++ [(0x20, v)] } else { s.bell with presetLo := v } }) := by
  rw [registerWrite_taken p s hup off v (by rw [hoff]) hon]
  have hbell : (pushRx p (reqEntry off [(v, 0xF)]) s).bell = s.bell := by simp [pushRx, modHost_keeps]
  have hdev : (pushRx p (reqEntry off [(v, 0xF)]) s).dev = s.dev := pushRx_dev ..
  rw [hoff, bar0Write_presetLo, bellTake, hbell, hdev, hopen, if_neg nofun]
  cases hst : s.dev.startTick
  · rw [if_neg nofun, bellRwl, hbell]
    cases p <;> rfl
  · rw [if_pos rfl]
    cases p <;> rfl

theorem baseHi_baseLo (b : BitVec 64) (v w : Word) : baseHi (baseLo b v) w = w ++ (v &&& 0xFFFFF000) := by
  rw [baseHi, baseLo, BitVec.setWidth_append_eq_right]

theorem writeDws_two (p : HostId) (off : Nat) (x y : Word × BitVec 4) (s : State) :
    writeDws p off [x, y] s = writeDw p (off + 4) y.1 y.2 (writeDw p off x.1 x.2 s) := rfl

/-- The two DWs of HOST_IMGBASE, written in ascending order (R301, R381). -/
theorem registerWrite_imgBase (p : HostId) (s : State) (hup : hostUp p s = true) (off : BitVec 18) (v w : Word)
    (hoff : off.toNat = 0x11010) (hen : (hostOf p s).ctl.getLsbD 0 = false) :
    ∃ t, exec (.registerWrite p off (v, 0xF) [(w, 0xF)] false) s = .next t ∧
      HostBecomes p (rxThrough (hostOf p s) (reqEntry off [(v, 0xF), (w, 0xF)])
        { hostOf p s with imgBase := w ++ (v &&& 0xFFFFF000) }) s t := by
  have hserves : bar0Serves off.toNat [(v, (0xF : BitVec 4)), (w, 0xF)].length = true := by
    rw [hoff]
    rfl
  refine ⟨_, registerWrite_writes p s hup off (v, 0xF) [(w, 0xF)] hserves, ?_⟩
  have hlo : ∀ u, writeDw p 0x11010 v 0xF u = gatedWrite p imgEn (fun h => { h with imgBase := baseLo h.imgBase v }) u := fun u => rfl
  have hhi : ∀ u, writeDw p 0x11014 w 0xF u = gatedWrite p imgEn (fun h => { h with imgBase := baseHi h.imgBase w }) u := fun u => rfl
  have hboth : ∀ u, imgEn (hostOf p u) = false → writeDws p 0x11010 [(v, 0xF), (w, 0xF)] u =
      modHost p (fun h => { h with imgBase := baseHi (baseLo h.imgBase v) w }) u := by
    intro u hu
    have hmid : imgEn (hostOf p (modHost p (fun h => { h with imgBase := baseLo h.imgBase v }) u)) = false := by
      rw [modHost, hostOf_setHost, if_pos rfl]
      exact hu
    rw [writeDws_two]
    dsimp only
    rw [hlo, gatedWrite_open p imgEn _ u hu, hhi, gatedWrite_open p imgEn _ _ hmid]
    exact modHost_setHost p _ _ u
  rw [hoff, hboth _ (by rw [hostOf_pushRx]; exact hen), ← baseHi_baseLo (hostOf p s).imgBase]
  exact popRx_modHost_pushRx p _ (fun h => { h with imgBase := baseHi (baseLo h.imgBase v) w }) (fun _ _ => rfl) s

/-! ### Links and silence (R278, R280, R300, R303) -/

theorem vectored_raiseAt (v : Nat) (p : HostId) (s : State) : Vectored v 1 p s (raiseAt p v s) := by
  have h : hostOf p (raiseBoth v s) = hostOf p (raiseAt p v s) := by
    cases p <;> simp [raiseBoth, hostOf_raiseAt, domOn_raiseAt]
  have hboth := vectored_raiseBoth v p s
  unfold Vectored at *
  rw [← h, hboth]

/-- Port q hears of the other one: from u to t it takes vector 6 and nothing else changes (R300). -/
def Told (q : HostId) (u t : State) : Prop :=
  t = { setHost q (hostOf q t) u with flt := t.flt } ∧
  t.flt = { u.flt with
    fresh := t.flt.fresh
    reports := u.flt.reports ++ (if domOn (hostDom q) u = true ∧ (hostOf q u).irqSt.getLsbD 6 = false then
      [stamped (clsHost q, 0, 6) u] else []) } ∧
  Vectored 6 1 q u t

theorem told_raiseAt (q : HostId) (u : State) : Told q u (raiseAt q 6 u) := by
  refine ⟨?_, ?_, vectored_raiseAt 6 q u⟩
  · have hother : hostOf (otherHost q) (raiseAt q 6 u) = hostOf (otherHost q) u := by
      rw [hostOf_raiseAt, if_neg fun h => by cases q <;> exact absurd h.1 nofun]
    apply state_eq <;> cases q <;> simp [raiseAt_keeps, setHost, hostOf] <;> exact hother
  · have hflt := flt_raiseAt q 6 u
    simp only [Bool.and_eq_true, Bool.not_eq_true'] at hflt
    exact hflt

theorem linkGone_resetPort (h : PortSt) : LinkGone h (resetPort h) := rfl

/-- A port whose link was active: it is reset, and the other one hears of it (R278). -/
theorem linkLost_active (p : HostId) (s : State) (h : (hostOf p s).link = true) :
    linkLost p s = raiseAt (otherHost p) 6 (setHost p (resetPort (hostOf p s)) s) := by
  rw [linkLost, if_pos h]
  rfl

theorem linkLost_inactive (p : HostId) (s : State) (h : (hostOf p s).link = false) :
    linkLost p s = setHost p (resetPort (hostOf p s)) s := by
  simp [linkLost, h, modHost]

theorem hostOf_raiseAt_other (p : HostId) (v : Nat) (s : State) : hostOf p (raiseAt (otherHost p) v s) = hostOf p s := by
  rw [hostOf_raiseAt, if_neg fun h => by cases p <;> exact absurd h.1 nofun]

/-- The rows by which an active link is lost (R278). -/
theorem linkRows_active (p : HostId) (s : State) (h : (hostOf p s).link = true) :
    ∀ c ∈ [(Instr.hostLinkDown p, fun y : PortSt => y), (.perstAssert p, fun y => { y with perst := true }),
        (.d3hotEntry p, fun y : PortSt => { y with d3hot := true })],
      ∃ u y, LinkGone (hostOf p s) y ∧ Told (otherHost p) (setHost p y s) u ∧ exec c.1 s = .next (setHost p (c.2 y) u) := by
  intro c hc
  let y := resetPort (hostOf p s)
  have htold := told_raiseAt (otherHost p) (setHost p y s)
  have hsame : hostOf p (raiseAt (otherHost p) 6 (setHost p y s)) = y := by
    rw [hostOf_raiseAt_other, hostOf_setHost, if_pos rfl]
  refine ⟨raiseAt (otherHost p) 6 (setHost p y s), y, rfl, htold, ?_⟩
  have hmod : ∀ f : PortSt → PortSt, setHost p (f y) (raiseAt (otherHost p) 6 (setHost p y s)) =
      modHost p f (linkLost p s) := by
    intro f
    rw [linkLost_active p s h, modHost, hsame]
  simp only [List.mem_cons, List.not_mem_nil, or_false] at hc
  rcases hc with rfl | rfl | rfl
  · dsimp only
    rw [hmod fun y => y, modHost_id]
    simp [exec, execHostLinkDown, dropLink, h]
  · dsimp only
    rw [hmod fun y => { y with perst := true }]
    rfl
  · dsimp only
    rw [hmod fun y => { y with d3hot := true }]
    simp [exec, execD3hotEntry, h]

theorem linkRows_inactive (p : HostId) (s : State) (h : (hostOf p s).link = false) :
    exec (.hostLinkDown p) s = .next s ∧ exec (.d3hotEntry p) s = .next s ∧
      ∃ y, LinkGone (hostOf p s) y ∧ exec (.perstAssert p) s = .next (setHost p { y with perst := true } s) := by
  refine ⟨by simp [exec, execHostLinkDown, dropLink, h], by simp [exec, execD3hotEntry, h], _, linkGone_resetPort _, ?_⟩
  simp only [exec, execPerstAssert, linkLost_inactive p s h, modHost_setHost]

/-- A link that comes back (R278, log 124, 125). -/
theorem hostLinkUp_spec (p : HostId) (s : State) (up : LinkUp) :
    let h := hostOf p s
    let ready := h.link = false ∧ domOn (hostDom p) s = true ∧ s.pins.vpci = true ∧ s.pins.vph18 = true
    (ready → ∃ u t, exec (.hostLinkUp p up) s = .next t ∧
      Raises (if h.wasLost then [(clsHost p, 0, 1)] else []) (setHost p { h with
        link := true, gen2 := up.gen2, wasLost := false, d3hot := false, perst := false, pci := up.cfg } s) u ∧
      Told (otherHost p) u t) ∧
    (¬ready → exec (.hostLinkUp p up) s = .next s) := by
  intro h ready
  have hcond : (!(hostOf p s).link && domOn (hostDom p) s && s.pins.vpci && s.pins.vph18) = true ↔ ready := by
    simp [ready, h, and_assoc]
  refine ⟨fun hr => ⟨_, _, ?_, raises_stickyIf h.wasLost (clsHost p) 0 1 (by decide) (by decide) _, told_raiseAt _ _⟩, fun hr => ?_⟩
  · simp only [exec, execHostLinkUp]
    rw [if_pos (hcond.2 hr)]
    rfl
  · simp only [exec, execHostLinkUp]
    rw [if_neg (mt hcond.1 hr)]

/-- A silent host is shown at both ports (R280, R300, R303). -/
theorem hostSilentTimeout_spec (p : HostId) (s : State) (h : 64 ≤ (hostOf p s).silent)
    (hclear : (fltReg (clsHost p) 0 s).getLsbD 5 = false) :
    ∃ u t, exec (.hostSilentTimeout p) s = .next t ∧ Raises [(clsHost p, 0, 5)] (setHost p (hostOf p s) s) u ∧
      Told (otherHost p) u t := by
  refine ⟨sticky (clsHost p) 0 5 s, raiseAt (otherHost p) 6 (sticky (clsHost p) 0 5 s), ?_, raises_setHost_same p 5 (by decide) s,
    told_raiseAt _ _⟩
  simp only [exec, execHostSilentTimeout, h, hclear]
  rfl

end Sys2Proof.Machine

namespace Sys2Proof.Machine

/-! ### The clauses of the statement -/

/-- One DW with all its byte enables to a register that takes it (R301, R302, R380, R390). -/
theorem registerWrite_does (p : HostId) (s : State) (hup : hostUp p s = true) (off : BitVec 18) (v : Word)
    (h4 : off.toNat % 4 = 0) (hon : holdOn off.toNat s = true) :
    let h := hostOf p s
    let req := rxThrough h (reqEntry off [(v, 0xF)])
    let does := fun (a : Nat) (y : PortSt) => off.toNat = a →
      ∃ t, exec (.registerWrite p off (v, 0xF) [] false) s = .next t ∧ HostBecomes p (req y) s t
    let cfg := fun (a : Nat) => off.toNat = a →
      ∃ t, exec (.registerWrite p off (v, 0xF) [] false) s = .next t ∧ Raises [(clsHost p, 0, 0)] (setHost p (req h) s) t
    does 0x11004 { h with ctl := v.setWidth 4 } ∧ does 0x1100C { h with beat := true } ∧
    (h.ctl.getLsbD 1 = false → does 0x11024 { h with wrRidx := v } ∧ does 0x11020 { h with wrSize := v.toNat % 32 }) ∧
    (h.ctl.getLsbD 1 = true → cfg 0x11024 ∧ cfg 0x11020) ∧
    does 0x11050 { h with irqEn := v.setWidth 8 } ∧
    (h.ctl.getLsbD 0 = false → does 0x11010 { h with imgBase := baseLo h.imgBase v }) ∧
    (h.ctl.getLsbD 0 = true → cfg 0x11010) ∧
    does 0x0E030 { h with selHead := v.toNat % 512, selEng := v.toNat / 2 ^ 16 % 512 } ∧
    does 0x00000 h ∧ (s.bell.locked = true → does 0x01020 h) := by
  intro h req does cfg
  have port := registerWrite_port p s hup off v h4 hon
  have refused := registerWrite_refused p s hup off v h4 hon
  have hheld : ∀ w, hostOf p (pushRx p w s) = rxHeld h w := fun w => hostOf_pushRx p w s
  have wrOpen : h.ctl.getLsbD 1 = false → ∀ w, wrEn (hostOf p (pushRx p w s)) = false := fun he w => by rw [hheld]; exact he
  have wrShut : h.ctl.getLsbD 1 = true → ∀ w, wrEn (hostOf p (pushRx p w s)) = true := fun he w => by rw [hheld]; exact he
  have imgOpen : h.ctl.getLsbD 0 = false → ∀ w, imgEn (hostOf p (pushRx p w s)) = false := fun he w => by rw [hheld]; exact he
  have imgShut : h.ctl.getLsbD 0 = true → ∀ w, imgEn (hostOf p (pushRx p w s)) = true := fun he w => by rw [hheld]; exact he
  refine ⟨fun ha => ?_, fun ha => ?_, fun he => ⟨fun ha => ?_, fun ha => ?_⟩, fun he => ⟨fun ha => ?_, fun ha => ?_⟩,
    fun ha => ?_, fun he ha => ?_, fun he ha => ?_, fun ha => ?_, fun ha => ?_, fun hl ha => ?_⟩
  · exact port (fun h => { h with ctl := v.setWidth 4 }) (fun _ _ => rfl) fun w => by rw [ha, bar0Write_ctl]
  · exact port (fun h => { h with beat := true }) (fun _ _ => rfl) fun w => by rw [ha, bar0Write_beat]
  · exact port (fun h => { h with wrRidx := v }) (fun _ _ => rfl) fun w => by
      rw [ha, bar0Write_wrRidx, gatedWrite_open p wrEn _ _ (wrOpen he w)]
  · have hbits : bitsNat v.toNat 0 5 = v.toNat % 32 := by simp [bitsNat]
    exact port (fun h => { h with wrSize := v.toNat % 32 }) (fun _ _ => rfl) fun w => by
      rw [ha, bar0Write_wrSize, gatedWrite_open p wrEn _ _ (wrOpen he w), hbits]
  · exact refused fun w => by rw [ha, bar0Write_wrRidx, gatedWrite_closed p wrEn _ _ (wrShut he w)]
  · exact refused fun w => by rw [ha, bar0Write_wrSize, gatedWrite_closed p wrEn _ _ (wrShut he w)]
  · exact port (fun h => { h with irqEn := v.setWidth 8 }) (fun _ _ => rfl) fun w => by rw [ha, bar0Write_irqEn]
  · exact port (fun h => { h with imgBase := baseLo h.imgBase v }) (fun _ _ => rfl) fun w => by
      rw [ha, bar0Write_imgLo, gatedWrite_open p imgEn _ _ (imgOpen he w)]
  · exact refused fun w => by rw [ha, bar0Write_imgLo, gatedWrite_closed p imgEn _ _ (imgShut he w)]
  · have hhead : bitsNat v.toNat 0 9 = v.toNat % 512 := bitsNat_low9 v
    have heng : bitsNat v.toNat 16 9 = v.toNat / 2 ^ 16 % 512 := by simp [bitsNat]
    exact port (fun h => { h with selHead := v.toNat % 512, selEng := v.toNat / 2 ^ 16 % 512 }) (fun _ _ => rfl) fun w => by
      rw [ha, bar0Write_chkSel, writeChkSel, hhead, heng]
  · exact port (fun h => h) (fun _ _ => rfl) fun w => by rw [ha, bar0Write_zero, modHost_id]
  · exact port (fun h => h) (fun _ _ => rfl) fun w => by
      have hbell : (pushRx p w s).bell = s.bell := by simp [pushRx, modHost_keeps]
      rw [ha, bar0Write_presetLo, bellTake, hbell, if_pos hl, modHost_id]

/-- Settles O53: each request by the rule that it passes the receive FIFO and what its own row does meanwhile, each link row by the
rules of the port's reset and of the vector the other port takes. -/
theorem hostPorts : Obligations.HostPorts := by
  unfold Obligations.HostPorts
  intro p s h q becomes thru flt stored told
  refine ⟨fun hup => ⟨imageWindowWrite_spec p s hup, mailboxWrite_spec p s hup, ?_, hostPubWrite_spec p s hup,
    msixTableWrite_spec p s hup, fun off dw more => ?_⟩, fun c hc hlink => linkRows_active p s hlink c hc, linkRows_inactive p s,
    hostLinkUp_spec p s, hostSilentTimeout_spec p s⟩
  · exact ⟨_, by simp only [exec, execHostHbeat, hup]; rfl, rfl⟩
  · intro dws req served
    have hserved : bar0Serves off.toNat dws.length = true ↔ served := bar0Serves_iff off.toNat dw more
    refine ⟨fun hno bad => ?_, fun hyes => registerWrite_poisoned p s hup off dw more (hserved.2 hyes), ?_, ?_⟩
    · exact registerWrite_unserved p s hup off dw more bad (Bool.eq_false_iff.2 (mt hserved.1 hno))
    · rintro v w rfl rfl hoff hen
      exact registerWrite_imgBase p s hup off v w hoff hen
    · rintro v be rfl rfl h4
      refine ⟨registerWrite_partial p s hup off v be h4, ?_, ?_⟩
      · rintro rfl
        exact registerWrite_out p s hup off v h4
      · rintro rfl hon does cfg
        obtain ⟨hctl, hbeat, hopen, hshut, hirqEn, himg, hnoimg, hsel, hzero, hlocked⟩ := registerWrite_does p s hup off v h4 hon
        exact ⟨hctl, hbeat, hopen, hshut, hirqEn, fun hoff => registerWrite_irqSt p s hup off v hoff hon, himg, hnoimg, hsel, hzero,
          hlocked, fun hl hoff => registerWrite_presetLo p s hup off v hoff hon hl⟩

end Sys2Proof.Machine

/-! ## O47: the head program at a sample, a bubble token and an end-of-frame mark (R14, R84 to R99, R163, R410) -/

namespace Sys2Proof.Machine

/-! ### Cores in step (R211 to R213) -/

/-- A core whose shadow has done what it has: InStep of an engine with that core. -/
def CoreInStep (k : Core) : Prop :=
  (clearStep k = k ∧ k.shadow.differ = none ∧ shadowView k = k ∧ (∀ c ∈ k.shadow.fifo, c.words = c.own) ∧
    (k.shadow.stuck = none → k.shadow.fifo.length ≤ 2)) ∧ k.shadow.stuck = none

theorem inStep_iff (e : Nat) (s : State) : InStep e s ↔ CoreInStep (engOf e s).core := Iff.rfl

theorem inStep_congr {e : Nat} {s t : State} (h : (engOf e t).core = (engOf e s).core) (hs : InStep e s) : InStep e t := by
  rw [inStep_iff] at *
  rwa [h]

/-- What leaves by the POST lane changes of a core nothing but that lane's side. -/
def LeftOf (k l : Core) : Prop := l = { k with posts := l.posts, hrec := l.hrec, diag0 := l.diag0, diag1 := l.diag1 }

theorem leftOf_leave (k : Core) (w : LaneWord) : LeftOf k (leave k w) := by cases w <;> rfl

theorem leftOf_leaveAll (l : List LaneWord) (k : Core) : LeftOf k (l.foldl leave k) := by
  induction l using List.reverseRecOn with
  | nil => rfl
  | append_singleton l w ih =>
    rw [List.foldl_append, List.foldl_cons, List.foldl_nil]
    have hw := leftOf_leave (l.foldl leave k) w
    unfold LeftOf at *
    rw [hw, ih]

/-- A core whose shadow, and the POST lane's side, alone differ. -/
def ShadowOf (k l : Core) : Prop :=
  l = { k with shadow := l.shadow, posts := l.posts, hrec := l.hrec, diag0 := l.diag0, diag1 := l.diag1 }

theorem ShadowOf.trans {k l m : Core} (h1 : ShadowOf k l) (h2 : ShadowOf l m) : ShadowOf k m := by
  unfold ShadowOf at *
  rw [h2, h1]

/-- The core that has moved is k as the lanes leave it. -/
theorem core_of_coreMoves {e : Nat} {k : Core} {s t : State} (h : CoreMoves e k s t) : ShadowOf (clearStep k) (engOf e t).core := by
  obtain ⟨-, -, -, -, hcore, -⟩ := h
  rw [hcore]
  rcases (engOf e s).core.shadow.fifo with _ | ⟨a, _ | ⟨b, rest⟩⟩
  · rfl
  · rfl
  · rcases rest with _ | ⟨c, rest⟩
    · have hl := leftOf_leaveAll a.words { clearStep k with
        shadow := { (engOf e s).core.shadow with head := a.head, ext := a.ext, fifo := [b, sameCycle k] } }
      unfold LeftOf at hl
      unfold ShadowOf
      dsimp only [List.cons_append, List.nil_append]
      rw [hl]
    · have hl := leftOf_leaveAll a.words { clearStep k with
        shadow := { (engOf e s).core.shadow with head := a.head, ext := a.ext, fifo := b :: c :: (rest ++ [sameCycle k]) } }
      unfold LeftOf at hl
      unfold ShadowOf
      dsimp only [List.cons_append, List.nil_append]
      rw [hl]

/-- A move of the core changes the device by its engine and ENG_FLT alone. -/
theorem state_of_coreMoves {e : Nat} {k : Core} {s t : State} (h : CoreMoves e k s t) :
    t = { s with engs := t.engs, flt := t.flt, ha := t.ha, hb := t.hb } := by
  obtain ⟨⟨u, ⟨hkeep, -⟩, hu⟩, -⟩ := h
  rw [hu] at hkeep
  exact hkeep

end Sys2Proof.Machine

namespace Sys2Proof.Machine

/-! ### A fault of the head context (R187) -/

theorem engs_noteFailed (q : Bool) (e : Nat) (s : State) : (noteFailed q e s).engs = s.engs := by
  simp only [noteFailed, stickyIf_engs]

theorem engOf_recordCode (e j code : Nat) (c : Bool) (s : State) :
    engOf j (recordCode e c code s) = if j = e then { engOf e s with
      errCode := code, win := if code == fEccDed && (engOf e s).winStart.isSome then { (engOf e s).win with ded := true }
        else (engOf e s).win } else engOf j s := by
  have hengs : (recordCode e c code s).engs = (modEng e (fun g => { g with
      errCode := code, win := if code == fEccDed && g.winStart.isSome then { g.win with ded := true } else g.win }) s).engs := by
    unfold recordCode
    rw [stickyIf_engs, sticky_eq]
  rw [engOf, hengs, ← engOf, modEng, engOf_setEng]

/-- Which engines a fault of a context of engine e changes, past what its core does. -/
theorem engOf_ctxFault (e j code : Nat) (s : State) :
    engOf j (ctxFault e .head code s) =
      let u := setCore e (haltHead code) s
      if j = e then { engOf e u with
        errCode := code, win := if code == fEccDed && (engOf e u).winStart.isSome then { (engOf e u).win with ded := true }
          else (engOf e u).win } else engOf j u := by
  have hengs : ∀ q u, engOf j (noteFailed q e u) = engOf j u := by
    intro q u
    rw [engOf, engs_noteFailed, ← engOf]
  simp only [ctxFault, hengs, engOf_recordCode]

theorem core_ctxFault (e code : Nat) (s : State) :
    (engOf e (ctxFault e .head code s)).core = (engOf e (setCore e (haltHead code) s)).core := by
  rw [engOf_ctxFault]
  simp

theorem inStep_setCore (e : Nat) (he : e < 512) (f : Core → Core) (s : State) (hi : InStep e s) : InStep e (setCore e f s) := by
  obtain ⟨-, -, -, -, -, h⟩ := coreMoves_setCore e he f s hi
  exact h

theorem state_setCore (e : Nat) (he : e < 512) (f : Core → Core) (s : State) (hi : InStep e s) :
    (engOf e (setCore e f s)).state = (engOf e s).state := by
  obtain ⟨-, -, h, -⟩ := coreMoves_setCore e he f s hi
  rw [h]

theorem inStep_ctxFault (e : Nat) (he : e < 512) (code : Nat) (s : State) (hi : InStep e s) : InStep e (ctxFault e .head code s) :=
  inStep_congr (core_ctxFault e code s) (inStep_setCore e he (haltHead code) s hi)

theorem state_ctxFault (e : Nat) (he : e < 512) (code : Nat) (s : State) (hi : InStep e s) :
    (engOf e (ctxFault e .head code s)).state = (engOf e s).state := by
  rw [engOf_ctxFault]
  dsimp only
  rw [if_pos rfl]
  exact state_setCore e he (haltHead code) s hi

/-- Every operation that is left when all are killed is one that runs on, killed (R204). -/
theorem killOps_all (l : List CopOp) : ∀ o ∈ killOps (fun _ => true) l, o.killed = true := by
  intro o ho
  obtain ⟨x, -, hx⟩ := List.mem_filterMap.mp ho
  rcases hs : x.stage with _ | _ | _ <;> simp [hs] at hx
  rw [← hx]

theorem ctxFault_bit (e code : Nat) (s : State) : (fltReg clsEng e (ctxFault e .head code s)).getLsbD 11 = true := by
  have hmore : ∀ q c u, FltMono u (noteFailed q e (stickyIf c clsEng e 10 u)) := fun q c u =>
    (fltMono_stickyIf c clsEng e 10 u).trans ((fltMono_stickyIf q clsEng e 0 _).trans (fltMono_stickyIf q clsEng e 6 _))
  exact hmore _ _ _ _ _ _ (sticky_bit clsEng e 11 (by decide) _)

/-- A fault of the head context of an engine whose cores are in step (R187, R207). -/
theorem faultTaken_ctxFault (e : Nat) (he : e < 512) (code : Nat) (s : State) (hi : InStep e s)
    (hrun : (engOf e s).core.head.halted = none) : FaultTaken e .head code s (ctxFault e .head code s) := by
  have hmoves := coreMoves_setCore e he (haltHead code) s hi
  have hstate := state_of_coreMoves hmoves
  have hcore := core_of_coreMoves hmoves
  rw [← core_ctxFault e code s] at hcore
  unfold ShadowOf at hcore
  obtain ⟨-, hother, heng, -⟩ := hmoves
  have hframe : (setCore e (haltHead code) s).frame = s.frame := by rw [hstate]
  have hshown : (setCore e (haltHead code) s).shown = s.shown := by rw [hstate]
  refine ⟨?_, fun j hj => ?_, ?_, fun _ => ?_, ?_, ?_, ?_, ctxFault_bit e code s, ?_, ?_, ?_, ⟨?_, ?_, ?_, ?_, ?_⟩,
    inStep_ctxFault e he code s hi⟩
  · apply state_eq <;> simp [ctxFault_keeps]
    simp [ctxFault, noteFailed_keeps, recordCode_keeps, hframe]
  · rw [engOf_ctxFault]
    simp [hj, hother]
  · rw [core_ctxFault, engOf_ctxFault]
    dsimp only
    rw [if_pos rfl, heng]
    rfl
  · rw [engOf_ctxFault]
    dsimp only
    rw [if_pos rfl, heng]
  · show (engOf e _).core.head.halted = _
    rw [hcore]
    show some ((engOf e s).core.head.halted.getD code) = _
    rw [hrun]
    rfl
  · show (engOf e _).core.head.pc = _
    rw [hcore]
    rfl
  · show (engOf e _).core.head.g = _
    rw [hcore]
    rfl
  all_goals rw [hcore]
  · rfl
  · rfl
  · rfl
  · rfl
  · exact killOps_all _
  · rfl
  · rfl
  · rfl

end Sys2Proof.Machine

namespace Sys2Proof.Machine

/-! ### The shadow reaches the primary, and the port takes what it has matched (R14, R182, R213) -/

/-- An engine of which the core and its window alone differ. -/
def CoreOnly (g y : Eng) : Prop := y = { g with core := y.core, win := y.win }

theorem CoreOnly.trans {g y z : Eng} (h1 : CoreOnly g y) (h2 : CoreOnly y z) : CoreOnly g z := by
  unfold CoreOnly at *
  rw [h2, h1]

/-- The shadow stands where the primary does as soon as the contexts of its last cycle under way do. -/
theorem shadowView_fixed (k : Core) : shadowView k = k ↔
    (k.shadow.fifo.getLast?.map Cycle.head).getD k.shadow.head = k.head ∧
    (k.shadow.fifo.getLast?.map Cycle.ext).getD k.shadow.ext = k.ext := by
  have h : shadowView k = { k with
      head := (k.shadow.fifo.getLast?.map Cycle.head).getD k.shadow.head
      ext := (k.shadow.fifo.getLast?.map Cycle.ext).getD k.shadow.ext } := by
    unfold shadowView
    cases k.shadow.fifo.getLast? <;> rfl
  rw [h]
  constructor
  · exact fun he => ⟨congrArg Core.head he, congrArg Core.ext he⟩
  · rintro ⟨hh, hx⟩
    rw [hh, hx]

/-- A cycle that the shadow makes of an engine in step. -/
theorem shadowStep_spec (g : Eng) (c : Cycle) (rest : List Cycle) (hi : CoreInStep g.core) (hf : g.core.shadow.fifo = c :: rest) :
    CoreOnly g (shadowStep g) ∧
    ShadowOf g.core (shadowStep g).core ∧ (shadowStep g).core.shadow.fifo = rest ∧ CoreInStep (shadowStep g).core := by
  obtain ⟨⟨hclear, hdiffer, hview, hwords, hlen⟩, hstuck⟩ := hi
  have hsame : c.words = c.own := hwords c (by simp [hf])
  have hstep : shadowStep g = { g with
      core := c.words.foldl leave { g.core with
        shadow := { g.core.shadow with head := c.head, ext := c.ext, fifo := rest, differ := none } }
      win := (shadowStep g).win } := by
    simp [shadowStep, hf, hdiffer, mismatched_same c hsame]
  generalize hk : ({ g.core with
    shadow := { g.core.shadow with head := c.head, ext := c.ext, fifo := rest, differ := none } } : Core) = k at hstep
  have hcore : (shadowStep g).core = c.words.foldl leave k := by rw [hstep]
  obtain ⟨hshadow, hhead, hext⟩ := leaveAll_shadow c.words k
  have hleft := leftOf_leaveAll c.words k
  have hends : (rest.getLast?.map Cycle.head).getD c.head = g.core.head ∧ (rest.getLast?.map Cycle.ext).getD c.ext = g.core.ext := by
    have hlast : g.core.shadow.fifo.getLast? = some (rest.getLast?.getD c) := by
      rw [hf, List.getLast?_cons]
    obtain ⟨hh, hx⟩ := (shadowView_fixed g.core).1 hview
    rw [hlast] at hh hx
    rw [← hh, ← hx]
    cases rest.getLast? <;> exact ⟨rfl, rfl⟩
  have hrest : k.shadow.fifo = rest ∧ k.shadow.differ = none ∧ k.shadow.stuck = none ∧ k.head = g.core.head ∧ k.ext = g.core.ext ∧
      k.shadow.head = c.head ∧ k.shadow.ext = c.ext := by
    subst hk
    exact ⟨rfl, rfl, hstuck, rfl, rfl, rfl, rfl⟩
  obtain ⟨hfifo, hdiff, hst, hh, hx, hsh, hsx⟩ := hrest
  have honly : CoreOnly g (shadowStep g) := by
    unfold CoreOnly
    rw [hcore]
    exact hstep
  refine ⟨honly, ?_, ?_, ⟨?_, ?_, ?_, ?_, ?_⟩, ?_⟩ <;> rw [hcore]
  · unfold ShadowOf LeftOf at *
    rw [hleft, ← hk]
  · rw [hshadow, hfifo]
  · refine clearStep_leaveAll _ _ ?_
    rw [← hk]
    conv_rhs => rw [← hclear]
    rfl
  · rw [hshadow, hdiff]
  · rw [shadowView_fixed, hshadow, hfifo, hsh, hsx, hhead, hext, hh, hx]
    exact hends
  · intro d hd
    rw [hshadow, hfifo] at hd
    exact hwords d (by simp [hf, hd])
  · intro _
    have := hlen hstuck
    rw [hf] at this
    rw [hshadow, hfifo]
    simp only [List.length_cons] at this
    omega
  · rw [hshadow, hst]

theorem shadowOf_refl (k : Core) : ShadowOf k k := rfl

theorem shadowSteps_spec (n : Nat) (g : Eng) (hi : CoreInStep g.core) (hn : g.core.shadow.fifo.length = n) :
    CoreOnly g (shadowSteps n g) ∧
    ShadowOf g.core (shadowSteps n g).core ∧ (shadowSteps n g).core.shadow.fifo = [] ∧ CoreInStep (shadowSteps n g).core := by
  induction n generalizing g with
  | zero => exact ⟨rfl, shadowOf_refl _, List.length_eq_zero_iff.mp hn, hi⟩
  | succ n ih =>
    obtain ⟨c, rest, hf⟩ := List.exists_cons_of_length_eq_add_one hn
    obtain ⟨h1, h2, h3, h4⟩ := shadowStep_spec g c rest hi hf
    obtain ⟨i1, i2, i3, i4⟩ := ih (shadowStep g) h4 (by rw [h3]; rw [hf] at hn; simpa using hn)
    exact ⟨h1.trans i1, h2.trans i2, i3, i4⟩

/-- The shadow of an engine in step reaches the primary. -/
theorem catchUp_spec (g : Eng) (hi : CoreInStep g.core) :
    CoreOnly g (catchUp g) ∧
    ShadowOf g.core (catchUp g).core ∧ (catchUp g).core.shadow.fifo = [] ∧ CoreInStep (catchUp g).core := by
  have hstuck := hi.2
  have h : catchUp g = shadowSteps g.core.shadow.fifo.length g := by simp [catchUp, hstuck]
  rw [h]
  exact shadowSteps_spec _ g hi rfl

theorem engOf_modEng (e j : Nat) (f : Eng → Eng) (s : State) : engOf j (modEng e f s) = if j = e then f (engOf e s) else engOf j s := by
  rw [modEng, engOf_setEng]

theorem catchUpAt_eq (e : Nat) (s : State) (hi : InStep e s) : catchUpAt e s = modEng e catchUp s := by
  obtain ⟨-, -, -, ⟨⟨-, hdiffer, -⟩, hstuck⟩⟩ := catchUp_spec (engOf e s) hi
  refine laneCheck_none e _ ?_ ?_
  · rwa [engOf_modEng, if_pos rfl]
  · rwa [engOf_modEng, if_pos rfl]

theorem inStep_catchUpAt (e : Nat) (s : State) (hi : InStep e s) : InStep e (catchUpAt e s) := by
  obtain ⟨-, -, -, h⟩ := catchUp_spec (engOf e s) hi
  rw [catchUpAt_eq e s hi, inStep_iff, engOf_modEng, if_pos rfl]
  exact h

theorem state_catchUpAt (e : Nat) (s : State) (hi : InStep e s) : (engOf e (catchUpAt e s)).state = (engOf e s).state := by
  obtain ⟨h, -⟩ := catchUp_spec (engOf e s) hi
  rw [catchUpAt_eq e s hi, engOf_modEng, if_pos rfl, h]

theorem engOf_frame (e : Nat) (f : FrameSt) (s : State) : engOf e { s with frame := f } = engOf e s := rfl

theorem inStep_frame {e : Nat} {s : State} (f : FrameSt) (hi : InStep e s) : InStep e { s with frame := f } := hi

/-- A post that the port takes leaves an engine in step, and in the state it is in. -/
theorem takePost_inStep (e : Nat) (he : e < 512) (s : State) (hi : InStep e s) :
    InStep e (takePost e s) ∧ (engOf e (takePost e s)).state = (engOf e s).state := by
  have hu := inStep_catchUpAt e s hi
  have hst := state_catchUpAt e s hi
  unfold takePost
  dsimp only
  split
  · exact ⟨hu, hst⟩
  · rename_i kind l rest _
    have hv := inStep_setCore e he (fun k => freePull { k with posts := rest }) _ hu
    have hsv := (state_setCore e he (fun k => freePull { k with posts := rest }) _ hu).trans hst
    split
    · exact ⟨hv, hsv⟩
    · split
      · exact ⟨inStep_frame _ hv, (congrArg Eng.state (engOf_frame e _ _)).trans hsv⟩
      · exact ⟨inStep_ctxFault e he _ _ hv, (state_ctxFault e he _ _ hv).trans hsv⟩

theorem takePosts_inStep (e : Nat) (he : e < 512) (n : Nat) (s : State) (hi : InStep e s) :
    InStep e (takePosts e n s) ∧ (engOf e (takePosts e n s)).state = (engOf e s).state := by
  induction n generalizing s with
  | zero => exact ⟨hi, rfl⟩
  | succ n ih =>
    obtain ⟨h1, h2⟩ := takePost_inStep e he s hi
    obtain ⟨h3, h4⟩ := ih (takePost e s) h1
    exact ⟨h3, h4.trans h2⟩

theorem coreInStep_posts (k : Core) (l : List (Nat × List Byte)) (hi : CoreInStep k) : CoreInStep { k with posts := l } := by
  obtain ⟨⟨hclear, hdiffer, hview, hwords, hlen⟩, hstuck⟩ := hi
  refine ⟨⟨?_, hdiffer, ?_, hwords, hlen⟩, hstuck⟩
  · have h : clearStep { k with posts := l } = { clearStep k with posts := l } := rfl
    rw [h, hclear]
  · have h : shadowView { k with posts := l } = { shadowView k with posts := l } := by
      unfold shadowView
      dsimp only
      split <;> rfl
    rw [h, hview]

/-- The port takes the events of an engine in service whose cores are in step. -/
theorem portTakes_spec (e : Nat) (out : List Event) (s : State) (hi : InStep e s) (hserve : (engOf e s).state = .service) :
    CaughtUp e s (portTakes e out s) ∧
    (portTakes e out s).frame = { s.frame with events := s.frame.events ++ out.map fun y => (e, y) } := by
  have hu := inStep_catchUpAt e s hi
  have hst := (state_catchUpAt e s hi).trans hserve
  obtain ⟨h1, h2, h3, h4⟩ := catchUp_spec (engOf e s) hi
  have heq := catchUpAt_eq e s hi
  have hstuck : (engOf e (catchUpAt e s)).core.shadow.stuck = none := hu.2
  have hport : portTakes e out s = modEng e (fun g => { g with core := { g.core with posts := [] } })
      { catchUpAt e s with frame := { (catchUpAt e s).frame with events := (catchUpAt e s).frame.events ++ out.map fun v => (e, v) } } := by
    simp [portTakes, hst, hstuck]
  have heng : engOf e (portTakes e out s) = { catchUp (engOf e s) with core := { (catchUp (engOf e s)).core with posts := [] } } := by
    rw [hport, engOf_modEng, if_pos rfl, heq]
    show ({ engOf e (modEng e catchUp s) with
      core := { (engOf e (modEng e catchUp s)).core with posts := [] } } : Eng) = _
    rw [engOf_modEng, if_pos rfl]
  refine ⟨⟨?_, fun j hj => ?_, ?_, ?_, ?_, ?_⟩, ?_⟩
  · rw [hport, heq]
    rfl
  · rw [hport, engOf_modEng, if_neg hj, heq]
    show engOf j (modEng e catchUp s) = _
    rw [engOf_modEng, if_neg hj]
  · rw [heng]
    conv_lhs => rw [h1]
  · rw [heng]
    unfold ShadowOf at h2
    dsimp only
    conv_lhs => rw [h2]
  · rw [heng]
    exact h3
  · rw [inStep_iff, heng]
    exact coreInStep_posts _ _ h4
  · rw [hport, heq]
    rfl

end Sys2Proof.Machine

namespace Sys2Proof.Machine

/-! ### A step of the head program in the device (R14, R179 to R182) -/

theorem queueOf_noteEntry (slot j : Nat) (x : Entry) (k : Core) : queueOf j (noteEntry slot x k) = queueOf j k := by
  unfold noteEntry
  split <;> rfl

theorem replayOf_noteEntry (slot j : Nat) (x : Entry) (k : Core) : replayOf j (noteEntry slot x k) = replayOf j k := by
  unfold noteEntry
  split <;> rfl

theorem queueOf_dequeue (slot : Nat) (rest : List Entry) (k : Core) : queueOf slot (dequeue slot rest k) = rest := by
  show tabGet [] (tabSet [] k.queues slot rest) slot = rest
  rw [tabGet_tabSet, if_pos rfl]

/-- A slot without replay holds what is left of its queue. -/
theorem queueOf_takeFront (cap slot : Nat) (x : Entry) (rest : List Entry) (k : Core) (h : replayOf slot k = []) :
    queueOf slot (takeFront cap slot x rest k) = rest := by
  have hreplay : ∀ u : Core, replayOf slot u = replayOf slot k → replayOf slot (noteEntry slot x (dequeue slot rest u)) = [] := by
    intro u hu
    rw [replayOf_noteEntry, ← h, ← hu]
    rfl
  unfold takeFront refill
  dsimp only
  rw [hreplay _ (by rfl), List.take_nil, List.foldl_nil]
  show queueOf slot (noteEntry slot x (dequeue slot rest _)) = rest
  rw [queueOf_noteEntry, queueOf_dequeue]

/-- The device ahead of a step's events: the engine's earlier posts have gone (R14). -/
def postsGone (e : Nat) (x : HStep) (s : State) : State :=
  if x.out = [] then s else takePosts e (postsInUse (engOf e s).core) s

/-- The device behind the entry and the POST words of a step. -/
def entryTaken (e slot : Nat) (en : Entry) (rest : List Entry) (x : HStep) (s : State) : State :=
  setCore e (fun k => emit (x.out.map postWord) (takeFront (queueCap (engOf e s)) slot en rest k)) (postsGone e x s)

/-- The device behind the events of a step. -/
def eventsTaken (e slot : Nat) (en : Entry) (rest : List Entry) (x : HStep) (s : State) : State :=
  if x.out = [] then entryTaken e slot en rest x s else portTakes e x.out (entryTaken e slot en rest x s)

theorem putStep_eq (h e slot : Nat) (en : Entry) (rest : List Entry) (x : HStep) (s : State) :
    putStep h e slot en rest x s =
      let w := eventsTaken e slot en rest x s
      let t := setHead h { headOf h w with ev := x.ev } w
      { t with free := x.free, frame := { w.frame with headFlt := w.frame.headFlt ++ x.flt.map fun b => (e, h, b) } } := by
  simp only [putStep, eventsTaken, entryTaken, postsGone, List.isEmpty_iff]
  rfl

theorem inStep_postsGone (e : Nat) (he : e < 512) (x : HStep) (s : State) (hi : InStep e s) :
    InStep e (postsGone e x s) ∧ (engOf e (postsGone e x s)).state = (engOf e s).state := by
  unfold postsGone
  split
  · exact ⟨hi, rfl⟩
  · exact takePosts_inStep e he _ s hi

/-- A step of the head program of an engine in service whose cores are in step does what HeadStepped says. -/
theorem headStepped_putStep (h e slot : Nat) (en : Entry) (rest : List Entry) (x : HStep) (s : State) (he : e < 512)
    (hi : InStep e s) (hserve : (engOf e s).state = .service) : HeadStepped h e slot en rest x s (putStep h e slot en rest x s) := by
  obtain ⟨hu, hsu⟩ := inStep_postsGone e he x s hi
  have hmoves : CoreMoves e (emit (x.out.map postWord) (takeFront (queueCap (engOf e s)) slot en rest
      (engOf e (postsGone e x s)).core)) (postsGone e x s) (entryTaken e slot en rest x s) :=
    coreMoves_setCore e he (fun k => emit (x.out.map postWord) (takeFront (queueCap (engOf e s)) slot en rest k)) _ hu
  have hv : InStep e (entryTaken e slot en rest x s) := inStep_setCore e he _ _ hu
  have hsv : (engOf e (entryTaken e slot en rest x s)).state = .service := (state_setCore e he _ _ hu).trans (hsu.trans hserve)
  have hcore := core_of_coreMoves hmoves
  obtain ⟨hcaught, hevents⟩ := portTakes_spec e x.out (entryTaken e slot en rest x s) hv hsv
  have hheads : (eventsTaken e slot en rest x s).heads = (entryTaken e slot en rest x s).heads := by
    unfold eventsTaken
    split
    · rfl
    · rw [hcaught.1]
  have hhead : ∀ j, headOf j (eventsTaken e slot en rest x s) = headOf j (entryTaken e slot en rest x s) := fun j => by
    rw [headOf, headOf, hheads]
  refine ⟨postsGone e x s, entryTaken e slot en rest x s, eventsTaken e slot en rest x s, rfl, hmoves, fun hr => ?_, fun ho => ?_,
    fun ho => ?_, ?_, ?_, ?_, fun j hj => ?_⟩
  · rw [hcore]
    exact queueOf_takeFront _ _ _ _ _ hr
  · rw [eventsTaken, if_pos ho]
  · rw [eventsTaken, if_neg ho]
    exact hcaught
  · by_cases ho : x.out = []
    · rw [eventsTaken, if_pos ho, ho]
      simp
    · rw [eventsTaken, if_neg ho]
      exact hevents
  · rw [putStep_eq]
    rfl
  · rw [putStep_eq, ← hhead]
    show headOf h (setHead h _ (eventsTaken e slot en rest x s)) = _
    rw [headOf_setHead, if_pos rfl]
  · rw [putStep_eq, ← hhead]
    show headOf j (setHead h _ (eventsTaken e slot en rest x s)) = _
    rw [headOf_setHead, if_neg hj]

/-- The engine of an entry that the head program reads serves, and its head context runs (R181). -/
theorem nextEntry_runs {h e slot : Nat} {en : Entry} {rest : List Entry} {s : State} (hn : nextEntry h s = some (e, slot, en, rest)) :
    (engOf e s).state = .service ∧ (engOf e s).core.head.halted = none := by
  unfold nextEntry at hn
  split at hn
  · cases hn
  · dsimp only at hn
    split at hn
    · rename_i hc
      split at hn
      · cases hn
        simp only [Bool.and_eq_true, beq_iff_eq, Option.isNone_iff_eq_none] at hc
        obtain ⟨⟨⟨⟨hs, hh⟩, -⟩, -⟩, -⟩ := hc
        exact ⟨hs, hh⟩
      · cases hn
    · cases hn

/-- The head program at an entry it reads. -/
theorem runHead_eq {h e slot : Nat} {en : Entry} {rest : List Entry} {s : State} (hn : nextEntry h s = some (e, slot, en, rest))
    (kind : Nat) (act : Entry → HStep → HStep) (when_ : Eval → Eval → Bool) :
    runHead kind act when_ h s =
      if doubles (streamHit slot 0 3) (engOf e s).core then ctxFault e .head fEccDed s
      else if entryKind en = kind then
        if when_ (headOf h s).ev (act en (hstepOf h en s)).ev then putStep h e slot en rest (act en (hstepOf h en s)) s else s
      else s := by
  unfold runHead
  rw [hn]
  simp only [beq_iff_eq]

theorem runHead_faults {h e slot : Nat} {en : Entry} {rest : List Entry} {s : State} (hn : nextEntry h s = some (e, slot, en, rest))
    (he : e < 512) (hi : InStep e s) (hbad : doubles (streamHit slot 0 3) (engOf e s).core = true) (kind : Nat)
    (act : Entry → HStep → HStep) (when_ : Eval → Eval → Bool) : FaultTaken e .head 0x05 s (runHead kind act when_ h s) := by
  rw [runHead_eq hn, if_pos hbad]
  exact faultTaken_ctxFault e he 0x05 s hi (nextEntry_runs hn).2

theorem runHead_steps {h e slot : Nat} {en : Entry} {rest : List Entry} {s : State} (hn : nextEntry h s = some (e, slot, en, rest))
    (he : e < 512) (hi : InStep e s) (hgood : doubles (streamHit slot 0 3) (engOf e s).core = false) {kind : Nat}
    (hkind : entryKind en = kind) {act : Entry → HStep → HStep} {when_ : Eval → Eval → Bool}
    (hwhen : when_ (headOf h s).ev (act en (hstepOf h en s)).ev = true) :
    HeadStepped h e slot en rest (act en (hstepOf h en s)) s (runHead kind act when_ h s) := by
  rw [runHead_eq hn, if_neg (by simp [hgood]), if_pos hkind, if_pos hwhen]
  exact headStepped_putStep h e slot en rest _ s he hi (nextEntry_runs hn).1

end Sys2Proof.Machine

namespace Sys2Proof.Machine

/-! ### Events of the head program (R89, R105, R183) -/

theorem endsIn_congr {st : HeadState} {cause : Nat} {x y : HStep} (h : EndsIn st cause x) (hstate : y.ev.state = x.ev.state)
    (hcause : y.ev.cause = x.ev.cause) (hout : y.out = x.out) (hn : y.n = x.n) : EndsIn st cause y := by
  unfold EndsIn at *
  rw [hstate, hcause, hout, hn]
  exact h

/-- A STATE event says the state it is posted in. -/
theorem endsIn_post (chg : Bool) (x : HStep) : EndsIn x.ev.state x.ev.cause (post chg x) :=
  ⟨rfl, rfl, x.out, stateEvent x chg, rfl, rfl, rfl, rfl⟩

theorem endsIn_enterState (st : HeadState) (cause : Nat) (t : Bell) (x : HStep) : EndsIn st cause (enterState st cause t x) :=
  endsIn_post true _

theorem enterState_bad (st : HeadState) (cause : Nat) (t : Bell) (x : HStep) :
    (enterState st cause t x).ev.a.bad = x.ev.a.bad ∧ (enterState st cause t x).ev.b.bad = x.ev.b.bad := by
  unfold enterState post
  dsimp only
  constructor <;> split <;> rfl

theorem enterState_base (st : HeadState) (cause : Nat) (t : Bell) (x : HStep) :
    (enterState st cause t x).ev.a.base = x.ev.a.base ∧ (enterState st cause t x).ev.b.base = x.ev.b.base := by
  unfold enterState post
  dsimp only
  constructor <;> split <;> rfl

/-- A step that has posted, and is the same but for that. -/
def PostedFrom (x y : HStep) : Prop := ∃ o p, y = { x with out := o, ev := { x.ev with posted := p } }

theorem postedFrom_announce (x : HStep) : PostedFrom x (announce x) := by
  unfold announce
  split
  · exact ⟨_, _, rfl⟩
  · exact ⟨x.out, x.ev.posted, rfl⟩

/-! ### Samples (R87 to R99, R410) -/

/-- The step as a sample meets it: SYSOK of each system is counted (R99). -/
def sysokNoted (en : Entry) (x : HStep) : HStep :=
  evalOf (announce x) fun e =>
    { e with a := { e.a with bad := if en.w1.getLsbD 25 then 0 else min 17 (e.a.bad + 1) },
             b := { e.b with bad := if en.w1.getLsbD 26 then 0 else min 17 (e.b.bad + 1) } }

theorem evalSample_eq (en : Entry) (x : HStep) :
    evalSample en x =
      if en.w1.getLsbD 25 && en.w1.getLsbD 26 then
        goodSample (entryTime en) (entryIq en.w2) (entryIq en.w3) (sysokNoted en x)
      else badSample (entryTime en) (sysokNoted en x) := rfl

theorem evalSample_good (en : Entry) (x : HStep) (h : en.w1.getLsbD 25 = true ∧ en.w1.getLsbD 26 = true) :
    evalSample en x = goodSample (entryTime en) (entryIq en.w2) (entryIq en.w3) (sysokNoted en x) := by
  rw [evalSample_eq, h.1, h.2]
  rfl

/-- The step at a sample with both SYSOK bits set. -/
theorem sysokNoted_good (en : Entry) (x : HStep) (h : en.w1.getLsbD 25 = true ∧ en.w1.getLsbD 26 = true) :
    PostedFrom { x with ev := { x.ev with a := { x.ev.a with bad := 0 }, b := { x.ev.b with bad := 0 } } } (sysokNoted en x) := by
  obtain ⟨o, p, ha⟩ := postedFrom_announce x
  refine ⟨o, p, ?_⟩
  rw [sysokNoted, ha, h.1, h.2]
  rfl

/-- 16 samples in a row without SYSOK (R99). -/
theorem endsIn_badSample (t : Bell) (x : HStep) (hf : x.ev.state ≠ .fault) (hu : x.ev.state ≠ .unassigned)
    (h : x.ev.a.bad = 16 ∨ x.ev.b.bad = 16) : EndsIn .fault 0x20 (badSample t x) := by
  have hc : ((x.ev.a.bad == 16 || x.ev.b.bad == 16) && x.ev.state != .fault && x.ev.state != .unassigned) = true := by
    simp [h, hf, hu]
  rw [badSample, if_pos hc]
  exact endsIn_enterState ..

theorem endsIn_sysokFault (en : Entry) (x : HStep) (hf : x.ev.state ≠ .fault) (hu : x.ev.state ≠ .unassigned)
    (h : en.w1.getLsbD 25 = false ∧ x.ev.a.bad = 15 ∨ en.w1.getLsbD 26 = false ∧ x.ev.b.bad = 15) :
    EndsIn .fault 0x20 (evalSample en x) := by
  have hno : (en.w1.getLsbD 25 && en.w1.getLsbD 26) = false := by
    rcases h with ⟨h, -⟩ | ⟨h, -⟩ <;> simp only [h, Bool.false_and, Bool.and_false]
  obtain ⟨o, p, ha⟩ := postedFrom_announce x
  rw [evalSample_eq, hno, if_neg nofun]
  refine endsIn_badSample _ _ ?_ ?_ ?_
  · rwa [sysokNoted, ha]
  · rwa [sysokNoted, ha]
  · rw [sysokNoted, ha]
    rcases h with ⟨h, hb⟩ | ⟨h, hb⟩
    · left
      simp only [evalOf, h, hb]
      rfl
    · right
      simp only [evalOf, h, hb]
      rfl

/-- SYSOK has been good for T_QUIET (R99). -/
theorem endsIn_sysokFaultExit (en : Entry) (x : HStep) (hf : x.ev.state = .fault) (hc : x.ev.cause = 0x20)
    (hok : en.w1.getLsbD 25 = true ∧ en.w1.getLsbD 26 = true) (hq : tQuiet ≤ elapsed (entryTime en) x.ev.quietAt) :
    EndsIn .baseline 0 (evalSample en x) := by
  obtain ⟨o, p, hx⟩ := sysokNoted_good en x hok
  rw [evalSample_good en x hok, hx]
  simp only [goodSample, hf, hc, hq, decide_true, beq_self_eq_true, Bool.and_self, if_true]
  exact endsIn_enterState ..

/-- What a sample of each system shows (R87). -/
def runA (t : Bell) (z : Int × Int) (x : HStep) : SysEval × Bool :=
  sysSample x.cfg t (damping x.free (vec2 z) x.ev.a.base) (dampPhase x.free (vec2 z) x.ev.a.base) x.ev.a

def runB (t : Bell) (z : Int × Int) (x : HStep) : SysEval × Bool :=
  sysSample x.cfg t (damping (x.free + 1) (vec2 z) x.ev.b.base) (dampPhase (x.free + 1) (vec2 z) x.ev.b.base) x.ev.b

theorem sysSample_conf (c : HeadCfg) (t : Bell) (d : Nat) (ph : Int) (s : SysEval) : (sysSample c t d ph s).1.conf = s.conf := by
  simp only [sysSample, apply_ite SysEval.conf, ite_self]

theorem stepBubble_eq (e : Eval) : (stepBubble e).1 = { e with bub := (stepBubble e).1.bub } := by
  unfold stepBubble
  split
  · rfl
  · split <;> rfl

/-- A sample of a head in PASSAGE or SUSPECT, ahead of what follows from it. -/
def sampledStep (t : Bell) (za zb : Int × Int) (x : HStep) : HStep :=
  { x with free := x.free + 2
           ev := (stepBubble { x.ev with a := (runA t za x).1, b := (runB t zb x).1 }).1 }

theorem sampledStep_ev (t : Bell) (za zb : Int × Int) (x : HStep) :
    (sampledStep t za zb x).ev = { x.ev with
      a := (runA t za x).1, b := (runB t zb x).1, bub := (sampledStep t za zb x).ev.bub } :=
  stepBubble_eq _

theorem trackSample_other (za zb : Int × Int) (da db : Nat) (e : Eval) (h : e.state ≠ .idle) : trackSample za zb da db e = e :=
  if_neg (by simpa using h)

/-- A sample of a head in PASSAGE or SUSPECT. -/
theorem goodSample_follows (t : Bell) (za zb : Int × Int) (x : HStep) (h : x.ev.state = .passage ∨ x.ev.state = .suspect) :
    goodSample t za zb x =
      if (sampledStep t za zb x).ev.state == .suspect then suspectSample t (runA t za x).2 (runB t zb x).2 (sampledStep t za zb x)
      else patternSample t (stepBubble { x.ev with a := (runA t za x).1, b := (runB t zb x).1 }).2 (runA t za x).2 (runB t zb x).2
        (sampledStep t za zb x) := by
  have htrack : trackSample za zb (damping x.free (vec2 za) x.ev.a.base) (damping (x.free + 1) (vec2 zb) x.ev.b.base)
      { x.ev with a := (runA t za x).1, b := (runB t zb x).1 } = { x.ev with a := (runA t za x).1, b := (runB t zb x).1 } :=
    trackSample_other _ _ _ _ _ (by rcases h with h | h <;> simp [h])
  unfold goodSample
  dsimp only
  split
  case h_5 =>
    simp only [evalOf, Nat.add_sub_cancel]
    unfold runA runB at htrack
    rw [htrack]
    rfl
  all_goals
    rename_i hs
    rw [hs] at h
    simp at h

/-- No change is confirmed at a sample of a passage: the standing test (R96). -/
theorem goodSample_passage (t : Bell) (za zb : Int × Int) (x : HStep) (h : x.ev.state = .passage)
    (ha : (runA t za x).2 = false) (hb : (runB t zb x).2 = false) (ht : tStand ≤ elapsed t x.ev.changedAt) :
    goodSample t za zb x = stand t (sampledStep t za zb x) := by
  have hev := sampledStep_ev t za zb x
  have hstate : (sampledStep t za zb x).ev.state = .passage := by rw [hev]; exact h
  have hchanged : (sampledStep t za zb x).ev.changedAt = x.ev.changedAt := by rw [hev]
  rw [goodSample_follows t za zb x (.inl h), ha, hb, hstate, if_neg nofun]
  simp only [patternSample, hstate, hchanged, ht, decide_true, beq_self_eq_true, Bool.and_self, if_true]

theorem goodSample_suspect (t : Bell) (za zb : Int × Int) (x : HStep) (h : x.ev.state = .suspect)
    (ha : (runA t za x).2 = false) (hb : (runB t zb x).2 = false) :
    goodSample t za zb x = suspectSample t false false (sampledStep t za zb x) := by
  have hstate : (sampledStep t za zb x).ev.state = .suspect := by rw [sampledStep_ev]; exact h
  rw [goodSample_follows t za zb x (.inr h), ha, hb, hstate, if_pos (beq_self_eq_true _)]

/-- A passage at rest for T_STAND (R92, R96). -/
theorem endsIn_stand (t : Bell) (x : HStep) (ha : x.ev.a.conf = true → burstOk x.cfg true x.ev.a = true)
    (hb : x.ev.b.conf = true → burstOk x.cfg true x.ev.b = true) :
    EndsIn .standing x.ev.cause (stand t x) ∧ (stand t x).ev.stood = true := by
  have hc : ((x.ev.a.conf && !burstOk x.cfg true x.ev.a) || (x.ev.b.conf && !burstOk x.cfg true x.ev.b)) = false := by
    rw [Bool.or_eq_false_iff]
    constructor
    · cases h : x.ev.a.conf
      · rfl
      · rw [ha h]
        rfl
    · cases h : x.ev.b.conf
      · rfl
      · rw [hb h]
        rfl
  rw [stand, hc, if_neg nofun]
  exact ⟨endsIn_post true _, rfl⟩

theorem evalSample_standing (en : Entry) (x : HStep) (hs : x.ev.state = .passage)
    (hok : en.w1.getLsbD 25 = true ∧ en.w1.getLsbD 26 = true)
    (ha : (runA (entryTime en) (entryIq en.w2) { x with ev := { x.ev with a := { x.ev.a with bad := 0 } } }).2 = false)
    (hb : (runB (entryTime en) (entryIq en.w3) { x with ev := { x.ev with b := { x.ev.b with bad := 0 } } }).2 = false)
    (ht : tStand ≤ elapsed (entryTime en) x.ev.changedAt) (hc : x.ev.cause = 0)
    (hba : let a := (runA (entryTime en) (entryIq en.w2) { x with ev := { x.ev with a := { x.ev.a with bad := 0 } } }).1
      a.conf = true → burstOk x.cfg true a = true)
    (hbb : let b := (runB (entryTime en) (entryIq en.w3) { x with ev := { x.ev with b := { x.ev.b with bad := 0 } } }).1
      b.conf = true → burstOk x.cfg true b = true) :
    EndsIn .standing 0 (evalSample en x) ∧ (evalSample en x).ev.stood = true := by
  obtain ⟨o, p, hx⟩ := sysokNoted_good en x hok
  rw [evalSample_good en x hok, goodSample_passage _ _ _ _ (by rw [hx]; exact hs) (by rw [hx]; exact ha) (by rw [hx]; exact hb)
    (by rw [hx]; exact ht)]
  have hev := sampledStep_ev (entryTime en) (entryIq en.w2) (entryIq en.w3) (sysokNoted en x)
  have hstand := endsIn_stand (entryTime en) (sampledStep (entryTime en) (entryIq en.w2) (entryIq en.w3) (sysokNoted en x))
    (by rw [hev, hx]; exact hba) (by rw [hev, hx]; exact hbb)
  have hcause : (sampledStep (entryTime en) (entryIq en.w2) (entryIq en.w3) (sysokNoted en x)).ev.cause = 0 := by
    rw [hev, hx]
    exact hc
  rwa [hcause] at hstand

/-- A head in SUSPECT with both systems at rest for T_QUIET (R410). -/
theorem evalSample_suspectExit (en : Entry) (x : HStep) (hs : x.ev.state = .suspect)
    (hok : en.w1.getLsbD 25 = true ∧ en.w1.getLsbD 26 = true)
    (ha : (runA (entryTime en) (entryIq en.w2) { x with ev := { x.ev with a := { x.ev.a with bad := 0 } } }).2 = false)
    (hb : (runB (entryTime en) (entryIq en.w3) { x with ev := { x.ev with b := { x.ev.b with bad := 0 } } }).2 = false)
    (hca : x.ev.a.conf = false) (hcb : x.ev.b.conf = false) (hq : tQuiet ≤ elapsed (entryTime en) x.ev.quietAt) :
    EndsIn (if x.ev.cause = 0x14 then .baseline else .idle) 0 (evalSample en x) := by
  obtain ⟨o, p, hx⟩ := sysokNoted_good en x hok
  rw [evalSample_good en x hok, goodSample_suspect _ _ _ _ (by rw [hx]; exact hs) (by rw [hx]; exact ha) (by rw [hx]; exact hb)]
  have hev := sampledStep_ev (entryTime en) (entryIq en.w2) (entryIq en.w3) (sysokNoted en x)
  generalize hy : sampledStep (entryTime en) (entryIq en.w2) (entryIq en.w3) (sysokNoted en x) = y at hev
  have hya : y.ev.a.conf = false := by
    rw [hev, hx]
    exact (sysSample_conf ..).trans hca
  have hyb : y.ev.b.conf = false := by
    rw [hev, hx]
    exact (sysSample_conf ..).trans hcb
  have hyq : y.ev.quietAt = x.ev.quietAt := by rw [hev, hx]
  have hyc : y.ev.cause = x.ev.cause := by rw [hev, hx]
  simp only [suspectSample, evalOf, hya, hyb, hyq, hyc, hq, Bool.or_self, Bool.false_eq_true, if_false,
    Bool.not_false, decide_true, Bool.and_self, if_true, beq_iff_eq]
  split
  · exact endsIn_enterState ..
  · exact endsIn_enterState ..

end Sys2Proof.Machine

namespace Sys2Proof.Machine

/-! ### Bubble tokens (R97 to R99) -/

theorem missing_bad (t : Bell) (n : Nat) (x : HStep) :
    (missing t n x).ev.a.bad = x.ev.a.bad ∧ (missing t n x).ev.b.bad = x.ev.b.bad := by
  unfold missing
  dsimp only
  split
  · exact ⟨rfl, rfl⟩
  · split
    · split
      · exact enterState_bad ..
      · exact ⟨rfl, rfl⟩
    · exact ⟨rfl, rfl⟩

/-- A bubble ends a run of samples without SYSOK (R99). -/
theorem takeBubble_bad (en : Entry) (x : HStep) : (takeBubble en x).ev.a.bad = 0 ∧ (takeBubble en x).ev.b.bad = 0 := by
  unfold takeBubble
  dsimp only
  split
  · exact enterState_bad ..
  · exact missing_bad ..

/-- A bubble of cause GN8_OUT or RING_DOWN (R97). -/
theorem endsIn_takeBubble (en : Entry) (x : HStep)
    (hc : en.w2.toNat / 2 ^ 16 % 2 ^ 8 = 4 ∨ en.w2.toNat / 2 ^ 16 % 2 ^ 8 = 5) (hu : x.ev.state ≠ .unassigned)
    (hf : ¬(x.ev.state = .fault ∧ x.ev.cause = 0x21)) : EndsIn .fault 0x21 (takeBubble en x) := by
  unfold takeBubble
  dsimp only
  rw [if_pos ⟨hc, hu, hf⟩]
  exact endsIn_enterState ..

/-! ### The end of a frame (R84 to R86, R183) -/

/-- The step with the refresh that a frame's end may bring (R183), and the next frame open. -/
def frameClosed (x : HStep) : HStep :=
  let y := if x.ev.state != .unassigned && needsRefresh x then post false x else x
  evalOf y (openFrame y.ringUp)

/-- What the end of a frame leaves of a step. -/
theorem frameClosed_keeps (x : HStep) :
    (frameClosed x).ev.state = x.ev.state ∧ (frameClosed x).ev.cause = x.ev.cause ∧ (frameClosed x).ev.a = x.ev.a ∧
    (frameClosed x).ev.b = x.ev.b ∧ (frameClosed x).flt = x.flt ∧ (frameClosed x).ev.learn.frames = x.ev.learn.frames ∧
    (frameClosed x).ev.learn.drift = x.ev.learn.drift ∧ (frameClosed x).ev.learn.noise = x.ev.learn.noise := by
  have hopen : ∀ (r : Bool) (e : Eval), (openFrame r e).learn.frames = e.learn.frames ∧
      (openFrame r e).learn.drift = e.learn.drift ∧ (openFrame r e).learn.noise = e.learn.noise := by
    intro r e
    unfold openFrame
    dsimp only
    split <;> exact ⟨rfl, rfl, rfl⟩
  unfold frameClosed
  dsimp only
  split
  · exact ⟨rfl, rfl, rfl, rfl, rfl, hopen _ _⟩
  · exact ⟨rfl, rfl, rfl, rfl, rfl, hopen _ _⟩

/-- The refresh says the state that the latest event says. -/
theorem endsIn_frameClosed {st : HeadState} {cause : Nat} {x : HStep} (h : EndsIn st cause x) : EndsIn st cause (frameClosed x) := by
  have ⟨hstate, hcause, _⟩ := h
  unfold frameClosed
  dsimp only
  split
  · have hpost := endsIn_post false x
    rw [hstate, hcause] at hpost
    exact endsIn_congr hpost rfl rfl rfl rfl
  · exact endsIn_congr h rfl rfl rfl rfl

/-- A frame of a learning window has ended, ahead of its verdict (R84). -/
def frameLearnt (x : HStep) : HStep := evalOf x fun e => { e with learn := { e.learn with frames := e.learn.frames + 1 } }

theorem evalMark_learns (en : Entry) (x : HStep) (hl : learns x.ev.state = true) (ho : x.ev.learn.open_ = true) :
    evalMark en x = frameClosed (learnFrame (entryTime en) (announce x)) := by
  obtain ⟨o, p, hx⟩ := postedFrom_announce x
  have hc : (learns (announce x).ev.state && (announce x).ev.learn.open_) = true := by
    rw [hx]
    dsimp only
    rw [hl, ho]
    rfl
  unfold evalMark
  dsimp only
  rw [if_pos hc]
  rfl

theorem evalMark_idle (en : Entry) (x : HStep) (hs : x.ev.state = .idle) (hw : x.ev.wholeIdle = true) :
    evalMark en x = frameClosed (trackFrame (entryTime en) (announce x)) := by
  obtain ⟨o, p, hx⟩ := postedFrom_announce x
  have hno : ¬(learns (announce x).ev.state && (announce x).ev.learn.open_) = true := by
    rw [hx]
    dsimp only
    rw [hs]
    exact nofun
  have hc : ((announce x).ev.state == .idle && (announce x).ev.wholeIdle) = true := by
    rw [hx]
    dsimp only
    rw [hs, hw]
    rfl
  unfold evalMark
  dsimp only
  rw [if_neg hno, if_pos hc]
  rfl

theorem judgeWindow_announce (x : HStep) : judgeWindow (frameLearnt (announce x)) = judgeWindow (frameLearnt x) := by
  obtain ⟨o, p, hx⟩ := postedFrom_announce x
  rw [hx]
  rfl

/-- The same, the sizes of the window's samples having been judged. -/
def frameJudged (x : HStep) : HStep := { frameLearnt x with free := x.free + 2 + 2 * x.ev.learn.samples.length }

theorem learnFrame_eq (t : Bell) (x : HStep) :
    learnFrame t x = match judgeWindow (frameLearnt x) with
      | .goesOn => frameJudged x
      | .occupied => if x.ev.state == .baseline then enterState .occupiedAtStart 0 t (frameJudged x) else closeWindow 0 0 (frameJudged x)
      | .drift => if 8 ≤ x.ev.learn.drift + 1 then enterState .fault 0x23 t (frameJudged x)
        else flag 8 (closeWindow (x.ev.learn.drift + 1) 0 (frameJudged x))
      | .noise => if 8 ≤ x.ev.learn.noise + 1 then enterState .fault 0x24 t (frameJudged x)
        else flag 9 (closeWindow 0 (x.ev.learn.noise + 1) (frameJudged x))
      | .gap => closeWindow x.ev.learn.drift x.ev.learn.noise (frameJudged x)
      | .good a b => enterState .idle 0 t (evalOf (frameJudged x) fun e =>
          { e with learn := .reset, a := { SysEval.reset with base := a, bad := e.a.bad }
                   b := { SysEval.reset with base := b, bad := e.b.bad } }) := rfl

theorem learns_cases {st : HeadState} (h : learns st = true) : st = .baseline ∨ st = .occupiedAtStart := by
  cases st <;> simp [learns] at h ⊢

/-- A frame of a learning window ends with a verdict (R84, R85). -/
theorem learnFrame_spec (t : Bell) (x : HStep) (hl : learns x.ev.state = true) :
    let l := x.ev.learn
    let v := judgeWindow (frameLearnt x)
    let y := learnFrame t x
    (v = .goesOn → y.ev.state = x.ev.state ∧ y.ev.learn.frames = l.frames + 1) ∧
    (v = .occupied → y.ev.state = .occupiedAtStart) ∧
    (v = .drift → if 7 ≤ l.drift then y.ev.state = .fault ∧ y.ev.cause = 0x23
      else y.ev.state = x.ev.state ∧ y.ev.learn.drift = l.drift + 1 ∧ 8 ∈ y.flt) ∧
    (v = .noise → if 7 ≤ l.noise then y.ev.state = .fault ∧ y.ev.cause = 0x24
      else y.ev.state = x.ev.state ∧ y.ev.learn.noise = l.noise + 1 ∧ 9 ∈ y.flt) ∧
    (v = .gap → y.ev.state = x.ev.state ∧ y.ev.learn.drift = l.drift ∧ y.ev.learn.noise = l.noise) ∧
    (∀ ba bb, v = .good ba bb → y.ev.state = .idle ∧ y.ev.a.base = ba ∧ y.ev.b.base = bb) := by
  intro l v y
  have hy : y = learnFrame t x := rfl
  rw [learnFrame_eq] at hy
  have hlimit : ∀ n : Nat, 8 ≤ n + 1 ↔ 7 ≤ n := fun n => by omega
  refine ⟨fun hv => ?_, fun hv => ?_, fun hv => ?_, fun hv => ?_, fun hv => ?_, fun ba bb hv => ?_⟩
  all_goals
    rw [show judgeWindow (frameLearnt x) = _ from hv] at hy
    dsimp only at hy
  · rw [hy]
    exact ⟨rfl, rfl⟩
  · rw [hy]
    rcases learns_cases hl with hs | hs <;> rw [hs]
    · rfl
    · exact hs
  · simp only [hlimit] at hy
    split
    · rename_i h7
      rw [hy, if_pos h7]
      exact ⟨rfl, rfl⟩
    · rename_i h7
      rw [hy, if_neg h7]
      exact ⟨rfl, rfl, List.mem_append_right _ (List.mem_singleton_self 8)⟩
  · simp only [hlimit] at hy
    split
    · rename_i h7
      rw [hy, if_pos h7]
      exact ⟨rfl, rfl⟩
    · rename_i h7
      rw [hy, if_neg h7]
      exact ⟨rfl, rfl, List.mem_append_right _ (List.mem_singleton_self 9)⟩
  · rw [hy]
    exact ⟨rfl, rfl, rfl⟩
  · rw [hy]
    exact ⟨rfl, rfl, rfl⟩

/-- The baselines have moved with the frame's means (R86). -/
def basesMoved (x : HStep) : HStep :=
  { x with
    free := x.free + 2
    ev := { x.ev with
      a := { x.ev.a with base := trackBase x.ev.lowA x.ev.sumA x.ev.n x.ev.a.base }
      b := { x.ev.b with base := trackBase x.ev.lowB x.ev.sumB x.ev.n x.ev.b.base } } }

theorem trackFrame_eq (t : Bell) (x : HStep) :
    trackFrame t x =
      if (x.ev.lowA && x.ev.n != 0 && decide (driftMax < damping x.free (basesMoved x).ev.a.base (vec2 x.cfg.zcA))) ||
          (x.ev.lowB && x.ev.n != 0 && decide (driftMax < damping (x.free + 1) (basesMoved x).ev.b.base (vec2 x.cfg.zcB))) then
        enterState .suspect 0x14 t (basesMoved x)
      else basesMoved x := rfl

/-- A frame spent wholly in IDLE (R86). -/
theorem trackFrame_spec (t : Bell) (x : HStep) (hs : x.ev.state = .idle) :
    let ba := trackBase x.ev.lowA x.ev.sumA x.ev.n x.ev.a.base
    let bb := trackBase x.ev.lowB x.ev.sumB x.ev.n x.ev.b.base
    let far := (x.ev.lowA = true ∧ x.ev.n ≠ 0 ∧ driftMax < damping x.free ba (vec2 x.cfg.zcA)) ∨
      (x.ev.lowB = true ∧ x.ev.n ≠ 0 ∧ driftMax < damping (x.free + 1) bb (vec2 x.cfg.zcB))
    let y := trackFrame t x
    y.ev.a.base = ba ∧ y.ev.b.base = bb ∧ (far → EndsIn .suspect 0x14 y) ∧ (¬far → y.ev.state = .idle) := by
  intro ba bb far y
  have hfar : ((x.ev.lowA && x.ev.n != 0 && decide (driftMax < damping x.free (basesMoved x).ev.a.base (vec2 x.cfg.zcA))) ||
      (x.ev.lowB && x.ev.n != 0 && decide (driftMax < damping (x.free + 1) (basesMoved x).ev.b.base (vec2 x.cfg.zcB)))) = true ↔
      far := by
    simp only [Bool.or_eq_true, Bool.and_eq_true, bne_iff_ne, decide_eq_true_iff, and_assoc]
    exact Iff.rfl
  have hy : y = trackFrame t x := rfl
  rw [trackFrame_eq] at hy
  by_cases hf : far
  · rw [if_pos (hfar.2 hf)] at hy
    rw [hy]
    exact ⟨(enterState_base ..).1, (enterState_base ..).2, fun _ => endsIn_enterState .., fun h => absurd hf h⟩
  · rw [if_neg (mt hfar.1 hf)] at hy
    rw [hy]
    exact ⟨rfl, rfl, fun h => absurd h hf, fun _ => hs⟩

end Sys2Proof.Machine

namespace Sys2Proof.Machine

/-! ### The clauses of the statement -/

/-- Every row of the head program meets an uncorrectable error in the entry in front (R163). -/
theorem headRows_fault {h : HeadIx} {e slot : Nat} {en : Entry} {rest : List Entry} {s : State}
    (hn : nextEntry h s = some (e, slot, en, rest)) (he : e < 512) (hi : InStep e s)
    (hbad : doubles (streamHit slot 0 3) (engOf e s).core = true) :
    ∀ c ∈ [Instr.sampleEvaluate h, .sysokFault h, .sysokFaultExit h, .standingEntry h, .suspectExit h, .bubbleRead h,
      .learningWindowJudge h, .baselineTrack h], ∃ t, exec c s = .next t ∧ FaultTaken e .head 0x05 s t := by
  have faults := runHead_faults hn he hi hbad
  intro c hc
  simp only [List.mem_cons, List.not_mem_nil, or_false] at hc
  rcases hc with rfl | rfl | rfl | rfl | rfl | rfl | rfl | rfl
  all_goals exact ⟨_, rfl, faults ..⟩

/-- The rows of a sample entry that follow from what it shows (R87 to R99, R410). -/
theorem sampleRows {h : HeadIx} {e slot : Nat} {en : Entry} {rest : List Entry} {s : State}
    (hn : nextEntry h s = some (e, slot, en, rest)) (he : e < 512) (hi : InStep e s)
    (hgood : doubles (streamHit slot 0 3) (engOf e s).core = false) (hkind : entryKind en = 0) :
    let y := evalSample en (hstepOf h en s)
    let ev := (headOf h s).ev
    let steps := fun (c : Instr) => ∃ t, exec c s = .next t ∧ HeadStepped h e slot en rest y s t
    steps (.sampleEvaluate h) ∧
    (ev.state ≠ .fault → EndsIn .fault 0x20 y → steps (.sysokFault h)) ∧
    (ev.state = .fault → ev.cause = 0x20 → EndsIn .baseline 0 y → steps (.sysokFaultExit h)) ∧
    (ev.state = .passage → EndsIn .standing 0 y → steps (.standingEntry h)) ∧
    (ev.state = .suspect → EndsIn (if ev.cause = 0x14 then .baseline else .idle) 0 y → steps (.suspectExit h)) := by
  intro y ev steps
  have row : ∀ when_ : Eval → Eval → Bool, when_ ev y.ev = true →
      HeadStepped h e slot en rest y s (runHead 0 evalSample when_ h s) := fun when_ hw => runHead_steps hn he hi hgood hkind hw
  refine ⟨⟨_, rfl, row _ rfl⟩, fun hs hy => ⟨_, rfl, row _ ?_⟩, fun hs hc hy => ⟨_, rfl, row _ ?_⟩,
    fun hs hy => ⟨_, rfl, row _ ?_⟩, fun hs hy => ⟨_, rfl, row _ ?_⟩⟩
  · simp [hs, hy.1, hy.2.1]
  · simp [hs, hc, hy.1]
  · simp [hs, hy.1]
  · rw [hs, hy.1]
    split <;> rfl

/-- The mark of a frame of a learning window (R84, R85). -/
theorem evalMark_judged (en : Entry) (x : HStep) (hl : learns x.ev.state = true) (ho : x.ev.learn.open_ = true) :
    let l := x.ev.learn
    let v := judgeWindow (frameLearnt x)
    let y := evalMark en x
    (v = .goesOn → y.ev.state = x.ev.state ∧ y.ev.learn.frames = l.frames + 1) ∧
    (v = .occupied → y.ev.state = .occupiedAtStart) ∧
    (v = .drift → if 7 ≤ l.drift then y.ev.state = .fault ∧ y.ev.cause = 0x23
      else y.ev.state = x.ev.state ∧ y.ev.learn.drift = l.drift + 1 ∧ 8 ∈ y.flt) ∧
    (v = .noise → if 7 ≤ l.noise then y.ev.state = .fault ∧ y.ev.cause = 0x24
      else y.ev.state = x.ev.state ∧ y.ev.learn.noise = l.noise + 1 ∧ 9 ∈ y.flt) ∧
    (v = .gap → y.ev.state = x.ev.state ∧ y.ev.learn.drift = l.drift ∧ y.ev.learn.noise = l.noise) ∧
    (∀ ba bb, v = .good ba bb → y.ev.state = .idle ∧ y.ev.a.base = ba ∧ y.ev.b.base = bb) := by
  intro l v y
  have hy : y = frameClosed (learnFrame (entryTime en) (announce x)) := evalMark_learns en x hl ho
  obtain ⟨o, p, hx⟩ := postedFrom_announce x
  have hstate : (announce x).ev.state = x.ev.state := by rw [hx]
  have hlearn : (announce x).ev.learn = l := by rw [hx]
  have hspec := learnFrame_spec (entryTime en) (announce x) (by rw [hstate]; exact hl)
  rw [judgeWindow_announce, hstate, hlearn] at hspec
  obtain ⟨kstate, kcause, ka, kb, kflt, kframes, kdrift, knoise⟩ := frameClosed_keeps (learnFrame (entryTime en) (announce x))
  rw [hy, kstate, kcause, ka, kb, kflt, kframes, kdrift, knoise]
  exact hspec

/-- The mark of a frame spent wholly in IDLE (R86). -/
theorem evalMark_tracked (en : Entry) (x : HStep) (hs : x.ev.state = .idle) (hw : x.ev.wholeIdle = true) :
    let ba := trackBase x.ev.lowA x.ev.sumA x.ev.n x.ev.a.base
    let bb := trackBase x.ev.lowB x.ev.sumB x.ev.n x.ev.b.base
    let far := (x.ev.lowA = true ∧ x.ev.n ≠ 0 ∧ driftMax < damping x.free ba (vec2 x.cfg.zcA)) ∨
      (x.ev.lowB = true ∧ x.ev.n ≠ 0 ∧ driftMax < damping (x.free + 1) bb (vec2 x.cfg.zcB))
    let y := evalMark en x
    y.ev.a.base = ba ∧ y.ev.b.base = bb ∧ (far → EndsIn .suspect 0x14 y) ∧ (¬far → y.ev.state = .idle) := by
  intro ba bb far y
  have hy : y = frameClosed (trackFrame (entryTime en) (announce x)) := evalMark_idle en x hs hw
  obtain ⟨o, p, hx⟩ := postedFrom_announce x
  obtain ⟨hba, hbb, hfar, hnear⟩ : (trackFrame (entryTime en) (announce x)).ev.a.base = ba ∧
      (trackFrame (entryTime en) (announce x)).ev.b.base = bb ∧
      (far → EndsIn .suspect 0x14 (trackFrame (entryTime en) (announce x))) ∧
      (¬far → (trackFrame (entryTime en) (announce x)).ev.state = .idle) := by
    rw [hx]
    exact trackFrame_spec (entryTime en) { x with out := o, ev := { x.ev with posted := p } } hs
  obtain ⟨kstate, -, ka, kb, -⟩ := frameClosed_keeps (trackFrame (entryTime en) (announce x))
  rw [hy, ka, kb, kstate]
  exact ⟨hba, hbb, fun h => endsIn_frameClosed (hfar h), hnear⟩

/-- Settles O47: each row takes its entry by one rule of the engine's cores in step, and what its step shows follows from the
evaluation's own functions, case by case. -/
theorem headEvaluation : Obligations.HeadEvaluation := by
  unfold Obligations.HeadEvaluation
  intro h e slot en rest s hn he hi x ev t0 a b ok calm quiet bad steps
  refine ⟨headRows_fault hn he hi, fun hgood hkind => ?_, fun hgood hkind => ?_, fun hgood hkind => ?_⟩
  · obtain ⟨hsample, hfault, hexit, hstanding, hsuspect⟩ := sampleRows hn he hi hgood hkind
    refine ⟨hsample, fun hf hu hok hb => ?_, fun hf hu hok hb => ?_, fun hf hc hok hq => ?_,
      fun hs hok hcalm ht hc hba hbb => ?_, fun hs hok hcalm hca hcb hq => ?_⟩
    · have hy := endsIn_sysokFault en x hf hu (.inl ⟨hok, hb⟩)
      exact ⟨hfault hf hy, hy⟩
    · have hy := endsIn_sysokFault en x hf hu (.inr ⟨hok, hb⟩)
      exact ⟨hfault hf hy, hy⟩
    · have hy := endsIn_sysokFaultExit en x hf hc hok hq
      exact ⟨hexit hf hc hy, hy⟩
    · obtain ⟨hy, hstood⟩ := evalSample_standing en x hs hok hcalm.1 hcalm.2 ht hc hba hbb
      exact ⟨hstanding hs hy, hy, hstood⟩
    · have hy := evalSample_suspectExit en x hs hok hcalm.1 hcalm.2 hca hcb hq
      exact ⟨hsuspect hs hy, hy⟩
  · obtain ⟨hba, hbb⟩ := takeBubble_bad en (announce x)
    have hrow : HeadStepped h e slot en rest (takeBubble en (announce x)) s
        (runHead 1 (fun en x => takeBubble en (announce x)) always h s) :=
      runHead_steps hn he hi hgood hkind (act := fun en x => takeBubble en (announce x)) rfl
    refine ⟨⟨_, rfl, hrow⟩, hba, hbb, fun hc hu hf => ?_⟩
    obtain ⟨o, p, hx⟩ := postedFrom_announce x
    exact endsIn_takeBubble en (announce x) hc (by rw [hx]; exact hu) (by rw [hx]; exact hf)
  · intro y
    refine ⟨fun hl ho => ?_, fun hl => ⟨_, rfl, runHead_steps hn he hi hgood hkind ?_⟩, fun hs hw => ?_⟩
    · exact ⟨⟨_, rfl, runHead_steps hn he hi hgood hkind hl⟩, evalMark_judged en x hl ho⟩
    · show (!learns ev.state) = true
      rw [hl]
      rfl
    · intro ba bb far
      obtain ⟨hba, hbb, hfar, hnear⟩ := evalMark_tracked en x hs hw
      refine ⟨hba, hbb, ?_⟩
      split
      · rename_i hf
        exact hfar hf
      · rename_i hf
        exact hnear hf

end Sys2Proof.Machine

/-! ## O1 and O22: a step, and the state after reset (R23, R24, R328) -/

namespace Sys2Proof.Machine

/-- Settles O1, by what waits in the queue. -/
theorem stepRunsFrontCommand : Obligations.StepRunsFrontCommand := by
  unfold Obligations.StepRunsFrontCommand
  refine ⟨fun c rest s h => ?_, fun s h => ?_⟩
  · rw [step, h]
  · rw [step, h]

/-- After reset D00 is in service, D01 ramps, and every other domain is off (R328). -/
theorem domOf_reset (d : Nat) :
    (domOf d State.reset).state = if d = 0 then .on else if d = 1 then .ramp else .off := by
  by_cases h0 : d = 0
  · subst h0
    rfl
  · by_cases h1 : d = 1
    · subst h1
      rfl
    · simp only [domOf, State.reset, PmcSt.reset, tabGet, h0, h1, if_false]
      rfl

theorem canonical_reset : Canonical State.reset := by
  obtain ⟨hdoms, ha, hb, hma, hwa, hmb, hwb⟩ := reset_tables_wf
  exact ⟨rfl, rfl, rfl, rfl, rfl, rfl, hdoms, rfl, rfl, rfl, rfl, rfl, rfl, ha, hb, hwa, hma, rfl, hwb, hmb, rfl⟩

theorem outputsFollow_reset : OutputsFollow State.reset := by
  refine ⟨rfl, fun g => ?_⟩
  show OutputsOf Grp.reset
  simp [OutputsOf, Grp.reset]

theorem coresAgree_reset (e : Nat) : CoresAgree e State.reset := by
  have hcore : (engOf e State.reset).core = Core.reset := rfl
  unfold CoresAgree
  rw [hcore]
  exact ⟨rfl, rfl, rfl, by simp [Core.reset, Shadow.reset], fun _ => by simp [Core.reset, Shadow.reset]⟩

/-- Settles O22: the fields as they are written, the domains, and each invariant. -/
theorem resetState : Obligations.ResetState := by
  unfold Obligations.ResetState
  intro s
  exact ⟨rfl, by decide, rfl, rfl, rfl, rfl, rfl, rfl, rfl, rfl, rfl, fun _ _ => rfl, rfl, fun _ => rfl, fun _ => rfl,
    fun _ => rfl, fun _ => rfl, fun _ => ⟨rfl, rfl⟩, fun _ => ⟨rfl, rfl, rfl, rfl⟩, domOf_reset, rfl, rfl, rfl, rfl, rfl,
    canonical_reset, outputsFollow_reset, coresAgree_reset⟩

end Sys2Proof.Machine

/-! ## O23: the bell's registers (R27, R28, R49 to R51, R380, R383) -/

namespace Sys2Proof.Machine

theorem canAccess_bell (p : HostId) (s : State) (hup : hostUp p s = true)
    (hon : domOn (if s.bell.outA then 3 else 2) s = true) : canAccess p (bellDom s) s = true := by
  simp [canAccess, bellDom, hup, hon]

theorem bitsNat_low15 (v : Word) : bitsNat v.toNat 0 15 = v.toNat % 2 ^ 15 := by simp [bitsNat]

theorem writePeriod_inRange (v : Word) (s : State) (hlo : 1250 ≤ v.toNat % 2 ^ 15) (hhi : v.toNat % 2 ^ 15 ≤ 20000) :
    writePeriod v s = { s with bell := { s.bell with period := v.toNat % 2 ^ 15 } } := by
  simp only [writePeriod, bitsNat_low15]
  rw [if_pos ⟨hlo, hhi⟩]

theorem raises_writePeriod (v : Word) (s : State) (h : v.toNat % 2 ^ 15 < 1250 ∨ 20000 < v.toNat % 2 ^ 15) :
    Raises [(clsBell, 0, 7)] s (writePeriod v s) := by
  simp only [writePeriod, bitsNat_low15]
  rw [if_neg (by omega)]
  exact raises_sticky clsBell 0 7 (by decide) (by decide) s

/-- The lock wins over a write. -/
theorem bellTake_locked (off : Nat) (v : Word) (s : State) (h : s.bell.locked = true) : bellTake off v s = s := by
  simp [bellTake, h]

/-- Ahead of the judgement of a START a write waits (R380). -/
theorem bellTake_waits (off : Nat) (v : Word) (s : State) (h : s.bell.locked = false) (hstart : s.dev.startTick = true) :
    bellTake off v s = { s with bell := { s.bell with waits := s.bell.waits ++ [(off, v)] } } := by
  simp [bellTake, h, hstart]

theorem bellTake_open (off : Nat) (v : Word) (s : State) (h : s.bell.locked = false) (hstart : s.dev.startTick = false) :
    bellTake off v s = bellRwl off v s := by
  simp [bellTake, h, hstart]

/-- Settles O23: each access reaches the block, and a write goes by the lock and by START. -/
theorem bellRegisterAccesses : Obligations.BellRegisterAccesses := by
  unfold Obligations.BellRegisterAccesses
  intro p v s n hup hon
  have hacc := canAccess_bell p s hup hon
  have hload : exec (.bellLoad p) s = .next (bellTake 0x04 1 s) := by
    show execBellLoad p s = _
    rw [execBellLoad, if_pos hacc]
  have hpps : exec (.bellLoadPps p) s = .next (bellTake 0x04 2 s) := by
    show execBellLoadPps p s = _
    rw [execBellLoadPps, if_pos hacc]
  have hperiod : exec (.bellPeriodWrite p v) s = .next (bellTake 0x08 v s) := by
    show execBellPeriodWrite p v s = _
    rw [execBellPeriodWrite, if_pos hacc]
  rw [hload, hpps, hperiod]
  refine ⟨fun hopen hstart => ?_, fun hopen hstart => ?_, fun hlock => ?_, ?_, ?_⟩
  · simp only [bellTake_waits _ _ s hopen hstart, and_self]
  · simp only [bellTake_open _ _ s hopen hstart]
    refine ⟨rfl, rfl, fun hlo hhi => ?_, fun hout => ⟨_, rfl, raises_writePeriod v s hout⟩⟩
    exact congrArg _ (writePeriod_inRange v s hlo hhi)
  · simp only [bellTake_locked _ _ s hlock, and_self]
  · show execBellTimeLoRead p s = _
    rw [execBellTimeLoRead, if_pos hacc]
    rfl
  · show execBellPpsLoRead p s = _
    rw [execBellPpsLoRead, if_pos hacc]
    rfl

end Sys2Proof.Machine

/-! ## O25: holdover, the safe-stop timer and the trees (R38 to R43, R53) -/

namespace Sys2Proof.Machine

/-- What sets a bit off depends of the state on the fault record, the ports, the bell time with its landing and the domains in
service alone, and leaves all else as it is. -/
theorem raises_congr {l : List FltBit} {u t u' : State} (h : Raises l u t) (hflt : u'.flt = u.flt) (ha : u'.ha = u.ha)
    (hb : u'.hb = u.hb) (htime : u'.bell.time = u.bell.time) (hland : u'.bell.landNo = u.bell.landNo)
    (hdom : ∀ d, domOn d u' = domOn d u) : Raises l u' { u' with flt := t.flt, ha := t.ha, hb := t.hb } := by
  obtain ⟨-, hrec, hbits, hfresh, hva, hvb⟩ := h
  have hreg : ∀ c i, fltReg c i u' = fltReg c i u := fun c i => by rw [fltReg, hflt, ← fltReg]
  have hfr : ∀ c i, freshReg c i u' = freshReg c i u := fun c i => by rw [freshReg, hflt, ← freshReg]
  have hhost : ∀ p, hostOf p u' = hostOf p u := fun p => hostOf_congr p u u' ha hb
  have hclear : clearBits l u' = clearBits l u := by simp only [clearBits, hreg]
  have hstamp : ∀ b, stamped b u' = stamped b u := fun b => by rw [stamped, htime, hland, ← stamped]
  have hreports : reportsOf l u' = reportsOf l u := by simp only [reportsOf, vectorReports, hclear, hstamp, hhost, hdom]
  have hvec : ∀ p n, Vectored 3 n p u t → Vectored 3 n p u' { u' with flt := t.flt, ha := t.ha, hb := t.hb } := by
    intro p n hp
    have hto : hostOf p { u' with flt := t.flt, ha := t.ha, hb := t.hb } = hostOf p t := by cases p <;> rfl
    unfold Vectored at hp ⊢
    rw [hto, hhost, hdom]
    exact hp
  refine ⟨rfl, ?_, fun c i hi b => ?_, fun c i hi na nb b => ?_, ?_, ?_⟩
  · rw [hreports, hflt]
    exact hrec
  · rw [hreg]
    exact hbits c i hi b
  · rw [hfr]
    exact hfresh c i hi na nb b
  · rw [hclear]
    exact hvec .ha _ hva
  · rw [hclear]
    exact hvec .hb _ hvb

/-- What sets a bit off may be moved past a change of the bell that leaves its time and landing. -/
theorem raises_bell {l : List FltBit} {u t : State} (h : Raises l u t) (f : BellSt → BellSt)
    (htime : (f u.bell).time = u.bell.time) (hland : (f u.bell).landNo = u.bell.landNo) :
    Raises l { u with bell := f u.bell } { t with bell := f t.bell } := by
  have he : { t with bell := f t.bell } = { u with bell := f u.bell, flt := t.flt, ha := t.ha, hb := t.hb } := by
    conv_lhs => rw [h.1]
  rw [he]
  exact raises_congr (u' := { u with bell := f u.bell }) h rfl rfl rfl htime hland fun _ => rfl

/-- The safe-stop timer runs from now, unless it runs already (R42). -/
theorem startSsTimer_eq (s : State) :
    startSsTimer s = { s with bell := { s.bell with ssStart := some (s.bell.ssStart.getD s.bell.time) } } := by
  unfold startSsTimer
  split
  · rename_i b h
    rw [h, Option.getD_some, ← h]
  · rename_i h
    rw [h, Option.getD_none]

/-- The bell as holdover leaves it (R40 to R42). -/
def heldOver (b : BellSt) : BellSt :=
  { b with hold := true, lost := true, holdLand := 0, refA := false, refB := false, exitPending := false
           ssStart := some (b.ssStart.getD b.time) }

/-- A loss of a reference that has once been good is holdover (R40, R42). -/
theorem raises_enterHoldover (s : State) (hok : s.bell.everOk = true) (hnot : inHoldover s = false) :
    Raises [(clsBell, 0, 0)] { s with bell := heldOver s.bell } (enterHoldover s) := by
  let out : State := { s with bell := { s.bell with
    refA := false, refB := false, exitPending := false, hold := true, lost := true, holdLand := 0 } }
  have he : enterHoldover s = startSsTimer (sticky clsBell 0 0 out) := by
    simp only [enterHoldover]
    rw [if_neg (by simp [hok]), if_neg (by simpa [inHoldover] using hnot)]
  rw [he, startSsTimer_eq]
  exact raises_bell (raises_sticky clsBell 0 0 (by decide) (by decide) out)
    (fun b => { b with ssStart := some (b.ssStart.getD b.time) }) rfl rfl

/-- Before the reference has been good its loss drops REF_OK alone (R42). -/
theorem enterHoldover_never (s : State) (hok : s.bell.everOk = false) :
    enterHoldover s = { s with bell := { s.bell with refA := false, refB := false, exitPending := false } } := by
  simp [enterHoldover, hok]

/-! ### The ticks that were missed (R41) -/

/-- A tick with no landing tick, preset or drain deadline at it (R23). -/
theorem bellTickOne_plain (s : State) (hruns : bellRuns s = true) (hload : loadDue s = false)
    (hland : s.bell.phase + 1 < s.bell.frameLen) (hdrain : draining s = false) : bellTickOne s = addTicks 1 s := by
  have hd : draining (addTicks 1 s) = false := hdrain
  have hnot : ¬(s.bell.frameLen ≤ s.bell.phase + 1) := by omega
  simp [bellTickOne, hruns, hload, hnot, passDeadline, hd]

/-- The bell a tick on, with no wrap. -/
def tickedOn (b : BellSt) : BellSt := { b with time := b.time + 1, timeB := b.timeB - 1, phase := b.phase + 1 }

theorem addTicks_one_bell (s : State) (hwrap : s.bell.time.toNat + 1 < 2 ^ 48) : (addTicks 1 s).bell = tickedOn s.bell := by
  have htime : BitVec.ofNat 48 (s.bell.time.toNat + 1) = s.bell.time + 1 := by
    apply BitVec.eq_of_toNat_eq
    simp
  have hw : (settle s).bell.time.toNat + 1 < 2 ^ 48 := hwrap
  simp only [addTicks, Nat.one_ne_zero, if_false, hw, if_true]
  rw [show (settle s).bell.time.toNat = s.bell.time.toNat from rfl, htime]
  rfl

/-- The three ticks whose edges were missing, where nothing falls among them (R41). -/
theorem bellTickOne_thrice (s : State) (hruns : bellRuns s = true) (hload : loadDue s = false)
    (hland : s.bell.phase + 3 < s.bell.frameLen) (hwrap : s.bell.time.toNat + 3 < 2 ^ 48) (hdrain : draining s = false) :
    ∃ ports, bellTickOne (bellTickOne (bellTickOne s)) = { s with
      ports := ports, flt := (settle s).flt
      bell := { s.bell with time := s.bell.time + 3, timeB := s.bell.timeB - 3, phase := s.bell.phase + 3 } } := by
  have h1 := bellTickOne_plain s hruns hload (by omega) hdrain
  have h2 := bellTickOne_plain (addTicks 1 s) hruns hload (show s.bell.phase + 1 + 1 < s.bell.frameLen by omega) hdrain
  have h3 := bellTickOne_plain (addTicks 1 (addTicks 1 s)) hruns hload
    (show s.bell.phase + 1 + 1 + 1 < s.bell.frameLen by omega) hdrain
  have hone : (s.bell.time + 1).toNat = s.bell.time.toNat + 1 := by
    rw [BitVec.toNat_add]
    exact Nat.mod_eq_of_lt (by simp; omega)
  have htwo : (s.bell.time + 1 + 1).toNat = s.bell.time.toNat + 1 + 1 := by
    rw [BitVec.toNat_add, hone]
    exact Nat.mod_eq_of_lt (by simp; omega)
  have b1 : (addTicks 1 s).bell = tickedOn s.bell := addTicks_one_bell s (by omega)
  have b2 : (addTicks 1 (addTicks 1 s)).bell = tickedOn (tickedOn s.bell) := by
    rw [addTicks_one_bell _ (by rw [b1]; simp only [tickedOn, hone]; omega), b1]
  have b3 : (addTicks 1 (addTicks 1 (addTicks 1 s))).bell = tickedOn (tickedOn (tickedOn s.bell)) := by
    rw [addTicks_one_bell _ (by rw [b2]; simp only [tickedOn, htwo]; omega), b2]
  have hsame : addTicks 1 (addTicks 1 (addTicks 1 s)) = { s with
      ports := (addTicks 1 (addTicks 1 (addTicks 1 s))).ports, flt := (settle s).flt
      bell := (addTicks 1 (addTicks 1 (addTicks 1 s))).bell } := rfl
  have ha : s.bell.time + 3 = s.bell.time + 1 + 1 + 1 := by bv_omega
  have hb : s.bell.timeB - 3 = s.bell.timeB - 1 - 1 - 1 := by bv_omega
  refine ⟨(addTicks 1 (addTicks 1 (addTicks 1 s))).ports, ?_⟩
  rw [h1, h2, h3, ha, hb]
  conv_lhs => rw [hsame, b3]
  rfl

/-! ### The trees (R38, R39) -/

/-- The single-tree timer of a bell: it does not run before BELLREF has first been plausible (R38, R42). -/
def timedOnce (b : BellSt) : BellSt :=
  { b with ssStart := if b.everOk = true then some (b.ssStart.getD b.time) else b.ssStart }

theorem singleTree_eq (s : State) : singleTree s = { s with bell := timedOnce s.bell } := by
  unfold singleTree timedOnce
  by_cases h : s.bell.everOk = true
  · rw [if_pos h, if_pos h, startSsTimer_eq]
  · rw [if_neg h, if_neg h]

/-- The bell with one tree out. -/
def withoutTree (t : Side) (b : BellSt) : BellSt :=
  match t with
  | .a => { b with outA := true }
  | .b => { b with outB := true }

/-- The bit of BELL_FLT that shows a tree out. -/
def treeBit : Side → Nat
  | .a => 2
  | .b => 3

/-- A tree in service that is taken out (R38, R42). -/
theorem treeOut_inService (t : Side) (s : State) (ha : s.bell.outA = false) (hb : s.bell.outB = false) :
    treeOut t s = singleTree (sticky clsBell 0 (treeBit t) { s with bell := withoutTree t s.bell }) := by
  cases t <;> simp [treeOut, ha, hb, withoutTree, treeBit]

/-- A disagreement that takes a tree out sets TREE_DIS and the bit of the tree (R38). -/
theorem raises_treeOut (t : Side) (s : State) (ha : s.bell.outA = false) (hb : s.bell.outB = false) :
    Raises [(clsBell, 0, 1), (clsBell, 0, treeBit t)] { s with bell := timedOnce (withoutTree t s.bell) }
      (treeOut t (sticky clsBell 0 1 s)) := by
  have hbell : (sticky clsBell 0 1 s).bell = s.bell := by simp [sticky_keeps]
  rw [treeOut_inService t _ (by rw [hbell, ha]) (by rw [hbell, hb]), singleTree_eq]
  have hkeep : (withoutTree t s.bell).time = s.bell.time ∧ (withoutTree t s.bell).landNo = s.bell.landNo := by
    cases t <;> exact ⟨rfl, rfl⟩
  have hdis : Raises [(clsBell, 0, 1)] { s with bell := withoutTree t s.bell }
      { sticky clsBell 0 1 s with bell := withoutTree t (sticky clsBell 0 1 s).bell } :=
    raises_bell (raises_sticky clsBell 0 1 (by decide) (by decide) s) (withoutTree t) hkeep.1 hkeep.2
  have hout := raises_sticky clsBell 0 (treeBit t) (by decide) (by cases t <;> decide)
    { sticky clsBell 0 1 s with bell := withoutTree t (sticky clsBell 0 1 s).bell }
  exact raises_bell (raises_append (by cases t <;> simp [treeBit]) hdis hout) timedOnce rfl rfl

/-- Where the two trees are found alike, both or neither, the device stops (R38). -/
theorem treeDecision_alike (a b : Bool) (s : State) (h : (a || s.bell.outA) = (b || s.bell.outB)) :
    treeDecision a b s = enterSafe 0x04 s := by
  unfold treeDecision
  rw [h]
  cases b || s.bell.outB <;> rfl

/-- Settles O25: each row by what its operation leaves of the bell and the bits that it sets. -/
theorem holdoverAndTrees : Obligations.HoldoverAndTrees := by
  unfold Obligations.HoldoverAndTrees
  intro s start
  refine ⟨fun hok hnot => ?_, fun hok hold hruns hload hland hwrap hdrain => ?_, fun hok => ?_, fun hold hone => ?_,
    fun b hb hexp hage => ?_, fun ha hb => ⟨⟨_, rfl, ?_⟩, _, rfl, ?_⟩, fun hsafe a b h => ?_⟩
  · exact ⟨_, rfl, raises_enterHoldover s hok hnot⟩
  · have hdue : loadDue s = false := by
      unfold loadDue
      rcases hload with h | h <;> simp [h]
    obtain ⟨ports, hticks⟩ := bellTickOne_thrice s hruns hdue hland hwrap hdrain
    refine ⟨enterHoldover (bellTickOne (bellTickOne (bellTickOne s))), ports, ?_, ?_⟩
    · show execHoldoverEntry true s = _
      simp [execHoldoverEntry, hold]
    · rw [hticks]
      exact raises_enterHoldover _ hok (by simp [inHoldover, hold])
  · exact congrArg _ (enterHoldover_never s hok)
  · show execHoldoverExit s = _
    have hcond : (s.bell.hold && !(s.bell.outA && s.bell.outB)) = true := by
      have hserve : (s.bell.outA && s.bell.outB) = false :=
        Bool.eq_false_iff.mpr fun h => hone (by simpa using h)
      rw [hold, hserve]
      rfl
    simp only [execHoldoverExit, hcond, if_true, startSsTimer_eq, Bool.or_eq_true]
    split <;> rfl
  · refine ⟨_, ?_, raises_sticky clsBell 0 8 (by decide) (by decide) _⟩
    show execSafeStopTimerExpiry s = _
    have hdue : decide (10000000 ≤ elapsed s.bell.time b) = true := decide_eq_true hage
    simp only [execSafeStopTimerExpiry, hb, hexp, hdue, Bool.not_false, Bool.and_self, if_true]
  · have hbell : (sticky clsBell 0 1 s).bell = s.bell := by simp [sticky_keeps]
    have hdec : treeDecision true false (sticky clsBell 0 1 s) = treeOut .a (sticky clsBell 0 1 s) := by
      simp [treeDecision, hbell, ha, hb]
    rw [hdec]
    exact raises_treeOut .a s ha hb
  · have hbell : (sticky clsBell 0 1 s).bell = s.bell := by simp [sticky_keeps]
    have hdec : treeDecision false true (sticky clsBell 0 1 s) = treeOut .b (sticky clsBell 0 1 s) := by
      simp [treeDecision, hbell, ha, hb]
    rw [hdec]
    exact raises_treeOut .b s ha hb
  · refine ⟨sticky clsBell 0 1 s, _, rfl, raises_sticky clsBell 0 1 (by decide) (by decide) s, ?_⟩
    rw [treeDecision_alike a b _ (by simpa [sticky_keeps] using h)]
    exact entersSafe_enterSafe 0x04 _ (by simpa [sticky_keeps] using hsafe)

end Sys2Proof.Machine

/-! ## O27: references past their limits (R45) -/

namespace Sys2Proof.Machine

/-- A key that lies below every key of a table reads as after reset, whatever is made of the entries. -/
theorem tabGet_tabMap_below {α : Type} [DecidableEq α] (d : α) (f : Nat → α → α) (t : Tab α) (k : Nat)
    (h : tabWfFrom d (some k) t = true) : tabGet d (tabMap d f t) k = d := by
  rcases mem_of_tabGet d (tabMap d f t) k with hd | hm
  · exact hd
  · obtain ⟨q, hq, he⟩ := List.mem_map.mp (List.mem_of_mem_filter hm)
    have hlt := tabWfFrom_keys d k t h q hq
    have hkey : q.1 = k := congrArg Prod.fst he
    omega

/-- What a canonical table reads when every entry has been changed. -/
theorem tabGet_tabMap_wf {α : Type} [DecidableEq α] (d : α) (f : Nat → α → α) (t : Tab α) (k : Nat) (h : tabWf d t = true) :
    tabGet d (tabMap d f t) k = if tabGet d t k = d then tabGet d t k else f k (tabGet d t k) := by
  unfold tabWf at h
  generalize (none : Option Nat) = lo at h
  induction t generalizing lo with
  | nil => simp [tabMap, tabGet]
  | cons p t ih =>
    obtain ⟨j, v⟩ := p
    simp only [tabWfFrom, Bool.and_eq_true, decide_eq_true_eq] at h
    obtain ⟨⟨-, hv⟩, htail⟩ := h
    by_cases hf : f j v = d
    · have hmap : tabMap d f ((j, v) :: t) = tabMap d f t := by simp [tabMap, hf]
      rw [hmap]
      by_cases hj : k = j
      · subst hj
        rw [tabGet_tabMap_below d f t k htail]
        simp [tabGet, hf, hv]
      · simp only [tabGet, hj, if_false]
        exact ih _ htail
    · have hmap : tabMap d f ((j, v) :: t) = (j, f j v) :: tabMap d f t := by simp [tabMap, hf]
      rw [hmap]
      by_cases hj : k = j
      · subst hj
        simp [tabGet, hv]
      · simp only [tabGet, hj, if_false]
        exact ih _ htail

/-- A change that leaves the reset value alone reaches every entry. -/
theorem tabGet_tabMap_all {α : Type} [DecidableEq α] (d : α) (f : Nat → α → α) (t : Tab α) (k : Nat) (h : tabWf d t = true)
    (hd : f k d = d) : tabGet d (tabMap d f t) k = f k (tabGet d t k) := by
  rw [tabGet_tabMap_wf d f t k h]
  split
  · rename_i hk
    rw [hk, hd]
  · rfl

theorem expireSweep_eq (s : State) (r : Sec) : expireSweep s r = { r with sweepLive := r.sweepLive && !oldBell r.sweepAt s } := by
  unfold expireSweep
  cases hl : r.sweepLive <;> cases ho : oldBell r.sweepAt s <;> cases r <;> simp_all

/-- The change of a record of Manifest B by the expiry, as the model writes it. -/
def expireSweepB (s : State) (r : SecB) : SecB :=
  if !r.sweepLive && oldBell (~~~r.sweepAt) s then { r with sweepLive := true } else r

theorem expireSweepB_eq (s : State) (r : SecB) :
    expireSweepB s r = { r with sweepLive := r.sweepLive || oldBell (~~~r.sweepAt) s } := by
  unfold expireSweepB
  cases hl : r.sweepLive <;> cases ho : oldBell (~~~r.sweepAt) s <;> cases r <;> simp_all

/-- Settles O27: the expiry changes every table entry by entry, and each change is what the statement writes out. -/
theorem referencesExpire : Obligations.ReferencesExpire := by
  unfold Obligations.ReferencesExpire
  intro s hcan old stay stayAll gone oldLand stayLand sys requests
  obtain ⟨hengs, hheads, -, hrings, hgn8s, hgroups, hdoms, ha, hb, hcomA, hcomB, -⟩ := hcan
  refine ⟨expireRefs s, rfl, rfl, fun k => ?_, fun i => ?_, fun h => ?_, fun e => ?_, fun n => ?_, fun n => ?_, fun g => ?_, fun d => ?_⟩
  · exact tabGet_tabMap_wf _ (expireRing s) s.rings k hrings
  · exact tabGet_tabMap_wf _ (expireGn8 s) s.gn8s i hgn8s
  · exact tabGet_tabMap_wf _ (fun _ h => { h with ev := expireEval s h.ev }) s.heads h hheads
  · exact tabGet_tabMap_all _ (expireWindow s) s.engs e hengs rfl
  · exact ⟨(tabGet_tabMap_all _ (fun _ r => expireSweep s r) s.man.a n ha rfl).trans (expireSweep_eq s _),
      (tabGet_tabMap_all _ (fun _ r => expireSweep s r) s.man.comA n hcomA rfl).trans (expireSweep_eq s _)⟩
  · exact ⟨(tabGet_tabMap_all _ (fun _ r => expireSweepB s r) s.man.b (511 - n) hb rfl).trans (expireSweepB_eq s _),
      (tabGet_tabMap_all _ (fun _ r => expireSweepB s r) s.man.comB (511 - n) hcomB rfl).trans (expireSweepB_eq s _)⟩
  · exact tabGet_tabMap_wf _ (expireGrp s) s.saf.groups g hgroups
  · exact tabGet_tabMap_wf _ (expireDom s) s.pmc.doms d hdoms

end Sys2Proof.Machine

/-! ## O24 and O26: the landing tick, the reference and BELLPPS (R23 to R31, R37, R41, R46, R49 to R53) -/

namespace Sys2Proof.Machine

/-! ### What a landing tick does besides the bell's own tick -/

/-- What every part of a landing tick keeps: the mode and a START that waits stay, the safe state and a LOCKOUT to come are not
left, the checkpoint that is due stays so, and no fault bit clears. -/
structure Forward (s t : State) : Prop where
  mode : t.dev.mode = s.dev.mode
  startReq : t.dev.startReq = s.dev.startReq
  safe : s.dev.safe = true → t.dev.safe = true
  cpDue : t.sup.cpDue = s.sup.cpDue
  lockNext : s.sup.lockNext = true → t.sup.lockNext = true
  flt : FltMono s t

theorem Forward.trans {s u t : State} (h1 : Forward s u) (h2 : Forward u t) : Forward s t where
  mode := h2.mode.trans h1.mode
  startReq := h2.startReq.trans h1.startReq
  safe h := h2.safe (h1.safe h)
  cpDue := h2.cpDue.trans h1.cpDue
  lockNext h := h2.lockNext (h1.lockNext h)
  flt := h1.flt.trans h2.flt

/-- Of the bell the trees in service, the safe-stop timer's start and the drain's registers alone have changed. -/
abbrev BellAside (b b' : BellSt) : Prop :=
  b' = { b with outA := b'.outA, outB := b'.outB, ssStart := b'.ssStart, drainT := b'.drainT, missCnt := b'.missCnt
                lateEng := b'.lateEng }

/-- A part of a landing tick besides the bell's own tick: it leaves the bell's counts and how far the frame is. -/
structure TickOn (s t : State) : Prop extends Forward s t where
  bell : BellAside s.bell t.bell
  closing : t.frame.closing = s.frame.closing
  committedAt : t.frame.committedAt = s.frame.committedAt

theorem TickOn.trans {s u t : State} (h1 : TickOn s u) (h2 : TickOn u t) : TickOn s t where
  toForward := h1.toForward.trans h2.toForward
  bell := by rw [h2.bell, h1.bell]
  closing := h2.closing.trans h1.closing
  committedAt := h2.committedAt.trans h1.committedAt

/-- What changes neither the bell, the device, the frame nor the supervisors. -/
theorem TickOn.of_keeps {s t : State} (hbell : t.bell = s.bell) (hdev : t.dev = s.dev) (hframe : t.frame = s.frame)
    (hsup : t.sup = s.sup) (hflt : FltMono s t) : TickOn s t where
  bell := by rw [hbell]
  mode := by rw [hdev]
  startReq := by rw [hdev]
  safe h := by rw [hdev, h]
  closing := by rw [hframe]
  committedAt := by rw [hframe]
  cpDue := by rw [hsup]
  lockNext h := by rw [hsup, h]
  flt := hflt

theorem TickOn.refl (s : State) : TickOn s s := .of_keeps rfl rfl rfl rfl .rfl

theorem tickOn_forEach {β : Type} (l : List β) (f : β → State → State) (h : ∀ b u, TickOn u (f b u)) (s : State) :
    TickOn s (forEach l f s) :=
  forEach_ind (TickOn s) l f s (.refl s) fun b _ u hu => hu.trans (h b u)

theorem tickOn_sticky (c i b : Nat) (s : State) : TickOn s (sticky c i b s) :=
  .of_keeps (by simp [sticky_keeps]) (by simp [sticky_keeps]) (by simp [sticky_keeps]) (by simp [sticky_keeps]) (fltMono_sticky c i b s)

theorem tickOn_stickyIf (q : Bool) (c i b : Nat) (s : State) : TickOn s (stickyIf q c i b s) := by
  cases q
  · exact .refl s
  · exact tickOn_sticky c i b s

theorem tickOn_raiseAt (p : HostId) (v : Nat) (s : State) : TickOn s (raiseAt p v s) :=
  .of_keeps (by simp [raiseAt_keeps]) (by simp [raiseAt_keeps]) (by simp [raiseAt_keeps]) (by simp [raiseAt_keeps]) (fltMono_raiseAt p v s)

/-! #### Groups, trees and the safe state -/

theorem tickOn_lockGroup (g : Nat) (bits : List Nat) (s : State) : TickOn s (lockGroup g bits s) :=
  .of_keeps (by simp [lockGroup_keeps]) (by simp [lockGroup_keeps]) (by simp [lockGroup_keeps]) (by simp [lockGroup_keeps])
    (fltMono_lockGroup g bits s)

theorem tickOn_enterSafe (cause : Nat) (s : State) : TickOn s (enterSafe cause s) := by
  by_cases h : s.dev.safe = true
  · rw [enterSafe, if_pos h]
    exact .refl s
  · have hdev : (enterSafe cause s).dev = { s.dev with safe := true, safeCause := cause } := by
      rw [(entersSafe_enterSafe cause s (by simpa using h)).1]
    have hbell : (enterSafe cause s).bell = s.bell := by simp [enterSafe_keeps]
    have hframe : (enterSafe cause s).frame = s.frame := by simp [enterSafe_keeps]
    have hsup : (enterSafe cause s).sup = s.sup := by simp [enterSafe_keeps]
    exact
      { bell := by rw [hbell]
        mode := by rw [hdev]
        startReq := by rw [hdev]
        safe := fun _ => by rw [hdev]
        closing := by rw [hframe]
        committedAt := by rw [hframe]
        cpDue := by rw [hsup]
        lockNext := fun h => by rw [hsup, h]
        flt := fltMono_enterSafe cause s }

/-- A change of the bell alone, in what TickOn lets go. -/
theorem TickOn.of_bell {s : State} (b : BellSt) (h : b = { s.bell with
    outA := b.outA, outB := b.outB, ssStart := b.ssStart, drainT := b.drainT, missCnt := b.missCnt, lateEng := b.lateEng }) :
    TickOn s { s with bell := b } where
  bell := h
  mode := rfl
  startReq := rfl
  safe h := h
  closing := rfl
  committedAt := rfl
  cpDue := rfl
  lockNext h := h
  flt := .of_bits rfl

theorem tickOn_singleTree (s : State) : TickOn s (singleTree s) := by
  rw [singleTree_eq]
  exact .of_bell _ rfl

theorem tickOn_treeOut (t : Side) (s : State) : TickOn s (treeOut t s) := by
  cases t <;> unfold treeOut <;> dsimp only <;> split
  · exact .refl s
  · exact (TickOn.of_bell (withoutTree .a s.bell) rfl).trans ((tickOn_sticky clsBell 0 2 _).trans (tickOn_singleTree _))
  · exact .refl s
  · exact (TickOn.of_bell (withoutTree .b s.bell) rfl).trans ((tickOn_sticky clsBell 0 3 _).trans (tickOn_singleTree _))

theorem tickOn_treeDecision (a b : Bool) (s : State) : TickOn s (treeDecision a b s) := by
  unfold treeDecision
  split
  · exact tickOn_treeOut .a s
  · exact tickOn_treeOut .b s
  · exact tickOn_enterSafe _ s

theorem tickOn_treeCheck (skew : Option Nat) (s : State) : TickOn s (treeCheck skew s) := by
  unfold treeCheck
  split
  · exact .refl s
  · exact (tickOn_sticky clsBell 0 1 s).trans (tickOn_treeDecision _ _ _)

theorem tickOn_rateCheck (bad : Bool) (s : State) : TickOn s (rateCheck bad s) := by
  unfold rateCheck
  split
  · exact (tickOn_sticky clsBell 0 1 s).trans (tickOn_enterSafe _ _)
  · exact .refl s

/-! #### Engines and streams -/

/-- A change of the frame alone, in what TickOn lets go. -/
theorem TickOn.of_frame {s : State} (f : FrameSt) (hclosing : f.closing = s.frame.closing)
    (hcommitted : f.committedAt = s.frame.committedAt) : TickOn s { s with frame := f } where
  bell := rfl
  mode := rfl
  startReq := rfl
  safe h := h
  closing := hclosing
  committedAt := hcommitted
  cpDue := rfl
  lockNext h := h
  flt := .of_bits rfl

/-- A change of the supervisors alone, in what TickOn lets go. -/
theorem TickOn.of_sup {s t : State} (hbell : t.bell = s.bell) (hdev : t.dev = s.dev) (hframe : t.frame = s.frame)
    (hcpDue : t.sup.cpDue = s.sup.cpDue) (hlock : s.sup.lockNext = true → t.sup.lockNext = true) (hflt : FltMono s t) :
    TickOn s t where
  bell := by rw [hbell]
  mode := by rw [hdev]
  startReq := by rw [hdev]
  safe h := by rw [hdev, h]
  closing := by rw [hframe]
  committedAt := by rw [hframe]
  cpDue := hcpDue
  lockNext := hlock
  flt := hflt

theorem tickOn_setEng (e : Nat) (x : Eng) (s : State) : TickOn s (setEng e x s) := .of_keeps rfl rfl rfl rfl (.of_bits rfl)

theorem tickOn_modEng (e : Nat) (f : Eng → Eng) (s : State) : TickOn s (modEng e f s) :=
  .of_keeps rfl rfl rfl rfl (.of_bits rfl)

theorem tickOn_noteFailed (q : Bool) (e : Nat) (s : State) : TickOn s (noteFailed q e s) :=
  (tickOn_stickyIf q clsEng e 0 s).trans (tickOn_stickyIf q clsEng e 6 _)

theorem tickOn_recordCode (e : Nat) (headCtx : Bool) (code : Nat) (s : State) : TickOn s (recordCode e headCtx code s) :=
  (tickOn_modEng e _ s).trans ((tickOn_sticky clsEng e _ _).trans (tickOn_stickyIf _ clsEng e 10 _))

theorem tickOn_removeEngine (e cause : Nat) (bits : List Nat) (s : State) : TickOn s (removeEngine e cause bits s) := by
  have out : ∀ x l, TickOn s { setEng e x s with frame := { s.frame with removed := l } } := fun x l =>
    (tickOn_setEng e x s).trans (.of_frame { s.frame with removed := l } rfl rfl)
  unfold removeEngine
  dsimp only
  split
  · exact .refl s
  · exact (out _ _).trans ((tickOn_noteFailed _ e _).trans (tickOn_forEach bits _ (fun b => tickOn_sticky clsEng e b) _))

theorem tickOn_noteUnforced (e : Nat) (s : State) : TickOn s (noteUnforced e s) := tickOn_modEng e _ s

theorem tickOn_failCheck (failed : Bool) (e : Nat) (s : State) : TickOn s (failCheck failed e s) := by
  unfold failCheck
  split
  · exact (tickOn_noteFailed true e s).trans ((tickOn_noteUnforced e _).trans (tickOn_removeEngine e 0x03 [] _))
  · exact .refl s

theorem tickOn_laneCheck (e : Nat) (s : State) : TickOn s (laneCheck e s) := by
  unfold laneCheck
  dsimp only
  split
  · exact (tickOn_noteUnforced e s).trans (tickOn_removeEngine e _ _ _)
  · split
    · exact (tickOn_noteUnforced e s).trans (tickOn_removeEngine e _ _ _)
    · exact .refl s

theorem tickOn_setCore (e : Nat) (f : Core → Core) (s : State) : TickOn s (setCore e f s) :=
  (tickOn_modEng e _ s).trans ((tickOn_stickyIf _ clsEng e 9 _).trans (tickOn_laneCheck e _))

theorem tickOn_catchUpAt (e : Nat) (s : State) : TickOn s (catchUpAt e s) :=
  (tickOn_modEng e _ s).trans (tickOn_laneCheck e _)

theorem tickOn_writeEntry (e slot : Nat) (x : Entry) (s : State) : TickOn s (writeEntry e slot x s) := by
  unfold writeEntry
  dsimp only
  split
  · split
    · split
      · exact .refl s
      · exact (tickOn_setCore e _ s).trans ((tickOn_recordCode e true _ _).trans (tickOn_noteFailed _ e _))
    · exact tickOn_modEng e _ s
  · exact .refl s

theorem tickOn_setHead (h : Nat) (x : Head) (s : State) : TickOn s (setHead h x s) := .of_keeps rfl rfl rfl rfl (.of_bits rfl)

theorem tickOn_headEntry (h : Nat) (x : Entry) (s : State) : TickOn s (headEntry h x s) := by
  unfold headEntry
  dsimp only
  split
  · exact (tickOn_setHead h _ s).trans (tickOn_writeEntry _ _ x _)
  · exact tickOn_setHead h _ s

theorem tickOn_modRing (k : Nat) (f : Ring → Ring) (s : State) : TickOn s (modRing k f s) := .of_keeps rfl rfl rfl rfl (.of_bits rfl)

theorem tickOn_modGn8 (i : Nat) (f : Gn8 → Gn8) (s : State) : TickOn s (modGn8 i f s) := .of_keeps rfl rfl rfl rfl (.of_bits rfl)

theorem tickOn_flushBubble (contOut : Bool) (h : Nat) (s : State) : TickOn s (flushBubble contOut h s) := by
  unfold flushBubble
  split
  · exact .refl s
  · exact (tickOn_headEntry h _ s).trans ((tickOn_setHead h _ _).trans ((tickOn_modRing _ _ _).trans (tickOn_sticky clsRing 0 4 _)))

theorem tickOn_writeSample (x : Inst) (hc : Nat × Nat) (s : State) : TickOn s (writeSample x hc s) :=
  (tickOn_flushBubble false hc.1 s).trans ((tickOn_setHead hc.1 _ _).trans (tickOn_headEntry hc.1 _ _))

theorem tickOn_missOne (t : Bell) (cause h : Nat) (s : State) : TickOn s (missOne t cause h s) := by
  have cases : ∀ (c : Prop) [Decidable c] (x : Head),
      TickOn s (if c then flushBubble false h (setHead h x s) else setHead h x s) := by
    intro c _ x
    split
    · exact (tickOn_setHead h x s).trans (tickOn_flushBubble false h _)
    · exact tickOn_setHead h x s
  exact cases _ _

theorem tickOn_writeInstant (i : Nat) (x : Recent) (s : State) : TickOn s (writeInstant i x s) :=
  (tickOn_modGn8 i _ s).trans (tickOn_forEach _ _ (tickOn_writeSample x.inst) _)

theorem tickOn_judgeRecent (i : Nat) (s : State) : TickOn s (judgeRecent i s) :=
  .of_keeps rfl rfl rfl rfl (.of_bits rfl)

theorem tickOn_missInstant (i : Nat) (t : Bell) (s : State) : TickOn s (missInstant i t s) :=
  (tickOn_judgeRecent i s).trans ((tickOn_modGn8 i _ _).trans (tickOn_forEach _ _ (fun h : Nat × Nat => tickOn_missOne t _ h.1) _))

theorem tickOn_advanceMerge (i n : Nat) (s : State) : TickOn s (advanceMerge i n s) := by
  induction n generalizing s with
  | zero => exact .refl s
  | succ n ih =>
    unfold advanceMerge
    split
    · exact .refl s
    · split
      · split
        · exact (tickOn_modGn8 i _ s).trans ((tickOn_writeInstant i _ _).trans (ih _))
        · split
          · exact (tickOn_missInstant i _ s).trans (ih _)
          · exact .refl s
      · split
        · exact (tickOn_missInstant i _ s).trans (ih _)
        · exact .refl s

theorem tickOn_mergeGn8 (i : Nat) (s : State) : TickOn s (mergeGn8 i s) :=
  (tickOn_advanceMerge i _ s).trans (tickOn_judgeRecent i _)

theorem tickOn_markEngine (e : Nat) (s : State) : TickOn s (markEngine e s) := by
  unfold markEngine
  dsimp only
  split
  · exact tickOn_forEach _ _ (fun p : Nat × Nat => tickOn_writeEntry e p.1 _) s
  · exact .refl s

/-- A change of the supervisors' own memories in both. -/
theorem tickOn_modSups (f : SupMem → SupMem) (s : State) : TickOn s (modSups f s) :=
  .of_sup rfl rfl rfl rfl id (.of_bits rfl)

theorem tickOn_putMove (m : Move) (s : State) : TickOn s (putMove m s) := by
  unfold putMove modMoves
  exact tickOn_modSups _ s

theorem tickOn_dropMove (h : Nat) (s : State) : TickOn s (dropMove h s) := by
  unfold dropMove modMoves
  exact tickOn_modSups _ s

theorem tickOn_switchMove (m : Move) (s : State) : TickOn s (switchMove m s) := by
  have switched : ∀ hd m', TickOn s (putMove m' (setHead m.head hd s)) := fun hd m' =>
    (tickOn_setHead m.head hd s).trans (tickOn_putMove m' _)
  have whenGo : ∀ (go : Bool) (t : State), TickOn s t → TickOn s (if !go then s else t) := by
    intro go t ht
    cases go
    · exact .refl s
    · exact ht
  unfold switchMove
  dsimp only
  refine whenGo _ _ ?_
  split
  · split
    · exact tickOn_putMove _ s
    · exact tickOn_dropMove _ s
  · split
    · exact (switched _ _).trans (tickOn_modEng _ _ _)
    · exact switched _ _

theorem tickOn_turnKept (s : State) : TickOn s (turnKept s) := .of_keeps rfl rfl rfl rfl (.of_bits rfl)

theorem tickOn_ringsTick (s : State) : TickOn s (ringsTick s) := tickOn_forEach (cfgGn8s s) mergeGn8 tickOn_mergeGn8 s

theorem tickOn_switchMoves (s : State) : TickOn s (switchMoves s) := tickOn_forEach s.sup.moves switchMove tickOn_switchMove s

theorem tickOn_closeStreams (s : State) : TickOn s (closeStreams s) :=
  (tickOn_ringsTick s).trans ((tickOn_forEach _ _ (tickOn_flushBubble true) _).trans
    ((tickOn_forEach _ _ tickOn_markEngine _).trans ((tickOn_turnKept _).trans (tickOn_switchMoves _))))

/-! #### Domains that are lost (R18, R222) -/

theorem tickOn_markLate (l : List Nat) (s : State) : TickOn s (markLate l s) := by
  have noted : ∀ late n e, TickOn s { s with
      frame := { s.frame with late := late }, bell := { s.bell with missCnt := n, lateEng := e } } := fun late n e =>
    (TickOn.of_frame { s.frame with late := late } rfl rfl).trans
      (TickOn.of_bell { s.bell with missCnt := n, lateEng := e } rfl)
  cases l with
  | nil => exact .refl s
  | cons e l => exact (noted _ _ _).trans (tickOn_sticky clsBell 0 4 _)

theorem tickOn_waitMove (h src kind : Nat) (s : State) : TickOn s (waitMove h src kind s) := tickOn_putMove _ s

theorem tickOn_clearDest (h : Nat) (s : State) : TickOn s (clearDest h s) := by
  unfold clearDest
  split
  · split
    · exact tickOn_modEng _ _ s
    · exact .refl s
  · exact .refl s

theorem tickOn_withdrawHead (src h : Nat) (s : State) : TickOn s (withdrawHead src h s) :=
  (tickOn_clearDest h s).trans ((tickOn_setHead h _ _).trans (tickOn_waitMove h src 1 _))

theorem tickOn_withdrawEng (e : Nat) (s : State) : TickOn s (withdrawEng e s) := by
  have out : ∀ x l v, TickOn s { setEng e x s with frame := { s.frame with withdrawn := l, events := v } } := fun x l v =>
    (tickOn_setEng e x s).trans (.of_frame { s.frame with withdrawn := l, events := v } rfl rfl)
  exact (out _ _ _).trans (tickOn_forEach _ _ (tickOn_withdrawHead e) _)

theorem tickOn_offEng (e : Nat) (s : State) : TickOn s (offEng e s) := by
  unfold offEng
  dsimp only
  split
  · exact .refl s
  · exact tickOn_setEng e _ s

theorem tickOn_loseDest (k : Nat) (m : Move) (s : State) : TickOn s (loseDest k m s) := by
  unfold loseDest
  split
  · exact .refl s
  · split
    · exact (tickOn_waitMove _ _ _ s).trans (tickOn_setHead m.head _ _)
    · split
      · exact tickOn_withdrawHead _ _ s
      · exact tickOn_dropMove _ s

theorem tickOn_setRot (r : Option Nat) (s : State) : TickOn s (setRot r s) := by
  unfold setRot
  exact tickOn_modSups _ s

theorem tickOn_loseEngDom (k : Nat) (s : State) : TickOn s (loseEngDom k s) := by
  have rot : ∀ (c : Bool) u, TickOn u (if c then setRot none u else u) := by
    intro c u
    cases c
    · exact .refl u
    · exact tickOn_setRot none u
  unfold loseEngDom
  dsimp only
  refine TickOn.trans ?_ (rot _ _)
  refine TickOn.trans ?_ (tickOn_forEach _ _ (tickOn_loseDest k) _)
  refine TickOn.trans ?_ (tickOn_forEach _ _ tickOn_offEng _)
  split
  · exact (tickOn_markLate _ s).trans (tickOn_forEach _ _ (fun e => tickOn_modEng e _) _)
  · exact tickOn_forEach _ _ tickOn_withdrawEng s

theorem tickOn_portLost (p : HostId) (s : State) : TickOn s (portLost p s) :=
  .of_keeps (by simp [portLost_keeps]) (by simp [portLost_keeps]) (by simp [portLost_keeps]) (by simp [portLost_keeps])
    (fltMono_portLost p s)

theorem tickOn_ringPortLost (p : Nat) (s : State) : TickOn s (ringPortLost p s) :=
  .of_keeps (by simp [ringPortLost_keeps]) (by simp [ringPortLost_keeps]) (by simp [ringPortLost_keeps])
    (by simp [ringPortLost_keeps]) (fltMono_ringPortLost p s)

theorem tickOn_lossEffect (d : Nat) (s : State) : TickOn s (lossEffect d s) := by
  unfold lossEffect
  split
  · exact tickOn_enterSafe _ s
  · exact tickOn_enterSafe _ s
  · exact tickOn_treeDecision _ _ s
  · exact tickOn_treeDecision _ _ s
  · exact .of_keeps rfl rfl rfl rfl (.of_bits rfl)
  · exact .of_keeps rfl rfl rfl rfl (.of_bits rfl)
  · exact .of_sup rfl rfl rfl rfl (fun _ => rfl) (.of_bits rfl)
  · exact .of_sup rfl rfl rfl rfl (fun _ => rfl) (.of_bits rfl)
  · exact tickOn_portLost _ s
  · exact tickOn_portLost _ s
  · exact tickOn_forEach _ _ tickOn_ringPortLost s
  · exact tickOn_forEach _ _ tickOn_ringPortLost s
  · exact .of_keeps rfl rfl rfl rfl (.of_bits rfl)
  · exact TickOn.trans (u := { s with pmc := { s.pmc with tieNow := none } }) (.of_keeps rfl rfl rfl rfl (.of_bits rfl))
      (tickOn_sticky clsPmc 0 2 _)
  · exact tickOn_loseEngDom _ s

theorem tickOn_modDom (d : Nat) (f : Dom → Dom) (s : State) : TickOn s (modDom d f s) := .of_keeps rfl rfl rfl rfl (.of_bits rfl)

theorem tickOn_loseDomain (d : Nat) (s : State) : TickOn s (loseDomain d s) := by
  unfold loseDomain
  dsimp only
  split
  · exact (tickOn_modDom d _ s).trans ((tickOn_sticky clsDom d 8 _).trans (tickOn_lossEffect d _))
  · exact .refl s

/-! #### The PMC at a landing tick (R333, R339, R344 to R347) -/

theorem tickOn_failMonitor (d : Nat) (m : Side) (s : State) : TickOn s (failMonitor d m s) := by
  rw [failMonitor_eq]
  split
  · exact (tickOn_modDom d _ s).trans (tickOn_loseDomain d _)
  · exact tickOn_modDom d _ s

theorem tickOn_dacTick (bad : Bool) (s : State) : TickOn s (dacTick bad s) := by
  have next : ∀ n, TickOn s { s with pmc := { s.pmc with dacNext := n } } := fun n => .of_keeps rfl rfl rfl rfl (.of_bits rfl)
  unfold dacTick
  dsimp only
  split
  · exact (next _).trans ((tickOn_sticky clsDom _ 5 _).trans (tickOn_failMonitor _ _ _))
  · exact next _

theorem tickOn_disablePhase (d p : Nat) (s : State) : TickOn s (disablePhase d p s) := by
  have off := fun f => (tickOn_modDom d f s).trans (tickOn_sticky clsDom d 1 _)
  unfold disablePhase
  dsimp only
  split
  · split
    · exact (off _).trans (tickOn_loseDomain d _)
    · split
      · exact (off _).trans (tickOn_modDom d _ _)
      · exact off _
  · exact .refl s

theorem tickOn_oscTick (l : List (Nat × Nat)) (s : State) : TickOn s (oscTick l s) :=
  tickOn_forEach l _ (fun x u => by
    split
    · exact (tickOn_sticky clsPmc 0 3 u).trans (tickOn_disablePhase _ _ _)
    · exact .refl u) s

theorem tickOn_enterTherm (c : ThermState) (s : State) : TickOn s (enterTherm c s) := by
  cases c
  · exact .refl s
  · exact tickOn_sticky clsTherm 0 0 s
  · exact tickOn_sticky clsTherm 0 1 s
  · exact (tickOn_sticky clsTherm 0 2 s).trans (tickOn_enterSafe _ _)

/-- A change of the PMC alone. -/
theorem TickOn.of_pmc {s : State} (p : PmcSt) : TickOn s { s with pmc := p } := .of_keeps rfl rfl rfl rfl (.of_bits rfl)

theorem tickOn_thermTransition (c : ThermState) (s : State) : TickOn s (thermTransition c s) := by
  rw [thermTransition_eq]
  dsimp only
  have noted := (TickOn.of_pmc (thermMoved c s)).trans
    (tickOn_stickyIf (decide (9 ≤ (transNow s).length)) clsTherm 0 3 { s with pmc := thermMoved c s })
  split
  · exact noted
  · exact noted.trans (tickOn_enterTherm _ _)

theorem tickOn_thermTick (temps : List Int) (s : State) : TickOn s (thermTick temps s) := by
  have judged := fun (p : PmcSt) (bad hover : Bool) (c : ThermState) =>
    show TickOn s (if hover then thermTransition c (stickyIf bad clsTherm 0 4 { s with pmc := p })
        else stickyIf bad clsTherm 0 4 { s with pmc := p }) by
      have noted := (TickOn.of_pmc p).trans (tickOn_stickyIf bad clsTherm 0 4 { s with pmc := p })
      cases hover
      · exact noted
      · exact noted.trans (tickOn_thermTransition c _)
  unfold thermTick
  dsimp only
  split
  · exact (judged _ _ _ _).trans (tickOn_enterSafe _ _)
  · exact judged _ _ _ _

theorem tickOn_measureTick (w : TickIn) (s : State) : TickOn s (measureTick w s) := by
  have rails := (tickOn_forEach w.vmeas (fun x => modDom x.1 (fun d => { d with vmeas := x.2 })) (fun x => tickOn_modDom _ _) s).trans
    (tickOn_forEach w.iout (fun x => modDom x.1 (fun d => { d with iout := x.2 })) (fun x => tickOn_modDom _ _) _)
  unfold measureTick
  dsimp only
  split
  · exact rails.trans (.of_pmc _)
  · exact rails

theorem tickOn_pmcTick (w : TickIn) (s : State) : TickOn s (pmcTick w s) := by
  have seen : ∀ u, TickOn u (seeTick u) := fun u => .of_keeps rfl rfl rfl rfl (.of_bits rfl)
  unfold pmcTick
  refine TickOn.trans ?_ (seen _)
  split
  · exact (tickOn_measureTick w s).trans ((tickOn_oscTick _ _).trans ((tickOn_dacTick _ _).trans (tickOn_thermTick _ _)))
  · exact .refl s

/-! #### The ports, reports, groups and rings at a landing tick (R77, R263, R280, R357, R364, R375) -/

theorem tickOn_modHost (p : HostId) (f : PortSt → PortSt) (s : State) : TickOn s (modHost p f s) :=
  .of_keeps (by simp [modHost_keeps]) (by simp [modHost_keeps]) (by simp [modHost_keeps]) (by simp [modHost_keeps])
    (fltMono_modHost p f s)

theorem tickOn_silentTick (p : HostId) (s : State) : TickOn s (silentTick p s) := by
  unfold silentTick
  dsimp only
  split
  · exact (tickOn_modHost p _ s).trans ((tickOn_sticky _ 0 5 _).trans (tickOn_raiseAt _ 6 _))
  · exact tickOn_modHost p _ s

theorem tickOn_reportTick (bad : Option (Fin 18 × Fin 512 × Fin 32)) (s : State) : TickOn s (reportTick bad s) := by
  have sent : ∀ c i b, TickOn s (sendReport c i b s) := fun c i b => .of_keeps rfl rfl rfl rfl (.of_bits rfl)
  unfold reportTick
  split
  · unfold parityReport
    split
    · exact .refl s
    · exact (sent _ _ _).trans (tickOn_sticky clsFlt 0 3 _)
  · exact .refl s

theorem tickOn_upsetTick (w : TickIn) (s : State) : TickOn s (upsetTick w s) := by
  have counted : ∀ u a b, TickOn u { u with sup := { u.sup with ceA := a, ceB := b } } := fun u a b =>
    .of_sup rfl rfl rfl rfl id (.of_bits rfl)
  exact (tickOn_forEach _ _ (fun p => tickOn_modEng _ _) s).trans (counted _ _ _)

theorem tickOn_modGrp (g : Nat) (f : Grp → Grp) (s : State) : TickOn s (modGrp g f s) := .of_keeps rfl rfl rfl rfl (.of_bits rfl)

theorem tickOn_setGrp (g : Nat) (x : Grp) (s : State) : TickOn s (setGrp g x s) := .of_keeps rfl rfl rfl rfl (.of_bits rfl)

theorem tickOn_stopGroup (g : Nat) (s : State) : TickOn s (stopGroup g s) := by
  unfold stopGroup
  split
  · exact tickOn_modGrp g _ s
  · exact tickOn_lockGroup g [] s
  · exact .refl s

theorem tickOn_grpTick (g : Nat) (s : State) : TickOn s (grpTick g s) := by
  unfold grpTick
  dsimp only
  split
  · exact tickOn_setGrp g _ s
  · split
    · split
      · exact tickOn_setGrp g _ s
      · exact (tickOn_setGrp g _ s).trans (tickOn_lockGroup g _ _)
    · exact tickOn_setGrp g _ s

theorem tickOn_deadman (s : State) : TickOn s (deadman s) := by
  have expired : TickOn s { s with saf := { s.saf with miss := 2, dm := true }, flt := { s.flt with dmHold := true } } :=
    .of_keeps rfl rfl rfl rfl (.of_bits rfl)
  exact expired.trans ((tickOn_forEach _ _ (fun g => tickOn_lockGroup g [12]) _).trans
    ((tickOn_sticky clsSafio 0 1 _).trans (tickOn_sticky clsFlt 0 1 _)))

/-- A change of SAFIO alone. -/
theorem TickOn.of_saf {s : State} (x : SafSt) : TickOn s { s with saf := x } := .of_keeps rfl rfl rfl rfl (.of_bits rfl)

theorem tickOn_tokenTick (prev : Word) (s : State) : TickOn s (tokenTick prev s) := by
  unfold tokenTick
  split
  · exact .refl s
  · split
    · exact .of_saf _
    · dsimp only
      split
      · exact (TickOn.of_saf _).trans ((tickOn_sticky clsSafio 0 0 _).trans (tickOn_deadman _))
      · exact (TickOn.of_saf _).trans ((tickOn_sticky clsSafio 0 0 _).trans (tickOn_forEach _ _ tickOn_stopGroup _))

theorem tickOn_safioTick (prev : Word) (s : State) : TickOn s (safioTick prev s) := by
  unfold safioTick
  split
  · exact ((tickOn_forEach _ _ tickOn_grpTick s).trans (tickOn_tokenTick prev _)).trans (.of_saf _)
  · exact .refl s

theorem tickOn_sendFrame (p ty : Nat) (payload : List Byte) (s : State) : TickOn s (sendFrame p ty payload s) := by
  unfold sendFrame
  dsimp only
  split
  · exact .of_keeps rfl rfl rfl rfl (.of_bits rfl)
  · exact .refl s

theorem tickOn_sendCommand (k p target op addr : Nat) (data : Word) (s : State) :
    TickOn s (sendCommand k p target op addr data s) := by
  unfold sendCommand sendCommandAs
  exact TickOn.trans (u := setRing k _ s) (.of_keeps rfl rfl rfl rfl (.of_bits rfl)) (tickOn_sendFrame _ _ _ _)

theorem tickOn_orderGrid (d : Bool) (i : Nat) (s : State) : TickOn s (orderGrid d i s) := by
  unfold orderGrid
  exact (tickOn_sendCommand _ _ _ _ _ _ s).trans (tickOn_modGn8 i _ _)

theorem tickOn_harbourTick (s : State) : TickOn s (harbourTick s) := by
  unfold harbourTick
  split
  · exact tickOn_forEach _ _ (tickOn_orderGrid true) s
  · split
    · exact tickOn_forEach _ _ (fun i u => by
        split
        · exact .refl u
        · exact tickOn_orderGrid false i u) s
    · exact .refl s

theorem tickOn_persist (s : State) : TickOn s (persist s) := by
  have failed : ∀ (c : Bool), TickOn s (if c then forEach (cfgSecs s) (fun n => sticky clsSec n 7) s else s) := by
    intro c
    cases c
    · exact .refl s
    · exact tickOn_forEach _ _ (fun n => tickOn_sticky clsSec n 7) s
  unfold persist
  dsimp only
  refine TickOn.trans ?_ (tickOn_stickyIf _ clsFlt 0 0 _)
  refine TickOn.trans ?_ (tickOn_stickyIf _ clsDev 0 3 _)
  refine TickOn.trans ?_ (tickOn_stickyIf _ clsTherm 0 2 _)
  refine TickOn.trans ?_ (tickOn_stickyIf _ clsTherm 0 1 _)
  refine TickOn.trans ?_ (tickOn_stickyIf _ clsTherm 0 0 _)
  refine TickOn.trans ?_ (tickOn_forEach _ _ (fun g : Nat × Grp => tickOn_stickyIf _ clsSg g.1 13) _)
  refine TickOn.trans ?_ (tickOn_forEach _ _ (fun d : Nat × Dom => tickOn_stickyIf _ clsDom d.1 8) _)
  refine TickOn.trans ?_ (tickOn_stickyIf _ clsHb 0 5 _)
  refine TickOn.trans ?_ (tickOn_stickyIf _ clsHa 0 5 _)
  exact (failed _).trans (tickOn_stickyIf _ clsChk 0 4 _)

theorem tickOn_releaseFaultN (s : State) : TickOn s (releaseFaultN s) := .of_keeps rfl rfl rfl rfl (.of_bits rfl)

/-! #### The mailboxes and the drain deadline (R31, R34, R188, R288) -/

theorem tickOn_takeMailbox (p : HostId) (s : State) : TickOn s (takeMailbox p s) := by
  have taken : ∀ u l, TickOn u { u with sup := { u.sup with taken := l } } := fun u l => .of_sup rfl rfl rfl rfl id (.of_bits rfl)
  unfold takeMailbox
  dsimp only
  split
  · exact (tickOn_modHost p _ s).trans ((tickOn_modHost p _ _).trans (tickOn_sticky _ 0 3 _))
  · split
    · exact (tickOn_modHost p _ s).trans ((tickOn_modHost p _ _).trans (tickOn_sticky _ 0 2 _))
    · exact (tickOn_modHost p _ s).trans ((tickOn_modHost p _ _).trans (taken _ _))

theorem tickOn_copyMailbox (p : HostId) (s : State) : TickOn s (copyMailbox p s) := by
  unfold copyMailbox
  dsimp only
  split
  · exact .refl s
  · split
    · exact tickOn_modHost p _ s
    · exact tickOn_takeMailbox p s

theorem tickOn_takeMailboxes (failed : Bool) (l : List (Bool × Nat)) (s : State) : TickOn s (takeMailboxes failed l s) := by
  have taken : ∀ u l, TickOn u { u with sup := { u.sup with taken := l } } := fun u l => .of_sup rfl rfl rfl rfl id (.of_bits rfl)
  exact (tickOn_copyMailbox .ha s).trans ((tickOn_copyMailbox .hb _).trans ((tickOn_stickyIf _ clsChk 0 2 _).trans (taken _ _)))

theorem tickOn_preemptEng (e : Nat) (s : State) : TickOn s (preemptEng e s) := by
  unfold preemptEng
  dsimp only
  split
  · exact (tickOn_modEng e _ s).trans ((tickOn_setCore e _ _).trans ((tickOn_catchUpAt e _).trans (tickOn_failCheck _ e _)))
  · exact .refl s

theorem tickOn_drainCompleteAt (d : Nat) (s : State) : TickOn s (drainCompleteAt d s) := by
  have fixed : TickOn s { s with frame := { s.frame with drained := some d }, bell := { s.bell with drainT := d } } :=
    (TickOn.of_frame { s.frame with drained := some d } rfl rfl).trans (TickOn.of_bell { s.bell with drainT := d } rfl)
  exact fixed.trans (tickOn_forEach _ _ tickOn_preemptEng _)

theorem tickOn_passDeadline (s : State) : TickOn s (passDeadline s) := by
  unfold passDeadline
  split
  · exact (tickOn_markLate _ s).trans (tickOn_drainCompleteAt _ _)
  · exact .refl s

end Sys2Proof.Machine

/-! ### The landing tick, part by part (R28, R29, R31, R43) -/

namespace Sys2Proof.Machine

/-- A frame whose commit is still due at the tick stops the device (R33). -/
def tickStop (s : State) : State := if s.frame.closing && commits s then enterSafe 0x03 s else s

/-- A checkpoint that is still due at the tick has failed (R235, R237). -/
def tickCheckpoint (s : State) : State := if commits s && s.sup.cpDue then takeMailboxes true [] (failCheckpoint [1] s) else s

/-- The frame in service closes (R31). -/
def tickFrame (s : State) : State := if commits s then closeFrame (closeStreams s) else s

/-- What the blocks do at a tick, behind the check of the trees. -/
def tickBlocks (prev : Word) (w : TickIn) (s : State) : State :=
  releaseFaultN (persist (safioTick prev (harbourTick (pmcTick w (upsetTick w (reportTick w.badReport
    (silentTick .hb (silentTick .ha (rateCheck w.rateBad s)))))))))

/-- A START that waits is taken up (R314). -/
def tickStart (s : State) : State :=
  if s.dev.startReq && s.dev.mode == .boot then { s with dev := { s.dev with startReq := false, startTick := true } } else s

/-- The device behind the bell's own tick. -/
def tickedBell (preset : Bool) (s : State) : State := bellTick (nextLanding preset (tickCheckpoint (tickStop s)))

theorem landingAt_eq (preset : Bool) (w : TickIn) (s : State) :
    landingAt preset w s = tickStart (tickBlocks s.bell.landNo w (treeCheck w.skew (tickFrame (tickedBell preset s)))) := by
  unfold landingAt tickStart tickBlocks tickFrame tickedBell tickCheckpoint tickStop
  with_reducible rfl

theorem tickOn_tickBlocks (prev : Word) (w : TickIn) (s : State) : TickOn s (tickBlocks prev w s) :=
  (tickOn_rateCheck w.rateBad s).trans ((tickOn_silentTick .ha _).trans ((tickOn_silentTick .hb _).trans
    ((tickOn_reportTick w.badReport _).trans ((tickOn_upsetTick w _).trans ((tickOn_pmcTick w _).trans
      ((tickOn_harbourTick _).trans ((tickOn_safioTick prev _).trans ((tickOn_persist _).trans (tickOn_releaseFaultN _)))))))))

/-! #### The bell -/

/-- The bell b' behind a landing tick at the time that b shows: the next landing, or the preset one; the frame begins with the
period's length; a return to BELLREF that waits is made. -/
structure TickedOver (preset : Bool) (b b' : BellSt) : Prop where
  time : b'.time = b.time
  timeB : b'.timeB = b.timeB
  tickTime : b'.tickTime = b.time
  landNo : b'.landNo = if preset then b.landPreset else b.landNo + 1
  phase : b'.phase = 0
  frameLen : b'.frameLen = b.period
  period : b'.period = b.period
  wrapLand : b'.wrapLand = if preset = false ∧ b.landNo = 0xFFFFFFFF then satInc 255 b.wrapLand else b.wrapLand
  wrapBell : b'.wrapBell = b.wrapBell
  presets : b'.presetLo = b.presetLo ∧ b'.presetHi = b.presetHi ∧ b'.landPreset = b.landPreset
  loads : b'.load = b.load ∧ b'.loadPps = b.loadPps
  pps : b'.ppsTime = b.ppsTime ∧ b'.ppsCnt = b.ppsCnt ∧ b'.ppsSeen = b.ppsSeen
  trims : b'.trimA = b.trimA ∧ b'.trimB = b.trimB
  everOk : b'.everOk = b.everOk
  source : b.exitPending = true → b'.hold = false ∧ b'.lost = false

theorem TickedOver.aside {preset : Bool} {b b' c : BellSt} (h : TickedOver preset b b') (ha : BellAside b' c) :
    TickedOver preset b c := by
  rw [ha]
  exact ⟨h.time, h.timeB, h.tickTime, h.landNo, h.phase, h.frameLen, h.period, h.wrapLand, h.wrapBell, h.presets, h.loads, h.pps,
    h.trims, h.everOk, h.source⟩

/-- The timer's clearing touches the timer alone (R43). -/
theorem clearSsTimer_bell (s : State) : (clearSsTimer s).bell =
    { s.bell with ssStart := (clearSsTimer s).bell.ssStart, ssExpired := (clearSsTimer s).bell.ssExpired } := by
  unfold clearSsTimer
  split <;> rfl

theorem tickedOver_bellTick (preset : Bool) (s : State) : TickedOver preset s.bell (bellTick (nextLanding preset s)).bell := by
  have step : ∀ u : State, (holdoverExitTick u).bell = { u.bell with
      hold := (holdoverExitTick u).bell.hold, lost := (holdoverExitTick u).bell.lost
      exitPending := (holdoverExitTick u).bell.exitPending, ssStart := (holdoverExitTick u).bell.ssStart
      ssExpired := (holdoverExitTick u).bell.ssExpired } ∧
      (u.bell.exitPending = true → (holdoverExitTick u).bell.hold = false ∧ (holdoverExitTick u).bell.lost = false) := by
    intro u
    unfold holdoverExitTick
    split
    · rw [clearSsTimer_bell]
      exact ⟨rfl, fun _ => ⟨rfl, rfl⟩⟩
    · rename_i h
      exact ⟨rfl, fun hp => absurd hp h⟩
  unfold bellTick
  dsimp only
  obtain ⟨hbell, hsource⟩ := step { nextLanding preset s with bell := { (nextLanding preset s).bell with
    phase := 0, frameLen := (nextLanding preset s).bell.period, tickTime := (nextLanding preset s).bell.time
    holdLand := if inHoldover (nextLanding preset s) then satInc 0xFFFFFFFF (nextLanding preset s).bell.holdLand
      else (nextLanding preset s).bell.holdLand } }
  have hexit : (nextLanding preset s).bell.exitPending = s.bell.exitPending := by cases preset <;> rfl
  constructor
  case source => exact fun h => hsource (hexit.trans h)
  all_goals
    rewrite [hbell]
    cases preset <;> simp [nextLanding]

theorem tickOn_tickStop (s : State) : TickOn s (tickStop s) := by
  unfold tickStop
  split
  · exact tickOn_enterSafe 0x03 s
  · exact .refl s

theorem tickStop_bell (s : State) : (tickStop s).bell = s.bell := by
  unfold tickStop
  split
  · simp [enterSafe_keeps]
  · rfl

theorem fltMono_failCheckpoint (bits : List Nat) (s : State) : FltMono s (failCheckpoint bits s) := by
  have counted : ∀ x, FltMono s { s with sup := x } := fun x => .of_bits rfl
  exact (counted _).trans (fltMono_forEach _ _ (fun b => fltMono_sticky clsChk 0 b) _)

/-- What the checkpoint's failure leaves (R237). -/
theorem tickCheckpoint_keeps (s : State) : (tickCheckpoint s).bell = s.bell ∧ (tickCheckpoint s).dev = s.dev ∧
    (tickCheckpoint s).frame = s.frame ∧ FltMono s (tickCheckpoint s) := by
  unfold tickCheckpoint
  split
  · refine ⟨?_, ?_, ?_, ?_⟩
    · simp [takeMailboxes_keeps, failCheckpoint_keeps]
    · simp [takeMailboxes_keeps, failCheckpoint_keeps]
    · simp [takeMailboxes_keeps, failCheckpoint_keeps]
    · exact (fltMono_failCheckpoint [1] s).trans (tickOn_takeMailboxes true [] _).flt
  · exact ⟨rfl, rfl, rfl, .rfl⟩

/-- A checkpoint that is still due fails, and LOCKOUT follows (R237). -/
theorem tickCheckpoint_fails (s : State) (hcom : commits s = true) (hdue : s.sup.cpDue = true) :
    (tickCheckpoint s).sup.cpDue = false ∧ (tickCheckpoint s).sup.lockNext = true ∧
      (fltReg clsChk 0 (tickCheckpoint s)).getLsbD 1 = true := by
  have heq : tickCheckpoint s = takeMailboxes true [] (failCheckpoint [1] s) := by simp [tickCheckpoint, hcom, hdue]
  have hmail := tickOn_takeMailboxes true [] (failCheckpoint [1] s)
  have hsup : (failCheckpoint [1] s).sup.cpDue = false ∧ (failCheckpoint [1] s).sup.lockNext = true := by
    simp [failCheckpoint, forEach, sticky_keeps]
  rw [heq]
  exact ⟨hmail.cpDue.trans hsup.1, hmail.lockNext hsup.2, hmail.flt _ _ _ (sticky_bit clsChk 0 1 (by decide) _)⟩

theorem tickedBell_keeps (preset : Bool) (s : State) : (tickedBell preset s).dev = (tickStop s).dev ∧
    (tickedBell preset s).frame = (tickStop s).frame ∧ (tickedBell preset s).sup = (tickCheckpoint (tickStop s)).sup ∧
    (tickedBell preset s).flt = (tickCheckpoint (tickStop s)).flt := by
  obtain ⟨-, hdev, hframe, -⟩ := tickCheckpoint_keeps (tickStop s)
  simp [tickedBell, bellTick_keeps, nextLanding_keeps, hdev, hframe]

theorem tickedOver_tickedBell (preset : Bool) (s : State) : TickedOver preset s.bell (tickedBell preset s).bell := by
  have h := tickedOver_bellTick preset (tickCheckpoint (tickStop s))
  rw [(tickCheckpoint_keeps (tickStop s)).1, tickStop_bell] at h
  exact h

/-- The trees in service are not those of the bell's own tick to change. -/
theorem tickedBell_trees (preset : Bool) (s : State) :
    (tickedBell preset s).bell.outA = s.bell.outA ∧ (tickedBell preset s).bell.outB = s.bell.outB := by
  have step : ∀ u : State, (bellTick u).bell.outA = u.bell.outA ∧ (bellTick u).bell.outB = u.bell.outB := by
    intro u
    unfold bellTick holdoverExitTick
    dsimp only
    split
    · rw [clearSsTimer_bell]
      exact ⟨rfl, rfl⟩
    · exact ⟨rfl, rfl⟩
  have hbell : (tickCheckpoint (tickStop s)).bell = s.bell := by rw [(tickCheckpoint_keeps (tickStop s)).1, tickStop_bell]
  unfold tickedBell
  rw [(step _).1, (step _).2]
  cases preset <;> simp [nextLanding, hbell]

/-- Closing the frame leaves of the bell all but BELL_DRAIN (R31). -/
theorem tickFrame_bell (s : State) : (tickFrame s).bell = { s.bell with drainT := (tickFrame s).bell.drainT } := by
  unfold tickFrame
  split
  · simp [closeFrame, closeStreams_keeps]
  · rfl

theorem forward_tickFrame (s : State) : Forward s (tickFrame s) := by
  have closed : ∀ u, Forward u (closeFrame u) := fun u => ⟨rfl, rfl, id, rfl, id, .of_bits rfl⟩
  unfold tickFrame
  split
  · exact (tickOn_closeStreams s).toForward.trans (closed _)
  · exact ⟨rfl, rfl, id, rfl, id, .rfl⟩

theorem tickFrame_closes (s : State) (h : commits s = true) :
    (tickFrame s).frame.closing = true ∧ (tickFrame s).frame.committedAt = none := by
  rw [tickFrame, if_pos h]
  exact ⟨rfl, rfl⟩

/-- The device behind the frame's closing, where the trees are checked. -/
def tickClosed (preset : Bool) (s : State) : State := tickFrame (tickedBell preset s)

/-- What follows the frame's closing. -/
theorem tickOn_behindClosing (preset : Bool) (w : TickIn) (s : State) :
    TickOn (tickClosed preset s) (tickBlocks s.bell.landNo w (treeCheck w.skew (tickClosed preset s))) :=
  (tickOn_treeCheck w.skew _).trans (tickOn_tickBlocks _ w _)

theorem landingAt_closed (preset : Bool) (w : TickIn) (s : State) :
    landingAt preset w s = tickStart (tickBlocks s.bell.landNo w (treeCheck w.skew (tickClosed preset s))) :=
  landingAt_eq preset w s

/-- Taking up a START changes the device's two flags of it alone. -/
theorem tickStart_keeps (s : State) : (tickStart s).bell = s.bell ∧ (tickStart s).frame = s.frame ∧ (tickStart s).sup = s.sup ∧
    (tickStart s).flt = s.flt ∧ (tickStart s).dev.mode = s.dev.mode ∧ (tickStart s).dev.safe = s.dev.safe := by
  unfold tickStart
  split <;> exact ⟨rfl, rfl, rfl, rfl, rfl, rfl⟩

/-! ### What a landing tick comes to -/

theorem tickedOver_landingAt (preset : Bool) (w : TickIn) (s : State) :
    TickedOver preset s.bell (landingAt preset w s).bell := by
  rw [landingAt_closed, (tickStart_keeps _).1]
  refine TickedOver.aside ?_ (tickOn_behindClosing preset w s).bell
  refine (tickedOver_tickedBell preset s).aside ?_
  rw [tickClosed, tickFrame_bell]

theorem landingAt_mode (preset : Bool) (w : TickIn) (s : State) : (landingAt preset w s).dev.mode = s.dev.mode := by
  rw [landingAt_closed, (tickStart_keeps _).2.2.2.2.1, (tickOn_behindClosing preset w s).mode, tickClosed,
    (forward_tickFrame _).mode, (tickedBell_keeps preset s).1, (tickOn_tickStop s).mode]

theorem commits_iff (s : State) : commits s = true ↔ s.dev.mode ≠ .boot ∧ s.dev.safe = false := by
  simp [commits, inService]

/-- In service the frame closes, and its commit is due (R31). -/
theorem landingAt_closes (preset : Bool) (w : TickIn) (s : State) (hcom : commits s = true) (hopen : s.frame.closing = false) :
    (landingAt preset w s).frame.closing = true ∧ (landingAt preset w s).frame.committedAt = none := by
  have hstop : tickStop s = s := by simp [tickStop, hopen]
  have hafter : commits (tickedBell preset s) = true := by
    rw [commits_iff, (tickedBell_keeps preset s).1, hstop, ← commits_iff]
    exact hcom
  have hon := tickOn_behindClosing preset w s
  rw [landingAt_closed, (tickStart_keeps _).2.1, hon.closing, hon.committedAt]
  exact tickFrame_closes _ hafter

/-- A frame whose commit is still due stops the device (R33). -/
theorem landingAt_stops (preset : Bool) (w : TickIn) (s : State) (hmode : s.dev.mode ≠ .boot) (hclosing : s.frame.closing = true) :
    (landingAt preset w s).dev.safe = true := by
  have hstop : (tickStop s).dev.safe = true := by
    cases hs : s.dev.safe with
    | true => exact (tickOn_tickStop s).safe hs
    | false =>
      have hcom : (s.frame.closing && commits s) = true := by
        rw [hclosing, (commits_iff s).2 ⟨hmode, hs⟩]
        rfl
      rw [tickStop, if_pos hcom]
      exact enterSafe_safe 0x03 s
  rw [landingAt_closed, (tickStart_keeps _).2.2.2.2.2]
  refine (tickOn_behindClosing preset w s).safe ((forward_tickFrame _).safe ?_)
  rw [(tickedBell_keeps preset s).1]
  exact hstop

/-- A checkpoint still due has failed at the tick (R235, R237). -/
theorem landingAt_failsCheckpoint (preset : Bool) (w : TickIn) (s : State) (hcom : commits s = true)
    (hopen : s.frame.closing = false) (hdue : s.sup.cpDue = true) :
    (landingAt preset w s).sup.cpDue = false ∧ (landingAt preset w s).sup.lockNext = true ∧
      (fltReg clsChk 0 (landingAt preset w s)).getLsbD 1 = true := by
  have hstop : tickStop s = s := by simp [tickStop, hopen]
  obtain ⟨hcp, hlock, hbit⟩ := tickCheckpoint_fails s hcom hdue
  obtain ⟨-, -, hsup, hflt⟩ := tickedBell_keeps preset s
  rw [hstop] at hsup hflt
  have hon := (forward_tickFrame (tickedBell preset s)).trans (tickOn_behindClosing preset w s).toForward
  have hreg : ∀ u v : State, u.flt = v.flt → fltReg clsChk 0 u = fltReg clsChk 0 v := fun u v h => by rw [fltReg, h, ← fltReg]
  rw [landingAt_closed, (tickStart_keeps _).2.2.1, hreg _ _ (tickStart_keeps _).2.2.2.1, hon.cpDue, hsup]
  refine ⟨hcp, hon.lockNext (by rw [hsup, hlock]), hon.flt _ _ _ ?_⟩
  rw [hreg _ _ hflt]
  exact hbit

/-- A tick that the units do not accept sets TREE_DIS (R37). -/
theorem landingAt_disagrees (preset : Bool) (w : TickIn) (s : State) (ha : s.bell.outA = false) (hb : s.bell.outB = false)
    (h : w.skew = none ∨ (∃ d, w.skew = some d ∧ 60 < d) ∨ s.bell.timeB ≠ ~~~s.bell.time) :
    (fltReg clsBell 0 (landingAt preset w s)).getLsbD 1 = true := by
  have hbell := tickFrame_bell (tickedBell preset s)
  have hover := tickedOver_tickedBell preset s
  obtain ⟨hta, htb⟩ := tickedBell_trees preset s
  have hrefused : tickAccepted w.skew (tickClosed preset s) = false := by
    have houtA : (tickClosed preset s).bell.outA = false := by rw [tickClosed, hbell]; exact hta.trans ha
    have houtB : (tickClosed preset s).bell.outB = false := by rw [tickClosed, hbell]; exact htb.trans hb
    have htime : (tickClosed preset s).bell.time = s.bell.time := by rw [tickClosed, hbell]; exact hover.time
    have htimeB : (tickClosed preset s).bell.timeB = s.bell.timeB := by rw [tickClosed, hbell]; exact hover.timeB
    rw [tickAccepted, houtA, houtB, htime, htimeB]
    rcases h with h | ⟨d, h, hd⟩ | h
    · simp [h]
    · have : ¬d ≤ 60 := by omega
      simp [h, this]
    · simp [h]
  have hcheck : (fltReg clsBell 0 (treeCheck w.skew (tickClosed preset s))).getLsbD 1 = true := by
    rw [treeCheck, if_neg (by rw [hrefused]; decide)]
    exact fltMono_treeDecision _ _ _ _ _ _ (sticky_bit clsBell 0 1 (by decide) _)
  have hreg : ∀ u v : State, u.flt = v.flt → fltReg clsBell 0 u = fltReg clsBell 0 v := fun u v h => by rw [fltReg, h, ← fltReg]
  rw [landingAt_closed, hreg _ _ (tickStart_keeps _).2.2.2.1]
  exact (tickOn_tickBlocks _ w _).flt _ _ _ hcheck

/-- START in BOOT is taken up (R314). -/
theorem landingAt_starts (preset : Bool) (w : TickIn) (s : State) (hmode : s.dev.mode = .boot) (hreq : s.dev.startReq = true) :
    (landingAt preset w s).dev.startReq = false ∧ (landingAt preset w s).dev.startTick = true := by
  have hon := (forward_tickFrame (tickedBell preset s)).trans (tickOn_behindClosing preset w s).toForward
  have hdev := (tickedBell_keeps preset s).1
  have hstop := tickOn_tickStop s
  rw [landingAt_closed, tickStart, hon.startReq, hon.mode, hdev, hstop.startReq, hstop.mode, hreq, hmode]
  exact ⟨rfl, rfl⟩

end Sys2Proof.Machine

/-! ### The statement of the landing tick -/

namespace Sys2Proof.Machine

/-- The bell n ticks on (R23, R46). -/
def bellOn (n : Nat) (b : BellSt) : BellSt :=
  { b with
    time := BitVec.ofNat 48 (b.time.toNat + n), timeB := b.timeB - BitVec.ofNat 48 n, phase := b.phase + n
    wrapBell := if b.time.toNat + n < 2 ^ 48 then b.wrapBell else satInc 255 b.wrapBell }

theorem addTicks_bell (n : Nat) (s : State) : (addTicks n s).bell = bellOn n s.bell := by
  unfold addTicks
  by_cases hn : n = 0
  · simp only [hn, if_true]
    rfl
  · simp only [hn, if_false]
    rfl

/-- The deadline leaves the trees in service as they are. -/
theorem passDeadline_trees (s : State) :
    (passDeadline s).bell.outA = s.bell.outA ∧ (passDeadline s).bell.outB = s.bell.outB := by
  have marked : ∀ l u, (markLate l u).bell.outA = u.bell.outA ∧ (markLate l u).bell.outB = u.bell.outB := by
    intro l u
    cases l <;> simp [markLate, sticky_keeps]
  have fixed : ∀ d u, (drainCompleteAt d u).bell.outA = u.bell.outA ∧ (drainCompleteAt d u).bell.outB = u.bell.outB := by
    intro d u
    have h : (drainCompleteAt d u).bell = { u.bell with drainT := d } :=
      forEach_ind (fun t => t.bell = { u.bell with drainT := d }) _ _ _ rfl fun e _ t ht => by simpa [preemptEng_keeps] using ht
    rw [h]
    exact ⟨rfl, rfl⟩
  unfold passDeadline drainDeadline
  split
  · rw [(fixed _ _).1, (fixed _ _).2]
    exact marked _ s
  · exact ⟨rfl, rfl⟩

/-- The bell runs on to its next landing tick, past a drain deadline on the way (R31). -/
def beforeLanding (s : State) : State := passDeadline (addTicks (s.bell.frameLen - s.bell.phase) s)

theorem runToLanding_landing (w : TickIn) (s : State) (hruns : bellRuns s = true) (hload : loadDue s = false) :
    runToLanding w s = landingAt false w (beforeLanding s) := by
  simp [runToLanding, hruns, hload, beforeLanding]

theorem runToLanding_preset (w : TickIn) (s : State) (hruns : bellRuns s = true) (hload : loadDue s = true) :
    runToLanding w s = presetTick w s := by
  simp [runToLanding, hruns, hload]

/-- On the way to a landing tick nothing but the drain's end happens to the device. -/
theorem beforeLanding_keeps (s : State) :
    BellAside (bellOn (s.bell.frameLen - s.bell.phase) s.bell) (beforeLanding s).bell ∧
    (beforeLanding s).bell.outA = s.bell.outA ∧ (beforeLanding s).bell.outB = s.bell.outB ∧
    (beforeLanding s).dev = s.dev ∧ (beforeLanding s).sup = s.sup ∧ (beforeLanding s).frame.closing = s.frame.closing := by
  have hticks := addTicks_bell (s.bell.frameLen - s.bell.phase) s
  have hon := tickOn_passDeadline (addTicks (s.bell.frameLen - s.bell.phase) s)
  have hkeep := addTicks_keeps (s.bell.frameLen - s.bell.phase) s
  obtain ⟨ha, hb⟩ := passDeadline_trees (addTicks (s.bell.frameLen - s.bell.phase) s)
  refine ⟨hticks ▸ hon.bell, ?_, ?_, ?_, ?_, ?_⟩
  · rw [beforeLanding, ha, hticks]
    rfl
  · rw [beforeLanding, hb, hticks]
    rfl
  · simp [beforeLanding, passDeadline_keeps, addTicks_keeps]
  · simp [beforeLanding, passDeadline_keeps, addTicks_keeps]
  · rw [beforeLanding, hon.closing]
    simp [addTicks_keeps]

/-- The bell behind a landing tick that it has run on to (R23, R29, R46). -/
theorem tickedBell_of_over {n : Nat} {b c b' : BellSt} (ha : BellAside (bellOn n b) c) (h : TickedOver false c b') :
    TickedBell (BitVec.ofNat 48 (b.time.toNat + n)) (b.landNo + 1)
      (if b.landNo = 0xFFFFFFFF then satInc 255 b.wrapLand else b.wrapLand)
      (if b.time.toNat + n < 2 ^ 48 then b.wrapBell else satInc 255 b.wrapBell) b b' ∧
    b'.timeB = b.timeB - BitVec.ofNat 48 n := by
  have hland : c.landNo = b.landNo := by rw [ha]; rfl
  have hexit : c.exitPending = b.exitPending := by rw [ha]; rfl
  refine ⟨⟨?_, ?_, ?_, h.phase, ?_, ?_, ?_, ?_, ?_, ?_, ?_, ?_, ?_, ?_, ?_, ?_, fun hp => h.source (hexit.trans hp)⟩, ?_⟩
  · rw [h.time, ha]; rfl
  · rw [h.tickTime, ha]; rfl
  · rw [h.landNo, hland]; rfl
  · rw [h.frameLen, ha]; rfl
  · rw [h.period, ha]; rfl
  · rw [h.wrapLand, hland, ha]; simp [bellOn]
  · rw [h.wrapBell, ha]; rfl
  · rw [h.presets.1, ha]; rfl
  · rw [h.presets.2.1, ha]; rfl
  · rw [h.presets.2.2, ha]; rfl
  · rw [h.pps.1, ha]; rfl
  · rw [h.pps.2.1, ha]; rfl
  · rw [h.trims.1, ha]; rfl
  · rw [h.trims.2, ha]; rfl
  · rw [h.everOk, ha]; rfl
  · rw [h.timeB, ha]; rfl

/-- Tree B's copy follows the ticks as tree A's does (R37). -/
theorem inverted_bellOn (n : Nat) (b : BellSt) (h : b.timeB ≠ ~~~b.time) : (bellOn n b).timeB ≠ ~~~(bellOn n b).time := by
  intro he
  apply h
  have htime : (bellOn n b).time = b.time + BitVec.ofNat 48 n := by
    apply BitVec.eq_of_toNat_eq
    simp [bellOn]
  rw [htime] at he
  have hb : b.timeB - BitVec.ofNat 48 n = ~~~(b.time + BitVec.ofNat 48 n) := he
  generalize BitVec.ofNat 48 n = m at hb
  generalize b.time = x at hb ⊢
  generalize b.timeB = y at hb ⊢
  bv_omega

/-- What a landing tick keeps of the device (R23). -/
def TickKeeps (s t : State) : Prop :=
  t.pins = s.pins ∧ t.shown = s.shown ∧ t.free = s.free ∧ t.pending = s.pending ∧ t.dev.mode = s.dev.mode ∧ t.img.cfg = s.img.cfg

theorem tickKeeps_landing (w : TickIn) (s : State) : TickKeeps s (landingAt false w (beforeLanding s)) := by
  have hmode : (landingAt false w (beforeLanding s)).dev.mode = s.dev.mode := by
    rw [landingAt_mode, (beforeLanding_keeps s).2.2.2.1]
  refine ⟨?_, ?_, ?_, ?_, hmode, ?_⟩ <;> simp [landingAt_keeps, beforeLanding, passDeadline_keeps, addTicks_keeps]

theorem tickKeeps_preset (w : TickIn) (s : State) : TickKeeps s (presetTick w s) := by
  have hmode : (presetTick w s).dev.mode = s.dev.mode := by
    rw [presetTick, landingAt_mode]
    simp [takePreset_keeps, addTicks_keeps]
  have hcfg : ∀ u, (takePreset false u).img.cfg = u.img.cfg := fun _ => rfl
  refine ⟨?_, ?_, ?_, ?_, hmode, ?_⟩
  · simp [presetTick, landingAt_keeps, takePreset_keeps, addTicks_keeps]
  · simp [presetTick, landingAt_keeps, takePreset_keeps, addTicks_keeps]
  · simp [presetTick, landingAt_keeps, takePreset_keeps, addTicks_keeps]
  · simp [presetTick, landingAt_keeps, takePreset_keeps, addTicks_keeps]
  · rw [presetTick, (landingAt_keeps true w _).1, hcfg, (addTicks_keeps 1 s).2.2.2.2.2.2.2.2.2.2.2.2.1]

/-- The bell at a tick that takes a preset (R27, R50). -/
theorem takePreset_bell (pps : Bool) (s : State) : (takePreset pps s).bell =
    { (shiftRefs ((s.bell.presetHi ++ s.bell.presetLo) - s.bell.time) s).bell with
      time := s.bell.presetHi ++ s.bell.presetLo, timeB := ~~~(s.bell.presetHi ++ s.bell.presetLo)
      load := s.bell.load && pps, loadPps := s.bell.loadPps && !pps } := rfl

/-- The bell of a device that has taken its preset one tick on (R27, R50). -/
theorem takePreset_addTicks (s : State) : let b := (takePreset false (addTicks 1 s)).bell
    b.time = s.bell.presetHi ++ s.bell.presetLo ∧ b.timeB = ~~~(s.bell.presetHi ++ s.bell.presetLo) ∧
    b.landPreset = s.bell.landPreset ∧ b.load = false ∧ b.loadPps = s.bell.loadPps := by
  refine ⟨?_, ?_, ?_, ?_, ?_⟩
  case refine_3 => rfl
  all_goals simp [takePreset_bell, addTicks_bell, bellOn]

/-- A landing tick that loads the presets (R27). -/
theorem presetTick_loads (w : TickIn) (s : State) : let b := (presetTick w s).bell
    b.time = s.bell.presetHi ++ s.bell.presetLo ∧ b.timeB = ~~~(s.bell.presetHi ++ s.bell.presetLo) ∧
    b.tickTime = s.bell.presetHi ++ s.bell.presetLo ∧ b.landNo = s.bell.landPreset ∧
    b.phase = 0 ∧ b.load = false ∧ b.loadPps = s.bell.loadPps := by
  have taken := takePreset_addTicks s
  have ticked := tickedOver_landingAt true w (takePreset false (addTicks 1 s))
  rw [← presetTick] at ticked
  generalize (takePreset false (addTicks 1 s)).bell = b at taken ticked
  generalize (presetTick w s).bell = b' at ticked ⊢
  obtain ⟨htime, htimeB, hland, hload, hpps⟩ := taken
  exact ⟨ticked.time.trans htime, ticked.timeB.trans htimeB, ticked.tickTime.trans htime, ticked.landNo.trans hland, ticked.phase,
    ticked.loads.1.trans hload, ticked.loads.2.trans hpps⟩

/-- Settles O26: what happens on the way to the tick, at the tick itself, and where a preset is loaded instead. -/
theorem landingTicks : Obligations.LandingTicks := by
  unfold Obligations.LandingTicks
  intro w s hruns hphase n land wl wb kept loading preset loaded
  obtain ⟨haside, houtA, houtB, hdev, hsup, hclosing⟩ := beforeLanding_keeps s
  have hover := tickedOver_landingAt false w (beforeLanding s)
  have hdue : ¬loading → loadDue s = false := by
    intro h
    rw [loadDue]
    by_cases hl : s.bell.load = true
    · have hk : s.bell.locked = true := by
        by_contra hk
        exact h ⟨hl, by simpa using hk⟩
      simp [hk]
    · simp [hl]
  have hcommits : s.dev.mode ≠ .boot → s.dev.safe = false → commits (beforeLanding s) = true := by
    intro hm hs
    rw [commits_iff, hdev]
    exact ⟨hm, hs⟩
  refine ⟨fun hnot => ?_, fun hnot hlast => ?_, fun hnot hlast hnext hquiet => ?_, fun hload => ?_⟩
  · obtain ⟨hticked, htimeB⟩ := tickedBell_of_over haside hover
    refine ⟨landingAt false w (beforeLanding s), ?_, tickKeeps_landing w s, hticked, htimeB, fun hm hs hc => ?_, fun hm hc => ?_,
      fun hm hs hc hcp => ?_, fun ha hb hskew => ?_, fun hm hreq => ?_⟩
    · exact congrArg Host.Outcome.next (runToLanding_landing w s hruns (hdue hnot))
    · exact landingAt_closes false w _ (hcommits hm hs) (hclosing.trans hc)
    · exact landingAt_stops false w _ (by rwa [hdev]) (hclosing.trans hc)
    · exact landingAt_failsCheckpoint false w _ (hcommits hm hs) (hclosing.trans hc) (by rw [hsup, hcp])
    · refine landingAt_disagrees false w _ (houtA.trans ha) (houtB.trans hb) (hskew.imp id (Or.imp id fun hne => ?_))
      rw [haside]
      exact inverted_bellOn _ _ hne
    · exact landingAt_starts false w _ (by rw [hdev, hm]) (by rw [hdev, hreq])
  · obtain ⟨hticked, -⟩ := tickedBell_of_over haside hover
    refine ⟨landingAt false w (beforeLanding s), ?_, tickKeeps_landing w s, ?_⟩
    · show execLandingNumberWrap w s = _
      rw [execLandingNumberWrap, if_pos (by simp [hlast, hdue hnot]), runToLanding_landing w s hruns (hdue hnot)]
    · have hnext : s.bell.landNo + 1 = 0 := by rw [hlast]; rfl
      rwa [if_pos hlast, hnext] at hticked
  · show execBellTimeWrap s = _
    have hbefore : ¬s.bell.frameLen ≤ s.bell.phase + 1 := by omega
    have hquiet' : (draining (addTicks 1 s) && decide (deadlineOf (addTicks 1 s) ≤ (addTicks 1 s).bell.phase)) = false := by
      have hd : draining (addTicks 1 s) = draining s := rfl
      have hp : (deadlineOf (addTicks 1 s) ≤ (addTicks 1 s).bell.phase) ↔ s.bell.frameLen / 4 ≤ s.bell.phase + 1 := Iff.rfl
      rw [hd]
      rcases hquiet with h | h
      · rw [h]
        rfl
      · rw [decide_eq_false (by rw [hp]; omega), Bool.and_false]
    have htick : bellTickOne s = addTicks 1 s := by
      simp only [bellTickOne, hruns, hdue hnot, hbefore, Bool.not_true, Bool.false_eq_true, if_false, Bool.or_self, decide_false,
        passDeadline, hquiet']
    rw [execBellTimeWrap, if_pos (by simp [hlast]), htick]
    have hsame : addTicks 1 s = { s with
      ports := runLines 1 s.ports, flt := (settle s).flt, bell := (addTicks 1 s).bell } := rfl
    rw [hsame, addTicks_bell, bellOn, hlast]
    rfl
  · have hload' : loadDue s = true := by simp [loadDue, hload.1, hload.2]
    refine ⟨⟨presetTick .quiet s, ?_, presetTick_loads .quiet s, tickKeeps_preset .quiet s⟩,
      presetTick w s, congrArg Host.Outcome.next (runToLanding_preset w s hruns hload'), presetTick_loads w s, tickKeeps_preset w s⟩
    show execPresetLoad s = _
    rw [execPresetLoad, if_pos (by simp [hruns, hload'])]

end Sys2Proof.Machine

/-! ## O24: the reference inputs BELLREF and BELLPPS (R25 to R27, R49, R51 to R53) -/

namespace Sys2Proof.Machine

/-! ### A measurement of BELLREF -/

/-- What sets a bit off draws no free value, and none matters to it. -/
theorem raises_drawFree {l : List FltBit} {u t : State} (h : Raises l u t) : Raises l (drawFree u) (drawFree t) := by
  have he : drawFree t = { drawFree u with flt := t.flt, ha := t.ha, hb := t.hb } := by
    conv_lhs => rw [h.1]
    rfl
  rw [he]
  exact raises_congr (u' := drawFree u) h rfl rfl rfl rfl rfl fun _ => rfl

theorem plausibleRef_iff (dev : Int) (missing : Bool) :
    plausibleRef dev missing = true ↔ missing = false ∧ -1000 ≤ dev ∧ dev ≤ 1000 := by
  simp only [plausibleRef, Bool.and_eq_true, Bool.not_eq_true', decide_eq_true_eq]
  have : dev.natAbs ≤ 1000 ↔ -1000 ≤ dev ∧ dev ≤ 1000 := by omega
  rw [this]

/-- The trim of a tree stays, or takes the one step toward the reference that 100 ms allow (R25, R52; log 12). -/
theorem trimOf_step (dev : Int) (trim : Nat) (since : Bell) (s : State) :
    ((trimOf dev trim since s).1 = trim ∧ (trimOf dev trim since s).2 = since) ∨
    (1000000 ≤ (s.bell.time - since).toNat ∧ (trimOf dev trim since s).2 = s.bell.time ∧
      (0 < dev ∧ (trimOf dev trim since s).1 = min 0xFFFF (trim + 1) ∨ dev < 0 ∧ (trimOf dev trim since s).1 = trim - 1)) := by
  unfold trimOf
  split
  next h =>
    simp only [Bool.and_eq_true, bne_iff_ne, decide_eq_true_eq] at h
    obtain ⟨⟨-, hdev⟩, hlong⟩ := h
    refine .inr ⟨hlong, rfl, ?_⟩
    rcases lt_or_gt_of_ne hdev with hneg | hpos
    · exact .inr ⟨hneg, if_neg (by omega)⟩
    · exact .inl ⟨hpos, if_pos hpos⟩
  next => exact .inl ⟨rfl, rfl⟩

/-- An implausible measurement drops REF_OK and, where the reference had been good, sets REF_LOST (R25, R53). -/
theorem raises_implausible (s u : State) :
    Raises (if s.bell.everOk then [(clsBell, 0, 0)] else []) { u with free := u.free + 1 }
      (drawFree (stickyIf s.bell.everOk clsBell 0 0 u)) :=
  raises_drawFree (raises_stickyIf _ clsBell 0 0 (by decide) (by decide) u)

/-! ### An edge of BELLPPS -/

theorem raises_stampPps (s : State) :
    let d := (s.bell.time - s.bell.ppsMark).toNat
    Raises (if s.bell.ppsRef = true ∧ (d < 9999000 ∨ 10001000 < d) then [(clsBell, 0, 6)] else [])
      { s with bell := { s.bell with
        ppsTime := s.bell.time, ppsMark := s.bell.time, ppsCnt := s.bell.ppsCnt + 1, ppsRef := true, ppsSeen := true
        ppsInt := if s.bell.ppsRef then min 0x0FFFFFFF d else s.bell.ppsInt } } (stampPps s) := by
  intro d
  have hoff : (s.bell.ppsRef && !(decide (9999000 ≤ d) && decide (d ≤ 10001000))) = true ↔
      s.bell.ppsRef = true ∧ (d < 9999000 ∨ 10001000 < d) := by
    simp only [Bool.and_eq_true, Bool.not_eq_true', Bool.and_eq_false_iff, decide_eq_false_iff_not, Nat.not_le]
  have h := raises_stickyIf (s.bell.ppsRef && !(decide (9999000 ≤ d) && decide (d ≤ 10001000))) clsBell 0 6 (by decide) (by decide)
    { s with bell := { s.bell with
      ppsTime := s.bell.time, ppsMark := s.bell.time, ppsCnt := s.bell.ppsCnt + 1, ppsRef := true, ppsSeen := true
      ppsInt := if s.bell.ppsRef then min 0x0FFFFFFF d else s.bell.ppsInt } }
  simp only [hoff] at h
  exact h

/-- The bell of a device whose LOAD_PPS takes effect, as the edge stamps it (R26, R27; log 72). -/
theorem stampPps_takePreset (s : State) : let b := (stampPps (takePreset true s)).bell
    b.time = s.bell.presetHi ++ s.bell.presetLo ∧ b.timeB = ~~~(s.bell.presetHi ++ s.bell.presetLo) ∧
    b.landPreset = s.bell.landPreset ∧ b.ppsTime = s.bell.presetHi ++ s.bell.presetLo ∧ b.ppsCnt = s.bell.ppsCnt + 1 ∧
    b.ppsSeen = true ∧ b.load = s.bell.load ∧ b.loadPps = false := by
  have hbell : (stampPps (takePreset true s)).bell = { (takePreset true s).bell with
      ppsTime := (takePreset true s).bell.time, ppsMark := (takePreset true s).bell.time
      ppsCnt := (takePreset true s).bell.ppsCnt + 1, ppsRef := true, ppsSeen := true
      ppsInt := (stampPps (takePreset true s)).bell.ppsInt } := by
    rw [stampPps, (stickyIf_keeps _ _ _ _ _).1]
  rw [hbell]
  refine ⟨rfl, rfl, rfl, rfl, rfl, rfl, ?_, ?_⟩ <;> simp [takePreset_bell]

/-- A LOAD_PPS that is due makes the edge a landing tick at the preset, which the edge carries (R27; log 72). -/
theorem landingAt_stampPps (s : State) : let b := (landingAt true .quiet (stampPps (takePreset true s))).bell
    b.time = s.bell.presetHi ++ s.bell.presetLo ∧ b.timeB = ~~~(s.bell.presetHi ++ s.bell.presetLo) ∧
    b.landNo = s.bell.landPreset ∧ b.phase = 0 ∧ b.tickTime = s.bell.presetHi ++ s.bell.presetLo ∧
    b.ppsTime = s.bell.presetHi ++ s.bell.presetLo ∧ b.ppsCnt = s.bell.ppsCnt + 1 ∧ b.ppsSeen = true ∧
    b.load = s.bell.load ∧ b.loadPps = false := by
  have stamped := stampPps_takePreset s
  have ticked := tickedOver_landingAt true .quiet (stampPps (takePreset true s))
  generalize stampPps (takePreset true s) = u at stamped ticked ⊢
  generalize (landingAt true .quiet u).bell = b at ticked ⊢
  obtain ⟨htime, htimeB, hland, hpps, hcnt, hseen, hload, hloadPps⟩ := stamped
  obtain ⟨tpps, tcnt, tseen⟩ := ticked.pps
  exact ⟨ticked.time.trans htime, ticked.timeB.trans htimeB, ticked.landNo.trans hland, ticked.phase, ticked.tickTime.trans htime,
    tpps.trans hpps, tcnt.trans hcnt, tseen.trans hseen, ticked.loads.1.trans hload, ticked.loads.2.trans hloadPps⟩

theorem ppsLoads_iff (s : State) : ppsLoads s = true ↔
    s.bell.loadPps = true ∧ s.bell.locked = false ∧ 2 < (s.bell.time - s.bell.loadPpsAt).toNat := by
  rw [ppsLoads, Bool.and_eq_true, Bool.and_eq_true, Bool.not_eq_true', decide_eq_true_iff, and_assoc, elapsed]

/-- Settles O24: the measurements by tree and outcome, the edge by what is due at it, and PPS_SEEN by its 2 s. -/
theorem referenceInputs : Obligations.ReferenceInputs := by
  unfold Obligations.ReferenceInputs
  refine ⟨?_, ?_, fun s => ?_⟩
  · intro dev missing s ok lost step
    refine ⟨fun hin hon => ⟨fun hok => ?_, fun hbad => ?_⟩, fun hin hon => ⟨fun hok => ?_, fun hbad => ?_⟩, fun hout => ?_,
      fun hout => ?_⟩
    · refine ⟨_, _, _, ?_, trimOf_step dev s.bell.trimA s.bell.trimAtA s, rfl⟩
      show execRefMeasure .a dev missing s = _
      simp [execRefMeasure, hin, hon, (plausibleRef_iff dev missing).mpr hok, drawFree]
    · refine ⟨_, ?_, raises_implausible s { s with bell := { s.bell with refA := false } }⟩
      show execRefMeasure .a dev missing s = _
      simp [execRefMeasure, hin, hon, mt (plausibleRef_iff dev missing).mp hbad]
    · refine ⟨_, _, _, ?_, trimOf_step dev s.bell.trimB s.bell.trimAtB s, rfl⟩
      show execRefMeasure .b dev missing s = _
      simp [execRefMeasure, hin, hon, (plausibleRef_iff dev missing).mpr hok, drawFree]
    · refine ⟨_, ?_, raises_implausible s { s with bell := { s.bell with refB := false } }⟩
      show execRefMeasure .b dev missing s = _
      simp [execRefMeasure, hin, hon, mt (plausibleRef_iff dev missing).mp hbad]
    · show execRefMeasure .a dev missing s = _
      rcases hout with h | h <;> simp [execRefMeasure, h]
    · show execRefMeasure .b dev missing s = _
      rcases hout with h | h <;> simp [execRefMeasure, h]
  · intro s d preset due
    have hedge : exec .bellppsEdge s = .next (if !bellRuns s then s
        else if ppsLoads s then landingAt true .quiet (stampPps (takePreset true s)) else stampPps s) := rfl
    refine ⟨fun hstill => ?_, fun hruns hnot => ⟨stampPps s, ?_, raises_stampPps s⟩,
      fun hruns hdue => ⟨landingAt true .quiet (stampPps (takePreset true s)), ?_, landingAt_stampPps s⟩⟩
    · rw [hedge, hstill]
      rfl
    · rw [hedge, hruns, if_neg (by decide), if_neg (mt (ppsLoads_iff s).mp hnot)]
    · rw [hedge, hruns, if_neg (by decide), if_pos ((ppsLoads_iff s).mpr hdue)]
  · refine ⟨fun hseen hlong => if_pos ?_, fun hnot => if_neg ?_⟩
    · rw [hseen, Bool.true_and, decide_eq_true_iff]
      exact hlong
    · rw [Bool.and_eq_true, decide_eq_true_iff]
      rintro ⟨hseen, hlong⟩
      rcases hnot with h | h
      · rw [h] at hseen
        cases hseen
      · exact absurd h (not_lt.mpr hlong)

end Sys2Proof.Machine

/-! ## O35: what the drain does to an engine whose count of corrected errors is out of its 16 bits (R31, R188, R240) -/

namespace Sys2Proof.Machine

/-- A frame closes at the drain deadline, while engine 0, which serves no head, runs its extension program with a count of
corrected errors, ENG_ERR.CE, past the 16 bits of its register. -/
def overcounted : State :=
  { State.reset with
    dev := { State.reset.dev with mode := .run }
    frame := { State.reset.frame with closing := true }
    bell := { State.reset.bell with phase := 625 }
    engs := [(0, { Eng.reset with state := .service, ce := 0x10000, core := { Core.reset with xEnded := false } })] }

theorem canonical_overcounted : Canonical overcounted := by
  unfold Canonical
  decide

/-- Each engine of the device serves no head, runs no operation and has a core as after reset but for its extension program. -/
theorem engOf_overcounted (n : Nat) : (engOf n overcounted).slots = [] ∧ (engOf n overcounted).core.cops = [] ∧
    ∃ b, (engOf n overcounted).core = { Core.reset with xEnded := b } := by
  rcases Nat.eq_zero_or_pos n with rfl | hn
  · exact ⟨rfl, rfl, false, rfl⟩
  · have hreset : engOf n overcounted = Eng.reset := by
      simp [engOf, overcounted, tabGet, Nat.ne_of_gt hn]
    rw [hreset]
    exact ⟨rfl, rfl, true, rfl⟩

theorem inStep_overcounted (n : Nat) : InStep n overcounted := by
  obtain ⟨-, -, b, hcore⟩ := engOf_overcounted n
  rw [inStep_iff, hcore]
  exact ⟨⟨rfl, rfl, rfl, fun _ hc => absurd hc List.not_mem_nil, fun _ => Nat.zero_le 2⟩, rfl⟩

/-- The preemption at drain complete is a move of the cores, at which the count saturates (R188, R240). -/
theorem drainDeadline_overcounted :
    (engOf 0 (drainDeadline (addTicks (deadlineOf overcounted - overcounted.bell.phase) overcounted))).ce = 0xFFFF := by
  decide

/-- Refutes O35: a preempted engine does not keep its count of corrected errors where that is past 0xFFFF, which a register of
16 bits never shows; the counterexample is the drain deadline of the device overcounted. -/
theorem not_drainReports : ¬ Obligations.DrainReports := by
  unfold Obligations.DrainReports
  intro h
  have hcops : ∀ n, ∀ o ∈ (engOf n overcounted).core.cops, o.stage = .computed → o.exc.getLsbD 6 = false := by
    intro n o ho
    rw [(engOf_overcounted n).2.1] at ho
    exact absurd ho List.not_mem_nil
  obtain ⟨-, -, t, v, hexec, ⟨hv, -⟩, -, hpre⟩ :=
    h 0 overcounted canonical_overcounted (by decide) rfl rfl rfl inStep_overcounted hcops
  have hidle : ∀ n, engServing n overcounted = false := fun n => by
    rw [engServing, (engOf_overcounted n).1, List.isEmpty_nil, Bool.not_true, Bool.and_false]
  have hkept : v.engs = overcounted.engs := by
    rw [hv fun n hn => absurd hn.1 (by rw [engServing, engOf]; exact Bool.eq_false_iff.mp (hidle n))]
  have hpre0 := hpre 0
  rw [engOf, hkept, ← engOf, if_pos (by decide)] at hpre0
  obtain ⟨heng, -⟩ := hpre0
  have hcount : (engOf 0 t).ce = 0x10000 := congrArg Eng.ce heng
  injection hexec with hexec
  rw [← hexec, if_pos (by decide), drainDeadline_overcounted] at hcount
  exact absurd hcount (by decide)

end Sys2Proof.Machine

/-! ## O36: the commit of a device in LOCKOUT whose PRIOR reads BOOT (R31, R260, R320, R323) -/

namespace Sys2Proof.Machine

/-- A device in LOCKOUT whose PRIOR is BOOT, which enterLockout never records, with a deliberate reset accepted and the commit
of its closing frame due. -/
def lockedFromBoot : State :=
  { State.reset with
    dev := { State.reset.dev with mode := .lockout, prior := some .boot }
    saf := { State.reset.saf with devOk := true }
    frame := { State.reset.frame with closing := true, drained := some 0 }
    pmc := { State.reset.pmc with doms := [(4, { Dom.reset with state := .on })] } }

theorem commitDue_lockedFromBoot : CommitDue 0 lockedFromBoot := by
  unfold CommitDue
  decide

/-- The reset takes the mode to PRIOR with none of what a return to BOOT does (R320), and a commit that finds the device in BOOT
ends there: the frame stays closing. -/
theorem commit_lockedFromBoot (t : State) (h : exec (.commit .clean) lockedFromBoot = .next t) : t.frame.closing = true := by
  injection h with h
  rw [← h]
  decide

/-- Refutes O36 in its first clause: the commit of the device lockedFromBoot leaves its frame closing. -/
theorem not_commitsComplete : ¬ Obligations.CommitsComplete := by
  unfold Obligations.CommitsComplete
  intro h
  obtain ⟨hcommits, -⟩ := h .clean 0 lockedFromBoot
  obtain ⟨t, hexec, hclosed, -⟩ := hcommits commitDue_lockedFromBoot
  rw [commit_lockedFromBoot t hexec] at hclosed
  cases hclosed

end Sys2Proof.Machine

/-! ## O44, O45 and O46: the rings (R54 to R80) -/

namespace Sys2Proof.Machine

/-! ### Records of the rings -/

theorem portOf_congr {s t : State} (h : t.ports = s.ports) (p : Nat) : portOf p t = portOf p s := by rw [portOf, h, ← portOf]

theorem ringOf_congr {s t : State} (h : t.rings = s.rings) (k : Nat) : ringOf k t = ringOf k s := by rw [ringOf, h, ← ringOf]

theorem gn8Of_congr {s t : State} (h : t.gn8s = s.gn8s) (i : Nat) : gn8Of i t = gn8Of i s := by rw [gn8Of, h, ← gn8Of]

theorem headOf_congr {s t : State} (h : t.heads = s.heads) (n : Nat) : headOf n t = headOf n s := by rw [headOf, h, ← headOf]

theorem ringCfg_congr {s t : State} (h : t.img = s.img) (k : Nat) : ringCfg k t = ringCfg k s := by rw [ringCfg, h, ← ringCfg]

theorem portRing_congr {s t : State} (h : t.img = s.img) {p : Nat} : portRing p t = portRing p s := by
  unfold portRing
  rw [ringCfg_congr h, ringCfg_congr h]

theorem portBecomes_setPort (p : Nat) (y : RPort) (s : State) : PortBecomes p y s (setPort p y s) :=
  ⟨rfl, fun q => portOf_setPort p q y s⟩

theorem portBecomes_modPort (p : Nat) (f : RPort → RPort) (s : State) : PortBecomes p (f (portOf p s)) s (modPort p f s) :=
  portBecomes_setPort p _ s

theorem ringBecomes_setRing (k : Nat) (y : Ring) (s : State) : RingBecomes k y s (setRing k y s) :=
  ⟨rfl, fun j => ringOf_setRing k j y s⟩

theorem ringBecomes_modRing (k : Nat) (f : Ring → Ring) (s : State) : RingBecomes k (f (ringOf k s)) s (modRing k f s) :=
  ringBecomes_setRing k _ s

theorem gn8Becomes_setGn8 (i : Nat) (y : Gn8) (s : State) : Gn8Becomes i y s (setGn8 i y s) :=
  ⟨rfl, fun j => gn8Of_setGn8 i j y s⟩

theorem gn8Becomes_modGn8 (i : Nat) (f : Gn8 → Gn8) (s : State) : Gn8Becomes i (f (gn8Of i s)) s (modGn8 i f s) :=
  gn8Becomes_setGn8 i _ s

theorem ringBecomes_self (k : Nat) (s : State) : RingBecomes k (ringOf k s) s s :=
  ⟨rfl, fun j => by split <;> simp_all⟩

theorem gn8Becomes_self (i : Nat) (s : State) : Gn8Becomes i (gn8Of i s) s s :=
  ⟨rfl, fun j => by split <;> simp_all⟩

theorem PortBecomes.port {p : Nat} {y : RPort} {u t : State} (h : PortBecomes p y u t) : portOf p t = y := by
  rw [h.2, if_pos rfl]

theorem RingBecomes.ring {k : Nat} {y : Ring} {u t : State} (h : RingBecomes k y u t) : ringOf k t = y := by
  rw [h.2, if_pos rfl]

theorem Gn8Becomes.gn8 {i : Nat} {y : Gn8} {u t : State} (h : Gn8Becomes i y u t) : gn8Of i t = y := by
  rw [h.2, if_pos rfl]

/-- Of two changes of a port the later one stands. -/
theorem PortBecomes.trans {p : Nat} {x y : RPort} {s u t : State} (h : PortBecomes p x s u) (h' : PortBecomes p y u t) :
    PortBecomes p y s t :=
  ⟨by rw [h'.1, h.1], fun q => by rw [h'.2, h.2]; split <;> rfl⟩

/-- Of two changes of a ring the later one stands. -/
theorem RingBecomes.trans {k : Nat} {x y : Ring} {s u t : State} (h : RingBecomes k x s u) (h' : RingBecomes k y u t) :
    RingBecomes k y s t :=
  ⟨by rw [h'.1, h.1], fun j => by rw [h'.2, h.2]; split <;> rfl⟩

theorem portOf_modPort (p : Nat) (f : RPort → RPort) (s : State) : portOf p (modPort p f s) = f (portOf p s) :=
  (portBecomes_modPort p f s).port

theorem ringOf_modRing (k : Nat) (f : Ring → Ring) (s : State) : ringOf k (modRing k f s) = f (ringOf k s) :=
  (ringBecomes_modRing k f s).ring

theorem gn8Of_modGn8 (i : Nat) (f : Gn8 → Gn8) (s : State) : gn8Of i (modGn8 i f s) = f (gn8Of i s) :=
  (gn8Becomes_modGn8 i f s).gn8

/-! ### The fields of a frame (R60, R61) -/

@[simp] theorem length_leBytes (n x : Nat) : (leBytes n x).length = n := by rw [leBytes_eq_map, List.length_map, List.length_range]

theorem leNat_leBytes (n x : Nat) : leNat (leBytes n x) = x % 256 ^ n := by
  induction n generalizing x with
  | zero => simp [leBytes, leNat, Nat.mod_one]
  | succ n ih => rw [leBytes, leNat, ih, BitVec.toNat_ofNat, pow_succ' 256 n, Nat.mod_mul]

/-- The number a field holds that begins a list of bytes. -/
theorem fieldLE_leBytes (n x : Nat) (l : List Byte) : fieldLE (leBytes n x ++ l) 0 n = x % 256 ^ n := by
  rw [fieldLE, slice, List.drop_zero, List.take_left' (length_leBytes n x), length_leBytes, Nat.sub_self, List.replicate_zero,
    List.append_nil, leNat_leBytes]

/-- A field behind a first run of bytes. -/
theorem fieldLE_append (a l : List Byte) (off n : Nat) (h : a.length ≤ off) :
    fieldLE (a ++ l) off n = fieldLE l (off - a.length) n := by
  rw [fieldLE, fieldLE, slice, slice, List.drop_append, List.drop_eq_nil_of_le h, List.nil_append]

theorem fieldLE_skip (m x : Nat) (l : List Byte) (off n : Nat) (h : m ≤ off) :
    fieldLE (leBytes m x ++ l) off n = fieldLE l (off - m) n := by
  rw [fieldLE_append _ _ _ _ (by rwa [length_leBytes]), length_leBytes]

theorem txDir_le (p : Nat) (s : State) : txDir p s ≤ 1 := by
  unfold txDir
  split
  · split <;> omega
  · omega

/-- The frame of a type that this device sends from a port with a payload (R60, R61). -/
def ownFrame (p ty : Nat) (payload : List Byte) (s : State) : List Byte :=
  let dev := match portRing p s with
    | some k => if (ringCfg k s).mode == 2 then b2n (ringCfg k s).pdev else 0
    | none => 0
  let body := leBytes 1 (ty * 16 + txDir p s * 4) ++ leBytes 1 (dev * 8 + 7) ++ leBytes 2 (portOf p s).seq.toNat ++ payload
  body ++ leBytes 4 (crc32c body).toNat

/-- A port whose link is up and which drives takes the frame (R61, R64). -/
theorem sendFrame_up (p ty : Nat) (payload : List Byte) (s : State) (hup : (portOf p s).link = .up)
    (htx : (portOf p s).txen = true) :
    sendFrame p ty payload s = setPort p (SentFrame (txClass ty) (ownFrame p ty payload s) (portOf p s)) s := by
  rw [sendFrame, if_pos (by rw [hup, htx]; rfl)]
  rfl

theorem sendFrame_off (p ty : Nat) (payload : List Byte) (s : State)
    (h : ¬((portOf p s).link = .up ∧ (portOf p s).txen = true)) : sendFrame p ty payload s = s := by
  rw [sendFrame, if_neg (by simpa using h)]

/-- Sending a frame changes no port but the one it leaves by. -/
theorem portOf_sendFrame_other (p q ty : Nat) (payload : List Byte) (s : State) (h : q ≠ p) :
    portOf q (sendFrame p ty payload s) = portOf q s := by
  unfold sendFrame
  dsimp only
  split
  · rw [portOf_setPort, if_neg h]
  · rfl

/-- The header of a frame of this device, its payload behind it, and its CRC over both. -/
theorem ownFrame_eq (p ty : Nat) (payload : List Byte) (s : State) : ∃ a b c,
    ownFrame p ty payload s = leBytes 1 (ty * 16 + txDir p s * 4) ++ leBytes 1 a ++ leBytes 2 b ++ payload ++ leBytes 4 c ∧
    c = (crc32c ((ownFrame p ty payload s).take (payload.length + 4))).toNat := by
  refine ⟨_, _, _, rfl, ?_⟩
  rw [ownFrame, List.take_left' (by simp; omega)]

theorem length_ownFrame (p ty : Nat) (payload : List Byte) (s : State) :
    (ownFrame p ty payload s).length = payload.length + 8 := by
  obtain ⟨a, b, c, he, -⟩ := ownFrame_eq p ty payload s
  rw [he]
  simp
  omega

theorem frameType_ownFrame (p ty : Nat) (payload : List Byte) (s : State) (h : ty < 16) :
    frameType (ownFrame p ty payload s) = ty := by
  obtain ⟨a, b, c, he, -⟩ := ownFrame_eq p ty payload s
  have hdir := txDir_le p s
  rw [frameType, he, List.append_assoc, List.append_assoc, List.append_assoc, fieldLE_leBytes]
  omega

/-- The payload follows the 4 octets of the header, the CRC the payload. -/
theorem drop_ownFrame (p ty : Nat) (payload : List Byte) (s : State) : ∃ c,
    (ownFrame p ty payload s).drop 4 = payload ++ leBytes 4 c := by
  obtain ⟨a, b, c, he, -⟩ := ownFrame_eq p ty payload s
  refine ⟨c, ?_⟩
  rw [he, List.append_assoc]
  exact List.drop_left' (by simp)

/-- A field of the payload lies 4 octets further on in the frame. -/
theorem fieldLE_ownFrame (p ty : Nat) (payload : List Byte) (s : State) : ∃ l, ∀ off n,
    fieldLE (ownFrame p ty payload s) (off + 4) n = fieldLE (payload ++ l) off n := by
  obtain ⟨c, hc⟩ := drop_ownFrame p ty payload s
  refine ⟨leBytes 4 c, fun off n => ?_⟩
  rw [fieldLE, fieldLE, slice, slice, Nat.add_comm, ← List.drop_drop, hc]

theorem crc_ownFrame (p ty : Nat) (payload : List Byte) (s : State) :
    (crc32c ((ownFrame p ty payload s).take (payload.length + 4))).toNat =
      fieldLE (ownFrame p ty payload s) (payload.length + 4) 4 := by
  obtain ⟨a, b, c, he, hc⟩ := ownFrame_eq p ty payload s
  rw [← hc, he, fieldLE_append _ _ _ _ (by simp; omega)]
  have hlt : c < 256 ^ 4 := by rw [hc]; exact BitVec.isLt _
  have hat : payload.length + 4 - (leBytes 1 (ty * 16 + txDir p s * 4) ++ leBytes 1 a ++ leBytes 2 b ++ payload).length = 0 := by
    simp
    omega
  rw [hat, ← List.append_nil (leBytes 4 c), fieldLE_leBytes, Nat.mod_eq_of_lt hlt]

end Sys2Proof.Machine

namespace Sys2Proof.Machine

/-- Sending a frame changes the ports alone. -/
theorem sendFrame_eq (p ty : Nat) (payload : List Byte) (s : State) :
    sendFrame p ty payload s = { s with ports := (sendFrame p ty payload s).ports } := by
  unfold sendFrame
  dsimp only
  split <;> rfl

theorem ringOf_sendFrame (p ty : Nat) (payload : List Byte) (s : State) (k : Nat) :
    ringOf k (sendFrame p ty payload s) = ringOf k s :=
  ringOf_congr (by rw [sendFrame_eq]) k

/-! ### Commands (R63) -/

/-- The payload of a COMMAND (R63). -/
def commandPayload (target op tag addr : Nat) (data : Word) : List Byte :=
  leBytes 1 target ++ leBytes 1 op ++ leBytes 2 tag ++ leBytes 2 addr ++ leBytes 4 data.toNat

theorem commandPayload_fields (target op tag addr : Nat) (data : Word) (l : List Byte) :
    let f := commandPayload target op tag addr data ++ l
    fieldLE f 0 1 = target % 256 ∧ fieldLE f 1 1 = op % 256 ∧ fieldLE f 2 2 = tag % 65536 ∧ fieldLE f 4 2 = addr % 65536 ∧
      fieldLE f 6 4 = data.toNat := by
  have hdata : data.toNat % 256 ^ 4 = data.toNat := Nat.mod_eq_of_lt data.isLt
  simp only [commandPayload, List.append_assoc]
  exact ⟨by rw [fieldLE_leBytes]; rfl, by simp [fieldLE_skip, fieldLE_leBytes], by simp [fieldLE_skip, fieldLE_leBytes],
    by simp [fieldLE_skip, fieldLE_leBytes], by simp only [fieldLE_skip, fieldLE_leBytes, hdata, Nat.reduceLeDiff, Nat.reduceSub]⟩

/-- A COMMAND frame as it stands on the line (R61, R63). -/
theorem commandFrame_fields (p target op tag addr : Nat) (data : Word) (s : State) :
    let f := ownFrame p tCommand (commandPayload target op tag addr data) s
    f.length = 18 ∧ frameType f = 3 ∧ fieldLE f 4 1 = target % 256 ∧ fieldLE f 5 1 = op % 256 ∧ fieldLE f 6 2 = tag % 65536 ∧
      fieldLE f 8 2 = addr % 65536 ∧ fieldLE f 10 4 = data.toNat ∧ (crc32c (f.take 14)).toNat = fieldLE f 14 4 := by
  have hlen : (commandPayload target op tag addr data).length = 10 := by simp [commandPayload]
  have hcrc := crc_ownFrame p tCommand (commandPayload target op tag addr data) s
  rw [hlen] at hcrc
  obtain ⟨l, field⟩ := fieldLE_ownFrame p tCommand (commandPayload target op tag addr data) s
  obtain ⟨htarget, hop, htag, haddr, hdata⟩ := commandPayload_fields target op tag addr data l
  exact ⟨by rw [length_ownFrame, hlen], frameType_ownFrame p tCommand _ s (by decide), (field 0 1).trans htarget,
    (field 1 1).trans hop, (field 2 2).trans htag, (field 4 2).trans haddr, (field 6 4).trans hdata, hcrc⟩

/-- A command that is kept until its reply (R63). -/
def keptCmd (digest : Bool) (k p target op addr : Nat) (data : Word) (s : State) : RCmd :=
  { target := target, op := op, tag := (ringOf k s).tag, addr := addr, data := data, port := p, sentAt := s.bell.time
    retried := false, answered := false, digest := digest }

theorem sendCommandAs_eq (digest : Bool) (k p target op addr : Nat) (data : Word) (s : State) :
    sendCommandAs digest k p target op addr data s =
      sendFrame p tCommand (commandPayload target op (ringOf k s).tag addr data)
        (setRing k { ringOf k s with tag := ((ringOf k s).tag + 1) % 65536
                                     cmds := (ringOf k s).cmds ++ [keptCmd digest k p target op addr data s] } s) := rfl

/-- A command goes out and is kept (R63). -/
theorem commandSent_sendCommandAs (digest : Bool) (k p target op addr : Nat) (data : Word) (s : State) :
    CommandSent k p (keptCmd digest k p target op addr data s) s (sendCommandAs digest k p target op addr data s) := by
  rw [sendCommandAs_eq]
  generalize hs1 : setRing k { ringOf k s with tag := ((ringOf k s).tag + 1) % 65536
                                               cmds := (ringOf k s).cmds ++ [keptCmd digest k p target op addr data s] } s = s1
  have hring : RingBecomes k { ringOf k s with
      tag := ((ringOf k s).tag + 1) % 65536, cmds := (ringOf k s).cmds ++ [keptCmd digest k p target op addr data s] } s s1 :=
    hs1 ▸ ringBecomes_setRing k _ s
  have hport : ∀ q, portOf q s1 = portOf q s := fun q => portOf_congr (by rw [hring.1]) q
  refine ⟨?_, fun j hj => ?_, ?_, rfl, rfl, rfl, rfl, rfl, fun q hq => ?_, fun hoff => ?_, fun hup htx => ?_⟩
  · rw [sendFrame_eq]
    rw [hring.1]
  · rw [ringOf_sendFrame, hring.2, if_neg hj]
  · rw [ringOf_sendFrame, hring.ring]
  · rw [portOf_sendFrame_other p q _ _ _ hq, hport]
  · rw [sendFrame_off p _ _ _ (by rwa [hport]), hport]
  · rw [← hport] at hup htx
    refine ⟨_, ?_, commandFrame_fields p target op (ringOf k s).tag addr data s1⟩
    rw [sendFrame_up p _ _ _ hup htx, portOf_setPort, if_pos rfl, hport]
    rfl

theorem nearPort_eq (k target : Nat) (s : State) (h : target < 4) :
    nearPort k target s = if (ringCfg k s).mode = 1 ∧ (ringCfg k s).ngn8 < 2 * target + 1 then k + 16 else k := by
  unfold nearPort
  simp [h]

/-! ### The merge of a GN8 (R70 to R77) -/

theorem advanceMerge_due (i n : Nat) (t : Bell) (s : State) (hnext : (gn8Of i s).next = some t) (hheld : (gn8Of i s).held = [])
    (hdue : pastDeadline t s.bell.time = true) : advanceMerge i (n + 1) s = advanceMerge i n (missInstant i t s) := by
  simp [advanceMerge, hnext, hheld, hdue]

theorem advanceMerge_waits (i n : Nat) (t : Bell) (s : State) (hnext : (gn8Of i s).next = some t)
    (hheld : (gn8Of i s).held = []) (hlater : pastDeadline t s.bell.time = false) : advanceMerge i n s = s := by
  cases n with
  | zero => rfl
  | succ n => simp [advanceMerge, hnext, hheld, hlater]

/-- With nothing kept for comparison there is no run to judge. -/
theorem gn8Of_judgeRecent_nil (i : Nat) (s : State) (h : (gn8Of i s).recent = []) : gn8Of i (judgeRecent i s) = gn8Of i s := by
  rw [judgeRecent, gn8Of_modGn8]
  simp only [h, List.filter_nil, List.reverse_nil, List.foldl_nil, List.map_nil]
  rw [← h]

theorem gn8s_forEach_missOne (l : List (Nat × Nat)) (t : Bell) (c : Nat) (s : State) :
    (forEach l (fun h => missOne t c h.1) s).gn8s = s.gn8s :=
  forEach_gn8s l _ s fun h u => by simp [missOne_keeps]

theorem gn8Of_missInstant (i : Nat) (t : Bell) (s : State) :
    gn8Of i (missInstant i t s) = judgeRun false false (stepNext t (gn8Of i (judgeRecent i s))) := by
  rw [missInstant]
  exact (gn8Of_congr (gn8s_forEach_missOne _ _ _ _) i).trans (gn8Of_modGn8 i _ _)

/-- An instant that has not come is due, nothing is held or kept for comparison, and the instant u behind it is not due. -/
structure LoneDue (i : Nat) (t u : Bell) (s : State) : Prop where
  next : (gn8Of i s).next = some t
  held : (gn8Of i s).held = []
  recent : (gn8Of i s).recent = []
  due : pastDeadline t s.bell.time = true
  follows : (stepNext t (gn8Of i s)).next = some u
  later : pastDeadline u s.bell.time = false

theorem stepNext_kept (t : Bell) (g : Gn8) : (stepNext t g).held = g.held ∧ (stepNext t g).recent = g.recent := by
  unfold stepNext changeGrid
  cases g.change with
  | none => exact ⟨rfl, rfl⟩
  | some c => dsimp only; split <;> exact ⟨rfl, rfl⟩

/-- Such an instant alone is declared missing. -/
theorem mergeGn8_loneDue {i : Nat} {t u : Bell} {s : State} (h : LoneDue i t u s) :
    mergeGn8 i s = judgeRecent i (missInstant i t s) ∧
      gn8Of i (mergeGn8 i s) = judgeRun false false (stepNext t (gn8Of i s)) := by
  obtain ⟨hnext, hheld, hrecent, hdue, hfollows, hlater⟩ := h
  have hgn8 : gn8Of i (missInstant i t s) = judgeRun false false (stepNext t (gn8Of i s)) := by
    rw [gn8Of_missInstant, gn8Of_judgeRecent_nil i s hrecent]
  have hmerge : mergeGn8 i s = judgeRecent i (missInstant i t s) := by
    obtain ⟨n, hn⟩ : ∃ n, mergeFuel i s = n + 1 := by
      rw [mergeFuel, hnext]
      exact ⟨_, rfl⟩
    rw [mergeGn8, hn, advanceMerge_due i n t s hnext hheld hdue, advanceMerge_waits i n u _ (by rw [hgn8]; exact hfollows)
      (by rw [hgn8]; exact (stepNext_kept t _).1.trans hheld) (by simpa [missInstant_keeps] using hlater)]
  refine ⟨hmerge, ?_⟩
  rw [hmerge, gn8Of_judgeRecent_nil, hgn8]
  rw [hgn8]
  exact (stepNext_kept t _).2.trans hrecent

/-- The open bubble of a head behind one more missing instant (R76, R77). -/
def grown (t : Bell) (cause : Nat) (tick : Bell) (x : Head) : Bubble :=
  match x.bubble with
  | some b => { b with count := b.count + 1, cause := max b.cause cause }
  | none => { first := t, count := 1, cause := cause, contIn := laterMod 48 tick t || x.cont }

/-- A bubble grows up to a COUNT of 65 534 without a token. -/
theorem bubble_missOne (t : Bell) (cause n : Nat) (s : State)
    (h : (grown t cause s.bell.tickTime (headOf n s)).count < 65535) :
    (headOf n (missOne t cause n s)).bubble = some (grown t cause s.bell.tickTime (headOf n s)) := by
  have he : missOne t cause n s =
      if 65535 ≤ (grown t cause s.bell.tickTime (headOf n s)).count then
        flushBubble false n (setHead n { headOf n s with bubble := some (grown t cause s.bell.tickTime (headOf n s)) } s)
      else setHead n { headOf n s with bubble := some (grown t cause s.bell.tickTime (headOf n s)) } s := rfl
  rw [he, if_neg (by omega), headOf_setHead, if_pos rfl]

/-- The bubble of a GN8's only head behind an instant that is declared missing. -/
theorem bubble_missInstant (i : Nat) (t : Bell) (h ch : Nat) (s : State) (hheads : gn8Heads i s = [(h, ch)])
    (hcount : (grown t (missCause i t s) s.bell.tickTime (headOf h s)).count < 65535) :
    (headOf h (missInstant i t s)).bubble = some (grown t (missCause i t s) s.bell.tickTime (headOf h s)) := by
  have he : missInstant i t s =
      missOne t (missCause i t s) h (modGn8 i (fun g => judgeRun false false (stepNext t g)) (judgeRecent i s)) := by
    have : missInstant i t s = forEach (gn8Heads i s) (fun h => missOne t (missCause i t s) h.1)
        (modGn8 i (fun g => judgeRun false false (stepNext t g)) (judgeRecent i s)) := rfl
    rw [this, hheads]
    rfl
  rw [he]
  exact bubble_missOne t _ h _ hcount

end Sys2Proof.Machine

namespace Sys2Proof.Machine

/-! ### O46: the rows of the merge (R69 to R77) -/

theorem headOf_judgeRecent (n i : Nat) (s : State) : headOf n (judgeRecent i s) = headOf n s := rfl

/-- An instant missing for a GN8's heads, in the bubble of its only head (R70, R76, R77). -/
theorem instantMissing_loneDue (g : Gn8Ix) (t u : Bell) (s : State) (hcom : commits s = true) (h : LoneDue g t u s) :
    ∃ t', exec (.instantMissing g) s = .next t' ∧ gn8Of g t' = judgeRun false false (stepNext t (gn8Of g s)) ∧
      ∀ n ch, gn8Heads g s = [(n, ch)] → (grown t (missCause g t s) s.bell.tickTime (headOf n s)).count < 65535 →
        (headOf n t').bubble = some (grown t (missCause g t s) s.bell.tickTime (headOf n s)) := by
  obtain ⟨hmerge, hgn8⟩ := mergeGn8_loneDue h
  refine ⟨mergeGn8 g s, ?_, hgn8, fun n ch hheads hcount => ?_⟩
  · show execInstantMissing g s = _
    rw [execInstantMissing, if_pos hcom]
  · rw [hmerge, headOf_judgeRecent]
    exact bubble_missInstant g t n ch s hheads hcount

/-- Without a change of grid the next instant lies on the grid in effect (R70). -/
theorem stepNext_same (t : Bell) (g : Gn8) (h : g.change = none) : stepNext t g = { g with next := some (nextMultiple (gridOf g) t) } := by
  have hsame : changeGrid t g = g := by rw [changeGrid, h]
  rw [stepNext, hsame]

/-- At its instant a change of grid takes effect (R77). -/
theorem stepNext_change (t : Bell) (d : Bool) (g : Gn8) (h : g.change = some (d, t)) :
    stepNext t g = { g with decim := d, change := none, gridAt := some t, next := some (nextMultiple (if d then 800 else 100) t) } := by
  have hchange : changeGrid t g = { g with decim := d, change := none, gridAt := some t } := by
    rw [changeGrid, h]
    exact if_pos rfl
  rw [stepNext, hchange]
  rfl

theorem pastDeadline_iff (t now : Bell) : pastDeadline t now = true ↔ laterMod 48 t now = false ∧ 660 ≤ (now - t).toNat := by
  rw [pastDeadline, Bool.and_eq_true, Bool.not_eq_true', decide_eq_true_eq, elapsed]

theorem decimationGridChange_loneDue (g : Gn8Ix) (t : Bell) (d : Bool) (s : State) (hnext : (gn8Of g s).next = some t)
    (hchange : (gn8Of g s).change = some (d, t)) (hheld : (gn8Of g s).held = []) (hrecent : (gn8Of g s).recent = [])
    (hdue : pastDeadline t s.bell.time = true)
    (hlater : pastDeadline (nextMultiple (if d then 800 else 100) t) s.bell.time = false) :
    ∃ t', exec (.decimationGridChange g) s = .next t' ∧ (gn8Of g t').decim = d ∧ (gn8Of g t').change = none ∧
      (gn8Of g t').gridAt = some t ∧ (gn8Of g t').next = some (nextMultiple (if d then 800 else 100) t) := by
  have hstep := stepNext_change t d _ hchange
  have hgn8 := (mergeGn8_loneDue (u := nextMultiple (if d then 800 else 100) t)
    { next := hnext, held := hheld, recent := hrecent, due := hdue, follows := by rw [hstep], later := hlater }).2
  refine ⟨mergeGn8 g s, ?_, ?_⟩
  · show execDecimationGridChange g s = _
    rw [execDecimationGridChange, hchange]
  · rw [hgn8, hstep]
    exact ⟨rfl, rfl, rfl, rfl⟩

/-! #### Directions (R73, R74) -/

/-- A GN8 has lost a direction: its record is y, its ring no longer CLOSED, and DIR_LOSS shows. -/
def losing (g : Nat) (y : Gn8) (s : State) : State :=
  sticky clsRing 0 3 (modRing (g / 4) (fun r => if r.state == .closed then { r with state := .open } else r) (setGn8 g y s))

theorem losing_spec (g : Nat) (y : Gn8) (s : State) : ∃ u v, Gn8Becomes g y s u ∧
    RingBecomes (g / 4) (if (ringOf (g / 4) s).state = .closed then { ringOf (g / 4) s with state := .open } else ringOf (g / 4) s) u v ∧
    Raises [(clsRing, 0, 3)] v (losing g y s) := by
  refine ⟨_, _, gn8Becomes_setGn8 g y s, ?_, raises_sticky clsRing 0 3 (by decide) (by decide) _⟩
  have h := ringBecomes_modRing (g / 4) (fun r => if r.state == .closed then { r with state := .open } else r) (setGn8 g y s)
  rw [show ringOf (g / 4) (setGn8 g y s) = ringOf (g / 4) s from rfl] at h
  simpa only [beq_iff_eq] using h

theorem execDirectionLoss_high (g : Gn8Ix) (s : State) (hmerges : ringMerges (g.val / 4) s = true)
    (hdir : (gn8Of g s).dirh = true) (hrun : 16 ≤ (gn8Of g s).onlyL) :
    exec (.directionLoss g) s = .next (losing g { gn8Of g s with dirh := false } s) := by
  show execDirectionLoss g s = _
  simp [execDirectionLoss, hmerges, hdir, hrun, losing]

theorem execDirectionLoss_low (g : Gn8Ix) (s : State) (hmerges : ringMerges (g.val / 4) s = true)
    (hdir : (gn8Of g s).dirh = false) (hdirl : (gn8Of g s).dirl = true) (hrun : 16 ≤ (gn8Of g s).onlyH) :
    exec (.directionLoss g) s = .next (losing g { gn8Of g s with dirl := false } s) := by
  show execDirectionLoss g s = _
  simp [execDirectionLoss, hmerges, hdir, hdirl, hrun, losing]

/-- Both directions regained, the ring is CLOSED again once each of its GN8s delivers both ways (log 22). -/
theorem directionRegain_spec (g : Gn8Ix) (s : State) (hmerges : ringMerges (g.val / 4) s = true) (hboth : 16 ≤ (gn8Of g s).both)
    (hlost : ¬((gn8Of g s).dirh = true ∧ (gn8Of g s).dirl = true)) : ∃ u t, exec (.directionRegain g) s = .next t ∧
    Gn8Becomes g { gn8Of g s with dirh := true, dirl := true } s u ∧
    RingBecomes (g.val / 4) (if (ringOf (g.val / 4) s).state = .open ∧ ∀ i < (ringCfg (g.val / 4) s).ngn8,
        (gn8Of (4 * (g.val / 4) + i) u).dirl = true ∧ (gn8Of (4 * (g.val / 4) + i) u).dirh = true
      then { ringOf (g.val / 4) s with state := .closed } else ringOf (g.val / 4) s) u t := by
  have hcond : (ringMerges (g.val / 4) s && 16 ≤ (gn8Of g s).both && !((gn8Of g s).dirh && (gn8Of g s).dirl)) = true := by
    have hone : ((gn8Of g s).dirh && (gn8Of g s).dirl) = false := by rwa [← Bool.not_eq_true, Bool.and_eq_true]
    simp [hmerges, hboth, hone]
  refine ⟨setGn8 g { gn8Of g s with dirh := true, dirl := true } s, ?_⟩
  have hg := gn8Becomes_setGn8 g { gn8Of g s with dirh := true, dirl := true } s
  generalize hu : setGn8 g { gn8Of g s with dirh := true, dirl := true } s = u at hg ⊢
  have hring : ringOf (g.val / 4) u = ringOf (g.val / 4) s := by rw [← hu]; rfl
  have hcfg : ringCfg (g.val / 4) u = ringCfg (g.val / 4) s := by rw [← hu]; rfl
  have hall : ((ringOf (g.val / 4) u).state == .open && (List.range (ringCfg (g.val / 4) u).ngn8).all fun i =>
        (gn8Of (4 * (g.val / 4) + i) u).dirl && (gn8Of (4 * (g.val / 4) + i) u).dirh) = true ↔
      (ringOf (g.val / 4) s).state = .open ∧ ∀ i < (ringCfg (g.val / 4) s).ngn8,
        (gn8Of (4 * (g.val / 4) + i) u).dirl = true ∧ (gn8Of (4 * (g.val / 4) + i) u).dirh = true := by
    rw [hring, hcfg]
    simp
  have hexec : exec (.directionRegain g) s = .next (if (ringOf (g.val / 4) s).state = .open ∧ ∀ i < (ringCfg (g.val / 4) s).ngn8,
        (gn8Of (4 * (g.val / 4) + i) u).dirl = true ∧ (gn8Of (4 * (g.val / 4) + i) u).dirh = true
      then modRing (g.val / 4) (fun r => { r with state := .closed }) u else u) := by
    show execDirectionRegain g s = _
    rw [execDirectionRegain, if_pos hcond]
    dsimp only
    rw [hu]
    by_cases h : (ringOf (g.val / 4) s).state = .open ∧ ∀ i < (ringCfg (g.val / 4) s).ngn8,
        (gn8Of (4 * (g.val / 4) + i) u).dirl = true ∧ (gn8Of (4 * (g.val / 4) + i) u).dirh = true
    · rw [if_pos (hall.2 h), if_pos h]
    · rw [if_neg (mt hall.1 h), if_neg h]
  refine ⟨_, hexec, hg, ?_⟩
  split
  · rw [← hring]
    exact ringBecomes_modRing (g.val / 4) (fun r => { r with state := .closed }) u
  · rw [← hring]
    exact ringBecomes_self _ u

/-! #### Time-out and digest (R69, R74) -/

theorem gn8OutTimeout_spec (g : Gn8Ix) (s : State)
    (hup : (ringOf (g.val / 4) s).state = .closed ∨ (ringOf (g.val / 4) s).state = .open)
    (hslot : g.val % 4 < (ringCfg (g.val / 4) s).ngn8) (hout : (gn8Of g s).out = false)
    (hlate : 64 ≤ (s.bell.landNo - (gn8Of g s).lastValidLand).toNat) :
    ∃ t, exec (.gn8OutTimeout g) s = .next t ∧ Gn8Becomes g { gn8Of g s with out := true, held := [] } s t := by
  refine ⟨takeOut g s, ?_, gn8Becomes_modGn8 g _ s⟩
  have hlate' : 64 ≤ elapsedLand s.bell.landNo (gn8Of g s).lastValidLand := hlate
  show execGn8OutTimeout g s = _
  simp [execGn8OutTimeout, hup, hslot, hout, hlate']

/-- The READ of a set-up digest as it is kept (R63, R69). -/
def digestRead (g : Nat) (s : State) : RCmd :=
  keptCmd true (g / 4) (nearPort (g / 4) (g % 4) s) (g % 4) 2 (Config.gn8Addr 2).toNat 0 s

theorem commandSent_sendDigestRead (g : Nat) (s : State) :
    CommandSent (g / 4) (nearPort (g / 4) (g % 4) s) (digestRead g s) s (sendDigestRead (g / 4) (g % 4) s) :=
  commandSent_sendCommandAs true (g / 4) _ (g % 4) 2 _ 0 s

theorem execDigestCheck_setting (g : Gn8Ix) (w : Word) (s : State) (hslot : g.val % 4 < (ringCfg (g.val / 4) s).ngn8)
    (hset : 6 ≤ (ringOf (g.val / 4) s).step ∧ (ringOf (g.val / 4) s).step ≤ 8 ∧ s.dev.mode = .prove) :
    exec (.digestCheck g w) s =
      .next (sendDigestRead (g.val / 4) (g.val % 4) (modGn8 g (fun x => { x with digest := some (x.digest.getD w) }) s)) := by
  show execDigestCheck g w s = _
  simp [execDigestCheck, hslot, hset]

theorem execDigestCheck_serving (g : Gn8Ix) (w : Word) (s : State) (hslot : g.val % 4 < (ringCfg (g.val / 4) s).ngn8)
    (hset : ¬(6 ≤ (ringOf (g.val / 4) s).step ∧ (ringOf (g.val / 4) s).step ≤ 8 ∧ s.dev.mode = .prove))
    (hboot : s.dev.mode ≠ .boot) (hup : (ringOf (g.val / 4) s).state = .closed ∨ (ringOf (g.val / 4) s).state = .open)
    (hland : s.bell.landNo.toNat % 256 = 0) :
    exec (.digestCheck g w) s = .next (if (gn8Of g s).digest.any (· != w)
      then takeOut g (sendDigestRead (g.val / 4) (g.val % 4) s) else sendDigestRead (g.val / 4) (g.val % 4) s) := by
  have hset' : (6 ≤ (ringOf (g.val / 4) s).step && (ringOf (g.val / 4) s).step ≤ 8 && s.dev.mode == .prove) = false := by
    rw [← Bool.not_eq_true]
    simpa [and_assoc] using hset
  show execDigestCheck g w s = _
  rw [execDigestCheck]
  simp [hslot, hset', hup, hland, inService, hboot]

theorem gn8s_sendDigestRead (k slot : Nat) (s : State) : (sendDigestRead k slot s).gn8s = s.gn8s := by
  simp [sendDigestRead_keeps]

/-- Settles O46: each row by what it leaves, the two that bring the merge up to now by the one instant that is due. -/
theorem mergeEvents : Obligations.MergeEvents := by
  unfold Obligations.MergeEvents
  intro g s x k r up age lone
  refine ⟨?_, ?_, fun t => pastDeadline_iff t s.bell.time, fun hmerges => ⟨?_, ?_, ?_⟩, fun hslot => ⟨?_, ?_⟩⟩
  · rintro t hcom hnext ⟨hheld, hrecent⟩ hchange hdue hlater
    have hstep := stepNext_same t x hchange
    obtain ⟨t', hexec, hgn8, hbubble⟩ := instantMissing_loneDue g t (nextMultiple (gridOf x) t) s hcom
      { next := hnext, held := hheld, recent := hrecent, due := hdue, follows := by rw [hstep], later := hlater }
    refine ⟨t', hexec, by rw [hgn8, hstep]; rfl, fun n ch hheads hnone => ?_, fun n ch b hheads hsome hcount => ?_⟩
    · have hgrown : grown t (missCause g t s) s.bell.tickTime (headOf n s) =
          { first := t, count := 1, cause := missCause g t s, contIn := laterMod 48 s.bell.tickTime t || (headOf n s).cont } := by
        rw [grown, hnone]
      rw [hbubble n ch hheads (by rw [hgrown]; exact Nat.one_lt_ofNat), hgrown]
    · have hgrown : grown t (missCause g t s) s.bell.tickTime (headOf n s) =
          { b with count := b.count + 1, cause := max b.cause (missCause g t s) } := by rw [grown, hsome]
      rw [hbubble n ch hheads (by rw [hgrown]; dsimp only; omega), hgrown]
  · rintro t d hnext hchange ⟨hheld, hrecent⟩ hdue hlater
    exact decimationGridChange_loneDue g t d s hnext hchange hheld hrecent hdue hlater
  · intro hdir hrun
    obtain ⟨u, v, hu, hv, hraise⟩ := losing_spec g { x with dirh := false } s
    exact ⟨u, v, _, execDirectionLoss_high g s hmerges hdir hrun, hu, hv, hraise⟩
  · intro hdir hdirl hrun
    obtain ⟨u, v, hu, hv, hraise⟩ := losing_spec g { x with dirl := false } s
    exact ⟨u, v, _, execDirectionLoss_low g s hmerges hdir hdirl hrun, hu, hv, hraise⟩
  · intro hboth hlost
    obtain ⟨u, t, hexec, hu, hring⟩ := directionRegain_spec g s hmerges hboth hlost
    refine ⟨u, t, hexec, hu, ?_⟩
    convert hring
  · intro hup hout hlate
    exact gn8OutTimeout_spec g s hup hslot hout hlate
  · intro w port read setting
    have hport : nearPort k (g.val % 4) s = port := nearPort_eq k _ s (Nat.mod_lt _ (by decide))
    refine ⟨fun hset => ?_, fun hset hboot hup hland => ?_⟩
    · refine ⟨_, _, execDigestCheck_setting g w s hslot hset, gn8Becomes_modGn8 g (fun y => { y with digest := some (y.digest.getD w) }) s, ?_⟩
      have hsent := commandSent_sendDigestRead g (modGn8 g (fun y => { y with digest := some (y.digest.getD w) }) s)
      rw [digestRead, keptCmd, show nearPort (g.val / 4) (g.val % 4) (modGn8 g _ s) = port from hport] at hsent
      exact hsent
    · have hsent := commandSent_sendDigestRead g s
      rw [digestRead, keptCmd, hport] at hsent
      have hexec := execDigestCheck_serving g w s hslot hset hboot hup hland
      refine ⟨_, _, hexec, hsent, fun hsame => ?_, fun d hd hne => ?_⟩
      · have hany : (gn8Of g s).digest.any (· != w) = false := by
          rcases hsame with h | h <;> simp [show (gn8Of g s).digest = _ from h]
        rw [hany, if_neg nofun]
      · have hany : (gn8Of g s).digest.any (· != w) = true := by
          simpa [show (gn8Of g s).digest = some d from hd] using hne.symm
        rw [hany, if_pos rfl, show x = gn8Of g (sendDigestRead k (g.val % 4) s) from
          (gn8Of_congr (gn8s_sendDigestRead k _ s) g).symm]
        exact gn8Becomes_modGn8 g (fun y => { y with out := true, held := [] }) _

end Sys2Proof.Machine

namespace Sys2Proof.Machine

/-! ### The line code and frames received (R58 to R60) -/

/-- The group of a data octet decodes to that octet, with either disparity ahead of it. -/
theorem decodeGroup_dataGroup : ∀ (rd : Bool) (b : Byte), decodeGroup rd (dataGroup rd b) = .data b := by decide +kernel

theorem decodeGroup_ctlGroup : ∀ rd : Bool, ∀ b ∈ [sofOctet, eofOctet], decodeGroup rd (ctlGroup rd b) = .ctl b := by decide

theorem sofRd_ctlGroup : ∀ rd : Bool, sofRd (ctlGroup rd sofOctet) = some rd := by decide

theorem decodeGroups_dataGroups (rd : Bool) (f : List Byte) (l : List (BitVec 10)) :
    decodeGroups rd ((dataGroups rd f).1 ++ l) =
      (f.map .data ++ (decodeGroups (dataGroups rd f).2 l).1, (decodeGroups (dataGroups rd f).2 l).2) := by
  induction f generalizing rd with
  | nil => rfl
  | cons b f ih =>
    rw [dataGroups]
    dsimp only
    rw [List.cons_append, decodeGroups, ih, decodeGroup_dataGroup]
    rfl

/-- A frame decodes to its octets between SOF and EOF. -/
theorem decodeGroups_frameGroups (rd : Bool) (f : List Byte) : decodeGroups rd (frameGroups rd f).1 =
    ([.ctl sofOctet] ++ f.map .data ++ [.ctl eofOctet], (frameGroups rd f).2) := by
  rw [frameGroups]
  dsimp only
  rw [List.cons_append, decodeGroups, decodeGroups_dataGroups, decodeGroup_ctlGroup rd sofOctet (by decide), decodeGroups,
    decodeGroup_ctlGroup _ eofOctet (by decide)]
  rfl

/-- A frame begins with its SOF and ends with its EOF, and is decoded with the disparity held, or else the one its SOF shows. -/
theorem lineFrame_frameGroups (r : Option Bool) (rd : Bool) (f : List Byte) (h : r = none ∨ r = some rd) :
    lineFrame r (frameGroups rd f).1 = some ([.ctl sofOctet] ++ f.map .data ++ [.ctl eofOctet], (frameGroups rd f).2) := by
  have hrd : r.getD rd = rd := by rcases h with rfl | rfl <;> rfl
  have hhead : (frameGroups rd f).1.head?.bind sofRd = some rd := sofRd_ctlGroup rd
  have hlast : (frameGroups rd f).1.getLast? = some (ctlGroup (dataGroups (rdAfter rd (ctlGroup rd sofOctet)) f).2 eofOctet) := by
    rw [frameGroups]
    exact List.getLast?_concat
  have hlen : 2 ≤ (frameGroups rd f).1.length := by simp [frameGroups]
  have heof : ∀ b : Bool, (ctlGroup b eofOctet == ctlGroup false eofOctet || ctlGroup b eofOctet == ctlGroup true eofOctet) = true := by
    decide
  rw [lineFrame, hhead, hlast]
  dsimp only
  rw [if_pos (by rw [heof, decide_eq_true hlen]; rfl), hrd, decodeGroups_frameGroups]

theorem violationGaps_eq_nil (n : Nat) (l : List LineChar) : violationGaps n l = [] ↔ l.any violates = false := by
  induction l generalizing n with
  | nil => simp [violationGaps]
  | cons c l ih => cases hc : violates c <;> simp [violationGaps, hc, ih]

theorem length_violationGaps (n : Nat) (l : List LineChar) : (violationGaps n l).length = (l.filter violates).length := by
  induction l generalizing n with
  | nil => rfl
  | cons c l ih => cases hc : violates c <;> simp [violationGaps, hc, ih]

theorem frameOctets_data (f : List Byte) : frameOctets (f.map .data) = some f := by
  induction f with
  | nil => rfl
  | cons b f ih => rw [List.map_cons, frameOctets, ih]; rfl

/-- A frame with a control character inside it has no octets to check. -/
theorem frameOctets_ctl (l : List LineChar) (b : Byte) (h : .ctl b ∈ l) : frameOctets l = none := by
  induction l with
  | nil => cases h
  | cons c l ih =>
    cases c with
    | data x => rw [frameOctets, ih (by simpa using h)]; rfl
    | ctl x => rfl
    | invalid => rfl

/-- The octets of a frame are checked: its length, its type, its CRC, and the room in the FIFO (R19, R60, R80). -/
def takeOctets (p : Nat) (f : List Byte) (s : State) : State :=
  if f.length < 8 then discardFrame p 9 s
  else if frameLen (frameType f) == 0 then (if frameCrcOk f then discardReserved p s else discardFrame p 9 s)
  else if f.length != frameLen (frameType f) then discardFrame p 9 s
  else if !frameCrcOk f then discardFrame p 0 s
  else if 32 ≤ (portOf p s).rx.length then overflowFrame p f s
  else modPort p (fun r => { r with rx := r.rx ++ [f] }) s

theorem receiveChars_octets (p : Nat) (chars : List LineChar) (gap : Nat) (f : List Byte) (s : State)
    (hclean : chars.any violates = false) (hoctets : frameOctets (chars.drop 1).dropLast = some f) :
    receiveChars p chars gap s = takeOctets p f s := by
  rw [receiveChars, (violationGaps_eq_nil gap chars).2 hclean, hoctets]
  rfl

/-- The port has held the disparity behind the frame. -/
def heldRd (d : Bool) (p : Nat) (s : State) : State := setPort p { portOf p s with rxRd := some d } s

theorem receiveFrame_frameGroups (p : Nat) (rd : Bool) (f : List Byte) (gap : Nat) (s : State)
    (h : (portOf p s).rxRd = none ∨ (portOf p s).rxRd = some rd) :
    receiveFrame p (frameGroups rd f).1 gap s = takeOctets p f (heldRd (frameGroups rd f).2 p s) := by
  rw [receiveFrame, lineFrame_frameGroups _ rd f h]
  refine receiveChars_octets p _ gap f _ ?_ ?_
  · have hdata : f.any (violates ∘ LineChar.data) = false := List.any_eq_false.2 fun _ _ => Bool.false_ne_true
    rw [List.any_append, List.any_append, List.any_map, hdata]
    rfl
  · rw [List.append_assoc, List.singleton_append, List.drop_succ_cons, List.drop_zero, List.dropLast_concat, frameOctets_data]

theorem execFrameReceive_up (p : PortIx) (groups : List (BitVec 10)) (gap : Nat) (s : State) (huse : portInUse p s = true)
    (hup : (portOf p s).link = .up) : exec (.frameReceive p groups gap) s = .next (receiveFrame p groups gap s) := by
  show execFrameReceive p groups gap s = _
  rw [execFrameReceive, huse, hup]
  rfl

theorem satInc_eq (m n : Nat) : satInc m n = min m (n + 1) := by
  unfold satInc
  split <;> omega

/-! #### The octets of a frame -/

theorem frameLen_zero_or (ty : Nat) : frameLen ty = 0 ∨ 16 ≤ frameLen ty := by
  unfold frameLen
  split <;> simp

theorem frameCrcOk_iff (f : List Byte) :
    frameCrcOk f = true ↔ (crc32c (f.take (f.length - 4))).toNat = fieldLE f (f.length - 4) 4 := by
  rw [frameCrcOk, beq_iff_eq]

/-- The octet of a frame at a place (R61). -/
theorem frameByte_eq (f : List Byte) (i : Nat) : frameByte f i = (f.getD i 0).toNat := by
  rw [frameByte, fieldLE, slice]
  rcases h : f.drop i with _ | ⟨b, l⟩
  · have hi : f.length ≤ i := List.drop_eq_nil_iff.1 h
    simp [leNat, List.getElem?_eq_none hi]
  · have hb : f[i]? = some b := by rw [← List.head?_drop, h]; rfl
    simp [leNat, hb]

/-- The slot of a frame's source (R61). -/
theorem frameSlot_eq (f : List Byte) : bitsNat (frameByte f 1) 0 3 = (f.getD 1 0).toNat % 8 := by
  rw [frameByte_eq, bitsNat, Nat.pow_zero, Nat.div_one]
  rfl

/-- A frame whose length its type gives. -/
theorem takeOctets_known (p : Nat) (f : List Byte) (s : State)
    (hknown : frameLen (frameType f) ≠ 0 ∧ f.length = frameLen (frameType f)) :
    takeOctets p f s = if frameCrcOk f then
        (if 32 ≤ (portOf p s).rx.length then overflowFrame p f s else modPort p (fun r => { r with rx := r.rx ++ [f] }) s)
      else discardFrame p 0 s := by
  obtain ⟨hty, hlen⟩ := hknown
  have h16 := (frameLen_zero_or (frameType f)).resolve_left hty
  rw [takeOctets, if_neg (by omega), if_neg (by simpa using hty), if_neg (by simpa using hlen)]
  cases frameCrcOk f <;> rfl

theorem takeOctets_reserved (p : Nat) (f : List Byte) (s : State) (hty : frameLen (frameType f) = 0) (hlen : 8 ≤ f.length)
    (hcrc : frameCrcOk f = true) : takeOctets p f s = discardReserved p s := by
  rw [takeOctets, if_neg (by omega), if_pos (by simpa using hty), if_pos hcrc]

/-- Any other frame is discarded with FRAME. -/
theorem takeOctets_unknown (p : Nat) (f : List Byte) (s : State)
    (hknown : ¬(frameLen (frameType f) ≠ 0 ∧ f.length = frameLen (frameType f)))
    (hres : ¬(frameLen (frameType f) = 0 ∧ 8 ≤ f.length ∧ frameCrcOk f = true)) : takeOctets p f s = discardFrame p 9 s := by
  rw [takeOctets]
  by_cases hlen : f.length < 8
  · rw [if_pos hlen]
  · rw [if_neg hlen]
    by_cases hty : frameLen (frameType f) = 0
    · rw [if_pos (by simpa using hty), if_neg fun hcrc => hres ⟨hty, by omega, hcrc⟩]
    · rw [if_neg (by simpa using hty), if_pos (by simpa using fun h => hknown ⟨hty, h⟩)]

/-- A discarded frame is counted and noted for every GN8 of its ring, and its bit sets (R60, R76; log 95). -/
theorem discardFrame_spec (p bit k : Nat) (s : State) (hbit : bit < 32) (hring : portRing p s = some k) :
    ∃ u, PortBecomes p { portOf p s with crc := min 0xFFFF ((portOf p s).crc + 1) } s u ∧
      Raises [(clsRing, 0, bit)] (forEach (List.range (ringCfg k s).ngn8) (fun j => noteDiscard (4 * k + j)) u)
        (discardFrame p bit s) := by
  refine ⟨modPort p (fun r => { r with crc := satInc 0xFFFF r.crc }) s, ?_, ?_⟩
  · rw [← satInc_eq]
    exact portBecomes_modPort p _ s
  · have hring' : portRing p (modPort p (fun r => { r with crc := satInc 0xFFFF r.crc }) s) = some k := hring
    rw [discardFrame, hring']
    exact raises_sticky clsRing 0 bit (by decide) hbit _

theorem discardReserved_spec (p : Nat) (s : State) :
    ∃ u, PortBecomes p { portOf p s with crc := min 0xFFFF ((portOf p s).crc + 1) } s u ∧
      Raises [(clsRing, 0, 9)] u (discardReserved p s) := by
  refine ⟨_, ?_, raises_sticky clsRing 0 9 (by decide) (by decide) _⟩
  rw [← satInc_eq]
  exact portBecomes_modPort p _ s

theorem gn8Becomes_noteDiscard (i : Nat) (s : State) :
    let m := if commits s = true then mergeGn8 i s else s
    Gn8Becomes i { gn8Of i m with lastDiscard := some s.bell.time } m (noteDiscard i s) :=
  gn8Becomes_modGn8 i _ _

/-- A sound frame that finds the FIFO full sets OVERFLOW; a SAMPLE counts as lost for its GN8 (R19, R76, R80). -/
theorem overflowFrame_eq (p k : Nat) (f : List Byte) (s : State) (hring : portRing p s = some k) :
    overflowFrame p f s = sticky clsRing 0 10 (if frameType f = 1 ∧ (f.getD 1 0).toNat % 8 < (ringCfg k s).ngn8
      then noteDiscard (4 * k + (f.getD 1 0).toNat % 8) s else s) := by
  rw [overflowFrame, hring, frameSlot_eq]
  simp only [Bool.and_eq_true, beq_iff_eq, decide_eq_true_eq]

theorem overflowFrame_ours (p k : Nat) (f : List Byte) (s : State) (hring : portRing p s = some k)
    (hours : frameType f = 1 ∧ (f.getD 1 0).toNat % 8 < (ringCfg k s).ngn8) :
    Raises [(clsRing, 0, 10)] (noteDiscard (4 * k + (f.getD 1 0).toNat % 8) s) (overflowFrame p f s) := by
  rw [overflowFrame_eq p k f s hring, if_pos hours]
  exact raises_sticky clsRing 0 10 (by decide) (by decide) _

theorem overflowFrame_other (p k : Nat) (f : List Byte) (s : State) (hring : portRing p s = some k)
    (hother : ¬(frameType f = 1 ∧ (f.getD 1 0).toNat % 8 < (ringCfg k s).ngn8)) :
    Raises [(clsRing, 0, 10)] s (overflowFrame p f s) := by
  rw [overflowFrame_eq p k f s hring, if_neg hother]
  exact raises_sticky clsRing 0 10 (by decide) (by decide) _

end Sys2Proof.Machine

namespace Sys2Proof.Machine

/-! ### Links and code violations (R59, R68, R79, R80) -/

/-- What sets a bit off may be moved past a change of a port. -/
theorem raises_setPort {l : List FltBit} {u t : State} (h : Raises l u t) (p : Nat) (y : RPort) :
    Raises l (setPort p y u) (setPort p y t) := by
  have he : setPort p y t = { setPort p y u with flt := t.flt, ha := t.ha, hb := t.hb } := by
    conv_lhs => rw [h.1]
    rfl
  rw [he]
  exact raises_congr h rfl rfl rfl rfl rfl fun _ => rfl

theorem ports_of_raises {l : List FltBit} {u t : State} (h : Raises l u t) : t.ports = u.ports := by rw [h.1]

/-- A link that is taken down. -/
def downPort (los : Bool) (x : RPort) : RPort := { x with link := .down, los := los, gaps := [], rxRd := none }

/-- LINK_DOWN sets where the link was UP and shows (R59, R80). -/
def downBits (p : Nat) (s : State) : List FltBit :=
  if (portOf p s).link = .up ∧ linkShows p s = true then [(clsRing, 0, 2)] else []

theorem linkDownAt_spec (p : Nat) (los : Bool) (s : State) :
    Raises (downBits p s) (setPort p (downPort los (portOf p s)) s) (linkDownAt p los s) := by
  have h := raises_stickyIf ((portOf p s).link == .up && linkShows p s) clsRing 0 2 (by decide) (by decide)
    (setPort p (downPort los (portOf p s)) s)
  simp only [Bool.and_eq_true, beq_iff_eq] at h
  exact h

/-- A port of a ring in use shows in every mode but LOCKOUT. -/
theorem downBits_inUse (p k : Nat) (s : State) (huse : portInUse p s = true) (hring : portRing p s = some k) :
    downBits p s = if (portOf p s).link = .up ∧ s.dev.mode ≠ .lockout then [(clsRing, 0, 2)] else [] := by
  have hserv : inService s = true := by
    simp only [portInUse, Bool.and_eq_true] at huse
    exact huse.1.1.1.1
  have hshows : linkShows p s = true ↔ s.dev.mode ≠ .lockout := by simp [linkShows, hserv, hring]
  rw [downBits]
  simp only [hshows]

/-- A port behind a code violation n characters after the one before. -/
def violatedPort (n : Nat) (x : RPort) : RPort :=
  { x with cv := min 0xFFFF (x.cv + 1), gaps := ((if x.gaps = [] then 256 else n) :: x.gaps).take 3 }

/-- With this violation 4 lie within 256 characters. -/
def tooMany (n : Nat) (x : RPort) : Bool := violationsLimit (violatedPort n x).gaps

theorem tooMany_iff (n : Nat) (x : RPort) :
    tooMany n x = true ↔ (violatedPort n x).gaps.length = 3 ∧ (violatedPort n x).gaps.sum < 256 := by
  have hle : (violatedPort n x).gaps.length ≤ 3 := List.length_take_le ..
  have hsum : ((violatedPort n x).gaps.take 3).foldl (· + ·) 0 = (violatedPort n x).gaps.sum := by
    rw [List.take_of_length_le hle, List.sum_eq_foldl]
  rw [tooMany, violationsLimit, hsum, Bool.and_eq_true, decide_eq_true_eq, decide_eq_true_eq]
  omega

theorem modPort_violated (p n : Nat) (s : State) : modPort p (fun r => { r with
    cv := satInc 0xFFFF r.cv, gaps := ((if r.gaps.isEmpty then 256 else n) :: r.gaps).take 3 }) s =
      setPort p (violatedPort n (portOf p s)) s := by
  rw [modPort, satInc_eq]
  simp only [List.isEmpty_iff]
  rfl

/-- A code violation is counted; the link goes down where there have been too many (R59, R79). -/
theorem codeViolationAt_spec (p n : Nat) (s : State) : ∃ u,
    PortBecomes p (if tooMany n (portOf p s) then downPort (portOf p s).los (violatedPort n (portOf p s))
      else violatedPort n (portOf p s)) s u ∧
    Raises ((clsRing, 0, 1) :: if tooMany n (portOf p s) then downBits p s else []) u (codeViolationAt p n s) := by
  have hcount : PortBecomes p (violatedPort n (portOf p s)) s (setPort p (violatedPort n (portOf p s)) s) :=
    portBecomes_setPort p _ s
  have hraise := raises_sticky clsRing 0 1 (by decide) (by decide) (setPort p (violatedPort n (portOf p s)) s)
  generalize hu : setPort p (violatedPort n (portOf p s)) s = u at hcount hraise
  generalize ht : sticky clsRing 0 1 u = t at hraise
  have hport : portOf p t = violatedPort n (portOf p s) := (portOf_congr (ports_of_raises hraise) p).trans hcount.port
  have he : codeViolationAt p n s = if tooMany n (portOf p s) then linkDownAt p (portOf p s).los t else t := by
    rw [codeViolationAt]
    rw [modPort_violated, hu, ht, hport]
    rfl
  rw [he]
  by_cases hmany : tooMany n (portOf p s) = true
  · simp only [if_pos hmany]
    refine ⟨setPort p (downPort (portOf p s).los (violatedPort n (portOf p s))) u, hcount.trans (portBecomes_setPort p _ u), ?_⟩
    have hdown := linkDownAt_spec p (portOf p s).los t
    have hbits : downBits p t = downBits p s := by
      rw [downBits, downBits, hport, linkShows_congr p (by rw [hraise.1, hcount.1]) (by rw [hraise.1, hcount.1])]
      rfl
    rw [hport, hbits] at hdown
    refine raises_append (l := [(clsRing, 0, 1)]) (fun b hb => ?_) (raises_setPort hraise p _) hdown
    have hb2 : b = (clsRing, 0, 2) := by
      split at hb
      · exact List.mem_singleton.1 hb
      · cases hb
    rw [hb2]
    decide
  · simp only [if_neg hmany]
    exact ⟨u, hcount, hraise⟩

end Sys2Proof.Machine

namespace Sys2Proof.Machine

/-! #### A frame with code violations -/

theorem fltMono_noteDiscard (i : Nat) (s : State) : FltMono s (noteDiscard i s) := by
  unfold noteDiscard
  split
  · exact (tickOn_mergeGn8 i s).flt.trans (.of_bits rfl)
  · exact .of_bits rfl

theorem fltMono_linkDownAt (p : Nat) (los : Bool) (s : State) : FltMono s (linkDownAt p los s) :=
  FltMono.trans (u := setPort p (downPort los (portOf p s)) s) (.of_bits rfl) (fltMono_stickyIf _ clsRing 0 2 _)

theorem fltMono_codeViolationAt (p n : Nat) (s : State) : FltMono s (codeViolationAt p n s) := by
  have hsticky : FltMono s (sticky clsRing 0 1 (setPort p (violatedPort n (portOf p s)) s)) :=
    FltMono.trans (u := setPort p (violatedPort n (portOf p s)) s) (.of_bits rfl) (fltMono_sticky clsRing 0 1 _)
  rw [codeViolationAt, modPort_violated]
  split
  · exact hsticky.trans (fltMono_linkDownAt p _ _)
  · exact hsticky

theorem fltMono_frameViolation (p n : Nat) (s : State) : FltMono s (frameViolation p n s) := by
  unfold frameViolation
  split
  · exact .rfl
  · exact fltMono_codeViolationAt p n s

theorem fltMono_discardFrame (p bit : Nat) (s : State) : FltMono s (discardFrame p bit s) := by
  refine FltMono.trans ?_ (fltMono_sticky clsRing 0 bit _)
  refine FltMono.trans (u := modPort p (fun r => { r with crc := satInc 0xFFFF r.crc }) s) (.of_bits rfl) ?_
  split
  · exact fltMono_forEach _ _ (fun t u => fltMono_noteDiscard _ u) _
  · exact .rfl

/-- A code violation counts, leaves what the port has received, and CV shows (R59, R79). -/
theorem codeViolationAt_port (p n : Nat) (s : State) :
    (portOf p (codeViolationAt p n s)).cv = min 0xFFFF ((portOf p s).cv + 1) ∧
    (portOf p (codeViolationAt p n s)).crc = (portOf p s).crc ∧ (portOf p (codeViolationAt p n s)).rx = (portOf p s).rx ∧
    (fltReg clsRing 0 (codeViolationAt p n s)).getLsbD 1 = true := by
  obtain ⟨u, hu, hraise⟩ := codeViolationAt_spec p n s
  rw [portOf_congr (ports_of_raises hraise), hu.port]
  refine ⟨?_, ?_, ?_, ?_⟩
  · split <;> rfl
  · split <;> rfl
  · split <;> rfl
  · obtain ⟨-, -, hbits, -⟩ := hraise
    rw [hbits clsRing 0 (by decide) 1, List.contains_cons, beq_self_eq_true, Bool.true_or, Bool.or_true]

/-- The code violations of a frame leave the frames received and the count of those discarded. -/
theorem frameViolations_keep (p : Nat) (l : List Nat) (s : State) :
    (portOf p (forEach l (frameViolation p) s)).crc = (portOf p s).crc ∧
    (portOf p (forEach l (frameViolation p) s)).rx = (portOf p s).rx := by
  refine forEach_ind (fun u => (portOf p u).crc = (portOf p s).crc ∧ (portOf p u).rx = (portOf p s).rx) l _ s ⟨rfl, rfl⟩ ?_
  rintro n - u ⟨hcrc, hrx⟩
  unfold frameViolation
  split
  · exact ⟨hcrc, hrx⟩
  · obtain ⟨-, hcrc', hrx', -⟩ := codeViolationAt_port p n u
    exact ⟨hcrc'.trans hcrc, hrx'.trans hrx⟩

theorem forEach_cons {β : Type} (f : β → State → State) (b : β) (l : List β) (s : State) :
    forEach (b :: l) f s = forEach l f (f b s) := rfl

theorem portOf_discardFrame (p bit k : Nat) (s : State) (hbit : bit < 32) (hring : portRing p s = some k) :
    portOf p (discardFrame p bit s) = { portOf p s with crc := min 0xFFFF ((portOf p s).crc + 1) } := by
  obtain ⟨u, hu, hraise⟩ := discardFrame_spec p bit k s hbit hring
  rw [portOf_congr (ports_of_raises hraise), portOf_congr (forEach_ports _ _ _ fun j v => by simp [noteDiscard_keeps]), hu.port]

/-- A frame with code violations on a link that is up: it is discarded, and they count until the link goes down (R59, R60). -/
theorem receiveChars_violated (p k : Nat) (chars : List LineChar) (gap : Nat) (s : State) (hring : portRing p s = some k)
    (hup : (portOf p s).link = .up) (hviol : chars.any violates = true) :
    let t := receiveChars p chars gap s
    (portOf p t).crc = min 0xFFFF ((portOf p s).crc + 1) ∧ (portOf p t).rx = (portOf p s).rx ∧
      ((chars.filter violates).length = 1 → (portOf p t).cv = min 0xFFFF ((portOf p s).cv + 1)) ∧
      (fltReg clsRing 0 t).getLsbD 1 = true ∧ (fltReg clsRing 0 t).getLsbD 0 = true := by
  have hlen := length_violationGaps gap chars
  rcases hgaps : violationGaps gap chars with _ | ⟨n, l⟩
  · rw [violationGaps_eq_nil, hviol] at hgaps
    cases hgaps
  have hfirst : frameViolation p n s = codeViolationAt p n s := by
    rw [frameViolation, hup]
    rfl
  obtain ⟨hcv, hcrc, hrx, hbit⟩ := codeViolationAt_port p n s
  obtain ⟨hcrcs, hrxs⟩ := frameViolations_keep p (n :: l) s
  have hbits : (fltReg clsRing 0 (forEach (n :: l) (frameViolation p) s)).getLsbD 1 = true := by
    rw [forEach_cons, hfirst]
    exact fltMono_forEach l _ (fun m u => fltMono_frameViolation p m u) _ _ _ _ hbit
  have hring' : portRing p (forEach (n :: l) (frameViolation p) s) = some k := by
    have himg : (forEach (n :: l) (frameViolation p) s).img = s.img :=
      forEach_img _ _ _ fun m u => by simp [frameViolation_keeps]
    rwa [portRing_congr himg]
  have he : receiveChars p chars gap s = discardFrame p 0 (forEach (n :: l) (frameViolation p) s) := by
    rw [receiveChars, hgaps]
  dsimp only
  rw [he, portOf_discardFrame p 0 k _ (by decide) hring']
  refine ⟨by rw [hcrcs], hrxs, fun hone => ?_, fltMono_discardFrame p 0 _ _ _ _ hbits, sticky_bit clsRing 0 0 (by decide) _⟩
  have hl : l = [] := by
    rw [hgaps, hone] at hlen
    simpa using hlen
  rw [hl, forEach_cons, hfirst]
  exact hcv

/-- A frame with a control character inside it is discarded with FRAME (log 97). -/
theorem receiveChars_ctl (p : Nat) (chars : List LineChar) (gap : Nat) (b : Byte) (s : State)
    (hclean : chars.any violates = false) (hctl : .ctl b ∈ (chars.drop 1).dropLast) :
    receiveChars p chars gap s = discardFrame p 9 s := by
  rw [receiveChars, (violationGaps_eq_nil gap chars).2 hclean, frameOctets_ctl _ b hctl]

end Sys2Proof.Machine

namespace Sys2Proof.Machine

/-! #### Alignment and loss of a link -/

theorem commaAlignment_spec (p : PortIx) (s : State) (huse : portInUse p s = true) (hdown : (portOf p s).link = .down) :
    ∃ t, exec (.commaAlignment p) s = .next t ∧
      PortBecomes p { portOf p s with link := .align, los := false, gaps := [], rxRd := none } s t := by
  have hvlnk : s.pins.vlnk = true := by
    simp only [portInUse, Bool.and_eq_true] at huse
    exact huse.1.2
  refine ⟨_, ?_, portBecomes_setPort p _ s⟩
  show execCommaAlignment p s = _
  rw [execCommaAlignment, huse, hvlnk, hdown]
  rfl

theorem execLinkDown_eq (p : PortIx) (why : LinkLoss) (s : State) (hlink : (portOf p s).link ≠ .down) :
    exec (.linkDown p why) s = .next (linkDownAt p (why == .noSignal) s) := by
  show execLinkDown p why s = _
  rw [execLinkDown, if_pos (by simpa using hlink)]

theorem noSignal_spec (p : PortIx) (s : State) (huse : portInUse p s = true) (hdown : (portOf p s).link = .down) :
    ∃ t, exec (.linkDown p .noSignal) s = .next t ∧ PortBecomes p { portOf p s with los := true } s t := by
  refine ⟨_, ?_, portBecomes_setPort p _ s⟩
  show execLinkDown p .noSignal s = _
  rw [execLinkDown, hdown, huse]
  rfl

theorem execCodeViolation_eq (p : PortIx) (n : Nat) (s : State) (huse : portInUse p s = true) (hlink : (portOf p s).link ≠ .down) :
    exec (.codeViolation p n) s = .next (codeViolationAt p n s) := by
  show execCodeViolation p n s = _
  rw [execCodeViolation, if_pos (by simpa [huse] using hlink)]

/-! #### A link comes up (R59, R68) -/

/-- Step 2 of a ring's discovery begins: its lists are empty and no command is kept (R68). -/
def discovering (now : Bell) (r : Ring) : Ring :=
  { r with state := .discovering, step := 2, stepAt := now, cmds := [], fromL := [], fromH := [], closedL := none, closedH := none
           aligned := [] }

/-- The ring begins step 2. -/
def startDiscovery (k : Nat) (u : State) : State :=
  modRing k (fun r => { r with state := .discovering, fromL := [], fromH := [], closedL := none, closedH := none, aligned := [] })
    (toStep k 2 u)

theorem startDiscovery_spec (k : Nat) (u : State) :
    RingBecomes k (discovering u.bell.time (ringOf k u)) u (startDiscovery k u) := by
  have hstep : RingBecomes k { ringOf k u with step := 2, stepAt := u.bell.time, cmds := [] } u (toStep k 2 u) :=
    ringBecomes_modRing k _ u
  have h := ringBecomes_modRing k (fun r => { r with
    state := .discovering, fromL := [], fromH := [], closedL := none, closedH := none, aligned := [] }) (toStep k 2 u)
  rw [hstep.ring] at h
  exact hstep.trans h

/-- The first DISCOVER of a ring goes out at P(k) (R68). -/
def firstDiscover (k : Nat) (u : State) : State := sendCommand k k 0xFF 3 0 0 (startDiscovery k u)

/-- What the last port of a ring to come up starts. -/
theorem firstDiscover_spec (k : Nat) (u : State) :
    firstDiscover k u = { u with rings := (firstDiscover k u).rings, ports := (firstDiscover k u).ports } ∧
    (∀ j, j ≠ k → ringOf j (firstDiscover k u) = ringOf j u) ∧
    ringOf k (firstDiscover k u) = { discovering u.bell.time (ringOf k u) with
      tag := ((ringOf k u).tag + 1) % 65536
      cmds := [{ target := 0xFF, op := 3, tag := (ringOf k u).tag, addr := 0, data := 0, port := k, sentAt := u.bell.time
                 retried := false, answered := false, digest := false }] } := by
  have hstart := startDiscovery_spec k u
  obtain ⟨heq, hother, hring, -⟩ := commandSent_sendCommandAs false k k 0xFF 3 0 0 (startDiscovery k u)
  refine ⟨heq, fun j hj => ?_, ?_⟩
  · rw [firstDiscover, sendCommand, hother j hj, hstart.2, if_neg hj]
  · rw [firstDiscover, sendCommand, hring, keptCmd, hstart.ring]
    rfl

theorem execLinkUp_eq (p : PortIx) (k : Nat) (s : State) (huse : portInUse p s = true) (hring : portRing p s = some k)
    (halign : (portOf p s).link = .align) :
    exec (.linkUp p) s =
      let u := setPort p { portOf p s with link := .up } s
      .next (if (ringOf k s).step = 1 ∧ s.dev.mode = .prove ∧ ∀ q ∈ ringPorts k s, (portOf q u).link = .up
        then firstDiscover k u else u) := by
  have hvlnk : s.pins.vlnk = true := by
    simp only [portInUse, Bool.and_eq_true] at huse
    exact huse.1.2
  have hring' : portRing p (modPort p (fun r => { r with link := .up }) s) = some k := hring
  show execLinkUp p s = _
  rw [execLinkUp, huse, hvlnk, halign]
  dsimp only
  rw [if_pos (by rfl), hring']
  dsimp only
  have hcond : ((ringOf k (modPort p (fun r => { r with link := .up }) s)).step == 1 &&
      (modPort p (fun r => { r with link := .up }) s).dev.mode == .prove &&
      (ringPorts k (modPort p (fun r => { r with link := .up }) s)).all fun q =>
        (portOf q (modPort p (fun r => { r with link := .up }) s)).link == .up) = true ↔
      (ringOf k s).step = 1 ∧ s.dev.mode = .prove ∧
        ∀ q ∈ ringPorts k s, (portOf q (setPort p { portOf p s with link := .up } s)).link = .up := by
    simp only [Bool.and_eq_true, beq_iff_eq, List.all_eq_true, and_assoc]
    exact Iff.rfl
  by_cases h : (ringOf k s).step = 1 ∧ s.dev.mode = .prove ∧
      ∀ q ∈ ringPorts k s, (portOf q (setPort p { portOf p s with link := .up } s)).link = .up
  · rw [if_pos (hcond.2 h), if_pos h]
    rfl
  · rw [if_neg (mt hcond.1 h), if_neg h]
    rfl

end Sys2Proof.Machine

namespace Sys2Proof.Machine

/-! ### The transmit queue (R64) -/

/-- The queue of a port with a frame in its place (R64; log 90). -/
def queued (cls : Nat) (f : List Byte) (x : RPort) : List (Nat × List Byte) :=
  ((x.txq.filter fun y => decide (y.1 ≤ cls)) ++ [(cls, f)] ++ x.txq.filter fun y => decide (cls < y.1)).take 16

theorem queueFrame_busy (cls : Nat) (f : List Byte) (x : RPort) (h : 0 < x.txLeft) :
    queueFrame cls f x = { x with txq := queued cls f x } := by
  have he : queueFrame cls f x = runLine (queued cls f x) 0 x := rfl
  have hne : queued cls f x ≠ [] := by simp [queued]
  obtain ⟨y, l, hq⟩ := List.exists_cons_of_ne_nil hne
  rw [he, hq, runLine, if_pos h]
  rfl

theorem queueFrame_idle (cls : Nat) (f : List Byte) (x : RPort) (hleft : x.txLeft = 0) (hq : x.txq = []) :
    queueFrame cls f x = { x with tx := (x.tx ++ [(frameGroups x.txRd f).1]).drop (x.tx.length + 1 - 16)
                                  txRd := (frameGroups x.txRd f).2, txLeft := 4 * (f.length + 4) } := by
  have he : queueFrame cls f x = runLine (queued cls f x) 0 x := rfl
  have hone : queued cls f x = [(cls, f)] := by rw [queued, hq]; rfl
  rw [he, hone, runLine, hleft, if_neg (Nat.lt_irrefl 0), runLine, putOnLine, lineTime]
  simp only [Nat.sub_zero, hq]

/-! ### MARKERs (R65) -/

/-- A repetition over the ports whose round changes its own port alone, by what that port holds and the rest of the state. -/
theorem portOf_forEach (f : Nat → State → State) (hports : ∀ p u, f p u = { u with ports := (f p u).ports })
    (hother : ∀ p q u, q ≠ p → portOf q (f p u) = portOf q u)
    (hown : ∀ p (u v : State), v = { u with ports := v.ports } → portOf p v = portOf p u → portOf p (f p v) = portOf p (f p u))
    (l : List Nat) (hl : l.Nodup) (s : State) :
    forEach l f s = { s with ports := (forEach l f s).ports } ∧
      ∀ p, portOf p (forEach l f s) = if p ∈ l then portOf p (f p s) else portOf p s := by
  induction l using List.reverseRecOn with
  | nil => exact ⟨rfl, fun p => by simp [forEach]⟩
  | append_singleton l k ih =>
    obtain ⟨hnodup, -, hnot⟩ := List.nodup_append.1 hl
    have hk : k ∉ l := fun hmem => hnot k hmem k (List.mem_singleton_self k) rfl
    obtain ⟨heq, hport⟩ := ih hnodup
    have e : forEach (l ++ [k]) f s = f k (forEach l f s) := by simp [forEach]
    rw [e]
    refine ⟨by rw [hports]; rw [heq], fun p => ?_⟩
    by_cases hp : p = k
    · subst hp
      rw [hown p s _ heq (by rw [hport, if_neg hk]), if_pos (by simp)]
    · rw [hother k p _ hp, hport]
      simp [hp]

theorem portInUse_congr {u v : State} (h : v = { u with ports := v.ports }) (p : Nat) : portInUse p v = portInUse p u := by
  rw [h]
  rfl

theorem ownFrame_congr {u v : State} (h : v = { u with ports := v.ports }) (p ty : Nat) (payload : List Byte)
    (hport : portOf p v = portOf p u) : ownFrame p ty payload v = ownFrame p ty payload u := by
  unfold ownFrame txDir
  rw [hport, h]
  rfl

/-- What sending a frame leaves of its port depends on that port and on nothing that other ports hold. -/
theorem portOf_sendFrame_congr {u v : State} (h : v = { u with ports := v.ports }) (p ty : Nat) (payload : List Byte)
    (hport : portOf p v = portOf p u) : portOf p (sendFrame p ty payload v) = portOf p (sendFrame p ty payload u) := by
  by_cases hup : (portOf p u).link = .up ∧ (portOf p u).txen = true
  · rw [sendFrame_up p ty payload u hup.1 hup.2, sendFrame_up p ty payload v (by rw [hport, hup.1]) (by rw [hport, hup.2]),
      portOf_setPort, portOf_setPort, if_pos rfl, if_pos rfl, ownFrame_congr h p ty payload hport, hport]
  · rw [sendFrame_off p ty payload u hup, sendFrame_off p ty payload v (by rwa [hport]), hport]

/-- The bell time at which the SOF of a MARKER leaves a port (R65). -/
def markerTime (p : Nat) (s : State) : Bell := s.bell.time + BitVec.ofInt 48 (roundEven (portOf p s).txLeft 25)

/-- The payload of a MARKER that leaves a port (R63, R65). -/
def markerPayload (p : Nat) (s : State) : List Byte := leBytes 6 (markerTime p s).toNat ++ leBytes 2 0

theorem sendMarker_eq (p : Nat) (s : State) : sendMarker p s = sendFrame p tMarker (markerPayload p s) s := rfl

/-- A MARKER frame as it stands on the line. -/
theorem markerFrame_fields (p : Nat) (s : State) :
    let f := ownFrame p tMarker (markerPayload p s) s
    f.length = 16 ∧ frameType f = 2 ∧ (f.drop 4).take 8 = leBytes 6 (markerTime p s).toNat ++ [0, 0] ∧
      (crc32c (f.take 12)).toNat = fieldLE f 12 4 := by
  have hlen : (markerPayload p s).length = 8 := by simp [markerPayload]
  have hcrc := crc_ownFrame p tMarker (markerPayload p s) s
  rw [hlen] at hcrc
  obtain ⟨c, hc⟩ := drop_ownFrame p tMarker (markerPayload p s) s
  exact ⟨by rw [length_ownFrame, hlen], frameType_ownFrame p tMarker _ s (by decide),
    by rw [hc, List.take_left' hlen]; rfl, hcrc⟩

/-- One port's MARKER. -/
def markerRound (p : Nat) (s : State) : State := if portInUse p s then sendMarker p s else s

theorem portOf_markerRound_congr (p : Nat) (u v : State) (h : v = { u with ports := v.ports }) (hport : portOf p v = portOf p u) :
    portOf p (markerRound p v) = portOf p (markerRound p u) := by
  have hpay : markerPayload p v = markerPayload p u := by
    rw [markerPayload, markerPayload, markerTime, markerTime, hport, show v.bell = u.bell by rw [h]]
  rw [markerRound, markerRound, portInUse_congr h, sendMarker_eq, sendMarker_eq, hpay]
  split
  · exact portOf_sendFrame_congr h p _ _ hport
  · exact hport

/-- At each multiple of 1 000 ticks every port in use that drives a link that is up sends its MARKER (R65). -/
theorem markerSend_spec (s : State) (htime : s.bell.time.toNat % 1000 = 0) (hboot : s.dev.mode ≠ .boot) :
    ∃ t, exec .markerSend s = .next t ∧ t = { s with ports := t.ports } ∧ ∀ p : PortIx,
      if portInUse p s = true ∧ (portOf p s).link = .up ∧ (portOf p s).txen = true then
        portOf p t = SentFrame 0 (ownFrame p tMarker (markerPayload p s) s) (portOf p s)
      else portOf p t = portOf p s := by
  have hports : ∀ p u, markerRound p u = { u with ports := (markerRound p u).ports } := by
    intro p u
    unfold markerRound
    split
    · rw [sendMarker_eq, sendFrame_eq]
    · rfl
  have hother : ∀ p q u, q ≠ p → portOf q (markerRound p u) = portOf q u := by
    intro p q u hq
    unfold markerRound
    split
    · rw [sendMarker_eq, portOf_sendFrame_other p q _ _ _ hq]
    · rfl
  obtain ⟨heq, hport⟩ := portOf_forEach markerRound hports hother portOf_markerRound_congr (List.range 32) List.nodup_range s
  refine ⟨forEach (List.range 32) markerRound s, ?_, heq, fun p => ?_⟩
  · show execMarkerSend s = _
    rw [execMarkerSend, if_pos (by simp [htime, inService, hboot])]
    rfl
  · have hp : p.val ∈ List.range 32 := List.mem_range.2 p.isLt
    rw [hport, if_pos hp, markerRound]
    by_cases huse : portInUse p s = true
    · rw [if_pos huse, sendMarker_eq]
      by_cases hup : (portOf p s).link = .up ∧ (portOf p s).txen = true
      · rw [if_pos ⟨huse, hup⟩, sendFrame_up _ _ _ _ hup.1 hup.2, portOf_setPort, if_pos rfl]
        rfl
      · rw [if_neg fun h => hup h.2, sendFrame_off _ _ _ _ hup]
    · rw [if_neg fun h => huse h.1, if_neg huse]

/-! ### Commands unanswered, and limits that expire (R63, R68, R69) -/

theorem retryPort_eq (k : Nat) (c : RCmd) (s : State) : retryPort k c s =
    if c.op = 3 ∨ (ringCfg k s).mode ≠ 1 then c.port else if c.port = k then k + 16 else k := by
  unfold retryPort otherPort
  by_cases hop : c.op = 3 <;> by_cases hmode : (ringCfg k s).mode = 1 <;> simp [hop, hmode]

/-- A command that goes out once more. -/
def retriedCmd (now : Bell) (port tag : Nat) (y : RCmd) : RCmd :=
  if y.tag = tag then { y with retried := true, sentAt := now, port := port } else y

/-- What sending a command again leaves (R63; log 21). -/
theorem resendCommand_spec (k : Nat) (c : RCmd) (s : State) :
    let port := retryPort k c s
    let t := resendCommand k c s
    t = { s with ports := t.ports, rings := t.rings } ∧ (∀ j, j ≠ k → ringOf j t = ringOf j s) ∧
      ringOf k t = { ringOf k s with cmds := (ringOf k s).cmds.map (retriedCmd s.bell.time port c.tag) } ∧
      (∀ q, q ≠ port → portOf q t = portOf q s) ∧
      ((portOf port s).link = .up → (portOf port s).txen = true → ∃ u, portOf port t =
        SentFrame 2 (ownFrame port tCommand (commandPayload c.target c.op c.tag c.addr c.data) u) (portOf port s)) := by
  have hmark : RingBecomes k { ringOf k s with cmds := (ringOf k s).cmds.map (retriedCmd s.bell.time (retryPort k c s) c.tag) } s
      (modRing k (fun r => { r with cmds := r.cmds.map (retriedCmd s.bell.time (retryPort k c s) c.tag) }) s) :=
    ringBecomes_modRing k _ s
  generalize hu : modRing k (fun r => { r with cmds := r.cmds.map (retriedCmd s.bell.time (retryPort k c s) c.tag) }) s = u at hmark
  have he : resendCommand k c s = sendFrame (retryPort k c s) tCommand (commandPayload c.target c.op c.tag c.addr c.data) u := by
    rw [← hu, resendCommand]
    simp only [beq_iff_eq]
    rfl
  have hport : ∀ q, portOf q u = portOf q s := fun q => portOf_congr (by rw [hmark.1]) q
  dsimp only
  rw [he]
  refine ⟨?_, fun j hj => ?_, ?_, fun q hq => ?_, fun hup htx => ⟨u, ?_⟩⟩
  · rw [sendFrame_eq]
    rw [hmark.1]
  · rw [ringOf_sendFrame, hmark.2, if_neg hj]
  · rw [ringOf_sendFrame, hmark.ring]
  · rw [portOf_sendFrame_other _ q _ _ _ hq, hport]
  · rw [← hport] at hup htx
    rw [sendFrame_up _ _ _ _ hup htx, portOf_setPort, if_pos rfl, hport]
    rfl

theorem execCommandRetry_some (k : RingIx) (c : RCmd) (s : State) (hmode : (ringOf k s).step = 0 ∨ s.dev.mode = .prove)
    (hfind : (ringOf k s).cmds.find? (fun c => !c.retried && !c.answered && decide (1000 ≤ (s.bell.time - c.sentAt).toNat)) = some c) :
    exec (.commandRetry k) s = .next (resendCommand k c s) := by
  have hcond : ((ringOf k s).step != 0 && s.dev.mode != .prove) = false := by
    rcases hmode with h | h <;> simp [h]
  have hfind' : (ringOf k s).cmds.find? (fun c => !c.retried && !c.answered && 1000 ≤ elapsed s.bell.time c.sentAt) = some c := hfind
  show execCommandRetry k s = _
  rw [execCommandRetry, hcond, if_neg nofun, hfind']

theorem execCommandRetry_held (k : RingIx) (s : State) (hstep : (ringOf k s).step ≠ 0) (hmode : s.dev.mode ≠ .prove) :
    exec (.commandRetry k) s = .next s := by
  show execCommandRetry k s = _
  rw [execCommandRetry, if_pos (by simp [hstep, hmode])]

/-- A ring that has failed (R68, R76). -/
theorem failRing_spec (k derr : Nat) (s : State) : ∃ u,
    RingBecomes k { ringOf k s with state := .failed, derr := derr, step := 0, cmds := [] } s u ∧
      Raises [(clsRing, 0, 7)] (expectRing k u) (failRing k derr s) :=
  ⟨_, ringBecomes_modRing k (fun r => { r with state := .failed, derr := derr, step := 0, cmds := [] }) s,
    raises_sticky clsRing 0 7 (by decide) (by decide) _⟩

/-- A command sent twice, or answered in part, has had no reply for 100 us (R63). -/
def overdue (k : Nat) (s : State) : Bool :=
  (ringOf k s).cmds.any fun c => (c.retried || c.answered) && decide (1000 ≤ (s.bell.time - c.sentAt).toNat)

/-- The code with which a step whose limit has expired fails; 0 where none has (R68, R69; log 93). -/
def lateCode (k : Nat) (s : State) : Nat :=
  let r := ringOf k s
  let late := 100000 ≤ (s.bell.time - r.stepAt).toNat
  let late2 := 200000 ≤ (s.bell.time - r.stepAt).toNat
  if s.dev.mode ≠ .prove then 0
  else if r.step = 1 ∧ late then 0x1
  else if r.step = 2 ∧ overdue k s then (if (ringCfg k s).mode = 2 ∧ r.closedL = none then 0x8 else 0x2)
  else if r.step = 3 ∧ overdue k s then 0x2
  else if r.step = 5 ∧ overdue k s then 0x6
  else if r.step = 6 ∧ overdue k s then 0x7
  else if r.step = 7 ∧ late2 then 0x9
  else if r.step = 8 ∧ late2 ∧ ((List.range (ringCfg k s).ngn8).any fun i => (gn8Of (4 * k + i) s).lastValid.isNone) then 0xA
  else 0

theorem timeoutCode_eq (k : Nat) (s : State) : timeoutCode k s = if lateCode k s = 0 then none else some (lateCode k s) := by
  by_cases hprove : s.dev.mode = .prove
  · unfold timeoutCode lateCode
    simp only [hprove, ne_eq, not_true_eq_false, if_false, bne_self_eq_false, Bool.false_eq_true]
    have hlost : (ringOf k s).cmds.any (fun c => (c.retried || c.answered) && 1000 ≤ elapsed s.bell.time c.sentAt) = overdue k s := rfl
    rw [hlost]
    unfold elapsed
    generalize (s.bell.time - (ringOf k s).stepAt).toNat = t
    split
    case h_1 hstep => by_cases ht : 100000 ≤ t <;> simp [hstep, ht]
    case h_2 hstep =>
      by_cases hl : overdue k s = true
      · by_cases hpair : (ringCfg k s).mode = 2 ∧ (ringOf k s).closedL = none <;> simp [hstep, hl, hpair]
      · simp [hstep, hl]
    case h_3 hstep => by_cases hl : overdue k s = true <;> simp [hstep, hl]
    case h_4 hstep => by_cases hl : overdue k s = true <;> simp [hstep, hl]
    case h_5 hstep => by_cases hl : overdue k s = true <;> simp [hstep, hl]
    case h_6 hstep => by_cases ht : 200000 ≤ t <;> simp [hstep, ht]
    case h_7 hstep =>
      generalize ((List.range (ringCfg k s).ngn8).any fun i => (gn8Of (4 * k + i) s).lastValid.isNone) = unseen
      by_cases hnone : 200000 ≤ t ∧ unseen = true <;> simp [hstep, hnone]
    case h_8 h1 h2 h3 h5 h6 h7 h8 =>
      refine (if_pos ?_).symm
      rw [if_neg fun h => h1 h.1, if_neg fun h => h2 h.1, if_neg fun h => h3 h.1, if_neg fun h => h5 h.1, if_neg fun h => h6 h.1,
        if_neg fun h => h7 h.1, if_neg fun h => h8 h.1]
  · simp [timeoutCode, lateCode, hprove]

theorem execDiscoveryTimeout_eq (k : RingIx) (s : State) :
    exec (.discoveryTimeout k) s = .next (if lateCode k s = 0 then s else failRing k (lateCode k s) s) := by
  show execDiscoveryTimeout k s = _
  rw [execDiscoveryTimeout, timeoutCode_eq]
  by_cases h : lateCode k s = 0
  · rw [if_pos h, if_pos h]
  · rw [if_neg h, if_neg h]

end Sys2Proof.Machine

namespace Sys2Proof.Machine

/-! ### O44: what a port meets, and what a ring sends of itself (R58 to R69) -/

theorem heldRd_spec (d : Bool) (p : Nat) (s : State) : PortBecomes p { portOf p s with rxRd := some d } s (heldRd d p s) :=
  portBecomes_setPort p _ s

theorem receiveFrame_none (p : Nat) (groups : List (BitVec 10)) (gap : Nat) (s : State)
    (h : lineFrame (portOf p s).rxRd groups = none) : receiveFrame p groups gap s = s := by rw [receiveFrame, h]

theorem receiveFrame_some (p : Nat) (groups : List (BitVec 10)) (gap : Nat) (chars : List LineChar) (d : Bool) (s : State)
    (h : lineFrame (portOf p s).rxRd groups = some (chars, d)) : receiveFrame p groups gap s = receiveChars p chars gap (heldRd d p s) := by
  rw [receiveFrame, h]
  rfl

/-- A sound frame enters the FIFO where that has room. -/
theorem takeOctets_taken (p : Nat) (f : List Byte) (s : State)
    (hknown : frameLen (frameType f) ≠ 0 ∧ f.length = frameLen (frameType f)) (hcrc : frameCrcOk f = true)
    (hroom : (portOf p s).rx.length < 32) : PortBecomes p { portOf p s with rx := (portOf p s).rx ++ [f] } s (takeOctets p f s) := by
  rw [takeOctets_known p f s hknown, if_pos hcrc, if_neg (Nat.not_le.2 hroom)]
  exact portBecomes_modPort p (fun r => { r with rx := r.rx ++ [f] }) s

theorem takeOctets_full (p : Nat) (f : List Byte) (s : State)
    (hknown : frameLen (frameType f) ≠ 0 ∧ f.length = frameLen (frameType f)) (hcrc : frameCrcOk f = true)
    (hfull : 32 ≤ (portOf p s).rx.length) : takeOctets p f s = overflowFrame p f s := by
  rw [takeOctets_known p f s hknown, if_pos hcrc, if_pos hfull]

/-- A frame that is neither sound nor a sound one of a reserved type is discarded. -/
theorem takeOctets_discarded (p : Nat) (f : List Byte) (s : State)
    (hbad : ¬((frameLen (frameType f) ≠ 0 ∧ f.length = frameLen (frameType f)) ∧ frameCrcOk f = true))
    (hres : ¬(frameLen (frameType f) = 0 ∧ 8 ≤ f.length ∧ frameCrcOk f = true)) : takeOctets p f s =
      discardFrame p (if frameLen (frameType f) ≠ 0 ∧ f.length = frameLen (frameType f) then 0 else 9) s := by
  by_cases hknown : frameLen (frameType f) ≠ 0 ∧ f.length = frameLen (frameType f)
  · rw [takeOctets_known p f s hknown, if_neg fun h => hbad ⟨hknown, h⟩, if_pos hknown]
  · rw [takeOctets_unknown p f s hknown hres, if_neg hknown]

section

variable {p : PortIx} {k : Nat} {s : State} (huse : portInUse p s = true) (hring : portRing p s = some k)

include huse

theorem frameReceive_whole (rd : Bool) (f : List Byte) (gap : Nat) (hup : (portOf p s).link = .up)
    (hrd : (portOf p s).rxRd = none ∨ (portOf p s).rxRd = some rd) :
    exec (.frameReceive p (frameGroups rd f).1 gap) s = .next (takeOctets p f (heldRd (frameGroups rd f).2 p s)) := by
  rw [execFrameReceive_up p _ gap s huse hup, receiveFrame_frameGroups p rd f gap s hrd]

include hring

/-- A frame that is not sound in its characters (R58, R60; log 97). -/
theorem frameReceive_spoilt (groups : List (BitVec 10)) (gap : Nat) (hup : (portOf p s).link = .up) (chars : List LineChar) (d : Bool)
    (hline : lineFrame (portOf p s).rxRd groups = some (chars, d)) :
    (chars.any violates = true → ∃ t, exec (.frameReceive p groups gap) s = .next t ∧
      (portOf p t).crc = min 0xFFFF ((portOf p s).crc + 1) ∧ (portOf p t).rx = (portOf p s).rx ∧
      ((chars.filter violates).length = 1 → (portOf p t).cv = min 0xFFFF ((portOf p s).cv + 1)) ∧
      (fltReg clsRing 0 t).getLsbD 1 = true ∧ (fltReg clsRing 0 t).getLsbD 0 = true) ∧
    (chars.any violates = false → (∃ b, .ctl b ∈ (chars.drop 1).dropLast) →
      ∃ u t, exec (.frameReceive p groups gap) s = .next t ∧
        PortBecomes p { portOf p s with rxRd := some d, crc := min 0xFFFF ((portOf p s).crc + 1) } s u ∧
        Raises [(clsRing, 0, 9)] (forEach (List.range (ringCfg k s).ngn8) (fun j => noteDiscard (4 * k + j)) u) t) := by
  have hheld := heldRd_spec d p s
  have hring' : portRing p (heldRd d p s) = some k := hring
  rw [execFrameReceive_up p groups gap s huse hup, receiveFrame_some p groups gap chars d s hline]
  refine ⟨fun hviol => ⟨_, rfl, ?_⟩, fun hclean ⟨b, hb⟩ => ?_⟩
  · have h := receiveChars_violated p k chars gap (heldRd d p s) hring' (by rw [hheld.port]; exact hup) hviol
    rw [hheld.port] at h
    exact h
  · obtain ⟨u, hu, hraise⟩ := discardFrame_spec p 9 k (heldRd d p s) (by decide) hring'
    rw [hheld.port] at hu
    rw [receiveChars_ctl p chars gap b _ hclean hb]
    exact ⟨u, _, rfl, hheld.trans hu, hraise⟩

/-- A code violation shows in CV, and in LINK_DOWN where it takes a link that was up down (R59, R79, R80). -/
theorem codeViolation_spec (n : Nat) (hlink : (portOf p s).link ≠ .down) :
    let many := (violatedPort n (portOf p s)).gaps.length = 3 ∧ (violatedPort n (portOf p s)).gaps.sum < 256
    ∃ u t, exec (.codeViolation p n) s = .next t ∧
      PortBecomes p (if many then downPort (portOf p s).los (violatedPort n (portOf p s)) else violatedPort n (portOf p s)) s u ∧
      Raises ((clsRing, 0, 1) :: if many ∧ (portOf p s).link = .up ∧ s.dev.mode ≠ .lockout then [(clsRing, 0, 2)] else []) u t := by
  obtain ⟨u, hu, hraise⟩ := codeViolationAt_spec p n s
  rw [downBits_inUse p k s huse hring] at hraise
  simp only [tooMany_iff] at hu hraise
  refine ⟨u, _, execCodeViolation_eq p n s huse hlink, hu, ?_⟩
  rwa [ite_and]

/-- The last port of a ring in discovery to come up starts its DISCOVER (R59, R68). -/
theorem linkUp_spec (halign : (portOf p s).link = .align) :
    let starts := s.dev.mode = .prove ∧ (ringOf k s).step = 1
    let u := setPort p { portOf p s with link := .up } s
    ∃ t, exec (.linkUp p) s = .next t ∧
      ((¬starts ∨ ∃ q ∈ ringPorts k s, (portOf q u).link ≠ .up) → t = u) ∧
      (starts → (∀ q ∈ ringPorts k s, (portOf q u).link = .up) → t = firstDiscover k u) := by
  intro starts u
  refine ⟨_, execLinkUp_eq p k s huse hring halign, fun hnot => if_neg ?_, fun hstarts hall => if_pos ⟨hstarts.2, hstarts.1, hall⟩⟩
  rintro ⟨hstep, hmode, hall⟩
  rcases hnot with hnot | ⟨q, hq, hlink⟩
  · exact hnot ⟨hmode, hstep⟩
  · exact hlink (hall q hq)

theorem linkDown_spec (why : LinkLoss) (hlink : (portOf p s).link ≠ .down) : ∃ u t, exec (.linkDown p why) s = .next t ∧
    PortBecomes p (downPort (why == .noSignal) (portOf p s)) s u ∧
    Raises (if (portOf p s).link = .up ∧ s.dev.mode ≠ .lockout then [(clsRing, 0, 2)] else []) u t := by
  have hraise := linkDownAt_spec p (why == .noSignal) s
  rw [downBits_inUse p k s huse hring] at hraise
  exact ⟨_, _, execLinkDown_eq p why s hlink, portBecomes_setPort p _ s, hraise⟩

end

/-- Settles O44: a frame by the line code and the checks of its octets, the rows of a link by what they leave of the port, the
queue by whether the line is free, the MARKERs port by port. -/
theorem ringLinksAndCommands : Obligations.RingLinksAndCommands := by
  unfold Obligations.RingLinksAndCommands
  refine ⟨decodeGroups_frameGroups, fun p k s huse hring => ?_, fun cls f x => ⟨queueFrame_busy cls f x, queueFrame_idle cls f x⟩,
    fun k s => ?_⟩
  · intro x now
    refine ⟨?_, fun groups gap hup => ⟨fun hnone => ?_, frameReceive_spoilt huse hring groups gap hup⟩, codeViolation_spec huse hring,
      commaAlignment_spec p s huse, fun halign => ?_, linkDown_spec huse hring, noSignal_spec p s huse⟩
    · intro f rd gap hup hrd groups y at_ i ours known crc counted
      have hcrcOk : crc ↔ frameCrcOk f = true := (frameCrcOk_iff f).symm
      have hat : PortBecomes p y s at_ := heldRd_spec _ p s
      have hport : portOf p at_ = y := hat.port
      have hring' : portRing p at_ = some k := hring
      rw [show exec (.frameReceive p groups gap) s = .next (takeOctets p f at_) from frameReceive_whole huse rd f gap hup hrd]
      refine ⟨fun hknown hcrc hroom => ⟨_, rfl, ?_⟩, fun hknown hcrc hfull => ?_, fun hty hlen hcrc => ?_, fun hbad hres => ?_⟩
      · have h := takeOctets_taken p f at_ hknown (hcrcOk.1 hcrc) (by rwa [hport])
        rw [hport] at h
        exact hat.trans h
      · rw [takeOctets_full p f at_ hknown (hcrcOk.1 hcrc) (by rwa [hport])]
        by_cases hours : ours
        · exact ⟨noteDiscard i at_, _, rfl, fun h => absurd hours h, fun _ => gn8Becomes_noteDiscard i at_,
            overflowFrame_ours p k f at_ hring' hours⟩
        · exact ⟨at_, _, rfl, fun _ => rfl, fun h => absurd h hours, overflowFrame_other p k f at_ hring' hours⟩
      · obtain ⟨u, hu, hraise⟩ := discardReserved_spec p at_
        rw [hport] at hu
        rw [takeOctets_reserved p f at_ hty hlen (hcrcOk.1 hcrc)]
        exact ⟨u, _, rfl, hat.trans hu, hraise⟩
      · rw [hcrcOk] at hbad hres
        obtain ⟨u, hu, hraise⟩ := discardFrame_spec p (if known then 0 else 9) k at_ (by split <;> decide) hring'
        rw [hport] at hu
        rw [takeOctets_discarded p f at_ hbad hres]
        exact ⟨u, _, rfl, hat.trans hu, hraise⟩
    · rw [execFrameReceive_up p groups gap s huse hup, receiveFrame_none p groups gap s hnone]
    · intro starts
      obtain ⟨t, hexec, hsame, hfirst⟩ := linkUp_spec huse hring halign
      refine ⟨_, t, hexec, portBecomes_setPort p _ s, hsame, fun hstarts hall => ?_⟩
      rw [hfirst hstarts hall]
      exact firstDiscover_spec k _
  · intro r now
    refine ⟨fun htime hboot => ?_, execCommandRetry_held k s, fun c hmode hfind => ?_, ?_⟩
    · obtain ⟨t, hexec, heq, hport⟩ := markerSend_spec s htime hboot
      refine ⟨t, hexec, heq, fun p => ?_⟩
      by_cases hsends : portInUse p s = true ∧ (portOf p s).link = .up ∧ (portOf p s).txen = true
      · have h := hport p
        rw [if_pos hsends] at h
        dsimp only
        rw [if_pos hsends]
        exact ⟨_, h, markerFrame_fields p s⟩
      · have h := hport p
        rw [if_neg hsends] at h
        dsimp only
        rw [if_neg hsends]
        exact h
    · intro port
      obtain ⟨heq, hother, hring, hports, hsent⟩ := resendCommand_spec k c s
      rw [retryPort_eq] at hring hports hsent
      refine ⟨_, execCommandRetry_some k c s hmode hfind, heq, hother, hring, hports, fun hup htx => ?_⟩
      obtain ⟨u, hu⟩ := hsent hup htx
      obtain ⟨hlen, hty, htarget, hop, htag, -⟩ := commandFrame_fields port c.target c.op c.tag c.addr c.data u
      exact ⟨_, hu, hlen, hty, htarget, hop, htag⟩
    · intro late late2 lost code
      have hcode : code = lateCode k s := rfl
      have hexec := execDiscoveryTimeout_eq k s
      rw [← hcode] at hexec
      refine ⟨fun hne => ?_, fun h0 => ?_⟩
      · rw [if_neg hne] at hexec
        obtain ⟨u, hu, hraise⟩ := failRing_spec k code s
        exact ⟨u, _, hexec, hu, hraise⟩
      · rwa [if_pos h0] at hexec

end Sys2Proof.Machine

namespace Sys2Proof.Machine

/-! ### Frames taken from a FIFO (R19) -/

/-- The port has given its front frame away. -/
def popped (p : Nat) (rest : List (List Byte)) (s : State) : State := setPort p { portOf p s with rx := rest } s

theorem popped_spec (p : Nat) (rest : List (List Byte)) (s : State) :
    PortBecomes p { portOf p s with rx := rest } s (popped p rest s) := portBecomes_setPort p _ s

/-- The frame that waits is taken and acted upon. -/
theorem onFrame_waits {p ty k : Nat} {f : List Byte} {rest : List (List Byte)} {s : State} (h : FrameWaits p ty f rest s)
    (hring : portRing p s = some k) (act : Nat → List Byte → State → State) : onFrame p ty act s = act k f (popped p rest s) := by
  obtain ⟨hdom, hrx, hty⟩ := h
  have hpop : popFrame p ty s = some (f, popped p rest s) := by
    rw [popFrame, hrx]
    dsimp only
    rw [hty, if_pos (by simp)]
    rfl
  rw [onFrame, if_pos hdom, hpop, hring]

/-! ### SAMPLE frames (R62, R65 to R70) -/

/-- A SAMPLE without alignment marks its GN8 (R62). -/
theorem takeSample_unaligned (k p slot : Nat) (f : List Byte) (s : State) (hsrc : bitsNat (frameByte f 1) 0 3 = slot)
    (hmode : (ringCfg k s).mode = 1) (hslot : slot < (ringCfg k s).ngn8) (hstamp : fieldLE f 4 4 = 0xFFFFFFFF) :
    takeSample k p f s = sticky clsRing 0 5
      (modGn8 (4 * k + slot) (fun g => { g with unsync := true, lastUnsync := some s.bell.time }) (mergeGn8 (4 * k + slot) s)) := by
  simp [takeSample, hmode, hsrc, hslot, hstamp]

/-- Two records of a GN8 that differ in the runs of its directions, in the directions, and in what has been judged alone. -/
def SameInstants (g g' : Gn8) : Prop :=
  g' = { g with both := g'.both, onlyL := g'.onlyL, onlyH := g'.onlyH, dirl := g'.dirl, dirh := g'.dirh, recent := g'.recent } ∧
  g'.recent.map (·.inst.at_) = g.recent.map (·.inst.at_)

theorem SameInstants.refl (g : Gn8) : SameInstants g g := ⟨rfl, rfl⟩

theorem SameInstants.trans {g h i : Gn8} (h1 : SameInstants g h) (h2 : SameInstants h i) : SameInstants g i :=
  ⟨by rw [h2.1, h1.1], h2.2.trans h1.2⟩

theorem judgeRun_same (l h : Bool) (g : Gn8) : SameInstants g (judgeRun l h g) := by
  cases l <;> cases h <;> exact ⟨rfl, rfl⟩

theorem recent_judgeRun (l h : Bool) (g : Gn8) : (judgeRun l h g).recent = g.recent := by cases l <;> cases h <;> rfl

/-- The runs of a GN8 and what they judge leave its instants. -/
theorem judgeRecent_same (i : Nat) (s : State) : SameInstants (gn8Of i s) (gn8Of i (judgeRecent i s)) := by
  have hfold : ∀ (l : List Recent) (g : Gn8), SameInstants g (l.foldl (fun g x => judgeRun x.l x.h g) g) ∧
      (l.foldl (fun g x => judgeRun x.l x.h g) g).recent = g.recent := by
    intro l
    induction l with
    | nil => exact fun g => ⟨.refl g, rfl⟩
    | cons x l ih =>
      intro g
      exact ⟨(judgeRun_same x.l x.h g).trans (ih _).1, (ih _).2.trans (recent_judgeRun x.l x.h g)⟩
  rw [judgeRecent, gn8Of_modGn8]
  dsimp only
  generalize (List.filter _ _).reverse = due
  obtain ⟨hsame, -⟩ := (hfold due (gn8Of i s)).1
  refine ⟨by rw [hsame], ?_⟩
  dsimp only
  rw [List.map_map]
  congr 1
  funext x
  simp only [Function.comp_apply]
  split <;> rfl

/-- The end of step 8 leaves the instants of every GN8 (R68). -/
theorem checkStep8_same (k i : Nat) (s : State) : SameInstants (gn8Of i s) (gn8Of i (checkStep8 k s)) := by
  unfold checkStep8
  split
  · dsimp only
    split
    · show SameInstants _ (gn8Of i (forEach _ _ s))
      refine forEach_ind (fun u => SameInstants (gn8Of i s) (gn8Of i u)) _ _ s (.refl _) fun j _ u hu => ?_
      rw [modGn8, gn8Of_setGn8]
      split
      · rename_i hi
        subst hi
        exact hu.trans ⟨rfl, rfl⟩
      · exact hu
    · exact .refl _
  · exact .refl _

theorem gridOf_cases (g : Gn8) : gridOf g = 100 ∨ gridOf g = 800 := by
  unfold gridOf
  split
  · exact .inr rfl
  · exact .inl rfl

/-- Within 660 ticks of an instant on the grid the deadline of the next one has not passed (R70). -/
theorem pastDeadline_nextMultiple (g : Gn8) (t now : Bell) (hgrid : t.toNat % gridOf g = 0) (hnear : (now - t).toNat < 660) :
    pastDeadline (nextMultiple (gridOf g) t) now = false := by
  have hmul : (t.toNat / gridOf g + 1) * gridOf g = t.toNat + gridOf g := by
    rw [Nat.add_mul, Nat.one_mul, Nat.div_mul_cancel (Nat.dvd_of_mod_eq_zero hgrid)]
  have hnext : (nextMultiple (gridOf g) t).toNat = if t.toNat + gridOf g < 2 ^ 48 then t.toNat + gridOf g else 0 := by
    rw [nextMultiple, hmul]
    split
    · rename_i h
      rw [BitVec.toNat_ofNat, Nat.mod_eq_of_lt h]
    · rfl
  rw [← Bool.not_eq_true, pastDeadline_iff]
  rintro ⟨hlater, hlate⟩
  have hnot : ¬(1 ≤ (nextMultiple (gridOf g) t - now).toNat ∧ (nextMultiple (gridOf g) t - now).toNat ≤ 2 ^ 47 - 1) := by
    simpa [laterMod] using hlater
  rw [BitVec.toNat_sub] at hlate hnear hnot
  have ht := t.isLt
  have hn := now.isLt
  by_cases hwrap : t.toNat + gridOf g < 2 ^ 48
  · rw [hnext, if_pos hwrap] at hlate hnot
    rcases gridOf_cases g with h | h <;> rw [h] at hlate hnot hwrap <;> omega
  · rw [hnext, if_neg hwrap] at hlate hnot
    rcases gridOf_cases g with h | h <;> rw [h] at hgrid hwrap <;> omega

end Sys2Proof.Machine

namespace Sys2Proof.Machine

/-! #### The first copy of an instant (R70, R71) -/

theorem laterMod_self (t : Bell) : laterMod 48 t t = false := by simp [laterMod]

theorem advanceMerge_held (i n : Nat) (x : Recent) (rest : List Recent) (s : State) (hnext : (gn8Of i s).next = some x.inst.at_)
    (hheld : (gn8Of i s).held = x :: rest) :
    advanceMerge i (n + 1) s = advanceMerge i n (writeInstant i x (modGn8 i (fun g => { g with held := rest }) s)) := by
  simp [advanceMerge, hnext, hheld]

theorem gn8Of_writeInstant (i : Nat) (x : Recent) (s : State) : gn8Of i (writeInstant i x s) =
    { stepNext x.inst.at_ (gn8Of i s) with sysok := x.inst.sysok, recent := (x :: (gn8Of i s).recent).take 32 } := by
  rw [writeInstant]
  exact (gn8Of_congr (forEach_gn8s _ _ _ fun h u => by simp [writeSample_keeps]) i).trans (gn8Of_modGn8 i _ _)

/-- A copy of the instant that is expected is written, and the next one expected (R70, R71). -/
theorem mergeGn8_oneHeld (i : Nat) (x : Recent) (s : State) (hnext : (gn8Of i s).next = some x.inst.at_)
    (hheld : (gn8Of i s).held = [x]) (hchange : (gn8Of i s).change = none) (hrecent : (gn8Of i s).recent = [])
    (hlater : pastDeadline (nextMultiple (gridOf (gn8Of i s)) x.inst.at_) s.bell.time = false) :
    SameInstants { gn8Of i s with next := some (nextMultiple (gridOf (gn8Of i s)) x.inst.at_), held := [], sysok := x.inst.sysok
                                  recent := [x] } (gn8Of i (mergeGn8 i s)) := by
  have hgn8 : gn8Of i (writeInstant i x (modGn8 i (fun g => { g with held := [] }) s)) =
      { gn8Of i s with next := some (nextMultiple (gridOf (gn8Of i s)) x.inst.at_), held := [], sysok := x.inst.sysok
                       recent := [x] } := by
    have hstep := stepNext_same x.inst.at_ { gn8Of i s with held := [] } hchange
    rw [gn8Of_writeInstant, gn8Of_modGn8, hstep]
    dsimp only
    rw [hrecent]
    rfl
  obtain ⟨n, hn⟩ : ∃ n, mergeFuel i s = n + 1 := by
    rw [mergeFuel, hnext]
    exact ⟨_, rfl⟩
  rw [mergeGn8, hn, advanceMerge_held i n x [] s hnext hheld, advanceMerge_waits i n _ _ (by rw [hgn8]) (by rw [hgn8])
    (by simpa [writeInstant_keeps, modGn8_keeps] using hlater), ← hgn8]
  exact judgeRecent_same i _

/-- The record of a GN8 of which no instant is expected or kept yet. -/
structure Unheard (g : Gn8) : Prop where
  next : g.next = none
  start : g.start = none
  held : g.held = []
  recent : g.recent = []

/-- Its merge stands still. -/
theorem gn8Of_mergeGn8_unheard (i : Nat) (s : State) (h : Unheard (gn8Of i s)) : gn8Of i (mergeGn8 i s) = gn8Of i s := by
  rw [mergeGn8, mergeFuel, h.next]
  exact gn8Of_judgeRecent_nil i s h.recent

/-- The first copy of such a GN8 is the one expected, and is held. -/
theorem gn8Of_mergeCopy_unheard (i : Nat) (x : Recent) (s : State) (h : Unheard (gn8Of i s)) : gn8Of i (mergeCopy i x s) =
    { gn8Of i s with lastValid := some s.bell.time, lastValidLand := s.bell.landNo, next := some x.inst.at_, held := [x] } := by
  obtain ⟨hnext, hstart, hheld, hrecent⟩ := h
  have hgn8 := gn8Of_modGn8 i (fun g => { g with
    lastValid := some s.bell.time, lastValidLand := s.bell.landNo, next := match g.next with
      | none => some x.inst.at_
      | some t => some t }) s
  rw [hnext] at hgn8
  rw [mergeCopy]
  generalize modGn8 i _ s = u at hgn8 ⊢
  dsimp only at hgn8 ⊢
  have hknown : (gn8Of i u).recent ++ (gn8Of i u).held = [] := by rw [hgn8, hrecent, hheld]; rfl
  have hfirst : (gn8Of i u).next.getD x.inst.at_ = x.inst.at_ := by rw [hgn8]; rfl
  have hnone : (gn8Of i u).start = none := by rw [hgn8, hstart]
  rw [hknown, hfirst, hnone, List.find?_nil]
  dsimp only [Option.any_none]
  rw [if_neg Bool.false_ne_true, laterMod_self, if_neg Bool.false_ne_true, gn8Of_modGn8, hgn8]
  dsimp only
  rw [hheld]
  rfl

/-- The first copy is written as the merge goes on, unless the next instant is due too (R70). -/
theorem mergeFirst_same (i : Nat) (x : Recent) (s : State) (h : Unheard (gn8Of i s)) (hchange : (gn8Of i s).change = none)
    (hlater : pastDeadline (nextMultiple (gridOf (gn8Of i s)) x.inst.at_) s.bell.time = false) :
    SameInstants { gn8Of i s with
      lastValid := some s.bell.time, lastValidLand := s.bell.landNo
      next := some (nextMultiple (gridOf (gn8Of i s)) x.inst.at_), held := [], sysok := x.inst.sysok, recent := [x] }
      (gn8Of i (mergeGn8 i (mergeCopy i x (mergeGn8 i s)))) := by
  have hsame := gn8Of_mergeGn8_unheard i s h
  have hbell : (mergeGn8 i s).bell = s.bell := (mergeGn8_keeps i s).1
  have hcopy := gn8Of_mergeCopy_unheard i x (mergeGn8 i s) (by rw [hsame]; exact h)
  have htime : (mergeCopy i x (mergeGn8 i s)).bell = s.bell := (mergeCopy_keeps i x _).1.trans hbell
  rw [hsame, hbell] at hcopy
  have hone := mergeGn8_oneHeld i x (mergeCopy i x (mergeGn8 i s)) (by rw [hcopy]) (by rw [hcopy])
    (by rw [hcopy]; exact hchange) (by rw [hcopy]; exact h.recent) (by rw [hcopy, htime]; exact hlater)
  rw [hcopy] at hone
  exact hone

/-- The device's own time is the one a SAMPLE of a single-device ring is stamped in (R66, R67). -/
theorem sampleInst_own (k : Nat) (f : List Byte) (s : State) (hmode : (ringCfg k s).mode = 1) :
    ∃ x, sampleInst k f s = some x ∧ x.inst.at_ = extendStamp (BitVec.ofNat 32 (fieldLE f 4 4)) s.bell.time ∧
      x.inst.sysok = BitVec.ofNat 16 (fieldLE f 8 2) := by
  simp [sampleInst, hmode]

/-- A GN8 with no change of grid ahead or behind it has one grid (R77). -/
theorem gridAhead_plain (g : Gn8) (t : Bell) (hchange : g.change = none) (hgridAt : g.gridAt = none) : gridAhead g t = gridOf g := by
  simp [gridAhead, gridFor, hchange, hgridAt]

/-- A valid SAMPLE of a single-device ring whose stamp lies on the grid is merged (R66, R68, R70). -/
theorem takeSample_merges (k p slot : Nat) (f : List Byte) (s : State) (hsrc : bitsNat (frameByte f 1) 0 3 = slot)
    (hmode : (ringCfg k s).mode = 1) (hslot : slot < (ringCfg k s).ngn8) (hmerges : ringMerges k s = true)
    (hstamp : fieldLE f 4 4 ≠ 0xFFFFFFFF) (hout : (gn8Of (4 * k + slot) s).out = false) (x : Recent)
    (hinst : sampleInst k f s = some x)
    (hgrid : x.inst.at_.toNat % gridAhead (gn8Of (4 * k + slot)
      (mergeGn8 (4 * k + slot) (modGn8 (4 * k + slot) (fun g => { g with unsync := false }) s))) x.inst.at_ = 0) :
    takeSample k p f s = checkStep8 k (mergeGn8 (4 * k + slot) (mergeCopy (4 * k + slot) x
      (mergeGn8 (4 * k + slot) (modGn8 (4 * k + slot) (fun g => { g with unsync := false }) s)))) := by
  have hgn8 := gn8Of_modGn8 (4 * k + slot) (fun g => { g with unsync := false }) s
  have hinst' : sampleInst k f (modGn8 (4 * k + slot) (fun g => { g with unsync := false }) s) = some x := by
    rw [← hinst]
    simp [sampleInst, hmode, show (ringCfg k (modGn8 (4 * k + slot) (fun g => { g with unsync := false }) s)).mode = 1 from hmode]
    rfl
  have hmerges' : ringMerges k (modGn8 (4 * k + slot) (fun g => { g with unsync := false }) s) = true := hmerges
  have hring : ((ringCfg k s).mode == 2) = false := by rw [hmode]; rfl
  simp only [takeSample, hring, Bool.false_and, Bool.false_eq_true, if_false, hsrc, hslot, if_true, beq_iff_eq, hstamp, hgn8,
    hout, hmerges', Bool.not_true, Bool.or_false, hinst', hgrid]

/-- The first copy of an instant on the grid is written and the next one expected (R70). -/
theorem takeSample_first (k p slot : Nat) (f : List Byte) (s : State) (hsrc : bitsNat (frameByte f 1) 0 3 = slot)
    (hmode : (ringCfg k s).mode = 1) (hslot : slot < (ringCfg k s).ngn8) (hmerges : ringMerges k s = true)
    (hstamp : fieldLE f 4 4 ≠ 0xFFFFFFFF) (hout : (gn8Of (4 * k + slot) s).out = false) (hnew : Unheard (gn8Of (4 * k + slot) s))
    (hchange : (gn8Of (4 * k + slot) s).change = none) (hgridAt : (gn8Of (4 * k + slot) s).gridAt = none) :
    let t := extendStamp (BitVec.ofNat 32 (fieldLE f 4 4)) s.bell.time
    let g := gn8Of (4 * k + slot) s
    t.toNat % gridOf g = 0 → (s.bell.time - t).toNat < 660 →
    ∃ x : Recent, x.inst.at_ = t ∧ SameInstants { g with
      unsync := false, lastValid := some s.bell.time, lastValidLand := s.bell.landNo, next := some (nextMultiple (gridOf g) t)
      held := [], sysok := BitVec.ofNat 16 (fieldLE f 8 2), recent := [x] } (gn8Of (4 * k + slot) (takeSample k p f s)) := by
  intro t g hgrid hnear
  obtain ⟨x, hinst, hat, hsysok⟩ := sampleInst_own k f s hmode
  have hlater := pastDeadline_nextMultiple g t s.bell.time hgrid hnear
  have hgn8 : gn8Of (4 * k + slot) (modGn8 (4 * k + slot) (fun g => { g with unsync := false }) s) = { g with unsync := false } :=
    gn8Of_modGn8 (4 * k + slot) (fun g => { g with unsync := false }) s
  have hnew' : Unheard (gn8Of (4 * k + slot) (modGn8 (4 * k + slot) (fun g => { g with unsync := false }) s)) := by
    rw [hgn8]
    exact ⟨hnew.next, hnew.start, hnew.held, hnew.recent⟩
  have hahead : gridAhead (gn8Of (4 * k + slot)
      (mergeGn8 (4 * k + slot) (modGn8 (4 * k + slot) (fun g => { g with unsync := false }) s))) x.inst.at_ = gridOf g := by
    rw [gn8Of_mergeGn8_unheard _ _ hnew', hgn8]
    exact gridAhead_plain _ _ hchange hgridAt
  have hfirst := mergeFirst_same (4 * k + slot) x _ hnew' (by rw [hgn8]; exact hchange) (by rw [hgn8, hat]; exact hlater)
  rw [hgn8, hat, hsysok] at hfirst
  rw [takeSample_merges k p slot f s hsrc hmode hslot hmerges hstamp hout x hinst (by rw [hahead, hat]; exact hgrid)]
  exact ⟨x, hat, hfirst.trans (checkStep8_same k _ _)⟩

end Sys2Proof.Machine

namespace Sys2Proof.Machine

theorem ports_takeSample_own (k p : Nat) (f : List Byte) (s : State) (hmode : (ringCfg k s).mode = 1) :
    (takeSample k p f s).ports = s.ports := by
  have hring : ((ringCfg k s).mode == 2) = false := by rw [hmode]; rfl
  unfold takeSample
  simp only [hring, Bool.false_and, Bool.false_eq_true, if_false]
  (repeat' split) <;> simp [mergeCopy_keeps, checkStep8_keeps, mergeGn8_keeps, modGn8_keeps, sticky_keeps]

/-- The row of a SAMPLE whose GN8 has no alignment (R62). -/
theorem sampleFrame_unaligned (p : PortIx) (k : Nat) (f : List Byte) (rest : List (List Byte)) (s : State)
    (hring : portRing p s = some k) (hwaits : FrameWaits p 1 f rest s) (hmode : (ringCfg k s).mode = 1)
    (hslot : (f.getD 1 0).toNat % 8 < (ringCfg k s).ngn8) (hstamp : fieldLE f 4 4 = 0xFFFFFFFF) :
    let i := 4 * k + (f.getD 1 0).toNat % 8
    ∃ u v t, exec (.sampleFrame p) s = .next t ∧ PortBecomes p { portOf p s with rx := rest } s u ∧
      Gn8Becomes i { gn8Of i (mergeGn8 i u) with unsync := true, lastUnsync := some s.bell.time } (mergeGn8 i u) v ∧
      Raises [(clsRing, 0, 5)] v t := by
  intro i
  have hexec : exec (.sampleFrame p) s = .next (takeSample k p f (popped p rest s)) :=
    congrArg Host.Outcome.next (onFrame_waits hwaits hring fun k f => takeSample k p f)
  refine ⟨popped p rest s, _, _, hexec, popped_spec p rest s,
    gn8Becomes_modGn8 i (fun g => { g with unsync := true, lastUnsync := some s.bell.time }) _, ?_⟩
  rw [takeSample_unaligned k p _ f (popped p rest s) (frameSlot_eq f) hmode hslot hstamp]
  exact raises_sticky clsRing 0 5 (by decide) (by decide) _

/-- The row of the first copy of an instant (R70). -/
theorem sampleFrame_first (p : PortIx) (k : Nat) (f : List Byte) (rest : List (List Byte)) (s : State)
    (hring : portRing p s = some k) (hwaits : FrameWaits p 1 f rest s) (hmode : (ringCfg k s).mode = 1)
    (hslot : (f.getD 1 0).toNat % 8 < (ringCfg k s).ngn8) (hmerges : ringMerges k s = true)
    (hstamp : fieldLE f 4 4 ≠ 0xFFFFFFFF) (hout : (gn8Of (4 * k + (f.getD 1 0).toNat % 8) s).out = false)
    (hnew : Unheard (gn8Of (4 * k + (f.getD 1 0).toNat % 8) s))
    (hchange : (gn8Of (4 * k + (f.getD 1 0).toNat % 8) s).change = none)
    (hgridAt : (gn8Of (4 * k + (f.getD 1 0).toNat % 8) s).gridAt = none) :
    let at_ := extendStamp (BitVec.ofNat 32 (fieldLE f 4 4)) s.bell.time
    let g := gn8Of (4 * k + (f.getD 1 0).toNat % 8) s
    at_.toNat % gridOf g = 0 → (s.bell.time - at_).toNat < 660 →
    ∃ t, exec (.sampleFrame p) s = .next t ∧ (portOf p t).rx = rest ∧
      let y := gn8Of (4 * k + (f.getD 1 0).toNat % 8) t
      y.next = some (nextMultiple (gridOf g) at_) ∧ y.held = [] ∧ y.unsync = false ∧ y.lastValid = some s.bell.time ∧
      y.sysok = BitVec.ofNat 16 (fieldLE f 8 2) ∧ y.recent.map (·.inst.at_) = [at_] := by
  intro at_ g hgrid hnear
  have hexec : exec (.sampleFrame p) s = .next (takeSample k p f (popped p rest s)) :=
    congrArg Host.Outcome.next (onFrame_waits hwaits hring fun k f => takeSample k p f)
  have hport : portOf p (takeSample k p f (popped p rest s)) = { portOf p s with rx := rest } :=
    (portOf_congr (ports_takeSample_own k p f (popped p rest s) hmode) p).trans (popped_spec p rest s).port
  obtain ⟨x, hat, hsame, hrecent⟩ := takeSample_first k p _ f (popped p rest s) (frameSlot_eq f) hmode hslot hmerges hstamp hout
    hnew hchange hgridAt hgrid hnear
  refine ⟨_, hexec, by rw [hport], ?_⟩
  intro y
  rw [show y = _ from hsame]
  exact ⟨rfl, rfl, rfl, rfl, rfl, hrecent.trans (congrArg (fun t => [t]) hat)⟩

/-! ### MARKER frames (R63, R65, R66) -/

/-- The offset to the partner's bell time that a MARKER shows at a port (R63, R65). -/
def markerOffset (p : Nat) (f : List Byte) (s : State) : Int :=
  (BitVec.ofNat 48 (fieldLE f 4 6) + BitVec.ofInt 48 (roundEven (fieldLE f 10 2 + (portOf p s).delay) 100) - s.bell.time).toInt

theorem frameDev_eq (f : List Byte) : bitsNat (frameByte f 1) 3 1 = (f.getD 1 0).toNat / 8 % 2 := by
  rw [frameByte_eq]
  rfl

/-- A partner's MARKER gives the ring its offset (R63, R66; log 92). -/
theorem takeMarker_theirs (k p : Nat) (f : List Byte) (s : State) (hmode : (ringCfg k s).mode = 2)
    (htheirs : (((f.getD 1 0).toNat / 8 % 2 == 1) != (ringCfg k s).pdev) = true) :
    let o := markerOffset p f s
    let r := ringOf k s
    takeMarker k p f s = match r.offset with
      | none => setRing k { r with offset := some o, agree := 1 } s
      | some o' =>
        if (o - o').natAbs ≤ 2 then
          setRing k { r with offset := some o, agree := satInc 16 r.agree, trusted := r.trusted || decide (16 ≤ r.agree + 1) } s
        else sticky clsRing 0 8 (setRing k { r with offset := some o, agree := 1, trusted := false } s) := by
  intro o r
  rw [← frameDev_eq] at htheirs
  rw [takeMarker, hmode, htheirs]
  rfl

/-- The row of a MARKER (R63, R65, R66). -/
theorem markerFrame_spec (p : PortIx) (k : Nat) (f : List Byte) (rest : List (List Byte)) (s : State)
    (hring : portRing p s = some k) (hwaits : FrameWaits p 2 f rest s) (hmode : (ringCfg k s).mode = 2)
    (htheirs : (((f.getD 1 0).toNat / 8 % 2 == 1) != (ringCfg k s).pdev) = true) :
    let r := ringOf k s
    let o := markerOffset p f s
    ∃ u, PortBecomes p { portOf p s with rx := rest } s u ∧
      (r.offset = none → ∃ t, exec (.markerFrame p) s = .next t ∧ RingBecomes k { r with offset := some o, agree := 1 } u t) ∧
      (∀ o', r.offset = some o' → (o - o').natAbs ≤ 2 → ∃ t, exec (.markerFrame p) s = .next t ∧
        RingBecomes k { r with offset := some o, agree := min 16 (r.agree + 1)
                               trusted := r.trusted || decide (16 ≤ r.agree + 1) } u t) ∧
      (∀ o', r.offset = some o' → 2 < (o - o').natAbs → ∃ v t, exec (.markerFrame p) s = .next t ∧
        RingBecomes k { r with offset := some o, agree := 1, trusted := false } u v ∧ Raises [(clsRing, 0, 8)] v t) := by
  intro r o
  have hexec : exec (.markerFrame p) s = .next (takeMarker k p f (popped p rest s)) :=
    congrArg Host.Outcome.next (onFrame_waits hwaits hring fun k f => takeMarker k p f)
  have hdelay : markerOffset p f (popped p rest s) = o := by
    rw [markerOffset, (popped_spec p rest s).port]
    rfl
  have htake := takeMarker_theirs k p f (popped p rest s) hmode htheirs
  simp only [hdelay, show ringOf k (popped p rest s) = r from rfl] at htake
  rw [htake] at hexec
  refine ⟨popped p rest s, popped_spec p rest s, fun hnone => ?_, fun o' hsome hnear => ?_, fun o' hsome hfar => ?_⟩
  · rw [hnone] at hexec
    exact ⟨_, hexec, ringBecomes_setRing k _ _⟩
  · rw [hsome] at hexec
    dsimp only at hexec
    rw [if_pos hnear, satInc_eq] at hexec
    exact ⟨_, hexec, ringBecomes_setRing k _ _⟩
  · rw [hsome] at hexec
    dsimp only at hexec
    rw [if_neg (by omega)] at hexec
    exact ⟨_, _, hexec, ringBecomes_setRing k _ _, raises_sticky clsRing 0 8 (by decide) (by decide) _⟩

/-! ### COMMAND frames (R63, R68) -/

theorem leNat_lt (l : List Byte) : leNat l < 256 ^ l.length := by
  induction l with
  | nil => simp [leNat]
  | cons b l ih =>
    have hb := b.isLt
    have he : leNat (b :: l) = b.toNat + 256 * leNat l := rfl
    rw [he, List.length_cons, Nat.pow_succ]
    omega

theorem fieldLE_lt (f : List Byte) (off n : Nat) : fieldLE f off n < 256 ^ n := by
  have h := leNat_lt (slice f off n)
  rwa [show (slice f off n).length = n by simp [slice]] at h

/-- The body of the STATUS with which a port answers its partner's DISCOVER (R68). -/
def discoverAnswer (f : List Byte) : List Byte :=
  leBytes 2 (fieldLE f 6 2) ++ leBytes 1 3 ++ leBytes 1 0 ++ leBytes 2 (fieldLE f 8 2) ++
    leBytes 4 (frameByte f 1 / 16) ++ leBytes 4 0xB0510512 ++ leBytes 2 0

theorem discoverAnswer_fields (f l : List Byte) : (discoverAnswer f).length = 16 ∧
    fieldLE (discoverAnswer f ++ l) 0 2 = fieldLE f 6 2 ∧ fieldLE (discoverAnswer f ++ l) 6 4 = frameByte f 1 / 16 := by
  have htag : fieldLE f 6 2 % 256 ^ 2 = fieldLE f 6 2 := Nat.mod_eq_of_lt (fieldLE_lt f 6 2)
  have hbyte : frameByte f 1 < 256 := by
    rw [frameByte_eq]
    exact (f.getD 1 0).isLt
  have hhop : frameByte f 1 / 16 % 256 ^ 4 = frameByte f 1 / 16 := Nat.mod_eq_of_lt (by omega)
  simp only [discoverAnswer, List.append_assoc]
  refine ⟨by simp, by rw [fieldLE_leBytes, htag], ?_⟩
  rw [fieldLE_skip 2 _ _ _ _ (by omega), fieldLE_skip 1 _ _ _ _ (by omega), fieldLE_skip 1 _ _ _ _ (by omega),
    fieldLE_skip 2 _ _ _ _ (by omega), fieldLE_leBytes, hhop]

/-- A COMMAND that is no DISCOVER changes nothing (R68). -/
theorem takeCommand_other (k p : Nat) (f : List Byte) (s : State) (h : fieldLE f 5 1 ≠ 3) : takeCommand k p f s = s := by
  simp [takeCommand, h]

/-- A partner's DISCOVER is answered with its HOP (R68). -/
theorem takeCommand_partner (k p : Nat) (f : List Byte) (s : State) (hop : fieldLE f 5 1 = 3) (hmode : (ringCfg k s).mode = 2) :
    takeCommand k p f s = sendFrame p tStatus (discoverAnswer f) s := by
  simp [takeCommand, hop, hmode, discoverAnswer]

/-- Step 2 goes on when its DISCOVER has come round and every reply is in (R68). -/
theorem discoverProgress_awaits (k : Nat) (s : State) (hstep : (ringOf k s).step = 2)
    (h : ∀ n, (ringOf k s).closedL = some n → (ringOf k s).fromL.length < n) : discoverProgress k s = s := by
  cases hclosed : (ringOf k s).closedL with
  | none => simp only [discoverProgress, hstep, hclosed]
  | some n =>
    have hlt := h n hclosed
    simp only [discoverProgress, hstep, hclosed, beq_iff_eq]
    rw [if_neg (by omega), if_neg (by omega)]

/-- A DISCOVER that has come round the ring closes it; the step goes on when every reply is in (R68). -/
theorem takeCommand_closes (k p : Nat) (f : List Byte) (s : State) (hop : fieldLE f 5 1 = 3) (hmode : (ringCfg k s).mode = 1)
    (hprove : s.dev.mode = .prove) (hstep : (ringOf k s).step = 2) (hp : p ≠ k)
    (hfew : (ringOf k s).fromL.length < frameByte f 1 / 16) :
    takeCommand k p f s = setRing k { ringOf k s with closedL := some (frameByte f 1 / 16) } s := by
  have hring := (ringBecomes_setRing k { ringOf k s with closedL := some (frameByte f 1 / 16) } s).ring
  have hawaits := discoverProgress_awaits k _ (by rw [hring]; exact hstep)
    (by rw [hring]; exact fun n hn => Option.some.inj hn ▸ hfew)
  rw [takeCommand]
  dsimp only
  rw [hop, hmode, hprove, if_neg (by decide), if_neg (by decide), if_neg (by decide)]
  split
  · rw [if_pos (by simpa using hp)]
    exact hawaits
  · next h => exact absurd (hstep.symm.trans h) (by decide)
  · next h _ => exact absurd hstep h

/-- The row of a COMMAND (R63, R68). -/
theorem commandFrame_spec (p : PortIx) (k : Nat) (f : List Byte) (rest : List (List Byte)) (s : State)
    (hring : portRing p s = some k) (hwaits : FrameWaits p 3 f rest s) :
    let x := portOf p s
    let r := ringOf k s
    let c := ringCfg k s
    let took := fun u : State => PortBecomes p { x with rx := rest } s u
    (fieldLE f 5 1 ≠ 3 → ∃ t, exec (.commandFrame p) s = .next t ∧ took t) ∧
    (fieldLE f 5 1 = 3 → c.mode = 1 → s.dev.mode = .prove → r.step = 2 → p.val ≠ k → r.fromL.length < (f.getD 1 0).toNat / 16 →
      ∃ u t, exec (.commandFrame p) s = .next t ∧ took u ∧
        RingBecomes k { r with closedL := some ((f.getD 1 0).toNat / 16) } u t) ∧
    (fieldLE f 5 1 = 3 → c.mode = 2 → x.link = .up → x.txen = true →
      ∃ t y, exec (.commandFrame p) s = .next t ∧ PortBecomes p (SentFrame 2 y { x with rx := rest }) s t ∧
        y.length = 24 ∧ frameType y = 4 ∧ fieldLE y 4 2 = fieldLE f 6 2 ∧ fieldLE y 10 4 = (f.getD 1 0).toNat / 16) := by
  intro x r c took
  have hexec : exec (.commandFrame p) s = .next (takeCommand k p f (popped p rest s)) :=
    congrArg Host.Outcome.next (onFrame_waits hwaits hring fun k f => takeCommand k p f)
  have hport := (popped_spec p rest s).port
  rw [← frameByte_eq]
  refine ⟨fun hop => ?_, fun hop hmode hprove hstep hp hfew => ?_, fun hop hmode hup htxen => ?_⟩
  · rw [takeCommand_other k p f _ hop] at hexec
    exact ⟨_, hexec, popped_spec p rest s⟩
  · rw [takeCommand_closes k p f (popped p rest s) hop hmode hprove hstep hp hfew] at hexec
    exact ⟨_, _, hexec, popped_spec p rest s, ringBecomes_setRing k _ _⟩
  · rw [takeCommand_partner k p f (popped p rest s) hop hmode, sendFrame_up p tStatus _ _ (by rw [hport]; exact hup) (by rw [hport]; exact htxen),
      hport] at hexec
    obtain ⟨l, field⟩ := fieldLE_ownFrame p tStatus (discoverAnswer f) (popped p rest s)
    obtain ⟨hlen, htag, hhop⟩ := discoverAnswer_fields f l
    exact ⟨_, ownFrame p tStatus (discoverAnswer f) (popped p rest s), hexec,
      (popped_spec p rest s).trans (portBecomes_setPort p _ _), by rw [length_ownFrame, hlen],
      frameType_ownFrame p tStatus _ _ (by decide), (field 0 2).trans htag, (field 6 4).trans hhop⟩

end Sys2Proof.Machine

namespace Sys2Proof.Machine

/-! ### STATUS frames (R63, R65, R68, R70) -/

/-- A GN8 shows in its STATUS whether its markers disagree (R65). -/
def markSeen (i : Nat) (dis : Bool) (s : State) : State :=
  stickyIf dis clsRing 0 8 (modGn8 i (fun g => { g with markdis := dis }) s)

/-- A ring's commands, those with the tag of one that has its reply marked so. -/
def answeredIn (c : RCmd) (l : List RCmd) : List RCmd := l.map fun y => if y.tag = c.tag then { y with answered := true } else y

def answer (k : Nat) (c : RCmd) (s : State) : State := setRing k { ringOf k s with cmds := answeredIn c (ringOf k s).cmds } s

/-- What the reply in a STATUS frame does once its command is marked (R63, R68). -/
def reply (k : Nat) (f : List Byte) (slot : Nat) (isGn8 : Bool) (c : RCmd) (s : State) : State :=
  if c.digest then dropCmd k c s
  else if (ringOf k s).step != 0 && s.dev.mode != .prove then s
  else match fieldLE f 6 1, (ringOf k s).step with
  | 3, _ => discoverReply k slot (BitVec.ofNat 32 (fieldLE f 10 4)).toNat (BitVec.ofNat 32 (fieldLE f 14 4)) s
  | 4, 5 => echoReply k slot c s
  | 1, 5 => echoWritten k c s
  | 1, 6 => setupReply k 1 (fieldLE f 7 1) (BitVec.ofNat 32 (fieldLE f 10 4)) c s
  | 2, 6 => setupReply k 2 (fieldLE f 7 1) (BitVec.ofNat 32 (fieldLE f 10 4)) c s
  | 6, 7 =>
    if isGn8 && bitsNat (fieldLE f 18 2) 0 1 == 1 then
      if (insertKey slot (ringOf k s).aligned).length == (ringCfg k s).ngn8 then
        startMerge k (setRing k { ringOf k s with aligned := insertKey slot (ringOf k s).aligned } s)
      else setRing k { ringOf k s with aligned := insertKey slot (ringOf k s).aligned } s
    else s
  | _, _ => dropCmd k c s

/-- The command that a STATUS frame of a slot answers (R63). -/
def commandHit (k slot : Nat) (f : List Byte) (s : State) : Option RCmd :=
  (ringOf k s).cmds.find? fun y => y.tag == fieldLE f 4 2 && y.op == fieldLE f 6 1 && (y.target == 0xFF || y.target == slot)

theorem takeStatus_eq (k slot : Nat) (f : List Byte) (s : State) (hsrc : bitsNat (frameByte f 1) 0 3 = slot)
    (hslot : slot < (ringCfg k s).ngn8) :
    let w := markSeen (4 * k + slot) (decide (fieldLE f 18 2 / 2 % 2 = 0)) s
    takeStatus k f s = match commandHit k slot f w with
      | none => w
      | some c => reply k f slot true c (answer k c w) := by
  intro w
  have hanswer : ∀ (c : RCmd) (u : State), modRing k (fun r => { r with
      cmds := r.cmds.map fun x => if x.tag == c.tag then { x with answered := true } else x }) u = answer k c u := by
    intro c u
    simp only [beq_iff_eq]
    rfl
  unfold takeStatus
  simp only [hsrc, hslot, if_true, decide_true, hanswer]
  show (match commandHit k slot f w with | none => w | some c => _) = _
  split
  · rfl
  · simp only [reply, modRing, ringOf_setRing, if_true]
    rfl

end Sys2Proof.Machine

namespace Sys2Proof.Machine

theorem answer_spec (k : Nat) (c : RCmd) (s : State) :
    RingBecomes k { ringOf k s with cmds := answeredIn c (ringOf k s).cmds } s (answer k c s) := ringBecomes_setRing k _ s

theorem filter_answeredIn (c : RCmd) (l : List RCmd) :
    (answeredIn c l).filter (fun y => y.tag != c.tag) = l.filter fun y => y.tag != c.tag := by
  induction l with
  | nil => rfl
  | cons y l ih =>
    rw [answeredIn, List.map_cons, ← answeredIn]
    by_cases h : y.tag = c.tag <;> simp [h, ih]

/-- An answered command that is dropped leaves the others (R63). -/
theorem dropCmd_answer (k : Nat) (c : RCmd) (s : State) :
    RingBecomes k { ringOf k s with cmds := (ringOf k s).cmds.filter fun y => y.tag != c.tag } s (dropCmd k c (answer k c s)) := by
  have hdrop := ringBecomes_modRing k (fun r => { r with cmds := r.cmds.filter fun y => y.tag != c.tag }) (answer k c s)
  rw [(answer_spec k c s).ring] at hdrop
  dsimp only at hdrop
  rw [filter_answeredIn] at hdrop
  exact (answer_spec k c s).trans hdrop

/-- The ring of a GN8 that is aligned, once its reply has come (R68). -/
def alignedSeen (k slot : Nat) (c : RCmd) (s : State) : State :=
  setRing k { ringOf k s with cmds := answeredIn c (ringOf k s).cmds, aligned := insertKey slot (ringOf k s).aligned } s

/-- In step 2 the reply to DISCOVER of a GN8 is listed, and its identity shown, while the DISCOVER has not come round (R68). -/
theorem discoverReply_listed (k slot hop : Nat) (ident : Word) (s : State) (hstep : (ringOf k s).step = 2) (hslot : slot < 4)
    (hopen : (ringOf k s).closedL = none) :
    discoverReply k slot hop ident s = setRing k { ringOf k s with fromL := addReply (hop, slot, ident) (ringOf k s).fromL }
      (if slot < maxSlots k s then modGn8 (4 * k + slot) (fun g => { g with id := ident }) s else s) := by
  have hring := fun u => (ringBecomes_setRing k { ringOf k s with fromL := addReply (hop, slot, ident) (ringOf k s).fromL } u).ring
  have hawaits := fun u => discoverProgress_awaits k (setRing k _ u) (by rw [hring u]; exact hstep)
    (by rw [hring u]; exact fun n hn => absurd (hopen.symm.trans hn) (by simp))
  rw [discoverReply]
  dsimp only
  split
  · rw [if_neg (by simp; omega), if_neg (by omega)]
    exact hawaits _
  · next h => exact absurd (hstep.symm.trans h) (by decide)
  · next h _ => exact absurd hstep h

theorem startMerge_spec (k : Nat) (s : State) : ∃ y, RingBecomes k { ringOf k s with step := 8, cmds := [] } s y ∧
    startMerge k s = expectRing k y := ⟨_, ringBecomes_modRing k (fun r => { r with step := 8, cmds := [] }) s, rfl⟩

section
variable (k slot : Nat) (f : List Byte) (c : RCmd) (s : State)

/-- Out of discovery, and where it is a READ of the digest, a reply ends its command (R63). -/
theorem reply_ends (h : c.digest = true ∨ ((ringOf k s).step = 0 ∧ fieldLE f 6 1 ≠ 3)) :
    RingBecomes k { ringOf k s with cmds := (ringOf k s).cmds.filter fun y => y.tag != c.tag } s
      (reply k f slot true c (answer k c s)) := by
  have hdrop := dropCmd_answer k c s
  rcases h with h | ⟨hzero, hop⟩
  · rwa [reply, if_pos h]
  · have hstep : (ringOf k (answer k c s)).step = 0 := by rw [(answer_spec k c s).ring]; exact hzero
    have hended : reply k f slot true c (answer k c s) = dropCmd k c (answer k c s) := by
      rw [reply]
      split
      · rfl
      · rw [if_neg (by simp [hstep])]
        split
        · next h3 => exact absurd h3 hop
        case h_2 h | h_3 h | h_4 h | h_5 h | h_6 h => exact absurd (hstep.symm.trans h) (by decide)
        · rfl
    rwa [hended]

/-- Out of PROVE a reply of a step of discovery is noted, and no more (R68). -/
theorem reply_waits (hdigest : c.digest = false) (hstep : (ringOf k s).step ≠ 0) (hmode : s.dev.mode ≠ .prove) :
    RingBecomes k { ringOf k s with cmds := answeredIn c (ringOf k s).cmds } s (reply k f slot true c (answer k c s)) := by
  have hstep' : (ringOf k (answer k c s)).step ≠ 0 := by rw [(answer_spec k c s).ring]; exact hstep
  have hmode' : (answer k c s).dev.mode ≠ .prove := hmode
  rw [reply, if_neg (by simp [hdigest]), if_pos (by simp [hstep', hmode'])]
  exact answer_spec k c s

/-- In PROVE the reply is one to the step. -/
theorem reply_step (hdigest : c.digest = false) (hmode : s.dev.mode = .prove) :
    reply k f slot true c (answer k c s) = match fieldLE f 6 1, (ringOf k s).step with
      | 3, _ => discoverReply k slot (fieldLE f 10 4) (BitVec.ofNat 32 (fieldLE f 14 4)) (answer k c s)
      | 4, 5 => echoReply k slot c (answer k c s)
      | 1, 5 => echoWritten k c (answer k c s)
      | 1, 6 => setupReply k 1 (fieldLE f 7 1) (BitVec.ofNat 32 (fieldLE f 10 4)) c (answer k c s)
      | 2, 6 => setupReply k 2 (fieldLE f 7 1) (BitVec.ofNat 32 (fieldLE f 10 4)) c (answer k c s)
      | 6, 7 => if fieldLE f 18 2 % 2 = 1 then
          if (insertKey slot (ringOf k s).aligned).length = (ringCfg k s).ngn8 then
            startMerge k (setRing k (ringOf k (alignedSeen k slot c s)) (answer k c s))
          else setRing k (ringOf k (alignedSeen k slot c s)) (answer k c s)
        else answer k c s
      | _, _ => dropCmd k c (answer k c s) := by
  have hfield : (BitVec.ofNat 32 (fieldLE f 10 4)).toNat = fieldLE f 10 4 := Nat.mod_eq_of_lt (fieldLE_lt f 10 4)
  have hmode' : (answer k c s).dev.mode = .prove := hmode
  have hbit : bitsNat (fieldLE f 18 2) 0 1 = fieldLE f 18 2 % 2 := by simp [bitsNat]
  have hcfg : ringCfg k (answer k c s) = ringCfg k s := rfl
  rw [reply, if_neg (by simp [hdigest]), if_neg (by simp [hmode']), (answer_spec k c s).ring, hfield]
  have hseen : ringOf k (alignedSeen k slot c s) =
      { ringOf k s with cmds := answeredIn c (ringOf k s).cmds, aligned := insertKey slot (ringOf k s).aligned } :=
    (ringBecomes_setRing k _ s).ring
  simp only [Bool.true_and, hbit, beq_iff_eq, hcfg, hseen] <;> rfl

/-- The reply to DISCOVER is listed, and its identity shown (R68, steps 2 and 3). -/
theorem reply_discovers (hdigest : c.digest = false) (hmode : s.dev.mode = .prove) (hop : fieldLE f 6 1 = 3)
    (hstep : (ringOf k s).step = 2) (hslot : slot < 4) (hopen : (ringOf k s).closedL = none) :
    let ident := BitVec.ofNat 32 (fieldLE f 14 4)
    ∃ y, Gn8Becomes (4 * k + slot) { gn8Of (4 * k + slot) s with
        id := if slot < maxSlots k s then ident else (gn8Of (4 * k + slot) s).id } s y ∧
      RingBecomes k { ringOf k s with cmds := answeredIn c (ringOf k s).cmds
                                      fromL := addReply (fieldLE f 10 4, slot, ident) (ringOf k s).fromL } y
        (reply k f slot true c (answer k c s)) := by
  intro ident
  have hanswer := (answer_spec k c s).ring
  have hreply : reply k f slot true c (answer k c s) =
      discoverReply k slot (fieldLE f 10 4) ident (answer k c s) := by
    rw [reply_step k slot f c s hdigest hmode, hop]
    rfl
  rw [discoverReply_listed k slot _ ident _ (by rw [hanswer]; exact hstep) hslot (by rw [hanswer]; exact hopen), hanswer,
    show maxSlots k (answer k c s) = maxSlots k s from rfl] at hreply
  rw [hreply]
  by_cases h : slot < maxSlots k s
  · rw [if_pos h, if_pos h]
    exact ⟨_, gn8Becomes_modGn8 _ (fun g => { g with id := ident }) s,
      (ringBecomes_setRing k _ _).trans (ringBecomes_setRing k _ _)⟩
  · rw [if_neg h, if_neg h]
    exact ⟨s, gn8Becomes_self _ s, (answer_spec k c s).trans (ringBecomes_setRing k _ _)⟩

/-- A set-up write or read that ends badly fails the ring (R68, step 6). -/
theorem reply_refused (hdigest : c.digest = false) (hmode : s.dev.mode = .prove) (hop : fieldLE f 6 1 = 1 ∨ fieldLE f 6 1 = 2)
    (hstep : (ringOf k s).step = 6) (hresult : fieldLE f 7 1 ≠ 0) :
    ∃ y, RingBecomes k { ringOf k s with state := .failed, derr := 0x7, step := 0, cmds := [] } s y ∧
      Raises [(clsRing, 0, 7)] (expectRing k y) (reply k f slot true c (answer k c s)) := by
  have hreply : reply k f slot true c (answer k c s) = failRing k 0x7 (dropCmd k c (answer k c s)) := by
    rw [reply_step k slot f c s hdigest hmode, hstep]
    rcases hop with hop | hop <;> rw [hop] <;> simp only [setupReply, bne_iff_ne, ne_eq, hresult, not_false_eq_true, if_true]
  have hdrop := dropCmd_answer k c s
  obtain ⟨u, hring, hraise⟩ := failRing_spec k 0x7 (dropCmd k c (answer k c s))
  rw [hdrop.ring] at hring
  exact ⟨u, hdrop.trans hring, hreply ▸ hraise⟩

/-- A set-up write that is taken is read back (R68, step 6). -/
theorem reply_written (hdigest : c.digest = false) (hmode : s.dev.mode = .prove) (hop : fieldLE f 6 1 = 1)
    (hstep : (ringOf k s).step = 6) (hresult : fieldLE f 7 1 = 0) :
    ∃ y, RingBecomes k { ringOf k s with cmds := (ringOf k s).cmds.filter fun y => y.tag != c.tag } s y ∧
      CommandSent k (nearPort k c.target s) (keptCmd false k (nearPort k c.target s) c.target 2 c.addr 0 s) y
        (reply k f slot true c (answer k c s)) := by
  have hreply : reply k f slot true c (answer k c s) =
      sendCommandAs false k (nearPort k c.target s) c.target 2 c.addr 0 (dropCmd k c (answer k c s)) := by
    rw [reply_step k slot f c s hdigest hmode, hstep, hop]
    simp only [setupReply, hresult, bne_self_eq_false, Bool.false_eq_true, if_false, beq_self_eq_true, if_true]
    rfl
  have hdrop := dropCmd_answer k c s
  have hkept : keptCmd false k (nearPort k c.target s) c.target 2 c.addr 0 (dropCmd k c (answer k c s)) =
      keptCmd false k (nearPort k c.target s) c.target 2 c.addr 0 s := by
    rw [keptCmd, hdrop.ring]
    rfl
  exact ⟨_, hdrop, hreply ▸ hkept ▸ commandSent_sendCommandAs false k _ c.target 2 c.addr 0 _⟩

/-- The last GN8 to be aligned starts the merge (R68, step 7; R70). -/
theorem reply_aligned (hdigest : c.digest = false) (hmode : s.dev.mode = .prove) (hop : fieldLE f 6 1 = 6)
    (hstep : (ringOf k s).step = 7) (hhealth : fieldLE f 18 2 % 2 = 1) :
    let aligned := insertKey slot (ringOf k s).aligned
    (aligned.length ≠ (ringCfg k s).ngn8 →
      RingBecomes k { ringOf k s with cmds := answeredIn c (ringOf k s).cmds, aligned := aligned } s
        (reply k f slot true c (answer k c s))) ∧
    (aligned.length = (ringCfg k s).ngn8 → ∃ y, RingBecomes k { ringOf k s with step := 8, cmds := [], aligned := aligned } s y ∧
      reply k f slot true c (answer k c s) = expectRing k y) := by
  intro aligned
  have hseen : ringOf k (alignedSeen k slot c s) =
      { ringOf k s with cmds := answeredIn c (ringOf k s).cmds, aligned := aligned } := (ringBecomes_setRing k _ s).ring
  have hset := (answer_spec k c s).trans (ringBecomes_setRing k (ringOf k (alignedSeen k slot c s)) _)
  have hreply := reply_step k slot f c s hdigest hmode
  rw [hstep, hop] at hreply
  rw [if_pos hhealth, hseen] at hreply
  rw [hseen] at hset
  refine ⟨fun hfew => ?_, fun hall => ?_⟩
  · rw [if_neg hfew] at hreply
    rw [hreply]
    exact hset
  · rw [if_pos hall] at hreply
    generalize setRing k _ (answer k c s) = v at hset hreply
    obtain ⟨y, hmerge, hstart⟩ := startMerge_spec k v
    rw [hset.ring] at hmerge
    exact ⟨y, hset.trans hmerge, hreply.trans hstart⟩

end

end Sys2Proof.Machine

namespace Sys2Proof.Machine

theorem markSeen_keeps (i : Nat) (dis : Bool) (s : State) : (markSeen i dis s).rings = s.rings ∧
    (markSeen i dis s).img = s.img ∧ (markSeen i dis s).dev = s.dev ∧ (markSeen i dis s).bell = s.bell := by
  simp [markSeen, stickyIf_keeps, modGn8_keeps]

theorem gn8Of_markSeen (i : Nat) (dis : Bool) (s : State) : gn8Of i (markSeen i dis s) = { gn8Of i s with markdis := dis } :=
  (gn8Of_congr (t := markSeen i dis s) (s := modGn8 i (fun g => { g with markdis := dis }) s)
    (by simp [markSeen, stickyIf_keeps]) i).trans (gn8Of_modGn8 i (fun g => { g with markdis := dis }) s)

/-- The row of a STATUS (R63, R65, R68, R70). -/
theorem statusFrame_spec (p : PortIx) (k : Nat) (f : List Byte) (rest : List (List Byte)) (s : State)
    (hring : portRing p s = some k) (hwaits : FrameWaits p 4 f rest s) (hslot : (f.getD 1 0).toNat % 8 < (ringCfg k s).ngn8) :
    let slot := (f.getD 1 0).toNat % 8
    let dis := fieldLE f 18 2 / 2 % 2 = 0
    let w := markSeen (4 * k + slot) (decide dis) (popped p rest s)
    exec (.statusFrame p) s = .next (match commandHit k slot f s with
      | none => w
      | some c => reply k f slot true c (answer k c w)) ∧
    ∃ v, Gn8Becomes (4 * k + slot) { gn8Of (4 * k + slot) s with markdis := decide dis } (popped p rest s) v ∧
      Raises (if dis then [(clsRing, 0, 8)] else []) v w := by
  intro slot dis w
  have hexec : exec (.statusFrame p) s = .next (takeStatus k f (popped p rest s)) :=
    congrArg Host.Outcome.next (onFrame_waits hwaits hring fun k f => takeStatus k f)
  have hhit : commandHit k slot f w = commandHit k slot f s := by
    rw [commandHit, ringOf_congr (markSeen_keeps _ _ _).1]
    rfl
  have hraise := raises_stickyIf (decide dis) clsRing 0 8 (by decide) (by decide)
    (modGn8 (4 * k + slot) (fun g => { g with markdis := decide dis }) (popped p rest s))
  simp only [decide_eq_true_eq] at hraise
  refine ⟨?_, _, gn8Becomes_modGn8 _ (fun g => { g with markdis := decide dis }) _, hraise⟩
  rw [hexec, takeStatus_eq k slot f (popped p rest s) (frameSlot_eq f) hslot, hhit] <;> rfl

theorem maxSlots_eq (k : Nat) (s : State) : maxSlots k s = if (ringCfg k s).mode = 2 then 2 else 4 := by simp [maxSlots]

theorem nearPort_eq_of_any (k target : Nat) (s : State) : nearPort k target s =
    if (ringCfg k s).mode = 1 ∧ target < 4 ∧ (ringCfg k s).ngn8 < 2 * target + 1 then k + 16 else k := by
  simp [nearPort, and_assoc]

/-- What the reply to a command does, out of discovery and in its steps (R63, R68). -/
theorem reply_spec (k slot : Nat) (f : List Byte) (q : RCmd) (s : State) :
    let r := ringOf k s
    let c := ringCfg k s
    let op := fieldLE f 6 1
    let t := reply k f slot true q (answer k q s)
    let answered := answeredIn q r.cmds
    let others := r.cmds.filter fun y => y.tag != q.tag
    (q.digest = true ∨ (r.step = 0 ∧ op ≠ 3) → RingBecomes k { r with cmds := others } s t) ∧
    (q.digest = false → r.step ≠ 0 → s.dev.mode ≠ .prove → RingBecomes k { r with cmds := answered } s t) ∧
    (q.digest = false → s.dev.mode = .prove →
      (op = 3 → r.step = 2 → slot < 4 → r.closedL = none →
        let ident := BitVec.ofNat 32 (fieldLE f 14 4)
        ∃ y, Gn8Becomes (4 * k + slot) { gn8Of (4 * k + slot) s with
            id := if slot < (if c.mode = 2 then 2 else 4) then ident else (gn8Of (4 * k + slot) s).id } s y ∧
          RingBecomes k { r with cmds := answered, fromL := addReply (fieldLE f 10 4, slot, ident) r.fromL } y t) ∧
      (r.step = 6 → (op = 1 ∨ op = 2) → fieldLE f 7 1 ≠ 0 → ∃ y,
        RingBecomes k { r with state := .failed, derr := 0x7, step := 0, cmds := [] } s y ∧
        Raises [(clsRing, 0, 7)] (expectRing k y) t) ∧
      (r.step = 6 → op = 1 → fieldLE f 7 1 = 0 → ∃ y, RingBecomes k { r with cmds := others } s y ∧
        let port := if c.mode = 1 ∧ q.target < 4 ∧ c.ngn8 < 2 * q.target + 1 then k + 16 else k
        CommandSent k port { target := q.target, op := 2, tag := r.tag, addr := q.addr, data := 0, port := port
                             sentAt := s.bell.time, retried := false, answered := false, digest := false } y t) ∧
      (r.step = 7 → op = 6 → fieldLE f 18 2 % 2 = 1 →
        let aligned := insertKey slot r.aligned
        (aligned.length ≠ c.ngn8 → RingBecomes k { r with cmds := answered, aligned := aligned } s t) ∧
        (aligned.length = c.ngn8 → ∃ y, RingBecomes k { r with step := 8, cmds := [], aligned := aligned } s y ∧
          t = expectRing k y))) := by
  intro r c op t answered others
  refine ⟨reply_ends k slot f q s, reply_waits k slot f q s, fun hdigest hmode => ⟨fun hop hstep hslot hopen => ?_,
    fun hstep hop => reply_refused k slot f q s hdigest hmode hop hstep, fun hstep hop hresult => ?_,
    fun hstep hop => reply_aligned k slot f q s hdigest hmode hop hstep⟩⟩
  · rw [← maxSlots_eq]
    exact reply_discovers k slot f q s hdigest hmode hop hstep hslot hopen
  · rw [← nearPort_eq_of_any]
    exact reply_written k slot f q s hdigest hmode hop hstep hresult

/-- Settles O45: each frame by its own action, the first SAMPLE copy through the merge, and a STATUS by the reply it brings. -/
theorem ringFrames : Obligations.RingFrames := by
  unfold Obligations.RingFrames
  intro p k f rest s hring x r c slot g took
  refine ⟨fun hwaits hmode hslot => ⟨fun hstamp => ?_, ?_⟩, fun hwaits hmode htheirs => ?_, fun hwaits hslot => ?_, fun hwaits => ?_⟩
  · exact sampleFrame_unaligned p k f rest s hring hwaits hmode hslot hstamp
  · intro at_ hmerges hstamp hout hnext hstart hheld hrecent hchange hgridAt
    exact sampleFrame_first p k f rest s hring hwaits hmode hslot hmerges hstamp hout ⟨hnext, hstart, hheld, hrecent⟩ hchange hgridAt
  · exact markerFrame_spec p k f rest s hring hwaits hmode htheirs
  · intro tag op result dis hit
    obtain ⟨hexec, v, hgn8, hraise⟩ := statusFrame_spec p k f rest s hring hwaits hslot
    have hgn8w := gn8Of_markSeen (4 * k + slot) (decide dis) (popped p rest s)
    obtain ⟨hrings, himg, hdev, hbell⟩ := markSeen_keeps (4 * k + slot) (decide dis) (popped p rest s)
    refine ⟨popped p rest s, v, _, _, hexec, popped_spec p rest s, hgn8, hraise, fun hnone => ?_, fun q hq => ?_⟩
    · rw [show commandHit k slot f s = none from hnone]
    · rw [show commandHit k slot f s = some q from hq]
      have hreply := reply_spec k slot f q (markSeen (4 * k + slot) (decide dis) (popped p rest s))
      rw [ringOf_congr hrings, ringCfg_congr himg, hdev, hbell, hgn8w] at hreply
      exact hreply
  · exact commandFrame_spec p k f rest s hring hwaits

end Sys2Proof.Machine

/-! ## O15: wheel records and STATE operands (R107, R108, R110, R182) -/

namespace Sys2Proof.Machine

/-! ### The fields of an event's 16 bytes (R107, R108, R182) -/

/-- A CRC-16 behind 14 bytes is that of those bytes. -/
theorem crc16_framed (b : List Byte) (h : b.length = 14) :
    (b ++ leBytes 2 (crc16 b).toNat).length = 16 ∧
      crc16 ((b ++ leBytes 2 (crc16 b).toNat).take 14) = BitVec.ofNat 16 (fieldLE (b ++ leBytes 2 (crc16 b).toNat) 14 2) := by
  have hcrc : fieldLE (b ++ leBytes 2 (crc16 b).toNat) 14 2 = (crc16 b).toNat := by
    rw [fieldLE_append _ _ _ _ (by omega), h, ← List.append_nil (leBytes 2 _), fieldLE_leBytes]
    exact Nat.mod_eq_of_lt (crc16 b).isLt
  refine ⟨by simp [h], ?_⟩
  rw [hcrc, List.take_left' h, BitVec.ofNat_toNat, BitVec.setWidth_eq]

/-- The word of a record's head, direction and class (R108). -/
def hdcWord (r : WheelRec) : Nat := r.head + 512 * b2n r.dir + 1024 * r.cls + 16384 * r.rsv

theorem b2n_le_one (b : Bool) : b2n b ≤ 1 := by cases b <;> decide

theorem b2n_eq_one (b : Bool) : (b2n b == 1) = b := by cases b <;> rfl

section Hdc
variable {r : WheelRec} (hhead : r.head < 512) (hcls : r.cls < 16) (hrsv : r.rsv < 4)
include hhead hcls hrsv

theorem hdcWord_fields : hdcWord r < 65536 ∧ hdcWord r % 512 = r.head ∧ hdcWord r / 512 % 2 = b2n r.dir ∧
    hdcWord r / 1024 % 16 = r.cls ∧ hdcWord r / 16384 = r.rsv := by
  have hdir := b2n_le_one r.dir
  unfold hdcWord
  omega

end Hdc

/-- The fields of a record's bytes, as R107 lays them out. -/
theorem recBytes_fields (r : WheelRec) :
    fieldLE (recBytes r) 0 6 = r.centre.toNat ∧ fieldLE (recBytes r) 6 2 = hdcWord r % 65536 ∧
      fieldLE (recBytes r) 8 2 = r.speed % 65536 ∧ fieldLE (recBytes r) 10 2 = r.spacing % 65536 ∧
      fieldLE (recBytes r) 12 1 = r.conf % 256 ∧ fieldLE (recBytes r) 13 1 = r.flags % 256 := by
  have hcentre : r.centre.toNat % 256 ^ 6 = r.centre.toNat := Nat.mod_eq_of_lt r.centre.isLt
  simp only [recBytes, List.append_assoc]
  refine ⟨by rw [fieldLE_leBytes, hcentre], ?_, ?_, ?_, ?_, ?_⟩ <;>
    simp [fieldLE_skip, fieldLE_leBytes, hdcWord]

/-- The fields of a STATE operand's bytes, as R182 lays them out. -/
theorem stateBytes_fields (v : StateEv) :
    fieldLE (stateBytes v) 0 1 = statByte v.state v.back v.side v.a v.b % 256 ∧ fieldLE (stateBytes v) 1 1 = v.cause % 256 ∧
      fieldLE (stateBytes v) 2 2 = v.head % 65536 ∧ fieldLE (stateBytes v) 4 4 = v.baseA.toNat ∧
      fieldLE (stateBytes v) 8 4 = v.baseB.toNat ∧ fieldLE (stateBytes v) 12 1 = b2n v.chg := by
  have hA : v.baseA.toNat % 4294967296 = v.baseA.toNat := Nat.mod_eq_of_lt v.baseA.isLt
  have hB : v.baseB.toNat % 4294967296 = v.baseB.toNat := Nat.mod_eq_of_lt v.baseB.isLt
  have hchg : leBytes 2 (b2n v.chg) = leBytes 1 (b2n v.chg) ++ leBytes 1 0 := by cases v.chg <;> rfl
  have hbit : b2n v.chg % 256 = b2n v.chg := by cases v.chg <;> rfl
  simp only [stateBytes, List.append_assoc]
  refine ⟨by rw [fieldLE_leBytes]; rfl, ?_, ?_, ?_, ?_, ?_⟩ <;>
    simp only [fieldLE_skip, fieldLE_leBytes, hA, hB, hbit, hchg, List.append_assoc, Nat.reduceLeDiff, Nat.reduceSub,
      Nat.reducePow]

/-- A record's bytes are read back field by field. -/
theorem parseRec_recBytes (r : WheelRec) (hhead : r.head < 512) (hcls : r.cls < 16) (hrsv : r.rsv < 4)
    (hspeed : r.speed < 2 ^ 16) (hspacing : r.spacing < 2 ^ 16) (hconf : r.conf < 2 ^ 8) (hflags : r.flags < 2 ^ 8) :
    parseRec (recBytes r) = r := by
  obtain ⟨hlt, hdcHead, hdcDir, hdcCls, hdcRsv⟩ := hdcWord_fields hhead hcls hrsv
  obtain ⟨f0, f6, f8, f10, f12, f13⟩ := recBytes_fields r
  have hdir : (bitsNat (hdcWord r) 9 1 == 1) = r.dir := by rw [← b2n_eq_one r.dir, ← hdcDir]; rfl
  have hclass : bitsNat (hdcWord r) 10 4 = r.cls := hdcCls
  have hres : bitsNat (hdcWord r) 14 2 = r.rsv := by rw [bitsNat]; omega
  simp only [parseRec, f0, f6, f8.trans (Nat.mod_eq_of_lt hspeed), f10.trans (Nat.mod_eq_of_lt hspacing),
    f12.trans (Nat.mod_eq_of_lt hconf), f13.trans (Nat.mod_eq_of_lt hflags), Nat.mod_eq_of_lt hlt, hdir, hclass, hres, hdcHead,
    BitVec.ofNat_toNat, BitVec.setWidth_eq]

theorem headOfCode_headCode (h : HeadState) : headOfCode (headCode h) = h := by cases h <;> rfl

theorem headCode_lt (h : HeadState) : headCode h < 16 := by cases h <;> decide

/-- The byte of HEAD_STAT holds a state and its four flags apart (R105). -/
theorem statByte_fields (st : HeadState) (back side a b : Bool) :
    statByte st back side a b < 256 ∧ statByte st back side a b % 16 = headCode st ∧
      bitsNat (statByte st back side a b) 7 1 = b2n back ∧ bitsNat (statByte st back side a b) 6 1 = b2n side ∧
      bitsNat (statByte st back side a b) 4 1 = b2n a ∧ bitsNat (statByte st back side a b) 5 1 = b2n b := by
  have hcode := headCode_lt st
  have ha := b2n_le_one a
  have hb := b2n_le_one b
  have hside := b2n_le_one side
  have hback := b2n_le_one back
  simp only [statByte, bitsNat]
  omega

/-- A STATE operand's bytes are read back field by field. -/
theorem parseState_stateBytes (v : StateEv) (hhead : v.head < 512) (hcause : v.cause < 256) :
    parseState (stateBytes v) = v := by
  obtain ⟨hlt, hcode, hback, hside, ha, hb⟩ := statByte_fields v.state v.back v.side v.a v.b
  obtain ⟨f0, f1, f2, f4, f8, f12⟩ := stateBytes_fields v
  have hchg : (bitsNat (b2n v.chg) 0 1 == 1) = v.chg := by cases v.chg <;> rfl
  have hwide : v.head % 65536 = v.head := by omega
  simp only [parseState, f0, f1, f2, f4, f8, f12, Nat.mod_eq_of_lt hlt, hcode, hback, hside, ha, hb, b2n_eq_one, hchg, hwide,
    Nat.mod_eq_of_lt hcause, Nat.mod_eq_of_lt hhead, headOfCode_headCode, BitVec.ofNat_toNat, BitVec.setWidth_eq]

/-- Settles O15: the fields of each layout, the word of head, direction and class taken apart, and the CRC behind 14 bytes. -/
theorem eventOperands : Obligations.EventOperands := by
  unfold Obligations.EventOperands
  refine ⟨fun r hcls hhead hspeed hspacing hconf hflags hrsv => ?_, fun v hhead hcause => ?_⟩
  · obtain ⟨hlt, hdcHead, hdcDir, hdcCls, hdcRsv⟩ := hdcWord_fields hhead hcls hrsv
    obtain ⟨f0, f6, f8, f10, f12, f13⟩ := recBytes_fields r
    rw [Nat.mod_eq_of_lt hlt] at f6
    have hdir : (hdcWord r).testBit 9 = r.dir := by
      rw [Nat.testBit_eq_decide_div_mod_eq, show (2 : Nat) ^ 9 = 512 from rfl, hdcDir]
      cases r.dir <;> rfl
    obtain ⟨hlen, hcrc⟩ := crc16_framed _ (show (leBytes 6 r.centre.toNat ++ leBytes 2 (hdcWord r) ++ leBytes 2 r.speed ++
      leBytes 2 r.spacing ++ leBytes 1 r.conf ++ leBytes 1 r.flags).length = 14 by simp)
    exact ⟨hlen, parseRec_recBytes r hhead hcls hrsv hspeed hspacing hconf hflags, f0, f6 ▸ hdcHead, f6 ▸ hdir, f6 ▸ hdcCls,
      f6 ▸ hdcRsv, f8.trans (Nat.mod_eq_of_lt hspeed), f10.trans (Nat.mod_eq_of_lt hspacing),
      f12.trans (Nat.mod_eq_of_lt hconf), f13.trans (Nat.mod_eq_of_lt hflags), hcrc⟩
  · obtain ⟨hlen, hcrc⟩ := crc16_framed _ (show (leBytes 1 (statByte v.state v.back v.side v.a v.b) ++ leBytes 1 v.cause ++
      leBytes 2 v.head ++ leBytes 4 v.baseA.toNat ++ leBytes 4 v.baseB.toNat ++ leBytes 2 (b2n v.chg)).length = 14 by simp)
    exact ⟨hlen, parseState_stateBytes v hhead hcause, hcrc⟩

end Sys2Proof.Machine

/-! ## O37: the derivation of a section (R119 to R121, R127, R128, R132 to R135, R139, R154) -/

namespace Sys2Proof.Machine

/-! ### The comparison of two lists of axles (R120) -/

/-- Two classes match: one is 0 or they differ by no more than 1 (R120). -/
def ClassesAlike (a b : Nat) : Prop := a = 0 ∨ b = 0 ∨ (a ≤ b + 1 ∧ b ≤ a + 1)

/-- Two spacings match: one is unknown or they differ by no more than the tolerance (R120). -/
def SpacingsNear (x : SecIn) (a b : Nat) : Prop :=
  a = 0xFFFF ∨ b = 0xFFFF ∨
    (a ≤ b + max x.tolAbs (max a b * x.tolRel / 1000) ∧ b ≤ a + max x.tolAbs (max a b * x.tolRel / 1000))

/-- Entry i of a list of axles. -/
def axleAt (l : List Axle) (i : Nat) : Axle := l.getD i ⟨0, 0, 0⟩

/-- The exit list is the entry list in its order, or backwards (R120). -/
def Verified (x : SecIn) (ep : Episode) : Prop :=
  let n := ep.e.length
  let E := axleAt ep.e
  let X := axleAt ep.x
  ep.x.length = n ∧
    ((∀ i < n, ClassesAlike (X i).cls (E i).cls) ∧ (∀ i < n, 1 ≤ i → SpacingsNear x (X i).spc (E i).spc) ∨
     (∀ i < n, ClassesAlike (X i).cls (E (n - 1 - i)).cls) ∧ (∀ i < n, 1 ≤ i → SpacingsNear x (X i).spc (E (n - i)).spc))

theorem clsOk_iff (a b : Nat) : clsOk a b = true ↔ ClassesAlike a b := by
  simp [clsOk, ClassesAlike, or_assoc]

theorem spcOk_iff (x : SecIn) (a b : Nat) : spcOk x.tolAbs x.tolRel a b = true ↔ SpacingsNear x a b := by
  simp [spcOk, SpacingsNear, or_assoc]

theorem axleAt_drop (l : List Axle) (i : Nat) : axleAt (l.drop 1) i = axleAt l (i + 1) := by
  rw [axleAt, axleAt, List.getD_eq_getElem?_getD, List.getD_eq_getElem?_getD, List.getElem?_drop, Nat.add_comm]

theorem axleAt_reverse (l : List Axle) (i : Nat) (h : i < l.length) : axleAt l.reverse i = axleAt l (l.length - 1 - i) := by
  rw [axleAt, axleAt, List.getD_eq_getElem?_getD, List.getD_eq_getElem?_getD, List.getElem?_reverse h]

theorem classesOk_iff (xs es : List Axle) : classesOk xs es = true ↔
    xs.length = es.length ∧ ∀ i < es.length, ClassesAlike (axleAt xs i).cls (axleAt es i).cls := by
  induction xs generalizing es with
  | nil => cases es <;> simp [classesOk]
  | cons a xs ih =>
    cases es with
    | nil => simp [classesOk]
    | cons b es =>
      simp only [classesOk, Bool.and_eq_true, clsOk_iff, ih, List.length_cons, Nat.add_right_cancel_iff, Nat.forall_lt_succ_left]
      exact and_left_comm

theorem spacingsOk_iff (x : SecIn) (xs es : List Axle) (h : xs.length ≤ es.length) :
    spacingsOk x.tolAbs x.tolRel xs es = true ↔ ∀ i < xs.length, SpacingsNear x (axleAt xs i).spc (axleAt es i).spc := by
  induction xs generalizing es with
  | nil => simp [spacingsOk]
  | cons a xs ih =>
    cases es with
    | nil => simp at h
    | cons b es =>
      simp only [spacingsOk, Bool.and_eq_true, spcOk_iff, ih es (Nat.le_of_succ_le_succ h), List.length_cons,
        Nat.forall_lt_succ_left]
      exact Iff.rfl

/-- From the second entry on: the entries of a list less its first. -/
theorem forall_from_one (n : Nat) (P : Nat → Prop) : (∀ i < n, 1 ≤ i → P i) ↔ ∀ i < n - 1, P (i + 1) := by
  constructor
  · intro h i hi
    exact h (i + 1) (by omega) (by omega)
  · intro h i hi hpos
    have := h (i - 1) (by omega)
    rwa [Nat.sub_add_cancel hpos] at this

theorem forwardOk_iff (x : SecIn) (e l : List Axle) (h : l.length = e.length) : forwardOk x.tolAbs x.tolRel e l = true ↔
    (∀ i < e.length, ClassesAlike (axleAt l i).cls (axleAt e i).cls) ∧
      ∀ i < e.length, 1 ≤ i → SpacingsNear x (axleAt l i).spc (axleAt e i).spc := by
  rw [forwardOk, Bool.and_eq_true, classesOk_iff, spacingsOk_iff _ _ _ (by simp [h]), forall_from_one, List.length_drop, h]
  simp only [true_and, axleAt_drop]

theorem reverseOk_iff (x : SecIn) (e l : List Axle) (h : l.length = e.length) : reverseOk x.tolAbs x.tolRel e l = true ↔
    (∀ i < e.length, ClassesAlike (axleAt l i).cls (axleAt e (e.length - 1 - i)).cls) ∧
      ∀ i < e.length, 1 ≤ i → SpacingsNear x (axleAt l i).spc (axleAt e (e.length - i)).spc := by
  have hback : ∀ i < e.length, axleAt e.reverse i = axleAt e (e.length - 1 - i) := fun i hi => axleAt_reverse e i hi
  have hnext : ∀ i, e.length - 1 - i = e.length - (i + 1) := fun i => by omega
  rw [reverseOk, Bool.and_eq_true, classesOk_iff, spacingsOk_iff _ _ _ (by simp [h]), forall_from_one, List.length_drop, h,
    List.length_reverse]
  simp only [true_and, axleAt_drop]
  exact and_congr (forall₂_congr fun i hi => by rw [hback i hi]) (forall₂_congr fun i hi => by rw [hback i (by omega), hnext])

theorem listsMatch_iff (x : SecIn) (ep : Episode) : listsMatch x.tolAbs x.tolRel ep = true ↔ Verified x ep := by
  rw [listsMatch, Bool.and_eq_true, Bool.or_eq_true, beq_iff_eq, eq_comm]
  exact and_congr_right fun h => or_congr (forwardOk_iff x _ _ h) (reverseOk_iff x _ _ h)

theorem epUsable_iff (ep : Episode) : epUsable ep = true ↔ ep.overflow = false ∧ ep.unverified = false := by
  simp [epUsable]

/-! ### The count in each manifest's arithmetic (R127, R128, R139) -/

theorem netDelta_foldl (ms : List Move1) (n : Int) : ms.foldl (fun n m => if m.up then n + 1 else n - 1) n =
    n + ((ms.filter (·.up)).length : Int) - ((ms.filter fun m => !m.up).length : Int) := by
  induction ms generalizing n with
  | nil => simp
  | cons m ms ih =>
    rw [List.foldl_cons, ih]
    cases hup : m.up <;> simp [hup] <;> omega

/-- The count of a section with the moves of a commit. -/
def movedCount (ms : List Move1) (r : Sec) : Int :=
  r.count + ((ms.filter (·.up)).length : Int) - ((ms.filter fun m => !m.up).length : Int)

theorem sumA_eq (ms : List Move1) (r : Sec) : sumA ms r = movedCount ms r := by
  rw [sumA, netDelta, netDelta_foldl, movedCount]
  omega

/-- Manifest B's inverted count is one less than the negative of the count. -/
theorem codeB_count (r : Sec) (hlo : -32768 ≤ r.count) (hhi : r.count ≤ 32767) : (codeB r).count.toInt = -1 - r.count := by
  have hcount : (BitVec.ofInt 16 r.count).toInt = r.count := by
    rw [BitVec.toInt_ofInt]
    exact Int.bmod_eq_of_le (by omega) (by omega)
  have hnot : (~~~BitVec.ofInt 16 r.count).toInt = -1 - (BitVec.ofInt 16 r.count).toInt := by
    rw [BitVec.toInt_eq_toNat_cond, BitVec.toInt_eq_toNat_cond, BitVec.toNat_not]
    omega
  rw [← hcount]
  exact hnot

theorem sumB_eq (ms : List Move1) (r : Sec) (hlo : -32768 ≤ r.count) (hhi : r.count ≤ 32767) :
    sumB ms (codeB r) = movedCount ms r := by
  rw [sumB, codeB_count r hlo hhi, netDelta, netDelta_foldl, movedCount]
  omega

/-! ### The causes of a commit (R132, R135) -/

/-- Cause k arises for a section of record r whose count comes to c. -/
def CauseArises (x : SecIn) (r : Sec) (c : Int) (k : Nat) : Prop :=
  (k = 0x01 ∧ x.failing = true) ∨ (k = 0x03 ∧ x.first = true) ∨ (x.first = false ∧
    (k = 0x04 ∧ x.late = true ∨ k = 0x05 ∧ (x.entered = true ∨ x.bad = true ∧ r.state ≠ .disturbed) ∨
     k = 0x06 ∧ r.state ≠ .disturbed ∧ c < 0 ∨ k = 0x07 ∧ r.state ≠ .disturbed ∧ 32767 < c))

theorem mem_causesOf (x : SecIn) (r : Sec) (c : Int) (k : Nat) :
    k ∈ causesOf x (r.state == .disturbed) c ↔ CauseArises x r c k := by
  unfold causesOf CauseArises
  cases x.first
  · simp [List.mem_ite_nil_right, and_comm (a := k = _)]
  · cases x.failing <;> simp

/-- The lowest of a list of causes is the one that none undercuts. -/
theorem lowest_eq (l : List Nat) (k : Nat) (hk : k ∈ l) (hmin : ∀ j ∈ l, k ≤ j) (hle : k ≤ 0xFF) : lowest l = k := by
  rw [lowest, List.foldl_min, List.min?_eq_some_iff.mpr ⟨hk, hmin⟩, Option.getD_some, Nat.min_eq_right hle]

/-- SEC_FLT bits of a cause (R145). -/
def causeBits (k : Nat) : List Nat :=
  if k = 1 then [7] else if k = 4 then [4] else if k = 5 then [3] else if k = 6 then [1] else
    if k = 7 then [2] else if k = 8 then [5] else if k = 9 then [9] else []

theorem CauseArises.lt {x : SecIn} {r : Sec} {c : Int} {k : Nat} (h : CauseArises x r c k) : k ≠ 2 ∧ k < 8 := by
  unfold CauseArises at h
  omega

theorem secCauseBit_iff (k b : Nat) (hk : k ≠ 2 ∧ k < 8) : secCauseBit k = some b ↔ b ∈ causeBits k := by
  obtain ⟨hne, hlt⟩ := hk
  interval_cases k <;> simp_all [secCauseBit, causeBits, eq_comm]

/-- The bits of the causes that arise (R133, R145). -/
theorem mem_causesOf_bits (x : SecIn) (r : Sec) (c : Int) (b : Nat) :
    b ∈ 0 :: (causesOf x (r.state == .disturbed) c).filterMap secCauseBit ↔
      b = 0 ∨ ∃ k, CauseArises x r c k ∧ b ∈ causeBits k := by
  rw [List.mem_cons, List.mem_filterMap]
  refine or_congr_right (exists_congr fun k => ?_)
  rw [mem_causesOf]
  exact and_congr_right fun h => secCauseBit_iff k b h.lt

/-! ### The outcomes of the derivation (R121, R133 to R135, R154) -/

/-- A section's count as its register holds it (R128). -/
def heldCount (c : Int) : Int := max (-32768) (min 32767 c)

/-- The record with the count and the lists of a commit (R127, R119). -/
def movedRec (x : SecIn) (c : Int) (r : Sec) : Sec := { appendLists x.moves r with count := heldCount c, prov := false }

/-- The record of a section that goes to DISTURBED with cause k (R133, R134). -/
def disturbedRec (x : SecIn) (c : Int) (k : Nat) (r : Sec) : Sec :=
  { r with
    state := .disturbed, cause := k, gen := if r.gen = 0xFFFF ∨ 0xFFFF < r.gen then 1 else r.gen + 1, count := heldCount c
    dland := x.land, ep := none, hint := some .empty, wasClear := (r.state == .clear), prov := false, sweepLive := false }

theorem succGen_eq (g : Nat) : succGen g = if g = 0xFFFF ∨ 0xFFFF < g then 1 else g + 1 := by
  unfold succGen
  congr 1
  simp only [eq_iff_iff]
  omega

theorem disturb_movedRec (x : SecIn) (c : Int) (r : Sec) (l : List Nat) (k : Nat) (hk : k ∈ l) (hmin : ∀ j ∈ l, k ≤ j)
    (hle : k ≤ 0xFF) :
    disturb x.land l (movedRec x c r) = (disturbedRec x c k r, 0 :: l.filterMap secCauseBit) := by
  unfold disturb
  rw [lowest_eq l k hk hmin hle]
  simp only [movedRec, appendLists, disturbedRec, succGen_eq]

section Derive
variable (x : SecIn) (c : Int) (r : Sec)

theorem causesOf_eq_nil (h : ∀ k, ¬CauseArises x r c k) : causesOf x (r.state == .disturbed) c = [] :=
  List.eq_nil_iff_forall_not_mem.mpr fun k hk => h k ((mem_causesOf x r c k).mp hk)

theorem derive_failed (h : x.failed = true) : derive x c r = (movedRec x c r, []) := by
  simp only [derive, h, if_true]
  rfl

/-- Where a cause arises the lowest of them is recorded, with the bits of all (R133). -/
theorem derive_disturbs (hok : x.failed = false) (k : Nat) (hk : CauseArises x r c k)
    (hmin : ∀ j, CauseArises x r c j → k ≤ j) : derive x c r =
      (disturbedRec x c k r, 0 :: (causesOf x (r.state == .disturbed) c).filterMap secCauseBit) := by
  have hmem := (mem_causesOf x r c k).mpr hk
  have hne : (causesOf x (r.state == .disturbed) c).isEmpty = false := by
    rw [List.isEmpty_eq_false_iff]
    exact List.ne_nil_of_mem hmem
  rw [← disturb_movedRec x c r _ k hmem (fun j hj => hmin j ((mem_causesOf x r c j).mp hj)) (by have := hk.lt; omega)]
  simp only [derive, hok]
  rw [show (appendLists x.moves r).state = r.state from rfl, hne]
  rfl

/-- Where none arises the section's state decides (R135). -/
theorem derive_calm (hok : x.failed = false) (hcalm : ∀ k, ¬CauseArises x r c k) : derive x c r =
    match r.state with
    | .disturbed => (movedRec x c r, [])
    | .sweepPending => sweepStep x (movedRec x c r)
    | .unconfigured => (movedRec x c r, [])
    | _ =>
      if x.active || 0 < heldCount c then
        ({ movedRec x c r with
            state := .occupied, prov := x.active && decide (heldCount c ≤ 0), cause := 0
            ep := some ((appendLists x.moves r).ep.getD .empty) }, [])
      else clearOr cPattern x (movedRec x c r) := by
  simp only [derive, hok]
  rw [show (appendLists x.moves r).state = r.state from rfl, causesOf_eq_nil x c r hcalm]
  rfl

/-- A section that is not DISTURBED and for which no cause arises has a count that its register holds. -/
theorem calm_count (hcalm : ∀ k, ¬CauseArises x r c k) (hst : r.state ≠ .disturbed) : 0 ≤ c ∧ heldCount c = c := by
  have hfirst : x.first = false := Bool.eq_false_iff.mpr fun h => hcalm 0x03 (.inr (.inl ⟨rfl, h⟩))
  have hunder : ¬c < 0 := fun h => hcalm 0x06 (.inr (.inr ⟨hfirst, .inr (.inr (.inl ⟨rfl, hst, h⟩))⟩))
  have hover : ¬32767 < c := fun h => hcalm 0x07 (.inr (.inr ⟨hfirst, .inr (.inr (.inr ⟨rfl, hst, h⟩))⟩))
  unfold heldCount
  omega

/-- The episode that a commit leaves open for a section, an empty one where it leaves none (R119). -/
def openEp : Episode := (appendLists x.moves r).ep.getD .empty

theorem derive_occupies (hok : x.failed = false) (hcalm : ∀ k, ¬CauseArises x r c k)
    (hst : r.state = .clear ∨ r.state = .occupied) (hbusy : 0 < c ∨ x.active = true) : derive x c r =
      ({ movedRec x c r with
          state := .occupied, prov := x.active && decide (c ≤ 0), cause := 0, ep := some (openEp x r) }, []) := by
  have hne : r.state ≠ .disturbed := by rcases hst with h | h <;> simp [h]
  obtain ⟨-, hheld⟩ := calm_count x c r hcalm hne
  have hcond : (x.active || decide (0 < c)) = true := by simpa using hbusy.symm
  rw [derive_calm x c r hok hcalm, hheld]
  rcases hst with h | h <;> simp only [h, hcond, if_true, openEp]

theorem derive_clears (hok : x.failed = false) (hcalm : ∀ k, ¬CauseArises x r c k)
    (hst : r.state = .clear ∨ r.state = .occupied) (hzero : c = 0) (hidle : x.active = false) :
    derive x c r = clearOr cPattern x (movedRec x c r) := by
  have hheld : ¬0 < heldCount c := by rw [hzero]; decide
  rw [derive_calm x c r hok hcalm]
  rcases hst with h | h <;> simp [h, hidle, hheld]

theorem derive_sweeps (hok : x.failed = false) (hcalm : ∀ k, ¬CauseArises x r c k) (hst : r.state = .sweepPending) :
    derive x c r = sweepStep x (movedRec x c r) := by
  rw [derive_calm x c r hok hcalm]
  simp only [hst]

end Derive

/-- Pattern verification finds that the axles that left are not those that entered (R120, R121). -/
def PatternFails (x : SecIn) (ep : Episode) : Prop :=
  x.pvc = true ∧ ep.overflow = false ∧ ep.unverified = false ∧ ¬Verified x ep

section ClearOr
variable (k : Nat) (x : SecIn) (r : Sec)

theorem clearOr_fails (h : PatternFails x (r.ep.getD .empty)) : clearOr k x r = disturb x.land [k] r := by
  obtain ⟨hpvc, hover, hunver, hver⟩ := h
  have husable := (epUsable_iff _).mpr ⟨hover, hunver⟩
  have hmatch : listsMatch x.tolAbs x.tolRel (r.ep.getD .empty) = false :=
    Bool.eq_false_iff.mpr fun h => hver ((listsMatch_iff x _).mp h)
  simp [clearOr, hpvc, husable, hmatch]

theorem clearOr_grants (h : ¬PatternFails x (r.ep.getD .empty)) :
    clearOr k x r = grantClear (x.pvc && !epUsable (r.ep.getD .empty)) r := by
  unfold clearOr
  cases hpvc : x.pvc
  · simp
  · cases husable : epUsable (r.ep.getD .empty)
    · simp [husable]
    · obtain ⟨hover, hunver⟩ := (epUsable_iff _).mp husable
      have hver : Verified x (r.ep.getD .empty) := by_contra fun hv => h ⟨hpvc, hover, hunver, hv⟩
      simp [husable, (listsMatch_iff x _).mpr hver]

end ClearOr

/-- SEC_FLT.PATTERN_NC of a section that is CLEAR again with its episode not fit for verification (R121). -/
theorem pattern_nc (x : SecIn) (ep : Episode) [Decidable (x.pvc = true ∧ ¬(ep.overflow = false ∧ ep.unverified = false))]
    (r : Sec) : (grantClear (x.pvc && !epUsable ep) r).2 =
      if x.pvc = true ∧ ¬(ep.overflow = false ∧ ep.unverified = false) then [6] else [] := by
  simp only [grantClear, ← epUsable_iff]
  cases x.pvc <;> cases epUsable ep <;> simp

/-! ### Sweeps (R154) -/

/-- A wheel has been seen to come in, or to go out, since the sweep began. -/
def SeenIn (x : SecIn) (r : Sec) : Prop := r.swIn = true ∨ ∃ m ∈ x.moves, m.up = true
def SeenOut (x : SecIn) (r : Sec) : Prop := r.swOut = true ∨ ∃ m ∈ x.moves, m.up = false

/-- The record of a section that is swept, with what the commit has seen (R153, R154). -/
def sweptRec (x : SecIn) (c : Int) (r : Sec) : Sec :=
  { movedRec x c r with swIn := r.swIn || x.moves.any (·.up), swOut := r.swOut || x.moves.any (fun m => !m.up) }

theorem sweptRec_seen (x : SecIn) (c : Int) (r : Sec) :
    ((sweptRec x c r).swIn = true ↔ SeenIn x r) ∧ ((sweptRec x c r).swOut = true ↔ SeenOut x r) := by
  simp [sweptRec, SeenIn, SeenOut]

section Sweep
variable (x : SecIn) (c : Int) (r : Sec)

/-- The sweep of a section at a commit, by what it has seen (R154). -/
theorem sweepStep_movedRec [Decidable (r.sweepLive = true ∧ (x.tick - r.sweepAt).toNat ≤ x.sweepTmo)]
    [Decidable (x.active = false ∧ heldCount c = 0 ∧ SeenIn x r ∧ SeenOut x r)] : sweepStep x (movedRec x c r) =
      if r.sweepLive = true ∧ (x.tick - r.sweepAt).toNat ≤ x.sweepTmo then
        if x.active = false ∧ heldCount c = 0 ∧ SeenIn x r ∧ SeenOut x r then clearOr cSweep x (sweptRec x c r)
        else (sweptRec x c r, [])
      else disturb x.land [cSweep] (sweptRec x c r) := by
  obtain ⟨hin, hout⟩ := sweptRec_seen x c r
  have hlate : (!r.sweepLive || decide (x.sweepTmo < elapsed x.tick r.sweepAt)) = true ↔
      ¬(r.sweepLive = true ∧ (x.tick - r.sweepAt).toNat ≤ x.sweepTmo) := by
    rw [elapsed, Bool.or_eq_true, decide_eq_true_eq, not_and_or, Nat.not_le, Bool.not_eq_true', Bool.not_eq_true]
  have hgoes : (x.active || heldCount c != 0 || !(sweptRec x c r).swIn || !(sweptRec x c r).swOut) = true ↔
      ¬(x.active = false ∧ heldCount c = 0 ∧ SeenIn x r ∧ SeenOut x r) := by
    rw [← hin, ← hout]
    simp only [not_and_or, Bool.or_eq_true, bne_iff_ne, Bool.not_eq_true', Bool.not_eq_true, Bool.not_eq_false, or_assoc, ne_eq]
  show (if (!r.sweepLive || decide (x.sweepTmo < elapsed x.tick r.sweepAt)) = true then disturb x.land [cSweep] (sweptRec x c r)
    else if (x.active || heldCount c != 0 || !(sweptRec x c r).swIn || !(sweptRec x c r).swOut) = true then (sweptRec x c r, [])
    else clearOr cSweep x (sweptRec x c r)) = _
  simp only [hlate, hgoes, ite_not]

end Sweep

/-! ### The statement's clauses -/

section Clauses
variable (x : SecIn) (c : Int) (r : Sec)

/-- The clause of a CLEAR or OCCUPIED section with no axle and no active end (R120, R121, R135). -/
theorem derive_clears_spec (hok : x.failed = false) (hcalm : ∀ k, ¬CauseArises x r c k)
    (hst : r.state = .clear ∨ r.state = .occupied) (hzero : c = 0) (hidle : x.active = false)
    {_ : Decidable (PatternFails x (openEp x r))}
    {_ : Decidable (x.pvc = true ∧ ¬((openEp x r).overflow = false ∧ (openEp x r).unverified = false))} :
    let y := derive x c r
    if PatternFails x (openEp x r) then y.1 = disturbedRec x c cPattern r ∧ y.2 = 0 :: causeBits cPattern
    else y.1.state = .clear ∧ y.1.cause = 0 ∧ y.1.count = heldCount c ∧ y.1.gen = r.gen ∧ y.1.prov = false ∧ y.1.ep = none ∧
      y.1.hint = none ∧
      y.2 = if x.pvc = true ∧ ¬((openEp x r).overflow = false ∧ (openEp x r).unverified = false) then [6] else [] := by
  intro y
  have hy : y = clearOr cPattern x (movedRec x c r) := derive_clears x c r hok hcalm hst hzero hidle
  split
  case isTrue h =>
    rw [hy, clearOr_fails cPattern x (movedRec x c r) h, disturb_movedRec x c r [cPattern] cPattern (by simp) (by simp) (by decide)]
    exact ⟨rfl, rfl⟩
  case isFalse h =>
    rw [hy, clearOr_grants cPattern x (movedRec x c r) h, ← pattern_nc x (openEp x r) (movedRec x c r)]
    exact ⟨rfl, rfl, rfl, rfl, rfl, rfl, rfl, rfl⟩

/-- The clause of a sweep (R154). -/
theorem derive_sweeps_spec (hok : x.failed = false) (hcalm : ∀ k, ¬CauseArises x r c k) (hst : r.state = .sweepPending)
    {_ : Decidable (PatternFails x (openEp x r))}
    {_ : Decidable (x.pvc = true ∧ ¬((openEp x r).overflow = false ∧ (openEp x r).unverified = false))} :
    let y := derive x c r
    (¬(r.sweepLive = true ∧ (x.tick - r.sweepAt).toNat ≤ x.sweepTmo) →
      y.1.state = .disturbed ∧ y.1.cause = 0x09 ∧ y.1.gen = succGen r.gen ∧ y.1.count = c ∧ y.2 = [0, 9]) ∧
    (r.sweepLive = true → (x.tick - r.sweepAt).toNat ≤ x.sweepTmo →
      (x.active = true ∨ c ≠ 0 ∨ ¬SeenIn x r ∨ ¬SeenOut x r →
        y.1.state = .sweepPending ∧ y.1.count = c ∧ (y.1.swIn = true ↔ SeenIn x r) ∧ (y.1.swOut = true ↔ SeenOut x r) ∧
        y.1.hint = r.hint.map (appendAll x.moves) ∧ y.2 = []) ∧
      (x.active = false → c = 0 → SeenIn x r → SeenOut x r →
        if PatternFails x (openEp x r) then
          y.1.state = .disturbed ∧ y.1.cause = 0x09 ∧ y.1.gen = succGen r.gen ∧ y.2 = [0, 9]
        else y.1.state = .clear ∧ y.1.cause = 0 ∧ y.1.count = 0 ∧ y.1.gen = r.gen ∧
          y.2 = if x.pvc = true ∧ ¬((openEp x r).overflow = false ∧ (openEp x r).unverified = false) then [6] else [])) := by
  classical
  intro y
  obtain ⟨-, hheld⟩ := calm_count x c r hcalm (by simp [hst])
  obtain ⟨hin, hout⟩ := sweptRec_seen x c r
  have hy := (derive_sweeps x c r hok hcalm hst).trans (sweepStep_movedRec x c r)
  rw [hheld] at hy
  refine ⟨fun hlate => ?_, fun hlive htime => ⟨fun hgoes => ?_, fun hidle hzero hseenIn hseenOut => ?_⟩⟩
  · rw [show y = _ from hy, if_neg hlate]
    exact ⟨rfl, rfl, rfl, hheld, rfl⟩
  · rw [show y = _ from hy, if_pos ⟨hlive, htime⟩, if_neg (by
      rintro ⟨hidle, hzero, hseenIn, hseenOut⟩
      rcases hgoes with h | h | h | h
      · rw [hidle] at h
        cases h
      · exact h hzero
      · exact h hseenIn
      · exact h hseenOut)]
    exact ⟨hst, hheld, hin, hout, rfl, rfl⟩
  · rw [if_pos ⟨hlive, htime⟩, if_pos ⟨hidle, hzero, hseenIn, hseenOut⟩] at hy
    split
    case isTrue h =>
      rw [show y = _ from hy, clearOr_fails cSweep x (sweptRec x c r) h]
      exact ⟨rfl, rfl, rfl, rfl⟩
    case isFalse h =>
      rw [show y = _ from hy, clearOr_grants cSweep x (sweptRec x c r) h, ← pattern_nc x (openEp x r) (sweptRec x c r)]
      exact ⟨rfl, rfl, hheld.trans hzero, rfl, rfl⟩

end Clauses

/-- Settles O37: the sums of both arithmetics, and the derivation by its causes and the state of the section. -/
theorem sectionsDerived : Obligations.SectionsDerived := by
  unfold Obligations.SectionsDerived
  intro x r c
  refine ⟨sumA_eq x.moves r, sumB_eq x.moves r, derive_failed x c r, fun hok k hk hmin => ?_, fun hok hcalm => ⟨fun hst => ?_,
    fun hst => ⟨fun hbusy => ?_, fun hzero hidle => derive_clears_spec x c r hok hcalm hst hzero hidle⟩,
    fun hst => derive_sweeps_spec x c r hok hcalm hst⟩⟩
  · have hy := derive_disturbs x c r hok k hk hmin
    exact ⟨congrArg Prod.fst hy, fun b => by
      rw [show (derive x c r).2 = _ from congrArg Prod.snd hy]
      exact mem_causesOf_bits x r c b⟩
  · have hy : derive x c r = (movedRec x c r, []) := by
      rw [derive_calm x c r hok hcalm]
      simp only [hst]
    refine ⟨hy, ?_, ?_⟩
    · exact (congrArg (·.1.state) hy).trans hst
    · exact congrArg (·.1.hint) hy
  · have hy := derive_occupies x c r hok hcalm hst hbusy
    obtain ⟨hpos, hheld⟩ := calm_count x c r hcalm (by rcases hst with h | h <;> simp [h])
    refine ⟨congrArg (·.1.state) hy, (congrArg (·.1.count) hy).trans hheld, congrArg (·.1.cause) hy, congrArg (·.1.gen) hy, ?_,
      congrArg (·.1.ep) hy, congrArg Prod.snd hy⟩
    show (derive x c r).1.prov = true ↔ x.active = true ∧ c = 0
    rw [hy]
    simp
    omega

end Sys2Proof.Machine

/-! ## O54: what is written into host memory (R115 to R118, R277, R284 to R287, R291, R297, R298) -/

namespace Sys2Proof.Machine

/-! ### Runs of bytes in a memory -/

theorem memLoad_eq_map (m : Mem) (a n : Nat) : memLoad m a n = (List.range n).map fun i => memGet m (a + i) := by
  induction n generalizing a with
  | zero => rfl
  | succ n ih =>
    rw [memLoad, ih, List.range_succ_eq_map, List.map_cons, List.map_map]
    simp [Function.comp_def, Nat.add_assoc, Nat.add_comm 1]

@[simp] theorem length_memLoad (m : Mem) (a n : Nat) : (memLoad m a n).length = n := by simp [memLoad_eq_map]

theorem memLoad_append (m : Mem) (a n k : Nat) : memLoad m a (n + k) = memLoad m a n ++ memLoad m (a + n) k := by
  simp [memLoad_eq_map, List.range_add, Function.comp_def, Nat.add_assoc]

theorem memLoad_congr {m m' : Mem} {a n : Nat} (h : ∀ i < n, memGet m' (a + i) = memGet m (a + i)) :
    memLoad m' a n = memLoad m a n := by
  rw [memLoad_eq_map, memLoad_eq_map]
  exact List.map_congr_left fun i hi => h i (List.mem_range.mp hi)

/-- A memory holds a run of bytes from an address on. -/
def Holds (m : Mem) (a : Nat) (l : List Byte) : Prop := memLoad m a l.length = l

theorem holds_append {m : Mem} {a : Nat} {l r : List Byte} (h : Holds m a (l ++ r)) : Holds m a l ∧ Holds m (a + l.length) r := by
  rw [Holds, List.length_append, memLoad_append] at h
  exact List.append_inj h (length_memLoad m a l.length)

theorem Holds.left {m : Mem} {a : Nat} {l r : List Byte} (h : Holds m a (l ++ r)) : Holds m a l := (holds_append h).1

theorem Holds.right {m : Mem} {a : Nat} {l r : List Byte} (h : Holds m a (l ++ r)) : Holds m (a + l.length) r := (holds_append h).2

/-- A field of a run of bytes, read from the memory. -/
theorem Holds.memLE {m : Mem} {a : Nat} {l : List Byte} (h : Holds m a l) (off n : Nat) (hin : off + n ≤ l.length) :
    memLE m (a + off) n = fieldLE l off n := by
  have hcut : memLoad m (a + off) n = (l.drop off).take n := by
    obtain ⟨k, hk⟩ := Nat.exists_eq_add_of_le hin
    rw [← h, hk, Nat.add_assoc, memLoad_append, List.drop_left' (length_memLoad m a off), memLoad_append,
      List.take_left' (length_memLoad m (a + off) n)]
  have hfull : ((l.drop off).take n).length = n := by simp; omega
  rw [Machine.memLE, hcut, fieldLE, slice, hfull, Nat.sub_self, List.replicate_zero, List.append_nil]

/-- The length of a table of records of one width. -/
theorem length_table {f : Nat → List Byte} {w : Nat} (hlen : ∀ i, (f i).length = w) (n : Nat) :
    ((List.range n).flatMap f).length = w * n := by
  simp [List.length_flatMap, hlen, Nat.mul_comm]

/-- One of the records of a table that lies in a memory. -/
theorem Holds.record {m : Mem} {a n w : Nat} {f : Nat → List Byte} (h : Holds m a ((List.range n).flatMap f))
    (hlen : ∀ i, (f i).length = w) (i : Nat) (hi : i < n) : Holds m (a + w * i) (f i) := by
  obtain ⟨k, rfl⟩ := Nat.exists_eq_add_of_lt hi
  have hrange : (List.range (i + k + 1)).flatMap f =
      (List.range i).flatMap f ++ (f i ++ ((List.range k).map fun j => i + (j + 1)).flatMap f) := by
    rw [Nat.add_assoc, List.range_add, List.range_succ_eq_map, List.flatMap_append, List.map_cons, List.map_map,
      List.flatMap_cons]
    rfl
  rw [hrange] at h
  have := h.right.left
  rwa [length_table hlen] at this

/-- A field of zeros behind the end of a run. -/
theorem fieldLE_nil (off n : Nat) : fieldLE [] off n = 0 := by
  rw [fieldLE, slice, List.drop_nil, List.take_nil, List.length_nil, Nat.sub_zero, List.nil_append]
  induction n with
  | zero => rfl
  | succ n ih => rw [List.replicate_succ, leNat, ih]; rfl

theorem leNat_append (l r : List Byte) : leNat (l ++ r) = leNat l + 256 ^ l.length * leNat r := by
  induction l with
  | nil => simp [leNat]
  | cons b l ih => rw [List.cons_append, leNat, ih, leNat, List.length_cons, pow_succ]; ring

theorem leNat_zeros (n : Nat) : leNat (List.replicate n 0) = 0 := by
  induction n with
  | zero => rfl
  | succ n ih => rw [List.replicate_succ, leNat, ih]; rfl

/-- A field is the number of the bytes that are there: what is missing counts as zero. -/
theorem fieldLE_eq (l : List Byte) (off n : Nat) : fieldLE l off n = leNat ((l.drop off).take n) := by
  rw [fieldLE, slice, leNat_append, leNat_zeros, Nat.mul_zero, Nat.add_zero]

/-- A field inside a run of bytes that is filled up with zeros. -/
theorem fieldLE_padTo (w : Nat) (l : List Byte) (off n : Nat) (h : off + n ≤ w) : fieldLE (padTo w l) off n = fieldLE l off n := by
  rw [fieldLE_eq, fieldLE_eq, padTo, slice, List.drop_zero]
  by_cases hlen : w ≤ l.length
  · have hfull : (l.take w).length = w := by simp [hlen]
    rw [hfull, Nat.sub_self, List.replicate_zero, List.append_nil, List.drop_take, List.take_take, Nat.min_eq_left (by omega)]
  · have hall : l.take w = l := List.take_of_length_le (by omega)
    rw [hall, List.drop_append, List.take_append, leNat_append, List.drop_replicate,
      List.take_replicate, leNat_zeros, Nat.mul_zero, Nat.add_zero]

@[simp] theorem length_padTo (w : Nat) (l : List Byte) : (padTo w l).length = w := by
  simp [padTo, slice]

/-- What fits in a run that is filled up with zeros stands at its beginning. -/
theorem padTo_eq (w : Nat) (l : List Byte) (h : l.length ≤ w) : padTo w l = l ++ List.replicate (w - l.length) 0 := by
  rw [padTo, slice, List.drop_zero, List.take_of_length_le h]

@[simp] theorem length_zeros (n : Nat) : (zeros n).length = n := List.length_replicate

@[simp] theorem length_wordBytes (w : Word) : (wordBytes w).length = 4 := length_leBytes 4 w.toNat

theorem fieldLE_zeros (k off n : Nat) : fieldLE (zeros k) off n = 0 := by
  rw [fieldLE_eq, zeros, List.drop_replicate, List.take_replicate, leNat_zeros]

theorem fieldLE_word (w : Word) (l : List Byte) : fieldLE (wordBytes w ++ l) 0 4 = w.toNat := by
  rw [wordBytes, fieldLE_leBytes]
  exact Nat.mod_eq_of_lt w.isLt

theorem fieldLE_skipWord (w : Word) (l : List Byte) (off n : Nat) (h : 4 ≤ off) :
    fieldLE (wordBytes w ++ l) off n = fieldLE l (off - 4) n := fieldLE_skip 4 w.toNat l off n h

theorem fieldLE_leBytes_end (n x : Nat) : fieldLE (leBytes n x) 0 n = x % 256 ^ n := by
  rw [← List.append_nil (leBytes n x), fieldLE_leBytes]

theorem fieldLE_word_end (w : Word) : fieldLE (wordBytes w) 0 4 = w.toNat := by
  rw [← List.append_nil (wordBytes w), fieldLE_word]

theorem fieldLE_cons (b : Byte) (l : List Byte) (off n : Nat) (h : 1 ≤ off) :
    fieldLE (b :: l) off n = fieldLE l (off - 1) n := fieldLE_append [b] l off n h

theorem fieldLE_cons_zero (b : Byte) (l : List Byte) : fieldLE (b :: l) 0 1 = b.toNat := by
  rw [fieldLE_eq, List.drop_zero, List.take_succ_cons, List.take_zero, leNat_byte]

/-- The two bytes of a half word. -/
theorem fieldLE_two (b c : Byte) (l : List Byte) : fieldLE (b :: c :: l) 0 2 = b.toNat + 256 * c.toNat := by
  rw [fieldLE_eq, List.drop_zero, List.take_succ_cons, List.take_succ_cons, List.take_zero, leNat, leNat_byte]

/-! ### Stores into a memory -/

theorem memGet_memStore_in (m : Mem) (a : Nat) (l : List Byte) (i : Nat) (h : i < l.length) :
    memGet (memStore m a l) (a + i) = l.getD i 0 := by
  rw [memGet_memStore, if_pos (Nat.le_add_right a i), Nat.add_sub_cancel_left, List.getD_eq_getElem _ _ h,
    List.getD_eq_getElem _ _ h]

theorem memGet_memStore_out (m : Mem) (a : Nat) (l : List Byte) (b : Nat) (h : ¬(a ≤ b ∧ b < a + l.length)) :
    memGet (memStore m a l) b = memGet m b := by
  rw [memGet_memStore]
  split
  · exact List.getD_eq_default _ _ (by omega)
  · rfl

theorem holds_memStore (m : Mem) (a : Nat) (l : List Byte) : Holds (memStore m a l) a l := by
  rw [Holds, memLoad_eq_map]
  refine List.ext_getElem (by simp) fun i hi _ => ?_
  have hlt : i < l.length := by simpa using hi
  rw [List.getElem_map, List.getElem_range, memGet_memStore_in m a l i hlt, List.getD_eq_getElem _ _ hlt]

/-- Stores one behind the other are the store of the whole. -/
theorem memStore_append (m : Mem) (a : Nat) (l r : List Byte) :
    memStore (memStore m a l) (a + l.length) r = memStore m a (l ++ r) := by
  induction l generalizing m a with
  | nil => rfl
  | cons b l ih =>
    rw [memStore, List.cons_append, memStore, ← ih, List.length_cons]
    congr 1
    omega

/-- The stores of a list of runs, in its order. -/
def storeAll (l : List (Nat × List Byte)) (m : Mem) : Mem := l.foldl (fun m x => memStore m x.1 x.2) m

/-- An address lies in a run. -/
def Covers (x : Nat × List Byte) (a : Nat) : Prop := x.1 ≤ a ∧ a < x.1 + x.2.length

/-- Two runs have no address in common. -/
def Apart (x y : Nat × List Byte) : Prop := ∀ a, ¬(Covers x a ∧ Covers y a)

theorem memGet_storeAll_out (l : List (Nat × List Byte)) (m : Mem) (a : Nat) (h : ∀ x ∈ l, ¬Covers x a) :
    memGet (storeAll l m) a = memGet m a := by
  induction l generalizing m with
  | nil => rfl
  | cons x l ih =>
    rw [storeAll, List.foldl_cons, ← storeAll, ih _ fun y hy => h y (List.mem_cons_of_mem x hy),
      memGet_memStore_out m _ _ _ (h x List.mem_cons_self)]

/-- A run is held once it is stored and no later run touches it. -/
theorem holds_storeAll_later (l r : List (Nat × List Byte)) (x : Nat × List Byte) (m : Mem) (h : ∀ y ∈ r, Apart x y) :
    Holds (storeAll (l ++ x :: r) m) x.1 x.2 := by
  have hsplit : storeAll (l ++ x :: r) m = storeAll r (memStore (storeAll l m) x.1 x.2) := by
    rw [storeAll, List.foldl_append, List.foldl_cons]
    rfl
  rw [hsplit]
  refine (memLoad_congr fun i hi => ?_).trans (holds_memStore (storeAll l m) x.1 x.2)
  exact memGet_storeAll_out r _ _ fun y hy hcov => h y hy (x.1 + i) ⟨⟨by omega, by omega⟩, hcov⟩

/-- Each of several runs that are apart is held once all are stored. -/
theorem holds_storeAll (l : List (Nat × List Byte)) (m : Mem) (h : l.Pairwise Apart) (x : Nat × List Byte) (hx : x ∈ l) :
    Holds (storeAll l m) x.1 x.2 := by
  obtain ⟨a, b, rfl⟩ := List.append_of_mem hx
  obtain ⟨-, hb, -⟩ := List.pairwise_append.mp h
  exact holds_storeAll_later a b x m (List.pairwise_cons.mp hb).1

/-! ### What a port writes (R19, R277) -/

theorem writesOf_spec (k : Nat) (hk : 0 < k) (n a : Nat) (l : List Byte) (hn : l.length ≤ n) (m : Mem) :
    storeAll (writesOf k n a l) m = memStore m a l := by
  induction n generalizing a l m with
  | zero =>
    rw [List.eq_nil_of_length_eq_zero (Nat.le_zero.mp hn)]
    rfl
  | succ n ih =>
    unfold writesOf
    cases hl : l.isEmpty
    · have hpos : 0 < l.length := List.length_pos_iff.mpr (List.isEmpty_eq_false_iff.mp hl)
      have hcut : 0 < min k (4096 - a % 4096) := by omega
      simp only [Bool.false_eq_true, if_false]
      generalize min k (4096 - a % 4096) = c at hcut
      rw [storeAll, List.foldl_cons, ← storeAll, ih _ _ (by simp; omega)]
      by_cases hc : c ≤ l.length
      · have hlen : (l.take c).length = c := by simp [hc]
        conv_lhs => rw [← hlen]
        rw [hlen, ← List.take_append_drop c l, ← memStore_append, List.take_append_drop, hlen]
      · rw [List.drop_of_length_le (by omega), List.take_of_length_le (by omega)]
        rfl
    · rw [List.isEmpty_iff.mp hl]
      rfl

/-- A port whose host memory has taken the stores of a list. -/
def stored (l : List (Nat × List Byte)) (h : PortSt) : PortSt := { h with host := storeAll l h.host }

theorem stored_host (l : List (Nat × List Byte)) (h : PortSt) : (stored l h).host = storeAll l h.host := rfl

theorem stored_stored (l r : List (Nat × List Byte)) (h : PortSt) : stored r (stored l h) = stored (l ++ r) h := by
  simp [stored, storeAll]

/-- A write of a port with nothing under way is in host memory at once. -/
theorem foldl_sendTx (l : List (Nat × List Byte)) (h : PortSt) (hfifo : h.txFifo = []) :
    l.foldl (fun h w => sendTx (pushTx w h)) h = stored l h := by
  induction l generalizing h with
  | nil => rfl
  | cons w l ih =>
    have hone : sendTx (pushTx w h) = stored [w] h := by
      simp [sendTx, pushTx, hfifo, stored, storeAll]
    rw [List.foldl_cons, hone, ih (stored [w] h) hfifo, stored_stored, List.singleton_append]

theorem putHost_eq (base : BitVec 64) (off : Nat) (l : List Byte) (h : PortSt) (hfifo : h.txFifo = [])
    (hroom : base.toNat + off < 2 ^ 64) : putHost base off l h = stored [(base.toNat + off, l)] h := by
  have hpay : 0 < payload h := by unfold payload; split <;> decide
  rw [putHost, foldl_sendTx _ h hfifo, stored, writesOf_spec _ hpay _ _ _ le_rfl, Nat.mod_eq_of_lt hroom]
  rfl

end Sys2Proof.Machine

namespace Sys2Proof.Machine

/-! ### The records of a landing image (R285 to R287) -/

theorem modeCode_lt (m : Mode) : modeCode m < 256 := by cases m <;> decide

/-- The fields of the device block (R286). -/
theorem deviceBlock_fields (p : HostId) (s : State) :
    fieldLE (deviceBlock p s) 0 2 = modeCode s.dev.mode ∧ fieldLE (deviceBlock p s) 2 2 = countState .ready s % 65536 ∧
      fieldLE (deviceBlock p s) 4 4 = s.bell.stat.toNat ∧ fieldLE (deviceBlock p s) 8 4 = (chkStat s).toNat ∧
      fieldLE (deviceBlock p s) 12 4 = (fltSumOf p s).toNat ∧ fieldLE (deviceBlock p s) 16 4 = (paramStat s).toNat ∧
      fieldLE (deviceBlock p s) 20 4 = (hostOf p s).wrDrop % 2 ^ 32 ∧
      fieldLE (deviceBlock p s) 24 1 = s.sup.forces.length % 256 := by
  have hmode : (BitVec.ofNat 8 (modeCode s.dev.mode)).toNat = modeCode s.dev.mode := Nat.mod_eq_of_lt (modeCode_lt s.dev.mode)
  simp [deviceBlock, fieldLE_padTo, fieldLE_two, fieldLE_cons, fieldLE_skip, fieldLE_skipWord, fieldLE_leBytes, fieldLE_word,
    fieldLE_leBytes_end,
    hmode]

theorem length_deviceBlock (p : HostId) (s : State) : (deviceBlock p s).length = 64 := length_padTo 64 _

theorem length_groupRecord (g : Nat) (s : State) : (groupRecord g s).length = 16 := length_padTo 16 _

/-- The fields of a stop group's record (R286). -/
theorem groupRecord_fields (g : Nat) (s : State) :
    fieldLE (groupRecord g s) 0 4 = (grpOf g s).tickStat.toNat ∧
      fieldLE (groupRecord g s) 4 4 = (BitVec.ofInt 32 (grpOf g s).speed).toNat ∧
      fieldLE (groupRecord g s) 8 2 = (fltReg clsSg g s).toNat % 65536 ∧
      fieldLE (groupRecord g s) 10 2 = (grpOf g s).ss1Land.toNat % 65536 := by
  simp [groupRecord, fieldLE_padTo, fieldLE_skip, fieldLE_skipWord, fieldLE_leBytes, fieldLE_word, fieldLE_leBytes_end]

section SectionRecord
variable (n : Nat) (s : State)

theorem length_sectionRecord : (sectionRecord n s).length = 8 := by
  unfold sectionRecord
  split <;> simp

theorem sectionRecord_unconfigured (h : (shownSec n s).state = .unconfigured) : sectionRecord n s = zeros 8 := by
  rw [sectionRecord, if_pos (by rw [h]; rfl)]

/-- The generation and the last change of a section's record, forced or not (R142, R296). -/
theorem sectionRecord_tail (h : (shownSec n s).state ≠ .unconfigured) :
    fieldLE (sectionRecord n s) 4 2 = (shownSec n s).gen % 65536 ∧
      fieldLE (sectionRecord n s) 6 2 = (shownSec n s).chg.toNat % 65536 := by
  rw [sectionRecord, if_neg (by simpa using h)]
  simp [fieldLE_cons, fieldLE_skip, fieldLE_leBytes, fieldLE_leBytes_end]

/-- State, flags and count of a section that no force covers (R142). -/
theorem sectionRecord_free (h : (shownSec n s).state ≠ .unconfigured) (hfree : s.sup.forces.find? (fun f => f.1 == n) = none) :
    fieldLE (sectionRecord n s) 0 1 = secCode (shownSec n s).state % 256 ∧
      fieldLE (sectionRecord n s) 1 1 = secFlags n s % 256 ∧
      fieldLE (sectionRecord n s) 2 2 = (BitVec.ofInt 16 (shownSec n s).count).toNat := by
  rw [sectionRecord, if_neg (by simpa using h)]
  simp [hfree, b2n, i16, fieldLE_cons, fieldLE_cons_zero, fieldLE_leBytes]
  omega

/-- State, flags and count of a forced section (R296). -/
theorem sectionRecord_forced (h : (shownSec n s).state ≠ .unconfigured) (f : Nat × Byte × BitVec 16)
    (hforce : s.sup.forces.find? (fun f => f.1 == n) = some f) :
    fieldLE (sectionRecord n s) 0 1 = f.2.1.toNat ∧ fieldLE (sectionRecord n s) 1 1 = (secFlags n s + 128) % 256 ∧
      fieldLE (sectionRecord n s) 2 2 = f.2.2.toNat := by
  rw [sectionRecord, if_neg (by simpa using h)]
  simpa [hforce, b2n, fieldLE_cons, fieldLE_cons_zero, fieldLE_leBytes] using f.2.2.isLt

end SectionRecord

section HeadRecord
variable (n : Nat) (s : State)

theorem length_headRecord : (headRecord n s).length = 8 := by
  unfold headRecord
  split <;> simp

theorem headRecord_unconfigured (h : headConfigured n s = false) : headRecord n s = zeros 8 := by
  rw [headRecord, if_pos (by rw [h]; rfl)]

/-- The fields of a configured head's record (R287). -/
theorem headRecord_fields (h : headConfigured n s ≠ false) :
    fieldLE (headRecord n s) 0 2 = (headStat n s).toNat % 65536 ∧
      fieldLE (headRecord n s) 2 2 = (headOf n s).engine % 65536 ∧
      fieldLE (headRecord n s) 4 4 = (headPass n s).toNat := by
  have hstat : (headStat n s).toNat % 256 + 256 * ((headStat n s).toNat / 256 % 256) = (headStat n s).toNat % 65536 := by omega
  rw [headRecord, if_neg (by simpa using h)]
  simp [fieldLE_two, fieldLE_cons, fieldLE_skip, fieldLE_leBytes, fieldLE_word_end, Nat.shiftRight_eq_div_pow, hstat]

end HeadRecord

/-! ### The first part of an image in host memory (R284, R286, R287) -/

/-- Host memory holds the first part of an image whose buffer lies at b: the device block, the stop groups, the sections and the
heads of state s. -/
def HoldsImage (p : HostId) (s : State) (m : Mem) (b : Nat) : Prop :=
  Holds m (b + 0x40) (imageLow p s) ∧ Holds m (b + 0x1000) (imageHigh s)

section Image
variable {p : HostId} {s : State} {m : Mem} {b : Nat} (h : HoldsImage p s m b)
include h

theorem HoldsImage.device : Holds m (b + 0x40) (deviceBlock p s) := h.1.left.left

theorem HoldsImage.group (g : Nat) (hg : g < 16) : Holds m (b + 0x80 + 16 * g) (groupRecord g s) := by
  have hgroups := h.1.left.right
  rw [length_deviceBlock] at hgroups
  exact hgroups.record (fun i => length_groupRecord i s) g hg

theorem HoldsImage.sec (n : Nat) (hn : n < 512) : Holds m (b + 0x1000 + 8 * n) (sectionRecord n s) :=
  h.2.left.record (fun i => length_sectionRecord i s) n hn

theorem HoldsImage.head (n : Nat) (hn : n < 512) : Holds m (b + 0x2000 + 8 * n) (headRecord n s) := by
  have hheads := h.2.right
  rw [length_table fun i => length_sectionRecord i s] at hheads
  exact hheads.record (fun i => length_headRecord i s) n hn

end Image

end Sys2Proof.Machine

namespace Sys2Proof.Machine

/-! ### Publication at a commit (R283, R284, R301) -/

/-- A state whose ports, shown registers and second supervisor's memories have changed. -/
def rehosted (ha hb : PortSt) (shown : Tab Word) (b : SupMem) (oa ob : OutBlock) (s : State) : State :=
  { s with ha := ha, hb := hb, shown := shown, sup := { s.sup with b := b, outA := oa, outB := ob } }

section Rehosted
variable (ha hb : PortSt) (shown : Tab Word) (b : SupMem) (oa ob : OutBlock) (p : HostId) (s : State)

/-- An image shows nothing of a port but the records it has dropped. -/
theorem imageLow_rehosted (h : (hostOf p (rehosted ha hb shown b oa ob s)).wrDrop = (hostOf p s).wrDrop) :
    imageLow p (rehosted ha hb shown b oa ob s) = imageLow p s := by
  simp only [imageLow, deviceBlock, h]
  rfl

theorem imageHigh_rehosted : imageHigh (rehosted ha hb shown b oa ob s) = imageHigh s := rfl

end Rehosted

theorem setHost_eq_rehosted (p : HostId) (h : PortSt) (s : State) :
    setHost p h s = rehosted (hostOf .ha (setHost p h s)) (hostOf .hb (setHost p h s)) s.shown s.sup.b s.sup.outA s.sup.outB s := by
  cases p <;> rfl

theorem imageLow_setHost (p q : HostId) (h : PortSt) (s : State) (hw : h.wrDrop = (hostOf q s).wrDrop) :
    imageLow p (setHost q h s) = imageLow p s := by
  rw [setHost_eq_rehosted]
  refine imageLow_rehosted _ _ _ _ _ _ p s ?_
  rw [← setHost_eq_rehosted, hostOf_setHost]
  split
  · rename_i hp
    rw [hp, hw]
  · rfl

theorem imageHigh_setHost (q : HostId) (h : PortSt) (s : State) : imageHigh (setHost q h s) = imageHigh s := by
  rw [setHost_eq_rehosted, imageHigh_rehosted]

theorem hostUp_setHost (p q : HostId) (h : PortSt) (s : State) (hl : h.link = (hostOf q s).link) :
    hostUp p (setHost q h s) = hostUp p s := by
  cases p <;> cases q <;> simp_all [hostUp, hostOf, setHost, domOn, domOf]

/-- A port as a commit leaves it: its schedule moved on, the enables and addresses taken, and where it publishes the first part
of the image written. -/
def bodyPort (p : HostId) (s : State) : PortSt :=
  let h := openPub (schedule (hostOf p s))
  if h.publish && imgEn h && hostUp p s then
    putHost h.pubImg (imageOff h + 0x1000) (imageHigh s)
      (putHost h.pubImg (imageOff h + 0x40) (imageLow p s) { h with body := true })
  else { h with body := false }

/-- The fields of a port that its schedule leaves as they are. -/
theorem openPub_schedule_keeps (h : PortSt) : (openPub (schedule h)).wrDrop = h.wrDrop ∧ (openPub (schedule h)).link = h.link ∧
    (openPub (schedule h)).ctl = h.ctl ∧ (openPub (schedule h)).txFifo = h.txFifo := by
  unfold openPub schedule
  split <;> exact ⟨rfl, rfl, rfl, rfl⟩

theorem publishCommit_eq (p : HostId) (s : State) : publishCommit p s = setHost p (bodyPort p s) s := by
  obtain ⟨hw, hl, -, -⟩ := openPub_schedule_keeps (hostOf p s)
  unfold publishCommit bodyPort
  simp only [modHost, hostOf_setHost, if_true, hostUp_setHost p p _ s hl]
  split
  · rw [writeBody]
    simp only [modHost, hostOf_setHost, if_true, setHost_setHost, imageHigh_setHost]
    rw [imageLow_setHost p p { openPub (schedule (hostOf p s)) with body := true } s hw]
    rfl
  · rw [setHost_setHost]

/-- Writes change host memory alone, and a write leaves the FIFO as long as it was. -/
theorem putHost_keeps (base : BitVec 64) (off : Nat) (l : List Byte) (h : PortSt) :
    ∃ t m, putHost base off l h = { h with txFifo := t, host := m } ∧ t.length = h.txFifo.length := by
  unfold putHost
  induction writesOf (payload h) l.length ((base.toNat + off) % 2 ^ 64) l generalizing h with
  | nil => exact ⟨h.txFifo, h.host, rfl, rfl⟩
  | cons w ws ih =>
    obtain ⟨t, m, hone, hlen⟩ : ∃ t m, sendTx (pushTx w h) = { h with txFifo := t, host := m } ∧ t.length = h.txFifo.length := by
      unfold sendTx pushTx
      cases h.txFifo with
      | nil => exact ⟨[], _, rfl, rfl⟩
      | cons v vs => exact ⟨vs ++ [w], _, rfl, by simp⟩
    obtain ⟨t', m', hrest, hlen'⟩ := ih { h with txFifo := t, host := m }
    rw [List.foldl_cons, hone]
    exact ⟨t', m', hrest, hlen'.trans hlen⟩

/-- What a commit leaves of a port but for what it has written and whether it has written. -/
theorem bodyPort_keeps (p : HostId) (s : State) :
    ∃ t m b, bodyPort p s = { openPub (schedule (hostOf p s)) with txFifo := t, host := m, body := b } ∧
      t.length = (hostOf p s).txFifo.length ∧
      b = ((openPub (schedule (hostOf p s))).publish && imgEn (hostOf p s) && hostUp p s) := by
  obtain ⟨-, -, hctl, hfifo⟩ := openPub_schedule_keeps (hostOf p s)
  have hen : imgEn (hostOf p s) = imgEn (openPub (schedule (hostOf p s))) := by rw [imgEn, imgEn, hctl]
  rw [hen, ← hfifo]
  unfold bodyPort
  generalize openPub (schedule (hostOf p s)) = h
  dsimp only
  split
  · rename_i hpub
    obtain ⟨t, m, hlow, hlen⟩ := putHost_keeps h.pubImg (imageOff h + 0x40) (imageLow p s) { h with body := true }
    obtain ⟨t', m', hhigh, hlen'⟩ :=
      putHost_keeps h.pubImg (imageOff h + 0x1000) (imageHigh s) { h with txFifo := t, host := m, body := true }
    exact ⟨t', m', true, by rw [← hhigh, ← hlow], hlen'.trans hlen, hpub.symm⟩
  · rename_i hpub
    exact ⟨h.txFifo, h.host, false, rfl, rfl, (Bool.eq_false_iff.mpr hpub).symm⟩

theorem bodyPort_setHost_other (s : State) (h : PortSt) (hl : h.link = (hostOf .ha s).link) (hw : h.wrDrop = (hostOf .ha s).wrDrop) :
    bodyPort .hb (setHost .ha h s) = bodyPort .hb s := by
  unfold bodyPort
  rw [imageLow_setHost .hb .ha h s hw, imageHigh_setHost, hostUp_setHost .hb .ha h s hl]
  rfl

/-- Each port publishes what the commit shows, whichever is first. -/
theorem publishCommit_both (s : State) :
    publishCommit .hb (publishCommit .ha s) = { s with ha := bodyPort .ha s, hb := bodyPort .hb s } := by
  obtain ⟨t, m, b, hport, -, -⟩ := bodyPort_keeps .ha s
  obtain ⟨hw, hl, -, -⟩ := openPub_schedule_keeps (hostOf .ha s)
  rw [publishCommit_eq, publishCommit_eq,
    bodyPort_setHost_other s (bodyPort .ha s) (by rw [hport]; exact hl) (by rw [hport]; exact hw)]
  rfl

theorem leadRecords_mode (l : List WheelRec) (s : State) : (leadRecords l s).dev.mode = s.dev.mode := by
  unfold leadRecords
  split
  · unfold writeRecords
    dsimp only
    (repeat' split) <;> simp [raiseAt_keeps, stickyIf_keeps, modHost_keeps]
  · rfl

/-- The last step of a commit that has not met BOOT is the publication. -/
theorem commitRest_publishes (w : CommitIn) (mism : List Nat) (s0 : State) (r : State × List Nat)
    (h : (commitRest w mism s0 r).dev.mode ≠ .boot) :
    ∃ u, commitRest w mism s0 r = switchShown (publishCommit .hb (publishCommit .ha u)) := by
  unfold commitRest at h ⊢
  simp only at h ⊢
  split at h
  · rename_i hboot
    rw [leadRecords_mode] at h
    exact absurd (by simpa using hboot) h
  · rename_i hgoes
    rw [if_neg hgoes]
    exact ⟨_, rfl⟩

/-- What both supervisors leave at a commit (R233). -/
theorem commitBody_cases (w : CommitIn) (s : State) : ∃ mism s0 r a, a = commitRest w mism s0 r ∧
    ((commitBody w s = a ∧ a.dev.mode = .boot) ∨
      ∃ b oa ob, commitBody w s = { a with sup := { a.sup with b := b, outA := oa, outB := ob } }) := by
  unfold commitBody
  dsimp only
  split
  · rename_i hboot
    exact ⟨_, _, _, _, rfl, .inl ⟨rfl, by simpa using hboot⟩⟩
  · exact ⟨_, _, _, _, rfl, .inr ⟨_, _, _, rfl⟩⟩

theorem exec_commit (w : CommitIn) (d : Nat) (s : State) (h : CommitDue d s) : exec (.commit w) s = .next (commitBody w s) := by
  obtain ⟨hmode, hsafe, hclosing, hdrained, hphase, hdom⟩ := h
  have hsettled : settleDrain s = s := by
    have hdone : draining s = false := by rw [draining, hdrained]; simp
    simp [settleDrain, passDeadline, hdone, hdrained]
  have hready : commitReady s = true := by
    simp [commitReady, commits, inService, hmode, hsafe, hclosing, hdrained, hphase, hdom]
  show execCommit w s = _
  simp [execCommit, hsettled, hready]

/-- A commit that leaves the device in service publishes what it shows, as its last step. -/
theorem commitBody_publishes (w : CommitIn) (s : State) (h : (commitBody w s).dev.mode ≠ .boot) : ∃ u shown b oa ob,
    commitBody w s = rehosted (switchPort (bodyPort .ha u)) (switchPort (bodyPort .hb u)) shown b oa ob u := by
  obtain ⟨mism, s0, r, a, ha, ⟨hbody, hboot⟩ | ⟨b, oa, ob, hbody⟩⟩ := commitBody_cases w s
  · exact absurd (hbody ▸ hboot) h
  · rw [hbody] at h ⊢
    obtain ⟨u, hu⟩ := commitRest_publishes w mism s0 r (ha ▸ h)
    rw [← ha, publishCommit_both] at hu
    rw [hu]
    exact ⟨u, _, b, oa, ob, rfl⟩

theorem length_imageLow (p : HostId) (s : State) : (imageLow p s).length = 0x1C0 := by
  rw [imageLow, List.length_append, List.length_append, length_table fun i => length_groupRecord i s,
    length_deviceBlock, length_zeros]

theorem length_imageHigh (s : State) : (imageHigh s).length = 0x2000 := by
  rw [imageHigh, List.length_append, length_table fun i => length_sectionRecord i s, length_table fun i => length_headRecord i s]

/-- The buffer of a port's next image. -/
def bufferAt (h : PortSt) : Nat := h.pubImg.toNat + 0x4000 * ((h.imgSeq.toNat + 1) % 4)

/-- The first part of the image stands in its buffer once the commit has written it (R284). -/
theorem bodyPort_image (p : HostId) (s : State) (hbody : (bodyPort p s).body = true) (hfifo : (bodyPort p s).txFifo = [])
    (hroom : (bodyPort p s).pubImg.toNat + 0x10000 ≤ 2 ^ 64) :
    HoldsImage p s (bodyPort p s).host (bufferAt (bodyPort p s)) := by
  obtain ⟨t, m, b, hport, hlen, hb⟩ := bodyPort_keeps p s
  obtain ⟨-, -, hctl, hempty⟩ := openPub_schedule_keeps (hostOf p s)
  have hen : imgEn (hostOf p s) = imgEn (openPub (schedule (hostOf p s))) := by rw [imgEn, imgEn, hctl]
  rw [hport] at hbody hfifo hroom
  replace hfifo : (openPub (schedule (hostOf p s))).txFifo = [] := by
    rw [hempty, ← List.length_eq_zero_iff, ← hlen]
    exact List.length_eq_zero_iff.mpr hfifo
  rw [hb] at hbody
  rw [show bufferAt (bodyPort p s) = bufferAt (openPub (schedule (hostOf p s))) by rw [hport]; rfl]
  unfold bodyPort
  rw [hen] at hbody
  generalize openPub (schedule (hostOf p s)) = h at *
  dsimp only
  rw [if_pos hbody]
  replace hroom : h.pubImg.toNat + 0x10000 ≤ 2 ^ 64 := hroom
  have hmod : (h.imgSeq.toNat + 1) % 4 < 4 := Nat.mod_lt _ (by decide)
  have hstores : putHost h.pubImg (imageOff h + 0x1000) (imageHigh s)
      (putHost h.pubImg (imageOff h + 0x40) (imageLow p s) { h with body := true }) =
      stored [(bufferAt h + 0x40, imageLow p s), (bufferAt h + 0x1000, imageHigh s)] { h with body := true } := by
    rw [putHost_eq _ _ _ { h with body := true } hfifo (by unfold imageOff; omega),
      putHost_eq _ _ _ (stored _ { h with body := true }) hfifo (by unfold imageOff; omega), stored_stored, ← Nat.add_assoc,
      ← Nat.add_assoc]
    rfl
  have happart : [(bufferAt h + 0x40, imageLow p s), (bufferAt h + 0x1000, imageHigh s)].Pairwise Apart := by
    simp only [List.pairwise_cons, List.mem_singleton, forall_eq, List.not_mem_nil, false_implies, implies_true, List.Pairwise.nil,
      and_true, Apart, Covers, length_imageLow, length_imageHigh]
    omega
  rw [show ({ h with body := true } : PortSt).pubImg = h.pubImg from rfl, hstores, stored_host]
  have hlow := holds_storeAll _ h.host happart (bufferAt h + 0x40, imageLow p s) List.mem_cons_self
  have hhigh := holds_storeAll _ h.host happart (bufferAt h + 0x1000, imageHigh s) (List.mem_cons_of_mem _ List.mem_cons_self)
  exact ⟨hlow, hhigh⟩

end Sys2Proof.Machine

namespace Sys2Proof.Machine

/-! ### What a reader of the image's first part finds (R286, R287, R296) -/

section Shows
variable {p : HostId} {s : State} {m : Mem} {b : Nat} (h : HoldsImage p s m b)
include h

theorem HoldsImage.shows_device : let at_ := fun a n : Nat => memLE m (b + a) n
    at_ 0x40 2 = modeCode s.dev.mode ∧ at_ 0x42 2 = countState .ready s % 65536 ∧ at_ 0x44 4 = s.bell.stat.toNat ∧
      at_ 0x48 4 = (chkStat s).toNat ∧ at_ 0x4C 4 = (fltSumOf p s).toNat ∧ at_ 0x50 4 = (paramStat s).toNat ∧
      at_ 0x54 4 = (hostOf p s).wrDrop % 2 ^ 32 ∧ at_ 0x58 1 = s.sup.forces.length % 256 := by
  obtain ⟨f0, f2, f4, f8, f12, f16, f20, f24⟩ := deviceBlock_fields p s
  have field := fun off n hin => h.device.memLE off n ((length_deviceBlock p s).symm ▸ hin)
  exact ⟨(field 0 2 (by decide)).trans f0, (field 2 2 (by decide)).trans f2, (field 4 4 (by decide)).trans f4,
    (field 8 4 (by decide)).trans f8, (field 12 4 (by decide)).trans f12, (field 16 4 (by decide)).trans f16,
    (field 20 4 (by decide)).trans f20, (field 24 1 (by decide)).trans f24⟩

theorem HoldsImage.shows_group (g : Nat) (hg : g < 16) : let at_ := fun a n : Nat => memLE m (b + a) n
    at_ (0x80 + 16 * g) 4 = (grpOf g s).tickStat.toNat ∧
      at_ (0x84 + 16 * g) 4 = (BitVec.ofInt 32 (grpOf g s).speed).toNat ∧
      at_ (0x88 + 16 * g) 2 = (fltReg clsSg g s).toNat % 65536 ∧ at_ (0x8A + 16 * g) 2 = (grpOf g s).ss1Land.toNat % 65536 := by
  obtain ⟨f0, f4, f8, f10⟩ := groupRecord_fields g s
  have field := fun off n hin => (h.group g hg).memLE off n ((length_groupRecord g s).symm ▸ hin)
  have place : ∀ off, b + (0x80 + off + 16 * g) = b + 0x80 + 16 * g + off := fun off => by omega
  refine ⟨?_, ?_, ?_, ?_⟩
  · rw [← f0, ← field 0 4 (by decide), ← place]
  · rw [← f4, ← field 4 4 (by decide), ← place]
  · rw [← f8, ← field 8 2 (by decide), ← place]
  · rw [← f10, ← field 10 2 (by decide), ← place]

theorem HoldsImage.shows_section (n : Nat) (hn : n < 512) : let at_ := fun a n : Nat => memLE m (b + a) n
    let r := shownSec n s
    let a := 0x1000 + 8 * n
    (r.state = .unconfigured → at_ a 8 = 0) ∧
    (r.state ≠ .unconfigured → at_ (a + 4) 2 = r.gen % 65536 ∧ at_ (a + 6) 2 = r.chg.toNat % 65536 ∧
      (s.sup.forces.find? (fun f => f.1 == n) = none →
        at_ a 1 = secCode r.state % 256 ∧ at_ (a + 1) 1 = secFlags n s % 256 ∧
          at_ (a + 2) 2 = (BitVec.ofInt 16 r.count).toNat) ∧
      ∀ f, s.sup.forces.find? (fun f => f.1 == n) = some f → at_ a 1 = f.2.1.toNat ∧
        at_ (a + 1) 1 = (secFlags n s + 128) % 256 ∧ at_ (a + 2) 2 = f.2.2.toNat) := by
  intro at_ r a
  have field : ∀ off k, off + k ≤ 8 → at_ (a + off) k = fieldLE (sectionRecord n s) off k := fun off k hin => by
    rw [← (h.sec n hn).memLE off k ((length_sectionRecord n s).symm ▸ hin)]
    simp only [at_, a, Nat.add_assoc]
  refine ⟨fun hun => ?_, fun hconf => ⟨?_, ?_, fun hfree => ?_, fun f hforce => ?_⟩⟩
  · rw [show at_ a 8 = _ from field 0 8 (by decide), sectionRecord_unconfigured n s hun, fieldLE_zeros]
  · exact (field 4 2 (by decide)).trans (sectionRecord_tail n s hconf).1
  · exact (field 6 2 (by decide)).trans (sectionRecord_tail n s hconf).2
  · obtain ⟨f0, f1, f2⟩ := sectionRecord_free n s hconf hfree
    exact ⟨(field 0 1 (by decide)).trans f0, (field 1 1 (by decide)).trans f1, (field 2 2 (by decide)).trans f2⟩
  · obtain ⟨f0, f1, f2⟩ := sectionRecord_forced n s hconf f hforce
    exact ⟨(field 0 1 (by decide)).trans f0, (field 1 1 (by decide)).trans f1, (field 2 2 (by decide)).trans f2⟩

theorem HoldsImage.shows_head (n : Nat) (hn : n < 512) : let at_ := fun a n : Nat => memLE m (b + a) n
    let a := 0x2000 + 8 * n
    (headConfigured n s = false → at_ a 8 = 0) ∧
    (headConfigured n s ≠ false → at_ a 2 = (headStat n s).toNat % 65536 ∧ at_ (a + 2) 2 = (headOf n s).engine % 65536 ∧
      at_ (a + 4) 4 = (headPass n s).toNat) := by
  intro at_ a
  have field : ∀ off k, off + k ≤ 8 → at_ (a + off) k = fieldLE (headRecord n s) off k := fun off k hin => by
    rw [← (h.head n hn).memLE off k ((length_headRecord n s).symm ▸ hin)]
    simp only [at_, a, Nat.add_assoc]
  refine ⟨fun hun => ?_, fun hconf => ?_⟩
  · rw [show at_ a 8 = _ from field 0 8 (by decide), headRecord_unconfigured n s hun, fieldLE_zeros]
  · obtain ⟨f0, f2, f4⟩ := headRecord_fields n s hconf
    exact ⟨(field 0 2 (by decide)).trans f0, (field 2 2 (by decide)).trans f2, (field 4 4 (by decide)).trans f4⟩

end Shows

/-- A port as a commit leaves it, in the state the commit leaves: what governs its publication, whether its image has been begun, and
where it has, what the image shows of that state (R284, R301). -/
theorem published_port (w : CommitIn) (s : State) (hmode : (commitBody w s).dev.mode ≠ .boot) (p : HostId) :
    let t := commitBody w s
    let h := hostOf p t
    h.pubCtl = h.ctl ∧ h.pubImg = h.imgBase ∧ h.pubDl = h.dlBase ∧ h.pubKey = h.keyBase ∧
      (h.body = true ↔ h.publish = true ∧ h.ctl.getLsbD 0 = true ∧ hostUp p t = true) ∧
      (h.body = true → h.txFifo = [] → h.pubImg.toNat + 0x10000 ≤ 2 ^ 64 → HoldsImage p t h.host (bufferAt h)) := by
  intro t h
  obtain ⟨u, shown, b, oa, ob, ht⟩ := commitBody_publishes w s hmode
  have hport : h = switchPort (bodyPort p u) := by
    show hostOf p t = _
    rw [show t = _ from ht]
    cases p <;> rfl
  obtain ⟨f, m, e, hbody, -, he⟩ := bodyPort_keeps p u
  obtain ⟨hw, hl, hctl, -⟩ := openPub_schedule_keeps (hostOf p u)
  have hlink : h.link = (hostOf p u).link := by rw [hport, hbody]; exact hl
  have hdrop : h.wrDrop = (hostOf p u).wrDrop := by rw [hport, hbody]; exact hw
  have hup : hostUp p t = hostUp p u := by
    show (h.link && domOn (hostDom p) t) = _
    rw [hlink, show t = _ from ht]
    rfl
  have hgoverns : h.pubCtl = h.ctl ∧ h.pubImg = h.imgBase ∧ h.pubDl = h.dlBase ∧ h.pubKey = h.keyBase := by
    rw [hport, hbody]
    exact ⟨rfl, rfl, rfl, rfl⟩
  obtain ⟨hpubCtl, hpubImg, hpubDl, hpubKey⟩ := hgoverns
  refine ⟨hpubCtl, hpubImg, hpubDl, hpubKey, ?_, fun hwritten hfifo hroom => ?_⟩
  · have hshown : h.body = e ∧ h.publish = (openPub (schedule (hostOf p u))).publish ∧ h.ctl = (hostOf p u).ctl := by
      rw [hport, hbody]
      exact ⟨rfl, rfl, hctl⟩
    rw [hup, hshown.1, hshown.2.1, hshown.2.2, he]
    simp [imgEn, and_assoc]
  · rw [hport] at hwritten hfifo hroom ⊢
    have himage := bodyPort_image p u hwritten hfifo hroom
    rw [HoldsImage, ← imageHigh_rehosted _ _ shown b oa ob u, ← imageLow_rehosted _ _ shown b oa ob p u (by
      rw [← ht]; exact hdrop), ← ht] at himage
    exact himage

end Sys2Proof.Machine

namespace Sys2Proof.Machine

/-! ### What a checkpoint does besides its publication (R235, R288, R292) -/

/-- Between two states no host memory and no sequence number of an image has changed, nothing of the supervisors but the
entries taken, and no vector has been taken back. -/
structure KeepsImages (s t : State) : Prop where
  host : ∀ q, (hostOf q t).host = (hostOf q s).host
  imgSeq : ∀ q, (hostOf q t).imgSeq = (hostOf q s).imgSeq
  pubSeq : ∀ q, (hostOf q t).pubSeq = (hostOf q s).pubSeq
  irq : IrqMono s t
  sup : ∃ l, t.sup = { s.sup with taken := l }

theorem KeepsImages.refl (s : State) : KeepsImages s s :=
  ⟨fun _ => rfl, fun _ => rfl, fun _ => rfl, fun _ _ h => h, s.sup.taken, rfl⟩

theorem KeepsImages.trans {s u t : State} (h : KeepsImages s u) (h' : KeepsImages u t) : KeepsImages s t := by
  obtain ⟨l, hl⟩ := h.sup
  obtain ⟨l', hl'⟩ := h'.sup
  exact ⟨fun q => (h'.host q).trans (h.host q), fun q => (h'.imgSeq q).trans (h.imgSeq q),
    fun q => (h'.pubSeq q).trans (h.pubSeq q), fun q v hv => h'.irq q v (h.irq q v hv), l', by rw [hl', hl]⟩

/-- A vector changes of a port only what belongs to its interrupts (R300). -/
theorem hostOf_raiseAt_eq (p q : HostId) (v : Nat) (s : State) :
    ∃ i m l, hostOf q (raiseAt p v s) = { hostOf q s with irqSt := i, msixPend := m, sent := l } := by
  rw [hostOf_raiseAt]
  split
  · rename_i hq
    rw [hq.1]
    dsimp only
    split
    · unfold sendVector
      split_ifs <;> exact ⟨_, _, _, rfl⟩
    · exact ⟨_, _, _, rfl⟩
  · exact ⟨_, _, _, rfl⟩

theorem hostOf_raiseAt_keeps (p q : HostId) (v : Nat) (s : State) : (hostOf q (raiseAt p v s)).host = (hostOf q s).host ∧
    (hostOf q (raiseAt p v s)).imgSeq = (hostOf q s).imgSeq ∧ (hostOf q (raiseAt p v s)).pubSeq = (hostOf q s).pubSeq := by
  obtain ⟨i, m, l, h⟩ := hostOf_raiseAt_eq p q v s
  rw [h]
  exact ⟨rfl, rfl, rfl⟩

theorem hostOf_sticky_keeps (q : HostId) (c i b : Nat) (s : State) : (hostOf q (sticky c i b s)).host = (hostOf q s).host ∧
    (hostOf q (sticky c i b s)).imgSeq = (hostOf q s).imgSeq ∧ (hostOf q (sticky c i b s)).pubSeq = (hostOf q s).pubSeq := by
  unfold sticky raiseBoth
  split
  · rw [hostOf_noteEvent]
    exact ⟨rfl, rfl, rfl⟩
  · simp only [hostOf_raiseAt_keeps, hostOf_sendReport, hostOf_setFltReg, hostOf_noteEvent, and_self]

theorem keepsImages_sticky (c i b : Nat) (s : State) : KeepsImages s (sticky c i b s) :=
  ⟨fun q => (hostOf_sticky_keeps q c i b s).1, fun q => (hostOf_sticky_keeps q c i b s).2.1,
    fun q => (hostOf_sticky_keeps q c i b s).2.2, irqMono_sticky c i b s, s.sup.taken, by simp [sticky_keeps]⟩

theorem keepsImages_stickyIf (y : Bool) (c i b : Nat) (s : State) : KeepsImages s (stickyIf y c i b s) := by
  cases y
  · exact .refl s
  · exact keepsImages_sticky c i b s

theorem keepsImages_modHost (p : HostId) (f : PortSt → PortSt) (s : State) (hf : ∀ h, (f h).host = h.host ∧
    (f h).imgSeq = h.imgSeq ∧ (f h).pubSeq = h.pubSeq ∧ (f h).irqSt = h.irqSt) : KeepsImages s (modHost p f s) := by
  have hq : ∀ q, hostOf q (modHost p f s) = if q = p then f (hostOf p s) else hostOf q s := fun q => hostOf_setHost p q _ s
  refine ⟨fun q => ?_, fun q => ?_, fun q => ?_, fun q v hv => ?_, s.sup.taken, by simp [modHost_keeps]⟩ <;> rw [hq q] <;>
    split_ifs with heq
  · rw [heq, (hf _).1]
  · rfl
  · rw [heq, (hf _).2.1]
  · rfl
  · rw [heq, (hf _).2.2.1]
  · rfl
  · rw [(hf _).2.2.2, ← heq]
    exact hv
  · exact hv

theorem KeepsImages.taken {s t : State} (h : KeepsImages s t) (l : List Taken) :
    KeepsImages s { t with sup := { t.sup with taken := l } } := by
  obtain ⟨l', hl⟩ := h.sup
  exact ⟨h.host, h.imgSeq, h.pubSeq, h.irq, l, by rw [hl]⟩

theorem keepsImages_takeMailbox (p : HostId) (s : State) : KeepsImages s (takeMailbox p s) := by
  have hmod : ∀ (f : PortSt → PortSt) u, (∀ h, (f h).host = h.host ∧ (f h).imgSeq = h.imgSeq ∧ (f h).pubSeq = h.pubSeq ∧
      (f h).irqSt = h.irqSt) → KeepsImages s u → KeepsImages s (modHost p f u) :=
    fun f u hf hu => hu.trans (keepsImages_modHost p f u hf)
  unfold takeMailbox
  dsimp only
  split_ifs
  · refine KeepsImages.trans ?_ (keepsImages_sticky _ _ _ _)
    exact hmod _ _ (fun _ => ⟨rfl, rfl, rfl, rfl⟩) (hmod _ _ (fun _ => ⟨rfl, rfl, rfl, rfl⟩) (.refl s))
  · refine KeepsImages.trans ?_ (keepsImages_sticky _ _ _ _)
    exact hmod _ _ (fun _ => ⟨rfl, rfl, rfl, rfl⟩) (hmod _ _ (fun _ => ⟨rfl, rfl, rfl, rfl⟩) (.refl s))
  · refine KeepsImages.taken ?_ _
    exact hmod _ _ (fun _ => ⟨rfl, rfl, rfl, rfl⟩) (hmod _ _ (fun _ => ⟨rfl, rfl, rfl, rfl⟩) (.refl s))

theorem keepsImages_copyMailbox (p : HostId) (s : State) : KeepsImages s (copyMailbox p s) := by
  unfold copyMailbox
  dsimp only
  split_ifs
  · exact .refl s
  · exact keepsImages_modHost p _ s fun _ => ⟨rfl, rfl, rfl, rfl⟩
  · exact keepsImages_takeMailbox p s

theorem keepsImages_takeMailboxes (failed : Bool) (l : List (Bool × Nat)) (s : State) :
    KeepsImages s (takeMailboxes failed l s) :=
  (((keepsImages_copyMailbox .ha s).trans (keepsImages_copyMailbox .hb _)).trans (keepsImages_stickyIf _ _ _ _ _)).taken _

/-- A checkpoint that fails writes nothing (R237). -/
theorem failCheckpoint_writes (bits : List Nat) (s : State) : (failCheckpoint bits s).sup.cpOkC = false ∧
    ∀ q, (hostOf q (failCheckpoint bits s)).host = (hostOf q s).host ∧
      (hostOf q (failCheckpoint bits s)).imgSeq = (hostOf q s).imgSeq := by
  unfold failCheckpoint
  generalize hu : { s with sup := _ } = u
  have hkeeps : KeepsImages u (forEach bits (sticky clsChk 0) u) :=
    forEach_ind (KeepsImages u) bits _ u (.refl u) fun b _ x hx => hx.trans (keepsImages_sticky clsChk 0 b x)
  obtain ⟨l, hl⟩ := hkeeps.sup
  rw [hl]
  subst hu
  exact ⟨rfl, fun q => ⟨(hkeeps.host q).trans (by cases q <;> rfl), (hkeeps.imgSeq q).trans (by cases q <;> rfl)⟩⟩

end Sys2Proof.Machine

namespace Sys2Proof.Machine

/-! ### The image that a passed checkpoint completes (R284, R285, R291) -/

/-- The key records of a publication, with their places: the lead's, where KEYEN was set (R291, R302). -/
def keyRuns (p : HostId) (s : State) : List (Nat × List Byte) :=
  if isLead p s && (hostOf p s).pubCtl.getLsbD 3 then
    s.sup.keys.map fun k => ((hostOf p s).pubKey.toNat + 16 * k.1, keyRecord k.2.1 k.2.2.1 k.2.2.2 s.bell.landNo)
  else []

theorem forEach_keys (p : HostId) (s : State) (l : List (Nat × Word × Nat × Nat)) (h : PortSt) (hfifo : h.txFifo = [])
    (hroom : ∀ k ∈ l, h.pubKey.toNat + 16 * k.1 < 2 ^ 64) :
    forEach l (fun k s =>
      modHost p (putHost (hostOf p s).pubKey (16 * k.1) (keyRecord k.2.1 k.2.2.1 k.2.2.2 s.bell.landNo)) s) (setHost p h s) =
    setHost p (stored (l.map fun k => (h.pubKey.toNat + 16 * k.1, keyRecord k.2.1 k.2.2.1 k.2.2.2 s.bell.landNo)) h) s := by
  induction l generalizing h with
  | nil => rfl
  | cons k l ih =>
    rw [forEach_cons, modHost, hostOf_setHost, if_pos rfl, setHost_setHost, setHost_bell,
      putHost_eq _ _ _ h hfifo (hroom k List.mem_cons_self),
      ih (stored [_] h) hfifo fun j hj => hroom j (List.mem_cons_of_mem k hj), stored_stored, List.singleton_append, List.map_cons]
    rfl

theorem isLead_setHost (p q : HostId) (h : PortSt) (s : State) : isLead p (setHost q h s) = isLead p s := by
  cases q <;> rfl

theorem writeKeys_setHost (p : HostId) (s : State) (h : PortSt) (hfifo : h.txFifo = [])
    (hroom : ∀ k ∈ s.sup.keys, h.pubKey.toNat + 16 * k.1 < 2 ^ 64) :
    writeKeys p (setHost p h s) = setHost p (stored (keyRuns p (setHost p h s)) h) s := by
  unfold writeKeys keyRuns
  split
  · rw [hostOf_setHost, if_pos rfl, setHost_sup, setHost_bell]
    exact forEach_keys p s s.sup.keys h hfifo hroom
  · rfl

/-- What a completion writes ahead of the header: the results, then the key records (R284). -/
def firstRuns (p : HostId) (s : State) : List (Nat × List Byte) :=
  (bufferAt (hostOf p s) + 0x200, resultsArea p s) :: keyRuns p s

/-- The CRC of an image: of its header and of what stands behind the header (R285). -/
def imageCrc (p : HostId) (s : State) : Word :=
  crc32c (imageHeader p s ++ imageRest (stored (firstRuns p s) (hostOf p s)))

/-- The header comes last and completes the image (R284). -/
def imageRuns (p : HostId) (s : State) : List (Nat × List Byte) :=
  firstRuns p s ++ [(bufferAt (hostOf p s), imageHeader p s ++ wordBytes (imageCrc p s))]

/-- A port once its image is complete. -/
def donePort (p : HostId) (s : State) : PortSt :=
  { stored (imageRuns p s) (hostOf p s) with
    pubSeq := (hostOf p s).imgSeq + 1, imgSeq := (hostOf p s).imgSeq + 1, recDrop := false }

/-- A port with nothing under way whose image and key records lie inside the address space. -/
structure Roomy (p : HostId) (s : State) : Prop where
  fifo : (hostOf p s).txFifo = []
  image : (hostOf p s).pubImg.toNat + 0x10000 ≤ 2 ^ 64
  keys : ∀ k ∈ s.sup.keys, (hostOf p s).pubKey.toNat + 16 * k.1 < 2 ^ 64

theorem completeImage_eq (p : HostId) (s : State) (h : Roomy p s) :
    completeImage p s = raiseAt p 0 (setHost p (donePort p s) s) := by
  obtain ⟨hfifo, hroom, hkeys⟩ := h
  have hmod : ((hostOf p s).imgSeq.toNat + 1) % 4 < 4 := Nat.mod_lt _ (by decide)
  have hin : ∀ off < 0x4000, (hostOf p s).pubImg.toNat + (imageOff (hostOf p s) + off) < 2 ^ 64 := fun off hoff => by
    unfold imageOff
    omega
  have hresults : modHost p (fun h => putHost h.pubImg (imageOff h + 0x200) (resultsArea p s) h) s =
      setHost p (stored [(bufferAt (hostOf p s) + 0x200, resultsArea p s)] (hostOf p s)) s := by
    rw [modHost, putHost_eq _ _ _ _ hfifo (hin 0x200 (by decide)), ← Nat.add_assoc]
    rfl
  have hruns : keyRuns p (setHost p (stored [(bufferAt (hostOf p s) + 0x200, resultsArea p s)] (hostOf p s)) s) = keyRuns p s := by
    unfold keyRuns
    rw [isLead_setHost, hostOf_setHost, if_pos rfl, setHost_sup, setHost_bell]
    rfl
  have hheader : ∀ l, putHost (stored (firstRuns p s) (hostOf p s)).pubImg (imageOff (stored (firstRuns p s) (hostOf p s))) l
      (stored (firstRuns p s) (hostOf p s)) = stored (firstRuns p s ++ [(bufferAt (hostOf p s), l)]) (hostOf p s) := fun l =>
    (putHost_eq (hostOf p s).pubImg (imageOff (hostOf p s)) l (stored _ (hostOf p s)) hfifo (hin 0 (by decide))).trans
      (stored_stored _ _ _)
  have hfirst : [(bufferAt (hostOf p s) + 0x200, resultsArea p s)] ++ keyRuns p s = firstRuns p s := rfl
  unfold completeImage
  dsimp only
  rw [hresults, writeKeys_setHost p s (stored _ (hostOf p s)) hfifo hkeys, hruns, stored_stored, hfirst, modHost, hostOf_setHost,
    if_pos rfl, setHost_setHost, hheader]
  rfl

end Sys2Proof.Machine

namespace Sys2Proof.Machine

/-! ### Publication at a passed checkpoint (R284, R288) -/

theorem hostOf_releaseResults (p q : HostId) (s : State) : hostOf q (releaseResults p s) =
    if q = p then { hostOf p s with mbHeld := false, mbStat := 3 } else hostOf q s := by
  cases p <;> cases q <;> rfl

/-- A port that publishes no longer. -/
def closedPort (h : PortSt) : PortSt := { h with publish := false, body := false }

theorem imageRuns_closed (p : HostId) (s : State) : imageRuns p (setHost p (closedPort (hostOf p s)) s) = imageRuns p s := by
  cases p <;> rfl

/-- A passed checkpoint completes the image whose first part has been written, where the port still answers. -/
theorem publishPassed_completes (p : HostId) (s : State) (hpub : (hostOf p s).publish = true) (hbody : (hostOf p s).body = true)
    (hup : hostUp p s = true) :
    publishPassed p s = releaseResults p (completeImage p (setHost p (closedPort (hostOf p s)) s)) := by
  have hup' : hostUp p (modHost p (fun h => { h with publish := false, body := false }) s) = true :=
    (hostUp_setHost p p _ s (by rfl)).trans hup
  simp only [publishPassed, hpub, hbody, hup', Bool.not_true, Bool.false_eq_true, if_true, if_false]
  rfl

/-- Where the image's first part has not been written the results are released and nothing is written. -/
theorem publishPassed_unwritten (p : HostId) (s : State) (hpub : (hostOf p s).publish = true) (hbody : (hostOf p s).body = false) :
    publishPassed p s = releaseResults p (setHost p (closedPort (hostOf p s)) s) := by
  simp only [publishPassed, hpub, hbody, Bool.not_true, Bool.false_eq_true, if_false]
  rfl

/-- Where the port no longer answers the publication is abandoned. -/
theorem publishPassed_abandoned (p : HostId) (s : State) (hpub : (hostOf p s).publish = true) (hbody : (hostOf p s).body = true)
    (hup : hostUp p s = false) : publishPassed p s = setHost p (closedPort (hostOf p s)) s := by
  have hup' : hostUp p (modHost p (fun h => { h with publish := false, body := false }) s) = false :=
    (hostUp_setHost p p _ s (by rfl)).trans hup
  simp only [publishPassed, hpub, hbody, hup', Bool.not_true, Bool.false_eq_true, if_true, if_false]
  rfl

theorem publishPassed_idle (p : HostId) (s : State) (hpub : (hostOf p s).publish = false) : publishPassed p s = s := by
  simp only [publishPassed, hpub, Bool.not_false, if_true]

theorem domOn_setHost (d : Nat) (p : HostId) (h : PortSt) (s : State) : domOn d (setHost p h s) = domOn d s := by
  cases p <;> rfl

/-- The port and its host memory once the image is complete. -/
theorem completeImage_port (p : HostId) (s : State) (hroom : Roomy p s) (hon : domOn (hostDom p) s = true) :
    let k := hostOf p (completeImage p s)
    k.host = storeAll (imageRuns p s) (hostOf p s).host ∧ k.imgSeq = (hostOf p s).imgSeq + 1 ∧
      k.pubSeq = (hostOf p s).imgSeq + 1 ∧ k.irqSt.getLsbD 0 = true := by
  have hdone : hostOf p (setHost p (donePort p s) s) = donePort p s := by rw [hostOf_setHost, if_pos rfl]
  have hdom : domOn (hostDom p) (setHost p (donePort p s) s) = true := by rw [domOn_setHost, hon]
  obtain ⟨hhost, hseq, hpubSeq⟩ := hostOf_raiseAt_keeps p p 0 (setHost p (donePort p s) s)
  rw [hdone] at hhost hseq hpubSeq
  rw [completeImage_eq p s hroom]
  refine ⟨hhost, hseq, hpubSeq, ?_⟩
  rw [irqSt_raiseAt, if_pos ⟨rfl, hdom⟩]
  simp

/-- The port and its host memory behind a publication. -/
theorem publishPassed_image (p : HostId) (s : State) (hpub : (hostOf p s).publish = true) (hbody : (hostOf p s).body = true)
    (hup : hostUp p s = true) (hroom : Roomy p s) :
    let h := hostOf p s
    let k := hostOf p (publishPassed p s)
    k.host = storeAll (imageRuns p s) h.host ∧ k.imgSeq = h.imgSeq + 1 ∧ k.pubSeq = h.imgSeq + 1 ∧ k.irqSt.getLsbD 0 = true := by
  obtain ⟨hfifo, himage, hkeys⟩ := hroom
  have hport : hostOf p (setHost p (closedPort (hostOf p s)) s) = closedPort (hostOf p s) := by rw [hostOf_setHost, if_pos rfl]
  have hon : domOn (hostDom p) (setHost p (closedPort (hostOf p s)) s) = true := by
    rw [domOn_setHost]
    exact (Bool.and_eq_true _ _ ▸ hup).2
  have hroom' : Roomy p (setHost p (closedPort (hostOf p s)) s) :=
    ⟨by rw [hport]; exact hfifo, by rw [hport]; exact himage, by rw [hport, setHost_sup]; exact hkeys⟩
  have hdone := completeImage_port p _ hroom' hon
  rw [imageRuns_closed, hport] at hdone
  dsimp only
  rw [publishPassed_completes p s hpub hbody hup, hostOf_releaseResults, if_pos rfl]
  exact hdone

end Sys2Proof.Machine

namespace Sys2Proof.Machine

/-! ### The header, the results and the key records, field by field (R285, R291) -/

theorem length_imageHeader (p : HostId) (s : State) : (imageHeader p s).length = 0x3C := length_padTo 0x3C _

theorem length_resultsArea (p : HostId) (s : State) : (resultsArea p s).length = 0xE00 := length_padTo 0xE00 _

theorem length_keyRecord (tag : Word) (sec key : Nat) (land : Word) : (keyRecord tag sec key land).length = 16 := by
  simp [keyRecord]

/-- The flags of an image's header (R285). -/
def headerFlags (p : HostId) (s : State) : Nat :=
  b2n (isLead p s) + 2 * b2n (!s.sup.forces.isEmpty) + 4 * b2n (s.bell.stat.getLsbD 0) +
    8 * b2n (!s.bell.stat.getLsbD 1 || !s.bell.stat.getLsbD 2) + 16 * b2n s.man.failed + 32 * b2n (hostOf p s).recDrop

theorem b2n_eq_one_iff (b : Bool) : b2n b = 1 ↔ b = true := by cases b <;> decide

/-- Each flag is a bit of its own. -/
theorem sixFlags (a b c d e f : Bool) : let x := b2n a + 2 * b2n b + 4 * b2n c + 8 * b2n d + 16 * b2n e + 32 * b2n f
    x < 64 ∧ (x / 2 ^ 0 % 2 = 1 ↔ a = true) ∧ (x / 2 ^ 1 % 2 = 1 ↔ b = true) ∧ (x / 2 ^ 2 % 2 = 1 ↔ c = true) ∧
      (x / 2 ^ 3 % 2 = 1 ↔ d = true) ∧ (x / 2 ^ 4 % 2 = 1 ↔ e = true) ∧ (x / 2 ^ 5 % 2 = 1 ↔ f = true) := by
  have ha := b2n_le_one a
  have hb := b2n_le_one b
  have hc := b2n_le_one c
  have hd := b2n_le_one d
  have he := b2n_le_one e
  have hf := b2n_le_one f
  simp only [← b2n_eq_one_iff]
  omega

theorem imageHeader_fields (p : HostId) (s : State) :
    fieldLE (imageHeader p s) 0 4 = s.bell.landNo.toNat ∧ fieldLE (imageHeader p s) 4 6 = s.bell.tickTime.toNat ∧
      fieldLE (imageHeader p s) 0x0A 2 = headerFlags p s ∧ fieldLE (imageHeader p s) 0x0C 4 = ((hostOf p s).imgSeq + 1).toNat ∧
      fieldLE (imageHeader p s) 0x10 4 = s.dev.wrWidx.toNat ∧ fieldLE (imageHeader p s) 0x14 4 = (hostOf p s).resSeq.toNat ∧
      fieldLE (imageHeader p s) 0x18 1 = (hostOf p s).mbStat % 256 ∧
      fieldLE (imageHeader p s) 0x19 1 = (s.sup.results.filter fun r => r.port == p).length % 256 ∧
      fieldLE (imageHeader p s) 0x1A 2 = (hostOf p s).pub % 65536 ∧ fieldLE (imageHeader p s) 0x1C 32 = 0 := by
  have htick : s.bell.tickTime.toNat % 281474976710656 = s.bell.tickTime.toNat := Nat.mod_eq_of_lt s.bell.tickTime.isLt
  have hflags : headerFlags p s % 65536 = headerFlags p s :=
    Nat.mod_eq_of_lt (Nat.lt_trans (sixFlags (isLead p s) (!s.sup.forces.isEmpty) (s.bell.stat.getLsbD 0)
      (!s.bell.stat.getLsbD 1 || !s.bell.stat.getLsbD 2) s.man.failed (hostOf p s).recDrop).1 (by decide))
  have hbytes : imageHeader p s = padTo 0x3C (wordBytes s.bell.landNo ++ (leBytes 6 s.bell.tickTime.toNat ++
      (leBytes 2 (headerFlags p s) ++ (wordBytes ((hostOf p s).imgSeq + 1) ++ (wordBytes s.dev.wrWidx ++
      (wordBytes (hostOf p s).resSeq ++ (leBytes 1 (hostOf p s).mbStat ++
      (leBytes 1 (s.sup.results.filter fun r => r.port == p).length ++ leBytes 2 (hostOf p s).pub)))))))) := by
    simp only [imageHeader, headerFlags, List.append_assoc]
  have hend : fieldLE (leBytes 2 (hostOf p s).pub) 2 32 = 0 := by
    rw [← List.append_nil (leBytes 2 _), fieldLE_skip _ _ _ _ _ le_rfl, fieldLE_nil]
  rw [hbytes]
  refine ⟨?_, ?_, ?_, ?_, ?_, ?_, ?_, ?_, ?_, ?_⟩ <;> rw [fieldLE_padTo _ _ _ _ (by decide)] <;>
    simp only [fieldLE_skipWord, fieldLE_skip, fieldLE_word, fieldLE_leBytes, fieldLE_leBytes_end, Nat.reduceLeDiff, Nat.reduceSub,
      Nat.reducePow, htick, hflags, hend]

/-- The result of a port's entry i, where it has one (R291). -/
def resultAt (p : HostId) (i : Nat) (s : State) : Option Result := s.sup.results.find? fun r => r.port == p && r.ix == i

/-- An entry of the results area: zeros where the mailbox had none (R291). -/
def resultEntry (p : HostId) (s : State) (i : Nat) : List Byte := ((resultAt p i s).map resultBytes).getD (zeros 8)

theorem length_resultEntry (p : HostId) (s : State) (i : Nat) : (resultEntry p s i).length = 8 := by
  unfold resultEntry
  cases resultAt p i s <;> simp [resultBytes]

theorem resultsArea_eq (p : HostId) (s : State) : resultsArea p s = padTo 0xE00 ((List.range 127).flatMap (resultEntry p s)) := by
  unfold resultsArea
  refine congrArg (fun f => padTo 0xE00 ((List.range 127).flatMap f)) (funext fun i => ?_)
  rw [resultEntry, resultAt, List.find?_filter]
  simp only [Bool.decide_and, Bool.decide_eq_true]
  cases s.sup.results.find? fun r => r.port == p && r.ix == i <;> rfl

theorem resultEntry_fields (p : HostId) (s : State) (i : Nat) (hi : i < 127) (r : Result) (h : resultAt p i s = some r) :
    fieldLE (resultEntry p s i) 0 1 = i ∧ fieldLE (resultEntry p s i) 1 1 = r.code % 256 ∧
      fieldLE (resultEntry p s i) 2 2 = r.value % 65536 ∧ fieldLE (resultEntry p s i) 4 4 = r.tag.toNat := by
  have hix : r.ix % 256 = i := by
    have := List.find?_some h
    simp only [Bool.and_eq_true, beq_iff_eq] at this
    omega
  have hbytes : resultEntry p s i = leBytes 1 r.ix ++ (leBytes 1 r.code ++ (leBytes 2 r.value ++ wordBytes r.tag)) := by
    simp only [resultEntry, h, resultBytes, Option.map_some, Option.getD_some, List.append_assoc]
  rw [hbytes]
  simp [fieldLE_skip, fieldLE_leBytes, fieldLE_word_end, hix]

theorem resultEntry_empty (p : HostId) (s : State) (i : Nat) (h : resultAt p i s = none) : resultEntry p s i = zeros 8 := by
  rw [resultEntry, h]
  rfl

/-- A key record before its CRC (R291). -/
def keyBody (tag : Word) (sec key : Nat) (land : Word) : List Byte := wordBytes tag ++ leBytes 2 sec ++ leBytes 2 key ++ wordBytes land

theorem length_keyBody (tag : Word) (sec key : Nat) (land : Word) : (keyBody tag sec key land).length = 12 := by simp [keyBody]

theorem keyBody_fields (tag : Word) (sec key : Nat) (land : Word) :
    fieldLE (keyBody tag sec key land) 0 4 = tag.toNat ∧ fieldLE (keyBody tag sec key land) 4 2 = sec % 65536 ∧
      fieldLE (keyBody tag sec key land) 6 2 = key % 65536 ∧ fieldLE (keyBody tag sec key land) 8 4 = land.toNat := by
  simp [keyBody, fieldLE_word, fieldLE_skipWord, fieldLE_skip, fieldLE_leBytes, fieldLE_word_end]

/-- A run of bytes with its CRC-32C behind it, as a memory holds it. -/
theorem holds_crc {m : Mem} {a : Nat} {l : List Byte} (h : Holds m a (l ++ wordBytes (crc32c l))) :
    memLE m (a + l.length) 4 = (crc32c (memLoad m a l.length)).toNat := by
  have hcrc := h.right.memLE 0 4 (by simp)
  rw [Nat.add_zero, fieldLE_word_end] at hcrc
  rw [hcrc, show memLoad m a l.length = l from h.left]

/-- What a memory that holds a key record shows of it (R291). -/
theorem keyRecord_shows {m : Mem} {a : Nat} {tag : Word} {sec key : Nat} {land : Word} (h : Holds m a (keyRecord tag sec key land)) :
    memLE m a 4 = tag.toNat ∧ memLE m (a + 4) 2 = sec % 65536 ∧ memLE m (a + 6) 2 = key % 65536 ∧
      memLE m (a + 8) 4 = land.toNat ∧ memLE m (a + 12) 4 = (crc32c (memLoad m a 12)).toNat := by
  replace h : Holds m a (keyBody tag sec key land ++ wordBytes (crc32c (keyBody tag sec key land))) := h
  obtain ⟨f0, f4, f6, f8⟩ := keyBody_fields tag sec key land
  have field := fun off n hin => h.left.memLE off n ((length_keyBody tag sec key land).symm ▸ hin)
  have hcrc := holds_crc h
  rw [length_keyBody] at hcrc
  exact ⟨(field 0 4 (by decide)).trans f0, (field 4 2 (by decide)).trans f4, (field 6 2 (by decide)).trans f6,
    (field 8 4 (by decide)).trans f8, hcrc⟩

/-! ### The memory behind a completed image -/

section Completed
variable (p : HostId) (s : State)

/-- The lead's key records lie inside the address space and outside the image. -/
def KeysClear : Prop := ∀ x ∈ s.sup.keys,
  (hostOf p s).pubKey.toNat + 16 * x.1 + 16 ≤ 2 ^ 64 ∧
    ((hostOf p s).pubKey.toNat + 16 * x.1 + 16 ≤ bufferAt (hostOf p s) ∨
      bufferAt (hostOf p s) + 0x3000 ≤ (hostOf p s).pubKey.toNat + 16 * x.1)

/-- Host memory with the completed image of state s. -/
def imageMem : Mem := storeAll (imageRuns p s) (hostOf p s).host

/-- The run of a key record. -/
def keyRun (k : Nat × Word × Nat × Nat) : Nat × List Byte :=
  ((hostOf p s).pubKey.toNat + 16 * k.1, keyRecord k.2.1 k.2.2.1 k.2.2.2 s.bell.landNo)

theorem mem_keyRuns (x : Nat × List Byte) (hx : x ∈ keyRuns p s) : isLead p s = true ∧ (hostOf p s).pubCtl.getLsbD 3 = true ∧
    ∃ k ∈ s.sup.keys, x = keyRun p s k := by
  unfold keyRuns at hx
  split at hx
  · rename_i hkeyed
    obtain ⟨k, hk, rfl⟩ := List.mem_map.mp hx
    rw [Bool.and_eq_true] at hkeyed
    exact ⟨hkeyed.1, hkeyed.2, k, hk, rfl⟩
  · cases hx

/-- No key record touches a run inside the image. -/
theorem keyRuns_apart (hclear : KeysClear p s) (x y : Nat × List Byte) (hx : x ∈ keyRuns p s) (hlo : bufferAt (hostOf p s) ≤ y.1)
    (hhi : y.1 + y.2.length ≤ bufferAt (hostOf p s) + 0x3000) : Apart y x := by
  obtain ⟨-, -, k, hk, rfl⟩ := mem_keyRuns p s x hx
  obtain ⟨-, hout⟩ := hclear k hk
  intro a ⟨hy, hx⟩
  simp only [Covers, keyRun, length_keyRecord] at hx hy
  omega

/-- The run of the header with its CRC. -/
def headerRun : Nat × List Byte := (bufferAt (hostOf p s), imageHeader p s ++ wordBytes (imageCrc p s))

theorem length_headerRun : (headerRun p s).2.length = 0x40 := by
  rw [headerRun, List.length_append, length_imageHeader, length_wordBytes]

theorem imageMem_header : Holds (imageMem p s) (bufferAt (hostOf p s)) (imageHeader p s ++ wordBytes (imageCrc p s)) :=
  holds_storeAll_later (firstRuns p s) [] (headerRun p s) _ fun _ hy => absurd hy List.not_mem_nil

theorem imageMem_results (hclear : KeysClear p s) : Holds (imageMem p s) (bufferAt (hostOf p s) + 0x200) (resultsArea p s) := by
  refine holds_storeAll_later [] (keyRuns p s ++ [headerRun p s]) (bufferAt (hostOf p s) + 0x200, resultsArea p s) _ fun y hy => ?_
  rcases List.mem_append.mp hy with hkey | hhead
  · exact keyRuns_apart p s hclear y _ hkey (Nat.le_add_right _ _) (by rw [length_resultsArea]; omega)
  · rw [List.mem_singleton.mp hhead]
    intro a ⟨hres, hhdr⟩
    unfold Covers at hres hhdr
    rw [length_headerRun] at hhdr
    simp only [headerRun] at hhdr
    dsimp only at hres
    omega

theorem imageMem_keys (hclear : KeysClear p s) (hlead : isLead p s = true) (hen : (hostOf p s).pubCtl.getLsbD 3 = true)
    (hnodup : (s.sup.keys.map (·.1)).Nodup) (k : Nat × Word × Nat × Nat) (hk : k ∈ s.sup.keys) :
    Holds (imageMem p s) ((hostOf p s).pubKey.toNat + 16 * k.1) (keyRecord k.2.1 k.2.2.1 k.2.2.2 s.bell.landNo) := by
  have hruns : keyRuns p s = s.sup.keys.map (keyRun p s) := by
    rw [keyRuns, hlead, hen]
    rfl
  obtain ⟨before, after, hsplit⟩ := List.append_of_mem hk
  have hlater : ∀ j ∈ after, k.1 ≠ j.1 := by
    rw [hsplit, List.map_append, List.map_cons] at hnodup
    obtain ⟨-, hafter, -⟩ := List.nodup_append.mp hnodup
    exact fun j hj heq => (List.nodup_cons.mp hafter).1 (heq ▸ List.mem_map_of_mem hj)
  rw [imageMem, imageRuns, firstRuns, hruns, hsplit, List.map_append, List.map_cons, List.cons_append, List.append_assoc,
    List.cons_append, ← List.cons_append]
  refine holds_storeAll_later _ _ (keyRun p s k) _ fun y hy a ⟨hkey, hcov⟩ => ?_
  obtain ⟨-, hout⟩ := hclear k hk
  rcases List.mem_append.mp hy with hmem | hhead
  · obtain ⟨j, hj, rfl⟩ := List.mem_map.mp hmem
    have := hlater j hj
    simp only [Covers, keyRun, length_keyRecord] at hkey hcov
    omega
  · rw [List.mem_singleton.mp hhead, ← headerRun] at hcov
    unfold Covers at hkey hcov
    rw [length_headerRun] at hcov
    simp only [keyRun, length_keyRecord, headerRun] at hkey hcov
    omega

theorem imageMem_out (a : Nat) (hhead : ¬(bufferAt (hostOf p s) ≤ a ∧ a < bufferAt (hostOf p s) + 0x40))
    (hres : ¬(bufferAt (hostOf p s) + 0x200 ≤ a ∧ a < bufferAt (hostOf p s) + 0x1000))
    (hkeys : isLead p s = true → (hostOf p s).pubCtl.getLsbD 3 = true → ∀ x ∈ s.sup.keys,
      ¬((hostOf p s).pubKey.toNat + 16 * x.1 ≤ a ∧ a < (hostOf p s).pubKey.toNat + 16 * x.1 + 16)) :
    memGet (imageMem p s) a = memGet (hostOf p s).host a := by
  refine memGet_storeAll_out _ _ a fun x hx hcov => ?_
  rcases List.mem_append.mp hx with hfirst | hlast
  · rcases List.mem_cons.mp hfirst with rfl | hkey
    · unfold Covers at hcov
      rw [length_resultsArea] at hcov
      exact hres hcov
    · obtain ⟨hlead, hen, k, hk, rfl⟩ := mem_keyRuns p s x hkey
      unfold Covers at hcov
      rw [keyRun, length_keyRecord] at hcov
      exact hkeys hlead hen k hk hcov
  · rw [List.mem_singleton.mp hlast, ← headerRun] at hcov
    unfold Covers at hcov
    rw [length_headerRun] at hcov
    exact hhead hcov

theorem imageMem_crc (hroom : (hostOf p s).pubImg.toNat + 0x10000 ≤ 2 ^ 64) : imageCrc p s =
    crc32c (memLoad (imageMem p s) (bufferAt (hostOf p s)) 0x3C ++ memLoad (imageMem p s) (bufferAt (hostOf p s) + 0x40) 0x2FC0) := by
  have hhead : memLoad (imageMem p s) (bufferAt (hostOf p s)) 0x3C = imageHeader p s := by
    have hheld := (imageMem_header p s).left
    rwa [Holds, length_imageHeader] at hheld
  have hmod : ((hostOf p s).imgSeq.toNat + 1) % 4 < 4 := Nat.mod_lt _ (by decide)
  have hplace : ((hostOf p s).pubImg.toNat + imageOff (hostOf p s) + 0x40) % 2 ^ 64 = bufferAt (hostOf p s) + 0x40 :=
    Nat.mod_eq_of_lt (by unfold imageOff; omega)
  have hrest : memLoad (imageMem p s) (bufferAt (hostOf p s) + 0x40) 0x2FC0 =
      memLoad (storeAll (firstRuns p s) (hostOf p s).host) (bufferAt (hostOf p s) + 0x40) 0x2FC0 := by
    refine memLoad_congr fun i hi => ?_
    have hsplit : imageMem p s = storeAll [headerRun p s] (storeAll (firstRuns p s) (hostOf p s).host) := by
      rw [imageMem, imageRuns, storeAll, List.foldl_append]
      rfl
    rw [hsplit]
    refine memGet_storeAll_out _ _ _ fun x hx hcov => ?_
    unfold Covers at hcov
    rw [List.mem_singleton.mp hx, length_headerRun, headerRun] at hcov
    dsimp only at hcov
    omega
  rw [imageCrc, imageRest, hhead, hrest, ← hplace]
  rfl

end Completed

end Sys2Proof.Machine

namespace Sys2Proof.Machine

/-! ### The two ports beside one another -/

/-- Two states write the same for port p: the same port, with the same image to complete and the same deck-load frame. -/
structure SameView (p : HostId) (s t : State) : Prop where
  port : hostOf p t = hostOf p s
  up : hostUp p t = hostUp p s
  header : imageHeader p t = imageHeader p s
  results : resultsArea p t = resultsArea p s
  keyRuns : keyRuns p t = keyRuns p s
  keys : ∀ x ∈ t.sup.keys, x ∈ s.sup.keys
  deck : deckFrame t = deckFrame s

/-- Between two states the ports keep what the deck-load frame goes by: enables, address, link and an empty FIFO. -/
def Steady (s t : State) : Prop := ∀ q, (hostOf q t).pubCtl = (hostOf q s).pubCtl ∧ (hostOf q t).pubDl = (hostOf q s).pubDl ∧
  (hostOf q t).link = (hostOf q s).link ∧ (hostOf q t).txFifo.length = (hostOf q s).txFifo.length

theorem Steady.refl (s : State) : Steady s s := fun _ => ⟨rfl, rfl, rfl, rfl⟩

theorem Steady.trans {s u t : State} (h : Steady s u) (h' : Steady u t) : Steady s t := fun q =>
  ⟨(h' q).1.trans (h q).1, (h' q).2.1.trans (h q).2.1, (h' q).2.2.1.trans (h q).2.2.1, (h' q).2.2.2.trans (h q).2.2.2⟩

theorem steady_modHost (p : HostId) (f : PortSt → PortSt) (s : State) (hf : ∀ h, (f h).pubCtl = h.pubCtl ∧ (f h).pubDl = h.pubDl ∧
    (f h).link = h.link ∧ (f h).txFifo.length = h.txFifo.length) : Steady s (modHost p f s) := fun q => by
  rw [modHost, hostOf_setHost]
  split_ifs with heq
  · rw [heq]
    exact hf (hostOf p s)
  · exact ⟨rfl, rfl, rfl, rfl⟩

theorem steady_putHost (p : HostId) (base : PortSt → BitVec 64) (off : PortSt → Nat) (l : PortSt → List Byte) (s : State) :
    Steady s (modHost p (fun h => putHost (base h) (off h) (l h) h) s) := by
  refine steady_modHost p _ s fun h => ?_
  obtain ⟨t, m, hput, hlen⟩ := putHost_keeps (base h) (off h) (l h) h
  rw [hput]
  exact ⟨rfl, rfl, rfl, hlen⟩

theorem steady_raiseAt (p : HostId) (v : Nat) (s : State) : Steady s (raiseAt p v s) := fun q => by
  obtain ⟨i, m, l, h⟩ := hostOf_raiseAt_eq p q v s
  rw [h]
  exact ⟨rfl, rfl, rfl, rfl⟩

theorem steady_writeKeys (p : HostId) (s : State) : Steady s (writeKeys p s) := by
  unfold writeKeys
  split
  · exact forEach_ind (Steady s) s.sup.keys _ s (.refl s) fun k _ u hu =>
      hu.trans (steady_putHost p (fun _ => (hostOf p u).pubKey) (fun _ => 16 * k.1) (fun _ => _) u)
  · exact .refl s

theorem steady_completeImage (p : HostId) (s : State) : Steady s (completeImage p s) := by
  unfold completeImage
  dsimp only
  refine .trans (.trans (.trans (steady_putHost p _ _ _ s) (steady_writeKeys p _)) (steady_modHost p _ _ fun h => ?_))
    (steady_raiseAt p 0 _)
  obtain ⟨t, m, hput, hlen⟩ := putHost_keeps h.pubImg (imageOff h)
    (imageHeader p s ++ wordBytes (crc32c (imageHeader p s ++ imageRest h))) h
  rw [hput]
  exact ⟨rfl, rfl, rfl, hlen⟩

theorem steady_releaseResults (p : HostId) (s : State) : Steady s (releaseResults p s) := fun q => by
  rw [hostOf_releaseResults]
  split_ifs with heq
  · rw [heq]
    exact ⟨rfl, rfl, rfl, rfl⟩
  · exact ⟨rfl, rfl, rfl, rfl⟩

theorem steady_closed (p : HostId) (s : State) : Steady s (setHost p (closedPort (hostOf p s)) s) :=
  steady_modHost p closedPort s fun _ => ⟨rfl, rfl, rfl, rfl⟩

/-- Port p completes an image, or has none to write, and releases its results (R288). -/
def releases (p : HostId) (s : State) : Bool := (hostOf p s).publish && (!(hostOf p s).body || hostUp p s)

/-- What a passed checkpoint does for a port, by what the commit has left of its publication. -/
theorem publishPassed_ind (p : HostId) (s : State) (P : State → Prop) (hidle : (hostOf p s).publish = false → P s)
    (hdone : (hostOf p s).publish = true → (hostOf p s).body = true → hostUp p s = true →
      P (releaseResults p (completeImage p (setHost p (closedPort (hostOf p s)) s))))
    (hgone : (hostOf p s).publish = true → (hostOf p s).body = true → hostUp p s = false → P (setHost p (closedPort (hostOf p s)) s))
    (hnone : (hostOf p s).publish = true → (hostOf p s).body = false →
      P (releaseResults p (setHost p (closedPort (hostOf p s)) s))) : P (publishPassed p s) := by
  cases hpub : (hostOf p s).publish
  · rw [publishPassed_idle p s hpub]
    exact hidle hpub
  · cases hbody : (hostOf p s).body
    · rw [publishPassed_unwritten p s hpub hbody]
      exact hnone hpub hbody
    · cases hup : hostUp p s
      · rw [publishPassed_abandoned p s hpub hbody hup]
        exact hgone hpub hbody hup
      · rw [publishPassed_completes p s hpub hbody hup]
        exact hdone hpub hbody hup

theorem steady_publishPassed (p : HostId) (s : State) : Steady s (publishPassed p s) :=
  publishPassed_ind p s (Steady s) (fun _ => .refl s)
    (fun _ _ _ => .trans (.trans (steady_closed p s) (steady_completeImage p _)) (steady_releaseResults p _))
    (fun _ _ _ => steady_closed p s) (fun _ _ => .trans (steady_closed p s) (steady_releaseResults p _))

section Ports
variable (p : HostId) (s : State)

theorem sup_releaseResults : (releaseResults p s).sup = { s.sup with
    results := s.sup.results.filter fun r => r.port != p, keys := if isLead p s then [] else s.sup.keys
    b := (releaseResults p s).sup.b } := by
  cases p <;> rfl

/-- A port that completes no image writes nothing. -/
theorem publishPassed_writes_nothing
    (h : ¬((hostOf p s).publish = true ∧ (hostOf p s).body = true ∧ hostUp p s = true)) :
    (hostOf p (publishPassed p s)).imgSeq = (hostOf p s).imgSeq ∧ (hostOf p (publishPassed p s)).host = (hostOf p s).host := by
  have hclosed : (hostOf p (setHost p (closedPort (hostOf p s)) s)).imgSeq = (hostOf p s).imgSeq ∧
      (hostOf p (setHost p (closedPort (hostOf p s)) s)).host = (hostOf p s).host := by
    rw [hostOf_setHost, if_pos rfl]
    exact ⟨rfl, rfl⟩
  refine publishPassed_ind p s (fun t => (hostOf p t).imgSeq = (hostOf p s).imgSeq ∧ (hostOf p t).host = (hostOf p s).host)
    (fun _ => ⟨rfl, rfl⟩) (fun hpub hbody hup => absurd ⟨hpub, hbody, hup⟩ h) (fun _ _ _ => hclosed) (fun _ _ => ?_)
  rw [hostOf_releaseResults, if_pos rfl]
  exact hclosed

theorem sup_closed : (setHost p (closedPort (hostOf p s)) s).sup = s.sup := setHost_sup p _ s

/-- A publication changes of the supervisors the results and keys that it releases. -/
theorem sup_publishPassed : ∃ b, (publishPassed p s).sup = { s.sup with
    results := if releases p s then s.sup.results.filter fun r => r.port != p else s.sup.results
    keys := if releases p s && isLead p s then [] else s.sup.keys, b := b } := by
  have hcomplete : ∀ u, (completeImage p u).sup = u.sup ∧ isLead p (completeImage p u) = isLead p u := fun u => by
    simp [isLead, completeImage_keeps]
  refine publishPassed_ind p s (fun t => ∃ b, t.sup = { s.sup with
    results := if releases p s then s.sup.results.filter fun r => r.port != p else s.sup.results
    keys := if releases p s && isLead p s then [] else s.sup.keys, b := b }) (fun hpub => ?_) (fun hpub hbody hup => ?_)
    (fun hpub hbody hup => ?_) (fun hpub hbody => ?_)
  · have hrel : releases p s = false := by simp [releases, hpub]
    exact ⟨s.sup.b, by rw [hrel]; rfl⟩
  · have hrel : releases p s = true := by simp [releases, hpub, hup]
    refine ⟨(releaseResults p (completeImage p (setHost p (closedPort (hostOf p s)) s))).sup.b, (sup_releaseResults p _).trans ?_⟩
    rw [(hcomplete _).1, (hcomplete _).2, sup_closed, isLead_setHost, hrel]
    rfl
  · have hrel : releases p s = false := by simp [releases, hbody, hup]
    exact ⟨s.sup.b, by rw [hrel, sup_closed]; rfl⟩
  · have hrel : releases p s = true := by simp [releases, hpub, hbody]
    refine ⟨(releaseResults p (setHost p (closedPort (hostOf p s)) s)).sup.b, (sup_releaseResults p _).trans ?_⟩
    rw [sup_closed, isLead_setHost, hrel]
    rfl

/-- States that differ in the other port alone, and in its results and its keys, write the same for port p. -/
theorem sameView_of {t : State} (hport : hostOf p t = hostOf p s) (hbell : t.bell = s.bell) (hdev : t.dev = s.dev)
    (hman : t.man = s.man) (hpmc : t.pmc = s.pmc) (himg : t.img = s.img) {r : List Result} {k : List (Nat × Word × Nat × Nat)}
    {b : SupMem} (hsup : t.sup = { s.sup with results := r, keys := k, b := b })
    (hres : r.filter (fun x => x.port == p) = s.sup.results.filter fun x => x.port == p)
    (hkeys : isLead p s = true → k = s.sup.keys) (hin : ∀ x ∈ k, x ∈ s.sup.keys) : SameView p s t := by
  have hlead : isLead p t = isLead p s := by rw [isLead, hdev, isLead]
  refine ⟨hport, ?_, ?_, ?_, ?_, ?_, ?_⟩
  · simp only [hostUp, domOn, domOf, hport, hpmc]
  · simp only [imageHeader, hport, hbell, hdev, hman, hlead, hsup, hres]
  · simp only [resultsArea, hsup, hres]
  · simp only [Machine.keyRuns, hport, hbell, hlead, hsup]
    split
    · rename_i hkeyed
      rw [hkeys (Bool.and_eq_true _ _ ▸ hkeyed).1]
    · rfl
  · rw [hsup]
    exact hin
  · simp only [deckFrame, hbell, himg, hsup]

end Ports

section Views
variable {p : HostId} {s t u : State}

theorem SameView.refl (p : HostId) (s : State) : SameView p s s := ⟨rfl, rfl, rfl, rfl, rfl, fun _ h => h, rfl⟩

theorem SameView.trans (h : SameView p s u) (h' : SameView p u t) : SameView p s t :=
  ⟨h'.port.trans h.port, h'.up.trans h.up, h'.header.trans h.header, h'.results.trans h.results, h'.keyRuns.trans h.keyRuns,
    fun x hx => h.keys x (h'.keys x hx), h'.deck.trans h.deck⟩

/-- States with the same view write the same image. -/
theorem SameView.imageRuns (h : SameView p s t) : imageRuns p t = imageRuns p s := by
  simp only [Machine.imageRuns, imageCrc, firstRuns, h.port, h.header, h.results, h.keyRuns]

theorem SameView.roomy (h : SameView p s t) (hroom : Roomy p s) : Roomy p t :=
  ⟨h.port ▸ hroom.fifo, h.port ▸ hroom.image, fun k hk => h.port ▸ hroom.keys k (h.keys k hk)⟩

end Views

section OtherPort
variable {p q : HostId} (s : State) (hne : p ≠ q)
include hne

theorem hostOf_modHost_other (f : PortSt → PortSt) : hostOf p (modHost q f s) = hostOf p s := by
  rw [modHost, hostOf_setHost, if_neg hne]

theorem hostOf_writeKeys_other : hostOf p (writeKeys q s) = hostOf p s := by
  unfold writeKeys
  split
  · exact forEach_ind (fun t => hostOf p t = hostOf p s) s.sup.keys _ s rfl fun k _ u hu =>
      (hostOf_modHost_other u hne _).trans hu
  · rfl

theorem hostOf_raiseAt_ne (v : Nat) : hostOf p (raiseAt q v s) = hostOf p s := by
  rw [hostOf_raiseAt, if_neg fun h => hne h.1]

theorem hostOf_completeImage_other : hostOf p (completeImage q s) = hostOf p s := by
  unfold completeImage
  dsimp only
  rw [hostOf_raiseAt_ne _ hne, hostOf_modHost_other _ hne, hostOf_writeKeys_other _ hne, hostOf_modHost_other _ hne]

theorem hostOf_publishPassed_other : hostOf p (publishPassed q s) = hostOf p s := by
  have hclosed : hostOf p (setHost q (closedPort (hostOf q s)) s) = hostOf p s := by rw [hostOf_setHost, if_neg hne]
  refine publishPassed_ind q s (fun t => hostOf p t = hostOf p s) (fun _ => rfl) (fun _ _ _ => ?_) (fun _ _ _ => hclosed)
    fun _ _ => ?_
  · rw [hostOf_releaseResults, if_neg hne, hostOf_completeImage_other _ hne, hclosed]
  · rw [hostOf_releaseResults, if_neg hne, hclosed]

theorem hostOf_writeDeck_other : hostOf p (writeDeck q s) = hostOf p s := by
  unfold writeDeck
  split
  · rw [hostOf_raiseAt_ne _ hne, hostOf_modHost_other _ hne]
  · rfl

/-- The publication of one port leaves the other what it writes. -/
theorem sameView_publishPassed : SameView p s (publishPassed q s) := by
  obtain ⟨b, hsup⟩ := sup_publishPassed q s
  have hlead : isLead p s = true → isLead q s = false := fun h => by
    cases hq : isLead q s
    · rfl
    · simp only [isLead, Bool.and_eq_true, beq_iff_eq] at h hq
      exact absurd (h.2.symm.trans hq.2) hne
  have hfilter : (s.sup.results.filter fun r => r.port != q).filter (fun x => x.port == p) =
      s.sup.results.filter fun x => x.port == p := by
    rw [List.filter_filter]
    refine List.filter_congr fun r _ => ?_
    by_cases h : r.port = p <;> simp [h, hne]
  refine sameView_of p s (hostOf_publishPassed_other s hne) ?_ ?_ ?_ ?_ ?_ hsup ?_ (fun h => ?_) fun x hx => ?_
  · simp only [publishPassed_keeps]
  · simp only [publishPassed_keeps]
  · simp only [publishPassed_keeps]
  · simp only [publishPassed_keeps]
  · simp only [publishPassed_keeps]
  · split
    · exact hfilter
    · rfl
  · rw [hlead h, Bool.and_false]
    rfl
  · split at hx
    · exact absurd hx List.not_mem_nil
    · exact hx

/-- The deck-load frame of one port leaves the other what it writes. -/
theorem sameView_writeDeck : SameView p s (writeDeck q s) := by
  refine sameView_of p s (hostOf_writeDeck_other s hne) ?_ ?_ ?_ ?_ ?_ (r := s.sup.results) (k := s.sup.keys) (b := s.sup.b) ?_ rfl
    (fun _ => rfl) fun _ h => h
  all_goals simp only [writeDeck_keeps]

end OtherPort

end Sys2Proof.Machine

namespace Sys2Proof.Machine

/-! ### The deck-load frame (R298) -/

theorem fieldLE_halves (l : List (BitVec 16)) (i : Nat) :
    fieldLE (l.flatMap fun m => leBytes 2 m.toNat) (2 * i) 2 = (l.getD i 0).toNat := by
  induction l generalizing i with
  | nil => exact fieldLE_nil _ _
  | cons m l ih =>
    rw [List.flatMap_cons]
    cases i with
    | zero => exact (fieldLE_leBytes 2 m.toNat _).trans (Nat.mod_eq_of_lt m.isLt)
    | succ i => rw [fieldLE_skip 2 _ _ _ _ (by omega), Nat.mul_succ, Nat.add_sub_cancel, ih, List.getD_cons_succ]

theorem fieldLE_deckBytes (l : List (BitVec 16)) (r : List Byte) (i : Nat) (hi : i < 32) :
    fieldLE (deckBytes l ++ r) (2 * i) 2 = (l.getD i 0).toNat := by
  have hcut : (deckBytes l ++ r).drop (2 * i) = (deckBytes l).drop (2 * i) ++ r :=
    List.drop_append_of_le_length (by rw [deckBytes, length_padTo]; omega)
  have hlen : 2 ≤ ((deckBytes l).drop (2 * i)).length := by rw [List.length_drop, deckBytes, length_padTo]; omega
  rw [fieldLE_eq, hcut, List.take_append_of_le_length hlen, ← fieldLE_eq, deckBytes, fieldLE_padTo _ _ _ _ (by omega), fieldLE_halves]

/-- What stands behind a vector of the deck. -/
theorem fieldLE_skipDeck (l : List (BitVec 16)) (r : List Byte) (off n : Nat) (h : 64 ≤ off) :
    fieldLE (deckBytes l ++ r) off n = fieldLE r (off - 64) n := by
  have hlen : (deckBytes l).length = 64 := length_padTo 64 _
  rw [fieldLE_append _ _ _ _ (hlen.symm ▸ h), hlen]

/-- The flags of a deck-load frame. -/
def deckFlags (s : State) : Nat := b2n (s.sup.holdMask != 0) + 2 * b2n s.sup.lvOk + 4 * b2n (s.bell.stat.getLsbD 0)

/-- The frame before its CRC. -/
def deckBody (s : State) : List Byte :=
  padTo 156 (wordBytes s.bell.landNo ++ (leBytes 2 (deckFlags s + 256 * s.img.cfg.lines.length) ++ (zeros 2 ++
    (wordBytes s.sup.holdMask ++ (wordBytes s.sup.lvLand ++ (BitVec.ofInt 8 s.sup.curExp :: BitVec.ofInt 8 s.sup.lvExp ::
    (zeros 2 ++ (deckBytes s.sup.cur ++ (deckBytes s.sup.lv ++ [])))))))))

theorem deckFrame_eq (s : State) : deckFrame s = deckBody s ++ wordBytes (crc32c (deckBody s)) := by
  have hbody : deckBody s = padTo 156 (wordBytes s.bell.landNo ++ leBytes 2 (deckFlags s + 256 * s.img.cfg.lines.length) ++ zeros 2 ++
      wordBytes s.sup.holdMask ++ wordBytes s.sup.lvLand ++ [BitVec.ofInt 8 s.sup.curExp, BitVec.ofInt 8 s.sup.lvExp] ++ zeros 2 ++
      deckBytes s.sup.cur ++ deckBytes s.sup.lv) := by
    simp only [deckBody, List.append_assoc, List.cons_append, List.nil_append, List.append_nil]
  rw [hbody]
  rfl

theorem length_deckBody (s : State) : (deckBody s).length = 156 := length_padTo 156 _

theorem deckFlags_bits (s : State) : deckFlags s < 8 ∧ (deckFlags s / 2 ^ 0 % 2 = 1 ↔ s.sup.holdMask ≠ 0) ∧
    (deckFlags s / 2 ^ 1 % 2 = 1 ↔ s.sup.lvOk = true) ∧ (deckFlags s / 2 ^ 2 % 2 = 1 ↔ s.bell.stat.getLsbD 0 = true) := by
  have hbits := sixFlags (s.sup.holdMask != 0) s.sup.lvOk (s.bell.stat.getLsbD 0) false false false
  have hsum : deckFlags s < 8 := by
    have ha := b2n_le_one (s.sup.holdMask != 0)
    have hb := b2n_le_one s.sup.lvOk
    have hc := b2n_le_one (s.bell.stat.getLsbD 0)
    unfold deckFlags
    omega
  obtain ⟨-, h0, h1, h2, -⟩ := hbits
  exact ⟨hsum, h0.trans bne_iff_ne, h1, h2⟩

theorem fieldLE_lowByte (x : Nat) (l : List Byte) : fieldLE (leBytes 2 x ++ l) 0 1 = x % 256 := by
  rw [show leBytes 2 x ++ l = BitVec.ofNat 8 x :: BitVec.ofNat 8 (x / 256) :: l from rfl, fieldLE_cons_zero, BitVec.toNat_ofNat]

theorem fieldLE_highByte (x : Nat) (l : List Byte) : fieldLE (leBytes 2 x ++ l) 1 1 = x / 256 % 256 := by
  rw [show leBytes 2 x ++ l = BitVec.ofNat 8 x :: BitVec.ofNat 8 (x / 256) :: l from rfl, fieldLE_cons _ _ _ _ le_rfl,
    fieldLE_cons_zero, BitVec.toNat_ofNat]

theorem fieldLE_zeros_append (k off n : Nat) (l : List Byte) (h : off + n ≤ k) : fieldLE (zeros k ++ l) off n = 0 := by
  rw [fieldLE_eq, List.drop_append_of_le_length (by simp; omega), List.take_append_of_le_length (by simp; omega), ← fieldLE_eq,
    fieldLE_zeros]

theorem fieldLE_skipZeros (k off n : Nat) (l : List Byte) (h : k ≤ off) : fieldLE (zeros k ++ l) off n = fieldLE l (off - k) n := by
  rw [fieldLE_append _ _ _ _ (by simpa using h), length_zeros]

theorem deckBody_fields (s : State) :
    fieldLE (deckBody s) 0 4 = s.bell.landNo.toNat ∧ fieldLE (deckBody s) 4 1 = deckFlags s ∧
      fieldLE (deckBody s) 5 1 = s.img.cfg.lines.length % 256 ∧ fieldLE (deckBody s) 6 2 = 0 ∧
      fieldLE (deckBody s) 8 4 = s.sup.holdMask.toNat ∧ fieldLE (deckBody s) 12 4 = s.sup.lvLand.toNat ∧
      fieldLE (deckBody s) 16 1 = (BitVec.ofInt 8 s.sup.curExp).toNat ∧ fieldLE (deckBody s) 17 1 = (BitVec.ofInt 8 s.sup.lvExp).toNat ∧
      fieldLE (deckBody s) 18 2 = 0 ∧ fieldLE (deckBody s) 148 8 = 0 := by
  have hflags := (deckFlags_bits s).1
  have hlow : (deckFlags s + 256 * s.img.cfg.lines.length) % 256 = deckFlags s := by omega
  have hhigh : (deckFlags s + 256 * s.img.cfg.lines.length) / 256 % 256 = s.img.cfg.lines.length % 256 := by omega
  refine ⟨?_, ?_, ?_, ?_, ?_, ?_, ?_, ?_, ?_, ?_⟩ <;> rw [deckBody, fieldLE_padTo _ _ _ _ (by decide)] <;>
    simp only [fieldLE_skipWord, fieldLE_skip, fieldLE_word, fieldLE_lowByte, fieldLE_highByte, fieldLE_zeros_append, fieldLE_skipZeros,
      fieldLE_cons, fieldLE_cons_zero, fieldLE_skipDeck, fieldLE_nil, Nat.reduceLeDiff, Nat.reduceSub, Nat.reduceAdd, le_refl, hlow, hhigh]

theorem deckBody_vectors (s : State) (i : Nat) (hi : i < 32) :
    fieldLE (deckBody s) (20 + 2 * i) 2 = (s.sup.cur.getD i 0).toNat ∧
      fieldLE (deckBody s) (84 + 2 * i) 2 = (s.sup.lv.getD i 0).toNat := by
  have hskip : ∀ off, 20 ≤ off → off + 2 ≤ 156 →
      fieldLE (deckBody s) off 2 = fieldLE (deckBytes s.sup.cur ++ (deckBytes s.sup.lv ++ [])) (off - 20) 2 := fun off hlo hhi => by
    rw [deckBody, fieldLE_padTo _ _ _ _ hhi, fieldLE_skipWord _ _ _ _ (by omega), fieldLE_skip _ _ _ _ _ (by omega),
      fieldLE_skipZeros _ _ _ _ (by omega), fieldLE_skipWord _ _ _ _ (by omega), fieldLE_skipWord _ _ _ _ (by omega),
      fieldLE_cons _ _ _ _ (by omega), fieldLE_cons _ _ _ _ (by omega), fieldLE_skipZeros _ _ _ _ (by omega)]
    congr 1
  constructor
  · rw [hskip _ (by omega) (by omega), Nat.add_sub_cancel_left, fieldLE_deckBytes _ _ i hi]
  · rw [hskip _ (by omega) (by omega), show 84 + 2 * i - 20 = 64 + 2 * i by omega, fieldLE_skipDeck _ _ _ _ (by omega),
      Nat.add_sub_cancel_left, fieldLE_deckBytes _ _ i hi]

section Written
variable (p : HostId) (s : State)

/-- A port that writes the deck-load frame: DLEN was set at the commit and its link is up. -/
def Decks : Prop := (hostOf p s).pubCtl.getLsbD 2 = true ∧ hostUp p s = true

theorem writeDeck_off (h : ¬Decks p s) : writeDeck p s = s := by
  unfold writeDeck
  exact if_neg fun hdeck => h ((Bool.and_eq_true _ _).mp hdeck)

/-- The frame in host memory, and its vector. -/
theorem writeDeck_port (h : Decks p s) (hfifo : (hostOf p s).txFifo = []) :
    let k := hostOf p (writeDeck p s)
    k.host = storeAll [((hostOf p s).pubDl.toNat, deckFrame s)] (hostOf p s).host ∧ k.irqSt.getLsbD 2 = true := by
  have hwritten : writeDeck p s = raiseAt p 2 (setHost p (stored [((hostOf p s).pubDl.toNat, deckFrame s)] (hostOf p s)) s) := by
    unfold writeDeck
    rw [if_pos ((Bool.and_eq_true _ _).mpr h), modHost, putHost_eq _ _ _ _ hfifo (hostOf p s).pubDl.isLt]
    rfl
  have hon : domOn (hostDom p) (setHost p (stored [((hostOf p s).pubDl.toNat, deckFrame s)] (hostOf p s)) s) = true := by
    rw [domOn_setHost]
    exact (Bool.and_eq_true _ _ ▸ h.2).2
  dsimp only
  rw [hwritten]
  refine ⟨?_, ?_⟩
  · rw [(hostOf_raiseAt_keeps p p 2 _).1, hostOf_setHost, if_pos rfl, stored_host]
  · rw [irqSt_raiseAt, if_pos ⟨rfl, hon⟩]
    simp

end Written

end Sys2Proof.Machine

namespace Sys2Proof.Machine

/-! ### A checkpoint that passes, port by port (R236, R284, R298) -/

/-- The state in which a passed checkpoint releases the images: the moves are agreed and the orders released. -/
def released (s : State) : State :=
  agreeMoves { s with sup := { s.sup with
    cpDue := false, cpOkC := true, cpokRunC := satInc 0xFFFF s.sup.cpokRunC, sent := s.sup.orders, orders := none } }

theorem passCheckpoint_eq (s : State) :
    passCheckpoint s = writeDeck .hb (writeDeck .ha (publishPassed .hb (publishPassed .ha (released s)))) := rfl

/-- What the images and frames show of the supervisors. -/
def shownSup (u : SupSt) := (u.results, u.keys, u.forces, u.holdMask, u.lvOk, u.lvLand, u.curExp, u.lvExp, u.cur, u.lv)

theorem sameView_sup (p : HostId) (s : State) (u : SupSt) (h : shownSup u = shownSup s.sup) : SameView p s { s with sup := u } := by
  simp only [shownSup, Prod.mk.injEq] at h
  obtain ⟨hres, hkeys, hforces, hhold, hlvOk, hlvLand, hcurExp, hlvExp, hcur, hlv⟩ := h
  have hport : hostOf p { s with sup := u } = hostOf p s := by cases p <;> rfl
  have hlead : isLead p { s with sup := u } = isLead p s := rfl
  refine ⟨hport, ?_, ?_, ?_, ?_, fun x hx => hkeys ▸ hx, ?_⟩
  · simp only [hostUp, domOn, domOf, hport]
  · simp only [imageHeader, hport, hlead, hforces, hres]
  · simp only [resultsArea, hres]
  · simp only [keyRuns, hport, hlead, hkeys]
  · simp only [deckFrame, hhold, hlvOk, hlvLand, hcurExp, hlvExp, hcur, hlv]

section Passed
variable (p : HostId) (s : State)

theorem hostUp_publishPassed : hostUp p (publishPassed p s) = hostUp p s := by
  have hlink := (steady_publishPassed p s p).2.2.1
  simp only [hostUp, domOn, domOf, hlink, publishPassed_keeps]

theorem deckFrame_publishPassed : deckFrame (publishPassed p s) = deckFrame s := by
  obtain ⟨b, hsup⟩ := sup_publishPassed p s
  simp only [deckFrame, publishPassed_keeps, hsup]

theorem decks_publishPassed : Decks p (publishPassed p s) ↔ Decks p s := by
  rw [Decks, hostUp_publishPassed, (steady_publishPassed p s p).1, Decks]

theorem fifo_publishPassed (h : (hostOf p s).txFifo = []) : (hostOf p (publishPassed p s)).txFifo = [] :=
  List.eq_nil_of_length_eq_zero (by rw [(steady_publishPassed p s p).2.2.2, h, List.length_nil])

theorem imgSeq_writeDeck : (hostOf p (writeDeck p s)).imgSeq = (hostOf p s).imgSeq ∧
    (hostOf p (writeDeck p s)).pubSeq = (hostOf p s).pubSeq := by
  unfold writeDeck
  split
  · obtain ⟨t, m, hput, -⟩ := putHost_keeps (hostOf p s).pubDl 0 (deckFrame s) (hostOf p s)
    obtain ⟨-, hseq, hpubSeq⟩ := hostOf_raiseAt_keeps p p 2 (modHost p (fun h => putHost h.pubDl 0 (deckFrame s) h) s)
    rw [hseq, hpubSeq, modHost, hostOf_setHost, if_pos rfl, hput]
    exact ⟨rfl, rfl⟩
  · exact ⟨rfl, rfl⟩

/-- A passed checkpoint for one port: its image first, then its frame, each in a state that differs from the one before in what
belongs to the other port. -/
theorem passCheckpoint_port : ∃ u v, SameView p (released s) u ∧ SameView p (publishPassed p u) v ∧
    hostOf p (passCheckpoint s) = hostOf p (writeDeck p v) := by
  rw [passCheckpoint_eq]
  cases p with
  | ha =>
    exact ⟨released s, publishPassed .hb (publishPassed .ha (released s)), .refl .ha _, sameView_publishPassed _ (by decide),
      hostOf_writeDeck_other _ (by decide)⟩
  | hb =>
    exact ⟨publishPassed .ha (released s), writeDeck .ha (publishPassed .hb (publishPassed .ha (released s))),
      sameView_publishPassed _ (by decide), sameView_writeDeck _ (by decide), rfl⟩

theorem sameView_released : SameView p s (released s) := sameView_sup p s _ rfl

/-- Port p writes the frame at a passed checkpoint exactly if it could at its start. -/
theorem decks_of_views {s u v : State} (hu : SameView p s u) (hv : SameView p (publishPassed p u) v) : Decks p v ↔ Decks p s := by
  have hdecks : Decks p (publishPassed p u) ↔ Decks p s := by
    rw [decks_publishPassed, Decks, hu.port, hu.up, Decks]
  rwa [Decks, hv.port, hv.up]

theorem passCheckpoint_writes_nothing (h : ¬((hostOf p s).publish = true ∧ (hostOf p s).body = true ∧ hostUp p s = true)) :
    (hostOf p (passCheckpoint s)).imgSeq = (hostOf p s).imgSeq ∧
      (¬Decks p s → (hostOf p (passCheckpoint s)).host = (hostOf p s).host) := by
  obtain ⟨u, v, hu, hv, hport⟩ := passCheckpoint_port p s
  have hsu := (sameView_released p s).trans hu
  obtain ⟨hseq, hhost⟩ := publishPassed_writes_nothing p u (by rwa [hsu.port, hsu.up])
  rw [hport, (imgSeq_writeDeck p v).1, hv.port, hseq, hsu.port]
  refine ⟨rfl, fun hdeck => ?_⟩
  rw [writeDeck_off p v ((decks_of_views p hsu hv).not.mpr hdeck), hv.port, hhost, hsu.port]

/-- The image that a passed checkpoint leaves in host memory where no frame is written behind it. -/
theorem passCheckpoint_image (hpub : (hostOf p s).publish = true) (hbody : (hostOf p s).body = true) (hup : hostUp p s = true)
    (hroom : Roomy p s) (hdeck : ¬Decks p s) :
    let h := hostOf p s
    let k := hostOf p (passCheckpoint s)
    k.host = imageMem p s ∧ k.imgSeq = h.imgSeq + 1 ∧ k.pubSeq = h.imgSeq + 1 ∧ k.irqSt.getLsbD 0 = true := by
  obtain ⟨u, v, hu, hv, hport⟩ := passCheckpoint_port p s
  have hsu := (sameView_released p s).trans hu
  have hdone := publishPassed_image p u (hsu.port ▸ hpub) (hsu.port ▸ hbody) (hsu.up.trans hup) (hsu.roomy hroom)
  rw [hsu.imageRuns, hsu.port] at hdone
  dsimp only
  rw [hport, writeDeck_off p v ((decks_of_views p hsu hv).not.mpr hdeck), hv.port]
  exact hdone

/-- The frame that a passed checkpoint leaves in host memory. -/
theorem passCheckpoint_deck (hdeck : Decks p s) (hfifo : (hostOf p s).txFifo = []) :
    let k := hostOf p (passCheckpoint s)
    Holds k.host (hostOf p s).pubDl.toNat (deckFrame s) ∧ k.irqSt.getLsbD 2 = true := by
  obtain ⟨u, v, hu, hv, hport⟩ := passCheckpoint_port p s
  have hsu := (sameView_released p s).trans hu
  have hfifo' : (hostOf p v).txFifo = [] := hv.port ▸ fifo_publishPassed p u (hsu.port ▸ hfifo)
  obtain ⟨hhost, hirq⟩ := writeDeck_port p v ((decks_of_views p hsu hv).mpr hdeck) hfifo'
  have hframe : deckFrame v = deckFrame s := (hv.deck.trans (deckFrame_publishPassed p u)).trans hsu.deck
  have hplace : (hostOf p v).pubDl = (hostOf p s).pubDl := by rw [hv.port, (steady_publishPassed p u p).2.1, hsu.port]
  rw [hframe, hplace] at hhost
  dsimp only
  rw [hport, hhost]
  exact ⟨holds_memStore _ _ _, hirq⟩

end Passed

/-- A port whose image is complete, or that publishes without one, has no result left (R288). -/
theorem passCheckpoint_results (p : HostId) (s : State) (h : releases p s = true) :
    ∀ r ∈ (passCheckpoint s).sup.results, r.port ≠ p := by
  have hreleases : ∀ {u v}, SameView p u v → releases p v = releases p u := fun hv => by rw [releases, hv.port, hv.up, releases]
  have hsub : ∀ q u, ∀ r ∈ (publishPassed q u).sup.results, r ∈ u.sup.results := fun q u r hr => by
    obtain ⟨b, hsup⟩ := sup_publishPassed q u
    rw [hsup] at hr
    dsimp only at hr
    split at hr
    · exact (List.mem_filter.mp hr).1
    · exact hr
  have hown : ∀ u, releases p u = true → ∀ r ∈ (publishPassed p u).sup.results, r.port ≠ p := fun u hu r hr => by
    obtain ⟨b, hsup⟩ := sup_publishPassed p u
    rw [hsup, hu] at hr
    simpa using (List.mem_filter.mp hr).2
  have hrel : releases p (released s) = true := (hreleases (sameView_released p s)).trans h
  have hsup : (passCheckpoint s).sup = (publishPassed .hb (publishPassed .ha (released s))).sup := by
    simp only [passCheckpoint_eq, writeDeck_keeps]
  intro r hr
  rw [hsup] at hr
  cases p with
  | ha => exact hown _ hrel r (hsub .hb _ r hr)
  | hb =>
    have hfirst : SameView .hb (released s) (publishPassed .ha (released s)) := sameView_publishPassed _ (by decide)
    exact hown _ ((hreleases hfirst).trans hrel) r hr

theorem cpOkC_passCheckpoint (s : State) : (passCheckpoint s).sup.cpOkC = true := by
  have hkeep : ∀ q u, (publishPassed q u).sup.cpOkC = u.sup.cpOkC := fun q u => by
    obtain ⟨b, hsup⟩ := sup_publishPassed q u
    rw [hsup]
  have hsup : (passCheckpoint s).sup = (publishPassed .hb (publishPassed .ha (released s))).sup := by
    simp only [passCheckpoint_eq, writeDeck_keeps]
  rw [hsup, hkeep, hkeep]
  rfl

/-- The state with which the checkpoint judges: its digests taken. -/
def judged (w : CheckIn) (s : State) : State :=
  takeDigests w.errA w.errB { s with sup := { s.sup with passA := w.passA, passB := w.passB } }

theorem hostOf_judged (w : CheckIn) (s : State) (p : HostId) : hostOf p (judged w s) = hostOf p s := by
  cases p <;> rfl

theorem sameView_judged (w : CheckIn) (s : State) (p : HostId) : SameView p s (judged w s) := sameView_sup p s _ rfl

/-- A checkpoint fails and writes nothing, or passes; then the mailboxes are taken. -/
theorem checkpoint_cases (w : CheckIn) (s : State) :
    (∃ bits, KeepsImages (failCheckpoint bits (judged w s)) (checkpoint w s)) ∨
      KeepsImages (passCheckpoint (judged w s)) (checkpoint w s) := by
  unfold checkpoint
  dsimp only
  split
  · exact .inr (keepsImages_takeMailboxes false w.disagree (passCheckpoint (judged w s)))
  · exact .inl ⟨cpFailure w (judged w s), keepsImages_takeMailboxes true w.disagree (failCheckpoint _ (judged w s))⟩

end Sys2Proof.Machine

namespace Sys2Proof.Machine

/-! ### What host memory shows behind a passed checkpoint (R285, R291, R298) -/

section Shown
variable (p : HostId) (s : State)

/-- A field of the completed image's header, as host memory shows it. -/
theorem imageMem_field (off n : Nat) (h : off + n ≤ 0x3C) :
    memLE (imageMem p s) (bufferAt (hostOf p s) + off) n = fieldLE (imageHeader p s) off n :=
  (imageMem_header p s).left.memLE off n (by rwa [length_imageHeader])

theorem imageMem_shows_header :
    let at_ := fun a n : Nat => memLE (imageMem p s) (bufferAt (hostOf p s) + a) n
    at_ 0 4 = s.bell.landNo.toNat ∧ at_ 4 6 = s.bell.tickTime.toNat ∧ at_ 0x0C 4 = ((hostOf p s).imgSeq + 1).toNat ∧
      at_ 0x10 4 = s.dev.wrWidx.toNat ∧ at_ 0x14 4 = (hostOf p s).resSeq.toNat ∧ at_ 0x18 1 = (hostOf p s).mbStat % 256 ∧
      at_ 0x19 1 = (s.sup.results.filter fun r => r.port == p).length % 256 ∧ at_ 0x1A 2 = (hostOf p s).pub % 65536 ∧
      at_ 0x1C 32 = 0 := by
  obtain ⟨hland, htime, -, hseq, hwidx, hres, hstat, hcount, hpub, hzero⟩ := imageHeader_fields p s
  exact ⟨(imageMem_field p s 0 4 (by decide)).trans hland, (imageMem_field p s 4 6 (by decide)).trans htime,
    (imageMem_field p s 0x0C 4 (by decide)).trans hseq, (imageMem_field p s 0x10 4 (by decide)).trans hwidx,
    (imageMem_field p s 0x14 4 (by decide)).trans hres, (imageMem_field p s 0x18 1 (by decide)).trans hstat,
    (imageMem_field p s 0x19 1 (by decide)).trans hcount, (imageMem_field p s 0x1A 2 (by decide)).trans hpub,
    (imageMem_field p s 0x1C 32 (by decide)).trans hzero⟩

theorem imageMem_shows_flags :
    let flags := memLE (imageMem p s) (bufferAt (hostOf p s) + 0x0A) 2
    flags < 64 ∧ (flags / 2 ^ 0 % 2 = 1 ↔ isLead p s = true) ∧ (flags / 2 ^ 1 % 2 = 1 ↔ s.sup.forces ≠ []) ∧
      (flags / 2 ^ 2 % 2 = 1 ↔ s.bell.stat.getLsbD 0 = true) ∧
      (flags / 2 ^ 3 % 2 = 1 ↔ ¬(s.bell.stat.getLsbD 1 = true ∧ s.bell.stat.getLsbD 2 = true)) ∧
      (flags / 2 ^ 4 % 2 = 1 ↔ s.man.failed = true) ∧ (flags / 2 ^ 5 % 2 = 1 ↔ (hostOf p s).recDrop = true) := by
  have hflags := (imageMem_field p s 0x0A 2 (by decide)).trans (imageHeader_fields p s).2.2.1
  obtain ⟨hlt, hlead, hforce, hhold, htree, hfail, hdrop⟩ := sixFlags (isLead p s) (!s.sup.forces.isEmpty) (s.bell.stat.getLsbD 0)
    (!s.bell.stat.getLsbD 1 || !s.bell.stat.getLsbD 2) s.man.failed (hostOf p s).recDrop
  dsimp only
  rw [hflags]
  refine ⟨hlt, hlead, hforce.trans ?_, hhold, htree.trans ?_, hfail, hdrop⟩
  · simp
  · cases s.bell.stat.getLsbD 1 <;> simp

theorem imageMem_shows_crc (hroom : (hostOf p s).pubImg.toNat + 0x10000 ≤ 2 ^ 64) :
    let b := bufferAt (hostOf p s)
    memLE (imageMem p s) (b + 0x3C) 4 = (crc32c (memLoad (imageMem p s) b 0x3C ++ memLoad (imageMem p s) (b + 0x40) 0x2FC0)).toNat := by
  have hcrc := (imageMem_header p s).right.memLE 0 4 (by simp)
  rw [Nat.add_zero, fieldLE_word_end, length_imageHeader] at hcrc
  exact hcrc.trans (congrArg BitVec.toNat (imageMem_crc p s hroom))

/-- The run of an entry of the results. -/
theorem imageMem_resultEntry (hclear : KeysClear p s) (i : Nat) (hi : i < 127) :
    Holds (imageMem p s) (bufferAt (hostOf p s) + 0x200 + 8 * i) (resultEntry p s i) := by
  have harea := imageMem_results p s hclear
  rw [resultsArea_eq, padTo_eq _ _ (by rw [length_table (length_resultEntry p s)]; decide)] at harea
  exact harea.left.record (length_resultEntry p s) i hi

theorem imageMem_shows_result (hclear : KeysClear p s) (i : Nat) (hi : i < 127) (r : Result) (h : resultAt p i s = some r) :
    let at_ := fun a n : Nat => memLE (imageMem p s) (bufferAt (hostOf p s) + a) n
    at_ (0x200 + 8 * i) 1 = i ∧ at_ (0x201 + 8 * i) 1 = r.code % 256 ∧ at_ (0x202 + 8 * i) 2 = r.value % 65536 ∧
      at_ (0x204 + 8 * i) 4 = r.tag.toNat := by
  obtain ⟨hix, hcode, hvalue, htag⟩ := resultEntry_fields p s i hi r h
  have field : ∀ off n, off + n ≤ 8 → memLE (imageMem p s) (bufferAt (hostOf p s) + (0x200 + off + 8 * i)) n =
      fieldLE (resultEntry p s i) off n := fun off n hin => by
    rw [← (imageMem_resultEntry p s hclear i hi).memLE off n (by rwa [length_resultEntry])]
    congr 1
    omega
  exact ⟨(field 0 1 (by decide)).trans hix, (field 1 1 (by decide)).trans hcode, (field 2 2 (by decide)).trans hvalue,
    (field 4 4 (by decide)).trans htag⟩

theorem imageMem_shows_noResult (hclear : KeysClear p s) (i : Nat) (hi : i < 127) (h : resultAt p i s = none) :
    memLE (imageMem p s) (bufferAt (hostOf p s) + (0x200 + 8 * i)) 8 = 0 := by
  have hfield := (imageMem_resultEntry p s hclear i hi).memLE 0 8 (by rw [length_resultEntry])
  rw [resultEntry_empty p s i h, fieldLE_zeros, Nat.add_zero, Nat.add_assoc] at hfield
  exact hfield

end Shown

section Frame
variable {m : Mem} {a : Nat} {s : State} (h : Holds m a (deckFrame s))
include h

theorem deckFrame_field (off n : Nat) (hin : off + n ≤ 156) : memLE m (a + off) n = fieldLE (deckBody s) off n :=
  (deckFrame_eq s ▸ h).left.memLE off n (by rwa [length_deckBody])

/-- What a memory that holds the deck-load frame shows of it. -/
theorem deckFrame_shows :
    let at_ := fun o n : Nat => memLE m (a + o) n
    at_ 0 4 = s.bell.landNo.toNat ∧ at_ 5 1 = s.img.cfg.lines.length % 256 ∧ at_ 6 2 = 0 ∧ at_ 8 4 = s.sup.holdMask.toNat ∧
      at_ 12 4 = s.sup.lvLand.toNat ∧ at_ 16 1 = (BitVec.ofInt 8 s.sup.curExp).toNat ∧
      at_ 17 1 = (BitVec.ofInt 8 s.sup.lvExp).toNat ∧ at_ 18 2 = 0 ∧ at_ 148 8 = 0 := by
  obtain ⟨hland, -, hlines, hzero, hhold, hlvLand, hcurExp, hlvExp, hzero', hzero''⟩ := deckBody_fields s
  exact ⟨(deckFrame_field h 0 4 (by decide)).trans hland, (deckFrame_field h 5 1 (by decide)).trans hlines,
    (deckFrame_field h 6 2 (by decide)).trans hzero,
    (deckFrame_field h 8 4 (by decide)).trans hhold, (deckFrame_field h 12 4 (by decide)).trans hlvLand,
    (deckFrame_field h 16 1 (by decide)).trans hcurExp, (deckFrame_field h 17 1 (by decide)).trans hlvExp,
    (deckFrame_field h 18 2 (by decide)).trans hzero', (deckFrame_field h 148 8 (by decide)).trans hzero''⟩

theorem deckFrame_shows_flags : let flags := memLE m (a + 4) 1
    flags < 8 ∧ (flags / 2 ^ 0 % 2 = 1 ↔ s.sup.holdMask ≠ 0) ∧ (flags / 2 ^ 1 % 2 = 1 ↔ s.sup.lvOk = true) ∧
      (flags / 2 ^ 2 % 2 = 1 ↔ s.bell.stat.getLsbD 0 = true) := by
  dsimp only
  rw [(deckFrame_field h 4 1 (by decide)).trans (deckBody_fields s).2.1]
  exact deckFlags_bits s

theorem deckFrame_shows_vectors (i : Nat) (hi : i < 32) :
    memLE m (a + (20 + 2 * i)) 2 = (s.sup.cur.getD i 0).toNat ∧ memLE m (a + (84 + 2 * i)) 2 = (s.sup.lv.getD i 0).toNat :=
  ⟨(deckFrame_field h _ 2 (by omega)).trans (deckBody_vectors s i hi).1,
    (deckFrame_field h _ 2 (by omega)).trans (deckBody_vectors s i hi).2⟩

theorem deckFrame_shows_crc : memLE m (a + 156) 4 = (crc32c (memLoad m a 156)).toNat := by
  have hcrc := holds_crc (deckFrame_eq s ▸ h)
  rwa [length_deckBody] at hcrc

end Frame

/-! ### The checkpoint as a step -/

/-- A checkpoint that is due fails and writes nothing, or passes and releases each port's image and frame. -/
theorem exec_checkpoint (w : CheckIn) (s : State) (hmode : s.dev.mode ≠ .boot) (hsafe : s.dev.safe = false) (hdue : s.sup.cpDue = true) :
    ∃ t, exec (.checkpoint w) s = .next t ∧
      ((t.sup.cpOkC = false ∧ ∀ q, (hostOf q t).host = (hostOf q s).host ∧ (hostOf q t).imgSeq = (hostOf q s).imgSeq) ∨
        (t.sup.cpOkC = true ∧ KeepsImages (passCheckpoint (judged w s)) t)) := by
  have hcom : (commits s && s.sup.cpDue) = true := by rw [(commits_iff s).mpr ⟨hmode, hsafe⟩, hdue]; rfl
  refine ⟨checkpoint w s, ?_, ?_⟩
  · show execCheckpoint w s = _
    rw [execCheckpoint, if_pos hcom]
  · rcases checkpoint_cases w s with ⟨bits, hkeeps⟩ | hkeeps
    · obtain ⟨hok, hwrites⟩ := failCheckpoint_writes bits (judged w s)
      obtain ⟨l, hl⟩ := hkeeps.sup
      refine .inl ⟨by rw [hl]; exact hok, fun q => ?_⟩
      rw [hkeeps.host, hkeeps.imgSeq, (hwrites q).1, (hwrites q).2, hostOf_judged]
      exact ⟨rfl, rfl⟩
    · obtain ⟨l, hl⟩ := hkeeps.sup
      exact .inr ⟨by rw [hl]; exact cpOkC_passCheckpoint _, hkeeps⟩

section Step
variable {p : HostId} {w : CheckIn} {s t : State} (h : KeepsImages (passCheckpoint (judged w s)) t)
include h

theorem checkpoint_writes_nothing (himage : ¬((hostOf p s).publish = true ∧ (hostOf p s).body = true ∧ hostUp p s = true)) :
    (hostOf p t).imgSeq = (hostOf p s).imgSeq ∧ (¬Decks p s → (hostOf p t).host = (hostOf p s).host) := by
  have hview := sameView_judged w s p
  obtain ⟨hseq, hhost⟩ := passCheckpoint_writes_nothing p (judged w s) (by rwa [hview.port, hview.up])
  rw [Decks, hview.port, hview.up] at hhost
  rw [h.imgSeq, h.host, hseq, hview.port]
  exact ⟨rfl, hhost⟩

theorem checkpoint_results (hpub : (hostOf p s).publish = true) (hbody : (hostOf p s).body = true → hostUp p s = true) :
    ∀ r ∈ t.sup.results, r.port ≠ p := by
  have hview := sameView_judged w s p
  have hrel : releases p (judged w s) = true := by
    rw [releases, hview.port, hview.up, hpub]
    cases hb : (hostOf p s).body
    · rfl
    · rw [hbody hb]
      rfl
  obtain ⟨l, hl⟩ := h.sup
  rw [hl]
  exact passCheckpoint_results p (judged w s) hrel

theorem checkpoint_image (hpub : (hostOf p s).publish = true) (hbody : (hostOf p s).body = true) (hup : hostUp p s = true)
    (hroom : Roomy p s) (hdeck : ¬Decks p s) :
    (hostOf p t).host = imageMem p s ∧ (hostOf p t).imgSeq = (hostOf p s).imgSeq + 1 ∧
      (hostOf p t).pubSeq = (hostOf p s).imgSeq + 1 ∧ (hostOf p t).irqSt.getLsbD 0 = true := by
  have hview := sameView_judged w s p
  obtain ⟨hhost, hseq, hpubSeq, hirq⟩ := passCheckpoint_image p (judged w s) (hview.port ▸ hpub) (hview.port ▸ hbody)
    (hview.up.trans hup) (hview.roomy hroom) (by rwa [Decks, hview.port, hview.up])
  rw [h.host, h.imgSeq, h.pubSeq, hhost, hseq, hpubSeq, hview.port, imageMem, hview.imageRuns, hview.port]
  exact ⟨rfl, rfl, rfl, h.irq p 0 hirq⟩

theorem checkpoint_deck (hdeck : Decks p s) (hfifo : (hostOf p s).txFifo = []) :
    Holds (hostOf p t).host (hostOf p s).pubDl.toNat (deckFrame s) ∧ (hostOf p t).irqSt.getLsbD 2 = true := by
  have hview := sameView_judged w s p
  obtain ⟨hholds, hirq⟩ := passCheckpoint_deck p (judged w s) (by rwa [Decks, hview.port, hview.up]) (hview.port ▸ hfifo)
  rw [hview.port, hview.deck] at hholds
  rw [h.host]
  exact ⟨hholds, h.irq p 2 hirq⟩

end Step

end Sys2Proof.Machine

namespace Sys2Proof.Machine

/-! ### Wheel records in the lead's ring (R115 to R118) -/

theorem length_recBytes (r : WheelRec) : (recBytes r).length = 16 := by simp [recBytes]

/-- The place of a record in the ring, by its number behind those written. -/
def ringSlot (h : PortSt) (w : Word) (i : Nat) : Nat := h.wrBase.toNat + 16 * ((w.toNat + i) % 2 ^ h.wrSize)

/-- The runs of the records of a commit. -/
def recordRuns (h : PortSt) (w : Word) (l : List WheelRec) : List (Nat × List Byte) :=
  l.zipIdx.map fun x => (ringSlot h w x.2, recBytes x.1)

theorem length_recordRuns (h : PortSt) (w : Word) (l : List WheelRec) : (recordRuns h w l).length = l.length := by simp [recordRuns]

theorem getElem_recordRuns (h : PortSt) (w : Word) (l : List WheelRec) (i : Nat) (hi : i < (recordRuns h w l).length) :
    (recordRuns h w l)[i] = (ringSlot h w i, recBytes (l[i]'(length_recordRuns h w l ▸ hi))) := by
  simp [recordRuns]

theorem covers_recordRuns (h : PortSt) (w : Word) (l : List WheelRec) (i : Nat) (hi : i < (recordRuns h w l).length) (a : Nat) :
    Covers (recordRuns h w l)[i] a ↔ ringSlot h w i ≤ a ∧ a < ringSlot h w i + 16 := by
  rw [getElem_recordRuns, Covers, length_recBytes]

theorem foldl_ring (w : Word) (l : List (WheelRec × Nat)) (h : PortSt) (hfifo : h.txFifo = [])
    (hroom : h.wrBase.toNat + 16 * 2 ^ h.wrSize ≤ 2 ^ 64) :
    l.foldl (fun k x => putHost k.wrBase (16 * ((w.toNat + x.2) % 2 ^ h.wrSize)) (recBytes x.1) k) h =
      stored (l.map fun x => (ringSlot h w x.2, recBytes x.1)) h := by
  suffices hall : ∀ k : PortSt, k.txFifo = [] → k.wrBase = h.wrBase →
      l.foldl (fun k x => putHost k.wrBase (16 * ((w.toNat + x.2) % 2 ^ h.wrSize)) (recBytes x.1) k) k =
        stored (l.map fun x => (ringSlot h w x.2, recBytes x.1)) k from hall h hfifo rfl
  induction l with
  | nil => exact fun _ _ _ => rfl
  | cons x l ih =>
    intro k hk hbase
    have hslot : k.wrBase.toNat + 16 * ((w.toNat + x.2) % 2 ^ h.wrSize) < 2 ^ 64 := by
      have := Nat.mod_lt (w.toNat + x.2) (Nat.two_pow_pos h.wrSize)
      rw [hbase]
      omega
    rw [List.foldl_cons, putHost_eq _ _ _ k hk hslot, ih (stored [_] k) hk hbase, stored_stored, hbase]
    rfl

/-- Records of one commit that fit into the ring stand in slots of their own. -/
theorem recordRuns_apart (h : PortSt) (w : Word) (l : List WheelRec) (hfit : l.length ≤ 2 ^ h.wrSize) :
    (recordRuns h w l).Pairwise Apart := by
  refine List.pairwise_iff_getElem.mpr fun i j hi hj hij a ⟨hcov, hcov'⟩ => ?_
  rw [covers_recordRuns, ringSlot] at hcov hcov'
  rw [length_recordRuns] at hj
  have hslot : (w.toNat + i) % 2 ^ h.wrSize = (w.toNat + j) % 2 ^ h.wrSize := by omega
  have hsame : i ≡ j [MOD 2 ^ h.wrSize] := Nat.ModEq.add_left_cancel' w.toNat hslot
  exact absurd (Nat.ModEq.eq_of_lt_of_lt hsame (by omega) (by omega)) (by omega)

/-- A sticky bit changes of a port only what belongs to its interrupts (R300). -/
theorem hostOf_sticky_eq (q : HostId) (c i b : Nat) (s : State) :
    ∃ x m l, hostOf q (sticky c i b s) = { hostOf q s with irqSt := x, msixPend := m, sent := l } := by
  unfold sticky raiseBoth
  split
  · exact ⟨_, _, _, hostOf_noteEvent q c i b s⟩
  · have hset : hostOf q (sendReport c i b (setFltReg c i (fltReg c i s ||| 1#32 <<< b) (noteEvent c i b s))) = hostOf q s := by
      rw [hostOf_sendReport, hostOf_setFltReg, hostOf_noteEvent]
    generalize sendReport c i b _ = u at hset
    obtain ⟨x, m, l, hb⟩ := hostOf_raiseAt_eq .hb q 3 (raiseAt .ha 3 u)
    obtain ⟨x', m', l', ha⟩ := hostOf_raiseAt_eq .ha q 3 u
    rw [hb, ha, hset]
    exact ⟨_, _, _, rfl⟩

section Records
variable (p : HostId) (l : List WheelRec) (s : State)

/-- The records of a commit that find room. -/
def fitting : List WheelRec := l.take (2 ^ (hostOf p s).wrSize - (s.dev.wrWidx - (hostOf p s).wrRidx).toNat)

/-- The lead's port once the records stand in its ring. -/
def ringPort : PortSt :=
  { stored (recordRuns (hostOf p s) s.dev.wrWidx (fitting p l s)) (hostOf p s) with
    wrDrop := min 0xFFFFFFFF ((hostOf p s).wrDrop + (l.length - (fitting p l s).length))
    recDrop := (hostOf p s).recDrop || decide (0 < l.length - (fitting p l s).length) }

/-- The state with the records in the ring, before what is dropped is reported. -/
def ringed : State :=
  let u := setHost p (ringPort p l s) s
  { u with dev := { u.dev with wrWidx := u.dev.wrWidx + BitVec.ofNat 32 (fitting p l s).length } }

theorem dev_ringed : (ringed p l s).dev = { s.dev with wrWidx := s.dev.wrWidx + BitVec.ofNat 32 (fitting p l s).length } := by
  simp only [ringed, setHost_dev]

theorem hostOf_ringed : hostOf p (ringed p l s) = ringPort p l s := by
  cases p <;> rfl

theorem writeRecords_off (h : wrEn (hostOf p s) = false ∨ hostUp p s = false) : writeRecords p l s = s := by
  unfold writeRecords
  rcases h with h | h <;> simp [h]

variable {p l s} in
theorem writeRecords_eq (hen : wrEn (hostOf p s) = true) (hup : hostUp p s = true) (hfifo : (hostOf p s).txFifo = [])
    (hlo : 6 ≤ (hostOf p s).wrSize) (hhi : (hostOf p s).wrSize ≤ 16)
    (hroom : (hostOf p s).wrBase.toNat + 16 * 2 ^ (hostOf p s).wrSize ≤ 2 ^ 64) (hl : l ≠ []) : writeRecords p l s =
      let s3 := stickyIf (decide (0 < l.length - (fitting p l s).length)) (clsHost p) 0 4 (ringed p l s)
      if (fitting p l s).isEmpty then s3 else raiseAt p 1 s3 := by
  have hsize : ringSize (hostOf p s) = 2 ^ (hostOf p s).wrSize := if_pos ⟨hlo, hhi⟩
  have hput := foldl_ring s.dev.wrWidx (fitting p l s).zipIdx (hostOf p s) hfifo hroom
  have hgo : (l.isEmpty || !wrEn (hostOf p s) || !hostUp p s) = false := by simp [hl, hen, hup]
  unfold writeRecords
  dsimp only
  rw [hgo, hsize, if_neg Bool.false_ne_true, modHost]
  have hport : ringPort p l s = 
      { (fitting p l s).zipIdx.foldl (fun k x =>
          putHost k.wrBase (16 * ((s.dev.wrWidx.toNat + x.2) % 2 ^ (hostOf p s).wrSize)) (recBytes x.1) k) (hostOf p s) with
      wrDrop := min 0xFFFFFFFF ((hostOf p s).wrDrop + (l.length - (fitting p l s).length)),
      recDrop := (hostOf p s).recDrop || decide (0 < l.length - (fitting p l s).length) } := by
    rw [hput]
    rfl
  rw [ringed, hport]
  rfl

theorem domOn_ringed (d : Nat) : domOn d (ringed p l s) = domOn d s := domOn_setHost d p _ s

theorem domOn_sticky (d c i b : Nat) : domOn d (sticky c i b s) = domOn d s := by
  simp only [domOn, domOf, sticky_keeps]

/-- A report of dropped records keeps the port but for its interrupts, the device and the domains. -/
theorem stickyIf_lead (y : Bool) (c i b : Nat) :
    (∃ x m r, hostOf p (stickyIf y c i b s) = { hostOf p s with irqSt := x, msixPend := m, sent := r }) ∧
      (stickyIf y c i b s).dev = s.dev ∧ ∀ d, domOn d (stickyIf y c i b s) = domOn d s := by
  cases y
  · exact ⟨⟨_, _, _, rfl⟩, rfl, fun _ => rfl⟩
  · refine ⟨hostOf_sticky_eq p c i b s, ?_, fun d => domOn_sticky s d c i b⟩
    show (sticky c i b s).dev = s.dev
    simp only [sticky_keeps]

variable {p l s} in
/-- The lead's port and the device once the records of a commit are written. -/
theorem writeRecords_lead (hen : wrEn (hostOf p s) = true) (hup : hostUp p s = true) (hfifo : (hostOf p s).txFifo = [])
    (hlo : 6 ≤ (hostOf p s).wrSize) (hhi : (hostOf p s).wrSize ≤ 16)
    (hroom : (hostOf p s).wrBase.toNat + 16 * 2 ^ (hostOf p s).wrSize ≤ 2 ^ 64) (hl : l ≠ []) :
    (writeRecords p l s).dev = (ringed p l s).dev ∧
      (∃ x m r, hostOf p (writeRecords p l s) = { ringPort p l s with irqSt := x, msixPend := m, sent := r }) ∧
      ((fitting p l s).length < l.length → (fltReg (clsHost p) 0 (writeRecords p l s)).getLsbD 4 = true) ∧
      (0 < (fitting p l s).length → (hostOf p (writeRecords p l s)).irqSt.getLsbD 1 = true) := by
  obtain ⟨⟨x, m, r, hport⟩, hdev, hdom⟩ :=
    stickyIf_lead p (ringed p l s) (decide (0 < l.length - (fitting p l s).length)) (clsHost p) 0 4
  have hlost : (fitting p l s).length < l.length →
      (fltReg (clsHost p) 0 (stickyIf (decide (0 < l.length - (fitting p l s).length)) (clsHost p) 0 4 (ringed p l s))).getLsbD 4 =
        true := fun h => by
    rw [decide_eq_true (Nat.sub_pos_of_lt h)]
    exact sticky_bit _ 0 4 (by decide) _
  rw [hostOf_ringed] at hport
  rw [writeRecords_eq hen hup hfifo hlo hhi hroom hl]
  generalize stickyIf _ (clsHost p) 0 4 (ringed p l s) = u at hport hdev hdom hlost ⊢
  dsimp only
  cases hfit : fitting p l s with
  | nil =>
    rw [hfit] at hlost
    exact ⟨hdev, ⟨x, m, r, hport⟩, hlost, fun h => absurd h (by decide)⟩
  | cons y ys =>
    have hon : domOn (hostDom p) u = true := ((hdom _).trans (domOn_ringed p l s _)).trans ((Bool.and_eq_true _ _).mp hup).2
    obtain ⟨x', m', r', hraised⟩ := hostOf_raiseAt_eq p p 1 u
    rw [hfit] at hlost
    rw [List.isEmpty_cons, if_neg Bool.false_ne_true]
    refine ⟨?_, ⟨x', m', r', ?_⟩, fun h => fltMono_raiseAt p 1 u _ _ _ (hlost h), fun _ => ?_⟩
    · simp only [raiseAt_keeps, hdev]
    · rw [hraised, hport]
    · rw [irqSt_raiseAt, if_pos ⟨rfl, hon⟩]
      simp

theorem writeRecords_nil : writeRecords p [] s = s := rfl

theorem length_fitting : (fitting p l s).length = min l.length (2 ^ (hostOf p s).wrSize - (s.dev.wrWidx - (hostOf p s).wrRidx).toNat) := by
  rw [fitting, List.length_take, Nat.min_comm]

/-- The records stand in the ring in their order, each in its slot, and nothing else of host memory has changed. -/
theorem ringPort_host :
    (∀ i < (fitting p l s).length, ∀ r, l[i]? = some r →
      Holds (ringPort p l s).host (ringSlot (hostOf p s) s.dev.wrWidx i) (recBytes r)) ∧
      ∀ a, (∀ i < (fitting p l s).length,
        ¬(ringSlot (hostOf p s) s.dev.wrWidx i ≤ a ∧ a < ringSlot (hostOf p s) s.dev.wrWidx i + 16)) →
        memGet (ringPort p l s).host a = memGet (hostOf p s).host a := by
  have hfits : (fitting p l s).length ≤ 2 ^ (hostOf p s).wrSize := by
    rw [length_fitting]
    exact (Nat.min_le_right _ _).trans (Nat.sub_le _ _)
  have hapart := recordRuns_apart (hostOf p s) s.dev.wrWidx (fitting p l s) hfits
  have hlen := length_recordRuns (hostOf p s) s.dev.wrWidx (fitting p l s)
  constructor
  · intro i hi r hr
    have hget : (fitting p l s)[i] = r := by
      obtain ⟨hil, hr⟩ := List.getElem?_eq_some_iff.mp hr
      rw [← hr]
      exact List.getElem_take
    have hrun := holds_storeAll _ (hostOf p s).host hapart _ (List.getElem_mem (hlen.symm ▸ hi))
    rw [getElem_recordRuns, hget] at hrun
    exact hrun
  · intro a hout
    refine memGet_storeAll_out _ _ a fun x hx hcov => ?_
    obtain ⟨i, hi, rfl⟩ := List.mem_iff_getElem.mp hx
    exact hout i (hlen ▸ hi) ((covers_recordRuns _ _ _ i hi a).mp hcov)

end Records

end Sys2Proof.Machine

namespace Sys2Proof.Machine

/-! ### Rounding to even (R8, R192) -/

theorem roundsTo_roundEven (n : Int) (d : Nat) (hd : 0 < d) : RoundsTo ((n : ℝ) / d) (roundEven n d) := by
  have hdpos : (0 : ℝ) < d := Nat.cast_pos.mpr hd
  set q := (2 * n + d) / (2 * (d : Int)) with hq
  set r := (2 * n + d) % (2 * (d : Int)) with hr
  have hsplit : 2 * n + d = 2 * (d : Int) * q + r := (Int.mul_ediv_add_emod (2 * n + d) (2 * d)).symm
  have hrlo : 0 ≤ r := Int.emod_nonneg _ (by omega)
  have hrhi : r < 2 * d := Int.emod_lt_of_pos _ (by omega)
  have hgap : (n : ℝ) / d - q = (r - d) / (2 * d) := by
    have hreal : 2 * (n : ℝ) + d = 2 * d * q + r := by exact_mod_cast hsplit
    field_simp
    linarith
  have hround : roundEven n d = if r = 0 ∧ q % 2 = 1 then q - 1 else q := rfl
  rw [hround]
  by_cases hr0 : r = 0
  · have hhalf : (n : ℝ) / d - q = -1 / 2 := by
      rw [hgap, hr0]
      field_simp
      simp
    right
    by_cases hodd : q % 2 = 1
    · rw [if_pos ⟨hr0, hodd⟩]
      refine ⟨?_, by omega⟩
      rw [Int.cast_sub, Int.cast_one, show (n : ℝ) / d - (q - 1) = 1 / 2 by linarith]
      norm_num
    · rw [if_neg fun h => hodd h.2]
      refine ⟨?_, by omega⟩
      rw [hhalf]
      norm_num
  · left
    rw [if_neg fun h => hr0 h.1, hgap, abs_lt]
    have hrpos : (0 : ℝ) < r := Int.cast_pos.mpr (by omega)
    have hrlt : (r : ℝ) < 2 * d := by exact_mod_cast hrhi
    constructor
    · rw [lt_div_iff₀ (by positivity)]
      linarith
    · rw [div_lt_iff₀ (by positivity)]
      linarith

theorem abs_sub_le_half {x : ℝ} {n : Int} (h : RoundsTo x n) : |x - n| ≤ 1 / 2 := by
  rcases h with h | ⟨h, -⟩
  · exact h.le
  · exact h.le

/-- A number rounds to one integer alone. -/
theorem roundsTo_unique {x : ℝ} {m n : Int} (hm : RoundsTo x m) (hn : RoundsTo x n) : m = n := by
  have hbound := abs_sub_le_half hm
  have hbound' := abs_sub_le_half hn
  rw [abs_le] at hbound hbound'
  have hle : (m : ℝ) - n ≤ 1 := by linarith
  have hge : (n : ℝ) - m ≤ 1 := by linarith
  have hle' : m - n ≤ 1 := by exact_mod_cast hle
  have hge' : n - m ≤ 1 := by exact_mod_cast hge
  have tie : ∀ {a b : Int}, a = b + 1 → RoundsTo x a → RoundsTo x b → a % 2 = 0 ∧ b % 2 = 0 := fun {a b} hab ha hb => by
    have hboth : |x - a| = 1 / 2 ∧ |x - b| = 1 / 2 := by
      have hlo := abs_le.mp (abs_sub_le_half ha)
      have hhi := abs_le.mp (abs_sub_le_half hb)
      have hcast : (a : ℝ) = b + 1 := by exact_mod_cast hab
      have hx : x - b = 1 / 2 := by linarith
      have hx' : x - a = -1 / 2 := by linarith
      rw [hx, hx']
      norm_num
    exact ⟨(ha.resolve_left (by rw [hboth.1]; exact lt_irrefl _)).2, (hb.resolve_left (by rw [hboth.2]; exact lt_irrefl _)).2⟩
  rcases lt_trichotomy m n with h | h | h
  · have := tie (show n = m + 1 by omega) hn hm
    omega
  · exact h
  · have := tie (show m = n + 1 by omega) hm hn
    omega

/-- The rounding of a value of the deck at an exponent. -/
theorem roundsTo_deckRound (e n : Int) : RoundsTo ((n : ℝ) / 1000000 * 2 ^ (15 - e)) (deckRound e n) := by
  unfold deckRound
  split
  · rename_i he
    have hround := roundsTo_roundEven (n * 2 ^ (15 - e).toNat) 1000000 (by decide)
    have hpow : (2 : ℝ) ^ (15 - e) = 2 ^ (15 - e).toNat := by
      rw [← zpow_natCast, Int.toNat_of_nonneg (by omega)]
    rw [hpow]
    convert hround using 1
    push_cast
    ring
  · rename_i he
    have hround := roundsTo_roundEven n (1000000 * 2 ^ (e - 15).toNat) (by positivity)
    have hpow : (2 : ℝ) ^ (15 - e) = (2 ^ (e - 15).toNat)⁻¹ := by
      rw [← zpow_natCast, Int.toNat_of_nonneg (by omega), ← zpow_neg]
      congr 1
      omega
    rw [hpow]
    convert hround using 1
    push_cast
    field_simp

end Sys2Proof.Machine

namespace Sys2Proof.Machine

/-! ### The exponent of the deck vector (R192, R297) -/

/-- An integer is in the range of a mantissa. -/
def InMantissa (m : Int) : Prop := -32768 ≤ m ∧ m ≤ 32767

/-- Every value of the deck, rounded at exponent e, is in the range of a mantissa. -/
def DeckFits (l : List Int) (e : Int) : Prop := ∀ n ∈ l, InMantissa (deckRound e n)

theorem fits16_iff (l : List Int) (e : Int) : fits16 (l.map (deckRound e)) = true ↔ DeckFits l e := by
  simp [fits16, DeckFits, InMantissa]

theorem deckRound_near (e n : Int) : |(n : ℝ) / 1000000 * 2 ^ (15 - e) - deckRound e n| ≤ 1 / 2 :=
  abs_sub_le_half (roundsTo_deckRound e n)

/-- A value well inside the range rounds into it. -/
theorem inMantissa_of_abs_le {e n : Int} (h : |(n : ℝ) / 1000000 * 2 ^ (15 - e)| ≤ 32766) : InMantissa (deckRound e n) := by
  have hnear := abs_le.mp (deckRound_near e n)
  have hx := abs_le.mp h
  have hlo : (-32768 : ℝ) ≤ deckRound e n := by linarith
  have hhi : (deckRound e n : ℝ) ≤ 32767 := by linarith
  exact ⟨by exact_mod_cast hlo, by exact_mod_cast hhi⟩

theorem abs_le_of_inMantissa {e n : Int} (h : InMantissa (deckRound e n)) : |(n : ℝ) / 1000000 * 2 ^ (15 - e)| ≤ 32769 := by
  have hnear := abs_le.mp (deckRound_near e n)
  have hlo : (-32768 : ℝ) ≤ deckRound e n := by exact_mod_cast h.1
  have hhi : (deckRound e n : ℝ) ≤ 32767 := by exact_mod_cast h.2
  exact abs_le.mpr ⟨by linarith, by linarith⟩

/-- What fits an exponent fits every higher one. -/
theorem inMantissa_succ {e n : Int} (h : InMantissa (deckRound e n)) : InMantissa (deckRound (e + 1) n) := by
  have hdouble : (n : ℝ) / 1000000 * 2 ^ (15 - e) = 2 * ((n : ℝ) / 1000000 * 2 ^ (15 - (e + 1))) := by
    rw [show 15 - e = 15 - (e + 1) + 1 by ring, zpow_add_one₀ two_ne_zero]
    ring
  have hbound := abs_le_of_inMantissa h
  rw [hdouble, abs_mul, abs_two] at hbound
  exact inMantissa_of_abs_le (by linarith)

theorem DeckFits.mono {l : List Int} {d e : Int} (hle : d ≤ e) (h : DeckFits l d) : DeckFits l e := by
  induction e, hle using Int.leInduction with
  | base => exact h
  | succ e _ ih => exact fun n hn => inMantissa_succ (ih n hn)

/-- The search ends at an exponent that fits, and goes on while the next lower one fits too. -/
theorem deckExp_spec (l : List Int) (k : Nat) (e : Int) (h : DeckFits l e) : DeckFits l (deckExp l k e) ∧ e - k ≤ deckExp l k e ∧
    (deckExp l k e = e - k ∨ ¬DeckFits l (deckExp l k e - 1)) := by
  induction k generalizing e with
  | zero => exact ⟨h, by simp [deckExp], .inl (by simp [deckExp])⟩
  | succ k ih =>
    rw [deckExp]
    split
    · rename_i hfits
      obtain ⟨hfit, hge, hend⟩ := ih (e - 1) ((fits16_iff l (e - 1)).mp hfits)
      push_cast
      exact ⟨hfit, by omega, hend.imp_left fun h => by omega⟩
    · rename_i hfits
      exact ⟨h, by omega, .inr fun hfit => hfits ((fits16_iff l (e - 1)).mpr hfit)⟩

/-- Values of at most 2^32 fit the exponent at which the search begins. -/
theorem deckFits_start {l : List Int} (h : ∀ n ∈ l, |(n : ℝ) / 1000000| ≤ 2 ^ 32) : DeckFits l 40 := fun n hn => by
  refine inMantissa_of_abs_le ?_
  have hpow : (2 : ℝ) ^ ((15 : Int) - 40) = (2 ^ 25)⁻¹ := by
    rw [show (15 : Int) - 40 = -(25 : Nat) by norm_num, zpow_neg, zpow_natCast]
  rw [hpow, abs_mul, abs_of_pos (by positivity : (0 : ℝ) < (2 ^ 25)⁻¹)]
  calc |(n : ℝ) / 1000000| * (2 ^ 25)⁻¹ ≤ 2 ^ 32 * (2 ^ 25)⁻¹ := mul_le_mul_of_nonneg_right (h n hn) (by positivity)
    _ ≤ 32766 := by norm_num

/-- No value but zero fits an exponent below the least. -/
theorem not_deckFits_least {l : List Int} {n : Int} (hn : n ∈ l) (hne : n ≠ 0) : ¬DeckFits l (-129) := fun h => by
  have hbound := abs_le_of_inMantissa (h n hn)
  have hone : (1 : ℝ) ≤ |(n : ℝ)| := by exact_mod_cast Int.one_le_abs hne
  have hpow : (2 : ℝ) ^ ((15 : Int) - -129) = 2 ^ 144 := by
    rw [show (15 : Int) - -129 = (144 : Nat) by norm_num, zpow_natCast]
  rw [hpow, abs_mul, abs_div, abs_of_pos (by norm_num : (0 : ℝ) < 1000000), abs_of_pos (by positivity : (0 : ℝ) < 2 ^ 144)] at hbound
  have hlow : (1 : ℝ) / 1000000 * 2 ^ 144 ≤ |(n : ℝ)| / 1000000 * 2 ^ 144 := by gcongr
  have hbig : (32769 : ℝ) < 1 / 1000000 * 2 ^ 144 := by norm_num
  linarith

/-- The exponent that the search gives is the smallest that fits. -/
theorem deckExp_least {l : List Int} (hmax : ∀ n ∈ l, |(n : ℝ) / 1000000| ≤ 2 ^ 32) {n : Int} (hn : n ∈ l) (hne : n ≠ 0) :
    DeckFits l (deckExp l 168 40) ∧ ∀ e < deckExp l 168 40, ¬DeckFits l e := by
  obtain ⟨hfit, -, hend⟩ := deckExp_spec l 168 40 (deckFits_start hmax)
  refine ⟨hfit, fun e he h => ?_⟩
  rcases hend with hlast | hstop
  · exact not_deckFits_least hn hne (h.mono (by omega))
  · exact hstop (h.mono (by omega))

/-! ### The deck vector of a commit (R297) -/

/-- A value of the deck in units of 10^-6 t m. -/
def deckValue (s : State) (i : Nat) : Int :=
  if i < s.img.cfg.lines.length then
    ((s.img.cfg.lines.getD i []).map fun n => (shownSec n s).count).sum * (paramValue (0x100 + i) s).toInt *
      (paramValue (0x140 + i) s).toInt
  else 0

theorem foldl_counts (l : List Nat) (s : State) (n : Int) :
    l.foldl (fun n x => n + (shownSec x s).count) n = n + (l.map fun x => (shownSec x s).count).sum := by
  induction l generalizing n with
  | nil => simp
  | cons x l ih => rw [List.foldl_cons, ih, List.map_cons, List.sum_cons, add_assoc]

theorem deckValues_eq (s : State) : deckValues s = (List.range 32).map (deckValue s) := by
  refine List.map_congr_left fun i _ => ?_
  simp only [foldl_counts, zero_add, deckValue]

theorem deckFits_iff (s : State) (e : Int) : DeckFits (deckValues s) e ↔ ∀ i < 32, InMantissa (deckRound e (deckValue s i)) := by
  simp [DeckFits, deckValues_eq]

theorem deckValues_zero (s : State) : (deckValues s).all (· == 0) = true ↔ ∀ i < 32, deckValue s i = 0 := by
  simp [deckValues_eq]

theorem formDeck_zero (s : State) (h : ∀ i < 32, deckValue s i = 0) :
    (formDeck s).sup.curExp = -128 ∧ (formDeck s).sup.cur = List.replicate 32 0 := by
  have hzero := (deckValues_zero s).mpr h
  simp [formDeck, hzero]

theorem formDeck_nonzero (s : State) (h : ¬∀ i < 32, deckValue s i = 0) :
    (formDeck s).sup.curExp = deckExp (deckValues s) 168 40 ∧
      (formDeck s).sup.cur = (deckValues s).map fun n => BitVec.ofInt 16 (deckRound (deckExp (deckValues s) 168 40) n) := by
  have hzero : (deckValues s).all (· == 0) = false := Bool.eq_false_iff.mpr fun hall => h ((deckValues_zero s).mp hall)
  simp only [formDeck, hzero, Bool.false_eq_true, if_false, and_self]

/-- The mantissas of a vector that fits are the values rounded. -/
theorem formDeck_mantissa (s : State) (h : ¬∀ i < 32, deckValue s i = 0) (i : Nat) (hi : i < 32)
    (hfits : InMantissa (deckRound (deckExp (deckValues s) 168 40) (deckValue s i))) :
    ((formDeck s).sup.cur.getD i 0).toInt = deckRound (formDeck s).sup.curExp (deckValue s i) := by
  obtain ⟨hexp, hcur⟩ := formDeck_nonzero s h
  have hget : (formDeck s).sup.cur.getD i 0 = BitVec.ofInt 16 (deckRound (deckExp (deckValues s) 168 40) (deckValue s i)) := by
    rw [hcur, deckValues_eq, List.getD_eq_getElem _ _ (by simpa using hi)]
    simp
  rw [hget, hexp, BitVec.toInt_ofInt]
  obtain ⟨hlo, hhi⟩ := hfits
  exact Int.bmod_eq_of_le (by omega) (by omega)

/-- The value in tonne-metres, as R297 forms it. -/
theorem deckValue_real (s : State) (i : Nat) : (deckValue s i : ℝ) / 1000000 = if i < s.img.cfg.lines.length then
    (((s.img.cfg.lines.getD i []).map fun n => (shownSec n s).count).sum : Int) * ((paramValue (0x100 + i) s).toInt : ℝ) *
      ((paramValue (0x140 + i) s).toInt : ℝ) / 1000000 else 0 := by
  unfold deckValue
  split
  · rw [Int.cast_mul, Int.cast_mul]
  · rw [Int.cast_zero, zero_div]

theorem deckValue_real_zero (s : State) (i : Nat) : (deckValue s i : ℝ) / 1000000 = 0 ↔ deckValue s i = 0 := by simp

/-- The vector fits an exponent if every value rounds into the range of a mantissa there. -/
theorem deckFits_iff_roundsTo (s : State) (e : Int) : DeckFits (deckValues s) e ↔
    ∀ i < 32, ∃ m : Int, RoundsTo ((deckValue s i : ℝ) / 1000000 * 2 ^ (15 - e)) m ∧ -32768 ≤ m ∧ m ≤ 32767 := by
  rw [deckFits_iff]
  refine forall₂_congr fun i _ => ⟨fun h => ⟨_, roundsTo_deckRound e _, h⟩, fun ⟨m, hround, hrange⟩ => ?_⟩
  rw [roundsTo_unique (roundsTo_deckRound e _) hround]
  exact hrange

/-- The exponent of a commit is the smallest that fits, and the mantissas are the values rounded at it. -/
theorem formDeck_least (s : State) (h : ¬∀ i < 32, deckValue s i = 0)
    (hmax : ∀ i < 32, |(deckValue s i : ℝ) / 1000000| ≤ 2 ^ 32) : DeckFits (deckValues s) (formDeck s).sup.curExp ∧
      (∀ e < (formDeck s).sup.curExp, ¬DeckFits (deckValues s) e) ∧
      ∀ i < 32, ((formDeck s).sup.cur.getD i 0).toInt = deckRound (formDeck s).sup.curExp (deckValue s i) := by
  have hbound : ∀ n ∈ deckValues s, |(n : ℝ) / 1000000| ≤ 2 ^ 32 := fun n hn => by
    rw [deckValues_eq] at hn
    obtain ⟨i, hi, rfl⟩ := List.mem_map.mp hn
    exact hmax i (List.mem_range.mp hi)
  obtain ⟨i, hi, hne⟩ : ∃ i < 32, deckValue s i ≠ 0 := by
    push Not at h
    exact h
  have hmem : deckValue s i ∈ deckValues s := by
    rw [deckValues_eq]
    exact List.mem_map_of_mem (List.mem_range.mpr hi)
  obtain ⟨hfit, hleast⟩ := deckExp_least hbound hmem hne
  rw [(formDeck_nonzero s h).1]
  refine ⟨hfit, hleast, fun j hj => ?_⟩
  rw [formDeck_mantissa s h j hj ((deckFits_iff s _).mp hfit j hj), (formDeck_nonzero s h).1]

/-! ### The lines held (R297) -/

theorem getLsbD_packBits (f : Nat → Bool) (l : List Nat) (i : Nat) (hi : i < 32) :
    (packWord (l.map fun j => (j, b2n (f j)))).getLsbD i = decide (i ∈ l ∧ f i = true) := by
  induction l with
  | nil => simp [packWord]
  | cons j l ih =>
    have hbit : ((BitVec.ofNat 32 (b2n (f j)) <<< j).getLsbD i) = (decide (i = j) && f i) := by
      rw [BitVec.getLsbD_shiftLeft]
      by_cases hij : i = j
      · subst hij
        cases f i <;> simp [hi, b2n]
      · have hne : i < j ∨ i - j ≠ 0 := by omega
        rcases hne with hlt | hpos
        · simp [hlt, hij]
        · cases f j <;> simp [b2n, hij, hpos]
    rw [List.map_cons, packWord, BitVec.getLsbD_or, ih, hbit]
    by_cases hij : i = j <;> simp [hij]

theorem holdsLine_iff (n : Nat) (s : State) :
    holdsLine n s = true ↔ (shownSec n s).state ≠ .clear ∧ (shownSec n s).state ≠ .occupied := by
  unfold holdsLine
  cases (shownSec n s).state <;> simp

theorem holdMask_formDeck (s : State) (i : Nat) (hi : i < 32) : (formDeck s).sup.holdMask.getLsbD i = true ↔
    ∃ n ∈ s.img.cfg.lines.getD i [], (shownSec n s).state ≠ .clear ∧ (shownSec n s).state ≠ .occupied := by
  have hmask : (formDeck s).sup.holdMask = deckHold s := rfl
  rw [hmask, deckHold, getLsbD_packBits (fun i => (s.img.cfg.lines.getD i []).any fun n => holdsLine n s) _ i hi]
  simp [hi, holdsLine_iff]

theorem formDeck_unheld (s : State) (h : (formDeck s).sup.holdMask = 0) : (formDeck s).sup.lv = (formDeck s).sup.cur ∧
    (formDeck s).sup.lvExp = (formDeck s).sup.curExp ∧ (formDeck s).sup.lvLand = s.bell.landNo ∧ (formDeck s).sup.lvOk = true := by
  have hhold : deckHold s = 0 := h
  simp [formDeck, hhold]

theorem formDeck_held (s : State) (h : (formDeck s).sup.holdMask ≠ 0) : (formDeck s).sup.lv = s.sup.lv ∧
    (formDeck s).sup.lvExp = s.sup.lvExp ∧ (formDeck s).sup.lvLand = s.sup.lvLand ∧ (formDeck s).sup.lvOk = s.sup.lvOk := by
  have hhold : (deckHold s == 0) = false := beq_eq_false_iff_ne.mpr h
  simp only [formDeck, hhold, Bool.false_eq_true, if_false, Bool.or_false, and_self]

end Sys2Proof.Machine

namespace Sys2Proof.Machine

/-! ### O54 -/

/-- The image's first part, as host memory shows it behind a commit. -/
theorem commit_shows {p : HostId} {t : State} {m : Mem} {b : Nat} (himage : HoldsImage p t m b) :
    (∀ n < 512, let r := shownSec n t
      let a := 0x1000 + 8 * n
      if r.state = .unconfigured then memLE m (b + a) 8 = 0
      else memLE m (b + (a + 4)) 2 = r.gen % 65536 ∧ memLE m (b + (a + 6)) 2 = r.chg.toNat % 65536 ∧
        (t.sup.forces.find? (fun f => f.1 == n) = none →
          memLE m (b + a) 1 = secCode r.state % 256 ∧ memLE m (b + (a + 1)) 1 = secFlags n t % 256 ∧
            memLE m (b + (a + 2)) 2 = (BitVec.ofInt 16 r.count).toNat) ∧
        ∀ f, t.sup.forces.find? (fun f => f.1 == n) = some f → memLE m (b + a) 1 = f.2.1.toNat ∧
          memLE m (b + (a + 1)) 1 = (secFlags n t + 128) % 256 ∧ memLE m (b + (a + 2)) 2 = f.2.2.toNat) ∧
    (∀ n < 512, let a := 0x2000 + 8 * n
      if headConfigured n t = false then memLE m (b + a) 8 = 0
      else memLE m (b + a) 2 = (headStat n t).toNat % 65536 ∧ memLE m (b + (a + 2)) 2 = (headOf n t).engine % 65536 ∧
        memLE m (b + (a + 4)) 4 = (headPass n t).toNat) := by
  refine ⟨fun n hn => ?_, fun n hn => ?_⟩
  · obtain ⟨hempty, hfull⟩ := himage.shows_section n hn
    dsimp only
    split
    · exact hempty ‹_›
    · exact hfull ‹_›
  · obtain ⟨hempty, hfull⟩ := himage.shows_head n hn
    dsimp only
    split
    · exact hempty ‹_›
    · exact hfull ‹_›

/-- A ring of the lead behind the records of a commit, none or some of them. -/
theorem leadRecords_shows (l : List WheelRec) (s : State) (hlead : s.dev.hasLead = true) :
    let p := s.dev.lead
    let h := hostOf p s
    let k := hostOf p (leadRecords l s)
    let n := (fitting p l s).length
    wrEn h = true → hostUp p s = true → h.txFifo = [] → 6 ≤ h.wrSize → h.wrSize ≤ 16 →
      h.wrBase.toNat + 16 * 2 ^ h.wrSize ≤ 2 ^ 64 → h.wrDrop ≤ 0xFFFFFFFF →
      (leadRecords l s).dev = { s.dev with wrWidx := s.dev.wrWidx + BitVec.ofNat 32 n } ∧
      k.wrDrop = min 0xFFFFFFFF (h.wrDrop + (l.length - n)) ∧ (k.recDrop = true ↔ h.recDrop = true ∨ n < l.length) ∧
      (n < l.length → (fltReg (clsHost p) 0 (leadRecords l s)).getLsbD 4 = true) ∧ (0 < n → k.irqSt.getLsbD 1 = true) ∧
      k.host = (ringPort p l s).host := by
  intro p h k n hen hup hfifo hlo hhi hroom hdrop
  have hwrites : leadRecords l s = writeRecords p l s := by rw [leadRecords, if_pos hlead]
  show _ ∧ (hostOf p (leadRecords l s)).wrDrop = _ ∧ ((hostOf p (leadRecords l s)).recDrop = true ↔ _) ∧ _ ∧
    (_ → (hostOf p (leadRecords l s)).irqSt.getLsbD 1 = true) ∧ (hostOf p (leadRecords l s)).host = _
  rw [hwrites]
  by_cases hl : l = []
  · subst hl
    have hnone : n = 0 := by simp [n, fitting]
    rw [writeRecords_nil, hnone]
    refine ⟨?_, ?_, ?_, fun h => absurd h (by decide), fun h => absurd h (by decide), ?_⟩
    · simp
    · exact (Nat.min_eq_right hdrop).symm
    · simp [h]
    · simp [ringPort, fitting, recordRuns, stored, storeAll]
  · obtain ⟨hdev, ⟨x, m, r, hport⟩, hflt, hirq⟩ := writeRecords_lead hen hup hfifo hlo hhi hroom hl
    rw [hdev, dev_ringed]
    refine ⟨rfl, ?_, ?_, hflt, hirq, ?_⟩
    · rw [hport]
      rfl
    · rw [hport]
      show ((hostOf p s).recDrop || decide (0 < l.length - (fitting p l s).length)) = true ↔ _
      simp [h, n]
    · rw [hport]

/-- Settles O54: each of the four writers of host memory, by what its runs of bytes hold once they are stored. -/
theorem publication : Obligations.Publication := by
  unfold Obligations.Publication
  refine ⟨fun w d s hdue => ⟨commitBody w s, exec_commit w d s hdue, fun hmode p => ?_⟩, fun w s hmode hsafe hdue => ?_,
    fun l s hlead => ?_, fun s => ?_⟩
  · obtain ⟨hctl, himg, hdl, hkey, hbody, himage⟩ := published_port w s hmode p
    refine ⟨hctl, himg, hdl, hkey, hbody, fun hb hfifo hroom => ?_⟩
    have hshows := himage hb hfifo hroom
    obtain ⟨f40, f42, f44, f48, f4C, f50, f54, f58⟩ := hshows.shows_device
    exact ⟨f40, f42, f44, f48, f4C, f50, f54, f58, hshows.shows_group, commit_shows hshows⟩
  · obtain ⟨t, hstep, hout⟩ := exec_checkpoint w s hmode hsafe hdue
    refine ⟨t, hstep, fun p hfifo => ?_⟩
    rcases hout with ⟨hok, hnone⟩ | ⟨hok, hkeeps⟩
    · exact ⟨fun _ => hnone p, fun hpass => absurd (hok.symm.trans hpass) Bool.false_ne_true⟩
    refine ⟨fun hfail => absurd (hfail.symm.trans hok) Bool.false_ne_true, fun _ => ⟨fun himage => ?_,
      checkpoint_results hkeeps, fun ⟨hpub, hbody⟩ hup hroom hdeck hclear => ?_, fun hdeck _ => ?_⟩⟩
    · exact checkpoint_writes_nothing hkeeps fun ⟨hpub, hbody, hup⟩ => himage ⟨⟨hpub, hbody⟩, hup⟩
    · obtain ⟨hhost, hseq, hpubSeq, hirq⟩ := checkpoint_image hkeeps hpub hbody hup
        ⟨hfifo, hroom, fun x hx => by have := (hclear x hx).1; omega⟩ hdeck
      obtain ⟨hland, htime, hnext, hwidx, hres, hstat, hcount, hrate, hzero⟩ := imageMem_shows_header p s
      dsimp only
      rw [hhost]
      refine ⟨hseq, hpubSeq, hirq, hland, htime, hnext, hwidx, hres, hstat, hcount, hrate, hzero, ?_⟩
      obtain ⟨hlt, hflag0, hflag1, hflag2, hflag3, hflag4, hflag5⟩ := imageMem_shows_flags p s
      refine ⟨hlt, hflag0, hflag1, hflag2, hflag3, hflag4, hflag5, imageMem_shows_crc p s hroom, fun i hi => ?_,
        imageMem_out p s, fun hlead hen hnodup x hx => keyRecord_shows (imageMem_keys p s hclear hlead hen hnodup x hx)⟩
      split
      · exact imageMem_shows_result p s hclear i hi _ ‹_›
      · exact imageMem_shows_noResult p s hclear i hi ‹_›
    · obtain ⟨hframe, hirq⟩ := checkpoint_deck hkeeps hdeck hfifo
      obtain ⟨hland, hlines, hzero, hhold, hlvLand, hcurExp, hlvExp, hzero', hzero''⟩ := deckFrame_shows hframe
      obtain ⟨hlt, hflag0, hflag1, hflag2⟩ := deckFrame_shows_flags hframe
      exact ⟨hirq, hland, hlt, hflag0, hflag1, hflag2, hlines, hzero, hhold, hlvLand, hcurExp, hlvExp, hzero', hzero'',
        deckFrame_shows_vectors hframe, deckFrame_shows_crc hframe⟩
  · intro p h k size n slot
    have hn : n = (fitting p l s).length := (length_fitting p l s).symm
    refine ⟨fun hoff => ?_, fun hen hup hfifo hlo hhi hroom hdrop => ?_⟩
    · rw [leadRecords, if_pos hlead, writeRecords_off p l s hoff]
    · obtain ⟨hdev, hlost, hrec, hflt, hirq, hhost⟩ := leadRecords_shows l s hlead hen hup hfifo hlo hhi hroom hdrop
      obtain ⟨hheld, hout⟩ := ringPort_host p l s
      rw [hn]
      refine ⟨hdev, hlost, hrec, hflt, hirq, fun i hi r hr => ?_, fun a ha => ?_⟩
      · rw [hhost]
        have hrun := hheld i hi r hr
        rwa [Holds, length_recBytes] at hrun
      · rw [hhost]
        exact hout a ha
  · intro t lines r fits
    have hr : ∀ i, r i = (deckValue s i : ℝ) / 1000000 := fun i => (deckValue_real s i).symm
    have hfits : ∀ e, fits e ↔ DeckFits (deckValues s) e := fun e => by
      rw [deckFits_iff_roundsTo]
      simp only [fits, hr]
    have hzero : (∀ i < 32, r i = 0) ↔ ∀ i < 32, deckValue s i = 0 := by
      simp only [hr, deckValue_real_zero]
    refine ⟨holdMask_formDeck s, formDeck_unheld s, formDeck_held s, fun h => ?_, fun h hmax => ?_⟩
    · obtain ⟨hexp, hcur⟩ := formDeck_zero s (hzero.mp h)
      refine ⟨hexp, fun i hi => ?_⟩
      rw [show t.sup.cur = _ from hcur, List.getD_replicate _ hi]
    · simp only [hr] at hmax
      obtain ⟨hfit, hleast, hman⟩ := formDeck_least s (hzero.not.mp h) hmax
      refine ⟨(hfits _).mpr hfit, fun e he hf => hleast e he ((hfits e).mp hf), fun i hi => ?_⟩
      rw [hr, show (t.sup.cur.getD i 0).toInt = _ from hman i hi]
      exact roundsTo_deckRound _ _

end Sys2Proof.Machine

/-! ## O40 and O41: the answer to a mailbox entry (R233, R234, R292) -/

namespace Sys2Proof.Machine

/-! ### What supervisor B reads (R139, R233) -/

/-- The state with other manifests. -/
def withMan (m : ManSt) (s : State) : State := { s with man := m }

/-- Manifests that read, section by section, as Manifest A does. -/
def Mirrors (m : ManSt) (s : State) : Prop := m.failed = s.man.failed ∧ ∀ n, secOf n (withMan m s) = secOf n s

/-- Where the supervisors agree, B sees the device as A does but for the coding of its manifest. -/
theorem viewB_mirrors {s : State} (h : SupsAgree s) : ∃ m, Mirrors m s ∧ viewB s = withMan m s := by
  obtain ⟨hmem, hsec⟩ := h
  refine ⟨(viewB s).man, ⟨rfl, hsec⟩, ?_⟩
  rw [viewB, hmem]
  rfl

theorem secTrusted_withMan {m : ManSt} {s : State} (h : Mirrors m s) (n : Nat) :
    secTrusted n (withMan m s) = secTrusted n s := by
  rw [secTrusted, h.2, ← secTrusted]

theorem enblkOf_withMan {m : ManSt} {s : State} (h : Mirrors m s) (g : Nat) : enblkOf g (withMan m s) = enblkOf g s := by
  unfold enblkOf
  simp only [secTrusted_withMan h, h.2]
  rfl

/-! ### Codes and answers -/

theorem checks_of_firstCode {l : List (Bool × Nat)} {k : Nat} (h : firstCode l = some k) (ok : State → CmdOut) (s : State) :
    checks l ok s = refuse k s := by
  obtain ⟨c, hfind, rfl⟩ := Option.map_eq_some_iff.mp h
  rw [checks, hfind]

theorem checks_of_pass {l : List (Bool × Nat)} (h : firstCode l = none) (ok : State → CmdOut) (s : State) :
    checks l ok s = ok s := by
  rw [checks, Option.map_eq_none_iff.mp h]

/-- Two outcomes that read the same in the results area (R234). -/
def SameAnswer (x y : CmdOut) : Prop := y.1 = x.1 ∧ y.2.1 = x.2.1 ∧ y.2.2.sup.results = x.2.2.sup.results

theorem sameAnswer_checks {l : List (Bool × Nat)} {ok : State → CmdOut} {s t : State} (hres : t.sup.results = s.sup.results)
    (hok : SameAnswer (ok s) (ok t)) : SameAnswer (checks l ok s) (checks l ok t) := by
  unfold checks
  split
  · exact ⟨rfl, rfl, hres⟩
  · exact hok

theorem sameAnswer_ite {c : Bool} {x x' y y' : CmdOut} (hx : SameAnswer x x') (hy : SameAnswer y y') :
    SameAnswer (if c then x else y) (if c then x' else y') := by
  cases c
  · exact hy
  · exact hx

/-- Each manifest gives the command the same answer. -/
def ReadsEither (act : MbFields → State → CmdOut) : Prop :=
  ∀ f s m, Mirrors m s → SameAnswer (act f s) (act f (withMan m s))

theorem inBootProve_eq (s : State) : inBootProve s = decide (s.dev.mode = .boot ∨ s.dev.mode = .prove) := by
  rw [Bool.eq_iff_iff, decide_eq_true_iff]
  simp [inBootProve]

theorem applyEntry_heard {p : HostId} {i : Nat} {op : Byte} {f : MbFields} {s : State} (k : Bool) (hsafe : s.dev.safe = false)
    (hform : formatOk op.toNat f = true) (hfollow : isFollower p s = false) :
    applyEntry p i op f false k s = addResult p i f.tag (runOp p i op.toNat f false k s) := by
  simp [applyEntry, hsafe, hform, hfollow]

section Heard
variable {p : HostId} {i : Nat} {op : Byte} {f : MbFields} {s : State}

/-- An entry that is heard, and whose outcome does not turn on which manifest is read, is answered with that outcome (R233,
R234). -/
theorem takeEntry_answers (h : Heard p op f s) (hlead : op ≠ 0x00 ∧ op ≠ 0x60)
    (hsame : ∀ m, Mirrors m s →
      SameAnswer (runOp p i op.toNat f false (keyEnabled p s) s) (runOp p i op.toNat f false (keyEnabled p s) (withMan m s))) :
    Answered p i (runOp p i op.toNat f false (keyEnabled p s) s).1 (runOp p i op.toNat f false (keyEnabled p s) s).2.1 f
      (runOp p i op.toNat f false (keyEnabled p s) s).2.2 (takeEntry p i op f s) := by
  obtain ⟨hsafe, hagree, hform, hrole⟩ := h
  have hfollow := hrole hlead.1 hlead.2
  obtain ⟨m, hm, hview⟩ := viewB_mirrors hagree
  obtain ⟨hcode, hvalue, hres⟩ := hsame m hm
  have hA := applyEntry_heard (i := i) (keyEnabled p s) hsafe hform hfollow
  have hB := applyEntry_heard (i := i) (s := withMan m s) (keyEnabled p s) hsafe hform hfollow
  have hone : disagrees (bothSups (applyEntry p i op f false (keyEnabled p s)) s) = false := by
    simp [disagrees, bothSups, memOf, hview, hA, hB, addResult, hcode, hvalue, hres]
  rw [takeEntry, if_neg (by simp [hone]), Answered]
  simp only [bothSups, hA, addResult]

/-- The command is answered with outcome r. -/
def AnswersWith (c : Instr) (p : HostId) (i : Nat) (f : MbFields) (s : State) (r : CmdOut) : Prop :=
  ∃ t, exec c s = .next t ∧ Answered p i r.1 r.2.1 f r.2.2 t

section Checks
variable {c : Instr} {l : List (Bool × Nat)} {ok : State → CmdOut} {u : State}

/-- A command whose checks find a code is refused with it. -/
theorem AnswersWith.refused (h : AnswersWith c p i f s (checks l ok u)) {k : Nat} (hk : firstCode l = some k) :
    AnswersWith c p i f s (k, 0, u) := by
  rwa [checks_of_firstCode hk] at h

/-- One that passes them has its effect. -/
theorem AnswersWith.passed (h : AnswersWith c p i f s (checks l ok u)) (hk : firstCode l = none) :
    AnswersWith c p i f s (ok u) := by
  rwa [checks_of_pass hk] at h

end Checks

/-- An answer says nothing of supervisor B's memories. -/
theorem AnswersWith.of_memories {c : Instr} {code value : Nat} {u v : State} (h : AnswersWith c p i f s (code, value, u))
    (huv : v = { u with sup := { u.sup with b := v.sup.b } }) : ∃ t, exec c s = .next t ∧ Answered p i code value f v t := by
  obtain ⟨t, hexec, hans⟩ := h
  refine ⟨t, hexec, ?_⟩
  rw [Answered] at hans ⊢
  rw [huv]
  exact hans

end Heard

end Sys2Proof.Machine

/-! ## O40: the restorations (R139, R149 to R155, R157 to R159) -/

namespace Sys2Proof.Machine

/-! ### What a restoration meets first (R151, R158) -/

/-- The requests that are not yet 30 s old (R158). -/
def youngReqs (s : State) : List Dreq := s.sup.pend.filter fun q => !agedReq s q

/-- The device where a restoration of section n is the first of its commit. -/
def taking (n : Nat) (s : State) : State :=
  let u := dropAged s
  { u with sup := { u.sup with dupSecs := n :: u.sup.dupSecs } }

/-- The same but for supervisor B's memories. -/
def notedSec (n : Nat) (s : State) : State :=
  { s with sup := { s.sup with pend := youngReqs s, dupSecs := n :: s.sup.dupSecs } }

theorem agedReq_eq (s : State) (q : Dreq) :
    (!agedReq s q) = (q.live && decide ((s.bell.time - q.at_).toNat < 300000000)) := by
  rw [agedReq, elapsed, Bool.not_or, Bool.not_not]
  simp only [← decide_not, Nat.not_le]

theorem live_of_young {s : State} {q : Dreq} (h : q ∈ youngReqs s) : q.live = true := by
  have hyoung := List.of_mem_filter h
  rw [agedReq_eq, Bool.and_eq_true] at hyoung
  exact hyoung.1

theorem stale_eq (f : MbFields) (s : State) : stale f s =
    (decide (1 ≤ (f.issue - s.bell.landNo).toNat ∧ (f.issue - s.bell.landNo).toNat < 2 ^ 31) ||
      decide (4096 ≤ (s.bell.landNo - f.issue).toNat)) := by
  rw [stale, laterMod, elapsedLand]
  congr 2
  rw [eq_iff_iff]
  omega

theorem firstCode_append (l r : List (Bool × Nat)) : firstCode (l ++ r) = none → firstCode l = none := by
  simp only [firstCode, List.find?_append, Option.map_eq_none_iff, Option.or_eq_none_iff]
  exact And.left

section Meets
variable {p : HostId} {i : Nat} {f : MbFields} {s : State} {c : Instr} {act : State → CmdOut}

theorem restoration_first (hdup : s.sup.dupSecs.contains f.obj.toNat = false) :
    restoration false f act s = act (taking f.obj.toNat s) := if_neg (ne_true_of_eq_false hdup)

/-- A second restoration of a section in a commit is refused (R152). -/
theorem AnswersWith.dup (h : AnswersWith c p i f s (restoration false f act s))
    (hdup : s.sup.dupSecs.contains f.obj.toNat = true) :
    ∃ t, exec c s = .next t ∧ Answered p i 0x0E 0 f { s with sup := { s.sup with pend := youngReqs s } } t := by
  rw [show restoration false f act s = refuse 0x0E (dropAged s) from if_pos hdup] at h
  exact h.of_memories rfl

theorem AnswersWith.first (h : AnswersWith c p i f s (restoration false f act s))
    (hdup : s.sup.dupSecs.contains f.obj.toNat = false) : AnswersWith c p i f s (act (taking f.obj.toNat s)) := by
  rwa [restoration_first hdup] at h

/-- A refused restoration leaves no more than its note. -/
theorem AnswersWith.noted {k n : Nat} (h : AnswersWith c p i f s (k, 0, taking n s)) :
    ∃ t, exec c s = .next t ∧ Answered p i k 0 f (notedSec n s) t := h.of_memories rfl

end Meets

/-- The codes 0x03 and after pass for a section of the table only (R151). -/
theorem lt_of_rstChecks {f : MbFields} {states : List SecState} {s : State} (h : firstCode (rstChecks f states s) = none) :
    f.obj.toNat < 512 := by
  have hall := List.find?_eq_none.mp (Option.map_eq_none_iff.mp h)
  have hsec := hall (!(decide (f.obj.toNat < 512) && secConfigured f.obj.toNat s), 0x03) (by simp [rstChecks])
  by_contra hlt
  exact hsec (by simp [hlt])

/-! ### Each supervisor's answer (R233) -/

theorem rstChecks_withMan {m : ManSt} {s : State} (h : Mirrors m s) (f : MbFields) (states : List SecState) :
    rstChecks f states (withMan m s) = rstChecks f states s := by
  unfold rstChecks
  simp only [h.2, show (withMan m s).man.failed = s.man.failed from h.1]
  rfl

theorem readsEither_rstSweep : ReadsEither rstSweep := fun f s m h => by
  unfold rstSweep
  rw [rstChecks_withMan h]
  exact sameAnswer_checks rfl ⟨rfl, rfl, rfl⟩

theorem readsEither_rstDreq (p : HostId) (i : Nat) : ReadsEither (rstDreq p i) := fun f s m h => by
  unfold rstDreq
  rw [rstChecks_withMan h]
  exact sameAnswer_checks rfl ⟨rfl, rfl, rfl⟩

theorem readsEither_rstDconf : ReadsEither rstDconf := fun f s m h => by
  unfold rstDconf
  dsimp only
  rw [rstChecks_withMan h]
  refine sameAnswer_checks rfl ?_
  rw [show reqOf f.obj.toNat (withMan m s) = reqOf f.obj.toNat s from rfl]
  cases reqOf f.obj.toNat s with
  | none => exact ⟨rfl, rfl, rfl⟩
  | some q =>
    exact sameAnswer_ite ⟨rfl, rfl, rfl⟩ (sameAnswer_ite ⟨rfl, rfl, rfl⟩ (sameAnswer_ite ⟨rfl, rfl, rfl⟩ ⟨rfl, rfl, rfl⟩))

/-- What comes before a restoration's own checks reads no manifest. -/
theorem restoration_same {act : MbFields → State → CmdOut} (hread : ReadsEither act) (f : MbFields) (s : State) (m : ManSt)
    (h : Mirrors m s) : SameAnswer (restoration false f (act f) s) (restoration false f (act f) (withMan m s)) :=
  sameAnswer_ite ⟨rfl, rfl, rfl⟩ (hread f (taking f.obj.toNat s) m h)

section Answers
variable {p : HostId} {i : Fin 127} {f : MbFields} {s : State}

theorem rstSweep_answers (h : Heard p 0x01 f s) :
    AnswersWith (.rstSweep p i f) p i f s (restoration false f (rstSweep f) s) :=
  ⟨_, rfl, takeEntry_answers h (by decide) (restoration_same readsEither_rstSweep f s)⟩

theorem rstDconf_answers (h : Heard p 0x03 f s) :
    AnswersWith (.rstDconf p i f) p i f s (restoration false f (rstDconf f) s) :=
  ⟨_, rfl, takeEntry_answers h (by decide) (restoration_same readsEither_rstDconf f s)⟩

theorem runOp_dreq (k : Bool) (t : State) : runOp p i (0x02 : Byte).toNat f false k t =
    if k = true then restoration false f (rstDreq p i f) t else refuse 0x13 t := by
  cases k <;> rfl

theorem rstDreq_answers (h : Heard p 0x02 f s) (hkey : keyEnabled p s = true) :
    AnswersWith (.rstDreq p i f) p i f s (restoration false f (rstDreq p i f) s) := by
  have hrun : ∀ t, runOp p i (0x02 : Byte).toNat f false (keyEnabled p s) t = restoration false f (rstDreq p i f) t :=
    fun t => by rw [runOp_dreq, if_pos hkey]
  have hans := takeEntry_answers (i := i) h (by decide) fun m hm => by
    rw [hrun, hrun]
    exact restoration_same (readsEither_rstDreq p i) f s m hm
  rw [hrun] at hans
  exact ⟨_, rfl, hans⟩

/-- Without HOST_CTL.KEYEN no key can be written (R155). -/
theorem rstDreq_keyless (h : Heard p 0x02 f s) (hkey : keyEnabled p s = false) :
    AnswersWith (.rstDreq p i f) p i f s (0x13, 0, s) := by
  have hrun : ∀ t, runOp p i (0x02 : Byte).toNat f false (keyEnabled p s) t = refuse 0x13 t :=
    fun t => by rw [runOp_dreq, if_neg (ne_true_of_eq_false hkey)]
  have hans := takeEntry_answers (i := i) h (by decide) fun m hm => by
    rw [hrun, hrun]
    exact ⟨rfl, rfl, rfl⟩
  rw [hrun] at hans
  exact ⟨_, rfl, hans⟩

end Answers

/-! ### The effects (R153, R157, R159) -/

/-- Section n alone has changed, by h, each manifest its own record. -/
def OnlySec (n : Nat) (h : Sec → Sec) (s u : State) : Prop :=
  secOf n u = h (secOf n s) ∧ secBOf n u = codeB (h (decodeB (secBOf n s))) ∧
  ∀ m, m < 512 → m ≠ n → secOf m u = secOf m s ∧ secBOf m u = secBOf m s

theorem onlySec_modSec {n : Nat} (hn : n < 512) (h : Sec → Sec) (s : State) : OnlySec n h s (modSec n h s) := by
  refine ⟨?_, ?_, fun m hm hne => ⟨?_, ?_⟩⟩
  · rw [modSec, secOf_setPair, if_pos rfl]
  · rw [modSec, secBOf_setPair _ _ hn hn, if_pos rfl]
  · rw [modSec, secOf_setPair, if_neg hne]
  · rw [modSec, secBOf_setPair _ _ hn hm, if_neg hne]

section Restored
variable {p : HostId} {i : Nat} {f : MbFields} {s : State} {c : Instr} {n : Nat}

/-- What an accepted restoration leaves: the section's record, and of the requests in l those of no changed section. -/
theorem AnswersWith.restored {v : State} {h : Sec → Sec} {l : List Dreq} (hans : AnswersWith c p i f s (0x00, 0, cancelReqs v))
    (hn : n < 512)
    (hv : v = { notedSec n s with man := (modSec n h s).man, sup := { (notedSec n s).sup with pend := l, b := v.sup.b } }) :
    ∃ u t, exec c s = .next t ∧ Answered p i 0x00 0 f u t ∧ OnlySec n h s u ∧
      u = { notedSec n s with
        man := { s.man with a := u.man.a, b := u.man.b }
        sup := { (notedSec n s).sup with pend := l.filter fun q => q.gen == (secOf q.snum u).gen } } := by
  rw [hv] at hans
  let u : State := { notedSec n s with
    man := (modSec n h s).man
    sup := { (notedSec n s).sup with pend := l.filter fun q => q.gen == (secOf q.snum (modSec n h s)).gen } }
  obtain ⟨t, hexec, ht⟩ := hans.of_memories (v := u) rfl
  exact ⟨u, t, hexec, ht, onlySec_modSec hn h s, rfl⟩

end Restored

section Requests
variable {p : HostId} {i : Fin 127} {f : MbFields} {s : State} (hdup : s.sup.dupSecs.contains f.obj.toNat = false)
include hdup

/-- A request gets a fresh key, which goes to the key record (R157, R158). -/
theorem rstDreq_accepts (h : Heard p 0x02 f s) (hkey : keyEnabled p s = true) {r : List (Bool × Nat)}
    (hr : r = rstChecks f [.disturbed, .sweepPending] (taking f.obj.toNat s) ++
      [(decide (32767 < f.count.toNat), 0x09),
       ((reqOf f.obj.toNat (taking f.obj.toNat s)).isNone && decide (16 ≤ (youngReqs s).length), 0x0D)])
    (hpass : firstCode r = none) : ∃ t key, exec (.rstDreq p i f) s = .next t ∧ 1 ≤ key ∧ key ≤ 65535 ∧
      Answered p i 0x00 0 f { notedSec f.obj.toNat s with
        free := s.free + 1
        sup := { (notedSec f.obj.toNat s).sup with
          pend := ((youngReqs s).filter fun q => q.snum != f.obj.toNat) ++
            [{ snum := f.obj.toNat, gen := (secOf f.obj.toNat s).gen, count := f.count.toNat, at_ := s.bell.tickTime
               key := key, live := true }]
          keys := s.sup.keys ++ [(i.val, f.tag, f.obj.toNat, key)] } } t := by
  subst hr
  have hans := ((rstDreq_answers (i := i) h hkey).first hdup).passed hpass
  have hlead : isFollower p s = false := h.2.2.2 (by decide) (by decide)
  let key := (Config.drawKey s.free).val + 1
  obtain ⟨t, hexec, ht⟩ := hans.of_memories (v := { dreqEffect p i f (taking f.obj.toNat s) with
    sup := { (dreqEffect p i f (taking f.obj.toNat s)).sup with b := s.sup.b } }) rfl
  refine ⟨t, key, hexec, by omega, by omega, ?_⟩
  have hkeys : (dreqEffect p i f (taking f.obj.toNat s)).sup.keys = s.sup.keys ++ [(i.val, f.tag, f.obj.toNat, key)] :=
    if_neg (ne_true_of_eq_false hlead)
  rw [← hkeys]
  exact ht

/-- A confirmation that passes the common checks is judged by its request (R151, R157). -/
theorem rstDconf_judges (h : Heard p 0x03 f s)
    (hpass : firstCode (rstChecks f [.disturbed, .sweepPending] (taking f.obj.toNat s)) = none) {q : Dreq}
    (hreq : reqOf f.obj.toNat (taking f.obj.toNat s) = some q) : AnswersWith (.rstDconf p i f) p i f s
      (if f.count.toNat ≠ q.count then (0x09, 0, taking f.obj.toNat s)
       else if f.key.toNat ≠ q.key then (0x0B, 0, dropReq f.obj.toNat (taking f.obj.toNat s))
       else if (s.bell.tickTime - q.at_).toNat < 5000000 then (0x0C, 0, taking f.obj.toNat s)
       else (0x00, 0, dconfEffect f.obj.toNat f.count.toNat (taking f.obj.toNat s))) := by
  have hans := ((rstDconf_answers (i := i) h).first hdup).passed hpass
  have hwindow : (!windowOpen q (taking f.obj.toNat s)) = decide ((s.bell.tickTime - q.at_).toNat < 5000000) := by
    have hlive : q.live = true := live_of_young (List.mem_of_find?_eq_some hreq)
    rw [windowOpen, hlive, Bool.true_and, ← decide_not]
    exact decide_eq_decide.mpr Nat.not_le
  simp only [hreq, hwindow, bne_iff_ne, decide_eq_true_eq] at hans
  exact hans

theorem rstDconf_unasked (h : Heard p 0x03 f s)
    (hpass : firstCode (rstChecks f [.disturbed, .sweepPending] (taking f.obj.toNat s)) = none)
    (hreq : reqOf f.obj.toNat (taking f.obj.toNat s) = none) :
    AnswersWith (.rstDconf p i f) p i f s (0x0A, 0, taking f.obj.toNat s) := by
  have hans := ((rstDconf_answers (i := i) h).first hdup).passed hpass
  simp only [hreq] at hans
  exact hans

end Requests

/-- What RST_SWEEP does to the record of a section (R153). -/
def sweeping (land : Word) (tick : Bell) (r : Sec) : Sec :=
  { r with
    state := .sweepPending, count := 0, gen := succGen r.gen, ep := some .empty, prov := false, chg := land
    sweepAt := tick, sweepLive := true, swIn := false, swOut := false }

theorem sweepEffect_eq (n : Nat) (s : State) :
    sweepEffect n s = cancelReqs (modSec n (sweeping s.bell.landNo s.bell.tickTime) s) := rfl

/-- What RST_DCONF does to the record of a section (R159). -/
def confirmed (count : Nat) (land : Word) (r : Sec) : Sec :=
  { r with
    state := if count = 0 then .clear else .occupied, count := (count : Int), gen := succGen r.gen, cause := 0, hint := none
    hintCode := 0, prov := false, chg := land, sweepLive := false
    ep := if count = 0 then none else some { Episode.empty with unverified := true } }

theorem dconfEffect_eq (n count : Nat) (s : State) :
    dconfEffect n count s = cancelReqs (dropReq n (modSec n (confirmed count s.bell.landNo) s)) := by
  unfold dconfEffect confirmed
  simp only [beq_iff_eq]

/-! ### The expiry of a request (R158) -/

theorem dreqExpiry_none {m : SecIx} {s : State} (h : (s.sup.pend.all fun q => q.snum != m.val) = true) :
    exec (.dreqExpiry m) s = .next s := by
  have hnone : reqOf m.val s = none := by simpa [reqOf] using h
  show execDreqExpiry m s = _
  rw [execDreqExpiry, hnone]

theorem dreqExpiry_some {m : SecIx} {s : State} {q : Dreq} (h : reqOf m.val s = some q) :
    exec (.dreqExpiry m) s = .next (if (!agedReq s q) = true then s else dropReq m.val s) := by
  show execDreqExpiry m s = _
  simp only [execDreqExpiry, h]
  cases agedReq s q <;> rfl

/-- The codes 0x01 to 0x08 as R151 lists them. -/
theorem rstChecks_eq (f : MbFields) (states : List SecState) (s : State) : rstChecks f states s =
    [(decide (s.dev.mode = .boot ∨ s.dev.mode = .prove), 0x01), (s.man.failed, 0x02),
     (!(decide (f.obj.toNat < 512) && secConfigured f.obj.toNat s), 0x03),
     (decide (1 ≤ (f.issue - s.bell.landNo).toNat ∧ (f.issue - s.bell.landNo).toNat < 2 ^ 31) ||
       decide (4096 ≤ (s.bell.landNo - f.issue).toNat), 0x04),
     (decide (f.acode.toNat ≠ s.img.cfg.auth.getD (secCfg f.obj.toNat s).auth 0), 0x05),
     (decide (f.gen.toNat ≠ (secOf f.obj.toNat s).gen), 0x06), (!states.contains (secOf f.obj.toNat s).state, 0x07),
     (!((secCfg f.obj.toNat s).ends.all fun e => (headOf e.1 s).state == .idle), 0x08)] := by
  have hne : ∀ a b : Nat, (a != b) = decide (a ≠ b) := fun a b => by rw [Bool.eq_iff_iff, bne_iff_ne, decide_eq_true_iff]
  rw [rstChecks, inBootProve_eq, stale_eq, hne, hne]
  rfl

/-- Settles O40: what a restoration meets first, then each command by its checks and its effect; an expiry by the request it
finds. -/
theorem restorations : Obligations.Restorations := by
  unfold Obligations.Restorations
  intro p i f s n r land checks young
  have hyoung : young = fun q => !agedReq s q := funext fun q => (agedReq_eq s q).symm
  have hchecks : checks = fun states => rstChecks f states (taking n s) :=
    funext fun states => (rstChecks_eq f states (taking n s)).symm
  clear_value young checks
  subst hyoung hchecks
  intro pend base seen req without pair only
  refine ⟨fun hdup => ⟨fun h => (rstSweep_answers h).dup hdup, fun h hkey => (rstDreq_answers h hkey).dup hdup,
    fun h => (rstDconf_answers h).dup hdup⟩, fun h hkey => rstDreq_keyless h hkey, fun hdup => ⟨fun h => ⟨fun c hc => ?_,
    fun hpass => ?_⟩, fun h hkey => ⟨fun c hc => ?_, fun hpass => ?_⟩, fun h => ⟨fun c hc => ?_, fun hpass =>
    ⟨fun hreq => (rstDconf_unasked hdup h hpass hreq).noted, fun q hreq => ?_⟩⟩⟩, fun m =>
    ⟨fun hall => dreqExpiry_none hall, fun q hq => dreqExpiry_some hq⟩⟩
  · exact (((rstSweep_answers h).first hdup).refused hc).noted
  · have heffect := ((rstSweep_answers (i := i) h).first hdup).passed hpass
    rw [sweepEffect_eq] at heffect
    exact heffect.restored (lt_of_rstChecks hpass) rfl
  · exact (((rstDreq_answers h hkey).first hdup).refused hc).noted
  · exact rstDreq_accepts hdup h hkey rfl hpass
  · exact (((rstDconf_answers h).first hdup).refused hc).noted
  · have hjudged := rstDconf_judges (i := i) hdup h hpass hreq
    refine ⟨fun hcount => ?_, fun hcount hkey => ?_, fun hcount hkey hearly => ?_, fun hcount hkey hlate => ?_⟩
    · rw [if_pos hcount] at hjudged
      exact hjudged.noted
    · rw [if_neg (not_not.mpr hcount), if_pos hkey] at hjudged
      exact hjudged.of_memories rfl
    · rw [if_neg (not_not.mpr hcount), if_neg (not_not.mpr hkey), if_pos hearly] at hjudged
      exact hjudged.noted
    · rw [if_neg (not_not.mpr hcount), if_neg (not_not.mpr hkey), if_neg (Nat.not_lt.mpr hlate), dconfEffect_eq] at hjudged
      exact hjudged.restored (lt_of_rstChecks hpass) rfl

end Sys2Proof.Machine

/-! ## O41: the commands of a stop group (R130, R252, R259 to R261, R292, R293) -/

namespace Sys2Proof.Machine

/-! ### The orders of a landing -/

/-- The order of one group changes, and nothing else of the device. -/
theorem modOrder_eq (g : Nat) (h : GrpOrder → GrpOrder) (s : State) :
    modOrder g h s = { s with sup := { s.sup with orders := (modOrder g h s).sup.orders } } := rfl

theorem orderOf_modOrder (g g' : Nat) (h : GrpOrder → GrpOrder) (s : State) :
    orderOf g' (modOrder g h s) = if g' = g then h (orderOf g s) else orderOf g' s := by
  have hland : (ordersNow s).land = s.bell.landNo := by
    unfold ordersNow
    repeat' split
    · assumption
    · rfl
    · rfl
  have hnow : ordersNow (modOrder g h s) = { ordersNow s with groups := tabMod .idle (ordersNow s).groups g h } := if_pos hland
  rw [orderOf, hnow]
  exact tabGet_tabSet _ _ _ _ _

/-! ### The conditions of an enable (R252) -/

/-- Condition j of R252 fails. -/
def enableFails (g : Nat) (s : State) (j : Nat) : Bool :=
  let c := grpCfg g s
  let x := grpOf g s
  match j with
  | 0 => !(s.dev.mode == .commission || s.dev.mode == .run || s.dev.mode == .harbour)
  | 1 => grpStateNow g s != .sto
  | 2 => !c.trust.all fun n => secTrusted n s
  | 3 => !(c.profiles.getD (profNow g s) []).all fun n => (secOf n s).state == .clear
  | 4 => c.guard && (!latGuard x || x.gOpened)
  | 5 => !((x.gtest && !resetsNow g s) || !c.guard)
  | 6 => !latFb x
  | 7 => !bellSound s
  | 8 => !s.saf.sealOk
  | 9 => c.enc && decide (c.vStill < x.speed.natAbs)
  | 10 => !(s.saf.accepted && s.sup.cpOkC)
  | 11 => latLrst x
  | _ => false

/-- ENBLK has the bit of each condition that fails. -/
theorem getLsbD_enblkOf (g : Nat) (s : State) (j : Nat) (hj : j < 12) : (enblkOf g s).getLsbD j = enableFails g s j := by
  have hword : enblkOf g s = (packWord ((List.range 12).map fun j => (j, b2n (enableFails g s j)))).setWidth 12 := rfl
  rw [hword, BitVec.getLsbD_setWidth, getLsbD_packBits _ _ _ (by omega)]
  simp [hj]

/-- SWEEP_PENDING counts as OCCUPIED (R130). -/
theorem secTrusted_eq (n : Nat) (s : State) : secTrusted n s =
    ((secOf n s).state == .clear || (secOf n s).state == .occupied || (secOf n s).state == .sweepPending) := by
  unfold secTrusted
  cases (secOf n s).state <;> rfl

/-! ### The answers -/

theorem readsEither_sgEnable : ReadsEither sgEnable := fun f s m h => by
  refine sameAnswer_checks (s := s) (t := withMan m s) rfl ?_
  simp only [enblkOf_withMan h]
  exact sameAnswer_ite ⟨rfl, rfl, rfl⟩ ⟨rfl, rfl, rfl⟩

theorem readsEither_sgStop : ReadsEither sgStop := fun _ s m _ =>
  sameAnswer_checks (s := s) (t := withMan m s) rfl ⟨rfl, rfl, rfl⟩

theorem readsEither_sgProfile : ReadsEither sgProfile := fun _ s m _ =>
  sameAnswer_checks (s := s) (t := withMan m s) rfl ⟨rfl, rfl, rfl⟩

theorem readsEither_sgReset : ReadsEither sgReset := fun _ s m _ =>
  sameAnswer_checks (s := s) (t := withMan m s) rfl ⟨rfl, rfl, rfl⟩

section Commands
variable {p : HostId} {i : Fin 127} {f : MbFields} {s : State}

theorem sgEnable_answers (h : Heard p 0x10 f s) : AnswersWith (.sgEnable p i f) p i f s (sgEnable f s) :=
  ⟨_, rfl, takeEntry_answers h (by decide) (readsEither_sgEnable f s)⟩

theorem sgStop_answers (h : Heard p 0x11 f s) : AnswersWith (.sgStop p i f) p i f s (sgStop f s) :=
  ⟨_, rfl, takeEntry_answers h (by decide) (readsEither_sgStop f s)⟩

theorem sgProfile_answers (h : Heard p 0x12 f s) : AnswersWith (.sgProfile p i f) p i f s (sgProfile f s) :=
  ⟨_, rfl, takeEntry_answers h (by decide) (readsEither_sgProfile f s)⟩

theorem sgReset_answers (h : Heard p 0x13 f s) : AnswersWith (.sgReset p i f) p i f s (sgReset f s) :=
  ⟨_, rfl, takeEntry_answers h (by decide) (readsEither_sgReset f s)⟩

end Commands

/-- The acceptance conditions of a deliberate reset (R259). -/
theorem resetOk_iff (g : Nat) (s : State) : resetOk g s = true ↔
    grpStateNow g s = .locked ∧ (grpOf g s).lat.getLsbD 4 = false ∧ (grpOf g s).lat.getLsbD 0 = true ∧ (grpOf g s).lat.getLsbD 1 = true := by
  simp [resetOk, latLrst, latFb, and_assoc]

/-! ### The order of an accepted command (R253, R259 to R261) -/

section Accepted
variable {p : HostId} {i : Fin 127} {f : MbFields} {s : State} (hfresh : stale f s = false)
include hfresh

theorem sgEnable_blocked (h : Heard p 0x10 f s) (hcfg : grpConfigured f.obj.toNat s = true)
    (hfails : enblkOf f.obj.toNat s ≠ 0 ∨ s.sup.stopGrps.contains f.obj.toNat = true) :
    AnswersWith (.sgEnable p i f) p i f s
      (0x20, (enblkOf f.obj.toNat s).toNat + (if s.sup.stopGrps.contains f.obj.toNat then 4096 else 0), s) := by
  have hpass := (sgEnable_answers (i := i) h).passed (by simp [firstCode, hfresh, hcfg])
  rw [if_pos (by simpa using hfails)] at hpass
  cases hstop : s.sup.stopGrps.contains f.obj.toNat <;> rw [hstop] at hpass <;> exact hpass

theorem sgEnable_orders (h : Heard p 0x10 f s) (hcfg : grpConfigured f.obj.toNat s = true) (hok : enblkOf f.obj.toNat s = 0)
    (hstop : s.sup.stopGrps.contains f.obj.toNat = false) :
    AnswersWith (.sgEnable p i f) p i f s (0x00, 0, modOrder f.obj.toNat (fun o => { o with enable := true }) s) := by
  have hpass := (sgEnable_answers (i := i) h).passed (by simp [firstCode, hfresh, hcfg])
  rwa [hok, hstop, if_neg (by decide)] at hpass

variable (hmode : inBootProve s = false)
include hmode

theorem sgStop_orders (h : Heard p 0x11 f s) (hcfg : grpConfigured f.obj.toNat s = true) :
    AnswersWith (.sgStop p i f) p i f s (0x00, 0, modOrder f.obj.toNat (fun o => { o with stop := true })
      { s with sup := { s.sup with stopGrps := insertKey f.obj.toNat s.sup.stopGrps } }) :=
  (sgStop_answers h).passed (by simp [firstCode, hfresh, hmode, hcfg])

theorem sgProfile_orders (h : Heard p 0x12 f s) (hcfg : grpConfigured f.obj.toNat s = true)
    (hprof : argByte f 0 < (grpCfg f.obj.toNat s).profiles.length) (hsto : grpStateNow f.obj.toNat s = .sto) :
    AnswersWith (.sgProfile p i f) p i f s
      (0x00, 0, modOrder f.obj.toNat (fun o => { o with profile := some (argByte f 0) }) s) :=
  (sgProfile_answers h).passed (by simp [firstCode, hfresh, hmode, hcfg, hprof, hsto])

theorem sgReset_orders (h : Heard p 0x13 f s) (hcfg : grpConfigured f.obj.toNat s = true)
    (hready : resetOk f.obj.toNat s = true) :
    AnswersWith (.sgReset p i f) p i f s (0x00, 0, modOrder f.obj.toNat (fun o => { o with openReset := true }) s) :=
  (sgReset_answers h).passed (by simp [firstCode, hfresh, hmode, hcfg, hready])

end Accepted

/-- Settles O41: each command by its checks in order, and its order by what modOrder changes. -/
theorem stopGroupCommands : Obligations.StopGroupCommands := by
  unfold Obligations.StopGroupCommands
  intro p i f s g b none_ cfgd e stop orders refused
  have hordered : ∀ {c : Instr} {h : GrpOrder → GrpOrder} {u : State}, AnswersWith c p i f s (0x00, 0, modOrder g h u) →
      ∃ v t, exec c s = .next t ∧ Answered p i 0x00 0 f v t ∧ orders h u v :=
    fun ⟨t, hexec, hans⟩ => ⟨_, t, hexec, hans, modOrder_eq g _ _, by rw [orderOf_modOrder, if_pos rfl],
      fun g' hg => by rw [orderOf_modOrder, if_neg hg]⟩
  have hnone : none_ = inBootProve s := (inBootProve_eq s).symm
  have hsto : decide (grpStateNow g s ≠ .sto) = (grpStateNow g s != .sto) := by
    rw [Bool.eq_iff_iff, decide_eq_true_iff, bne_iff_ne]
  refine ⟨fun k hk h => (sgEnable_answers h).refused hk, fun h hfresh hcfg => ⟨sgEnable_blocked hfresh h hcfg,
      fun hok hstop => hordered (sgEnable_orders hfresh h hcfg hok hstop)⟩,
    (getLsbD_enblkOf g s 1 (by decide)).trans hsto.symm, ?_, getLsbD_enblkOf g s 6 (by decide),
    getLsbD_enblkOf g s 10 (by decide), fun k hk h => ?_, fun h hmode hfresh hcfg => ?_,
    fun k hk h => ?_, fun h hmode hfresh hcfg hprof hin => ?_, fun k hk h => ?_, fun h hmode hfresh hcfg hready => ?_⟩
  · rw [getLsbD_enblkOf g s 2 (by decide)]
    simp only [enableFails, secTrusted_eq]
  · rw [hnone] at hk
    exact (sgStop_answers h).refused hk
  · exact hordered (sgStop_orders hfresh (hnone ▸ hmode) h hcfg)
  · rw [hnone, hsto] at hk
    exact (sgProfile_answers h).refused hk
  · exact hordered (sgProfile_orders hfresh (hnone ▸ hmode) h hcfg hprof hin)
  · simp only [hnone, ← resetOk_iff, decide_not, Bool.decide_eq_true] at hk
    exact (sgReset_answers h).refused hk
  · exact hordered (sgReset_orders hfresh (hnone ▸ hmode) h hcfg ((resetOk_iff g s).mpr hready))

end Sys2Proof.Machine

/-! ## O56: the counts of a commit (R127, R128, R137, R139, R140) -/

namespace Sys2Proof.Machine

/-! ### What the PASS events do to a count (R127) -/

/-- The polarity of an end, and the direction of a PASS. -/
def polarity (up : Bool) : Int := if up then 1 else -1

/-- What PASS x does to the count of a section with these ends. -/
def endsChange (ends : List (Nat × Bool)) (x : WheelRec) : Int :=
  (ends.map fun e => if e.1 = x.head then polarity e.2 * polarity x.dir else 0).sum

/-- What a commit's PASS events do to the count of section n. -/
def passChange (n : Nat) (l : List WheelRec) (s : State) : Int := (l.map (endsChange (secCfg n s).ends)).sum

theorem netDelta_eq_sum (ms : List Move1) : netDelta ms = (ms.map fun m => polarity m.up).sum := by
  rw [netDelta, netDelta_foldl]
  induction ms with
  | nil => rfl
  | cons m ms ih =>
    rw [List.map_cons, List.sum_cons, ← ih]
    cases hup : m.up <;> simp [hup, polarity] <;> omega

/-- The moves of one PASS, end by end. -/
theorem sum_moves (ends : List (Nat × Bool)) (k : Nat) (x : WheelRec) :
    ((((ends.zipIdx k).filter fun e => e.1.1 == x.head).map fun e =>
      ({ up := x.dir == e.1.2, cls := x.cls, spc := x.spacing, endIx := e.2 } : Move1)).map fun m => polarity m.up).sum =
      endsChange ends x := by
  induction ends generalizing k with
  | nil => rfl
  | cons e ends ih =>
    have hsign : polarity (x.dir == e.2) = polarity e.2 * polarity x.dir := by cases x.dir <;> cases e.2 <;> rfl
    rw [endsChange, List.map_cons, List.sum_cons, ← endsChange, ← ih (k + 1), List.zipIdx_cons, List.filter_cons]
    by_cases hend : e.1 = x.head
    · simp [hend, hsign]
    · simp [hend]

theorem netDelta_movesOf (n : Nat) (l : List WheelRec) (s : State) : netDelta (movesOf n l s) = passChange n l s := by
  rw [netDelta_eq_sum, movesOf, passChange, List.map_flatMap, List.flatMap, List.sum_flatten, List.map_map]
  exact congrArg List.sum (List.map_congr_left fun x _ => sum_moves _ 0 x)

theorem insertBy_perm {α : Type} (key : α → Nat) (x : α) (l : List α) : (insertBy key x l).Perm (x :: l) := by
  induction l with
  | nil => exact .refl _
  | cons y l ih =>
    unfold insertBy
    split
    · exact .refl _
    · exact (ih.cons y).trans (.swap x y l)

theorem sortBy_perm {α : Type} (key : α → Nat) (l : List α) : (sortBy key l).Perm l := by
  induction l with
  | nil => exact .refl _
  | cons x l ih => exact (insertBy_perm key x _).trans (ih.cons x)

/-- The order in which the PASS events are taken does not matter to the sum (R119). -/
theorem passChange_byCentre (n : Nat) (tick : Bell) (l : List WheelRec) (s : State) :
    passChange n (byCentre tick l) s = passChange n l s :=
  ((sortBy_perm _ l).map _).sum_eq

/-- A head that bounds two sections with opposite polarities moves a wheel from one to the other (R127). -/
theorem passChange_opposite {n m h : Nat} {s : State} (hn : (secCfg n s).ends = [(h, true)])
    (hm : (secCfg m s).ends = [(h, false)]) (l : List WheelRec) : passChange n l s + passChange m l s = 0 := by
  rw [passChange, passChange, ← List.sum_map_add, List.sum_eq_zero]
  intro c hc
  obtain ⟨x, -, rfl⟩ := List.mem_map.mp hc
  rw [hn, hm]
  by_cases hhead : h = x.head
  · cases hdir : x.dir <;> simp [endsChange, polarity, hhead, hdir]
  · simp [endsChange, hhead]

/-! ### A section's two records (R138, R139) -/

/-- Neither manifest's record of section n has changed. -/
def SecKept (n : Nat) (s t : State) : Prop := secOf n t = secOf n s ∧ secBOf n t = secBOf n s

theorem SecKept.refl (n : Nat) (s : State) : SecKept n s s := ⟨rfl, rfl⟩

theorem SecKept.trans {n : Nat} {s t u : State} (h : SecKept n s t) (h' : SecKept n t u) : SecKept n s u :=
  ⟨h'.1.trans h.1, h'.2.trans h.2⟩

theorem secKept_of_man {n : Nat} {s t : State} (h : t.man = s.man) : SecKept n s t :=
  ⟨by rw [secOf, h, ← secOf], by rw [secBOf, h, ← secBOf]⟩

theorem secKept_setPair {n m : Nat} (hn : n < 512) (hm : m < 512) (hne : n ≠ m) (r q : Sec) (s : State) :
    SecKept n s (setPair m r q s) :=
  ⟨by rw [secOf_setPair, if_neg hne], by rw [secBOf_setPair _ _ hm hn, if_neg hne]⟩

theorem secKept_forEach {β : Type} {n : Nat} (l : List β) (f : β → State → State) (s : State)
    (h : ∀ b ∈ l, ∀ u, SecKept n u (f b u)) : SecKept n s (forEach l f s) :=
  forEach_ind (SecKept n s) l f s (.refl n s) fun b hb u hu => hu.trans (h b hb u)

theorem secKept_sticky (n c i b : Nat) (s : State) : SecKept n s (sticky c i b s) := secKept_of_man (by simp [sticky_keeps])

/-! ### The derivation keeps the count it comes to (R128, R139) -/

theorem heldCount_bounds (c : Int) : -32768 ≤ heldCount c ∧ heldCount c ≤ 32767 := by
  unfold heldCount
  omega

theorem clearOr_count (k : Nat) (x : SecIn) (r : Sec) : (clearOr k x r).1.count = r.count := by
  unfold clearOr
  dsimp only
  (repeat' split) <;> rfl

theorem sweepStep_count (x : SecIn) (r : Sec) : (sweepStep x r).1.count = r.count := by
  unfold sweepStep
  dsimp only
  split
  · rfl
  · split
    · rfl
    · exact clearOr_count _ _ _

/-- Whatever the outcome, the section's count is the one it came to, as its register holds it. -/
theorem derive_count (x : SecIn) (c : Int) (r : Sec) : (derive x c r).1.count = heldCount c := by
  unfold derive
  dsimp only
  split
  case isTrue => rfl
  case isFalse =>
    split
    case isTrue => rfl
    case isFalse =>
      split
      case h_1 => rfl
      case h_2 => exact sweepStep_count _ _
      case h_3 => rfl
      case h_4 =>
        split
        · rfl
        · exact clearOr_count _ _ _

theorem sealRec_count (n : Nat) (old r : Sec) (s : State) : (sealRec n old r s).count = r.count := by
  unfold sealRec withHint stampChg
  dsimp only
  split <;> rfl

theorem decodeB_codeB_count (r : Sec) (hlo : -32768 ≤ r.count) (hhi : r.count ≤ 32767) :
    (decodeB (codeB r)).count = r.count := by
  show -1 - (codeB r).count.toInt = r.count
  rw [codeB_count r hlo hhi]
  omega

theorem sumB_decode (ms : List Move1) (b : SecB) : sumB ms b = (decodeB b).count + netDelta ms := by
  show -1 - (b.count.toInt - netDelta ms) = -1 - b.count.toInt + netDelta ms
  omega

/-- Each manifest's count of section n has moved by d, as far as its register holds it. -/
def CountsMove (n : Nat) (d : Int) (s t : State) : Prop :=
  (secOf n t).count = heldCount ((secOf n s).count + d) ∧
  (decodeB (secBOf n t)).count = heldCount ((decodeB (secBOf n s)).count + d)

section Derivation
variable {l : List WheelRec} {late entered : List Nat} {failing : Bool} {n : Nat} {s : State}

theorem secKept_deriveSec (hn : n < 512) {m : Nat} (hm : m < 512) (hne : n ≠ m) :
    SecKept n s (deriveSec l late entered failing m s) :=
  (secKept_setPair hn hm hne _ _ s).trans (secKept_forEach _ _ _ fun _ _ _ => secKept_sticky _ _ _ _ _)

/-- The derivation of a section moves its counts by the PASS events. -/
theorem deriveSec_counts (hn : n < 512) :
    CountsMove n (netDelta (movesOf n l s)) s (deriveSec l late entered failing n s) := by
  let x := secIn n l late entered failing s
  let ra := sealRec n (comSec n s) (derive x (sumA x.moves (secOf n s)) (secOf n s)).1 s
  let rb := sealRec n (decodeB (comSecB n s)) (derive x (sumB x.moves (secBOf n s)) (decodeB (secBOf n s))).1 s
  have hra : ra.count = heldCount (sumA x.moves (secOf n s)) := (sealRec_count _ _ _ _).trans (derive_count _ _ _)
  have hrb : rb.count = heldCount (sumB x.moves (secBOf n s)) := (sealRec_count _ _ _ _).trans (derive_count _ _ _)
  obtain ⟨hlo, hhi⟩ := heldCount_bounds (sumB x.moves (secBOf n s))
  have hsticky : SecKept n (setPair n ra rb s) (deriveSec l late entered failing n s) :=
    secKept_forEach _ _ _ fun _ _ _ => secKept_sticky _ _ _ _ _
  rw [CountsMove, hsticky.1, hsticky.2, secOf_setPair, if_pos rfl, secBOf_setPair _ _ hn hn, if_pos rfl,
    decodeB_codeB_count rb (hrb ▸ hlo) (hrb ▸ hhi), hra, hrb, sumB_decode]
  exact ⟨rfl, rfl⟩

theorem CountsMove.of_kept {d : Int} {t u v : State} (hbefore : SecKept n s t) (h : CountsMove n d t u)
    (hafter : SecKept n u v) : CountsMove n d s v := by
  rw [CountsMove, hafter.1, hafter.2, ← hbefore.1, ← hbefore.2]
  exact h

theorem passChange_congr {t : State} (h : t.img = s.img) : passChange n l t = passChange n l s := by
  rw [passChange, secCfg, h, ← secCfg, ← passChange]

/-- A list of sections without n leaves its records. -/
theorem secKept_deriveList (hn : n < 512) (secs : List Nat) (hlt : ∀ m ∈ secs, m < 512) (hnot : n ∉ secs) :
    SecKept n s (forEach secs (deriveSec l late entered failing) s) :=
  secKept_forEach _ _ _ fun m hm _ => secKept_deriveSec hn (hlt m hm) fun e => hnot (e ▸ hm)

theorem img_deriveList (secs : List Nat) : (forEach secs (deriveSec l late entered failing) s).img = s.img :=
  forEach_ind (fun u => u.img = s.img) _ _ _ rfl fun m _ u hu => by simp [deriveSec_keeps, hu]

/-- At a commit each configured section is derived once. -/
theorem deriveAll_counts (hnodup : (cfgSecs s).Nodup) (hlt : ∀ m ∈ cfgSecs s, m < 512) (hn : n ∈ cfgSecs s) :
    CountsMove n (passChange n l s) s (deriveAll l late entered s) := by
  obtain ⟨before, after, hsecs⟩ := List.append_of_mem hn
  have hnot : n ∉ before ∧ n ∉ after := by
    rw [hsecs, List.nodup_middle, List.nodup_cons, List.mem_append, not_or] at hnodup
    exact hnodup.1
  have hlt' : (∀ m ∈ before, m < 512) ∧ ∀ m ∈ after, m < 512 :=
    ⟨fun m hm => hlt m (by simp [hsecs, hm]), fun m hm => hlt m (by simp [hsecs, hm])⟩
  let sorted := byCentre s.bell.tickTime l
  let step := deriveSec sorted late entered (s.man.failNext && !s.man.failed)
  have hall : forEach (cfgSecs s) step s = forEach after step (step n (forEach before step s)) := by simp [hsecs, forEach]
  have hmoves : netDelta (movesOf n sorted (forEach before step s)) = passChange n l s := by
    rw [netDelta_movesOf, passChange_congr (img_deriveList before), passChange_byCentre]
  have hcounts : CountsMove n (netDelta (movesOf n sorted (forEach before step s))) s
      (forEach after step (step n (forEach before step s))) :=
    .of_kept (secKept_deriveList (hlt n hn) before hlt'.1 hnot.1) (deriveSec_counts (hlt n hn))
      (secKept_deriveList (hlt n hn) after hlt'.2 hnot.2)
  rw [hmoves, ← hall] at hcounts
  exact hcounts

end Derivation

/-! ### The commands of a commit (R150, R292, R320) -/

/-- Of the commands none but a restoration of the section changes its records, and none the configuration, but for a return
to BOOT. -/
def SecKeptOrBoot (n : Nat) (s t : State) : Prop := t.dev.mode = .boot ∨ (SecKept n s t ∧ t.img = s.img)

theorem SecKeptOrBoot.of_man {n : Nat} {s t : State} (h : t.man = s.man ∧ t.img = s.img) : SecKeptOrBoot n s t :=
  .inr ⟨secKept_of_man h.1, h.2⟩

theorem SecKeptOrBoot.trans {n : Nat} {s t u : State} (h : SecKeptOrBoot n s t) (hserves : t.dev.mode ≠ .boot)
    (h' : SecKeptOrBoot n t u) : SecKeptOrBoot n s u := by
  obtain ⟨hkept, himg⟩ := h.resolve_left hserves
  exact h'.imp_right fun ⟨hkept', himg'⟩ => ⟨hkept.trans hkept', himg'.trans himg⟩

theorem returnToBoot_mode (s : State) : (returnToBoot s).dev.mode = .boot := by
  unfold returnToBoot
  simp [raiseBoth_keeps]

section Commands
variable {n : Nat} {f : MbFields} {s : State}

theorem SecKeptOrBoot.of_ite {b : Bool} {x y : CmdOut} (hx : SecKeptOrBoot n s x.2.2) (hy : SecKeptOrBoot n s y.2.2) :
    SecKeptOrBoot n s (if b then x else y).2.2 := by
  cases b
  · exact hy
  · exact hx

/-- A command that its checks refuse changes no section. -/
theorem SecKeptOrBoot.of_checks {l : List (Bool × Nat)} {ok : State → CmdOut}
    (h : firstCode l = none → SecKeptOrBoot n s (ok s).2.2) : SecKeptOrBoot n s (checks l ok s).2.2 := by
  cases hcode : firstCode l with
  | none =>
    rw [checks_of_pass hcode]
    exact h hcode
  | some k =>
    rw [checks_of_firstCode hcode]
    exact .of_man ⟨rfl, rfl⟩

theorem modeEffect_sec (target : Mode) : SecKeptOrBoot n s (modeEffect target s) := by
  unfold modeEffect
  split
  · exact .inl (returnToBoot_mode s)
  all_goals refine .of_man ?_
  · simp [leaveForces_keeps, enterLockout_keeps]
  · simp [setMode_keeps]
  · split
    · exact ⟨rfl, rfl⟩
    · simp [leaveForces_keeps, setMode_keeps]
  · simp [setMode_keeps]

theorem modeReq_sec (target : Mode) : SecKeptOrBoot n s (modeReq target f s).2.2 :=
  .of_checks fun _ => .of_ite (.of_man (by simp [refuseMode_keeps]))
    (modeEffect_sec (n := n) (s := { s with sup := { s.sup with modeTaken := true } }) target)

/-- A restoration of another section changes that section alone (R139). -/
theorem modSec_other (hn : n < 512) (hother : f.obj.toNat ≠ n) (hlt : f.obj.toNat < 512) (h : Sec → Sec) {t : State}
    (ht : t.man = (modSec f.obj.toNat h s).man) (himg : t.img = s.img) : SecKeptOrBoot n s t := by
  obtain ⟨-, -, hkept⟩ := onlySec_modSec hlt h s
  exact .inr ⟨.trans (hkept n hn hother.symm) (secKept_of_man ht), himg⟩

section Restoring
variable (hn : n < 512) (hother : f.obj.toNat ≠ n)
include hn hother

theorem rstSweep_sec : SecKeptOrBoot n s (rstSweep f s).2.2 :=
  .of_checks fun hpass =>
    modSec_other hn hother (lt_of_rstChecks hpass) (sweeping s.bell.landNo s.bell.tickTime) rfl rfl

theorem rstDconf_sec : SecKeptOrBoot n s (rstDconf f s).2.2 := by
  refine .of_checks fun hpass => ?_
  have hsame : ∀ k, SecKeptOrBoot n s (refuse k s).2.2 := fun k => .of_man ⟨rfl, rfl⟩
  cases hreq : reqOf f.obj.toNat s with
  | none =>
    simp only
    exact hsame 0x0A
  | some q =>
    simp only
    refine .of_ite (hsame 0x09) (.of_ite (.of_man ⟨rfl, rfl⟩) (.of_ite (hsame 0x0C) ?_))
    rw [dconfEffect_eq]
    exact modSec_other hn hother (lt_of_rstChecks hpass) _ rfl rfl

end Restoring

/-- What comes before a restoration's own checks changes no section. -/
theorem restoration_sec {cpFail : Bool} {act : State → CmdOut} (hact : ∀ u, SecKeptOrBoot n u (act u).2.2) :
    SecKeptOrBoot n s (restoration cpFail f act s).2.2 :=
  .of_ite (.of_man ⟨rfl, rfl⟩) (.of_ite (.of_man ⟨rfl, rfl⟩) (hact (taking f.obj.toNat s)))

theorem runOp_sec (hn : n < 512) (p : HostId) (i op : Nat) (cpFail keyen : Bool)
    (hother : op = 0x01 ∨ op = 0x02 ∨ op = 0x03 → f.obj.toNat ≠ n) :
    SecKeptOrBoot n s (runOp p i op f cpFail keyen s).2.2 := by
  unfold runOp
  split
  · exact restoration_sec fun u => rstSweep_sec hn (hother (by decide))
  · exact .of_ite (.of_man ⟨rfl, rfl⟩) (restoration_sec fun u => .of_man (by simp [rstDreq_keeps]))
  · exact restoration_sec fun u => rstDconf_sec hn (hother (by decide))
  · refine .of_ite (.of_man (by simp [refuse_keeps, noteParam_keeps])) ?_
    split
    -- MODE_REQ, of a mode that it can lead to or of another
    case h_7 =>
      split
      case h_6 => exact .of_man (by simp [modeReqOther_keeps])
      all_goals exact modeReq_sec _
    all_goals refine .of_man ?_
    -- NOP and FORCE_CLR; the others leave the manifests and the image by their own laws
    case h_1 => exact ⟨rfl, rfl⟩
    case h_10 => split <;> simp [forceClrAll_keeps, forceClr_keeps]
    all_goals simp [sgEnable_keeps, sgStop_keeps, sgProfile_keeps, sgReset_keeps, devReset_keeps, paramSet_keeps,
      forceSet_keeps, headWd_keeps, leadTake_keeps, leadYield_keeps]

theorem applyEntry_sec (hn : n < 512) (p : HostId) (i : Nat) (op : Byte) (cpFail keyen : Bool)
    (hother : op = 0x01 ∨ op = 0x02 ∨ op = 0x03 → f.obj.toNat ≠ n) :
    SecKeptOrBoot n s (applyEntry p i op f cpFail keyen s) := by
  have hop : op.toNat = 0x01 ∨ op.toNat = 0x02 ∨ op.toNat = 0x03 → f.obj.toNat ≠ n := by
    intro h
    exact hother (by bv_omega)
  unfold applyEntry
  split
  · exact .of_man ⟨rfl, rfl⟩
  split
  · exact .of_man ⟨rfl, rfl⟩
  split
  · exact .of_man ⟨rfl, rfl⟩
  · exact runOp_sec hn p i op.toNat cpFail keyen hop

end Commands

/-- No restoration of section n stands in a list of entries (R137, R159). -/
def NoneRestores (n : Nat) (l : List Taken) : Prop :=
  ∀ x ∈ l, (x.op = 0x01 ∨ x.op = 0x02 ∨ x.op = 0x03) → x.f.obj.toNat ≠ n

/-- Once in BOOT the device stays there through the commands that follow, and its sections are not looked at. -/
theorem runCommands_sec {n : Nat} (hn : n < 512) {l : List Taken} (hother : NoneRestores n l) (s : State) :
    SecKeptOrBoot n s (runCommands l s) := by
  refine forEach_ind (SecKeptOrBoot n s) l _ s (.of_man ⟨rfl, rfl⟩) fun x hx u hu => ?_
  split
  · rename_i hboot
    exact .inl (by simpa using hboot)
  · rename_i hserves
    exact hu.trans (by simpa using hserves) (applyEntry_sec hn x.port x.ix x.op x.cpFail x.keyen (hother x hx))

theorem noneRestores_commandList {n : Nat} {s : State} (h : NoneRestores n s.sup.taken) : NoneRestores n (commandList s) := by
  intro x hx
  rcases List.mem_append.mp hx with hx | hx
  · exact h x (List.mem_of_mem_filter hx)
  · exact h x (List.mem_of_mem_filter hx)

/-! ### The entries taken (R292) -/

theorem failHead_taken (cause h : Nat) (s : State) : (failHead cause h s).sup.taken = s.sup.taken := by
  unfold failHead
  dsimp only
  (repeat' split) <;> simp [waitMove, putMove, modMoves, modSups, withMem, sticky_keeps]

theorem ite_taken (b : Prop) [Decidable b] (s t : State) :
    (if b then s else t).sup.taken = if b then s.sup.taken else t.sup.taken := by
  split <;> rfl

theorem forEach_taken {β : Type} (l : List β) (f : β → State → State) (s : State)
    (h : ∀ b u, (f b u).sup.taken = u.sup.taken) : (forEach l f s).sup.taken = s.sup.taken :=
  forEach_ind (fun u => u.sup.taken = s.sup.taken) l f s rfl fun b _ u hu => (h b u).trans hu

theorem commitHeads_taken (s : State) : (commitHeads s).1.sup.taken = s.sup.taken := by
  unfold commitHeads
  simp [-ite_sup, ite_taken, forEach_taken, failHead_taken, stepGen_keeps, noteServed_keeps, applyHeadFlt_keeps,
    applyEvents_keeps, firstHead_keeps]

theorem deriveAll_taken (l : List WheelRec) (late entered : List Nat) (s : State) :
    (deriveAll l late entered s).sup.taken = s.sup.taken := by
  unfold deriveAll cancelReqs
  simp [deriveSec_keeps]

theorem openCommit_taken (s : State) : (openCommit s).sup.taken = s.sup.taken := rfl

theorem lockStep_taken (s : State) : (lockStep s).sup.taken = s.sup.taken := by
  unfold lockStep leaveForces
  simp [-ite_sup, ite_taken, enterLockout_keeps]

theorem devResetStep_taken (s : State) : (devResetStep s).sup.taken = s.sup.taken := by
  unfold devResetStep
  dsimp only
  (repeat' split) <;> simp [setMode_keeps]

theorem resetStep_taken (g : Nat) (s : State) : (resetStep g s).sup.taken = s.sup.taken := by
  unfold resetStep modOrder
  simp [-ite_sup, ite_taken]

/-! ### Steps 1 to 4 of a commit (R137) -/

theorem commitActions_sec {n : Nat} (hn : n < 512) {s : State} (hother : NoneRestores n s.sup.taken) :
    SecKeptOrBoot n s (commitActions s) := by
  unfold commitActions
  dsimp only
  generalize hu : forEach (cfgGroups (devResetStep (lockStep s))) resetStep (devResetStep (lockStep s)) = u
  have htaken : u.sup.taken = s.sup.taken := by
    rw [← hu, forEach_taken _ _ _ resetStep_taken, devResetStep_taken, lockStep_taken]
  have hman : u.man = s.man ∧ u.img = s.img := by
    rw [← hu]
    simp [resetStep_keeps, devResetStep_keeps, lockStep_keeps]
  have hrun := runCommands_sec hn (noneRestores_commandList (s := u) (htaken ▸ hother))
    { u with sup := { u.sup with taken := [], ncmd := min 127 (commandList u).length } }
  have hall : SecKeptOrBoot n u (allCommands s.dev.mode u) := by
    unfold allCommands
    dsimp only
    split
    · obtain hboot | ⟨hkept, himg⟩ := hrun
      · exact .inl (by simpa [reviseResults_keeps] using hboot)
      · exact .inr ⟨hkept.trans (secKept_of_man (by simp [reviseResults_keeps])), by simpa [reviseResults_keeps] using himg⟩
    · exact hrun
  exact hall.imp_right fun ⟨hkept, himg⟩ => ⟨.trans (secKept_of_man hman.1) hkept, himg.trans hman.2⟩

/-- Where the device stays in service each section's counts have moved by the PASS events of the frame. -/
theorem commitSteps_counts {n : Nat} {s : State} (hnodup : (cfgSecs s).Nodup) (hlt : ∀ m ∈ cfgSecs s, m < 512)
    (hn : n ∈ cfgSecs s) (hother : NoneRestores n s.sup.taken) (hserves : (commitSteps s).1.dev.mode ≠ .boot) :
    CountsMove n (passChange n (passesOf (eventsOf s)) s) s (commitSteps s).1 ∧ (commitSteps s).1.img = s.img := by
  unfold commitSteps at hserves ⊢
  dsimp only at hserves ⊢
  generalize hu : openCommit { s with
    bell := { s.bell with stat := bellStatNow s, commitT := s.bell.phase - s.frame.drained.getD 0 } } = u at hserves ⊢
  have hopen : u.man = s.man ∧ u.img = s.img ∧ u.sup.taken = s.sup.taken := by
    rw [← hu, openCommit_taken]
    simp [openCommit_keeps]
  generalize hv : (commitHeads u).1 = v at hserves ⊢
  have hheads : v.man = s.man ∧ v.img = s.img ∧ v.sup.taken = s.sup.taken := by
    rw [← hv, commitHeads_taken]
    simp [commitHeads_keeps, hopen]
  obtain ⟨hman, himg, htaken⟩ := hheads
  have hsecs : cfgSecs v = cfgSecs s := by rw [cfgSecs, himg, ← cfgSecs]
  generalize hw : deriveAll (passesOf (eventsOf s)) (lateHeads s) (commitHeads u).2 v = x at hserves ⊢
  have hderived : CountsMove n (passChange n (passesOf (eventsOf s)) v) v x :=
    hw ▸ deriveAll_counts (hsecs ▸ hnodup) (hsecs ▸ hlt) (hsecs ▸ hn)
  have hx : x.img = s.img ∧ x.sup.taken = s.sup.taken := by
    rw [← hw, deriveAll_taken, htaken]
    simp [deriveAll_keeps, himg]
  obtain ⟨hkept, hximg⟩ := (commitActions_sec (hlt n hn) (hx.2 ▸ hother)).resolve_left hserves
  rw [passChange_congr himg] at hderived
  exact ⟨.of_kept (secKept_of_man hman) hderived hkept, hximg.trans hx.1⟩

/-! ### The refusals before a commit (R234) -/

/-- What no refusal of a command changes is as before when the supervisors agree. -/
theorem settleTaken_ind (P : State → Prop) (h : ∀ r u, P u → P (refuseTaken r u)) (k : Nat) (s : State) (hs : P s) :
    P (settleTaken k s) := by
  induction k generalizing s with
  | zero => exact hs
  | succ k ih =>
    unfold settleTaken
    split
    · exact ih _ (h _ s hs)
    · exact hs

theorem settleTaken_state (k : Nat) (s : State) : (settleTaken k s).man = s.man ∧ (settleTaken k s).img = s.img ∧
    (settleTaken k s).frame = s.frame :=
  settleTaken_ind (fun u => u.man = s.man ∧ u.img = s.img ∧ u.frame = s.frame)
    (fun r u hu => by simp [refuseTaken_keeps, hu]) k s ⟨rfl, rfl, rfl⟩

theorem settleTaken_noneRestores {n : Nat} (k : Nat) {s : State} (h : NoneRestores n s.sup.taken) :
    NoneRestores n (settleTaken k s).sup.taken := by
  refine settleTaken_ind (fun u => NoneRestores n u.sup.taken) (fun r u hu x hx => ?_) k s h
  have htaken : (refuseTaken r u).sup.taken =
      u.sup.taken.map fun t => if t.port == r.port && t.ix == r.ix then { t with cpFail := true } else t := by
    simp [refuseTaken, sticky_keeps]
  rw [htaken] at hx
  obtain ⟨y, hy, rfl⟩ := List.mem_map.mp hx
  have hkept := hu y hy
  split <;> exact hkept

/-! ### The comparison (R140, R141) -/

theorem mem_insertKey (k x : Nat) (l : List Nat) : x ∈ insertKey k l ↔ x = k ∨ x ∈ l := by
  induction l with
  | nil => simp [insertKey]
  | cons y l ih =>
    unfold insertKey
    split
    · simp
    · split
      · simp_all
      · simp [ih, or_left_comm]

theorem mem_sortKeys (x : Nat) (l : List Nat) : x ∈ sortKeys l ↔ x ∈ l := by
  induction l with
  | nil => rfl
  | cons y l ih => rw [sortKeys, List.foldr_cons, mem_insertKey, ← sortKeys, ih, List.mem_cons]

theorem differing_lt (w : CommitIn) (s : State) : ∀ m ∈ differing w s, m < 512 := by
  intro m hm
  simp only [differing, listedSecs, mem_sortKeys, List.mem_append, List.mem_filter, List.mem_map] at hm
  obtain ⟨-, hlt⟩ | ⟨⟨-, hlt⟩ | ⟨p, -, hp⟩, -⟩ := hm
  · exact of_decide_eq_true hlt
  · exact of_decide_eq_true hlt
  · omega

/-- A mismatch joins those of the last 256 landings (R141). -/
def logged (mism : List Nat) (s : State) : State :=
  if mism.isEmpty then s else { s with man := { s.man with mismatchLands := mismatchLog s } }

/-- The state with the corrected errors of a comparison reported (R140). -/
def corrected (w : CommitIn) (s : State) : State :=
  forEach (sortKeys (w.corrected.filter (decide <| · < 512))) (fun n => sticky clsSec n 8) s

theorem corrected_keeps (w : CommitIn) (s : State) :
    (corrected w s).man = s.man ∧ (corrected w s).img = s.img ∧ (corrected w s).bell = s.bell := by
  simp [corrected, sticky_keeps]

/-- The comparison: a pair that had failed, one that fails now, and sections that mismatch one by one (R140, R141). -/
theorem compareSecs_eq (w : CommitIn) (mism : List Nat) (s : State) : compareSecs w mism s =
    let u := corrected w s
    let v := logged mism u
    if u.man.failed then u
    else if pairFails w mism u then
      cancelReqs (forEach (cfgSecs v) (fun n => replaceSec (if mism.contains n then failBoth else failRec) n)
        (forEach (mism.filter fun n => !secConfigured n v) (replaceSec replaceRec)
          { v with man := { v.man with failed := true } }))
    else cancelReqs (forEach mism (replaceSec replaceRec) v) := rfl

theorem SecKept.cancelReqs {n : Nat} {s t : State} (h : SecKept n s t) : SecKept n s (cancelReqs t) := h

section Comparison
variable {n : Nat} {w : CommitIn} {mism : List Nat} {s : State} (hn : n < 512)
include hn

theorem replaceSec_sec {m : Nat} (hm : m < 512) (hne : n ≠ m) (g : Word → Sec → Sec → Sec) : SecKept n s (replaceSec g m s) :=
  ((secKept_setPair hn hm hne _ _ s).trans (secKept_sticky n _ _ _ _)).trans (secKept_sticky n _ _ _ _)

theorem replaceList_sec {l : List Nat} (hlt : ∀ m ∈ l, m < 512) (hnot : n ∉ l) (g : Nat → Word → Sec → Sec → Sec) :
    SecKept n s (forEach l (fun m => replaceSec (g m) m) s) :=
  secKept_forEach _ _ _ fun m hm _ => replaceSec_sec hn (hlt m hm) (fun e => hnot (e ▸ hm)) (g m)

/-- The comparison leaves the records that it does not replace (R140, R141). -/
theorem compareSecs_sec (hcfg : ∀ m ∈ cfgSecs s, m < 512) (hmism : ∀ m ∈ mism, m < 512) (hnot : n ∉ replacedSecs w mism s) :
    SecKept n s (compareSecs w mism s) := by
  obtain ⟨hman, himg, hbell⟩ := corrected_keeps w s
  have hlogged : SecKept n s (logged mism (corrected w s)) ∧ cfgSecs (logged mism (corrected w s)) = cfgSecs s := by
    unfold logged
    split <;> exact ⟨.trans (secKept_of_man hman) ⟨rfl, rfl⟩, by rw [cfgSecs, himg, ← cfgSecs]⟩
  have hfails : pairFails w mism (corrected w s) = pairFails w mism s := by
    rw [pairFails, mismatchLog, hman, hbell, ← mismatchLog, ← pairFails]
  rw [replacedSecs] at hnot
  rw [compareSecs_eq]
  dsimp only
  rw [hfails, hman, hlogged.2]
  cases hfailed : s.man.failed
  case true => exact secKept_of_man hman
  case false =>
    rw [hfailed, if_neg Bool.false_ne_true] at hnot
    rw [if_neg Bool.false_ne_true]
    cases hpair : pairFails w mism s
    case false =>
      rw [hpair, if_neg Bool.false_ne_true] at hnot
      rw [if_neg Bool.false_ne_true]
      exact .cancelReqs (hlogged.1.trans (replaceList_sec hn hmism hnot fun _ => replaceRec))
    case true =>
      rw [hpair, if_pos rfl, mem_sortKeys, List.mem_append, not_or] at hnot
      rw [if_pos rfl]
      refine .cancelReqs (hlogged.1.trans
        (.trans ?_ (replaceList_sec hn hcfg hnot.1 fun m => if mism.contains m then failBoth else failRec)))
      exact replaceList_sec hn (fun m hm => hmism m (List.mem_of_mem_filter hm)) (fun hm => hnot.2 (List.mem_of_mem_filter hm))
        fun _ => replaceRec

end Comparison

/-! ### What the commit leaves committed (R137, R138) -/

theorem commitRest_committed (w : CommitIn) (mism : List Nat) (s0 : State) (r : State × List Nat) (h : r.1.dev.mode ≠ .boot) :
    (commitRest w mism s0 r).man.comA = (compareSecs w mism r.1).man.a ∧
      (commitRest w mism s0 r).man.comB = (compareSecs w mism r.1).man.b := by
  unfold commitRest
  dsimp only
  rw [if_neg (by simpa using h)]
  simp [switchShown_keeps, publishCommit_keeps, release_keeps, emptySlots_keeps, outLate_keeps, commitShow_keeps,
    proveStep_keeps, recordVerdict_keeps, switchBanks, rejudge_keeps, refuseRestored_keeps]

theorem commitBody_man (w : CommitIn) (s : State) :
    let r := commitSteps (settleTaken s.sup.taken.length s)
    (commitBody w s).man = (commitRest w (differing w r.1) (settleTaken s.sup.taken.length s) r).man := by
  unfold commitBody
  simp only [ite_man, ite_self]

/-- The committed counts of both manifests (R137 to R139). -/
theorem commitBody_counts {n : Nat} {w : CommitIn} {s : State} (hnodup : (cfgSecs s).Nodup) (hlt : ∀ m ∈ cfgSecs s, m < 512)
    (hn : n ∈ cfgSecs s) (hother : NoneRestores n s.sup.taken) {r : State}
    (hr : r = (commitSteps (settleTaken s.sup.taken.length s)).1) (hserves : r.dev.mode ≠ .boot)
    (hnot : n ∉ replacedSecs w (differing w r) r) :
    (comSec n (commitBody w s)).count = heldCount ((secOf n s).count + passChange n (passesOf (eventsOf s)) s) ∧
    (decodeB (comSecB n (commitBody w s))).count =
      heldCount ((decodeB (secBOf n s)).count + passChange n (passesOf (eventsOf s)) s) := by
  obtain ⟨hman, himg, hframe⟩ := settleTaken_state s.sup.taken.length s
  have hnone := settleTaken_noneRestores s.sup.taken.length hother
  have hbody := commitBody_man w s
  dsimp only at hbody
  generalize settleTaken s.sup.taken.length s = u at hr hman himg hframe hnone hbody
  have hsecs : cfgSecs u = cfgSecs s := by rw [cfgSecs, himg, ← cfgSecs]
  have hevents : eventsOf u = eventsOf s := by simp only [eventsOf, discarded, hframe]
  obtain ⟨hcounts, hrimg⟩ := commitSteps_counts (s := u) (hsecs ▸ hnodup) (hsecs ▸ hlt) (hsecs ▸ hn) hnone (hr ▸ hserves)
  rw [← hr] at hcounts hrimg hbody
  obtain ⟨hcomA, hcomB⟩ := commitRest_committed w (differing w r) u (commitSteps u) (hr ▸ hserves)
  have hrsecs : cfgSecs r = cfgSecs s := by rw [cfgSecs, hrimg, himg, ← cfgSecs]
  have hkept : SecKept n r (compareSecs w (differing w r) r) :=
    compareSecs_sec (hlt n hn) (hrsecs ▸ hlt) (differing_lt w r) hnot
  have hmoved := CountsMove.of_kept (secKept_of_man hman) hcounts hkept
  rw [hevents, passChange_congr himg] at hmoved
  rw [comSec, comSecB, hbody, hcomA, hcomB, ← hr]
  exact hmoved

/-- Settles O56: the counts that the derivation leaves are those that the commands, the comparison and the switch of the banks
pass on. -/
theorem countsFollowPasses : Obligations.CountsFollowPasses := by
  unfold Obligations.CountsFollowPasses
  intro w d n s hdue hnodup hlt hn r pol change sat
  exact ⟨fun hserves hnot hother => ⟨_, exec_commit w d s hdue, commitBody_counts hnodup hlt hn hother rfl hserves hnot⟩,
    fun m h hends hends' => passChange_opposite hends hends' _⟩

end Sys2Proof.Machine
